-- ==== Sys2Proof/Word.lean ====
section
/-! DEFINITION. The bit-string types of the manual's conventions (R5): octet, quarter-word, word. -/

namespace Sys2Proof

/-- Octet: 8 bits (Table 0.3). -/
abbrev Byte := BitVec 8

/-- Word: 128 bits (Table 0.3). -/
abbrev Word := BitVec 128

/-- A string of octets, in ascending order of octet number. -/
abbrev Octets := List Byte

/-- The value of a key slot's key: 256 bits, of which a 128-bit key uses the low half (R332). -/
abbrev Key := BitVec 256

end Sys2Proof
end

