-- ==== Sys2Proof/Syntax.lean ====
section
/-! DEFINITION. The commands the block takes: one constructor of `Instr` per row of spec/opcode_table.json, and the plain data their
operands are made of.  An operand holds what comes from OUTSIDE the part at that instant (octets on a port, the fields of a frame on the
air, a pin, a measurement, the outcome of a physical process); everything the part computes itself stands in `State`.

Every command's first operand `dt` is the number of 4 ns ticks of the 250 MHz time clock (R174) that pass between the command before it
and this one. -/

namespace Sys2Proof

/-- Front ends, which also name receive pipelines (Table 3.1; codes 0 SA, 1 SB, 2 H). -/
inductive Fe where
  | sa | sb | h
  deriving DecidableEq, Repr

/-- Backhaul ports P0 and P1 (R389). -/
inductive Port where
  | p0 | p1
  deriving DecidableEq, Repr

/-- Aerial ports of a front end (Table 3.1). -/
inductive Aerial where
  | a | b
  deriving DecidableEq, Repr

/-- Worlds W0 to W7. -/
abbrev World := Fin 8

/-- Mailboxes M0 to M7. -/
abbrev Mbox := Fin 8

/-- Receive lanes L0 to L47. -/
abbrev Lane := Fin 48

/-- Firmware and configuration slots 0 and 1 of the boot flash (Table 2.6). -/
abbrev Slot := Fin 2

/-- Lane power domains (R138). -/
inductive LaneDom where
  | a | b
  deriving DecidableEq, Repr

/-! ## Frames on the air -/

/-- What a lane tells preambles apart by (Table 5.2). -/
inductive Preamble where
  | fsk50        -- 0x55 at 50 ksym/s
  | fskOuter     -- 0x55 at 100 ksym/s, ±50 kHz
  | fskInner     -- 0x55 at 100 ksym/s, ±25 kHz
  | hs           -- spreading sequence and its complement
  | oqpsk        -- zero symbols
  | fsk500       -- 0x55 at 500 ksym/s
  deriving DecidableEq, Repr

/-- A preamble as a lane finds it: its kind, and how many of its symbols, or of its units of 16 chips for HS, the lane has found (R121, R122). -/
structure HeardPreamble where
  kind : Preamble
  units : Nat
  deriving DecidableEq, Repr

/-- A PHY header as received: the fields of the SUN-FSK PHR (Table 4.3), of the O-QPSK PHR (R89), or the 36 information bits of the
Helec header after Golay decoding of the combined copies (Table 4.5, R94). -/
inductive PhyHeader where
  | sunFsk (modeSwitch : Bool) (reserved : BitVec 2) (fcsType : Bool) (whitening : Bool) (length : BitVec 11)
  | oqpsk (length : BitVec 7)
  | helec (bits : BitVec 36)
  deriving DecidableEq, Repr

/-- An 802.15.4 address. -/
inductive Addr where
  | none
  | short (a : BitVec 16)
  | ext (eui : BitVec 64)
  deriving DecidableEq, Repr

/-- A Transit Information option of a DAO (R282): its parent address (`none`: the part) and its fields. -/
structure Transit where
  parent : Option (BitVec 64)
  lifetime : Nat
  pathControl : Nat
  deriving DecidableEq, Repr

/-- The channel groups an element 0x01 carries (Table 6.2). -/
structure GroupBitmap where
  group : Nat
  bitmap : BitVec 64
  deriving DecidableEq, Repr

/-- A neighbour's router beacon element 0x01 (Table 6.2). -/
structure BeaconElem where
  oui : BitVec 24
  format : Nat
  routerId : Nat
  interval : Nat
  sliceCentre : Nat
  raster : Nat
  groups : List GroupBitmap
  deriving DecidableEq, Repr

/-- The RFC 4944 fragment header of an upstream frame (R536); `offset` in octets. -/
structure FragHdr where
  tag : Nat
  size : Nat
  offset : Nat
  deriving DecidableEq, Repr

/-- The MAC payload of a received frame, as its fields. -/
inductive AirPayload where
  /-- An upstream data frame: the uncompressed IPv6 octets it carries, whether its RFC 6282 headers are of a form the part takes (R536),
  its Traffic Class (0 where elided), its fragment header. -/
  | data (ip : Octets) (decompOk : Bool) (trafficClass : BitVec 8) (frag : Option FragHdr)
  /-- JOIN-REQ, element 0x03 (Table 13.9). -/
  | joinReq (wakeExp : Fin 8) (listen : Bool) (nodeNonce : BitVec 64)
  /-- JOIN-CONFIRM, element 0x05. -/
  | joinConfirm (partNonce : BitVec 64)
  /-- A DAO (R282). -/
  | dao (rplInstance : Nat) (targets : List (BitVec 64)) (pathSeq : BitVec 8) (transits : List Transit) (k : Bool)
  /-- A DIS (R281). -/
  | dis (multicast : Bool)
  /-- An enhanced beacon with element 0x01 (R169). -/
  | routerBeacon (e : BeaconElem)
  | other
  deriving DecidableEq, Repr

/-- The auxiliary security header of a frame (R369), and how many of its octets CCM* authenticates without encrypting them: the MAC header
through that header, with its header IEs (R371). -/
structure AirSec where
  level : Nat
  keyIndex : BitVec 8
  fc : BitVec 32
  hdr : Nat
  deriving DecidableEq, Repr

/-- A frame as it stands at its end: its PSDU as it comes off the air, whitened where its DW bit is set and left out in the Helec modes, whose
PSDU comes from the codewords (R87, R88, R95); and what its fields say, those of an encrypted payload under the key it was made with
(R149 to R155, R372). -/
structure AirFrame where
  psdu : Octets
  version : BitVec 2
  ftype : BitVec 3
  ar : Bool
  seq : Option (BitVec 8)
  dstPan : Option (BitVec 16)
  dst : Addr
  srcPan : Option (BitVec 16)
  src : Addr
  sec : Option AirSec
  payload : AirPayload
  deriving DecidableEq, Repr

/-- The frame-control field (R152). -/
structure FrameCtl where
  version : BitVec 2
  ftype : BitVec 3
  ar : Bool
  deriving DecidableEq, Repr

/-- What the matched filters of the two ports give over the diversity window (R125): energies s and e, and the level in 0.5 dB steps
above −170 dBm (Table 5.4). -/
structure PortMetric where
  s : Nat
  e : Nat
  level : BitVec 9
  deriving DecidableEq, Repr

/-! ## Frames on the backhaul -/

/-- The first octets of a received Ethernet frame, before any cell is requested (R391). -/
structure EthHdr where
  dstMac : BitVec 48
  srcMac : BitVec 48
  vlan : Option (BitVec 12 × BitVec 3)
  ethertype : BitVec 16
  deriving DecidableEq, Repr

/-- A PRP trailer (R397): SequenceNr, LanId, and whether LSDU_size equals the size it names (R399). -/
structure PrpTrailer where
  seq : BitVec 16
  lanId : BitVec 4
  sizeOk : Bool
  deriving DecidableEq, Repr

/-- What a PTP message says in its body (R417, R418): times in whole ns of the master; an Announce with its dataset's rank, the smaller the better. -/
inductive PtpBody where
  | sync (twoStep : Bool) (originNs : Nat)
  | followUp (originNs : Nat)
  | delayResp (receiveNs : Nat) (requester : BitVec 80)
  | announce (rank : BitVec 168) (ptpTimescale : Bool) (utcOffset : Nat) (utcValid leap61 leap59 : Bool)
  | other
  deriving DecidableEq, Repr

/-- A received PTP message: its domain, the port identity of its source, sequenceId, correctionField in units of 2^−16 ns. -/
structure PtpMsg where
  domain : BitVec 8
  source : BitVec 80
  seq : BitVec 16
  correction : Int
  body : PtpBody
  deriving DecidableEq, Repr

/-- Content of a received Ethernet frame. -/
inductive EthPayload where
  /-- An IPv6 packet: source, destination, Traffic Class, UDP ports where it is UDP, payload octets, and the UDP payload itself where it
  is addressed to the part (a Verieli message). -/
  | ipv6 (src dst : BitVec 128) (tc : BitVec 8) (udp : Option (BitVec 16 × BitVec 16)) (payloadLen : Nat) (udpData : Octets)
  | routerAdvert
  | neighbourSolicit
  | ptp (m : PtpMsg)
  | supervision (source : BitVec 48)
  | macControl (opcode : BitVec 16) (quanta : BitVec 16)
  deriving DecidableEq, Repr

/-- A received Ethernet frame at its end (R392, R394, R396). -/
structure EthFrame where
  hdr : EthHdr
  size : Nat
  fcsOk : Bool
  trailer : Option PrpTrailer
  payload : EthPayload
  deriving DecidableEq, Repr

/-- A datagram for a mailbox (R422, R425): source address and port, destination port, octets. -/
structure Datagram where
  srcAddr : BitVec 128
  srcPort : BitVec 16
  dstPort : BitVec 16
  octets : Octets
  deriving DecidableEq, Repr

/-! ## Outcomes of physical processes -/

/-- The PUF's response decoded (R328): corrections made in each block, and the information bits s[0] to s[3] padded to 58 octets. -/
structure PufRead where
  corrections : List Nat
  secret : Octets
  deriving DecidableEq, Repr

/-- Outcome of the start-up self-tests' physical side (Table 2.4): what the PUF gives where every block decodes, whether the entropy source's first and second collections pass, which cipher units pass test 3, which of tests 4 to 9 fails
first (`none`: all pass). -/
structure TestEnv where
  puf : Option PufRead
  entropy1 : Bool
  entropy2 : Bool
  unitOk : List Bool
  firstFail : Option (Fin 6)
  deriving DecidableEq, Repr

/-- What a start meets outside the part (R29, R30, R252, R515): RECOVER as sampled at step 2, the self-tests, whether the memory trains,
whether each front end's rails are in range at step 15, and each lane's known-answer test at step 16. -/
structure StartEnv where
  recover : Bool
  tests : TestEnv
  dramOk : Bool
  feRails : List Bool
  laneKat : List Bool
  /-- Die temperature of each front end, averaged (R62). -/
  feTemps : List Int := [0, 0, 0]
  /-- VBAT in mV (R184). -/
  vbatMv : Nat := 3000
  deriving DecidableEq, Repr

/-- Class A tamper sensors (Table 12.11). -/
inductive SensorA where
  | shield | light
  deriving DecidableEq, Repr

/-- Class B tamper sensors (Table 12.11). -/
inductive SensorB where
  | supply | clock | temperature
  deriving DecidableEq, Repr

/-- Causes of a power-fail instant (R463). -/
inductive FailCause where
  | pfi | droop
  deriving DecidableEq, Repr

/-- JTAG instructions the TAP accepts outside MANUFACTURE (R526). -/
inductive JtagInstr where
  | bypass | idcode | samplePreload | extest | extestPulse | extestTrain | clamp | highz
  deriving DecidableEq, Repr

/-- Lane fault causes (Table 5.6). -/
inductive LaneFaultCause where
  | parity | stuck | timeCopy | kat
  deriving DecidableEq, Repr

/-- Holders of operation tags (Table 18.3). -/
inductive TagHolder where
  | lane (l : Lane)
  | tx (f : Fe)
  | mcore (i : Fin 4)
  | sawmill
  | portRx (p : Port)
  | prpTx
  | m0
  | sweep | walker | audit
  deriving DecidableEq, Repr

/-- Islands at the far end of a channel (Table 18.1). -/
inductive Island where
  | aon | core | sec | cpu | canopy | table | queue | heartwood | ldpc | lanesA | lanesB | feSa | feSb | feH | eth | ddr
  deriving DecidableEq, Repr

/-- What is read where a word beyond correction is met (R233): the packet at the head of an order, a frame of a front end's retry set by its
place there, the first frame of a node's calendar flow, or a packet under construction. -/
inductive ReadAt where
  | head (q : Nat) (f : Fe)
  | retry (f : Fe) (n : Nat)
  | flow (node : Nat)
  | lane (l : Lane)
  | port (p : Port)
  deriving DecidableEq, Repr

/-- Units whose faults R500 treats (Table 18.6), lanes apart.  The last four are its last row: a word corrected at a read (R231), a word
beyond correction or, where `late`, a DRAM wait beyond 2 µs (R233, R498), a cell that becomes free (R253), and a logical page of Heartwood
with a line beyond correction (R472).  `staging`: the word was read from staging, and not from DRAM. -/
inductive FaultUnit where
  | decoder (i : Fin 4)
  | cipher (i : Fin 4)
  | mcore (i : Fin 4)
  | frontEnd (f : Fe)
  | staging (bank : Fin 5)
  | queueDesc (q : Nat) (oneGood : Bool)
  | islandTime (i : Island)
  | serdes (p : Port)
  | corrected (staging : Bool) (cell : Nat)
  | uncorrectable (place : ReadAt) (staging late : Bool) (pos : Nat)
  | cellFree (cell : Nat)
  | heartPage (page : Nat)
  deriving DecidableEq, Repr

/-- Counters whose ceilings Heartwood reserves (R377, R427). -/
inductive CeilKind where
  | node (i : Nat)
  | group (slot : Nat)
  | join
  | mailbox (m : Mbox)
  deriving DecidableEq, Repr

/-- Channel-stream energy of one channel over the last 10 s window (Table 11.2, busy_pm): busy intervals per thousand. -/
structure BusyWindow where
  fe : Fe
  channel : Nat
  perMille : Nat
  deriving DecidableEq, Repr

/-- The part of a channel a canopy round measures outside the part's own bookkeeping (Table 11.2): channel windows, and unit busy permille
of D0 to D3 and C0 to C3. -/
structure CanopyEnv where
  busy : List BusyWindow
  unitPm : List Nat
  late : Bool
  deriving DecidableEq, Repr

/-- How the detector of the frame just sent read (R74): more than 6 dB below the curve's lowest point, below that point, within the curve, above
its highest point, more than 3 dB above it. -/
inductive DetReading where
  | low | below | within | above | high
  deriving DecidableEq, Repr

/-! ## The commands -/

/-- What FW-ACTIVATE meets: whether the flash fails to take the directory record in time (R439), and the ticks that steps 1 to 3 of Table 17.3 take. -/
structure FwRun where
  late : Bool
  prep : Nat
  deriving DecidableEq, Repr

/-- One constructor per row of the table of operations and events. -/
inductive Instr where
  -- host commands: mailbox `m` executes its oldest accepted request, which is this command (R433)
  | identityGet (dt : Nat) (m : Mbox)
  | securityStatus (dt : Nat) (m : Mbox)
  | attest (dt : Nat) (m : Mbox)
  | selftestRun (dt : Nat) (m : Mbox) (r : TestEnv)
  | cfgKeyInstall (dt : Nat) (m : Mbox)
  | mboxKeyInstall (dt : Nat) (m : Mbox)
  | lifecycleOperate (dt : Nat) (m : Mbox)
  | retirePrepare (dt : Nat) (m : Mbox)
  | retire (dt : Nat) (m : Mbox)
  | zeroiseAll (dt : Nat) (m : Mbox)
  | restart (dt : Nat) (m : Mbox)
  | configSlotWrite (dt : Nat) (m : Mbox) (flashLate : Bool)
  | configCheck (dt : Nat) (m : Mbox)
  | configActivate (dt : Nat) (m : Mbox) (flashLate : Bool)
  | configConfirm (dt : Nat) (m : Mbox) (flashLate : Bool)
  | fwSlotWrite (dt : Nat) (m : Mbox) (flashLate : Bool)
  | fwSlotCheck (dt : Nat) (m : Mbox)
  | fwActivate (dt : Nat) (m : Mbox) (run : FwRun)
  | fwConfirm (dt : Nat) (m : Mbox) (flashLate : Bool)
  | nodeSearch (dt : Nat) (m : Mbox)
  | nodeNext (dt : Nat) (m : Mbox)
  | nodeRemove (dt : Nat) (m : Mbox)
  | tableFlushWorld (dt : Nat) (m : Mbox)
  | rehash (dt : Nat) (m : Mbox)
  | linkGet (dt : Nat) (m : Mbox)
  | keyLoad (dt : Nat) (m : Mbox)
  | keyErase (dt : Nat) (m : Mbox)
  | keyList (dt : Nat) (m : Mbox)
  | ctxSave (dt : Nat) (m : Mbox)
  | ctxRestore (dt : Nat) (m : Mbox)
  | timeGet (dt : Nat) (m : Mbox)
  | timeSet (dt : Nat) (m : Mbox)
  | localOffsetSet (dt : Nat) (m : Mbox)
  | addHour (dt : Nat) (m : Mbox)
  | subHour (dt : Nat) (m : Mbox)
  | countdownSet (dt : Nat) (m : Mbox)
  | almanacAdd (dt : Nat) (m : Mbox)
  | almanacRemove (dt : Nat) (m : Mbox)
  | almanacList (dt : Nat) (m : Mbox)
  | canopyPin (dt : Nat) (m : Mbox)
  | canopyUnpin (dt : Nat) (m : Mbox)
  | canopyFreeze (dt : Nat) (m : Mbox)
  | canopyThaw (dt : Nat) (m : Mbox)
  | canopyLogRead (dt : Nat) (m : Mbox)
  | backhaulStatus (dt : Nat) (m : Mbox)
  | backhaulSpeed (dt : Nat) (m : Mbox)
  | rfTestStart (dt : Nat) (m : Mbox)
  | rfTestStop (dt : Nat) (m : Mbox)
  | tallySnapshot (dt : Nat) (m : Mbox)
  | tallyRead (dt : Nat) (m : Mbox)
  | qstatsRead (dt : Nat) (m : Mbox)
  | eventAck (dt : Nat) (m : Mbox)
  | eventSubscribe (dt : Nat) (m : Mbox)
  -- transactions and datagrams
  | m0Write (dt : Nat) (length : Nat) (octets : Octets)
  | m0Read (dt : Nat) (wholly : Bool)
  | m0Status (dt : Nat)
  | m0BadCommand (dt : Nat) (first : Byte)
  | verieliRequest (dt : Nat) (m : Mbox) (d : Datagram)
  -- start, reset, power, zeroisation, tamper
  | resetNRise (dt : Nat) (e : StartEnv)
  | resetNFall (dt : Nat)
  | radioOn (dt : Nat)
  | powerFail (dt : Nat) (cause : FailCause) (holdUp : Bool) (supplyLost : Bool)
  | pfiNHigh (dt : Nat) (e : StartEnv)
  | zeroiseNLow (dt : Nat)
  | zeroiseNHigh (dt : Nat) (e : StartEnv)
  | zeroisationEnd (dt : Nat) (e : StartEnv)
  | tamperClassA (dt : Nat) (sensor : SensorA)
  | tamperClassB (dt : Nat) (sensor : SensorB) (e : StartEnv)
  | periodicSelftest (dt : Nat) (r : TestEnv)
  | drbgReseed (dt : Nat) (first second : Bool)
  | jtagInstructionUpdate (dt : Nat) (i : JtagInstr)
  -- receive
  | preambleDetected (dt : Nat) (l : Lane) (p : HeardPreamble) (corrA corrB : Nat) (level : Nat)
  | sfdTimeout (dt : Nat) (l : Lane)
  | sfdFound (dt : Nat) (l : Lane) (word : BitVec 32) (offset8 : Int) (a b : PortMetric)
  | phyHeaderEnd (dt : Nat) (l : Lane) (hdr : PhyHeader)
  | ackOwed (dt : Nat) (l : Lane) (fc : FrameCtl)
  | codewordReady (dt : Nat) (l : Lane)
  | codewordDecoded (dt : Nat) (core : Fin 4) (iterations : Nat) (word : BitVec 2048)
  | frameEnd (dt : Nat) (l : Lane) (f : AirFrame)
  | laneAssignmentEffect (dt : Nat) (l : Lane)
  | laneFault (dt : Nat) (l : Lane) (cause : LaneFaultCause)
  | laneKat (dt : Nat) (l : Lane) (pass : Bool)
  | laneDomainPowerDown (dt : Nat) (d : LaneDom)
  | laneReturn (dt : Nat) (d : LaneDom) (kat : List Bool)
  -- transmit
  | transmitRequest (dt : Nat) (f : Fe) (temp : Int)
  | transmissionCommit (dt : Nat) (f : Fe)
  | transmissionEnd (dt : Nat) (f : Fe) (samples : List Int) (det : DetReading)
  | overpowerAbort (dt : Nat) (f : Fe) (excessQdb : Int)
  | backgroundCalibration (dt : Nat) (f : Fe) (temp : Int)
  | calibrationComplete (dt : Nat) (f : Fe) (temp : Int)
  | feLockLost (dt : Nat) (f : Fe) (failed : Nat)
  | rxSynthCalibration (dt : Nat) (f : Fe) (temp : Int)
  | feSleep (dt : Nat) (f : Fe)
  | feWake (dt : Nat) (f : Fe)
  | backoffExpiry (dt : Nat) (f : Fe)
  | sensingEnd (dt : Nat) (f : Fe) (power : Int) (blanked : Bool)
  | ackDeadline (dt : Nat) (f : Fe)
  | continuationEnd (dt : Nat) (eui : BitVec 64)
  | neighbourWindow (dt : Nat) (routerId : Nat)
  | frameSelect (dt : Nat) (f : Fe)
  -- wake cycle
  | gateEntryOpen (dt : Nat) (f : Fe)
  | gateChangeover (dt : Nat) (f : Fe)
  | calendarSlot (dt : Nat)
  | farListMove (dt : Nat)
  | queueSample (dt : Nat)
  -- time
  | timeStep (dt : Nat)
  | incrementWrite (dt : Nat) (incNs : BitVec 3) (incFrac : BitVec 32)
  | meridianUpdate (dt : Nat) (copies : List (Island × Int))
  | ptpMeasurement (dt : Nat) (p : Port)
  | masterLoss (dt : Nat)
  | holdoverDegraded (dt : Nat)
  | ppsInEdge (dt : Nat)
  | rtcSecond (dt : Nat)
  | rtcAdjust (dt : Nat) (stampErr : Int)
  | rtcOscStopped (dt : Nat)
  -- security
  | securityProcessing (dt : Nat) (core : Fin 4) (p : Fe)
  | joinTimeout (dt : Nat) (index : Nat)
  | reassemblyTimeout (dt : Nat) (src : BitVec 64) (tag size : Nat)
  | dioTrickle (dt : Nat) (w : World)
  | cipherJobPost (dt : Nat) (job : Word) (input : Octets) (parityOk : Bool)
  | cipherJobEnd (dt : Nat) (u : Fin 4) (fault : Bool)
  | fcCeilingWrite (dt : Nat) (k : CeilKind)
  -- backhaul
  | backhaulCellRequest (dt : Nat) (p : Port) (hdr : EthHdr)
  | backhaulFrameEnd (dt : Nat) (p : Port) (f : EthFrame)
  | pauseEnd (dt : Nat) (p : Port)
  | pauseWatchdog (dt : Nat) (p : Port)
  | downstreamClassify (dt : Nat) (core : Fin 4) (compressed : Octets) (hdrCompressed : Nat)
  | sawmillSend (dt : Nat)
  | egressSelect (dt : Nat)
  | supervisionSend (dt : Nat)
  | pathWindow (dt : Nat)
  | linkUp (dt : Nat) (p : Port) (phy10OrHalf : Bool)
  | linkDown (dt : Nat) (p : Port)
  | loadMeasure (dt : Nat) (rx tx : Nat) (rx1 tx1 : Nat)
  | speedChangeComplete (dt : Nat) (p : Port)
  | speedStepTimeout (dt : Nat) (p : Port)
  | lpiEntry (dt : Nat) (p : Port)
  -- events to hosts
  | eventMessageSend (dt : Nat) (m : Mbox)
  | eventResend (dt : Nat) (m : Mbox)
  -- node table and memory upkeep
  | ageingSweepVisit (dt : Nat)
  | shadowWalkerVisit (dt : Nat)
  | recordUncorrectable (dt : Nat) (index : Nat)
  | poolAudit (dt : Nat) (stray : List (Nat × Nat))
  | dramRetrain (dt : Nat) (ok : Bool)
  -- Canopy
  | canopyRound (dt : Nat) (e : CanopyEnv)
  | sliceMove (dt : Nat) (f : Fe)
  | assignmentEffect (dt : Nat) (index : Nat)
  | assignmentWithdrawal (dt : Nat) (index : Nat)
  | freezeEnd (dt : Nat)
  | canopyUnwatched (dt : Nat) (f : Fe) (channel : Nat)
  -- Heartwood
  | bufferClose (dt : Nat)
  | homing (dt : Nat)
  | tallyJournal (dt : Nat)
  -- faults
  | unitFault (dt : Nat) (u : FaultUnit)
  | tagHoldExpiry (dt : Nat) (h : TagHolder)
  | channelTimeout (dt : Nat) (i : Island)
  | thermalStep (dt : Nat) (tj : Int) (e : StartEnv)
  | finalResponse (dt : Nat) (m : Mbox) (handOffOk : Bool)
  | testLogicReset (dt : Nat) (e : StartEnv)
  | aonReset (dt : Nat)
  | crystalRestart (dt : Nat)
  | destinationAddressReceived (dt : Nat) (l : Lane) (dstPan : Option (BitVec 16)) (dst : Addr)
  | rxOversize (dt : Nat) (p : Port)
  | hardwareGeneratorReseed (dt : Nat)
  | rfTestEnd (dt : Nat) (f : Fe)
  deriving DecidableEq, Repr

end Sys2Proof
end

