-- ==== Sys2Proof/Decode.lean ====
section
/-! DEFINITION. The table of operations and events gives its rows no bits: a command comes from outside as its operands, not as a word.
No word spells one. -/

/-- The command that a word spells: none, since no row of spec/opcode_table.json has bits (log entry 2). -/
def Sys2Proof.decodeTableWord (_nbits _w : Nat) : Option Sys2Proof.Instr := none
end

