-- ==== Sys2Proof/Machine/Octets.lean ====
section
/-! DEFINITION. Octet strings and the byte orders of Table 0.3: little-endian in images, firmware headers and Heartwood records,
big-endian in Verieli messages and event data. -/

namespace Sys2Proof.Machine

/-- The number whose octets these are, first octet least significant. -/
def leNat : Octets → Nat
  | [] => 0
  | b :: t => b.toNat + 256 * leNat t

/-- The number whose octets these are, first octet most significant. -/
def beNat (o : Octets) : Nat :=
  o.foldl (fun a b => 256 * a + b.toNat) 0

/-- `n` octets of `v`, least significant first. -/
def toLe : Nat → Nat → Octets
  | 0, _ => []
  | n + 1, v => BitVec.ofNat 8 v :: toLe n (v / 256)

/-- `n` octets of `v`, most significant first. -/
def toBe (n v : Nat) : Octets := (toLe n v).reverse

/-- Octets `off` to `off + len − 1`; shorter where the string ends. -/
def sliceOct (o : Octets) (off len : Nat) : Octets := (o.drop off).take len

/-- The little-endian field of `len` octets at `off`. -/
def leField (o : Octets) (off len : Nat) : Nat := leNat (sliceOct o off len)

/-- The big-endian field of `len` octets at `off`. -/
def beField (o : Octets) (off len : Nat) : Nat := beNat (sliceOct o off len)

/-- A number of `bits` bits read as two's complement. -/
def signed (bits v : Nat) : Int := if v < 2 ^ (bits - 1) then (v : Int) else (v : Int) - (2 ^ bits : Nat)

/-- A signed number as `bits` bits of two's complement. -/
def unsigned (bits : Nat) (v : Int) : Nat := (v % (2 ^ bits : Nat)).toNat

/-- All octets are zero. -/
def allZero (o : Octets) : Bool := o.all (· == 0)

/-- Completed with zero octets to `n`. -/
def padTo (n : Nat) (o : Octets) : Octets := o ++ List.replicate (n - o.length) 0

/-- The octets as numbers. -/
def octNats (o : Octets) : List Nat := o.map BitVec.toNat

/-- Numbers below 256 as octets. -/
def natOcts (l : List Nat) : Octets := l.map (BitVec.ofNat 8)

/-- ASCII octets of a string. -/
def ascii (s : String) : Octets := s.toList.map fun c => BitVec.ofNat 8 c.toNat

end Sys2Proof.Machine
end

