-- ==== Sys2Proof/Machine/Cipher.lean ====
section
/-! DEFINITION. The algorithms the cipher units, the KDF engine and the boot ROM apply: AES (FIPS 197), AES-CMAC, AES-CTR, AES key wrap
(SP 800-38F) and the KDF of SP 800-108 in counter mode (R329).  Blocks are lists of numbers below 256, so that Lean's kernel evaluates
them with its arithmetic on numerals. -/

namespace Sys2Proof.Machine

/-- The S-box of FIPS 197, entry `b` in bits [8b + 7 : 8b]. -/
def aesSboxBits : Nat :=
  0x16bb54b00f2d99416842e6bf0d89a18cdf2855cee9871e9b948ed9691198f8e19e1dc186b95735610ef6034866b53e708a8bbd4b1f74dde8c6b4a61c2e2578ba08ae7a65eaf4566ca94ed58d6d37c8e779e4959162acd3c25c2406490a3a32e0db0b5ede14b8ee4688902a22dc4f816073195d643d7ea7c41744975fec130ccdd2f3ff1021dab6bcf5389d928f40a351a89f3c507f02f94585334d43fbaaefd0cf584c4a39becb6a5bb1fc20ed00d153842fe329b3d63b52a05a6e1b1a2c830975b227ebe28012079a059618c323c7041531d871f1e5a534ccf73f362693fdb7c072a49cafa2d4adf04759fa7dc982ca76abd7fe2b670130c56f6bf27b777c63

/-- The inverse S-box, laid out likewise. -/
def aesInvSboxBits : Nat :=
  0x7d0c2155631469e126d677ba7e042b17619953833cbbebc8b0f52aae4d3be0a0ef9cc9939f7ae52d0d4ab519a97f51605fec8027591012b131c7078833a8dd1ff45acd78fec0db9a2079d2c64b3e56fc1bbe18aa0e62b76f89c5291d711af1476edf751ce837f9e28535ade72274ac9673e6b4f0cecff297eadc674f4111913a6b8a130103bdafc1020f3fca8f1e2cd00645b3b80558e4f70ad3bc8c00abd890849d8da75746155edab9edfd5048706c92b6655dcc5ca4d41698688664f6f87225d18b6d49a25b76b224d92866a12e084ec3fa420b954cee3d23c2a632947b54cbe9dec444438e3487ff2f9b8239e37cfbd7f3819ea340bf38a53630d56a0952

def aesSub (b : Nat) : Nat := (aesSboxBits >>> (8 * b)) % 256

def aesInvSub (b : Nat) : Nat := (aesInvSboxBits >>> (8 * b)) % 256

/-- Multiplication by x in GF(2^8). -/
def aesXtime (b : Nat) : Nat := if b < 128 then 2 * b else (2 * b) ^^^ 0x11b

/-- Octet-wise exclusive or. -/
def xorNats : List Nat → List Nat → List Nat
  | a :: s, b :: t => (a ^^^ b) :: xorNats s t
  | _, _ => []

/-- MixColumns on one column. -/
def aesMixCol (a b c d : Nat) : List Nat :=
  let t := a ^^^ b ^^^ c ^^^ d
  [a ^^^ t ^^^ aesXtime (a ^^^ b), b ^^^ t ^^^ aesXtime (b ^^^ c), c ^^^ t ^^^ aesXtime (c ^^^ d), d ^^^ t ^^^ aesXtime (d ^^^ a)]

def aesMix : List Nat → List Nat
  | a :: b :: c :: d :: r => aesMixCol a b c d ++ aesMix r
  | _ => []

/-- InvMixColumns: the columns are first multiplied so that MixColumns gives the inverse. -/
def aesInvMix : List Nat → List Nat
  | a :: b :: c :: d :: r =>
    let u := aesXtime (aesXtime (a ^^^ c))
    let v := aesXtime (aesXtime (b ^^^ d))
    aesMixCol (a ^^^ u) (b ^^^ v) (c ^^^ u) (d ^^^ v) ++ aesInvMix r
  | _ => []

def aesShiftRows : List Nat → List Nat
  | [a0, a1, a2, a3, b0, b1, b2, b3, c0, c1, c2, c3, d0, d1, d2, d3] =>
    [a0, b1, c2, d3, b0, c1, d2, a3, c0, d1, a2, b3, d0, a1, b2, c3]
  | l => l

def aesInvShiftRows : List Nat → List Nat
  | [a0, a1, a2, a3, b0, b1, b2, b3, c0, c1, c2, c3, d0, d1, d2, d3] =>
    [a0, d1, c2, b3, b0, a1, d2, c3, c0, b1, a2, d3, d0, c1, b2, a3]
  | l => l

/-- Splits into groups of `n`; `fuel` bounds the groups. -/
def chunksOf {α : Type} (n : Nat) : Nat → List α → List (List α)
  | 0, _ => []
  | fuel + 1, l => if l.isEmpty then [] else l.take n :: chunksOf n fuel (l.drop n)

/-- Key expansion: `ws` holds the words made so far, newest first; `i` is the next word's number, `nk` the key's words. -/
def aesExpandFrom (nk : Nat) : Nat → Nat → Nat → List (List Nat) → List (List Nat)
  | 0, _, _, ws => ws
  | fuel + 1, i, rcon, ws =>
    let prev := ws.headD []
    let back := ws.getD (nk - 1) []
    if i % nk = 0 then
      let r := (prev.drop 1 ++ prev.take 1).map aesSub
      let t := match r with
        | a :: q => (a ^^^ rcon) :: q
        | [] => []
      aesExpandFrom nk fuel (i + 1) (aesXtime rcon) (xorNats back t :: ws)
    else if nk = 8 ∧ i % nk = 4 then
      aesExpandFrom nk fuel (i + 1) rcon (xorNats back (prev.map aesSub) :: ws)
    else
      aesExpandFrom nk fuel (i + 1) rcon (xorNats back prev :: ws)

/-- Round keys of a 16- or 32-octet key, in order. -/
def aesRoundKeys (key : List Nat) : List (List Nat) :=
  let nk := key.length / 4
  let ws := aesExpandFrom nk (4 * (nk + 7) - nk) nk 1 (chunksOf 4 8 key).reverse
  chunksOf 16 15 ws.reverse.flatten

def aesEncRounds : List (List Nat) → List Nat → List Nat
  | [], s => s
  | [k], s => xorNats (aesShiftRows (s.map aesSub)) k
  | k :: ks, s => aesEncRounds ks (xorNats (aesMix (aesShiftRows (s.map aesSub))) k)

/-- AES forward cipher on one block. -/
def aesEnc (key blk : List Nat) : List Nat :=
  match aesRoundKeys key with
  | k :: ks => aesEncRounds ks (xorNats blk k)
  | [] => blk

def aesDecRounds : List (List Nat) → List Nat → List Nat
  | [], s => s
  | [k], s => xorNats ((aesInvShiftRows s).map aesInvSub) k
  | k :: ks, s => aesDecRounds ks (aesInvMix (xorNats ((aesInvShiftRows s).map aesInvSub) k))

/-- AES inverse cipher on one block. -/
def aesDec (key blk : List Nat) : List Nat :=
  match (aesRoundKeys key).reverse with
  | k :: ks => aesDecRounds ks (xorNats blk k)
  | [] => blk

/-- Big-endian number of a list of octets, and back. -/
def natOfBe (l : List Nat) : Nat := l.foldl (fun a b => 256 * a + b) 0

def beOfNat : Nat → Nat → List Nat
  | 0, _ => []
  | n + 1, v => beOfNat n (v / 256) ++ [v % 256]

/-- Doubling in GF(2^128), for the CMAC subkeys. -/
def cmacDouble (l : List Nat) : List Nat :=
  let v := natOfBe l
  let d := 2 * v
  beOfNat 16 (if v < 2 ^ 127 then d else (d % 2 ^ 128) ^^^ 0x87)

def cmacChain (rk : List Nat → List Nat) (k1 k2 : List Nat) : Nat → List Nat → List Nat → List Nat
  | 0, x, _ => x
  | fuel + 1, x, m =>
    if m.length ≤ 16 then
      if m.length = 16 then rk (xorNats x (xorNats m k1))
      else rk (xorNats x (xorNats (m ++ 0x80 :: List.replicate (15 - m.length) 0) k2))
    else cmacChain rk k1 k2 fuel (rk (xorNats x (m.take 16))) (m.drop 16)

/-- AES-CMAC (SP 800-38B). -/
def cmac (key msg : List Nat) : List Nat :=
  let k1 := cmacDouble (aesEnc key (List.replicate 16 0))
  let k2 := cmacDouble k1
  cmacChain (aesEnc key) k1 k2 (msg.length / 16 + 1) (List.replicate 16 0) msg

/-- The KDF of SP 800-108 in counter mode with AES-CMAC as PRF: the fixed input of R329. -/
def kdf (key label ctx : List Nat) (bits : Nat) : List Nat :=
  let block := fun i => cmac key (beOfNat 4 i ++ label ++ 0 :: ctx ++ beOfNat 4 bits)
  ((List.range ((bits + 127) / 128)).flatMap fun i => block (i + 1)).take (bits / 8)

/-- AES-CTR with the counter in the last four octets of the block (R424). -/
def ctrFrom (key pre : List Nat) : Nat → Nat → List Nat → List Nat
  | 0, _, _ => []
  | fuel + 1, c, m =>
    if m.isEmpty then []
    else xorNats (m.take 16) (aesEnc key (pre ++ beOfNat 4 c)) ++ ctrFrom key pre fuel (c + 1) (m.drop 16)

def ctr (key pre msg : List Nat) : List Nat := ctrFrom key pre (msg.length / 16 + 1) 0 msg

/-- One of the six passes of AES-KW wrapping; `t` counts the steps made. -/
def kwPass (key : List Nat) : Nat → List Nat → List (List Nat) → List Nat × List (List Nat)
  | _, a, [] => (a, [])
  | t, a, r :: rs =>
    let b := aesEnc key (a ++ r)
    let a' := xorNats (b.take 8) (beOfNat 8 (t + 1))
    let q := kwPass key (t + 1) a' rs
    (q.1, b.drop 8 :: q.2)

def kwPasses (key : List Nat) (n : Nat) : Nat → Nat → List Nat → List (List Nat) → List Nat × List (List Nat)
  | 0, _, a, rs => (a, rs)
  | k + 1, t, a, rs =>
    let q := kwPass key t a rs
    kwPasses key n k (t + n) q.1 q.2

/-- AES-KW wrapping (SP 800-38F, KW-AE). -/
def kwWrap (key pt : List Nat) : List Nat :=
  let rs := chunksOf 8 (pt.length / 8) pt
  let q := kwPasses key rs.length 6 0 (List.replicate 8 0xA6) rs
  q.1 ++ q.2.flatten

/-- One pass of unwrapping, over the semiblocks in descending order; `t` is the step undone first. -/
def kwUnpass (key : List Nat) : Nat → List Nat → List (List Nat) → List Nat × List (List Nat)
  | _, a, [] => (a, [])
  | t, a, r :: rs =>
    let b := aesDec key (xorNats a (beOfNat 8 t) ++ r)
    let q := kwUnpass key (t - 1) (b.take 8) rs
    (q.1, b.drop 8 :: q.2)

def kwUnpasses (key : List Nat) (n : Nat) : Nat → Nat → List Nat → List (List Nat) → List Nat × List (List Nat)
  | 0, _, a, rs => (a, rs)
  | k + 1, t, a, rs =>
    let q := kwUnpass key t a rs
    kwUnpasses key n k (t - n) q.1 q.2

/-- AES-KW unwrapping (KW-AD): `none` where the integrity check fails. -/
def kwUnwrap (key ct : List Nat) : Option (List Nat) :=
  let rs := (chunksOf 8 (ct.length / 8 - 1) (ct.drop 8)).reverse
  let n := rs.length
  let q := kwUnpasses key n 6 (6 * n) (ct.take 8) rs
  if ct.length < 24 ∨ ct.length % 8 ≠ 0 then none
  else if q.1 = List.replicate 8 0xA6 then some q.2.reverse.flatten
  else none

end Sys2Proof.Machine
end

