-- ==== Sys2Proof/Machine/Hash.lean ====
section
/-! DEFINITION. SHA-256, LMS verification of SP 800-208 with the parameters of R477, and the cyclic checks of the part's records. -/

namespace Sys2Proof.Machine

/-- Round constants of FIPS 180-4, eight to a number, the first at the top. -/
def shaRow : Nat → Nat
  | 0 => 0x428a2f9871374491b5c0fbcfe9b5dba53956c25b59f111f1923f82a4ab1c5ed5
  | 1 => 0xd807aa9812835b01243185be550c7dc372be5d7480deb1fe9bdc06a7c19bf174
  | 2 => 0xe49b69c1efbe47860fc19dc6240ca1cc2de92c6f4a7484aa5cb0a9dc76f988da
  | 3 => 0x983e5152a831c66db00327c8bf597fc7c6e00bf3d5a7914706ca635114292967
  | 4 => 0x27b70a852e1b21384d2c6dfc53380d13650a7354766a0abb81c2c92e92722c85
  | 5 => 0xa2bfe8a1a81a664bc24b8b70c76c51a3d192e819d6990624f40e3585106aa070
  | 6 => 0x19a4c1161e376c082748774c34b0bcb5391c0cb34ed8aa4a5b9cca4f682e6ff3
  | _ => 0x748f82ee78a5636f84c878148cc7020890befffaa4506cebbef9a3f7c67178f2

/-- Word j, from the top, of a number of eight 32-bit words. -/
def word32 (n j : Nat) : Nat := n / 2 ^ (224 - 32 * j) % 2 ^ 32

def shaStart : Nat := 0x6a09e667bb67ae853c6ef372a54ff53a510e527f9b05688c1f83d9ab5be0cd19

/-- A 32-bit word turned right by the sum of `n` over a list of places, the turned words combined by exclusive or. -/
def turned (l : List Nat) (x : Nat) : Nat := l.foldl (fun a n => a ^^^ (x / 2 ^ n + x % 2 ^ n * 2 ^ (32 - n))) 0

/-- What the compression carries from round to round: the last four words of its two sequences, newest first, and the next sixteen words of
the message schedule. -/
structure ShaRun where
  fast : List Nat
  slow : List Nat
  sched : List Nat

/-- Round t: the next word of each sequence, and the schedule's next word in place of the one used. -/
def ShaRun.round (t : Nat) (r : ShaRun) : ShaRun :=
  let at4 := fun (l : List Nat) (i : Nat) => l.getD i 0
  let e := at4 r.slow 0
  let a := at4 r.fast 0
  let choice := (e &&& at4 r.slow 1) + ((2 ^ 32 - 1 - e) &&& at4 r.slow 2)
  let most := (a &&& at4 r.fast 1) ||| (a &&& at4 r.fast 2) ||| (at4 r.fast 1 &&& at4 r.fast 2)
  let used := at4 r.sched 0
  let feed := at4 r.slow 3 + turned [6, 11, 25] e + choice + word32 (shaRow (t / 8)) (t % 8) + used
  let near := at4 r.sched 1
  let far := at4 r.sched 14
  let next := used + (turned [7, 18] near ^^^ near / 8) + at4 r.sched 9 + (turned [17, 19] far ^^^ far / 1024)
  { fast := (feed + turned [2, 13, 22] a + most) % 2 ^ 32 :: r.fast.take 3
    slow := (at4 r.fast 3 + feed) % 2 ^ 32 :: r.slow.take 3
    sched := r.sched.drop 1 ++ [next % 2 ^ 32] }

/-- One block of 64 octets into the chaining words. -/
def shaBlock (h blk : List Nat) : List Nat :=
  let r := (List.range 64).foldl (fun r t => ShaRun.round t r) { fast := h.take 4, slow := h.drop 4, sched := (chunksOf 4 16 blk).map natOfBe }
  (h.zip (r.fast ++ r.slow)).map fun p => (p.1 + p.2) % 2 ^ 32

/-- The octets hashed: the message, one bit, zero bits, and the message's length in bits in 8 octets. -/
def shaPadded (m : List Nat) : List Nat :=
  let whole := m.length / 64 * 64 + (if m.length % 64 < 56 then 64 else 128)
  m ++ 128 :: List.replicate (whole - m.length - 9) 0 ++ beOfNat 8 (8 * m.length)

/-- SHA-256 of a string of octets. -/
def sha256 (m : List Nat) : List Nat :=
  let p := shaPadded m
  ((chunksOf 64 (p.length / 64) p).foldl shaBlock ((List.range 8).map (word32 shaStart))).flatMap (beOfNat 4)

/-! ## LMS (RFC 8554 as SP 800-208 takes it): LMS_SHA256_M32_H15, LMOTS_SHA256_N32_W4 -/

/-- The hash chain of one LM-OTS digit from step `j`, `n` steps. -/
def otsChain (id q i : List Nat) : Nat → Nat → List Nat → List Nat
  | 0, _, t => t
  | n + 1, j, t => otsChain id q i n (j + 1) (sha256 (id ++ q ++ i ++ j :: t))

/-- The 4-bit digits of a string of octets. -/
def nibbles (l : List Nat) : List Nat := l.flatMap fun b => [b / 16, b % 16]

/-- The digits signed: those of Q, then those of its checksum. -/
def otsDigits (qh : List Nat) : List Nat :=
  let d := nibbles qh
  let c := d.foldl (fun a x => a + (15 - x)) 0
  (d ++ nibbles (beOfNat 2 (16 * c))).take 67

def otsCandidates (id q : List Nat) : Nat → List Nat → List (List Nat) → List (List Nat)
  | i, a :: as, y :: ys => otsChain id q (beOfNat 2 i) (15 - a) a y :: otsCandidates id q (i + 1) as ys
  | _, _, _ => []

def lmsPath (id : List Nat) : Nat → List (List Nat) → List Nat → List Nat
  | _, [], t => t
  | n, p :: ps, t =>
    let up := beOfNat 4 (n / 2)
    lmsPath id (n / 2) ps (sha256 (id ++ up ++ [0x83, 0x83] ++ (if n % 2 = 1 then p ++ t else t ++ p)))

/-- Verifies a 2 668-octet signature over `msg` under a 56-octet public key. -/
def lmsVerify (pub sig msg : List Nat) : Bool :=
  let id := (pub.drop 8).take 16
  let q := sig.take 4
  let ots := (sig.drop 4).take 2180
  let c := (ots.drop 4).take 32
  let ys := chunksOf 32 67 (ots.drop 36)
  let path := chunksOf 32 15 (sig.drop 2188)
  let qh := sha256 (id ++ q ++ [0x81, 0x81] ++ c ++ msg)
  let kc := sha256 (id ++ q ++ [0x80, 0x80] ++ (otsCandidates id q 0 (otsDigits qh) ys).flatten)
  let node := 32768 + natOfBe q
  let leaf := sha256 (id ++ beOfNat 4 node ++ [0x82, 0x82] ++ kc)
  pub.length = 56 && sig.length = 2668 && natOfBe (pub.take 4) = 7 && natOfBe ((pub.drop 4).take 4) = 3 &&
    natOfBe (ots.take 4) = 3 && natOfBe ((sig.drop 2184).take 4) = 7 && natOfBe q < 32768 &&
    lmsPath id node path leaf = pub.drop 24

/-! ## Cyclic checks -/

def crcBits (poly top : Nat) : Nat → Nat → Nat
  | 0, c => c
  | k + 1, c => crcBits poly top k (if c < top then 2 * c else ((2 * c) % (2 * top)) ^^^ poly)

/-- CRC-32 of IEEE 802.3 (reflected), one octet. -/
def crc32Step (c b : Nat) : Nat :=
  (List.range 8).foldl (fun a _ => if a % 2 = 0 then a / 2 else (a / 2) ^^^ 0xEDB88320) (c ^^^ b)

/-- CRC-32 of IEEE 802.3. -/
def crc32 (l : List Nat) : Nat := l.foldl crc32Step 0xFFFFFFFF ^^^ 0xFFFFFFFF

/-- CRC of `w` bits, polynomial `poly`, most significant bit first, over `n` bits of `v` from the top, from `c`. -/
def crcMsb (w poly : Nat) : Nat → Nat → Nat → Nat
  | 0, _, c => c
  | n + 1, v, c =>
    let bit := (v >>> n) % 2
    let top := (c >>> (w - 1)) % 2
    let c' := (2 * c) % 2 ^ w
    crcMsb w poly n v (if top = bit then c' else c' ^^^ poly)

end Sys2Proof.Machine
end

