-- ==== Sys2Proof/Machine/Helec.lean ====
section
/-! DEFINITION. The waveforms of chapter 4 as functions: the Helec header, Golay code, scrambler, LDPC code, interleaver and pilots, and
the time on air of every mode. -/

namespace Sys2Proof.Machine

/-! ## Header (R92, R93) -/

/-- CRC-8 over the 28 information bits, from bit 0. -/
def helecCrc (h : Nat) : Nat :=
  (List.range 28).foldl (fun c i =>
    let fb := ((c >>> 7) + (h >>> i)) % 2
    let d := (2 * c) % 256
    if fb = 1 then d ^^^ 7 else d) 0

/-- The 36 information bits of a header. -/
def helecHeader (version mode rate : Nat) (cwlen fcs2 pilots : Bool) (length : Nat) : Nat :=
  let h := version + 4 * mode + 16 * rate + (if cwlen then 64 else 0) + (if fcs2 then 128 else 0) + (if pilots then 256 else 0) + 512 * length
  h + 2 ^ 28 * helecCrc h

/-- Remainder of a polynomial of degree below 23 by g = 0xC75 over GF(2). -/
def golayRem : Nat → Nat → Nat
  | 0, v => v
  | k + 1, v => golayRem k (if (v >>> (k + 11)) % 2 = 1 then v ^^^ (0xC75 <<< k) else v)

/-- Parity of the low `n` bits. -/
def parityBits : Nat → Nat → Nat
  | 0, _ => 0
  | n + 1, v => (v % 2 + parityBits n (v / 2)) % 2

/-- The extended Golay codeword of 12 bits: d, then p, then the parity, bit 0 sent first (R93). -/
def golayWord (d : Nat) : Nat :=
  let p := golayRem 12 (d <<< 11)
  let w := d + 4096 * p
  w + 8388608 * parityBits 23 w

/-- The 144 coded header bits, bit 0 sent first. -/
def helecCoded (h : Nat) : Nat :=
  let b := fun m => golayWord ((h >>> (12 * m)) % 4096)
  let once := b 0 + 16777216 * b 1 + 281474976710656 * b 2
  once + 2 ^ 72 * once

/-! ## PN9 (R95) -/

/-- `n` bits of the PN9 sequence of x^9 + x^5 + 1; `r` holds the last nine bits, the newest first. -/
def pn9From : Nat → List Nat → List Nat
  | 0, _ => []
  | n + 1, r =>
    let b := (r.getD 3 0 + r.getD 8 0) % 2
    b :: pn9From n (b :: r.take 8)

/-- The sequence from the seed 0x1FF. -/
def pn9 (n : Nat) : List Nat := pn9From n (List.replicate 9 1)

/-! ## LDPC (R96 to R98): vectors of Z bits as numbers -/

def ldpcRows (rate : Nat) : Nat := if rate = 0 then 32 else if rate = 1 then 21 else 13

/-- Information bits of a codeword (Table 4.6). -/
def helecK (rate : Nat) (cwlen : Bool) : Nat := (64 - ldpcRows rate) * (if cwlen then 32 else 8)

def helecN (cwlen : Bool) : Nat := if cwlen then 2048 else 512

/-- Rows of an information column (R97). -/
def ldpcColRows (mb c : Nat) : List Nat :=
  let u := c % mb
  let v := c / mb
  [u, (u + 1 + v) % mb, (u + mb / 2 + 2 * v) % mb]

def ldpcShift (z c r : Nat) : Nat := (13 * c * (r + 1) + 7 * r) % z

/-- rot(x, e): bit i is bit (i + e) mod Z of x. -/
def rotZ (z x e : Nat) : Nat := ((x >>> e) ||| (x <<< (z - e))) % 2 ^ z

/-- lam[r] of R98 from the information blocks. -/
def ldpcLam (mb z : Nat) (s : List Nat) (r : Nat) : Nat :=
  ((List.range (64 - mb)).map fun c =>
    if (ldpcColRows mb c).contains r then rotZ z (s.getD c 0) (ldpcShift z c r) else 0).foldl (· ^^^ ·) 0

def ldpcParityFrom (h q0 : Nat) : Nat → List Nat → Nat → List Nat
  | _, [], _ => []
  | r, l :: ls, q =>
    let n := l ^^^ q ^^^ (if r = h then q0 else 0)
    n :: ldpcParityFrom h q0 (r + 1) ls n

/-- The parity blocks q[0] to q[mb − 1]. -/
def ldpcParity (mb z : Nat) (s : List Nat) : List Nat :=
  let lam := (List.range mb).map (ldpcLam mb z s)
  let q0 := lam.foldl (· ^^^ ·) 0
  let q1 := lam.getD 0 0 ^^^ rotZ z q0 1
  q0 :: q1 :: ldpcParityFrom (mb / 2) q0 1 ((lam.drop 1).take (mb - 2)) q1

/-- Position on air of coded bit j (R100). -/
def interleave (cwlen : Bool) (j : Nat) : Nat :=
  let w := if cwlen then 64 else 32
  (j % w) * (helecN cwlen / w) + j / w

/-! ## Lengths and times (R99, R102, R103, Table 4.7) -/

def helecCodewords (rate : Nat) (cwlen : Bool) (len : Nat) : Nat := (8 * len + helecK rate cwlen - 1) / helecK rate cwlen

/-- Pilot blocks of a payload of u units (R102). -/
def pilotBlocks (pilots : Bool) (u : Nat) : Nat := if pilots then (u - 1) / 128 else 0

/-- µs per symbol or chip: 10 on sub-GHz, 2 on H (Table 4.1). -/
def helecTick (onH : Bool) : Nat := if onH then 2 else 10

/-- A transmitted format: mode index, rate, N, pilots, preamble lengths, front end H. -/
structure AirFmt where
  mode : Nat
  rate : Nat
  cwlen : Bool
  pilots : Bool
  preamble : Nat
  hsUnits : Nat
  onH : Bool
  deriving DecidableEq, Repr

/-- Time from the end of the SFD or sync word to the end of the last PSDU bit, in µs. -/
def afterSfd (f : AirFmt) (len : Nat) : Nat :=
  match f.mode with
  | 0 => (2 + len) * 160
  | 1 => (2 + len) * 80
  | 2 => 2 * 80 + len * 40
  | 3 => (1 + len) * 32
  | m =>
    let bits := helecCodewords f.rate f.cwlen len * helecN f.cwlen
    if m = 6 then (8 * (144 + bits) + 32 * pilotBlocks f.pilots bits) * helecTick f.onH
    else
      let units := if m = 5 then bits / 2 else bits
      (144 + units + 8 * pilotBlocks f.pilots units) * helecTick f.onH

/-- Time from the first preamble symbol to the end of the SFD or sync word, in µs. -/
def untilSfd (f : AirFmt) : Nat :=
  match f.mode with
  | 0 => (f.preamble + 2) * 160
  | 1 => (f.preamble + 2) * 80
  | 2 => (f.preamble + 2) * 80
  | 3 => 5 * 32
  | 6 => (16 * f.hsUnits + 8 * 32) * helecTick f.onH
  | _ => (8 * f.preamble + 32) * helecTick f.onH

/-- Time on air in µs (R103, Table 4.7). -/
def airTime (f : AirFmt) (len : Nat) : Nat := untilSfd f + afterSfd f len

/-! ## The diversity metric (R125) -/

/-- The greatest q at most `n` with 10^q · e^40 ≤ s^40: floor(40·log10(s / e)), at least 0. -/
def metricFrom (s e : Nat) : Nat → Nat
  | 0 => 0
  | n + 1 => if 10 ^ (n + 1) * e ^ 40 ≤ s ^ 40 then n + 1 else metricFrom s e n

/-- The metric in units of 0.25 dB, 0 to 255. -/
def portMetric (s e : Nat) : Nat := metricFrom s e 255

end Sys2Proof.Machine
end

