-- ==== Sys2Proof/Machine/Parts/Base.lean ====
section
/-! DEFINITION. Containers of plain data that the parts of the state are built from, and the names of Tally's counters. -/

namespace Sys2Proof.Machine

/-- A sparse table: pairs of a key and a value in strictly ascending order of key; a key that is not listed holds the default its
reader gives.  `Tbl.set` and `Tbl.erase` (Ops.lean) keep the order. -/
abbrev Tbl (α : Type) := List (Nat × α)

/-- One value for each front end. -/
structure PerFe (α : Type) where
  sa : α
  sb : α
  h : α
  deriving DecidableEq, Repr

/-- One value for each backhaul port. -/
structure PerPort (α : Type) where
  p0 : α
  p1 : α
  deriving DecidableEq, Repr

/-- Scopes of a Tally entry (Table 15.8). -/
inductive Scope where
  | device
  | world (w : Nat)
  | port (p : Nat)
  | fe (f : Nat)
  | pipe (p : Nat)
  | lane (l : Nat)
  | sensor (r : Nat)
  | mbox (m : Nat)
  | unit (u : Nat)
  | kind (k : Nat)
  deriving DecidableEq, Repr

/-- The counters of Tally, in the order of the chapters that define them. -/
inductive Ctr where
  -- chapter 1
  | dsNoWorld | dsWorldMismatch | dsNoRoute | dsNoNode | rxNodeGone | usDecompFail | usReasmFail | usTooBig | rxSecBacklogDrop
  -- chapter 2
  | fwSlotFallback | cfgSlotFallback | flashDirInvalid | cfgRecordSkipped | cfgReject | cipherUnitMappedOut
  -- chapter 3
  | feTxRefused | feCal | feLockLost | feTxLate | feGuardExpired | feOverpowerAbort | feDetFault | feCrossBlank | txEirpRefused
  -- chapter 4
  | rxHdrBad | rxModeSwitch | rxModeDisabled | rxLenShort | rxLenLong | rxLdpcFail | rxFcsBad | txLenRefused
  -- chapter 5
  | rxSfdTimeout | rxCapture | rxCutTx | rxCutCal | rxCutPower | rxCutFault | cellsExhaustedAir | laneMappedOut
  -- chapter 6
  | txNoSubband | txDutyRefused | nbrTableFull | nbrLapsed | ackDutyRefused | ackLate | beaconSkipped | rxFrameVersion | rxNotForUs
  | rxBeaconOther | rxDupDiscard | dupCacheEvict | txCcaFail | txNoAck | txRetrySetFull | dsFragAbandon | dsHdrTooBig
  -- chapter 7
  | timeStep | timeIncRefused | ptpMasterLost | ppsInReject | rtcStep | almanacActionRefused | almanacFired | almanacCaughtUp
  | almanacMissed
  -- chapter 8
  | gateChangeover | gateSkippedStep | shapeDeferred | dsNoGate | shapeFlowFull | bulkSent
  -- chapter 9
  | memCeStaging | memCeDram | memUe | queueWrongProducer | cellRetired | cellReclaimed | usQueueFull | dsQueueFull | qExpired
  -- chapter 10
  | rxSrcUnresolved | rxJoinNoRecord | rxNodeRetiring | linkMerge | tableInsertFail | joinTableBusy | tableIndexFix | tableIndexLost
  | tableUeRestored | tableRestoreDropped | dsNodeGone | daoRefused | daoTargetRefused | daoStale | daoParentRefused
  | daoParentsTruncated | routeLapsed
  -- chapter 11
  | canopyRoundLate | canopyLaneMove | canopyPlaceMove | canopyAssignWithdrawn | canopyAssignRevert | canopyRehome
  | canopyAerialChange | canopyPowerChange | canopyPathChange | joinNoPlace | canopySliceMove
  -- chapter 12
  | pufMarginal | entropyHealthFail | selftestPeriodic | keyUseRefused | keyUnwrapFail | keySlotFault | tamperEvents
  -- chapter 13
  | cipherJobRepeated | ctxRestoreRefused | ctxSaveRefused | fcReserveWait | joinNoGroup | joinRateLimited | txKeyAbsent
  | txFcExhausted | rxKeyIndexBad | rxSecLevel | rxKeygenStale | rxFcStale | rxMicFail | joinDone | rejoinDone | joinNoKey
  | joinMicFail | joinWorldMismatch | joinConfirmFail | joinTimeout | rejoinNotice | rejoinNoticeHeld
  -- chapter 14
  | linkRefused | rxEthFiltered | rxRunt | rxOversize | rxFcsEth | cellsExhaustedEth | prpNoRct | prpWrongLan | prpDupDiscard
  | prpDupEvict | prpCopySkipped | pathMiss | pauseWatchdog | speedStep | dsVidMismatch | usSendRefused
  -- chapter 15
  | verieliAddrRefused | verieliMalformed | verieliAuthFail | verieliReplay | verieliResent | verieliBusy | eventLost
  | verieliSeqWait | m0BadCommand | m0Overrun | eventLostEarly
  -- chapter 16
  | hwBufferEarly | hwPendingFull | hwTxnRolledBack | hwRecordLost | hwPageSwap | hwPageRetired
  -- chapter 17
  | fwActivate | cfgActivate | fwTrialConsumed | cfgTrialConsumed
  -- chapter 18
  | tagReclaimed | tagCapRefused | channelTimeout | dramLate | mcoreOpLost | rxNoDecoder | mcoreAllLost | unitMappedOut | thermalStep
  deriving DecidableEq, Repr

/-- A Tally entry's key: counter, scope and, within the scope, the number (Table 15.8). -/
structure CtrKey where
  ctr : Ctr
  scope : Scope
  deriving DecidableEq, Repr

/-- One counter's value, 64 bits, wrapping (Table 0.3). -/
structure CtrVal where
  key : CtrKey
  value : BitVec 64
  deriving DecidableEq, Repr

/-- Tally: counters that are not listed are 0. -/
abbrev Tally := List CtrVal

/-- An event as raised (Table 15.7): code, scope (`none`: device), the network time when raised, and its data octets. -/
structure Event where
  code : BitVec 16
  world : Option Nat
  sec : BitVec 64
  ns : BitVec 30
  data : Octets
  deriving DecidableEq, Repr

end Sys2Proof.Machine
end

