-- ==== Sys2Proof/Machine/Parts/Crypto.lean ====
section
/-! DEFINITION. State of the root, key slots, chaining contexts, cipher units, random bits, tamper sensors and zeroisation (chapters 12
and 13). -/

namespace Sys2Proof.Machine

/-- States of a key slot (Table 12.4). -/
inductive SlotState where
  | empty | ready | erasing
  deriving DecidableEq, Repr

/-- A key slot: its attribute word (Table 12.4), its key and the operator's key_id (Table 12.6). -/
structure KeySlot where
  gen : BitVec 16 := 0
  state : SlotState := .empty
  world : BitVec 3 := 0
  device : Bool := false
  /-- bits [28:22]: fwd, inv, mac, kdf, wrap, unwrap, attest from bit 0. -/
  usage : BitVec 7 := 0
  /-- bit 0 usable in PROVISION, bit 1 usable in OPERATE. -/
  lcs : BitVec 2 := 0
  len256 : Bool := false
  fallback : BitVec 8 := 0
  fbValid : Bool := false
  key : Key := 0
  keyId : BitVec 64 := 0
  deriving DecidableEq, Repr

/-- A chaining context (Table 13.4). -/
structure Ctx where
  slot : BitVec 8
  purpose : BitVec 8
  gen : BitVec 16
  startTag : BitVec 32
  world : BitVec 8
  flags : BitVec 8
  done : BitVec 32
  x : BitVec 128
  ctr : BitVec 128
  deriving DecidableEq, Repr

/-- A cipher job in a unit or waiting for one (R362): its job word, the slot it is carried out on, whether its key has 256 bits, and the
output blocks under that key. -/
structure CJob where
  word : Word
  slot : Nat
  gen : BitVec 16
  long : Bool
  repeated : Bool
  output : Octets
  /-- Time clock at its beginning, and at the erase that made it stale (R335). -/
  start : Nat
  stale : Option Nat
  deriving DecidableEq, Repr

/-- Why zeroisation was started (R355) and what follows its end (step 5 of Table 12.12). -/
inductive ZeroCause where
  | command | pin | tamperA (sensor : Nat) | retire
  deriving DecidableEq, Repr

/-- A tamper trip journalled with its time (R352). -/
structure Trip where
  sensor : Nat
  sec : BitVec 64
  delivered : Bool
  deriving DecidableEq, Repr

/-- Keys, contexts, units and random bits. -/
structure Crypto where
  /-- The root register of the KDF engine (R326). -/
  rootReg : Option (BitVec 256) := none
  slots : Tbl KeySlot := []
  /-- Node-key cache slots 168 to 255: time-clock instant of last use, and the node index held. -/
  cacheUse : Tbl Nat := []
  cacheNode : Tbl Nat := []
  ctxs : Tbl Ctx := []
  startTag : BitVec 32 := 0
  /-- Next outbound counter value of each group slot, and the join counter (R374). -/
  groupNext : Tbl Nat := []
  joinNext : Nat := 0
  /-- The CTR_DRBG (R343): instantiated, time clock at its last seeding, generate requests since. -/
  drbgOn : Bool := false
  drbgClk : Nat := 0
  drbgReqs : Nat := 0
  /-- The generator of R157: time clock at its last seeding from the DRBG. -/
  hwGenClk : Nat := 0
  /-- Cipher units C0 to C3: mapped out; the job each runs. -/
  unitOut : List Bool := [false, false, false, false]
  unitJob : Tbl CJob := []
  waiting : List CJob := []
  /-- Job memory of the SEC domain, 4 096 words (R360). -/
  jobMem : Tbl Word := []
  /-- The last jobs' words as returned with their status, newest first. -/
  returned : List Word := []
  /-- Zeroisation in progress (Table 12.12). -/
  zeroising : Option ZeroCause := none
  entropyFails : Nat := 0
  /-- Time-clock instants of key-slot parity faults within 24 h and of class B trips within 60 s. -/
  slotFaults : List Nat := []
  tamperB : List Nat := []
  /-- Time clock of the last periodic self-test, and the unit the next single-unit KAT takes (Table 12.8). -/
  selfTestClk : Nat := 0
  deriving DecidableEq, Repr

end Sys2Proof.Machine
end

