-- ==== Sys2Proof/Machine/Parts/Time.lean ====
section
/-! DEFINITION. State of network time, wall time and the Almanac (chapter 7). -/

namespace Sys2Proof.Machine

/-- Discipline states (Table 7.3). -/
inductive Discipline where
  | free | locked | holdover
  deriving DecidableEq, Repr

/-- A posted step (R175): δ in ns, the tick T at which it takes effect. -/
structure PendStep where
  delta : Int
  atClk : Nat
  deriving DecidableEq, Repr

/-- What the master last announced (R188, R190). -/
structure Master where
  port : Nat
  ptpTimescale : Bool
  utcOffset : Nat
  utcValid : Bool
  leap61 : Bool
  leap59 : Bool
  deriving DecidableEq, Repr

/-- The master of a port's domain: its port identity, the rank of its dataset, the time clock of its last Announce, what it announces. -/
structure PtpMaster where
  source : BitVec 80
  rank : BitVec 168
  heardClk : Nat
  said : Master
  deriving DecidableEq, Repr

/-- A port as a PTP port (R417, R418): times in ns, t1 and t4 the master's, t2 and t3 of network time at the reference plane. -/
structure PtpPort where
  master : Option PtpMaster := none
  /-- A two-step Sync that waits for its Follow_Up: sequenceId, t2, correction in ns. -/
  sync : Option (BitVec 16 × Int × Int) := none
  /-- t1 and t2 of the last Sync, asymmetry apart. -/
  down : Option (Int × Int) := none
  /-- sequenceId of the next Delay_Req, and whether one waits for the transmitter. -/
  seq : BitVec 16 := 0
  due : Bool := false
  /-- sequenceId and t3 of the Delay_Req last sent, and the t4 that answers it. -/
  up : Option (BitVec 16 × Int) := none
  answer : Option Int := none
  deriving DecidableEq, Repr

/-- Network time and the servo. -/
structure Time where
  sec : BitVec 64 := 0
  ns : BitVec 30 := 0
  frac : BitVec 32 := 0
  incNs : BitVec 3 := 4
  incFrac : BitVec 32 := 0
  /-- Ticks since ns last passed through 0 as the counter ran (R183). -/
  sincePass : Option Nat := none
  /-- The servo's own estimate of the increment, in units of 2^−32 ns (R178). -/
  freqEst : Nat := 17179869184
  /-- An increment write waiting for the next Meridian bus update (R175): its tick and value. -/
  pendInc : Option (Nat × BitVec 3 × BitVec 32) := none
  pendStep : Option PendStep := none
  disc : Discipline := .free
  /-- Consecutive measurements at or above the step threshold, at most lock_ns, above lock_ns (R178, R179). -/
  bigRun : Nat := 0
  goodRun : Nat := 0
  badRun : Nat := 0
  lastOffset : Int := 0
  /-- Time clock at the last valid measurement and at entry to HOLDOVER. -/
  lastMeas : Nat := 0
  holdClk : Nat := 0
  degraded : Bool := false
  master : Option Master := none
  /-- Network time in ns of a PPS_IN edge no measurement has yet taken as its phase (R183). -/
  ppsIn : Option Nat := none
  /-- Time clock of the last exchange on P0: P0 carries a master (R178). -/
  p0Clk : Option Nat := none
  /-- The UTC offset last in use from a master (R188), and the last Almanac evaluation (R199), both journalled in Heartwood. -/
  utcKept : Option Nat := none
  almPrev : Option (BitVec 48 × Int) := none
  /-- Counts of the second boundaries whose evaluation a forwarding pause holds (R21). -/
  almHeld : List (BitVec 48) := []
  deriving DecidableEq, Repr

/-- A write of the seconds count that the part makes from network time, waiting for its whole second (R187, R189). -/
structure PendRtc where
  sec : BitVec 48
  atNs : Nat
  deriving DecidableEq, Repr

/-- A change of the local offset waiting for the next second boundary (R197): the value, and summer set (`some true`), cleared
(`some false`) or left. -/
structure PendLocal where
  offset : Int
  summer : Option Bool
  deriving DecidableEq, Repr

/-- The RTC (Table 7.4), in the AON domain. -/
structure Rtc where
  sec : BitVec 48 := 0
  /-- Where the prescaler started this second (R186): k cycles, negative when it is held at 0 for −k cycles. -/
  presc0 : Int := 0
  /-- Time clock at the last second boundary. -/
  boundary : Nat := 0
  /-- Network time at the last second boundary, ns (R189). -/
  boundaryNet : Nat := 0
  osf : Bool := true
  vbatLow : Bool := false
  cdExpired : Bool := false
  summer : Bool := false
  trim : BitVec 12 := 0
  acc : Int := 0
  offset : BitVec 8 := 0
  countdown : BitVec 32 := 0
  /-- The crystal stands still (R185), with the prescaler it stopped at. -/
  stopped : Bool := false
  frozen : Nat := 0
  /-- COUNTDOWN_EXPIRED, with the RTC count at expiry, or RTC_OSC_STOPPED waits for a start (R191, R185). -/
  cdEvent : Option Nat := none
  osfEvent : Bool := false
  trusted : Bool := false
  pendLocal : List PendLocal := []
  pendWrite : Option PendRtc := none
  /-- A leap61 hold is being made (R190): the boundary just made left sec unchanged. -/
  leapHeld : Bool := false
  /-- RTC seconds since the last adjustment, and the timestamp of the boundary at which they began (R189). -/
  sinceAdj : Nat := 0
  windowNet : Option Int := none
  deriving DecidableEq, Repr

/-- Fate of an Almanac entry (R200). -/
inductive Fate where
  | standing | fired | missed
  deriving DecidableEq, Repr

/-- An Almanac entry: its 128 octets (Table 7.10) and its fate. -/
structure AlmEntry where
  octets : Octets
  fate : Fate
  deriving DecidableEq, Repr

end Sys2Proof.Machine
end

