-- ==== Sys2Proof/Machine/Parts/Heart.lean ====
section
/-! DEFINITION. Heartwood (chapter 16), as the values its regions hold.  Values are what Heartwood holds once every transaction in its
ring is applied; the ring keeps the transactions that are not yet homed (R461). -/

namespace Sys2Proof.Machine

/-- A superblock (Table 16.5). -/
structure Super where
  seq : BitVec 32
  clean : Bool
  pass : Bool
  tail : Nat
  head : Nat
  lastSec : BitVec 64
  valid : Bool
  deriving DecidableEq, Repr

/-- An identity record (Table 16.3). -/
structure IdRec where
  eui : BitVec 64
  lastHeard : BitVec 32
  state : Nat
  epoch : Nat
  world : Nat
  seqOut : BitVec 8
  crcOk : Bool
  deriving DecidableEq, Repr

/-- A node-key record (Table 16.4). -/
structure NodeKeyRec where
  wrapped : Octets
  sec : BitVec 16
  place : BitVec 32
  crcOk : Bool
  deriving DecidableEq, Repr

/-- A frame-counter entry (Table 13.8). -/
structure FcEntry where
  fcIn : BitVec 32
  ceiling : BitVec 32
  deriving DecidableEq, Repr

/-- A live PARENTS entry (Table 16.7): three 18-bit slots, path_seq, reg_expiry. -/
structure ParentsRec where
  slots : List (BitVec 18)
  pathSeq : BitVec 8
  regExpiry : BitVec 24
  deriving DecidableEq, Repr

/-- A live PENDING entry (Table 16.7). -/
structure PendingRec where
  group : Nat
  phase : Nat
  effSec : BitVec 20
  deriving DecidableEq, Repr

/-- A group slot's outbound ceiling and key check value (R462). -/
structure GroupCell where
  ceiling : BitVec 32
  check : Octets
  deriving DecidableEq, Repr

/-- A journalled world key (R339): attributes and the key wrapped under K_hw. -/
structure WorldKey where
  usage : BitVec 7
  fallback : BitVec 8
  fbValid : Bool
  keyId : BitVec 64
  wrapped : Octets
  deriving DecidableEq, Repr

/-- A sub-band's duty account (R145): its limits, its bins as (second, µs), the end of its last transmission. -/
structure Duty where
  lowHz : Nat
  highHz : Nat
  bins : List (Nat × Nat)
  lastEnd : Option Nat
  /-- In Heartwood, the second of the newest bin when the bins were written (R148). -/
  newest : Nat := 0
  deriving DecidableEq, Repr

/-- What Canopy keeps across a start (R322). -/
structure CanopyKeep where
  /-- Slice centres in Hz, SA, SB, H. -/
  centres : List Nat
  /-- Lane watch map: lane to (front end, channel). -/
  watch : Tbl (Nat × Nat)
  /-- Group layout: group to front end and channel frequencies. -/
  groups : Tbl (Nat × List Nat)
  lanePins : Tbl (Nat × Nat)
  slicePins : Tbl Nat
  /-- Freezes: kinds mask, world (8: all), end in network ns. -/
  freezes : List (Nat × Nat × Option Nat)
  /-- Channels of placeable gate entries, by 1 024 × front end + entry. -/
  entries : Tbl Nat
  deriving DecidableEq, Repr

/-- One entry of the journal (Table 16.7), by the item it carries. -/
inductive HwItem where
  | nodeNew (index : Nat) (eui : BitVec 64) (world epoch : Nat)
  | nodeState (index state : Nat) (lastHeard : BitVec 32) (seqOut : BitVec 8)
  | nodePlace (index : Nat) (place : BitVec 32)
  | nodeSec (index : Nat) (sec : BitVec 16)
  | parents (index : Nat) (r : Option ParentsRec)
  | pending (index : Nat) (r : Option PendingRec)
  | duty (subband : Nat) (d : Duty)
  | canopy (k : CanopyKeep)
  | almEval (count : BitVec 48) (offset : Int)
  | increment (ns : BitVec 3) (frac : BitVec 32)
  | utcOffset (u : Nat)
  | discipline (d : Discipline)
  deriving DecidableEq, Repr

/-- Items that wait in the coalescing buffer, by what they name (R459): their value is taken when the buffer is closed. -/
inductive HwDirty where
  | nodeState (index : Nat)
  | nodePlace (index : Nat)
  | nodeSec (index : Nat)
  | parents (index : Nat)
  | canopy
  | almEval
  | increment
  | utcOffset
  | discipline
  deriving DecidableEq, Repr

/-- Heartwood. -/
structure Heart where
  superA : Super := { seq := 0, clean := false, pass := false, tail := 0, head := 0, lastSec := 0, valid := false }
  superB : Super := { seq := 0, clean := false, pass := false, tail := 0, head := 0, lastSec := 0, valid := false }
  zeroCount : BitVec 128 := 0
  zeroFlag : Bool := false
  /-- ZEROISED journalled for delivery (Table 12.12, step 4). -/
  zeroised : Option Nat := none
  floor : BitVec 32 := 0
  rollback : BitVec 32 := 0
  cfgVersion : Option (BitVec 32) := none
  hashSeed : Option (BitVec 64) := none
  /-- The epoch of each world, journalled at its advance (R277, R460). -/
  epochs : List Nat := [0, 0, 0, 0, 0, 0, 0, 0]
  replayHigh : Tbl (BitVec 64) := []
  replayMap : Tbl (BitVec 64) := []
  seqCeil : Tbl (BitVec 64) := []
  joinCeil : BitVec 32 := 0
  groupCell : Tbl GroupCell := []
  almEval : Option (BitVec 48 × Int) := none
  /-- SerDes settings of each port last applied (R390). -/
  serdes : Tbl Octets := []
  /-- K_cfg wrapped under K_hw (40 octets), with cfg_key_id. -/
  kcfg : Option (Octets × Octets) := none
  /-- Keys of MBOX-KEY-INSTALL, and the key each mailbox last used (R426, log entry 43); each wrapped under K_hw. -/
  mboxKeys : Tbl Octets := []
  lastKeys : Tbl Octets := []
  worldKeys : Tbl WorldKey := []
  almanac : Tbl AlmEntry := []
  duty : Tbl Duty := []
  canopy : Option CanopyKeep := none
  increment : Option (BitVec 3 × BitVec 32) := none
  utcOffset : Option Nat := none
  disc : Discipline := .free
  tally : Tally := []
  ids : Tbl IdRec := []
  nodeKeys : Tbl NodeKeyRec := []
  fc : Tbl FcEntry := []
  parents : Tbl ParentsRec := []
  pendings : Tbl PendingRec := []
  trips : List Trip := []
  /-- Ring: transactions written and not yet homed, oldest first; positions (R457). -/
  ring : List (List HwItem) := []
  head : Nat := 0
  tail : Nat := 0
  pass : Bool := true
  /-- Line writes per physical page (R472). -/
  wear : Tbl Nat := []
  /-- Physical page of a logical page where it is not the page of the same number. -/
  pageMap : Tbl Nat := []
  /-- Physical pages retired (R472). -/
  outPages : List Nat := []
  deriving DecidableEq, Repr

end Sys2Proof.Machine
end

