-- ==== Sys2Proof/Machine/Parts/Mail.lean ====
section
/-! DEFINITION. State of the mailboxes, of the cells and queues, and of Heartwood (chapters 9, 15 and 16). -/

namespace Sys2Proof.Machine

/-- An accepted request (R425): its header fields, its payload in the clear, and where its answer goes (R422). -/
structure Request where
  opcode : Nat
  seq : BitVec 64
  enc : Bool
  srcAddr : BitVec 128
  srcPort : BitVec 16
  payload : Octets
  deriving DecidableEq, Repr

/-- A message for a host: its octets and its destination, and for an event message the events it carries. -/
structure Msg where
  octets : Octets
  dstAddr : BitVec 128
  dstPort : BitVec 16
  deriving DecidableEq, Repr

/-- A response kept for R428. -/
structure Sent where
  seq : BitVec 64
  msg : Msg
  deriving DecidableEq, Repr

/-- Classes of commands (R433). -/
inductive CmdClass where
  | short | long | flash | device
  deriving DecidableEq, Repr

/-- A command that has been answered S_ACCEPTED and has not ended (R434): its request, its class, and its outcome so far: status and
result octets of its final response. -/
structure Busy where
  req : Request
  cls : CmdClass
  status : Nat
  result : Octets
  deriving DecidableEq, Repr

/-- An undelivered event in a mailbox's ring. -/
structure RingEvent where
  seq : BitVec 32
  lost : Bool
  sent : Bool
  ev : Event
  deriving DecidableEq, Repr

/-- A Tally snapshot (R448). -/
structure Snapshot where
  sec : BitVec 64
  ns : BitVec 30
  entries : List CtrVal
  deriving DecidableEq, Repr

/-- One mailbox.  `H`, the bitmap and the seq ceiling are also in Heartwood's persistent cells (R426, R427), written through. -/
structure MboxSt where
  isOpen : Bool := false
  world : Nat := 0
  high : BitVec 64 := 0
  bitmap : BitVec 64 := 0
  /-- Next own seq, and its reserved ceiling (R427). -/
  seq : BitVec 64 := 1
  ceiling : BitVec 64 := 0
  last8 : List Sent := []
  busy : Option Busy := none
  /-- Class of the last long command that ended here, and its time clock (R437). -/
  ended : Option (CmdClass × Nat) := none
  /-- The subscription (R446). -/
  subAddr : BitVec 128 := 0
  subPort : BitVec 16 := 0
  ring : List RingEvent := []
  evSeq : BitVec 32 := 1
  /-- An event was lost since the last record delivered (R446). -/
  lostFlag : Bool := false
  lastSend : Nat := 0
  snap : Option Snapshot := none
  deriving DecidableEq, Repr

/-- A datagram for a mailbox that waits in Q387 through a forwarding pause (R22, R433), with its arrival. -/
structure Held where
  mbox : Nat
  dgram : Datagram
  arrival : Nat
  chain : List Nat := []
  deriving DecidableEq, Repr

end Sys2Proof.Machine
end

