-- ==== Sys2Proof/Machine/Parts/Queue.lean ====
section
/-! DEFINITION. Packets, queues and the cell accounts (chapter 9). -/

namespace Sys2Proof.Machine

/-- What the upstream lookup at acceptance gave (R262 to R268). -/
inductive RxFound where
  /-- A short or no source address: no lookup (R259). -/
  | unresolved
  /-- The record found or inserted. -/
  | known (index : Nat)
  /-- A RETIRING record past its deadline (R268). -/
  | late
  /-- An insertion failed (R264). -/
  | noRecord
  /-- joining_max records are JOINING, or the record does not stand. -/
  | absent
  deriving DecidableEq, Repr

/-- A receive descriptor (Table 5.4) as the part needs it later. -/
structure RxDesc where
  fe : Fe
  lane : Nat
  channel : Nat
  port : Nat
  mode : Nat
  rate : Nat
  level : BitVec 9
  snr : BitVec 8
  freqOffset : Int
  sfdNs : Nat
  endNs : Nat
  length : Nat
  fcsOk : Bool
  capture : Bool
  corrected : BitVec 8
  word : Word
  found : RxFound
  /-- World and key generation of the record found, and the time clock at acceptance (R15, R536). -/
  world : Option Nat := none
  keyGen : Option Nat := none
  clk : Nat := 0
  deriving DecidableEq, Repr

/-- What a downstream frame carries above the MAC. -/
inductive DownKind where
  /-- A fragment of a downstream packet, or the whole of it (R165): packet number, fragment number, last. -/
  | data (packet frag : Nat) (last : Bool)
  | joinResp (nodeNonce partNonce : BitVec 64) (keyGen level : Nat)
  | joinDone (group phase : Nat) (fe : Nat) (listen : Bool)
  | rejoin (reason : Nat)
  /-- Element 0x02 (R164, R304). -/
  | assign (group phase fe effSec : Nat) (listen : Bool)
  | dio (version : Nat)
  /-- A DAO-ACK of path_seq (R283). -/
  | daoAck (seq : BitVec 8)
  | multicast (packet : Nat)
  deriving DecidableEq, Repr

/-- The destination of a downstream frame. -/
inductive DownDst where
  | node (index : Nat) (eui : BitVec 64)
  | broadcast
  deriving DecidableEq, Repr

/-- A downstream frame in its protected form (R157, R373). -/
structure DownFrame where
  world : Nat
  dst : DownDst
  fe : Fe
  /-- Octets without the FCS, and with it as it stood at protection. -/
  mpdu : Nat := 0
  psdu : Nat
  ar : Bool
  /-- Sequence number, of a frame to a node (R161). -/
  seq : Option (BitVec 8)
  keyIndex : Option (BitVec 8)
  fc : BitVec 32
  /-- It carries element 0x02 (R305), and a rejoin notice of reason 3 (R378). -/
  elem : Bool
  worn : Bool
  /-- The records its route passes, from the destination to the first hop (R269). -/
  path : List (Nat × BitVec 64)
  kind : DownKind
  /-- Its octets as protected, without the FCS, the frame pending bit clear (R164, R371). -/
  octets : Octets := []
  deriving DecidableEq, Repr

/-- What a packet holds. -/
inductive Content where
  | rx (d : RxDesc) (f : AirFrame)
  /-- An upstream packet of a world: source node, its IPv6 octets, Traffic Class. -/
  | up (world : Nat) (src : BitVec 64) (ip : Octets) (tc : BitVec 8)
  | eth (port : Nat) (f : EthFrame) (arrivalNs : Nat)
  | request (r : Request)
  /-- A message to a host, and the seqs of the events it carries. -/
  | message (m : Msg) (events : List (BitVec 32))
  | down (d : DownFrame)
  /-- A packet of the Almanac waiting for Sawmill: group address, port, payload (R201). -/
  | group (world : Nat) (addr : Octets) (port : BitVec 16) (payload : Octets)
  deriving DecidableEq, Repr

/-- A committed packet: its account, the number of its cells, its commit time in network ns (R237). -/
structure Packet where
  acct : Nat
  cells : Nat
  commit : Nat
  content : Content
  /-- Its cells in order, by their numbers in the pool (R232, R251). -/
  chain : List Nat := []
  /-- Front ends that have sent a bulk frame (R226). -/
  sentBy : List Nat := []
  deriving DecidableEq, Repr

/-- A fragment or a joined stretch of a datagram in reassembly (R536). -/
structure Reasm where
  src : BitVec 64
  tag : Nat
  size : Nat
  world : Nat
  first : Nat
  /-- Offset, octets and packet of each fragment held. -/
  frags : List (Nat × Octets × Packet)
  deriving DecidableEq, Repr

/-- Producers that build packets in construction staging (Table 9.2); the M-cores are told apart nowhere in the model (log entry 81). -/
inductive Producer where
  | lane (l : Nat)
  | port (p : Nat)
  | sawmill | mcore
  deriving DecidableEq, Repr

/-- Construction cells of a packet committed or rewound, not yet freed: their producer, their number, and the time clock by which they are
free (R235). -/
structure Leaving where
  who : Producer
  cells : Nat
  freeClk : Nat
  deriving DecidableEq, Repr

/-- Cell accounts and queues.  `orders` is keyed 4q + front end for Q0 to Q319 and 4q for every other queue. -/
structure Queues where
  used : Tbl Nat := []
  sharedUsed : Nat := 0
  worldShared : Tbl Nat := []
  orders : Tbl (List Packet) := []
  /-- Cells retired (R253). -/
  retired : List Nat := []
  /-- DRAM blocks marked, and the reads corrected in a block, with their times (R253). -/
  marked : List Nat := []
  corrected : List (Nat × Nat) := []
  degradedRaised : Bool := false
  /-- Packets given cells so far; the model's own (log entry 81). -/
  picks : Nat := 0
  /-- Cells in use whose words have been written to their DRAM homes (R235, R239). -/
  homed : List Nat := []
  /-- Packets lost with a queue descriptor, whose cells wait for the audit (R254): account, number of cells, cells. -/
  strays : List (Nat × Nat × List Nat) := []
  /-- Construction staging not yet freed (R235). -/
  leaving : List Leaving := []
  reasm : List Reasm := []
  deriving DecidableEq, Repr

end Sys2Proof.Machine
end

