-- ==== Sys2Proof/Machine/Parts/Radio.lean ====
section
/-! DEFINITION. State of the front ends, the receive lanes, the decoder pool and the MAC (chapters 3 to 6). -/

namespace Sys2Proof.Machine

/-! ## The air -/

/-- Shapes of the PA's ramps (Table 3.5). -/
inductive RampShape where
  | linear | raisedCosine
  deriving DecidableEq, Repr

/-- What a front end puts on the air: the length of a symbol or chip in ns, deviations from the carrier in units of 10 Hz, the chips of an
O-QPSK frame; before the first symbol and after the last a ramp of that shape and duration in µs, the carrier unmodulated (R69). -/
structure Wave where
  tickNs : Nat
  dev : List Int
  chips : List Nat
  ramp : RampShape
  rampUs : Nat
  deriving DecidableEq, Repr

/-! ## Front ends -/

/-- Front-end states (Table 3.2), with "leaving TX" of Table 3.4. -/
inductive FeMode where
  | off | sleep | standby | synthOn | rx | tx | leaving
  deriving DecidableEq, Repr

/-- An entry of the calibration table (R62). -/
structure CalEntry where
  channel : Nat
  temp : Int
  used : Nat
  deriving DecidableEq, Repr

/-- Classes of transmit requests. -/
inductive TxClass where
  | ack | beacon | other
  deriving DecidableEq, Repr

/-- What a transmit request carries. -/
inductive TxBody where
  /-- The Enh-Ack for a frame: its lane, its source, its sequence number, frame pending. -/
  | ack (lane : Nat) (dst : Addr) (seq : Option (BitVec 8)) (pending : Bool)
  /-- A beacon: the close of its gate entry, and its element 0x01: the template in force when its sensing began, its time fields written at the
  commit (R168). -/
  | beacon (close : Nat) (elem : Octets)
  | down (d : DownFrame) (pending : Bool)
  | test
  deriving DecidableEq, Repr

/-- A transmit request (R66): times in network ns; `air` its time on air in µs; `charge` the sub-band and second it was charged to; `psdu` its
octets, with the FCS of `fcs2`; `whitening` the DW bit of a SUN-FSK frame (R105). -/
structure TxReq where
  channel : Nat
  port : Nat
  power : Int
  mode : Nat
  rate : Nat
  cls : TxClass
  precorr : Int
  target : Nat
  latest : Nat
  start : Nat
  air : Nat
  charge : Option (Nat × Nat)
  body : TxBody
  psdu : Octets := []
  fcs2 : Bool := true
  whitening : Bool := false
  deriving DecidableEq, Repr

/-- A frame between attempts (R161, R162), with its cells. -/
structure Retry where
  frame : DownFrame
  acct : Nat
  cells : Nat
  commit : Nat
  queue : Nat
  chain : List Nat := []
  attempts : Nat
  /-- Where it was taken from: 0 its queue, 1 its flow, 2 the retry set, 3 a bulk queue, in which it stays. -/
  src : Nat
  /-- Time clock at which it first entered the retry set, which is served oldest first (R218). -/
  since : Nat := 0
  deriving DecidableEq, Repr

/-- Phases of a CSMA-CA attempt (R157). -/
inductive CsmaPhase where
  | backoff | sensing
  /-- Sensing ended clear; the request waits for its start or is on the air. -/
  | sending
  deriving DecidableEq, Repr

/-- What is being attempted. -/
inductive CsmaBody where
  | frame (r : Retry)
  | beacon (close : Nat)
  | test
  deriving DecidableEq, Repr

/-- An attempt in course. -/
structure Attempt where
  body : CsmaBody
  phase : CsmaPhase
  nb : Nat
  be : Nat
  sub : Nat
  channel : Nat
  port : Nat
  power : Int
  mode : Nat
  rate : Nat
  air : Nat
  bound : Option Nat
  admitted : Option (Nat × Nat)
  senseStart : Nat
  refused : Bool
  /-- Credit its world was charged for the request posted, in ps (R219). -/
  credit : Int
  /-- Time clock at which the wait of its back-off ends (R157). -/
  waitEnd : Nat := 0
  /-- Its sensing has met blanking (R156). -/
  void : Bool := false
  deriving DecidableEq, Repr

/-- A wait for a node's Enh-Ack (R159). -/
structure AckWait where
  retry : Retry
  channel : Nat
  lane : Option Nat
  deadline : Nat
  arrived : Option Nat
  pending : Bool
  laneMoved : Bool
  /-- Mode and rate of the frame sent, in which the ACK comes (R105). -/
  mode : Nat := 0
  rate : Nat := 0
  deriving DecidableEq, Repr

/-- A front end in RF test (R443). -/
structure RfTest where
  mode : Nat
  channel : Nat
  airMode : Nat
  rate : Nat
  port : Nat
  power : Int
  burst : Nat
  stopClk : Nat
  bursts : Nat
  framesOk : Nat
  levelSum : Nat
  deriving DecidableEq, Repr

/-- Detector of one port (R74): in open loop, consecutive bad and good frames. -/
structure Detector where
  fault : Bool := false
  raised : Bool := false
  bad : Nat := 0
  good : Nat := 0
  deriving DecidableEq, Repr

/-- A slice move decided and not yet made (R116): its centre, when it was decided, the lanes of the watch map that goes with it, each
with its channel in the new slice. -/
structure SliceMove where
  centre : Nat
  clk : Nat
  watch : List (Nat × Nat)
  deriving DecidableEq, Repr

/-- One front end. -/
structure FeSt where
  mode : FeMode := .off
  faulty : Bool := false
  centre : Nat := 0
  parked : Option Nat := none
  /-- Transmit-synthesiser calibration running: its channel and end (time clock). -/
  cal : Option (Nat × Nat) := none
  /-- Receive-synthesiser calibration running until (time clock), and whether after a lock loss. -/
  rxCal : Option Nat := none
  lockFails : Nat := 0
  table : List CalEntry := []
  rxTemp : Int := 0
  temp : Int := 0
  /-- Channels of the background pass still to calibrate (R63). -/
  pass : List Nat := []
  posted : List TxReq := []
  held : Option TxReq := none
  committed : Bool := false
  cur : Option TxReq := none
  /-- What it puts on the air from the commit on (R69, R86, R90). -/
  wave : Option Wave := none
  /-- Element 0x01 of the front end's beacons as the template in force when a forwarding pause began, which stays in use through it (R168). -/
  template : Octets := []
  /-- Attempts of the beacon due that have failed (R161). -/
  beaconTries : Nat := 0
  lastEnd : Nat := 0
  /-- Port of the frame last sent, which the FEM lines show until the switch is back (Table 3.7). -/
  lastPort : Nat := 0
  /-- Gain of the frame on the air, in quarter dB (R72). -/
  gain : Int := 0
  /-- Stored gains by port, power and value in quarter dB (R72). -/
  gains : List (Nat × Int × Int) := []
  detA : Detector := {}
  detB : Detector := {}
  /-- Front ends its present or last transmission blanks besides itself (R78). -/
  blanks : List Fe := []
  trackUntil : Nat := 0
  idleSince : Nat := 0
  rfTest : Option RfTest := none
  attempt : Option Attempt := none
  retry : List Retry := []
  ackWait : Option AckWait := none
  beaconSeq : BitVec 8 := 0
  beaconB : Bool := false
  /-- A beacon due: the close of its gate entry, in network ns (R166). -/
  beacon : Option Nat := none
  /-- Start of the gate entry whose beacon was last made due, in network ns. -/
  beaconFrom : Nat := 0
  /-- Time clock of each overpower abort of the last second (Table 18.6). -/
  overpowers : List Nat := []
  /-- Since when the receive synthesiser's temperature has called for a calibration (R64), time clock. -/
  rxDue : Option Nat := none
  move : Option SliceMove := none
  deriving DecidableEq, Repr

/-! ## Lanes -/

/-- What a lane knows of a frame from its SFD or sync word on (R124 to R127). -/
structure RxInfo where
  /-- Front end and channel it is received on. -/
  fe : Nat
  channel : Nat
  pre : Preamble
  sync : Bool
  port : Nat
  snr : Nat
  level : BitVec 9
  offset8 : Int
  sfdNs : Nat
  /-- The same instant as it is compared with network time, which a step moves (R176): the timestamp itself stays in the old time. -/
  cmpNs : Nat
  /-- The same instant on the time clock. -/
  sfdClk : Nat
  tracked : Bool
  deriving DecidableEq, Repr

/-- What it knows from the PHY header on. -/
structure RxHdr where
  mode : Nat
  rate : Nat
  cwlen : Bool
  pilots : Bool
  fcs2 : Bool
  whitening : Bool
  length : Nat
  cells : Nat
  /-- Those cells, by their numbers in the pool. -/
  chain : List Nat := []
  codewords : Nat
  received : Nat
  decoded : Nat
  iterations : Nat
  ldpcBad : Bool
  endNs : Nat
  /-- Information bits of the codewords decoded, by codeword, bit 0 first (R95). -/
  info : List (Nat × Nat) := []
  deriving DecidableEq, Repr

/-- What a lane is doing. -/
inductive LanePhase where
  | hunt
  /-- A preamble detected: its level, and when (time clock). -/
  | detect (pre : Preamble) (level : Nat) (clk : Nat)
  | header (i : RxInfo)
  | frame (i : RxInfo) (h : RxHdr)
  deriving DecidableEq, Repr

/-- One lane. -/
structure LaneSt where
  assigned : Option (Nat × Nat) := none
  /-- Since when (time clock), and the assignment before it with its span (R170). -/
  since : Nat := 0
  was : Option ((Nat × Nat) × Nat × Nat) := none
  /-- A change of assignment that waits (R118). -/
  next : Option (Option (Nat × Nat)) := none
  phase : LanePhase := .hunt
  /-- Complete frames whose end FRAME_END has not yet reported, oldest first: the lane is free of them (R116, R132). -/
  done : List (RxInfo × RxHdr) := []
  out : Bool := false
  pinned : Bool := false
  ackOwed : Bool := false
  /-- When its last known-answer test ended (R137), time clock. -/
  katClk : Nat := 0
  /-- When its operation tag was taken (R131), time clock. -/
  tagClk : Option Nat := none
  deriving DecidableEq, Repr

/-- One lane power domain (R138, R139). -/
structure LaneDomSt where
  powered : Bool := false
  /-- Being powered down since (time clock). -/
  stopping : Option Nat := none
  /-- Commanded up and not yet returned. -/
  returning : Bool := false
  /-- Its lanes are stopped while it stays powered (EPB7224, Table 18.8). -/
  stopped : Bool := false
  deriving DecidableEq, Repr

/-- A codeword waiting for a decoder core (R133). -/
structure ReadyCw where
  clk : Nat
  lane : Nat
  long : Bool
  /-- Its number in its frame. -/
  index : Nat := 0
  deriving DecidableEq, Repr

/-- The decoder pool. -/
structure Decoders where
  out : List Bool := [false, false, false, false]
  order : List Nat := [0, 1, 2, 3]
  busy : Tbl ReadyCw := []
  ready : List ReadyCw := []
  deriving DecidableEq, Repr

/-! ## MAC -/

/-- An entry of the duplicate cache (R154). -/
structure DupEntry where
  src : Addr
  srcPan : Option (BitVec 16)
  seq : BitVec 8
  length : Nat
  fcs : BitVec 32
  expiry : Nat
  deriving DecidableEq, Repr

/-- A neighbour border router (R169). -/
structure Nbr where
  routerId : Nat
  eui : BitVec 64
  fe : Nat
  channel : Nat
  /-- Frequency of the last beacon. -/
  hz : Nat
  level : BitVec 9
  sfdNs : Nat
  interval : Nat
  expected : Option Nat
  misses : Nat
  lapsed : Bool
  elem : BeaconElem
  deriving DecidableEq, Repr

/-- A continuation (R163, R381): a node's EUI-64, its front end and channel, its end in network ns. -/
structure Cont where
  eui : BitVec 64
  fe : Nat
  channel : Nat
  endNs : Nat
  deriving DecidableEq, Repr

/-- The MAC. -/
structure MacSt where
  duty : Tbl Duty := []
  dups : List DupEntry := []
  nbrs : List Nbr := []
  conts : List Cont := []
  fragTag : BitVec 16 := 0
  packets : Nat := 0
  deriving DecidableEq, Repr

end Sys2Proof.Machine
end

