-- ==== Sys2Proof/Machine/Air.lean ====
section
/-! DEFINITION. Frames as octets and as symbols: the FCS (R87), the 802.15.4 header forms the part sends (R151, R164, R166, R369), its information
elements (R164, R379), CCM* (R371), and the waveforms of chapter 4 from octet to deviation (R86 to R102).  What the manual takes from IEEE
802.15.4-2020 (bit places of the headers, the FCS polynomials, the chip sequences) stands here as that standard gives it (PRESUMED, log entry 75). -/

namespace Sys2Proof.Machine

/-! ## Bits -/

/-- `n` bits of a number, least significant first, and most significant first. -/
def bitsLsb (n v : Nat) : List Nat := (List.range n).map fun i => (v >>> i) % 2
def bitsMsb (n v : Nat) : List Nat := (bitsLsb n v).reverse

/-- The number whose bits these are, least significant first. -/
def natOfLsb : List Nat → Nat
  | [] => 0
  | b :: t => b % 2 + 2 * natOfLsb t

/-- PSDU bits: bit 8i + b is bit b of octet i (R87). -/
def octetBits (o : Octets) : List Nat := o.flatMap fun b => bitsLsb 8 b.toNat

/-- Octets of a list of bits in that order. -/
def bitOctets (l : List Nat) : Octets := (chunksOf 8 (l.length / 8) l).map fun c => BitVec.ofNat 8 (natOfLsb c)

/-- Exclusive or with the PN9 sequence from its seed: whitening and Helec scrambling, both their own inverse (R88, R95). -/
def whiten (l : List Nat) : List Nat := xorNats l (pn9 l.length)

/-! ## FCS (R87) -/

/-- CRC-16 of IEEE 802.15.4, one octet: x^16 + x^12 + x^5 + 1, least significant bit first, from 0. -/
def crc16Step (c b : Nat) : Nat := (List.range 8).foldl (fun a _ => if a % 2 = 0 then a / 2 else (a / 2) ^^^ 0x8408) (c ^^^ b)

/-- The FCS over an MPDU: 2 octets, or 4 with the MPDU completed by zeros to 4 octets for the computation. -/
def fcsOf (two : Bool) (o : Octets) : Octets :=
  if two then toLe 2 ((octNats o).foldl crc16Step 0) else toLe 4 (crc32 (octNats (padTo 4 o)))

def fcsLen (two : Bool) : Nat := if two then 2 else 4

/-- The PSDU of an MPDU. -/
def withFcs (two : Bool) (o : Octets) : Octets := o ++ fcsOf two o

/-- The MPDU of a PSDU. -/
def mpduOf (two : Bool) (p : Octets) : Octets := p.take (p.length - fcsLen two)

/-- The FCS of a PSDU is right. -/
def fcsGood (two : Bool) (p : Octets) : Bool := fcsLen two ≤ p.length && p.drop (p.length - fcsLen two) == fcsOf two (mpduOf two p)

/-! ## Headers (IEEE 802.15.4-2020, frame version 0b10) -/

def addrMode : Addr → Nat
  | .none => 0
  | .short _ => 2
  | .ext _ => 3

def addrOctets : Addr → Octets
  | .none => []
  | .short a => toLe 2 a.toNat
  | .ext e => toLe 8 e.toNat

/-- What a frame-control field says. -/
structure Fcf where
  ftype : Nat
  sec : Bool := false
  ar : Bool := false
  panComp : Bool := false
  noSeq : Bool := false
  ies : Bool := false
  dst : Addr := .none
  src : Addr := .none
  deriving DecidableEq, Repr

def Fcf.octets (h : Fcf) : Octets :=
  let b := fun (x : Bool) (v : Nat) => if x then v else 0
  toLe 2 (h.ftype + b h.sec 8 + b h.ar 32 + b h.panComp 64 + b h.noSeq 256 + b h.ies 512 + 1024 * addrMode h.dst + 8192 + 16384 * addrMode h.src)

/-- Sets the frame pending bit of a frame. -/
def setPending (p : Bool) : Octets → Octets
  | b :: t => (if p then b ||| 0x10 else b) :: t
  | [] => []

/-- The Enh-Ack (R151). -/
def ackOctets (dst : Addr) (seq : Option (BitVec 8)) (pending : Bool) : Octets :=
  setPending pending (({ ftype := 2, panComp := dst != .none, noSeq := seq.isNone, dst := dst } : Fcf).octets) ++ seq.toList ++ addrOctets dst

/-- The MAC header of a data frame of the part, with or without header IEs (R164). -/
def dataHeader (ar ies : Bool) (seq : BitVec 8) (pan : Nat) (dst src : Addr) : Octets :=
  let both := addrMode dst = 3 ∧ addrMode src = 3
  ({ ftype := 1, sec := true, ar := ar, panComp := !decide both, ies := ies, dst := dst, src := src } : Fcf).octets ++ [seq] ++ toLe 2 pan ++
    addrOctets dst ++ addrOctets src

/-- The auxiliary security header (R369). -/
def auxHeader (level fc : Nat) (keyIndex : BitVec 8) : Octets := toLe 1 (level + 8) ++ toLe 4 fc ++ [keyIndex]

/-- Header Termination 1, Payload Termination and Vendor Specific payload IEs. -/
def headerTerm : Octets := toLe 2 0x3F00
def payloadTerm : Octets := toLe 2 0xF800
def vendorIe (content : Octets) : Octets := toLe 2 (0x9000 + content.length) ++ content

/-- A beacon (R166): source PAN, EUI-64, sequence number, its vendor IE. -/
def beaconOctets (pan : Nat) (eui : BitVec 64) (seq : BitVec 8) (elem : Octets) : Octets :=
  ({ ftype := 0, ies := true, src := .ext eui } : Fcf).octets ++ [seq] ++ toLe 2 pan ++ addrOctets (.ext eui) ++ headerTerm ++ vendorIe elem

/-- Element 0x02 (Table 6.3), and the join elements the part sends (Table 13.9). -/
def assignElem (oui group phase fe effSec : Nat) (listen : Bool) : Octets :=
  toLe 3 oui ++ [0x02] ++ toLe 1 group ++ toLe 1 phase ++ toLe 1 fe ++ toLe 6 effSec ++ toLe 1 (if listen then 1 else 0)

def joinRespElem (oui : Nat) (nodeNonce partNonce : BitVec 64) (keyGen level : Nat) : Octets :=
  toLe 3 oui ++ [0x04] ++ toLe 8 nodeNonce.toNat ++ toLe 8 partNonce.toNat ++ toLe 1 (keyGen % 16) ++ toLe 1 level

def joinDoneElem (oui group phase fe : Nat) (listen : Bool) : Octets :=
  toLe 3 oui ++ [0x06] ++ toLe 1 group ++ toLe 1 phase ++ toLe 1 fe ++ toLe 1 (if listen then 1 else 0)

def rejoinElem (oui reason : Nat) : Octets := toLe 3 oui ++ [0x07] ++ toLe 1 reason

/-- Fragment headers of RFC 4944: FRAG1, and a FRAGN whose offset counts 8 octets (R165). -/
def frag1Header (size tag : Nat) : Octets := toBe 2 (0xC000 + size % 2048) ++ toBe 2 tag
def fragNHeader (size tag offset : Nat) : Octets := toBe 2 (0xE000 + size % 2048) ++ toBe 2 tag ++ toBe 1 offset

/-! ## CCM* (R371) -/

/-- MIC octets of a security level (Table 13.6). -/
def micLen (level : Nat) : Nat := if level = 5 then 4 else if level = 7 then 16 else 8

/-- The nonce: the sender's EUI-64, the frame counter, the security level. -/
def ccmNonce (eui : BitVec 64) (fc level : Nat) : List Nat := beOfNat 8 eui.toNat ++ beOfNat 4 fc ++ [level]

def padBlock (l : List Nat) : List Nat := l ++ List.replicate ((16 - l.length % 16) % 16) 0

/-- The blocks the CBC-MAC runs over: B0, then a with its length, then m; one job of one block each. -/
def ccmBlocks (mic : Nat) (nonce a m : List Nat) : List (List Nat) :=
  let flags := (if a.isEmpty then 0 else 64) + 8 * ((mic - 2) / 2) + 1
  let head := if a.isEmpty then [] else padBlock (beOfNat 2 a.length ++ a)
  let l := (flags :: nonce ++ beOfNat 2 m.length) ++ head ++ padBlock m
  chunksOf 16 (l.length / 16) l

/-- The CBC-MAC of those blocks. -/
def ccmMac (key : List Nat) (blocks : List (List Nat)) : List Nat :=
  blocks.foldl (fun x b => aesEnc key (xorNats x b)) (List.replicate 16 0)

/-- Counter block A_i, which one job takes for a whole frame. -/
def ccmCounter (nonce : List Nat) (i : Nat) : List Nat := 1 :: nonce ++ beOfNat 2 i

/-- m under the counter blocks A1 onward. -/
def ccmCrypt (key nonce m : List Nat) : List Nat :=
  xorNats m ((List.range ((m.length + 15) / 16)).flatMap fun i => aesEnc key (ccmCounter nonce (i + 1)))

/-- The MIC: the CBC-MAC XOR the encrypted A0, truncated. -/
def ccmMic (mic : Nat) (key nonce a m : List Nat) : List Nat :=
  (xorNats (ccmMac key (ccmBlocks mic nonce a m)) (aesEnc key (ccmCounter nonce 0))).take mic

/-- A protected frame: a, the encrypted m, the MIC. -/
def ccmSeal (key nonce : List Nat) (level : Nat) (a m : Octets) : Octets :=
  a ++ natOcts (ccmCrypt key nonce (octNats m)) ++ natOcts (ccmMic (micLen level) key nonce (octNats a) (octNats m))

/-- The MIC of a received MPDU is right; `hdr` octets of it are a, at level 2 all before the MIC. -/
def ccmOpens (key nonce : List Nat) (level hdr : Nat) (mpdu : Octets) : Bool :=
  let n := mpdu.length - micLen level
  let a := mpdu.take (if level = 2 then n else hdr)
  let m := ccmCrypt key nonce (octNats ((mpdu.take n).drop a.length))
  decide (micLen level ≤ mpdu.length) && octNats (mpdu.drop n) == ccmMic (micLen level) key nonce (octNats a) m

/-! ## Deviations (R86), in units of 10 Hz -/

/-- A 2-level symbol or chip at ±25 kHz, ±125 kHz on H; the outer one at ±50 kHz, ±250 kHz. -/
def dev2 (onH : Bool) (b : Nat) : Int := (if b = 0 then -1 else 1) * (if onH then 12500 else 2500)
def devOuter (onH : Bool) (b : Nat) : Int := (if b = 0 then -1 else 1) * (if onH then 25000 else 5000)

/-- A 4-level symbol from its bits b0 and b1 (Table 4.2). -/
def dev4 (onH : Bool) (b0 b1 : Nat) : Int :=
  (if b0 = 0 then -1 else 1) * (if b1 = 1 then (if onH then 25000 else 5000) else if onH then 8333 else 1667)

def dev4All (onH : Bool) : List Nat → List Int
  | b0 :: b1 :: t => dev4 onH b0 b1 :: dev4All onH t
  | _ => []

/-! ## SUN-FSK and O-QPSK (R88, R89) -/

/-- A preamble of octets 0x55, sent 0, 1, 0, 1. -/
def preambleBits (n : Nat) : List Nat := (List.replicate n (bitsMsb 8 0x55)).flatten

/-- The SFD of AIR_MODES.sun_sfd. -/
def sunSfdWord (v : Nat) : Nat := if v = 0 then 0x904E else 0x7A0E

/-- SFD, and PHR: mode switch and reserved bits 0, FCS type, whitening, length from its most significant bit. -/
def sunHeader (sfd : Nat) (fcs2 dw : Bool) (len : Nat) : List Nat :=
  bitsMsb 16 (sunSfdWord sfd) ++ [0, 0, 0, if fcs2 then 1 else 0, if dw then 1 else 0] ++ bitsMsb 11 len

def sunSymbols (f : AirFmt) (sfd : Nat) (fcs2 dw : Bool) (psdu : Octets) : List Int :=
  let head := preambleBits f.preamble ++ sunHeader sfd fcs2 dw psdu.length
  let body := if dw then whiten (octetBits psdu) else octetBits psdu
  if f.mode = 2 then head.map (devOuter false) ++ dev4All false body else (head ++ body).map (dev2 false)

/-- Chips of data symbol 0 of the 2450 MHz O-QPSK PHY, chip 0 in the most significant bit. -/
def oqpskChips0 : Nat := 0xD9C3522E

/-- The 32 chips of a 4-bit symbol: symbols 1 to 7 turn symbol 0's by 4 chips each, symbols 8 to 15 invert the odd chips of those. -/
def oqpskChips (v : Nat) : List Nat :=
  let base := bitsMsb 32 oqpskChips0
  let k := 32 - 4 * (v % 8)
  let l := base.drop k ++ base.take k
  if v < 8 then l else l.mapIdx fun i b => if i % 2 = 1 then 1 - b else b

/-- Preamble of 4 zero octets, SFD 0xA7, PHR with its reserved bit 0, PSDU; each octet's low half first. -/
def oqpskFrame (psdu : Octets) : List Nat :=
  ([0, 0, 0, 0, 0xA7, BitVec.ofNat 8 (psdu.length % 128)] ++ psdu).flatMap fun b => oqpskChips (b.toNat % 16) ++ oqpskChips (b.toNat / 16)

/-! ## Helec frames (R90 to R102) -/

def helecSync : Nat := 0x4D3AF159

/-- The spreading sequence S, and a coded bit spread by it (R91). -/
def spreadS : List Nat := [1, 1, 0, 1, 0, 0, 0, 1]
def spread (b : Nat) : List Nat := if b = 0 then spreadS else spreadS.map fun c => 1 - c

/-- Information bits of a PSDU: its bits, zero bits to C × K, scrambled (R95). -/
def helecInfo (rate : Nat) (cwlen : Bool) (psdu : Octets) : List Nat :=
  let n := helecCodewords rate cwlen psdu.length * helecK rate cwlen
  whiten (octetBits psdu ++ List.replicate (n - 8 * psdu.length) 0)

/-- The systematic codeword of K information bits (R98): its blocks of Z bits, the information blocks and then the parity blocks. -/
def ldpcBlocks (rate z : Nat) (info : List Nat) : List Nat :=
  let mb := ldpcRows rate
  let s := (chunksOf z (64 - mb) info).map natOfLsb
  s ++ ldpcParity mb z s

def ldpcEncode (rate : Nat) (cwlen : Bool) (info : List Nat) : List Nat :=
  let z := helecN cwlen / 64
  (ldpcBlocks rate z info).flatMap (bitsLsb z)

/-- The coded bit sent at position t: the one whose `interleave` is t (R100). -/
def interleaveFrom (cwlen : Bool) (t : Nat) : Nat :=
  let w := if cwlen then 64 else 32
  let h := helecN cwlen / w
  t % h * w + t / h

def interleaved (cwlen : Bool) (cw : List Nat) : List Nat := (List.range (helecN cwlen)).map fun t => cw.getD (interleaveFrom cwlen t) 0

/-- The payload's bits in the order sent. -/
def helecPayload (rate : Nat) (cwlen : Bool) (psdu : Octets) : List Nat :=
  (chunksOf (helecK rate cwlen) (helecCodewords rate cwlen psdu.length) (helecInfo rate cwlen psdu)).flatMap fun info =>
    interleaved cwlen (ldpcEncode rate cwlen info)

/-- Puts a pilot block after every 128th unit but the last (R102). -/
def addPilots {α : Type} (pilot : List α) (units : List (List α)) : List α :=
  let blocks := chunksOf 128 (units.length / 128 + 1) units
  (blocks.mapIdx fun i b => b.flatten ++ (if i + 1 < blocks.length then pilot else [])).flatten

def pairUp : List Nat → List (Nat × Nat)
  | a :: b :: t => (a, b) :: pairUp t
  | _ => []

def helecSymbols (f : AirFmt) (fcs2 : Bool) (psdu : Octets) : List Int :=
  let header := bitsLsb 144 (helecCoded (helecHeader 0 (f.mode - 4) f.rate f.cwlen fcs2 f.pilots psdu.length))
  let coded := bitsLsb 32 helecSync ++ header
  let bits := helecPayload f.rate f.cwlen psdu
  let on := fun (l : List Int) => if f.pilots then l else []
  let two := dev2 f.onH
  match f.mode with
  | 6 =>
    let unit := spread 0 ++ spread 1
    let pre := (List.replicate f.hsUnits unit).flatten
    (pre ++ coded.flatMap spread).map two ++ addPilots (on ((unit ++ unit).map two)) (bits.map fun b => (spread b).map two)
  | 5 => (preambleBits f.preamble ++ coded).map two ++
      addPilots (on ([1, 0, 1, 0, 1, 0, 1, 0].map (devOuter f.onH))) ((pairUp bits).map fun p => [dev4 f.onH p.1 p.2])
  | _ => (preambleBits f.preamble ++ coded).map two ++ addPilots (on ([1, 0, 1, 0, 1, 0, 1, 0].map two)) (bits.map fun b => [two b])

/-! ## The parity-check matrix (R96, R97) -/

/-- The shift of the base matrix's entry at (r, c); `none`: an empty entry. -/
def baseEntry (mb z r c : Nat) : Option Nat :=
  let kb := 64 - mb
  if c < kb then (if (ldpcColRows mb c).contains r then some (ldpcShift z c r) else none)
  else if c = kb then (if r = 0 ∨ r = mb - 1 then some 1 else if r = mb / 2 then some 0 else none)
  else if r + kb + 1 = c ∨ r + kb = c then some 0
  else none

/-- Row block r of H applied to a word of 64 blocks of Z bits: the lifted rows' sums. -/
def syndromeRow (mb z : Nat) (blocks : List Nat) (r : Nat) : Nat :=
  (blocks.mapIdx fun c x => match baseEntry mb z r c with
    | some e => rotZ z x e
    | none => 0).foldl (· ^^^ ·) 0

/-- The word is in the null space of H. -/
def zeroSyndrome (rate z : Nat) (blocks : List Nat) : Bool :=
  (List.range (ldpcRows rate)).all fun r => syndromeRow (ldpcRows rate) z blocks r == 0

/-- The 64 blocks of a received word, coded bit j in bit j. -/
def wordBlocks (z w : Nat) : List Nat := (List.range 64).map fun c => (w >>> (c * z)) % 2 ^ z

/-- The PSDU of a received Helec frame from its codewords' information bits, descrambled and without its pad bits (R95). -/
def helecPsdu (len : Nat) (info : List (List Nat)) : Octets := bitOctets ((whiten info.flatten).take (8 * len))

/-! ## What a front end puts on the air -/

/-- The ramp of a shape code (Table 3.5). -/
def rampOf (code : Nat) : RampShape := if code = 0 then .linear else .raisedCosine

/-- Output amplitude at fraction x of a ramp (Table 3.5). -/
noncomputable def RampShape.amplitude : RampShape → ℝ → ℝ
  | .linear, x => x
  | .raisedCosine, x => (1 - Real.cos (Real.pi * x)) / 2

def symbolNs (f : AirFmt) : Nat :=
  match f.mode with
  | 0 => 20000
  | 1 | 2 => 10000
  | 3 => 500
  | _ => helecTick f.onH * 1000

/-- The waveform of a PSDU. -/
def waveOf (f : AirFmt) (sfd : Nat) (fcs2 dw : Bool) (shape us : Nat) (psdu : Octets) : Wave :=
  { tickNs := symbolNs f
    dev := if f.mode < 3 then sunSymbols f sfd fcs2 dw psdu else if f.mode = 3 then [] else helecSymbols f fcs2 psdu
    chips := if f.mode = 3 then oqpskFrame psdu else [], ramp := rampOf shape, rampUs := us }

end Sys2Proof.Machine
end

