-- ==== Sys2Proof/Config.lean ====
section
/-! DEFINITION. The free values of the model: constants without a body, so that nothing can be proved of their value.  A step applies
one of them to the counter `State.rnd`, which it advances, wherever the manual says a random value is drawn and fixes none, and to the
operands where the manual states an effect but no value. -/

namespace Sys2Proof

/-- The n-th value drawn from the CTR_DRBG (R343), 256 bits; nothing is known of it.  Safe: log entry 4. -/
opaque Config.drbg : Nat → BitVec 256

/-- What the octet at a boot-flash address holds after an erase or a program that the device did not carry out (read back different,
S_FLASH): the n-th such octet.  Safe: log entry 5. -/
opaque Config.flashBad : Nat → BitVec 8

/-- A value a row of the manual reports but nowhere states how to compute: the n-th such value.  Safe: log entry 6. -/
opaque Config.unstated : Nat → BitVec 64

/-- The servo's own estimate of the increment, in units of 2^−32 ns, after its n-th measurement (R178); the manual does not say how it is made.
Safe: log entry 78. -/
opaque Config.freqEstimate : Nat → Nat

/-- The open-loop estimate of a front end's gain for a port and a power in 0.5 dB units, in quarter dB (R72); the manual does not give it.
Safe: log entry 74. -/
opaque Config.openLoop : Nat → Nat → Int → Int

/-- Octets of a frame whose content the manual leaves to RFC 6550 and states nowhere (DIO, DAO-ACK): the i-th of the n-th such frame.  Safe: log
entry 6. -/
opaque Config.freeOctet : Nat → Nat → BitVec 8

/-- Where in the pool the search for a free cell begins for the n-th packet (R236); the manual says nowhere which free cell is taken.  Safe: log
entry 81. -/
opaque Config.cellPick : Nat → Nat

/-- Check bits of a word, and those of the side entry's next and last (R231, R251): SEC-DED codes internal to the part, which the manual gives
nowhere.  Safe: log entry 81. -/
opaque Config.checkBits : BitVec 128 → BitVec 9
opaque Config.sideCheck : BitVec 21 → BitVec 6

end Sys2Proof
end

