-- ==== Sys2Proof/Machine/Parts/Life.lean ====
section
/-! DEFINITION. State of start-up, life cycle, firmware and configuration (chapters 2, 17 and 19). -/

namespace Sys2Proof.Machine

/-- The two variants (Table 0.1). -/
inductive Variant where
  | epb7248 | epb7224
  deriving DecidableEq, Repr

/-- Life-cycle states held in fuses (Table 2.1).  MANUFACTURE is never delivered (R25). -/
inductive Lcs where
  | provision | operate | retired
  deriving DecidableEq, Repr

/-- What the part is doing as a whole. -/
inductive Mode where
  /-- RESET_N low, or the part held in reset waiting for a start (R31, R438). -/
  | reset
  /-- Held at step 5 of Table 12.12 while ZEROISE_N stays low (R356, row 1 of Table 2.5). -/
  | zeroHold
  /-- Held at step 2 until PFI_N has been high for 10 ms (row 3 of Table 2.5). -/
  | pfiHold
  /-- OPERATE with an image applied (Table 2.3 from step 12). -/
  | operate
  /-- The no-configuration condition (R51), or a DRAM training failure (R252). -/
  | noConfig
  /-- PROVISION after step 12 (R53). -/
  | provision
  /-- Stump (R489). -/
  | stump
  /-- RETIRED (Table 2.1). -/
  | retired
  /-- SECURITY-ERROR (R349). -/
  | secError
  /-- Zeroisation in progress (R355). -/
  | zeroising
  /-- After step 7 of Table 16.9: held in reset while PFI_N is low (R467). -/
  | pfHeld
  /-- Thermal step 4: held in reset until Tj falls (R503). -/
  | thermalHold
  /-- A JTAG instruction that drives balls holds the part in reset (R526). -/
  | jtagHold
  /-- The main supply is absent. -/
  | unpowered
  deriving DecidableEq, Repr

/-- The PUF's helper data in fuses (Table 12.1), `offset` its 5 104 bits, `check` its 16 octets in order.  Nothing rewrites it (R327).  At reset it is
that of a part whose response is the codeword of the all-zero information bits (log entry 82). -/
structure PufHelper where
  format : BitVec 16 := 1
  blocks : BitVec 16 := 4
  offset : BitVec 5104 := 0
  check : BitVec 128 := 0xf545d95c4b60b54b67ae9952abc3ec2d
  crc : BitVec 16 := 0xda34
  deriving DecidableEq, Repr

/-- Facts fixed in the part before it leaves Rilhild: fuses, ROM and the root the PUF gives (R326, R327, R477). -/
structure PartId where
  variant : Variant := .epb7248
  eui64 : BitVec 64 := 0
  romVersion : BitVec 32 := 1
  /-- The two 56-octet LMS public keys of the ROM. -/
  romKey0 : Octets := []
  romKey1 : Octets := []
  helper : PufHelper := {}
  /-- Stepping and manufacturer identity of the JTAG identity code (R525). -/
  stepping : BitVec 4 := 0
  manufacturer : BitVec 11 := 0
  deriving DecidableEq, Repr

/-- A record of a configuration image (R39). -/
structure CfgRec where
  typ : Nat
  inst : Nat
  rflags : BitVec 8
  payload : Octets
  deriving DecidableEq, Repr

/-- The applied image (R42): version, flags, image_mac and records. -/
structure Image where
  version : BitVec 32
  flags : BitVec 32
  mac : Octets
  recs : List CfgRec
  deriving DecidableEq, Repr

/-- A Stump download (R491): next offset expected, the header octets held, and whether the target slot passed FW-SLOT-CHECK since its
last write (R492). -/
structure StumpSt where
  target : Nat
  next : Nat := 0
  held : Octets := []
  headerOk : Bool := false
  checked : Bool := false
  deriving DecidableEq, Repr

/-- Life-cycle, start and firmware state. -/
structure Life where
  lcs : Lcs := .provision
  mode : Mode := .reset
  radioOn : Bool := false
  /-- Time clock at this start's RESET_N rise. -/
  startClk : Nat := 0
  /-- Heartwood has been opened by this start (R464). -/
  hwOpen : Bool := false
  /-- M-cores run firmware (step 8). -/
  cpuUp : Bool := false
  fwSlot : Option Nat := none
  cfgSlot : Option Nat := none
  /-- The slot in use is on trial (R482). -/
  fwTrial : Bool := false
  cfgTrial : Bool := false
  fwVersion : BitVec 32 := 0
  /-- Signed octets 0 to 4 223 of the running image (fw_digest, hand-off formats). -/
  fwHeader : Octets := []
  image : Option Image := none
  /-- Per slot: passed its check since its last write and the last start (R483). -/
  fwChecked : List Bool := [false, false]
  cfgChecked : List Bool := [false, false]
  /-- The slot that last passed CONFIG-CHECK in PROVISION (R56). -/
  provSlot : Option Nat := none
  /-- No start in OPERATE has been made yet (R56). -/
  firstOperate : Bool := true
  selfTestsPassed : Bool := false
  /-- RETIRE-PREPARE: its mailbox and time-clock instant (transition 3 of Table 2.2). -/
  retirePrep : Option (Nat × Nat) := none
  /-- Forwarding pause in progress (R20, R485, R488), with its start. -/
  pause : Option Nat := none
  stump : Option StumpSt := none
  /-- AON restart-cause register (R471). -/
  restartCause : BitVec 8 := 0
  /-- AON SECURITY-ERROR cause register (R350), 0 for none, and what SECURITY-STATUS reports of it. -/
  secCause : BitVec 8 := 0
  secSensor : BitVec 8 := 0
  secEntry : BitVec 64 := 0
  /-- Approved mode (R348). -/
  approved : Bool := false
  pufMargin : Bool := false
  /-- DRAM training failed at this start (R252). -/
  dramFailed : Bool := false
  /-- A JTAG instruction that drives balls stands: the part is held, or will be at the end of zeroisation (R526). -/
  jtagDrives : Bool := false
  /-- The identity code, while the TAP holds IDCODE (R525). -/
  idReg : Option (BitVec 32) := none
  deriving DecidableEq, Repr

/-- Pins that are levels, and the AON latch of ZEROISE_N (R356). -/
structure Pins where
  resetN : Bool := false
  pfiN : Bool := true
  zeroiseN : Bool := true
  zeroiseLatch : Bool := false
  /-- M0's BUSY ball (R431). -/
  m0Busy : Bool := false
  deriving DecidableEq, Repr

end Sys2Proof.Machine
end

