-- ==== Sys2Proof/Machine/Parts/Net.lean ====
section
/-! DEFINITION. State of the node table, its index, the link tables, the RPL root, joins, and the wake cycle (chapters 8, 10 and 13). -/

namespace Sys2Proof.Machine

/-- Record states (Table 10.5). -/
inductive NodeState where
  | free | joining | live | quiet | retiring | clearing
  deriving DecidableEq, Repr

/-- A parent slot (Table 10.6). -/
structure ParentSlot where
  index : Nat := 0
  root : Bool := false
  valid : Bool := false
  pref : Nat := 0
  deriving DecidableEq, Repr

/-- A node record (Tables 10.1 to 10.4).  A FREE record is not listed. -/
structure Node where
  eui : BitVec 64
  world : Nat := 0
  state : NodeState := .joining
  epoch : Nat := 0
  lastHeard : BitVec 32 := 0
  seqOut : BitVec 8 := 0
  keyGen : Nat := 0
  secLevel : Nat := 0
  listen : Bool := false
  wakeExp : Nat := 0
  offset : BitVec 16 := 0
  offsetSec : BitVec 32 := 0
  offsetBand : Bool := false
  /-- An offset is held (R470: absent until the next refreshing frame). -/
  offsetHeld : Bool := false
  modeSub : Nat := 0
  rateSub : Nat := 0
  validSub : Bool := false
  modeH : Nat := 0
  rateH : Nat := 0
  validH : Bool := false
  fe : Nat := 3
  group : Nat := 0
  phase : Nat := 0
  aerial : Nat := 0
  txPower : Int := 0
  pathSel : Nat := 0
  pins : BitVec 5 := 0
  newGroup : Nat := 0
  newPhase : Nat := 0
  pending : Bool := false
  effSec : BitVec 20 := 0
  parents : List ParentSlot := [{}, {}, {}]
  pathSeq : BitVec 8 := 0
  regExpiry : BitVec 24 := 0
  fcIn : BitVec 32 := 0
  fcOut : BitVec 32 := 0
  /-- Pacing time (R221) in network ns, 0 for none; the record's pace_us is its low 40 bits in µs (log entry 31). -/
  paceNs : Nat := 0
  /-- A DAO has been applied since the join or the last lapse (R282). -/
  daoSeen : Bool := false
  /-- Sweep pass during which the record entered CLEARING (R269), and whether its Heartwood entries are released (R456). -/
  clearPass : Nat := 0
  /-- Frames below fc_in since the last accepted frame (Table 13.11). -/
  stale : Nat := 0
  /-- fc_in or fc_out has reached 0xF000_0000 and the next protected frame carries the notice (R378). -/
  worn : Bool := false
  /-- part_nonce of the join last completed (R380). -/
  partNonce : Option (BitVec 64) := none
  /-- SFD timestamp of the last refreshing frame, ns, with snr, level, pipeline and lane (R274). -/
  refNs : Nat := 0
  refSnr : Nat := 0
  refLevel : Nat := 0
  refPipe : Nat := 0
  refLane : Nat := 0
  created : Nat := 0
  deriving DecidableEq, Repr

/-- An entry of the index (R261). -/
structure IdxEntry where
  tag : Nat
  index : Nat
  deriving DecidableEq, Repr

/-- An overflow entry. -/
structure OvfEntry where
  b1 : Nat
  b2 : Nat
  tag : Nat
  index : Nat
  deriving DecidableEq, Repr

/-- One copy of the index: bucket entries keyed 4b + position, and the overflow store (R261, R279). -/
structure IdxCopy where
  entries : Tbl IdxEntry := []
  overflow : Tbl OvfEntry := []
  deriving DecidableEq, Repr

/-- A link-table entry (Table 10.8). -/
structure LinkEntry where
  node : Nat
  sfdNs : Nat
  lane : Nat
  channel : Nat
  aerial : Nat
  level : BitVec 9
  snr : BitVec 8
  freqOffset : Int
  mode : Nat
  direct : Bool
  heard : Nat
  deriving DecidableEq, Repr

/-- The RPL root of one world (R281): DODAG version, DTSN, and the trickle timer's interval in ms, its start. -/
structure Dodag where
  version : BitVec 8 := 240
  dtsn : BitVec 8 := 0
  interval : Nat := 0
  startNs : Nat := 0
  /-- A DIO was sent in this interval. -/
  sent : Bool := false
  deriving DecidableEq, Repr

/-- A join in progress (R380). -/
structure Join where
  node : Nat
  world : Nat
  rejoin : Bool
  nodeNonce : BitVec 64
  partNonce : BitVec 64
  keyGen : Nat
  level : Nat
  listen : Bool
  wakeExp : Nat
  linkKey : Key
  startClk : Nat
  deriving DecidableEq, Repr

/-- A notice sent (R386): EUI-64 and time clock. -/
structure Notice where
  eui : BitVec 64
  clk : Nat
  deriving DecidableEq, Repr

/-- The node table and what lives beside it. -/
structure TableSt where
  nodes : Tbl Node := []
  seed : BitVec 64 := 0
  act : IdxCopy := {}
  shadow : IdxCopy := {}
  epochs : List Nat := [0, 0, 0, 0, 0, 0, 0, 0]
  sweepPos : Nat := 0
  sweepPass : Nat := 0
  walkPos : Nat := 0
  links : PerFe (Tbl LinkEntry) := { sa := [], sb := [], h := [] }
  /-- TABLE_FULL was last raised at this time clock, and no insertion has succeeded since (R264). -/
  fullRaised : Option Nat := none
  dodags : Tbl Dodag := []
  joins : List Join := []
  notices : List Notice := []
  /-- Handshake tokens in thousandths, and the time clock they were counted at (R386). -/
  tokens : Nat := 0
  tokenClk : Nat := 0
  /-- A flush or a rehash in course: world flushed, new seed (R277, R278). -/
  flushing : Option Nat := none
  rehash : Option (BitVec 64) := none
  deriving DecidableEq, Repr

/-! ## Wake cycle -/

/-- A flow of the shaping calendar (R222): its node, its eligible time in ns, its frames; in the wheel or on the far list; released. -/
structure Flow where
  node : Nat
  eligible : Nat
  frames : List (Nat × Packet)
  far : Bool
  slot : Nat
  released : Bool
  deriving DecidableEq, Repr

/-- A queue's statistics (Table 8.3). -/
structure QStat where
  samples : Nat := 0
  empty : Nat := 0
  depthMax : Nat := 0
  delayMax : Nat := 0
  depthSum : Nat := 0
  windowSec : Nat := 0
  hist : List Nat := List.replicate 16 0
  deriving DecidableEq, Repr

/-- A front end's gate lists (R213): active, and shadow with the instant (network ns) from which a boundary may take it. -/
structure GateSt where
  active : List (BitVec 64) := []
  shadow : Option (List (BitVec 64)) := none
  notBefore : Nat := 0
  deriving DecidableEq, Repr

/-- A packet whose frames are paced (R221): packet number, node, time on air so far, frames still to end. -/
structure Paced where
  packet : Nat
  node : Nat
  world : Nat
  air : Nat
  left : Nat
  deriving DecidableEq, Repr

/-- The wake cycle. -/
structure WakeSt where
  gates : PerFe GateSt := { sa := {}, sb := {}, h := {} }
  /-- Credits by 8 × front end + world, in ps; counted at `creditClk`. -/
  credit : Tbl Int := []
  creditClk : Nat := 0
  flows : List Flow := []
  qcur : Tbl QStat := []
  qlast : Tbl QStat := []
  qsec : Nat := 0
  /-- Millisecond of network time at which the queues were last sampled (R227). -/
  sampleMs : Nat := 0
  paced : List Paced := []
  deriving DecidableEq, Repr

end Sys2Proof.Machine
end

