-- ==== Sys2Proof/Machine/Parts/Back.lean ====
section
/-! DEFINITION. State of the backhaul ports and PRP (chapter 14) and of tags, unit faults and thermal steps (chapter 18). -/

namespace Sys2Proof.Machine

/-- Port speeds in the codes of BACKHAUL.min_speed: 0 2.5 Gb/s, 1 1 Gb/s, 2 100 Mb/s. -/
abbrev Speed := Nat

/-- A speed change in progress (Table 14.5): the speed left, the speed sought, the instant of step 1 on the time clock, and whether the
part is returning to its former speed after a time-out. -/
structure SpeedChange where
  source : Speed
  target : Speed
  start : Nat
  returning : Bool
  deriving DecidableEq, Repr

/-- A copy waiting on a port or leaving it: the send it belongs to and its size on the wire (R402). -/
structure Copy where
  send : Nat
  size : Nat
  /-- Time-clock tick at which its first octet left. -/
  began : Option Nat
  /-- A Delay_Req, with its sequenceId (R418). -/
  ptp : Option (BitVec 16) := none
  deriving DecidableEq, Repr

/-- One backhaul port. -/
structure PortSt where
  up : Bool := false
  /-- Lost as a unit (Table 18.6). -/
  out : Bool := false
  speed : Speed := 1
  change : Option SpeedChange := none
  /-- A change has timed out: no further step-down until the next start (R412). -/
  noStepDown : Bool := false
  /-- Time clock at which the port came up, changed speed or left path fault last; and at which its last change ended. -/
  settledClk : Nat := 0
  changedClk : Option Nat := none
  /-- Pause: time clock at which it ends, and at which the unbroken pause began (R409). -/
  pauseEnd : Option Nat := none
  pauseStart : Nat := 0
  /-- The watchdog ignores PAUSE frames; time clock at which one was last received (R409). -/
  pauseIgnored : Option Nat := none
  pathFault : Bool := false
  /-- Cause of the present fault: 0 link down, 1 comparison. -/
  faultCause : Nat := 0
  /-- Time clock at which the port began to establish its link (R537). -/
  beginClk : Option Nat := none
  badWindows : Nat := 0
  goodWindows : Nat := 0
  /-- f of entries first seen here that expired in the present window, and those of them whose twin this port missed (R404). -/
  firsts : Nat := 0
  missed : Nat := 0
  /-- A window in which either port renegotiated is void (R405). -/
  void : Bool := false
  /-- Consecutive seconds below the step-down threshold, and the last second's load in kb/s (R411). -/
  lowSecs : Nat := 0
  load : Nat := 0
  /-- A copy was skipped while not paused, or a 100 ms window passed up_thr_pm: a step-up is sought (R413). -/
  wantUp : Bool := false
  lpi : Bool := false
  idleClk : Nat := 0
  /-- Cells of the frame in reception, and that its rest is ignored (R395). -/
  rxCells : Nat := 0
  rxChain : List Nat := []
  rxIgnore : Bool := false
  copies : List Copy := []
  /-- SerDes settings in force (R390). -/
  serdes : Octets := []
  ptp : PtpPort := {}
  deriving DecidableEq, Repr

/-- An entry of the duplicate-discard table (R400), times in network ns. -/
structure PrpEntry where
  source : BitVec 48
  seq : BitVec 16
  port : Nat
  arrival : Nat
  twin : Bool
  deriving DecidableEq, Repr

/-- A supervision source (R401): the time clock of its last frame on each port. -/
structure SupSource where
  source : BitVec 48
  p0 : Option Nat
  p1 : Option Nat
  deriving DecidableEq, Repr

/-- A frame chosen for sending whose copies have not all left (R402). -/
structure Sending where
  send : Nat
  packet : Option Packet
  /-- Time clock at which the frame was chosen, and at which its first copy began. -/
  chosen : Nat
  first : Option Nat
  deriving DecidableEq, Repr

/-- The backhaul. -/
structure BackSt where
  port : PerPort PortSt := { p0 := {}, p1 := {} }
  prpSeq : BitVec 16 := 0
  supSeq : BitVec 16 := 0
  dups : List PrpEntry := []
  sources : List SupSource := []
  sending : List Sending := []
  nextSend : Nat := 0
  deficit : List Nat := [0, 0, 0, 0, 0, 0, 0, 0]
  /-- World the round robin visits, and whether its quantum of this visit is already added. -/
  turn : Nat := 0
  granted : Bool := false
  /-- The router's address, from BACKHAUL.router_mac or a Router Advertisement (R391). -/
  router : Option (BitVec 48) := none
  sendId : BitVec 16 := 0
  /-- Sawmill sends posted and not yet cut: mailbox and message (R415, R429). -/
  sends : List (Nat × Msg × List (BitVec 32)) := []
  /-- Time clock at which the last supervision frame was sent and the last path window closed. -/
  supClk : Nat := 0
  windowClk : Nat := 0
  deriving DecidableEq, Repr

/-- Tags, mapped-out units and thermal state. -/
structure IslandSt where
  mcoreOut : List Bool := [false, false, false, false]
  /-- Staging banks 0 to 3 and the spare (4) out of service. -/
  bankOut : List Bool := [false, false, false, false, false]
  /-- Faults of island time copies, with their time clock (Table 18.6). -/
  copyFaults : List (Island × Nat) := []
  islandOut : List Island := []
  /-- Reclaims of tags, with their time clock (R498). -/
  reclaims : List (TagHolder × Nat) := []
  /-- Thermal step in force, and for each of steps 1 to 4 the time clock of its entry and since when Tj has stayed at or below its exit. -/
  step : Nat := 0
  entered : List Nat := [0, 0, 0, 0]
  coolSince : List (Option Nat) := [none, none, none, none]
  tj : Int := 25
  /-- Units out by step 2 and not by a fault: decoder core i as i, cipher unit i as 4 + i. -/
  step2 : List Nat := []
  deriving DecidableEq, Repr

end Sys2Proof.Machine
end

