-- ==== Sys2Proof/Machine/Parts/Place.lean ====
section
/-! DEFINITION. State of Canopy (chapter 11). -/

namespace Sys2Proof.Machine

/-- A pipeline's estimate of a node (Table 11.2): level_q, hearings, snr_q and hearings of each port, SFD timestamp last used. -/
structure LinkEst where
  level : Nat := 0
  hearings : Nat := 0
  snrA : Nat := 0
  snrB : Nat := 0
  hearA : Nat := 0
  hearB : Nat := 0
  usedNs : Nat := 0
  deriving DecidableEq, Repr

/-- What Canopy keeps of a node. -/
structure Meas where
  est : PerFe LinkEst := { sa := {}, sb := {}, h := {} }
  /-- u in ppm with 16 fractional bits, and the SFD timestamp of the previous frame used. -/
  u : Nat := 0
  uHeld : Bool := false
  uRef : Option Nat := none
  ackPm : Nat := 1000
  attempts : Nat := 0
  bias : Nat := 0
  biasClk : Nat := 0
  /-- Time clock of the last change of placement, aerial, power, path (R293). -/
  coolPlace : Option Nat := none
  coolAerial : Option Nat := none
  coolPower : Option Nat := none
  coolPath : Option Nat := none
  deriving DecidableEq, Repr

/-- busy_pm of a channel frequency (Table 11.2). -/
structure BusyEst where
  fe : Nat
  hz : Nat
  pm : Nat
  clk : Nat
  deriving DecidableEq, Repr

/-- A channel group: its front end and the frequencies of its channels, ascending (R298). -/
structure Group where
  fe : Nat
  freqs : List Nat
  deriving DecidableEq, Repr

/-- A pending assignment's course (R305, R306): decided at, a frame carrying it has begun, it is confirmed. -/
structure Course where
  decidedNs : Nat
  effNs : Nat
  begun : Bool
  confirmed : Bool
  deriving DecidableEq, Repr

/-- A placement that took effect unconfirmed (R308): what stood before, and whether the revert is due. -/
structure Taken where
  node : Nat
  group : Nat
  phase : Nat
  fe : Nat
  effNs : Nat
  revert : Bool
  deriving DecidableEq, Repr

/-- A host pin on a node that waits for a round (R320). -/
structure PinWait where
  node : Nat
  /-- Group and phase, or the pinned band. -/
  place : Option (Nat × Nat)
  fe : Option Nat
  /-- The listen flag pinned with a group and phase. -/
  listen : Option Bool := none
  deriving DecidableEq, Repr

/-- A freeze (R321): kinds mask, world (8: all), end in network ns (`none`: until thawed). -/
structure Freeze where
  kinds : Nat
  world : Nat
  endNs : Option Nat
  deriving DecidableEq, Repr

/-- A decision-log entry (Table 11.5). -/
structure LogEntry where
  seq : BitVec 32
  sec : BitVec 48
  ms : Nat
  kind : Nat
  cause : Nat
  world : Nat
  flags : Nat
  subject : Nat
  old : BitVec 32
  new : BitVec 32
  gain : Int
  deriving DecidableEq, Repr

/-- A channel with members that is not watched (R313): since when, and when CANOPY_UNWATCHED was last raised. -/
structure Unwatched where
  fe : Nat
  hz : Nat
  since : Nat
  raised : Option Nat
  deriving DecidableEq, Repr

/-- Canopy. -/
structure CanopySt where
  /-- Time clock at radio on; number of the next round. -/
  radioClk : Nat := 0
  round : Nat := 0
  /-- Kinds that fell due in rounds omitted, and kinds brought forward by an event (R290, R292). -/
  owed : List Nat := []
  /-- Lanes lost since the last round (Table 11.3). -/
  lanesLost : Nat := 0
  /-- Time clock of the last fault that left a channel with members unwatched (R302). -/
  faultClk : Option Nat := none
  meas : Tbl Meas := []
  busy : List BusyEst := []
  unitPm : List Nat := [0, 0, 0, 0, 0, 0, 0, 0]
  groups : Tbl Group := []
  /-- Lane pins: lane to (front end, channel); slice pins: front end to centre. -/
  lanePins : Tbl (Nat × Nat) := []
  slicePins : Tbl Nat := []
  /-- Frequencies avoided and the router ids of the neighbours that cause the marks (R317). -/
  marks : List (Nat × Nat) := []
  cipherOrder : List Nat := [0, 1, 2, 3]
  freezes : List Freeze := []
  log : List LogEntry := []
  logSeq : BitVec 32 := 0
  course : Tbl Course := []
  taken : List Taken := []
  /-- Re-homes due: node and group (R309). -/
  rehome : Tbl Nat := []
  pinWait : List PinWait := []
  /-- Cool-downs of slices by front end and of gate entries by 1 024 × front end + entry, time clock. -/
  coolSlice : Tbl Nat := []
  coolEntry : Tbl Nat := []
  unwatched : List Unwatched := []
  deriving DecidableEq, Repr

end Sys2Proof.Machine
end

