-- ==== Sys2Proof/Machine/State.lean ====
section
/-! DEFINITION. The state of the part as plain data, the reasons a step can stop, and the state right after the part is made ready:
RESET_N low, the fuses in PROVISION (R25), memories as the log names them. -/

namespace Sys2Proof.Machine

/-- The state of the part and the queue of commands waiting for it. -/
structure State where
  /-- Ticks of the 250 MHz time clock (R174). -/
  clk : Nat
  /-- Values drawn so far from the free-value constants of Config; the model's own (log entry 4). -/
  rnd : Nat
  id : PartId
  life : Life
  pins : Pins
  /-- Boot flash (R35): octets that differ from 0xFF, in ascending order of address. -/
  flash : List Host.Cell
  crypto : Crypto
  time : Time
  rtc : Rtc
  hw : Heart
  /-- Items in the coalescing buffer, in the order of their first change (R459). -/
  dirty : List HwDirty
  tally : Tally
  /-- Events raised before step 8 (R444), with whether others were replaced. -/
  early : List (Event × Bool)
  mbox : Tbl MboxSt
  /-- Datagrams that wait for the end of a forwarding pause (R22). -/
  held : List Held
  /-- The last octets M0 returned: the STATUS octet, or the READ's length and message (Table 15.3). -/
  m0Out : Octets
  queues : Queues
  /-- Messages that left the part, by mailbox, before its last restart or zeroisation by a command (R436, R438). -/
  parting : List (Nat × Msg)
  fe : PerFe FeSt
  lanes : Tbl LaneSt
  domA : LaneDomSt
  domB : LaneDomSt
  dec : Decoders
  mac : MacSt
  table : TableSt
  wake : WakeSt
  canopy : CanopySt
  back : BackSt
  isl : IslandSt
  /-- Commands that wait, first in, first out. -/
  pending : List Instr
  deriving DecidableEq, Repr

/-- Reasons a step stops with a fault. -/
inductive Fault where
  /-- No meaning raises it: the manual leaves the part in some defined state after every command.  Safe. -/
  | none
  deriving DecidableEq, Repr

/-- Reasons a step is refused. -/
inductive Refusal where
  /-- The command has no meaning in the model yet; raised by the arms of `exec` only.  Safe. -/
  | notModelled (mnemonic : String)
  deriving DecidableEq, Repr

/-- The machine before its first start: RESET_N low, fuses in PROVISION (R25), every register at the value the manual or the log
names. -/
def State.reset : State :=
  { clk := 0, rnd := 0, id := {}, life := {}, pins := {}, flash := [], crypto := {}, time := {}, rtc := {}, hw := {}, dirty := [],
    tally := [], early := [], mbox := [], held := [], m0Out := [], queues := {}, parting := [], fe := { sa := {}, sb := {}, h := {} }, lanes := [], domA := {}, domB := {}, dec := {},
    mac := {}, table := {}, wake := {}, canopy := {}, back := {}, isl := {}, pending := [] }

end Sys2Proof.Machine
end

