-- ==== Sys2Proof/Machine/Ops.lean ====
section
/-! DEFINITION. Named operations over the state: tables, time, Tally, the boot flash, the applied image, free values. -/

namespace Sys2Proof.Machine

/-! ## Sparse tables -/

def Tbl.get {α : Type} : Tbl α → Nat → Option α
  | [], _ => none
  | (k, v) :: t, i => if i = k then some v else Tbl.get t i

def Tbl.getD {α : Type} (t : Tbl α) (i : Nat) (d : α) : α := (Tbl.get t i).getD d

def Tbl.set {α : Type} : Tbl α → Nat → α → Tbl α
  | [], i, a => [(i, a)]
  | (k, v) :: t, i, a =>
    if i < k then (i, a) :: (k, v) :: t else if i = k then (i, a) :: t else (k, v) :: Tbl.set t i a

def Tbl.erase {α : Type} (t : Tbl α) (i : Nat) : Tbl α := t.filter fun p => p.1 != i

/-- A table of counts in which a count of 0 is not listed. -/
def Tbl.setNat (t : Tbl Nat) (i n : Nat) : Tbl Nat := if n = 0 then Tbl.erase t i else Tbl.set t i n

def PerFe.get {α : Type} (p : PerFe α) : Fe → α
  | .sa => p.sa
  | .sb => p.sb
  | .h => p.h

def PerFe.set {α : Type} (p : PerFe α) (f : Fe) (a : α) : PerFe α :=
  match f with
  | .sa => { p with sa := a }
  | .sb => { p with sb := a }
  | .h => { p with h := a }

def PerPort.get {α : Type} (p : PerPort α) : Port → α
  | .p0 => p.p0
  | .p1 => p.p1

def PerPort.set {α : Type} (p : PerPort α) (f : Port) (a : α) : PerPort α :=
  match f with
  | .p0 => { p with p0 := a }
  | .p1 => { p with p1 := a }

/-- Front-end codes of Table 3.1. -/
def feCode : Fe → Nat
  | .sa => 0
  | .sb => 1
  | .h => 2

def feOf : Nat → Option Fe
  | 0 => some .sa
  | 1 => some .sb
  | 2 => some .h
  | _ => none

def portCode : Port → Nat
  | .p0 => 0
  | .p1 => 1

/-- The three front ends in the order of their codes. -/
def feAll : List Fe := [.sa, .sb, .h]

/-- Ceiling division. -/
def ceilDiv (a b : Nat) : Nat := (a + b - 1) / b

/-! ## Time -/

/-- Network time in whole ns (R173). -/
def Time.toNs (t : Time) : Nat := t.sec.toNat * 1000000000 + t.ns.toNat

def State.netNs (s : State) : Nat := s.time.toNs

/-- The increment in units of 2^−32 ns per tick (R174). -/
def Time.inc (t : Time) : Nat := t.incNs.toNat * 4294967296 + t.incFrac.toNat

/-- A time word of `ns` whole nanoseconds and fraction `frac`. -/
def Time.ofNs (t : Time) (ns frac : Nat) : Time :=
  { t with sec := BitVec.ofNat 64 (ns / 1000000000), ns := BitVec.ofNat 30 (ns % 1000000000), frac := BitVec.ofNat 32 frac }

/-- `n` ticks of the master counter at one increment: the closed form of the tick of R174; a passage of ns through 0 is told (R183). -/
def Time.run (t : Time) (n : Nat) : Time :=
  let f := t.frac.toNat + n * t.inc
  let sec := 1000000000 * 4294967296
  let now := t.toNs * 4294967296 + f
  let since := if (t.toNs * 4294967296 + t.frac.toNat) / sec < now / sec then some (now % sec / t.inc) else t.sincePass.map (· + n)
  { t.ofNs (t.toNs + f / 4294967296) (f % 4294967296) with sincePass := since }

/-- Ticks from `clk` to the next Meridian bus update after it (R181): updates stand at multiples of 1 024 ticks. -/
def nextMeridian (clk : Nat) : Nat := (clk / 1024 + 1) * 1024

/-- The time clock runs `n` ticks from `clk`: an increment write takes effect at its Meridian bus update (R175). -/
def Time.advance (t : Time) (clk n : Nat) : Time :=
  match t.pendInc with
  | none => t.run n
  | some (k, i, f) =>
    if k ≤ clk + n then
      let u := t.run (k - clk)
      { u with incNs := i, incFrac := f, pendInc := none }.run (clk + n - max k clk)
    else t.run n

/-- `dt` ticks pass. -/
def State.advance (s : State) (dt : Nat) : State :=
  { s with clk := s.clk + dt, time := s.time.advance s.clk dt }

/-- Ticks of 4 ns in so many µs, ms, s. -/
def usTicks (n : Nat) : Nat := n * 250
def msTicks (n : Nat) : Nat := n * 250000
def secTicks (n : Nat) : Nat := n * 250000000

/-- Crystal cycles since the last second boundary, and the prescaler (R186): it starts at `presc0`, or is held at 0 for −presc0 cycles,
and stays below 32 768 until the boundary comes. -/
def Rtc.prescaler (r : Rtc) (clk : Nat) : Nat :=
  if r.stopped then r.frozen
  else min 32767 ((r.presc0 + ((clk - r.boundary) * 32768 / 250000000 : Nat)).toNat)

/-- RTC_COUNT.frac (R186). -/
def State.rtcFrac (s : State) : Nat := 2 * s.rtc.prescaler s.clk

/-! ## Free values -/

/-- The next value of the DRBG (R343), and the state after it. -/
def State.draw (s : State) : BitVec 256 × State :=
  (Config.drbg s.rnd, { s with rnd := s.rnd + 1, crypto := { s.crypto with drbgReqs := s.crypto.drbgReqs + 1 } })

/-! ## The variant (Table 0.1) -/

def State.full (s : State) : Bool := s.id.variant = .epb7248

def State.partCode (s : State) : Nat := if s.full then 0x7248 else 0x7224

/-- Front ends the variant has. -/
def State.fePresent (s : State) (f : Fe) : Bool := s.full || f != .sb

/-- Lanes the variant has. -/
def State.laneCount (s : State) : Nat := if s.full then 48 else 24

/-! ## Tally -/

def Tally.add (t : Tally) (k : CtrKey) (n : BitVec 64) : Tally :=
  match t with
  | [] => [{ key := k, value := n }]
  | v :: r => if v.key = k then { v with value := v.value + n } :: r else v :: Tally.add r k n

def Tally.read (t : Tally) (k : CtrKey) : BitVec 64 :=
  match t with
  | [] => 0
  | v :: r => if v.key = k then v.value else Tally.read r k

/-- Counts once. -/
def State.count (s : State) (c : Ctr) (sc : Scope) : State :=
  { s with tally := Tally.add s.tally { ctr := c, scope := sc } 1 }

def State.countN (s : State) (c : Ctr) (sc : Scope) (n : Nat) : State :=
  { s with tally := Tally.add s.tally { ctr := c, scope := sc } (BitVec.ofNat 64 n) }

/-- The value of a counter. -/
def State.counter (s : State) (c : Ctr) (sc : Scope) : BitVec 64 := Tally.read s.tally { ctr := c, scope := sc }

/-- Counts for a world and device-wide (for the counters Tables 9.6, 12.14 and 6.x give both scopes). -/
def State.countBoth (s : State) (c : Ctr) (w : Nat) : State := (s.count c (.world w)).count c .device

/-! ## The boot flash (R35) -/

/-- An octet of the flash: 0xFF where nothing has been programmed since the erase. -/
def flashByte : List Host.Cell → Nat → Byte
  | [], _ => 0xFF
  | (k, v) :: t, a => if a = k then v else if a < k then 0xFF else flashByte t a

/-- Octets `a` to `a + n − 1`. -/
def flashRead : Nat → List Host.Cell → Nat → Octets
  | 0, _, _ => []
  | n + 1, [], a => 0xFF :: flashRead n [] (a + 1)
  | n + 1, (k, v) :: t, a => if a = k then v :: flashRead n t (a + 1) else 0xFF :: flashRead n ((k, v) :: t) (a + 1)

def flashRange (m : List Host.Cell) (a n : Nat) : Octets := flashRead n (m.filter fun c => a ≤ c.1) a

/-- Writes the octet `b` at `a`; 0xFF is not listed. -/
def flashPut : List Host.Cell → Nat → Byte → List Host.Cell
  | [], a, b => if b = 0xFF then [] else [(a, b)]
  | (k, v) :: t, a, b =>
    if a < k then (if b = 0xFF then (k, v) :: t else (a, b) :: (k, v) :: t)
    else if a = k then (if b = 0xFF then t else (a, b) :: t)
    else (k, v) :: flashPut t a b

/-- Programs octets as NOR flash does: a bit can only go from 1 to 0 (R439). -/
def flashProgram (m : List Host.Cell) (a : Nat) : Octets → List Host.Cell
  | [] => m
  | b :: t => flashProgram (flashPut m a (flashByte m a &&& b)) (a + 1) t

/-- Erases octets `a` to `a + n − 1`. -/
def flashErase (m : List Host.Cell) (a n : Nat) : List Host.Cell := m.filter fun c => !(decide (a ≤ c.1) && decide (c.1 < a + n))

/-- The canonical form of the flash: addresses strictly rising, no octet 0xFF listed. -/
def flashWf : List Host.Cell → Bool
  | [] => true
  | [c] => c.2 != 0xFF
  | c :: d :: t => c.2 != 0xFF && decide (c.1 < d.1) && flashWf (d :: t)

def fwSlotBase (i : Nat) : Nat := if i = 0 then 0x20000 else 0x820000
def cfgSlotBase (i : Nat) : Nat := if i = 0 then 0x1020000 else 0x1420000
def fwSlotSize : Nat := 0x800000
def cfgSlotSize : Nat := 0x400000

/-! ## Fields of the applied image -/

def recFind (l : List CfgRec) (typ inst : Nat) : Option Octets :=
  match l with
  | [] => none
  | r :: t => if r.typ = typ ∧ r.inst = inst then some r.payload else recFind t typ inst

def State.recs (s : State) : List CfgRec :=
  match s.life.image with
  | some i => i.recs
  | none => []

/-- The payload of a record of the applied image. -/
def State.cfg (s : State) (typ inst : Nat) : Option Octets := recFind s.recs typ inst

/-- A little-endian field of a record of the applied image, or its default where the record is absent. -/
def State.cfgN (s : State) (typ inst off len dflt : Nat) : Nat :=
  match s.cfg typ inst with
  | some p => leField p off len
  | none => dflt

/-- A signed field likewise. -/
def State.cfgI (s : State) (typ inst off len : Nat) (dflt : Int) : Int :=
  match s.cfg typ inst with
  | some p => signed (8 * len) (leField p off len)
  | none => dflt

/-- Octets of a record in network order. -/
def State.cfgO (s : State) (typ inst off len : Nat) : Octets :=
  match s.cfg typ inst with
  | some p => sliceOct p off len
  | none => []

def bitOf (v i : Nat) : Bool := (v >>> i) % 2 = 1

/-- A world has a WORLD record (R46, R451). -/
def State.hasWorld (s : State) (w : Nat) : Bool := (s.cfg 0x11 w).isSome

/-- A front end has a RADIO_FE record. -/
def State.hasFe (s : State) (f : Fe) : Bool := (s.cfg 0x02 (feCode f)).isSome

def State.hasMbox (s : State) (m : Nat) : Bool := (s.cfg 0x12 m).isSome

/-- The world mailbox m is bound to (R421). -/
def State.mboxWorld (s : State) (m : Nat) : Nat := if m = 0 then 0 else (s.cfgN 0x12 m 0 1 0) % 8

/-- The part runs with an image applied and its queues in DRAM (R535). -/
def State.operating (s : State) : Bool := s.life.mode = .operate

/-- A forwarding pause goes on; one that an activation has only begun to prepare lies ahead (R20, R485). -/
def State.inPause (s : State) : Bool :=
  match s.life.pause with
  | some k => decide (k ≤ s.clk)
  | none => false

/-- Firmware on the M-cores acts: not before step 8, not in Stump, not in a forwarding pause (R20). -/
def State.firmware (s : State) : Bool := s.operating && !s.inPause

/-! ## Events (R444, R445) -/

def eventNow (s : State) (code : Nat) (world : Option Nat) (data : Octets) : Event :=
  { code := BitVec.ofNat 16 code, world := world, sec := s.time.sec, ns := s.time.ns, data := padTo 20 (data.take 20) }

/-- Enters an event in one mailbox's ring of 256: a full ring loses its oldest (R446). -/
def MboxSt.enter (b : MboxSt) (e : Event) (lost : Bool) : MboxSt × Bool :=
  let r : RingEvent := { seq := b.evSeq, lost := lost, sent := false, ev := e }
  if b.ring.length ≥ 256 then
    ({ b with ring := b.ring.drop 1 ++ [r], evSeq := b.evSeq + 1, lostFlag := true }, true)
  else ({ b with ring := b.ring ++ [r], evSeq := b.evSeq + 1 }, false)

/-- The mailboxes an event is routed to (R444). -/
def eventGoes (s : State) (e : Event) (m : Nat) : Bool :=
  let b := s.mbox.getD m {}
  b.isOpen && (b.world = 0 || e.world = some b.world)

def State.deliverTo (s : State) (e : Event) (lost : Bool) (m : Nat) : State :=
  if eventGoes s e m then
    let r := (s.mbox.getD m {}).enter e lost
    let s' := { s with mbox := s.mbox.set m r.1 }
    if r.2 then s'.count .eventLost (.mbox m) else s'
  else s

def State.deliver (s : State) (e : Event) (lost : Bool) : State :=
  (List.range 8).foldl (fun s m => s.deliverTo e lost m) s

/-- Mailboxes stand open: events enter the rings. -/
def State.mboxesOpen (s : State) : Bool := s.mbox.any fun p => p.2.isOpen

/-- Holds an event until the mailboxes open: a store of 16 before step 8, whose newest a further event replaces (R444). -/
def State.hold (s : State) (e : Event) : State :=
  if s.life.cpuUp || s.early.length < 16 then { s with early := s.early ++ [(e, false)] }
  else { s with early := s.early.take 15 ++ [(e, true)] }.count .eventLostEarly .device

/-- Raises an event. -/
def State.raise (s : State) (code : Nat) (world : Option Nat) (data : Octets) : State :=
  let e := eventNow s code world data
  if s.mboxesOpen then s.deliver e false else s.hold e

/-- The held events enter the rings in the order raised. -/
def State.releaseEarly (s : State) : State :=
  s.early.foldl (fun s p => s.deliver p.1 p.2) { s with early := [] }

/-- Marks an item as changed for the coalescing buffer, once (R459). -/
def State.touch (s : State) (d : HwDirty) : State :=
  if s.dirty.contains d then s else { s with dirty := s.dirty ++ [d] }

end Sys2Proof.Machine
end

