-- ==== Sys2Proof/Machine/Chains.lean ====
section
/-! DEFINITION. Which cells a packet takes, how its octets lie in words and cells, the DRAM block, and what stands in staging
(chapter 9: R231, R232, R235, R239, R250, R251). -/

namespace Sys2Proof.Machine

/-- The part keeps no cell in DRAM (R535): PROVISION, the no-configuration condition, a training failure. -/
def State.noDram (s : State) : Bool := s.life.mode != .operate

/-- Cells of the pool (R243, R535). -/
def State.poolCells (s : State) : Nat := if s.noDram then 2048 else s.cfgN 0x0C 0 4 4 1048576

def State.order (s : State) (k : Nat) : List Packet := s.queues.orders.getD k []

def State.setOrder (s : State) (k : Nat) (l : List Packet) : State :=
  { s with queues := { s.queues with
    orders := if l.isEmpty then Tbl.erase s.queues.orders k else s.queues.orders.set k l } }

/-- Orders of a queue (R234). -/
def queueOrders (q : Nat) : List Nat := if q ≤ 319 then [4 * q, 4 * q + 1, 4 * q + 2] else [4 * q]

/-! ## Cells in use -/

/-- Cells of what a front end's MAC holds. -/
def FeSt.cells (x : FeSt) : List Nat :=
  (x.retry.flatMap fun r => r.chain) ++
    (match x.attempt.map fun a => a.body with
      | some (.frame r) => r.chain
      | _ => []) ++
    (x.ackWait.map fun w => w.retry.chain).getD []

/-- Cells of what a lane receives or has received. -/
def LaneSt.cells (x : LaneSt) : List Nat :=
  (x.done.flatMap fun p => p.2.chain) ++
    (match x.phase with
      | .frame _ h => h.chain
      | _ => [])

/-- Cells reached from a packet or under construction (R254). -/
def State.cellsHeld (s : State) : List Nat :=
  (s.queues.orders.flatMap fun p => p.2.flatMap fun x => x.chain) ++
  (s.queues.reasm.flatMap fun x => x.frags.flatMap fun p => p.2.2.chain) ++
  (s.wake.flows.flatMap fun w => w.frames.flatMap fun p => p.2.chain) ++
  (s.fe.sa.cells ++ s.fe.sb.cells ++ s.fe.h.cells) ++
  (s.lanes.flatMap fun p => p.2.cells) ++
  (s.back.port.p0.rxChain ++ s.back.port.p1.rxChain) ++
  (s.back.sending.flatMap fun x => (x.packet.map fun p => p.chain).getD []) ++
  (s.held.flatMap fun h => h.chain) ++ (s.queues.strays.flatMap fun x => x.2.2)

/-- The next `n` cells from `c` on that `taken` leaves free, the pool's first cell following its last; `fuel` bounds the search. -/
def freeCells (pool : Nat) (taken : List Nat) : Nat → Nat → Nat → List Nat
  | _, _, 0 => []
  | 0, _, _ => []
  | fuel + 1, c, n + 1 =>
    if taken.contains (c % pool) then freeCells pool taken fuel (c + 1) (n + 1)
    else c % pool :: freeCells pool taken fuel (c + 1) n

/-- `n` cells of the pool for a packet that already has those of `keep`: the first of these stay, and free ones follow (R236, R245). -/
def State.drawCells (s : State) (n : Nat) (keep : List Nat) : List Nat :=
  let old := keep.take n
  let taken := old ++ s.cellsHeld ++ s.queues.retired
  old ++ freeCells s.poolCells taken (taken.length + n) (Config.cellPick s.queues.picks) (n - old.length)

def State.picked (s : State) : State := { s with queues := { s.queues with picks := s.queues.picks + 1 } }

/-! ## Words, cells and blocks (R231, R232, R250, R251) -/

/-- Octets of a packet that the model holds as octets: a received frame behind its descriptor, a frame as protected. -/
def Content.octets : Content → Option Octets
  | .rx d f => some (toLe 16 d.word.toNat ++ f.psdu.take d.length)
  | .down d => some d.octets
  | _ => none

/-- Word i of a packet: octet j stands in word j div 16, its bit 0 in bit 8 × (j mod 16); the last word is completed with zero octets. -/
def packetWord (o : Octets) (i : Nat) : Word := BitVec.ofNat 128 (leField o (16 * i) 16)

/-- The words of the cell at position k of a packet: those the packet has of its eight. -/
def cellWords (o : Octets) (k : Nat) : List Word := (List.range (min 8 (ceilDiv o.length 16 - 8 * k))).map fun i => packetWord o (8 * k + i)

/-- A word as it is written: its check bits beside it. -/
def storedWord (w : Word) : BitVec 137 := Config.checkBits w ++ w

/-- A side entry (Table 9.5): check bits of the words written, the next cell of the packet, whether this is its last, their check. -/
structure SideEntry where
  check : List (BitVec 9)
  next : BitVec 20
  last : Bool
  nextCheck : BitVec 6
  deriving DecidableEq, Repr

def sideOf (words : List Word) (next : Option Nat) : SideEntry :=
  let n : BitVec 20 := BitVec.ofNat 20 (next.getD 0)
  let l := next.isNone
  { check := words.map Config.checkBits, next := n, last := l, nextCheck := Config.sideCheck (BitVec.ofBool l ++ n) }

/-- The cell at position k of a packet as its DRAM home holds it: its words and its side entry. -/
def Packet.home (p : Packet) (k : Nat) : Option (List Word × SideEntry) :=
  p.content.octets.map fun o => (cellWords o k, sideOf (cellWords o k) p.chain[k + 1]?)

/-- The block of a cell of the pool and its slot there (R250), and the blocks the pool takes. -/
def cellBlock (c : Nat) : Nat × Nat := (c / 7, c % 7)
def State.poolBlocks (s : State) : Nat := ceilDiv s.poolCells 7

/-- The side entry's 16 octets (Table 9.5): check bits of word i from bit 9 × i, next from bit 72, last bit 92, next_check from bit 93. -/
def SideEntry.octets (e : SideEntry) : Octets :=
  toLe 16 (((List.range e.check.length).zip e.check).foldl (fun n p => n + p.2.toNat * 2 ^ (9 * p.1))
    (e.next.toNat * 2 ^ 72 + e.last.toNat * 2 ^ 92 + e.nextCheck.toNat * 2 ^ 93))

/-! ## Queue ends (R239) -/

/-- Packets of a queue in commit order, those of one tick by front end. -/
def mergeCommit : Nat → List Packet → List Packet → List Packet
  | 0, l, m => l ++ m
  | _, [], m => m
  | _, l, [] => l
  | n + 1, a :: l, b :: m => if b.commit < a.commit then b :: mergeCommit n (a :: l) m else a :: mergeCommit n l (b :: m)

def State.queuePackets (s : State) (q : Nat) : List Packet :=
  (queueOrders q).foldl (fun l k => mergeCommit (l.length + (s.order k).length) l (s.order k)) []

/-- Cells of a queue that stand in staging: its first two and its last two, or all of them where the part keeps none in DRAM (R239, R535). -/
def State.onChip (s : State) (q : Nat) : List Nat :=
  let l := (s.queuePackets q).flatMap fun p => p.chain
  if s.noDram then l else l.take 2 ++ (l.drop 2).drop (l.length - 4)

/-- Every other committed cell of a queue is written to its DRAM home (R239). -/
def State.spill (s : State) (q : Nat) : State :=
  let cells := (s.queuePackets q).flatMap fun p => p.chain
  let gone := if s.noDram then [] else cells.filter fun c => !(s.onChip q).contains c && !s.queues.homed.contains c
  { s with queues := { s.queues with homed := s.queues.homed ++ gone } }

/-! ## Construction staging (R235, Table 9.2) -/

/-- Staging cells for construction, for the queue ends, and those Sawmill and the M-cores share. -/
def constructionCells : Nat := 2048
def endCells : Nat := 2048
def sharedStaging : Nat := 400

def stagingReserve : Producer → Nat
  | .lane _ => 17
  | .port _ => 32
  | .sawmill => 256
  | .mcore => 128

/-- Staging cells a producer's packets hold: those under construction, and those not yet freed. -/
def State.staged (s : State) (w : Producer) : Nat :=
  let left := ((s.queues.leaving.filter fun x => x.who == w && decide (s.clk < x.freeClk)).map fun x => x.cells).foldl (· + ·) 0
  left + match w with
    | .lane l => ((s.lanes.get l).map fun x => match x.phase with
        | .frame _ h => h.cells
        | _ => 0).getD 0
    | .port p => if p = 0 then s.back.port.p0.rxCells else s.back.port.p1.rxCells
    | .sawmill | .mcore => 0

/-- Of the shared staging cells, those in use beyond the reservations of Sawmill and the M-cores. -/
def State.stagingShared (s : State) : Nat := (s.staged .sawmill - 256) + (s.staged .mcore - 512)

/-- Cells a producer's next packet finds in staging.  Where Sawmill or an M-core finds too few, the cells already complete go to their homes and
the rest waits for freed ones. -/
def State.stagingFree (s : State) : Producer → Nat
  | .sawmill => (256 - s.staged .sawmill) + (sharedStaging - s.stagingShared)
  | .mcore => (512 - s.staged .mcore) + (sharedStaging - s.stagingShared)
  | w => stagingReserve w - s.staged w

/-- The producer of a packet (R234), where it is built in construction staging. -/
def Content.producer : Content → Option Producer
  | .rx d _ => some (.lane d.lane)
  | .eth p _ _ => some (.port p)
  | .down _ => some .sawmill
  | .up .. | .message .. | .group .. => some .mcore
  | .request _ => none

/-- A packet comes out of construction staging now, and was not moved without copying (R245). -/
def builtNow (c : Content) (keep : List Nat) : Bool :=
  match c.producer with
  | some (.lane _) | some (.port _) => true
  | _ => keep.isEmpty

/-- A packet of n cells leaves construction: its staging cells are free within 4 µs (R235). -/
def State.leaveStaging (s : State) (w : Producer) (n : Nat) : State :=
  { s with queues := { s.queues with
    leaving := (s.queues.leaving.filter fun x => decide (s.clk < x.freeClk)) ++ [{ who := w, cells := n, freeClk := s.clk + 1000 }] } }

/-- Cells of a new packet that construction staging does not hold: Sawmill and the M-cores have written them to their homes (R235). -/
def State.overflow (s : State) (c : Content) (chain keep : List Nat) : List Nat :=
  if s.noDram || !builtNow c keep then []
  else match c.producer with
    | some .sawmill => chain.drop (s.stagingFree .sawmill)
    | some .mcore => chain.drop (s.stagingFree .mcore)
    | _ => []

/-- The packet made of a content whose cells are charged; it keeps the cells of `keep`. -/
def State.newPacket (s : State) (acct cells : Nat) (c : Content) (keep : List Nat) : Packet :=
  { acct := acct, cells := cells, commit := s.netNs, content := c, chain := s.drawCells cells keep }

/-- That packet leaves construction staging, and its cells begin anew. -/
def State.unstage (s : State) (p : Packet) (keep : List Nat) : State :=
  let spare := s.overflow p.content p.chain keep
  let s := match p.content.producer with
    | some w => if builtNow p.content keep then s.leaveStaging w (p.cells - spare.length) else s
    | none => s
  { s with queues := { s.queues with picks := s.queues.picks + 1, homed := (s.queues.homed.filter fun c => !p.chain.contains c || keep.contains c) ++ spare } }

end Sys2Proof.Machine
end

