-- ==== Sys2Proof/Machine/Cells.lean ====
section
/-! DEFINITION. Cells, accounts and queues (chapter 9): the grant test of R244, commits, takes, moves and expiry. -/

namespace Sys2Proof.Machine

/-- The account a packet of queue q is charged to; `w` is the world of the frame for Q0 to Q319 (R243). -/
def accountOf (q w : Nat) : Nat := if q ≤ 255 then w else if q ≤ 319 then 8 + w else 16 + (q - 320)

/-- The queue of an account from 16 on. -/
def queueOfAcct (a : Nat) : Nat := 320 + (a - 16)

/-- The world of an account (R243). -/
def State.acctWorld (s : State) (a : Nat) : Option Nat :=
  if a < 16 then some (a % 8)
  else
    let q := queueOfAcct a
    if q ≤ 383 then some ((q - 320) / 8)
    else if q ≤ 387 then none
    else if q ≤ 403 then some (s.mbox.getD ((q - 388) % 8) {}).world
    else if q ≤ 447 then none
    else some ((q - 448) / 8)

/-- Reservation minima of Table 9.3; the 64 cells of WAKE[w] + LISTEN[w] stand on WAKE[w] (log entry 20). -/
def resMinimum (l : List CfgRec) (a : Nat) : Nat :=
  if a < 8 then (if a ≥ 1 ∧ (recFind l 0x11 a).isSome then 64 else 0)
  else if a < 16 then 0
  else
    let q := queueOfAcct a
    if q ≤ 383 then (if (recFind l 0x11 ((q - 320) / 8)).isSome then 17 else 0)
    else if q ≤ 386 then (if (recFind l 0x02 (q - 384)).isSome then 816 else 0)
    else if q = 387 then 256
    else if q ≤ 403 then (if (recFind l 0x12 ((q - 388) % 8)).isSome then 16 else 0)
    else if q ≤ 447 then 64
    else 0

/-- Accounts without DRAM (Table 9.10): reservation and limit. -/
def State.noDramAcct (s : State) (a : Nat) : Nat × Nat :=
  if a < 16 then (0, 0)
  else
    let q := queueOfAcct a
    if q = 387 then (256, 2048)
    else if q = 388 ∨ q = 396 then (16, 2048)
    else if q = 389 ∨ q = 397 then (if (s.mbox.getD 1 {}).isOpen then (16, 2048) else (0, 0))
    else if 404 ≤ q ∧ q ≤ 447 then (0, 2048)
    else (0, 0)

def State.acctRes (s : State) (a : Nat) : Nat :=
  if s.noDram then (s.noDramAcct a).1
  else match s.cfg 0x0D 0 with
    | some p => leField p (32 + 12 * a) 4
    | none => resMinimum s.recs a

def State.acctLim (s : State) (a : Nat) : Nat :=
  if s.noDram then (s.noDramAcct a).2
  else match s.cfg 0x0D 0 with
    | some p => leField p (36 + 12 * a) 4
    | none => if 80 ≤ a ∧ a ≤ 82 then s.poolCells else s.poolCells / 8

def State.acctLife (s : State) (a : Nat) : Nat :=
  if s.noDram then 0
  else match s.cfg 0x0D 0 with
    | some p => leField p (40 + 12 * a) 4
    | none => 0

/-- The world's cap on shared cells (R244): none applies without DRAM (R535). -/
def State.sharedCap (s : State) (w : Nat) : Nat :=
  if s.noDram then s.poolCells
  else match s.cfg 0x0D 0 with
    | some p => leField p (4 * w) 4
    | none => s.poolCells / 4

def State.resSum (s : State) : Nat := (List.range 208).foldl (fun n a => n + s.acctRes a) 0

/-- The shared pool (R243). -/
def State.sharedSize (s : State) : Nat := s.poolCells - s.queues.retired.length - s.resSum

/-- Cells in use beyond a reservation. -/
def excess (u res : Nat) : Nat := u - res

def State.used (s : State) (a : Nat) : Nat := s.queues.used.getD a 0

/-- The grant of n cells to account a, whole or not at all (R244). -/
def State.grant (s : State) (a n : Nat) : Option State :=
  let u := s.used a
  let r := s.acctRes a
  let d := excess (u + n) r - excess u r
  let ws := match s.acctWorld a with
    | some w => s.queues.worldShared.getD w 0
    | none => 0
  let beyond := match s.acctWorld a with
    | some w => decide (ws + d > s.sharedCap w)
    | none => false
  if u + n > s.acctLim a || s.queues.sharedUsed + d > s.sharedSize || beyond then none
  else
    let wsT := match s.acctWorld a with
      | some w => s.queues.worldShared.setNat w (ws + d)
      | none => s.queues.worldShared
    some { s with queues := { s.queues with
      used := s.queues.used.setNat a (u + n), sharedUsed := s.queues.sharedUsed + d, worldShared := wsT } }

/-- Releases n cells of account a. -/
def State.release (s : State) (a n : Nat) : State :=
  let u := s.used a
  let r := s.acctRes a
  let d := excess u r - excess (u - n) r
  let wsT := match s.acctWorld a with
    | some w => s.queues.worldShared.setNat w (s.queues.worldShared.getD w 0 - d)
    | none => s.queues.worldShared
  { s with queues := { s.queues with
    used := s.queues.used.setNat a (u - n), sharedUsed := s.queues.sharedUsed - d, worldShared := wsT } }

/-- Cells of a packet of so many octets (R232). -/
def cellsOf (octets : Nat) : Nat := max 1 (ceilDiv octets 128)

/-- Key of an order: Q0 to Q319 keep one per front end, the others one (R234). -/
def orderKey (q : Nat) (f : Nat) : Nat := if q ≤ 319 then 4 * q + f else 4 * q

/-- A cell becomes free: one of a marked block is retired, unless R253 withholds it. -/
def State.cellFreed (s : State) (cell : Nat) : State :=
  let n := s.queues.retired.length + 1
  if !s.queues.marked.contains (cell / 7) || s.queues.retired.contains cell || decide (s.poolCells ≤ cell) then s
  else if s.poolCells / 100 < n || s.poolCells < n + s.resSum then
    if s.queues.degradedRaised then s
    else { s with queues := { s.queues with degradedRaised := true } }.raise 0x0902 none (toBe 2 s.queues.retired.length)
  else { s with queues := { s.queues with retired := s.queues.retired ++ [cell] } }.count .cellRetired .device

/-- Releases a packet's cells: n of account a, those of its chain (R242, R253). -/
def State.releaseChain (s : State) (a n : Nat) (chain : List Nat) : State := chain.foldl State.cellFreed (s.release a n)

/-- Appends a packet whose cells are already charged to the tail of its order (R237). -/
def State.commitTo (s : State) (k : Nat) (acct cells : Nat) (c : Content) (keep : List Nat := []) : State :=
  let p := s.newPacket acct cells c keep
  ((s.unstage p keep).setOrder k (s.order k ++ [p])).spill (k / 4)

/-- Asks for a packet's cells and commits it; `none` where the grant is refused.  No packet has more than 1 024 cells (R232). -/
def State.post (s : State) (q f w octets : Nat) (c : Content) (keep : List Nat := []) : Option State :=
  let a := accountOf q w
  let n := cellsOf octets
  if 1024 < n then none
  else match s.grant a n with
    | none => none
    | some t => some (t.commitTo (orderKey q f) a n c keep)

/-- A packet has expired (R248). -/
def State.expired (s : State) (p : Packet) : Bool :=
  let l := s.acctLife p.acct
  l != 0 && decide (s.netNs > p.commit + l * 1000000)

/-- Counts an expiry in the account's world, and device-wide for a device account (R248). -/
def State.countExpired (s : State) (a : Nat) : State :=
  match s.acctWorld a with
  | some w => s.count .qExpired (.world w)
  | none => s.count .qExpired .device

/-- Discards expired packets from the head of an order, at most `n`. -/
def State.expireHead (s : State) (k : Nat) : Nat → State
  | 0 => s
  | n + 1 =>
    match s.order k with
    | p :: t =>
      if s.expired p then (((s.setOrder k t).releaseChain p.acct p.cells p.chain).countExpired p.acct).expireHead k n
      else s
    | [] => s

/-- Takes the head of an order after its expired packets are discarded (R241, R248): the packet stays charged. -/
def State.take (s : State) (k : Nat) : Option Packet × State :=
  let s := s.expireHead k (s.order k).length
  match s.order k with
  | p :: t => (some p, s.setOrder k t)
  | [] => (none, s)

/-- Moves a packet's charge between accounts: cells released and requested in one step (R245). -/
def State.moveCharge (s : State) (src srcCells dst dstCells : Nat) : Option State :=
  (s.release src srcCells).grant dst dstCells

end Sys2Proof.Machine
end

