-- ==== Sys2Proof/Machine/Keys.lean ====
section
/-! DEFINITION. Key slots, the key hierarchy, chaining contexts and the wrapping of what Heartwood keeps (chapters 12 and 13). -/

namespace Sys2Proof.Machine

/-! ## Slots -/

def State.slot (s : State) (i : Nat) : KeySlot := s.crypto.slots.getD i {}

/-- The octets of a key, most significant first. -/
def KeySlot.octets (k : KeySlot) : List Nat := beOfNat (if k.len256 then 32 else 16) k.key.toNat

def keyOf (l : List Nat) : Key := BitVec.ofNat 256 (natOfBe l)

/-- The world a slot belongs to by Table 12.3, for the slots of world keys. -/
def slotWorld (i : Nat) : Option Nat :=
  if 32 ≤ i ∧ i ≤ 39 then some (i - 32) else if 40 ≤ i ∧ i ≤ 167 then some ((i - 40) / 16) else none

/-- Jobs bound to slot i become stale at an erase (R335). -/
def staleJob (i clk : Nat) (j : CJob) : CJob := if j.slot = i ∧ j.stale = none then { j with stale := some clk } else j

/-- fb_valid is cleared in every slot that names slot i (R337). -/
def dropFallback (i : Nat) (k : KeySlot) : KeySlot := if k.fallback.toNat = i then { k with fbValid := false } else k

/-- An erase taking effect at this tick (R335): gen advances, the key is overwritten, the slot ends EMPTY; jobs bound to it are stale. -/
def State.eraseSlot (s : State) (i : Nat) : State :=
  let k := s.slot i
  let e : KeySlot := { gen := k.gen + 1 }
  { s with crypto := { s.crypto with
      slots := Tbl.set (s.crypto.slots.map fun p => (p.1, dropFallback i p.2)) i e
      unitJob := s.crypto.unitJob.map fun p => (p.1, staleJob i s.clk p.2)
      waiting := s.crypto.waiting.map (staleJob i s.clk) } }

/-- A load (R334): into a READY slot, an erase first; gen advances and the slot becomes READY. -/
def State.loadSlot (s : State) (i : Nat) (k : KeySlot) : State :=
  let s := if (s.slot i).state = .ready then s.eraseSlot i else s
  { s with crypto := { s.crypto with slots := s.crypto.slots.set i { k with gen := (s.slot i).gen + 1, state := .ready } } }

def State.eraseSlots (s : State) (l : List Nat) : State := l.foldl State.eraseSlot s

/-! ## The node-key cache (R368) -/

def cacheSlots : List Nat := (List.range 88).map fun i => 168 + i

/-- The cache slot that holds node i's link key. -/
def State.cachedSlot (s : State) (i : Nat) : Option Nat :=
  cacheSlots.find? fun k => s.crypto.cacheNode.get k == some i && (s.slot k).state == .ready

/-- Erases a node's cache slot (R335, R380). -/
def State.dropCached (s : State) (i : Nat) : State :=
  match s.cachedSlot i with
  | some k => let t := s.eraseSlot k
    { t with crypto := { t.crypto with cacheNode := t.crypto.cacheNode.erase k, cacheUse := t.crypto.cacheUse.erase k } }
  | none => s

/-- Slots that are READY. -/
def State.readySlots (s : State) : List Nat := (s.crypto.slots.filter fun p => p.2.state = .ready).map Prod.fst

/-- Usage bits of Table 12.4 [28:22]. -/
def useFwd : BitVec 7 := 1
def useInv : BitVec 7 := 2
def useMac : BitVec 7 := 4
def useKdf : BitVec 7 := 8
def useWrap : BitVec 7 := 16
def useUnwrap : BitVec 7 := 32
def useAttest : BitVec 7 := 64

/-- A 256-bit device key with the usages R332 gives its slot. -/
def deviceKey (usage : BitVec 7) (key : Key) : KeySlot := { device := true, usage := usage, lcs := 3, len256 := true, key := key }

/-- Octets of the EUI-64, octet 0 first (R329). -/
def euiOctets (e : BitVec 64) : List Nat := beOfNat 8 e.toNat

/-- Derivation of Table 12.2 from a key's octets. -/
def derive (key : List Nat) (label : String) (ctx : List Nat) (bits : Nat) : Key := keyOf (kdf key (octNats (ascii label)) ctx bits)

/-- The start keys of step 4: slots 0, 2 and 3 from the root, which is then cleared (R326, R329). -/
def State.deriveStart (s : State) : State :=
  let root := beOfNat 32 (s.crypto.rootReg.getD 0).toNat
  let e := euiOctets s.id.eui64
  let s := s.loadSlot 0 (deviceKey useKdf (derive root "EPNOR-HW" e 256))
  let s := s.loadSlot 2 (deviceKey useAttest (derive root "EPNOR-ATTEST" e 256))
  let s := s.loadSlot 3 (deviceKey useUnwrap (derive root "EPNOR-XPORT" e 256))
  { s with crypto := { s.crypto with rootReg := none } }

/-- K_hw from K_hw0 and the zeroisation count (R329). -/
def State.deriveHw (s : State) : State :=
  s.loadSlot 1 (deviceKey (useWrap ||| useUnwrap)
    (derive (s.slot 0).octets "EPNOR-HW-EPOCH" (octNats (toLe 16 s.hw.zeroCount.toNat)) 256))

/-- Slots 4 to 7 from K_cfg and its cfg_key_id (R329, R340). -/
def State.deriveCfg (s : State) (kcfg : List Nat) (id : Octets) : State :=
  let s := s.loadSlot 4 (deviceKey useKdf (keyOf kcfg))
  let s := s.loadSlot 5 (deviceKey useMac (derive kcfg "EPNOR-CFG-MAC" (octNats id) 256))
  let s := s.loadSlot 6 (deviceKey useUnwrap (derive kcfg "EPNOR-CFG-WRAP" (octNats id) 256))
  s.loadSlot 7 (deviceKey useAttest (derive kcfg "EPNOR-ATTEST-OP" (euiOctets s.id.eui64) 256))

/-- Wraps under K_hw (slot 1). -/
def State.wrapHw (s : State) (pt : List Nat) : Octets := natOcts (kwWrap (s.slot 1).octets pt)

/-- Unwraps under the key of a slot, where the slot is READY. -/
def State.unwrapBy (s : State) (slot : Nat) (ct : Octets) : Option (List Nat) :=
  if (s.slot slot).state = .ready then kwUnwrap (s.slot slot).octets (octNats ct) else none

/-- The Verieli keys of mailbox m from its 256-bit mailbox key (R329): slots 8 + 3m, 9 + 3m, 10 + 3m. -/
def State.deriveMbox (s : State) (m world : Nat) (key : List Nat) : State :=
  let ctx := [m, world]
  let vk : BitVec 7 → Bool → Key → KeySlot := fun u l k =>
    { world := BitVec.ofNat 3 world, usage := u, lcs := 3, len256 := l, key := k }
  let s := s.loadSlot (8 + 3 * m) (vk useMac false (derive key "EPNOR-VER-MAC" ctx 128))
  let s := s.loadSlot (9 + 3 * m) (vk useFwd false (derive key "EPNOR-VER-ENC" ctx 128))
  s.loadSlot (10 + 3 * m) (vk (useWrap ||| useUnwrap) true (derive key "EPNOR-VER-WRAP" ctx 256))

/-- K_cfg is held (R340). -/
def State.kcfgHeld (s : State) : Bool := s.hw.kcfg.isSome && (s.slot 4).state = .ready

/-! ## Group keys (R462) -/

/-- The key check value: the first 8 octets of the AES-CMAC under the key of "EPNOR-GK-CHECK". -/
def groupCheck (key : List Nat) : Octets := (natOcts (cmac key (octNats (ascii "EPNOR-GK-CHECK")))).take 8

/-- Group slots of a world. -/
def groupSlots (w : Nat) : List Nat := (List.range 16).map fun i => 40 + 16 * w + i

/-- Sets slot i's ceiling and check value at the load of a group key: from the greatest ceiling held for a matching slot of the world,
or from 0 where none matches (R462). -/
def State.groupCell (s : State) (i : Nat) (key : List Nat) : State :=
  match slotWorld i with
  | some w =>
    if i < 40 then s else
    let chk := groupCheck key
    let held := (groupSlots w).filterMap fun j => (s.hw.groupCell.get j)
    let hit := held.filter fun c => c.check = chk
    let ceil := hit.foldl (fun (a : BitVec 32) (c : GroupCell) => if a.toNat < c.ceiling.toNat then c.ceiling else a) 0
    { s with
      hw := { s.hw with groupCell := s.hw.groupCell.set i { ceiling := ceil, check := chk } }
      crypto := { s.crypto with groupNext := s.crypto.groupNext.setNat i ceil.toNat } }
  | none => s

/-! ## Journalled world keys (R339) -/

/-- Journals a world key wrapped under K_hw. -/
def State.journalKey (s : State) (i : Nat) : State :=
  let k := s.slot i
  let e : WorldKey := { usage := k.usage, fallback := k.fallback, fbValid := k.fbValid, keyId := k.keyId, wrapped := s.wrapHw k.octets }
  { s with hw := { s.hw with worldKeys := s.hw.worldKeys.set i e } }

/-- A world key's slot value: K_join carries kdf, group keys fwd, as the usage given says. -/
def worldKeySlot (w : Nat) (usage : BitVec 7) (keyId : BitVec 64) (fallback : BitVec 8) (key : List Nat) : KeySlot :=
  { world := BitVec.ofNat 3 w, usage := usage, lcs := 3, fallback := fallback, key := keyOf key, keyId := keyId }

/-- fb_valid where the fallback names a READY slot of the same world (Table 12.4). -/
def State.fixFallback (s : State) (i : Nat) : State :=
  let k := s.slot i
  let f := k.fallback.toNat
  let ok := decide (40 ≤ f) && decide (f ≤ 167) && (s.slot f).state = .ready && slotWorld f = slotWorld i
  { s with crypto := { s.crypto with slots := s.crypto.slots.set i { k with fbValid := ok } } }

/-- Loads a world key into slot i, with its group counter (R334, R462). -/
def State.loadWorldKey (s : State) (i : Nat) (k : KeySlot) : State :=
  ((s.loadSlot i k).groupCell i k.octets).fixFallback i

/-! ## Chaining contexts (Table 13.4) -/

/-- The 48 octets of a context. -/
def Ctx.octets (c : Ctx) : Octets :=
  toLe 1 c.slot.toNat ++ toLe 1 c.purpose.toNat ++ toLe 2 c.gen.toNat ++ toLe 4 c.startTag.toNat ++ toLe 1 c.world.toNat ++
    toLe 1 c.flags.toNat ++ [0, 0] ++ toLe 4 c.done.toNat ++ toLe 16 c.x.toNat ++ toLe 16 c.ctr.toNat

def ctxOf (o : Octets) : Ctx :=
  { slot := BitVec.ofNat 8 (leField o 0 1), purpose := BitVec.ofNat 8 (leField o 1 1), gen := BitVec.ofNat 16 (leField o 2 2),
    startTag := BitVec.ofNat 32 (leField o 4 4), world := BitVec.ofNat 8 (leField o 8 1), flags := BitVec.ofNat 8 (leField o 9 1),
    done := BitVec.ofNat 32 (leField o 12 4), x := BitVec.ofNat 128 (leField o 16 16), ctr := BitVec.ofNat 128 (leField o 32 16) }

end Sys2Proof.Machine
end

