-- ==== Sys2Proof/Machine/Operands.lean ====
section
/-! DEFINITION. The fields of the applied image's records with their defaults, and the quantities chapters 3 to 6 compute from them:
channels, frequencies, sub-bands, air formats, powers. -/

namespace Sys2Proof.Machine

/-! ## RADIO_FE (Table 3.9) -/

def State.raster (s : State) (f : Fe) : Nat := s.cfgN 0x02 (feCode f) 4 1 1
def State.aerials (s : State) (f : Fe) : Nat := s.cfgN 0x02 (feCode f) 5 1 0
def State.rampUs (s : State) (f : Fe) : Nat := s.cfgN 0x02 (feCode f) 7 1 8
def State.pMax (s : State) (f : Fe) : Int := s.cfgI 0x02 (feCode f) 8 1 0
def State.pMin (s : State) (f : Fe) : Int := s.cfgI 0x02 (feCode f) 9 1 0
def State.extPa (s : State) (f : Fe) : Bool := s.cfgN 0x02 (feCode f) 10 1 0 = 1
def State.aerialGain (s : State) (f : Fe) (port : Nat) : Int := s.cfgI 0x02 (feCode f) (13 + port) 1 0
def State.tempRecal (s : State) (f : Fe) : Nat := s.cfgN 0x02 (feCode f) 15 1 10
def State.isolation (s : State) (t l : Fe) : Nat := s.cfgN 0x02 (feCode t) (16 + feCode l) 1 0
def State.harmonicRej (s : State) (f : Fe) : Nat := s.cfgN 0x02 (feCode f) 19 1 0
def State.crossSepKhz (s : State) (f : Fe) : Nat := s.cfgN 0x02 (feCode f) 20 2 2000
def State.precorrOn (s : State) (f : Fe) : Bool := bitOf (s.cfgN 0x02 (feCode f) 22 1 1) 0
def State.precorrMaxAge (s : State) (f : Fe) : Nat := s.cfgN 0x02 (feCode f) 24 2 3600
def State.sleepAfterMs (s : State) (f : Fe) : Nat := s.cfgN 0x02 (feCode f) 26 2 0
def State.femLeadNs (s : State) (f : Fe) : Nat := s.cfgN 0x02 (feCode f) 28 2 1000
def State.rampShape (s : State) (f : Fe) : Nat := s.cfgN 0x02 (feCode f) 6 1 1
/-- Voltage in mV of point i of det_curve (R72). -/
def State.detCurve (s : State) (f : Fe) (i : Nat) : Nat := s.cfgN 0x02 (feCode f) (40 + 2 * i) 2 0
def State.femCode (s : State) (f : Fe) (i : Nat) : Nat := s.cfgN 0x02 (feCode f) (32 + i) 1 0

/-- A port of a front end is fitted (R58). -/
def State.portFitted (s : State) (f : Fe) (port : Nat) : Bool := bitOf (s.aerials f) port

/-- Channel spacing in Hz of a raster code (Table 3.9). -/
def rasterHz (r : Nat) : Nat :=
  match r with
  | 0 => 100000
  | 1 => 200000
  | 2 => 400000
  | 3 => 600000
  | 4 => 800000
  | _ => 5000000

/-- Channels per slice (Table 5.1). -/
def rasterChannels (r : Nat) : Nat :=
  match r with
  | 0 => 64
  | 1 => 32
  | 2 => 16
  | 3 => 10
  | 4 => 8
  | _ => 4

/-- Frequency of channel k about a centre (R114). -/
def channelHz (centre raster k : Nat) : Nat := centre + k * rasterHz raster - rasterChannels raster / 2 * rasterHz raster

def State.channels (s : State) (f : Fe) : Nat := rasterChannels (s.raster f)

def State.centre (s : State) (f : Fe) : Nat := (s.fe.get f).centre

def State.freqOf (s : State) (f : Fe) (k : Nat) : Nat := channelHz (s.centre f) (s.raster f) k

/-- Half the width of a slice in Hz (Table 3.1). -/
def halfSlice (f : Fe) : Nat := if f = .h then 12000000 else 3200000

/-! ## REGION (Tables 6.6, 6.7) -/

def subCount (p : Octets) : Nat := leField p 1 1
def subOff (i : Nat) : Nat := 4 + 20 * i
def subLow (p : Octets) (i : Nat) : Nat := leField p (subOff i) 4
def subHigh (p : Octets) (i : Nat) : Nat := leField p (subOff i + 4) 4
def subDuty (p : Octets) (i : Nat) : Nat := leField p (subOff i + 8) 2
def subMaxTx (p : Octets) (i : Nat) : Nat := leField p (subOff i + 10) 2
def subSense (p : Octets) (i : Nat) : Nat := leField p (subOff i + 12) 2
def subMinOff (p : Octets) (i : Nat) : Nat := leField p (subOff i + 14) 2
def subLbt (p : Octets) (i : Nat) : Nat := leField p (subOff i + 16) 1
def subLbtThr (p : Octets) (i : Nat) : Int := signed 8 (leField p (subOff i + 17) 1)
def subEirp (p : Octets) (i : Nat) : Int := signed 8 (leField p (subOff i + 18) 1)

/-- A channel's centre lies at least half the raster inside both edges of sub-band i (R143). -/
def inSub (p : Octets) (i hz raster : Nat) : Bool :=
  decide (2 * subLow p i + rasterHz raster ≤ 2 * hz) && decide (2 * hz + rasterHz raster ≤ 2 * subHigh p i)

/-- The sub-band of a frequency (R143). -/
def subOf (p : Octets) (hz raster : Nat) : Option Nat := (List.range (subCount p)).find? fun i => inSub p i hz raster

def State.region (s : State) : Octets := (s.cfg 0x01 0).getD []

def State.subBand (s : State) (f : Fe) (k : Nat) : Option Nat := subOf s.region (s.freqOf f k) (s.raster f)

/-! ## AIR_MODES (Table 4.11) -/

def State.modesEnabled (s : State) (f : Fe) : Nat := s.cfgN 0x03 (feCode f) 0 2 (if f = .h then 8 else 2)
def State.modeOn (s : State) (f : Fe) (m : Nat) : Bool := bitOf (s.modesEnabled f) m
def State.sunSfd (s : State) (f : Fe) : Nat := s.cfgN 0x03 (feCode f) 2 1 0
def State.whitening (s : State) (f : Fe) : Bool := s.cfgN 0x03 (feCode f) 4 1 1 = 1
def State.fcsType (s : State) (f : Fe) : Nat := s.cfgN 0x03 (feCode f) 3 1 1
def State.preambleOctets (s : State) (f : Fe) : Nat := s.cfgN 0x03 (feCode f) 5 1 8
def State.hsUnits (s : State) (f : Fe) : Nat := s.cfgN 0x03 (feCode f) 6 1 64
def State.pilotMode (s : State) (f : Fe) : Nat := s.cfgN 0x03 (feCode f) 7 1 1
def State.cwSelect (s : State) (f : Fe) : Nat := s.cfgN 0x03 (feCode f) 8 2 128
def State.defaultMode (s : State) (f : Fe) : Nat := s.cfgN 0x03 (feCode f) 10 1 (if f = .h then 3 else 1)
def State.defaultRate (s : State) (f : Fe) : Nat := s.cfgN 0x03 (feCode f) 11 1 0
def State.beaconMode (s : State) (f : Fe) : Nat := s.cfgN 0x03 (feCode f) 12 1 (if f = .h then 3 else 1)
def State.txMaxPsdu (s : State) (f : Fe) (m : Nat) : Nat := s.cfgN 0x03 (feCode f) (14 + 2 * m) 2 (if m = 3 then 127 else 2047)

/-- FCS octets of a frame the part originates (R105). -/
def State.fcsOctets (s : State) (f : Fe) (m : Nat) : Nat := if m = 3 then 2 else if s.fcsType f = 0 then 4 else 2

/-- The format of a frame of `len` octets the part sends (R99, R102). -/
def State.txFmt (s : State) (f : Fe) (mode rate len : Nat) : AirFmt :=
  let long := decide (len > s.cwSelect f)
  { mode := mode, rate := rate, cwlen := long, pilots := s.pilotMode f = 2 || (s.pilotMode f = 1 && long),
    preamble := s.preambleOctets f, hsUnits := s.hsUnits f, onH := f = .h }

/-- Time on air in µs of a frame the part sends. -/
def State.txAir (s : State) (f : Fe) (mode rate len : Nat) : Nat := airTime (s.txFmt f mode rate len) len

/-- Shortest PSDU of an FCS length (R108). -/
def minPsdu (fcs2 : Bool) : Nat := if fcs2 then 5 else 7

/-! ## MAC (Table 6.5) -/

def State.panId (s : State) : Nat := s.cfgN 0x05 0 0 2 0
def State.shortAddr (s : State) : Nat := s.cfgN 0x05 0 2 2 0xFFFE
def State.minBe (s : State) : Nat := s.cfgN 0x05 0 4 1 3
def State.maxBe (s : State) : Nat := s.cfgN 0x05 0 5 1 5
def State.maxBackoffs (s : State) : Nat := s.cfgN 0x05 0 6 1 4
def State.maxRetries (s : State) : Nat := s.cfgN 0x05 0 7 1 3
def State.ccaUs (s : State) : Nat := s.cfgN 0x05 0 8 2 160
def State.ccaThr (s : State) : Int := s.cfgI 0x05 0 10 1 (-85)
def State.srcMode (s : State) : Nat := s.cfgN 0x05 0 11 1 1
/-- The part's source address in the frames it sends (R164). -/
def State.srcAddr (s : State) : Addr := if s.srcMode = 0 then .short (BitVec.ofNat 16 s.shortAddr) else .ext s.id.eui64
def State.ackMarginUs (s : State) : Nat := s.cfgN 0x05 0 12 2 200
def State.nodeAckPreamble (s : State) : Nat := s.cfgN 0x05 0 14 1 8
def State.nodeAckHs (s : State) : Nat := s.cfgN 0x05 0 15 1 64
def State.dupHoldMs (s : State) : Nat := s.cfgN 0x05 0 16 2 4000
def State.pendingHoldMs (s : State) : Nat := s.cfgN 0x05 0 18 1 20
def State.ackReserve (s : State) : Nat := s.cfgN 0x05 0 19 1 20
def State.nbrTolMs (s : State) : Nat := s.cfgN 0x05 0 20 1 20

/-! ## BEACON (Table 6.8) -/

def State.hasBeacon (s : State) (f : Fe) : Bool := (s.cfg 0x06 (feCode f)).isSome
def State.beaconOui (s : State) (f : Fe) : Nat := s.cfgN 0x06 (feCode f) 0 3 0
def State.beaconPort (s : State) (f : Fe) : Nat := s.cfgN 0x06 (feCode f) 3 1 0
def State.routerId (s : State) : Option Nat := (feAll.filterMap fun f => (s.cfg 0x06 (feCode f)).map fun p => leField p 4 2).head?
def State.beaconPower (s : State) (f : Fe) : Int := s.cfgI 0x06 (feCode f) 6 1 0
def State.beaconMaxGroups (s : State) (f : Fe) : Nat := s.cfgN 0x06 (feCode f) 7 1 32

/-! ## LANES (Table 5.9) -/

def State.detectThr (s : State) : Nat := s.cfgN 0x04 0 96 1 16
def State.captureDb (s : State) : Nat := s.cfgN 0x04 0 97 1 6
def State.diversity (s : State) : Nat := s.cfgN 0x04 0 98 1 0
def State.ldpcMaxIter (s : State) : Nat := s.cfgN 0x04 0 99 1 24
def State.sfdTimeoutSym (s : State) : Nat := s.cfgN 0x04 0 100 2 2304
def State.sparePolicy (s : State) : Bool := bitOf (s.cfgN 0x04 0 102 1 1) 0
def State.laneAllowed (s : State) (l : Nat) : Bool := bitOf (s.cfgN 0x04 0 104 6 (2 ^ 48 - 1)) l && decide (l < s.laneCount)

/-! ## SCHEDULE, SHAPING, NODE_TABLE, RPL, LINK_SECURITY, WORLD -/

def State.defaultWakeExp (s : State) (w : Nat) : Nat := s.cfgN 0x09 0 w 1 0
def State.bulkMask (s : State) (w : Nat) : Nat := s.cfgN 0x09 0 (8 + w) 1 0
def State.listenWindowUs (s : State) : Nat := s.cfgN 0x09 0 16 2 8000
def State.changeoverMs (s : State) : Nat := s.cfgN 0x09 0 18 2 100
def State.nodeShare (s : State) (w : Nat) : Nat := s.cfgN 0x0B 0 (2 * w) 2 1000
def State.burstMs (s : State) : Nat := s.cfgN 0x0B 0 16 2 500
def State.airShare (s : State) (w : Nat) (f : Fe) : Nat := s.cfgN 0x11 w (8 + 2 * feCode f) 2 0
def State.meshPrefix (s : State) (w : Nat) : Nat := beNat (s.cfgO 0x11 w 0 8)

def State.cfgSeed (s : State) : Nat := s.cfgN 0x0E 0 0 8 0
def State.ageS (s : State) : Nat := s.cfgN 0x0E 0 8 4 2592000
def State.quietS (s : State) : Nat := s.cfgN 0x0E 0 12 4 86400
def State.joiningMax (s : State) : Nat := s.cfgN 0x0E 0 16 2 256
def State.joinTimeoutS (s : State) : Nat := s.cfgN 0x0E 0 18 2 120
def State.mergeUs (s : State) : Nat := s.cfgN 0x0E 0 20 2 1000
def State.learnAll (s : State) : Bool := bitOf (s.cfgN 0x0E 0 22 1 1) 0

def State.lifetimeUnit (s : State) : Nat := s.cfgN 0x0F 0 0 2 60
def State.daoAck (s : State) : Bool := bitOf (s.cfgN 0x0F 0 3 1 1) 0
def State.rplEnabled (s : State) (w : Nat) : Bool := s.cfgN 0x0F 0 (8 + 16 * w) 1 0 = 1
def State.rplInst (s : State) (w : Nat) : Nat := s.cfgN 0x0F 0 (9 + 16 * w) 1 0
def State.rplImin (s : State) (w : Nat) : Nat := s.cfgN 0x0F 0 (10 + 16 * w) 1 15
def State.rplDoublings (s : State) (w : Nat) : Nat := s.cfgN 0x0F 0 (11 + 16 * w) 1 8
def State.rplRedundancy (s : State) (w : Nat) : Nat := s.cfgN 0x0F 0 (12 + 16 * w) 1 0
def State.rplVersion (s : State) (w : Nat) : Nat := s.cfgN 0x0F 0 (13 + 16 * w) 1 240

def State.joinRate (s : State) : Nat := s.cfgN 0x14 0 0 2 32
def State.joinBurst (s : State) : Nat := s.cfgN 0x14 0 2 2 64
def State.joinHoldMs (s : State) : Nat := s.cfgN 0x14 0 4 2 100
def State.noticeHoldS (s : State) : Nat := s.cfgN 0x14 0 6 2 600
def State.staleCount (s : State) : Nat := s.cfgN 0x14 0 8 1 3
def State.worldLevel (s : State) (w : Nat) : Nat := s.cfgN 0x14 0 (16 + 4 * w) 1 5
def State.txGroup (s : State) (w : Nat) : Nat := s.cfgN 0x14 0 (17 + 4 * w) 1 0
def State.joinsPermitted (s : State) (w : Nat) : Bool := bitOf (s.cfgN 0x14 0 (18 + 4 * w) 1 (if s.hasWorld w then 1 else 0)) 0

/-! ## CANOPY (Table 11.6) -/

def State.canopyN (s : State) (off len dflt : Nat) : Nat := s.cfgN 0x10 0 off len dflt
def State.mapPeriod (s : State) : Nat := s.canopyN 0 2 10
def State.placePeriod (s : State) : Nat := s.canopyN 2 2 60
def State.pathPeriod (s : State) : Nat := s.canopyN 4 2 300
def State.listPeriod (s : State) : Nat := s.canopyN 6 2 600
def State.workPeriod (s : State) : Nat := s.canopyN 8 2 10
def State.slicePeriod (s : State) : Nat := s.canopyN 10 2 3600
def State.sliceCool (s : State) : Nat := s.canopyN 12 4 21600
def State.nodeCool (s : State) : Nat := s.canopyN 16 4 86400
def State.aerialCool (s : State) : Nat := s.canopyN 20 2 3600
def State.powerCool (s : State) : Nat := s.canopyN 22 2 600
def State.pathCool (s : State) : Nat := s.canopyN 24 2 3600
def State.nodeMovesMax (s : State) : Nat := s.canopyN 26 2 64
def State.faultMovesMax (s : State) : Nat := s.canopyN 28 2 1024
def State.pathMovesMax (s : State) : Nat := s.canopyN 30 2 256
def State.mapMovesMax (s : State) : Nat := s.canopyN 32 1 4
def State.spareLanes (s : State) : Nat := s.canopyN 33 1 2
def State.noticeWakes (s : State) : Nat := s.canopyN 34 1 3
def State.linkMinDb (s : State) : Nat := s.canopyN 35 1 6
def State.linkStaleS (s : State) : Nat := s.canopyN 36 2 7200
def State.powerMargin (s : State) : Nat := s.canopyN 38 1 10
def State.ackFloorPct (s : State) : Nat := s.canopyN 39 1 50
def State.aerialHyst (s : State) : Nat := s.canopyN 40 1 8
def State.powerHyst (s : State) : Nat := s.canopyN 41 1 4
def State.workHyst (s : State) : Nat := s.canopyN 42 2 100
def State.wLink (s : State) : Nat := s.canopyN 44 2 8
def State.wGrp (s : State) : Nat := s.canopyN 46 2 4
def State.wPh (s : State) : Nat := s.canopyN 48 2 1
def State.wAvoid (s : State) : Nat := s.canopyN 50 2 2
def State.placeHyst (s : State) : Nat := s.canopyN 52 2 200
def State.mapHyst (s : State) : Nat := s.canopyN 54 2 20
def State.sliceHyst (s : State) : Nat := s.canopyN 56 2 2000
def State.listHyst (s : State) : Nat := s.canopyN 58 2 200
def State.wHops (s : State) : Nat := s.canopyN 60 2 100
def State.wPref (s : State) : Nat := s.canopyN 62 2 40
def State.wRelay (s : State) : Nat := s.canopyN 64 2 1
def State.pathHyst (s : State) : Nat := s.canopyN 66 2 60
def State.unknownBusyPm (s : State) : Nat := s.canopyN 68 2 300

/-- Front ends with a RADIO_FE record, as a mask. -/
def State.feMask (s : State) : Nat := (feAll.filter fun f => s.hasFe f).foldl (fun m f => m + 2 ^ feCode f) 0

def State.worldFes (s : State) (w : Nat) : Nat := s.canopyN (120 + 4 * w) 1 s.feMask
def State.phaseLo (s : State) (w : Nat) : Nat := s.canopyN (121 + 4 * w) 1 0
def State.phaseHi (s : State) (w : Nat) : Nat := s.canopyN (122 + 4 * w) 1 255
def State.canopyFlags (s : State) (w : Nat) : Nat := s.canopyN (123 + 4 * w) 1 1

/-! ## TIME (Table 7.8) -/

def State.ptpPorts (s : State) : Nat := s.cfgN 0x07 0 0 1 3
def State.ptpDomain (s : State) : Nat := s.cfgN 0x07 0 1 1 0
def State.utcDefault (s : State) : Nat := s.cfgN 0x07 0 2 2 37
def State.stepThreshold (s : State) : Nat := s.cfgN 0x07 0 4 4 100000
def State.lockNs (s : State) : Nat := s.cfgN 0x07 0 8 4 1000
def State.masterLossMs (s : State) : Nat := s.cfgN 0x07 0 12 2 3000
def State.maxSlewPpm (s : State) : Nat := s.cfgN 0x07 0 14 2 100
def State.rtcStepMs (s : State) : Nat := s.cfgN 0x07 0 16 2 1000
def State.degradedAfterH (s : State) : Nat := s.cfgN 0x07 0 18 1 24
def State.localOffsetCfg (s : State) : Nat := s.cfgN 0x07 0 19 1 0
def State.catchUpMin (s : State) : Nat := s.cfgN 0x07 0 20 1 15
def State.timeFlags (s : State) : Nat := s.cfgN 0x07 0 21 1 5
def State.ppsWidthMs (s : State) : Nat := s.cfgN 0x07 0 22 2 100
def State.ppsComp (s : State) : Int := s.cfgI 0x07 0 24 2 0

/-! ## Power (R71): all in 0.5 dB units -/

/-- The highest power allowed on a port for a sub-band: REGION limit less the aerial gain, and p_max, in open loop p_max − 6 dB (R74). -/
def State.powerCap (s : State) (f : Fe) (port sub : Nat) : Int :=
  let det := if port = 0 then (s.fe.get f).detA else (s.fe.get f).detB
  let cap := subEirp s.region sub - s.aerialGain f port
  let top := if det.fault then s.pMax f - 12 else s.pMax f
  min cap top

/-- No power meets the three limits of R71: the REGION limit less the gain lies below p_min. -/
def State.powerNone (s : State) (f : Fe) (port sub : Nat) : Bool := decide (subEirp s.region sub - s.aerialGain f port < s.pMin f)

/-- The power of a frame: the request's, limited under R71; where p_min lies above the bound, as that of a port with a faulty detector may (R74),
the frame is sent at p_min (DESIGN CHOICE, log entry 74). -/
def State.limitPower (s : State) (f : Fe) (port sub : Nat) (p : Int) : Int := max (s.pMin f) (min p (s.powerCap f port sub))

end Sys2Proof.Machine
end

