-- ==== Sys2Proof/Machine/FeOps.lean ====
section
/-! DEFINITION. Shared operations of the front ends and lanes (chapters 3 and 5) and of the duty-cycle account (R145 to R147). -/

namespace Sys2Proof.Machine

def State.feSt (s : State) (f : Fe) : FeSt := s.fe.get f

def State.setFe (s : State) (f : Fe) (x : FeSt) : State := { s with fe := s.fe.set f x }

def State.lane (s : State) (l : Nat) : LaneSt := s.lanes.getD l {}

def State.setLane (s : State) (l : Nat) (x : LaneSt) : State := { s with lanes := s.lanes.set l x }

/-- Assigns a lane at an instant of the time clock; the assignment it leaves is kept with its span (R170). -/
def LaneSt.assign (x : LaneSt) (clk : Nat) (p : Option (Nat × Nat)) : LaneSt :=
  if x.assigned = p then x else { x with assigned := p, since := clk, was := x.assigned.map fun q => (q, x.since, clk) }

/-- A lane watches (front end, channel) from one instant of the time clock to another without a break. -/
def LaneSt.watched (x : LaneSt) (p : Nat × Nat) (a b : Nat) : Bool :=
  (x.assigned == some p && decide (x.since ≤ a)) || (match x.was with
    | some (q, k, e) => q == p && decide (k ≤ a) && decide (b ≤ e)
    | none => false)

/-- Lanes assigned to a front end, ascending. -/
def State.lanesOn (s : State) (f : Fe) : List Nat :=
  (List.range 48).filter fun l => match (s.lane l).assigned with
    | some (c, _) => c == feCode f
    | none => false

/-- The lane assigned to a channel of a front end. -/
def State.laneFor (s : State) (f : Fe) (k : Nat) : Option Nat := (s.lanesOn f).find? fun l => (s.lane l).assigned == some (feCode f, k)

/-- Lanes of the first half: LANES-A on the EPB7248; on the EPB7224 the half that thermal step 1 leaves alone, whose other half stops as
LANES-B does while their domain stays powered (Table 18.8). -/
def State.halfLanes (s : State) : Nat := if s.full then 24 else 12

/-- Lane domain of a lane (chapter 5). -/
def State.laneDom (s : State) (l : Nat) : LaneDom := if l < s.halfLanes then .a else .b

def State.dom (s : State) : LaneDom → LaneDomSt
  | .a => s.domA
  | .b => s.domB

def State.setDom (s : State) (d : LaneDom) (x : LaneDomSt) : State :=
  match d with
  | .a => { s with domA := x }
  | .b => { s with domB := x }

/-- The lane exists, is powered, not being powered down and not mapped out. -/
def State.laneUsable (s : State) (l : Nat) : Bool :=
  let d := s.dom (s.laneDom l)
  decide (l < s.laneCount) && d.powered && d.stopping.isNone && !d.returning && !d.stopped && !(s.lane l).out

/-! ## Duty-cycle account -/

/-- Sum of the bin holding second `sec` and the 3 599 before it (R145), in µs. -/
def dutySum (d : Duty) (sec : Nat) : Nat := d.bins.foldl (fun n b => if b.1 ≤ sec ∧ sec < b.1 + 3600 then n + b.2 else n) 0

/-- Adds `us` to the bin of a second; bins older than an hour are dropped. -/
def dutyCharge (d : Duty) (sec us : Nat) : Duty :=
  let kept := d.bins.filter fun b => decide (sec < b.1 + 3600)
  { d with bins := if kept.any (fun b => b.1 == sec) then kept.map (fun b => if b.1 = sec then (sec, b.2 + us) else b) else kept ++ [(sec, us)] }

/-- Takes a charge back (R146). -/
def dutyReturn (d : Duty) (sec us : Nat) : Duty := { d with bins := d.bins.map fun b => if b.1 = sec then (sec, b.2 - us) else b }

def State.dutyOf (s : State) (i : Nat) : Duty := s.mac.duty.getD i { lowHz := 0, highHz := 0, bins := [], lastEnd := none }

def State.setDuty (s : State) (i : Nat) (d : Duty) : State := { s with mac := { s.mac with duty := s.mac.duty.set i d } }

/-- Allowance of a sub-band in µs: duty × 3 600 s (R145). -/
def State.allowance (s : State) (i : Nat) : Nat := subDuty s.region i * 360000

/-- A front end has a transmission on the air, or committed, in sub-band i. -/
def State.onAirIn (s : State) (i : Nat) : Bool :=
  feAll.any fun f => match (s.feSt f).cur with
    | some q => s.subBand f q.channel == some i
    | none => false

/-- The conditions of R146 for a frame of `us` µs.  A sub-band with min_off_ms 0 asks for no off time, also while another front end transmits
in it (log entry 76). -/
def State.admits (s : State) (i us : Nat) (c : TxClass) : Bool :=
  let d := s.dutyOf i
  let sec := s.time.sec.toNat
  let all := s.allowance i
  let room := if c = .other then all - all * s.ackReserve / 1000 else all
  let maxTx := subMaxTx s.region i
  (maxTx = 0 || decide (us ≤ maxTx * 1000)) &&
  (c == .ack || subMinOff s.region i = 0 || (!s.onAirIn i && match d.lastEnd with
    | some e => decide (e + subMinOff s.region i * 1000000 ≤ s.netNs)
    | none => true)) &&
  decide (dutySum d sec + us ≤ room)

/-- A frame too long ever to be sent in its sub-band (R147). -/
def State.tooLong (s : State) (i us : Nat) : Bool := subMaxTx s.region i != 0 && decide (us > subMaxTx s.region i * 1000)

/-- Charges a frame to its sub-band; the charge's sub-band and second. -/
def State.charge (s : State) (i us : Nat) : State := s.setDuty i (dutyCharge (s.dutyOf i) s.time.sec.toNat us)

def State.returnCharge (s : State) (c : Option (Nat × Nat)) (us : Nat) : State :=
  match c with
  | some (i, sec) => s.setDuty i (dutyReturn (s.dutyOf i) sec us)
  | none => s

/-! ## Calibration table (R62) -/

/-- Difference of two temperatures. -/
def tempDiff (a b : Int) : Nat := (a - b).natAbs

/-- The channel has a valid entry at the front end's temperature. -/
def State.calibrated (s : State) (f : Fe) (k : Nat) : Bool :=
  (s.feSt f).table.any fun e => e.channel == k && decide (tempDiff e.temp (s.feSt f).temp ≤ s.tempRecal f)

/-- Removes the entry least recently used for a transmission. -/
def dropOldest (l : List CalEntry) : List CalEntry :=
  match l with
  | [] => []
  | e :: t =>
    let m := t.foldl (fun a x => if x.used < a.used then x else a) e
    l.erase m

/-- Enters a calibration of channel k at a temperature; a full table of 64 loses its least recently used entry. -/
def calInsert (l : List CalEntry) (k : Nat) (temp : Int) : List CalEntry :=
  let used := match l.find? (fun e => e.channel == k) with
    | some e => e.used
    | none => 0
  let rest := l.filter fun e => e.channel != k
  (if rest.length ≥ 64 then dropOldest rest else rest) ++ [{ channel := k, temp := temp, used := used }]

/-- A front end in SLEEP, or in SYNTH_ON with nothing to send, returns to RX: both synthesisers are calibrated on the way up from SLEEP, the
transmit one on the first channel its background pass wants (log entry 74), and recorded at the die temperature last read (R61, R62). -/
def State.wakeFe (s : State) (f : Fe) : State :=
  let x := s.feSt f
  match x.mode with
  | .sleep =>
    let k := x.pass.headD 0
    (s.setFe f { x with mode := .rx, idleSince := s.clk, rxTemp := x.temp, rxDue := none, parked := some k
                        table := calInsert x.table k x.temp, pass := x.pass.filter fun j => j != k }).countN .feCal (.fe (feCode f)) 2
  | .synthOn => if x.held.isNone && x.cal.isNone then s.setFe f { x with mode := .rx, idleSince := s.clk } else s
  | _ => s

/-! ## Ready times (Tables 3.3 and 3.4), ns of network time -/

/-- Network time of a time-clock instant not yet reached. -/
def State.netOfClk (s : State) (k : Nat) : Nat := s.netNs + (k - s.clk) * 4

/-- A time of Table 3.3 holding `r` ramps, in ns, for the front end's ramp (R60). -/
def State.rampTime (s : State) (f : Fe) (us r : Nat) : Nat := (us * 1000 + r * s.rampUs f * 1000) - r * 8000

/-- Present state of the front end: TX to RX takes 22 µs after the last frame's end (R67). -/
def State.feMode (s : State) (f : Fe) : FeMode :=
  let x := s.feSt f
  if x.mode = .leaving ∧ x.lastEnd + s.rampTime f 22 1 ≤ s.netNs then .rx else x.mode

/-- The earliest start of a request for channel k (Table 3.4). -/
def State.ready (s : State) (f : Fe) (k : Nat) : Nat :=
  let x := s.feSt f
  let now := s.netNs
  let fromRx := fun (t : Nat) (parked : Bool) =>
    t + (if parked then s.rampTime f 14 1 else if s.calibrated f k then s.rampTime f 20 1 else s.rampTime f 50 1)
  let fromTx := fun (t : Nat) (parked : Bool) =>
    t + (if parked then s.rampTime f 16 2 else if s.calibrated f k then s.rampTime f 22 2 else s.rampTime f 52 2)
  match s.feMode f with
  | .off => now
  | .sleep => now + s.rampTime f 462 1
  | .standby => now + s.rampTime f 62 1
  | .synthOn | .rx =>
    match x.cal with
    | some (c, e) => fromRx (max now (s.netOfClk e)) (c == k)
    | none => fromRx now (x.parked == some k)
  | .tx => match x.cur with
    | some q => fromTx (q.start + q.air * 1000) (q.channel == k)
    | none => fromRx now (x.parked == some k)
  | .leaving =>
    let p := x.parked == some k
    max (fromTx x.lastEnd p) (fromRx now p)

/-- The instant at which the switch leaves receive for a transmission that starts at `start` (Table 3.3). -/
def State.switchOff (s : State) (f : Fe) (start : Nat) : Nat := start - (6 + s.rampUs f) * 1000

/-- The commit instant of a start (R68). -/
def State.commitOf (s : State) (f : Fe) (start : Nat) : Nat := start - ((6 + s.rampUs f) * 1000 + s.femLeadNs f)

/-- After its last frame: the instant the PA is off, and the one at which the switch is back at receive (Table 3.3, R77). -/
def State.paOff (s : State) (f : Fe) : Nat := (s.feSt f).lastEnd + (s.rampUs f + 2) * 1000

def State.switchBack (s : State) (f : Fe) : Nat := s.paOff f + 2000

/-! ## Blanking (R57, R78, R132) -/

/-- The switch of t is away from receive, or its receive chain settles (R57). -/
def State.away (s : State) (t : Fe) : Bool :=
  match (s.feSt t).cur with
  | some q => decide (s.switchOff t q.start ≤ s.netNs) ||
    ((s.feSt t).lastEnd != 0 && decide (s.netNs < (s.feSt t).lastEnd + s.rampTime t 22 1))
  | none => s.feMode t == .leaving

/-- A transmission or a receive calibration keeps samples of the front end from the lanes (R57, R64, R78). -/
def State.blanked (s : State) (f : Fe) : Bool :=
  s.away f || (match (s.feSt f).rxCal with
    | some e => decide (s.clk < e)
    | none => false) ||
  feAll.any fun t => t != f && (s.feSt t).blanks.contains f && s.away t

/-- When a transmission already committed will blank f, where that instant is still to come. -/
def State.blankSoon (s : State) (f : Fe) : Option Nat :=
  (feAll.filterMap fun t => match (s.feSt t).cur with
    | some q => if (t = f ∨ f ∈ (s.feSt t).blanks) ∧ s.netNs < s.switchOff t q.start then some (s.switchOff t q.start) else none
    | none => none).head?

/-- What a lane is doing now: a frame whose last bit or symbol has come is complete, and a detection or a frame in its header that met a
blanking is dropped (R116, R132). -/
def State.laneNow (s : State) (l : Nat) : LaneSt :=
  let x := s.lane l
  match x.phase with
  | .frame i h => if h.endNs ≤ s.netNs then { x with phase := .hunt, done := x.done ++ [(i, h)] } else x
  | .hunt => x
  | _ => match x.assigned.bind fun p => feOf p.1 with
    | some f => if s.blanked f then { x with phase := .hunt } else x
    | none => { x with phase := .hunt }

/-- Frames a lane holds cells of, oldest first. -/
def LaneSt.frames (x : LaneSt) : List (RxInfo × RxHdr) :=
  x.done ++ (match x.phase with
    | .frame i h => [(i, h)]
    | _ => [])

/-- Changes the oldest frame that meets a test. -/
def changeFirst (p : RxHdr → Bool) (g : RxHdr → RxHdr) : List (RxInfo × RxHdr) → List (RxInfo × RxHdr)
  | [] => []
  | x :: t => if p x.2 then (x.1, g x.2) :: t else x :: changeFirst p g t

def LaneSt.change (x : LaneSt) (p : RxHdr → Bool) (g : RxHdr → RxHdr) : LaneSt :=
  if x.done.any fun d => p d.2 then { x with done := changeFirst p g x.done }
  else match x.phase with
    | .frame i h => if p h then { x with phase := .frame i (g h) } else x
    | _ => x

/-- Network time of the end of the frame a lane holds past its PHY header, where it has not yet ended. -/
def State.frameEndOf (s : State) (l : Nat) : Option Nat :=
  match (s.lane l).phase with
  | .frame _ h => if h.endNs > s.netNs then some h.endNs else none
  | _ => none

/-- The pending-security account of a pipeline: Q384 to Q386. -/
def rxAcct (f : Nat) : Nat := accountOf (384 + f) 0

/-- Removes a lane's codewords from the decoder pool. -/
def Decoders.drop (d : Decoders) (l : Nat) : Decoders :=
  { d with ready := d.ready.filter fun c => c.lane != l, busy := d.busy.filter fun p => p.2.lane != l }

/-- Cores that serve, in the preference order. -/
def Decoders.idle (d : Decoders) : Option Nat := d.order.find? fun c => !d.out.getD c true && (d.busy.get c).isNone

/-- The first of the ready codewords: earliest ready time, lowest lane. -/
def firstReady : List ReadyCw → Option ReadyCw
  | [] => none
  | x :: t => match firstReady t with
    | none => some x
    | some y => if y.clk < x.clk ∨ (y.clk = x.clk ∧ y.lane < x.lane) then some y else some x

/-- Gives ready codewords to idle cores, at most `n` (R133). -/
def Decoders.feed (d : Decoders) : Nat → Decoders
  | 0 => d
  | n + 1 => match d.idle, firstReady d.ready with
    | some c, some w => { d with busy := d.busy.set c w, ready := d.ready.erase w }.feed n
    | _, _ => d

/-- Codewords that became ready in the present tick leave their cores again, so that all of one tick are served in ascending lane order (R133). -/
def Decoders.recall (d : Decoders) (clk : Nat) : Decoders :=
  { d with busy := d.busy.filter fun p => p.2.clk != clk
           ready := d.ready ++ (d.busy.filter fun p => p.2.clk == clk).map Prod.snd }

def State.feed (s : State) : State := { s with dec := s.dec.feed 4 }

/-- A lane abandons what it is receiving, with its cells and its codewords, and hunts again; complete frames stand. -/
def State.rewindLane (s : State) (l : Nat) : State :=
  let x := s.laneNow l
  let s := match x.phase with
    | .frame i h => (s.releaseChain (rxAcct i.fe) h.cells h.chain).leaveStaging (.lane l) h.cells
    | _ => s
  if x.done.isEmpty then
    State.feed { s.setLane l { x with phase := .hunt, ackOwed := false, tagClk := none } with dec := s.dec.drop l }
  else s.setLane l { x with phase := .hunt }

/-- A lane meets a cause of Table 5.5 at an instant: a frame past its header that is not complete by then is abandoned and counted, a
detection or a frame in its header is dropped without a count. -/
def State.cutLane (s : State) (l : Nat) (c : Ctr) : State :=
  match (s.laneNow l).phase with
  | .hunt => s
  | .frame _ _ => (s.rewindLane l).count c (.lane l)
  | _ => s.rewindLane l

/-- A sensing interval that meets blanking of its front end is void (R156). -/
def State.voidSensing (s : State) (f : Fe) : State :=
  let x := s.feSt f
  match x.attempt with
  | some a => if a.phase = .sensing then s.setFe f { x with attempt := some { a with void := true } } else s
  | none => s

/-- Receive of a front end is blanked now. -/
def State.blankFe (s : State) (f : Fe) (c : Ctr) : State := ((s.lanesOn f).foldl (fun s l => s.cutLane l c) s).voidSensing f

/-- A transmission blanks f from `off` on: frames past their header that end later are abandoned; what a lane detects or has in its header
is dropped at `off` (`laneNow`), unless its header ends before. -/
def State.blankFrom (s : State) (f : Fe) (off : Nat) : State :=
  (s.lanesOn f).foldl (fun s l => match (s.laneNow l).phase with
    | .frame _ h => if off < h.endNs then (s.rewindLane l).count .rxCutTx (.lane l) else s
    | _ => s) (s.voidSensing f)

/-- Table 3.8: a transmission of T at `hz` and power `p` (0.5 dB units) leaves L receiving. -/
def State.leavesReceiving (s : State) (t l : Fe) (hz : Nat) (p : Int) : Bool :=
  let iso : Int := 2 * (min (s.isolation t l) (s.isolation l t) : Nat)
  if t != .h && l != .h then
    let lo := s.centre l - halfSlice l
    let hi := s.centre l + halfSlice l
    let sep := if hz < lo then lo - hz else if hi < hz then hz - hi else 0
    decide (s.crossSepKhz t * 1000 ≤ sep) && decide (p + 50 ≤ iso)
  else if t != .h then
    decide (p + 10 ≤ iso) && (!(decide (800000000 ≤ hz) && decide (hz ≤ 827833000)) || decide (50 ≤ s.harmonicRej t))
  else decide (p + 10 ≤ iso)

/-- Front ends a request of T keeps from receiving, whether they receive now or come to RX while it lasts (R78, R79). -/
def State.crossShut (s : State) (t : Fe) (q : TxReq) : List Fe :=
  feAll.filter fun l => l != t && s.hasFe l && s.feMode l != .off && !s.leavesReceiving t l (s.freqOf t q.channel) q.power

/-- Those it cross-blanks: the ones that receive. -/
def State.crossBlanks (s : State) (t : Fe) (q : TxReq) : List Fe :=
  (s.crossShut t q).filter fun l => s.feMode l == .rx || s.feMode l == .tx || s.feMode l == .leaving

/-- FEM lines of a front end (Table 3.7): held low by the pull-down in OFF (R76); after a frame, the code for RX leads the switch's return
by fem_lead_ns but never comes before the PA is off (R77). -/
def State.femLines (s : State) (f : Fe) : Nat :=
  match s.feMode f with
  | .off => 0
  | .sleep => s.femCode f 0
  | .standby | .synthOn => s.femCode f 1
  | .rx => s.femCode f 2
  | .leaving =>
    if max (s.paOff f) (s.switchBack f - s.femLeadNs f) ≤ s.netNs then s.femCode f 2 else s.femCode f (3 + (s.feSt f).lastPort)
  | .tx => match (s.feSt f).cur with
    | some q => s.femCode f (3 + q.port)
    | none => s.femCode f 2

/-- An ACK is owed on a front end (R152). -/
def State.ackOwedOn (s : State) (f : Fe) : Bool :=
  (List.range 48).any (fun l => (s.lane l).ackOwed && (s.lane l).frames.any fun p => p.1.fe == feCode f) ||
  (match (s.feSt f).held with
    | some q => q.cls == .ack
    | none => false) ||
  (s.feSt f).posted.any (fun q => q.cls == .ack) ||
  (match (s.feSt f).cur with
    | some q => q.cls == .ack
    | none => false)

/-- Takes a front end to OFF: nothing transmitted, nothing received (R61, R349). -/
def State.feOff (s : State) (f : Fe) : State :=
  let s := s.blankFe f .rxCutPower
  s.setFe f { s.feSt f with
    mode := .off, cur := none, held := none, committed := false, posted := [], attempt := none, ackWait := none, wave := none
    cal := none, rxCal := none, parked := none, rfTest := none, beacon := none }

/-! ## Carrier pre-correction (R80) -/

/-- Clamps an offset in Hz to ±20 kHz. -/
def clampOffset (hz : Int) : Int := max (-20000) (min hz 20000)

/-! ## The decision log (R323, Table 11.5) -/

def State.canLog (s : State) (kind cause world flags subject old new : Nat) (gain : Int) : State :=
  let e : LogEntry := {
    seq := s.canopy.logSeq, sec := BitVec.ofNat 48 s.time.sec.toNat, ms := s.time.ns.toNat / 1000000, kind := kind, cause := cause, world := world
    flags := flags, subject := subject, old := BitVec.ofNat 32 old, new := BitVec.ofNat 32 new, gain := max (-2147483648) (min 2147483647 gain) }
  let l := s.canopy.log ++ [e]
  { s with canopy := { s.canopy with log := l.drop (l.length - 65536), logSeq := s.canopy.logSeq + 1 } }

/-- Brings a decision kind into the next round (R290). -/
def State.owe (s : State) (kind : Nat) : State :=
  if s.canopy.owed.contains kind then s else { s with canopy := { s.canopy with owed := s.canopy.owed ++ [kind] } }

/-- A placement as the log shows it. -/
def placeWord (group phase fe : Nat) (listen : Bool) : Nat := group % 64 + phase * 64 + fe * 16384 + (if listen then 65536 else 0)

def Node.placeWord (n : Node) : Nat := Sys2Proof.Machine.placeWord n.group n.phase n.fe n.listen

end Sys2Proof.Machine
end

