-- ==== Sys2Proof/Machine/Tags.lean ====
section
/-! DEFINITION. The operation tags (R23, R495, Table 18.3): what each holder is guaranteed, what it may hold, what it holds. -/

namespace Sys2Proof.Machine

/-- Operation tags in flight (Tables 0.1 and 1.4). -/
def tagPool : Nat := 128

/-- A holder the variant has. -/
def State.hasHolder (s : State) : TagHolder → Bool
  | .lane l => decide (l.val < s.laneCount)
  | .tx f => s.fePresent f
  | _ => true

/-- Tags reserved to a lane or a transmitter, and the floor of every other holder. -/
def tagFloor : TagHolder → Nat
  | .lane _ | .tx _ | .m0 | .sweep | .walker | .audit => 1
  | .mcore _ => 8
  | .sawmill => 4
  | .portRx _ | .prpTx => 2

def tagCap : TagHolder → Nat
  | .lane _ | .tx _ => 1
  | .mcore _ => 20
  | .sawmill => 12
  | .portRx _ | .prpTx => 6
  | .m0 | .sweep | .walker | .audit => 2

/-- Holders whose floors are drawn from the tags not reserved. -/
def sharers : List TagHolder :=
  [.mcore 0, .mcore 1, .mcore 2, .mcore 3, .sawmill, .portRx .p0, .portRx .p1, .prpTx, .m0, .sweep, .walker, .audit]

/-- Tags reserved to lanes and transmitters: 48 and 3, on the EPB7224 24 and 2. -/
def State.tagsReserved (s : State) : Nat := s.laneCount + (feAll.filter s.fePresent).length

/-- The remainder every requester at or above its floor draws from: 31, on the EPB7224 56. -/
def State.tagRemainder (s : State) : Nat := tagPool - s.tagsReserved - (sharers.map tagFloor).foldl (· + ·) 0

/-- Tags a holder holds between steps.  The work of the M-cores, Sawmill, the M0 port, the sweep, the walker and the audit is done within one step
(log entry 60). -/
def State.tagsHeld (s : State) : TagHolder → Nat
  | .lane l => if ((s.lanes.get l.val).bind fun x => x.tagClk).isSome then 1 else 0
  | .tx f => if (s.fe.get f).cur.isSome || (s.fe.get f).held.isSome || (s.fe.get f).ackWait.isSome then 1 else 0
  | .portRx p => if (s.back.port.get p).rxCells = 0 then 0 else 1
  | .prpTx => s.back.sending.length
  | .mcore _ | .sawmill | .m0 | .sweep | .walker | .audit => 0

/-- Tags of the remainder in use. -/
def State.tagsShared (s : State) : Nat := (sharers.map fun h => s.tagsHeld h - tagFloor h).foldl (· + ·) 0

/-- A holder may take one more tag now (R495). -/
def State.tagFree (s : State) (h : TagHolder) : Bool :=
  decide (s.tagsHeld h < tagCap h) && (decide (s.tagsHeld h < tagFloor h) || decide (s.tagsShared < s.tagRemainder))

end Sys2Proof.Machine
end

