-- ==== Sys2Proof/Machine/Verieli.lean ====
section
/-! DEFINITION. The Verieli protocol (chapter 15): acceptance of requests, the busy rule, responses and event messages. -/

namespace Sys2Proof.Machine

/-! ## Status codes (Table 15.5) -/

def sOk : Nat := 0x00
def sUnknown : Nat := 0x01
def sMalformed : Nat := 0x02
def sNotPermitted : Nat := 0x03
def sState : Nat := 0x04
def sRange : Nat := 0x05
def sNotFound : Nat := 0x06
def sFull : Nat := 0x07
def sRefused : Nat := 0x08
def sUnwrap : Nat := 0x09
def sCheck : Nat := 0x0A
def sBusy : Nat := 0x0B
def sAborted : Nat := 0x0C
def sAccepted : Nat := 0x0D
def sFlash : Nat := 0x0E
def sExists : Nat := 0x0F

/-- The class of each opcode of Table 15.4; `none`: not in the table. -/
def cmdClass (op : Nat) : Option CmdClass :=
  if op ∈ [0x0101, 0x0102, 0x0103, 0x0108, 0x0301, 0x0302, 0x0303, 0x0306, 0x0401, 0x0402, 0x0403, 0x0404, 0x0405, 0x0501, 0x0502,
      0x0503, 0x0504, 0x0505, 0x0506, 0x0511, 0x0512, 0x0513, 0x0601, 0x0602, 0x0603, 0x0604, 0x0605, 0x0701, 0x0711, 0x0712, 0x0801,
      0x0802, 0x0803, 0x0804, 0x0805] then some .short
  else if op ∈ [0x0104, 0x0105, 0x0106, 0x0107, 0x0109, 0x010A, 0x010B, 0x0204, 0x0214, 0x0304, 0x0305] then some .device
  else if op ∈ [0x0203, 0x0213, 0x0702] then some .long
  else if op ∈ [0x0202, 0x0205, 0x0212, 0x0215] then some .flash
  else none

/-- Commands executed whatever operation runs (R436): IDENTITY-GET, SECURITY-STATUS, TIME-GET, EVENT-ACK, ZEROISE-ALL. -/
def alwaysRuns (op : Nat) : Bool := op == 0x0101 || op == 0x0102 || op == 0x0501 || op == 0x0804 || op == 0x010A

def State.mb (s : State) (m : Nat) : MboxSt := s.mbox.getD m {}

def State.setMb (s : State) (m : Nat) (b : MboxSt) : State := { s with mbox := s.mbox.set m b }

/-! ## Keys and flags of a mailbox -/

/-- MAILBOX.flags of the mailbox. -/
def State.mboxFlags (s : State) (m : Nat) : Nat := s.cfgN 0x12 m 1 1 0

/-- The mailbox authenticates (R432): in OPERATE by MAILBOX.flags bit 0 of instance 0 for M0, always for M1 to M7; in the
no-configuration condition M1 always, M0 when its key is installed; nowhere else. -/
def State.mboxAuth (s : State) (m : Nat) : Bool :=
  match s.life.mode with
  | .operate => if m = 0 then bitOf (s.mboxFlags 0) 0 else true
  | .noConfig => if m = 0 then (s.hw.mboxKeys.get 0).isSome else true
  | _ => false

/-- Encryption is required (MAILBOX.flags bit 1, R424). -/
def State.mboxEnc (s : State) (m : Nat) : Bool := s.operating && bitOf (s.mboxFlags m) 1

def State.vmac (s : State) (m : Nat) : List Nat := (s.slot (8 + 3 * m)).octets
def State.venc (s : State) (m : Nat) : List Nat := (s.slot (9 + 3 * m)).octets

/-- The first 12 octets of the counter block of R424. -/
def ctrPrefix (m dir : Nat) (seq : BitVec 64) : List Nat := [m, dir, 0, 0] ++ beOfNat 8 seq.toNat

/-- Encrypts or decrypts a payload (R424). -/
def State.cryptPayload (s : State) (m dir : Nat) (seq : BitVec 64) (p : Octets) : Octets :=
  natOcts (ctr (s.venc m) (ctrPrefix m dir seq) (octNats p))

/-- The mac over header and payload as sent, or zero octets where the mailbox does not authenticate (R424, R432). -/
def State.macOf (s : State) (m : Nat) (o : Octets) : Octets :=
  if s.mboxAuth m then natOcts (cmac (s.vmac m) (octNats o)) else List.replicate 16 0

/-! ## The part's own seq (R427) -/

/-- The next own seq of mailbox m: the ceiling is raised by 4 096 when the value reaches ceiling − 1 024.  While Heartwood is not open, and
in SECURITY-ERROR, which does not alter it (R349), nothing is reserved. -/
def State.takeSeq (s : State) (m : Nat) : BitVec 64 × State :=
  let b := s.mb m
  if !s.life.hwOpen || s.life.mode == .secError then (b.seq, s.setMb m { b with seq := b.seq + 1 }) else
  let ceil := if b.seq.toNat + 1024 ≥ b.ceiling.toNat then b.ceiling + 4096 else b.ceiling
  (b.seq, { s.setMb m { b with seq := b.seq + 1, ceiling := ceil } with hw := { s.hw with seqCeil := s.hw.seqCeil.set m ceil } })

/-! ## Building and committing messages -/

/-- Header of Table 15.1. -/
def msgHeader (m flags opcode : Nat) (seq ref : BitVec 64) (status len : Nat) : Octets :=
  [0x56, 0x45, 1] ++ toBe 1 m ++ toBe 1 flags ++ [0] ++ toBe 2 opcode ++ toBe 8 seq.toNat ++ toBe 8 ref.toNat ++ toBe 1 status ++
    [0, 0, 0] ++ toBe 4 len

/-- A whole message: header, payload (encrypted where `enc`), mac. -/
def State.message (s : State) (m flags opcode : Nat) (seq ref : BitVec 64) (status : Nat) (enc : Bool) (payload : Octets) : Octets :=
  let p := if enc then s.cryptPayload m 1 seq payload else payload
  let h := msgHeader m (flags + if enc then 4 else 0) opcode seq ref status payload.length ++ p
  h ++ s.macOf m h

/-- Octets of a message's frame up to the end of its IPv6 packet (R406): M0's messages have none. -/
def State.msgFrame (s : State) (m len : Nat) : Nat :=
  if m = 0 then len else 62 + len + (if bitOf (s.cfgN 0x15 0 (80 + 2 * s.mboxWorld m) 2 0) 15 then 4 else 0)

/-- Commits a message to Q396 + m; one that exceeds a datagram is posted to Sawmill (R429).  In Stump the ROM holds it, outside the
accounts.  A refused grant loses it; R428 still answers a repeated request (log entry 21). -/
def State.commitMsg (s : State) (m : Nat) (msg : Msg) (events : List (BitVec 32)) : State :=
  if s.life.mode = .stump then s.commitTo (orderKey (396 + m) 0) (accountOf (396 + m) 0) 0 (.message msg events)
  else if m != 0 && decide (msg.octets.length > s.cfgN 0x15 0 14 2 1500 - 48) then
    { s with back := { s.back with sends := s.back.sends ++ [(m, msg, events)] } }
  else match s.post (396 + m) 0 0 (s.msgFrame m msg.octets.length) (.message msg events) with
    | some t => t
    | none => s

/-- Answers request `r` of mailbox m (R424, R428, R440). -/
def State.respond (s : State) (m : Nat) (r : Request) (status : Nat) (payload : Octets) : State :=
  let q := s.takeSeq m
  let enc := s.mboxEnc m || r.enc
  let msg : Msg := { octets := q.2.message m 1 r.opcode q.1 r.seq status enc payload, dstAddr := r.srcAddr, dstPort := r.srcPort }
  let b := q.2.mb m
  let kept : List Sent := (b.last8 ++ [{ seq := r.seq, msg := msg }])
  ((q.2.setMb m { b with last8 := kept.drop (kept.length - 8) }).commitMsg m msg [])

/-! ## The busy rule (R434 to R437) -/

/-- The class of the oldest command of a mailbox that is running or waits and is not short. -/
def State.heavy (s : State) (m : Nat) : Option CmdClass :=
  match (s.mb m).busy with
  | some b => some b.cls
  | none =>
    (s.order (orderKey (388 + m) 0)).findSome? fun p => match p.content with
      | .request r => match cmdClass r.opcode with
        | some .short => none
        | c => c
      | _ => none

/-- Class `c` at another mailbox makes a request of class `cls` busy (R435). -/
def blocksOther (c cls : CmdClass) : Bool := c == .device || (c == .flash && cls == .flash)

/-- A mailbox's command that ended at or after instant `t` (R437). -/
def State.endedSince (s : State) (m t : Nat) : Option CmdClass :=
  match (s.mb m).ended with
  | some (c, k) => if t ≤ k then some c else none
  | none => none

/-- A request of class `cls` arriving at mailbox m at instant `t` is answered with S_BUSY. -/
def State.isBusy (s : State) (m : Nat) (cls : CmdClass) (t : Nat) : Bool :=
  (s.heavy m).isSome || (s.endedSince m t).isSome ||
  (List.range 8).any fun j => j != m &&
    (match s.heavy j with
      | some c => blocksOther c cls
      | none => false) ||
    (j != m && match s.endedSince j t with
      | some c => blocksOther c cls
      | none => false)

/-! ## Acceptance (R425) -/

/-- Whether bits above `128 − plen` of two addresses agree. -/
def prefixEq (plen : Nat) (a b : BitVec 128) : Bool := a.toNat >>> (128 - plen) == b.toNat >>> (128 - plen)

/-- Check 1: the source lies within the mailbox's host prefix; the no-configuration condition and Stump take any source (R422, R490). -/
def State.addrOk (s : State) (m : Nat) (src : BitVec 128) : Bool :=
  !s.operating || prefixEq (s.cfgN 0x12 m 4 1 0) src (BitVec.ofNat 128 (beNat (s.cfgO 0x12 m 8 16)))

/-- Check 2: the form of the header.  An encrypted message fails it where the mailbox does not authenticate (R432, R490); one that is
not encrypted fails it where encryption is required (log entry 22). -/
def State.formOk (s : State) (m : Nat) (o : Octets) : Bool :=
  let fl := beField o 4 1
  48 ≤ o.length && beField o 0 2 = 0x5645 && beField o 2 1 = 1 && beField o 3 1 = m && (fl = 0 || fl = 4) && beField o 5 1 = 0 &&
    beField o 25 3 = 0 && beField o 28 4 + 48 = o.length && (fl = 0 || s.mboxAuth m) && (fl = 4 || !s.mboxEnc m)

/-- Check 4: the replay window (R426). -/
def freshSeq (high bitmap : BitVec 64) (q : Nat) : Bool :=
  q != 0 && (decide (high.toNat < q) || (decide (high.toNat < q + 64) && !bitOf bitmap.toNat (high.toNat - q)))

/-- The window after accepting q: bit i of the bitmap stands for H − i. -/
def acceptSeq (high bitmap : BitVec 64) (q : Nat) : BitVec 64 × BitVec 64 :=
  if high.toNat < q then (BitVec.ofNat 64 q, (if q - high.toNat < 64 then bitmap <<< (q - high.toNat) else 0) ||| 1)
  else (high, bitmap ||| (1 <<< (high.toNat - q)))

/-- H and the bitmap, with their write-through (R426). -/
def State.spend (s : State) (m q : Nat) : State :=
  let b := s.mb m
  let w := acceptSeq b.high b.bitmap q
  { s.setMb m { b with high := w.1, bitmap := w.2 } with
    hw := { s.hw with replayHigh := s.hw.replayHigh.set m w.1, replayMap := s.hw.replayMap.set m w.2 } }

/-- The message after check 3. -/
def requestOf (s : State) (m : Nat) (d : Datagram) : Request :=
  let o := d.octets
  let enc := beField o 4 1 = 4
  let seq := BitVec.ofNat 64 (beField o 8 8)
  let p := sliceOct o 32 (o.length - 48)
  { opcode := beField o 6 2, seq := seq, enc := enc, srcAddr := d.srcAddr, srcPort := d.srcPort,
    payload := if enc then s.cryptPayload m 0 seq p else p }

/-- An accepted request: busy, unknown, or entered in Q388 + m (R433 to R437, R440). -/
def State.acceptRequest (s : State) (m : Nat) (r : Request) (arrival : Nat) : State :=
  let cls := (cmdClass r.opcode).getD .short
  if !alwaysRuns r.opcode && s.isBusy m cls arrival then (s.count .verieliBusy (.mbox m)).respond m r sBusy []
  else if (cmdClass r.opcode).isNone && s.life.mode != .stump then s.respond m r sUnknown []
  else if s.life.mode = .stump then s.commitTo (orderKey (388 + m) 0) (accountOf (388 + m) 0) 0 (.request r)
  else match s.post (388 + m) 0 0 (48 + r.payload.length) (.request r) with
    | some t => t
    | none => s

/-- A request examined in the order of Table 15.2; `window`: check 4 is applied. -/
def State.accept (s : State) (m : Nat) (d : Datagram) (arrival : Nat) : State :=
  let o := d.octets
  if m != 0 && !s.addrOk m d.srcAddr then s.count .verieliAddrRefused (.mbox m)
  else if !s.formOk m o then s.count .verieliMalformed (.mbox m)
  else if !s.mboxAuth m then s.acceptRequest m (requestOf s m d) arrival
  else if s.macOf m (o.take (o.length - 16)) ≠ o.drop (o.length - 16) then s.count .verieliAuthFail (.mbox m)
  else
    let q := beField o 8 8
    if freshSeq (s.mb m).high (s.mb m).bitmap q then (s.spend m q).acceptRequest m (requestOf s m d) arrival
    else match (s.mb m).last8.find? fun c => c.seq.toNat == q with
      | some c => (s.count .verieliResent (.mbox m)).commitMsg m { c.msg with dstAddr := d.srcAddr, dstPort := d.srcPort } []
      | none => s.count .verieliReplay (.mbox m)

/-! ## Execution -/

/-- The oldest accepted request of mailbox m, with the state in which its cells are released. -/
def State.nextRequest (s : State) (m : Nat) : Option (Request × State) :=
  match s.order (orderKey (388 + m) 0) with
  | p :: t => match p.content with
    | .request r => some (r, (s.setOrder (orderKey (388 + m) 0) t).releaseChain p.acct p.cells p.chain)
    | _ => none
  | [] => none

/-- Stump takes IDENTITY-GET, FW-SLOT-WRITE, FW-SLOT-CHECK and RESTART (R490). -/
def stumpTakes (op : Nat) : Bool := op == 0x0101 || op == 0x0212 || op == 0x0213 || op == 0x010B

/-- Commands of Table 2.13. -/
def provisionTakes (op : Nat) : Bool :=
  op ∈ [0x0101, 0x0103, 0x0105, 0x0106, 0x0202, 0x0203, 0x0104, 0x010A, 0x0107]

/-- Commands of R51. -/
def noConfigTakes (s : State) (m op : Nat) : Bool :=
  op ∈ [0x0101, 0x0102, 0x0103, 0x0501, 0x0804, 0x0805, 0x0801, 0x0802, 0x0202, 0x0203, 0x0212, 0x0213, 0x0214, 0x0215, 0x010A, 0x0108,
      0x0109, 0x010B] ||
  (m = 0 && !s.kcfgHeld && op ∈ [0x0105, 0x0106, 0x0104])

/-- The command is permitted in the present state (R441, R54, R350, R490, R28).  RETIRE-PREPARE and RETIRE are not permitted in PROVISION: R54 and
R441 leave them out of its list, though Table 2.2 names it (DESIGN CHOICE, log entry 79). -/
def State.stateTakes (s : State) (m op : Nat) : Bool :=
  match s.life.mode with
  | .operate => op != 0x0105 && op != 0x0106 && op != 0x0107 || (m = 0 && !s.kcfgHeld && op != 0x0107)
  | .noConfig => noConfigTakes s m op
  | .provision => m = 0 && provisionTakes op
  | .secError => m = 0 && (op = 0x0101 || op = 0x0102)
  | .retired => m = 0 && op = 0x0101
  | .stump => stumpTakes op
  | _ => false

/-- Commands permitted to mailboxes bound to W0 only, to M0 only, and to M1 to M7 only (Table 15.4). -/
def w0Only (op : Nat) : Bool :=
  op ∈ [0x0104, 0x0108, 0x0109, 0x010A, 0x010B, 0x0202, 0x0203, 0x0204, 0x0205, 0x0212, 0x0213, 0x0214, 0x0215, 0x0304, 0x0305, 0x0404,
      0x0405, 0x0502, 0x0503, 0x0504, 0x0505, 0x0506, 0x0601, 0x0602, 0x0603, 0x0604, 0x0702, 0x0711, 0x0712]

def State.permitted (s : State) (m op : Nat) : Bool :=
  (!w0Only op || (s.mb m).world = 0) && (!(op == 0x0105 || op == 0x0106 || op == 0x0107) || m == 0) && (op != 0x0805 || m != 0)

/-- Takes the oldest request of mailbox m where it is command `op`, answers it where the state or the mailbox does not permit it, and
hands it to `act` otherwise (R433, R441).  No command is executed during a forwarding pause (R20). -/
def State.hostCmd (s : State) (m op : Nat) (act : State → Request → State) : State :=
  match s.nextRequest m with
  | none => s
  | some (r, t) =>
    if r.opcode ≠ op ∨ s.inPause then s
    else if !alwaysRuns op && (s.mb m).busy.isSome then (t.count .verieliBusy (.mbox m)).respond m r sBusy []
    else if !t.stateTakes m op then t.respond m r sState []
    else if !t.permitted m op then t.respond m r sNotPermitted []
    else act t r

/-- A short command: its argument must have `len` octets (R440). -/
def State.shortCmd (s : State) (m op len : Nat) (act : State → Request → State) : State :=
  s.hostCmd m op fun s r => if r.payload.length ≠ len then s.respond m r sMalformed [] else act s r

/-- Begins a command of class L, F or D (R434): S_ACCEPTED now, `status` and `result` with the final response. -/
def State.begin (s : State) (m : Nat) (r : Request) (first : Octets) (status : Nat) (result : Octets) : State :=
  let s := s.respond m r sAccepted first
  let cls := (cmdClass r.opcode).getD .long
  s.setMb m { s.mb m with busy := some { req := r, cls := cls, status := status, result := result } }

/-- Ends the mailbox's busy command (R434, R437). -/
def State.finish (s : State) (m : Nat) (b : Busy) (status : Nat) (result : Octets) : State :=
  let s := s.setMb m { s.mb m with busy := none, ended := some (b.cls, s.clk) }
  s.respond m b.req status result

/-! ## Event messages (R446) -/

/-- The record of Table 15.7. -/
def eventRecord (r : RingEvent) : Octets :=
  toBe 4 r.seq.toNat ++ toBe 2 r.ev.code.toNat ++ toBe 1 (r.ev.world.getD 0xFF) ++ toBe 1 (if r.lost then 1 else 0) ++
    toBe 6 (r.ev.sec.toNat % 2 ^ 48) ++ toBe 4 r.ev.ns.toNat ++ [0, 0] ++ r.ev.data

/-- Builds and commits one event message of up to 16 of the events `l`. -/
def State.sendEvents (s : State) (m : Nat) (l : List RingEvent) (addr : BitVec 128) (port : BitVec 16) : State :=
  let now := l.take 16
  let q := s.takeSeq m
  let b := q.2.mb m
  let marked := match now with
    | r :: t => { r with lost := r.lost || b.lostFlag } :: t
    | [] => []
  let msg : Msg := { octets := q.2.message m 2 0 q.1 0 0 (s.mboxEnc m) (marked.flatMap eventRecord), dstAddr := addr, dstPort := port }
  let seqs := now.map fun r => r.seq
  let ring := b.ring.map fun r => if seqs.contains r.seq then { r with sent := true } else r
  (q.2.setMb m { b with ring := ring, lostFlag := false, lastSend := s.clk }).commitMsg m msg seqs

end Sys2Proof.Machine
end

