-- ==== Sys2Proof/Machine/PortOps.lean ====
section
/-! DEFINITION. The backhaul ports, PRP, the egress scheduler and Sawmill's segments (chapter 14), as operations on the state. -/

namespace Sys2Proof.Machine

/-! ## BACKHAUL (Table 14.8) -/

def State.portMode (s : State) (p : Port) : Nat := s.cfgN 0x15 0 (portCode p) 1 1
def State.bhFlags (s : State) : Nat := s.cfgN 0x15 0 2 1 7
def State.supLsb (s : State) : Nat := s.cfgN 0x15 0 3 1 0
def State.mtu (s : State) : Nat := s.cfgN 0x15 0 14 2 1500
def State.pauseWdMs (s : State) : Nat := s.cfgN 0x15 0 44 2 50
def State.lpiIdleUs (s : State) : Nat := s.cfgN 0x15 0 46 2 100
def State.downThr (s : State) : Nat := s.cfgN 0x15 0 48 2 250
def State.upThr (s : State) : Nat := s.cfgN 0x15 0 50 2 700
def State.stepTimeoutMs (s : State) : Nat := s.cfgN 0x15 0 52 2 5000
def State.minSpeed (s : State) : Nat := s.cfgN 0x15 0 54 1 1
def State.lagMaxMs (s : State) : Nat := s.cfgN 0x15 0 55 1 20
def State.pathFaultPm (s : State) : Nat := s.cfgN 0x15 0 56 2 50
def State.pathMinFrames (s : State) : Nat := s.cfgN 0x15 0 58 2 16
def State.worldVlan (s : State) (w : Nat) : Nat := s.cfgN 0x15 0 (80 + 2 * w) 2 0
def State.worldWeight (s : State) (w : Nat) : Nat := s.cfgN 0x15 0 (96 + w) 1 1

def State.ptpUdp (s : State) : Bool := s.cfgN 0x15 0 60 1 0 == 1
def State.txLatNs (s : State) (p : Port) : Nat := s.cfgN 0x15 0 (64 + 4 * portCode p) 2 0
def State.rxLatNs (s : State) (p : Port) : Nat := s.cfgN 0x15 0 (66 + 4 * portCode p) 2 0
def State.asymNs (s : State) : Int := s.cfgI 0x15 0 72 4 0

/-- A world's frames carry a VLAN tag (R407). -/
def State.tagged (s : State) (w : Nat) : Bool := bitOf (s.worldVlan w) 15

/-- The MAC address: BACKHAUL.mac_addr, or octets 0 to 2 and 5 to 7 of the EUI-64 where no record is applied (R422). -/
def State.macAddr (s : State) : Nat :=
  match s.cfg 0x15 0 with
  | some p => beNat (sliceOct p 16 6)
  | none => s.id.eui64.toNat / 2 ^ 40 * 2 ^ 24 + s.id.eui64.toNat % 2 ^ 24

/-- Interface identifier of a 48-bit address (RFC 4291, R391). -/
def ifaceOf (mac : Nat) : Nat := ((mac / 2 ^ 24) ^^^ 0x020000) * 2 ^ 40 + 0xFFFE * 2 ^ 24 + mac % 2 ^ 24

/-- The part's link-local address. -/
def State.linkLocal (s : State) : Nat := 0xFE80 * 2 ^ 112 + ifaceOf s.macAddr

/-- BACKHAUL.ipv6_addr; none without a record. -/
def State.globalAddr (s : State) : Option Nat := (s.cfg 0x15 0).map fun p => beNat (sliceOct p 28 16)

/-- The part's addresses. -/
def State.ownAddrs (s : State) : List Nat := s.linkLocal :: s.globalAddr.toList

/-! ## Port state -/

def State.port (s : State) (p : Port) : PortSt := s.back.port.get p

def State.setPort (s : State) (p : Port) (x : PortSt) : State :=
  { s with back := { s.back with port := s.back.port.set p x } }

def otherPort : Port → Port
  | .p0 => .p1
  | .p1 => .p0

/-- The conditions in which the ports run at all (R389, R537). -/
def State.portsRun (s : State) : Bool := s.life.mode = .operate || s.life.mode = .noConfig || s.life.mode = .stump

/-- A port is usable (R402). -/
def State.usable (s : State) (p : Port) : Bool := (s.port p).up && (s.port p).change.isNone && !(s.port p).out

def State.paused (s : State) (p : Port) : Bool :=
  match (s.port p).pauseEnd with
  | some e => decide (s.clk < e)
  | none => false

/-- Mb/s of a speed code. -/
def speedMb (v : Speed) : Nat := if v = 0 then 2500 else if v = 1 then 1000 else 100

/-- Ticks that so many octets take at a speed. -/
def octetTicks (v : Speed) (n : Nat) : Nat := ceilDiv (n * (if v = 0 then 4 else if v = 1 then 10 else 100)) 5

/-- Ticks a frame of a size takes on the wire: 8 octets of preamble and SFD and 12 of gap are added. -/
def wireTicks (v : Speed) (size : Nat) : Nat := octetTicks v (size + 20)

/-- The speed a port starts at in its mode (Table 14.1). -/
def modeSpeed (mode : Nat) : Speed := if mode = 2 then 0 else 1

/-- The lower speed of a mode (Table 14.4). -/
def stepDownSpeed (mode : Nat) : Option Speed := if mode = 2 then some 1 else if mode = 0 then some 2 else none

/-! ## The filter (R391) -/

def State.macAccepted (s : State) (d : Nat) : Bool :=
  d == s.macAddr || d == 0xFFFFFFFFFFFF || d == 0x333300000001 ||
  s.ownAddrs.any (fun a => d == 0x3333FF000000 + a % 2 ^ 24) ||
  d == 0x011B19000000 || d == 0x0180C200000E || d == 0x01154E000100 + s.supLsb

def etherAccepted (t : BitVec 16) : Bool := t == 0x86DD || t == 0x88F7 || t == 0x88FB || t == 0x8808

def State.ethAccepted (s : State) (h : EthHdr) : Bool := s.macAccepted h.dstMac.toNat && etherAccepted h.ethertype

/-- A destination address is the part's own, or a multicast it belongs to (R391). -/
def State.addressedToPart (s : State) (dst : BitVec 128) : Bool :=
  let d := dst.toNat
  s.ownAddrs.any (fun a => d == a) || d == 0xFF02 * 2 ^ 112 + 1 || d == 0xFF02 * 2 ^ 112 + 2 ||
  s.ownAddrs.any (fun a => d == 0xFF02 * 2 ^ 112 + 2 ^ 32 + 0xFF000000 + a % 2 ^ 24) ||
  d == 0xFF0E * 2 ^ 112 + 0x181 || d == 0xFF02 * 2 ^ 112 + 0x6B

/-! ## Reception into cells (R395) -/

def q387 : Nat := accountOf 387 0

/-- Rewinds the frame a port is receiving. -/
def State.rewindPort (s : State) (p : Port) (ignore : Bool) : State :=
  let x := s.port p
  ((s.setPort p { x with rxCells := 0, rxChain := [], rxIgnore := ignore }).releaseChain q387 x.rxCells x.rxChain).leaveStaging (.port (portCode p)) x.rxCells

/-- Requests `n` more cells for the frame a port is receiving, one at a time; a refusal rewinds it. -/
def State.portCells (s : State) (p : Port) : Nat → State
  | 0 => s
  | n + 1 =>
    match s.grant q387 1 with
    | some t =>
      (t.picked.setPort p { t.port p with
        rxCells := (t.port p).rxCells + 1
        rxChain := (t.port p).rxChain ++ t.drawCells 1 [] }).portCells p n
    | none => (s.rewindPort p true).count .cellsExhaustedEth (.port (portCode p))

/-! ## The duplicate-discard table (R400) -/

/-- Arrival timestamp of a frame that ends now: the start of its first octet, at 4 ns resolution (R398). -/
def State.arrivalOf (s : State) (p : Port) (size : Nat) : Nat :=
  let n := s.netNs - 4 * octetTicks (s.port p).speed size
  n - n % 4

def prpHold : Nat := 400000000

/-- Removes entries that have expired by network time `now`, entering them in the counts of the path window (R404). -/
def State.prpExpire (s : State) (now : Nat) : State :=
  let gone := s.back.dups.filter fun e => decide (e.arrival + prpHold < now)
  let kept := s.back.dups.filter fun e => !decide (e.arrival + prpHold < now)
  let tally := fun (s : State) (e : PrpEntry) =>
    let x : Port := if e.port = 0 then .p0 else .p1
    let y := otherPort x
    let s := s.setPort x { s.port x with firsts := (s.port x).firsts + 1 }
    if e.twin then s
    else (s.setPort y { s.port y with missed := (s.port y).missed + 1 }).count .pathMiss (.port (portCode y))
  gone.foldl tally { s with back := { s.back with dups := kept } }

/-- The test of R400: `true`, a duplicate; otherwise an entry is made. -/
def State.prpJudge (s : State) (p : Port) (src : BitVec 48) (seq : BitVec 16) (arrival : Nat) : Bool × State :=
  let s := s.prpExpire arrival
  let hit := fun (e : PrpEntry) => e.source == src && e.seq == seq
  if s.back.dups.any hit then
    (true, { s with back := { s.back with dups := s.back.dups.map fun e => if hit e then { e with twin := true } else e } }.count
      .prpDupDiscard (.port (portCode p)))
  else
    let full := decide (s.back.dups.length ≥ 2048)
    let rest := if full then s.back.dups.drop 1 else s.back.dups
    let t := { s with back := { s.back with
      dups := rest ++ [{ source := src, seq := seq, port := portCode p, arrival := arrival, twin := false }] } }
    (false, if full then t.count .prpDupEvict (.port (portCode p)) else t)

/-- A supervision source is heard on a port; at most 64 are kept (R401). -/
def State.heardSource (s : State) (p : Port) (src : BitVec 48) : State :=
  let mark := fun (x : SupSource) => match p with
    | .p0 => { x with p0 := some s.clk }
    | .p1 => { x with p1 := some s.clk }
  let l := s.back.sources
  let l' := if l.any (fun x => x.source == src) then l.map (fun x => if x.source = src then mark x else x)
    else if l.length < 64 then l ++ [mark { source := src, p0 := none, p1 := none }] else l
  { s with back := { s.back with sources := l' } }

/-! ## Pause (R408, R409) -/

/-- Ticks of so many pause quanta of 512 bit times at a speed. -/
def quantaTicks (v : Speed) (q : Nat) : Nat := octetTicks v (64 * q)

/-- A received PAUSE frame of `q` quanta. -/
def State.takePause (s : State) (p : Port) (q : Nat) : State :=
  let x := s.port p
  if !bitOf s.bhFlags 1 then s
  else match x.pauseIgnored with
    | some k =>
      if s.clk < k + secTicks 1 then s.setPort p { x with pauseIgnored := some s.clk }
      else if q = 0 then s.setPort p { x with pauseIgnored := none }
      else s.setPort p { x with pauseIgnored := none, pauseEnd := some (s.clk + quantaTicks x.speed q), pauseStart := s.clk }
    | none =>
      if q = 0 then s.setPort p { x with pauseEnd := none }
      else s.setPort p { x with
        pauseEnd := some (s.clk + quantaTicks x.speed q), pauseStart := if s.paused p then x.pauseStart else s.clk }

/-! ## Copies on the ports (R402) -/

/-- A send whose copies have all left, or were skipped or dropped: its cells are released (R242). -/
def State.closeSends (s : State) : State :=
  let held := fun (n : Nat) => (s.port .p0).copies.any (fun c => c.send == n) || (s.port .p1).copies.any (fun c => c.send == n)
  let done := s.back.sending.filter fun x => !held x.send
  let rest := s.back.sending.filter fun x => held x.send
  done.foldl (fun s x => match x.packet with
    | some p => s.releaseChain p.acct p.cells p.chain
    | none => s) { s with back := { s.back with sending := rest } }

/-- ns from the first octet of a frame's preamble to the first symbol after its SFD. -/
def preambleNs (v : Speed) : Nat := if v = 0 then 25 else if v = 1 then 64 else 640

/-- A Delay_Req begins to leave port p at tick `start`: t3 of its reference plane (R182, R417). -/
def State.stampSent (s : State) (p : Port) (seq : BitVec 16) (start : Nat) : State :=
  let t := s.netNs - 4 * (s.clk - start) + preambleNs (s.port p).speed
  let x := s.port p
  s.setPort p { x with ptp := { x.ptp with up := some (seq, ((t - t % 4 + s.txLatNs p : Nat) : Int)), answer := none } }

/-- Runs a port's copies up to the present tick: a copy begins when the transmitter is free, not paused and usable; it leaves after its
time on the wire; a copy that has waited more than lag_max_ms since the other port's copy began is skipped. -/
def State.runPort (s : State) (p : Port) : Nat → State
  | 0 => s
  | n + 1 =>
    let x := s.port p
    match x.copies with
    | [] => s
    | c :: rest =>
      match c.began with
      | some b =>
        let e := b + wireTicks x.speed c.size
        if e ≤ s.clk then (s.setPort p { x with copies := rest, idleClk := e }).runPort p n else s
      | none =>
        let snd := s.back.sending.find? fun y => y.send == c.send
        let chosen := match snd with
          | some y => y.chosen
          | none => 0
        let first := match snd with
          | some y => y.first
          | none => none
        let start := max (max x.idleClk chosen) (x.pauseEnd.getD 0)
        let late := match first with
          | some f => decide (f + msTicks s.lagMaxMs < s.clk) && (decide (f + msTicks s.lagMaxMs < start) || !s.usable p)
          | none => false
        if late then
          let want := !s.paused p && decide (x.speed > modeSpeed (s.portMode p))
          ((s.setPort p { x with copies := rest, wantUp := x.wantUp || want }).count .prpCopySkipped (.port (portCode p))).runPort p n
        else if s.usable p && decide (start ≤ s.clk) then
          let mark := fun (y : Sending) => if y.send = c.send ∧ y.first = none then { y with first := some start } else y
          let s := s.setPort p { x with copies := { c with began := some start } :: rest }
          let s := { s with back := { s.back with sending := s.back.sending.map mark } }
          let s := match c.ptp with
            | some q => s.stampSent p q start
            | none => s
          s.runPort p n
        else s

/-- Both ports run up to the present tick, and the cells of sends that have left are released. -/
def State.runPorts (s : State) : State :=
  if s.back.sending.isEmpty then s
  else
    let s := s.runPort .p0 (2 * (s.port .p0).copies.length)
    (s.runPort .p1 (2 * (s.port .p1).copies.length)).closeSends

/-- Size on the wire of a frame whose octets up to the end of its packet are `n`: padding, trailer and FCS (R393). -/
def wireSize (n : Nat) : Nat := max 70 (n + 10)

/-- Makes a copy of a frame for each usable port, with the next SequenceNr (R397, R402). -/
def State.sendFrame (s : State) (packet : Option Packet) (size : Nat) : State :=
  let k := s.back.nextSend
  let put := fun (s : State) (p : Port) =>
    if s.usable p then
      let x := s.port p
      let wake := if x.lpi then (if x.speed = 2 then 7500 else 4125) else 0
      s.setPort p { x with
        copies := x.copies ++ [{ send := k, size := size, began := none }], lpi := false
        idleClk := if x.lpi then max x.idleClk (s.clk + wake) else x.idleClk }
    else s
  let s := { s with back := { s.back with
    prpSeq := s.back.prpSeq + 1, nextSend := k + 1
    sending := s.back.sending ++ [{ send := k, packet := packet, chosen := s.clk, first := none }] } }
  ((put (put s .p0) .p1).runPorts)

/-- Size on the wire of a Delay_Req, without a trailer: over Ethernet, or over UDP and IPv6 with the two octets of Annex E (R393, R417). -/
def State.delayReqSize (s : State) : Nat := if s.ptpUdp then 112 else 64

/-- Sends the Delay_Req that waits on port p, on that port only (R418). -/
def State.sendDelayReq (s : State) (p : Port) : State :=
  let k := s.back.nextSend
  let x := s.port p
  let wake := if x.lpi then (if x.speed = 2 then 7500 else 4125) else 0
  let s := { s with back := { s.back with
    nextSend := k + 1, sending := s.back.sending ++ [({ send := k, packet := none, chosen := s.clk, first := none } : Sending)] } }
  (s.setPort p { x with
    copies := x.copies ++ [({ send := k, size := s.delayReqSize, began := none, ptp := some x.ptp.seq } : Copy)], lpi := false
    idleClk := if x.lpi then max x.idleClk (s.clk + wake) else x.idleClk
    ptp := { x.ptp with seq := x.ptp.seq + 1, due := false } }).runPorts

/-- A Delay_Req waits on a port that can take it now (R406, step 1). -/
def State.delayReqPort (s : State) : Option Port :=
  if !s.tagFree .prpTx then none else [Port.p0, Port.p1].find? fun p => (s.port p).ptp.due && s.usable p && (s.port p).copies.isEmpty && !s.paused p

/-! ## Egress order (R406) -/

/-- Octets of the frame of a packet of an upstream or message queue up to the end of its IPv6 packet. -/
def State.frameOctets (s : State) (q : Nat) (c : Content) : Nat :=
  match c with
  | .up w _ ip _ => 14 + (if s.tagged w then 4 else 0) + ip.length
  | .message m _ => s.msgFrame (q - 396) m.octets.length
  | _ => 0

/-- Highest non-empty priority queue of a world: its key (R406). -/
def State.upHead (s : State) (w : Nat) : Option Nat :=
  ([7, 6, 5, 4, 3, 2, 1, 0].map fun p => 320 + 8 * w + p).find? fun q => !(s.order (orderKey q 0)).isEmpty

/-- Discards expired packets at the heads of the upstream and message queues (R248). -/
def State.expireEgress (s : State) : State :=
  ((List.range 64).map (fun i => 320 + i) ++ [397, 398, 399, 400, 401, 402, 403]).foldl
    (fun s q => s.expireHead (orderKey q 0) (s.order (orderKey q 0)).length) s

def State.setDeficit (s : State) (w n : Nat) : State :=
  { s with back := { s.back with deficit := s.back.deficit.set w n } }

/-- Deficit round robin: the queue of the next upstream frame, and the state with its deficit taken (R406).  `n` bounds the visits. -/
def State.drr (s : State) : Nat → Option (Nat × State)
  | 0 => none
  | n + 1 =>
    let w := s.back.turn
    let next := fun (s : State) => { s with back := { s.back with turn := (w + 1) % 8, granted := false } }
    match s.upHead w with
    | none => (next (s.setDeficit w 0)).drr n
    | some q =>
      match s.order (orderKey q 0) with
      | [] => (next s).drr n
      | p :: _ =>
        let size := wireSize (s.frameOctets q p.content)
        let d := s.back.deficit.getD w 0 + (if s.back.granted then 0 else 1518 * s.worldWeight w)
        if size ≤ d then
          let s := { s.setDeficit w (d - size) with back := { (s.setDeficit w (d - size)).back with granted := true } }
          some (q, s)
        else (next (s.setDeficit w d)).drr n

/-- A usable port's transmitter can take a frame, and the PRP transmitter a tag for it (R495). -/
def State.egressReady (s : State) : Bool :=
  s.tagFree .prpTx && [Port.p0, Port.p1].any fun p => s.usable p && (s.port p).copies.isEmpty && !s.paused p

/-- The next hop is known: message frames for link-local hosts and everything else go by the router (R391). -/
def State.routerKnown (s : State) : Bool :=
  beNat (s.cfgO 0x15 0 22 6) != 0 || s.back.router.isSome

/-- Message queues with a frame, whose next hop is known (R406, step 3). -/
def State.msgHead (s : State) : Option Nat :=
  [397, 398, 399, 400, 401, 402, 403].find? fun q =>
    match s.order (orderKey q 0) with
    | p :: _ => match p.content with
      | .message m _ => s.routerKnown || decide (m.dstAddr.toNat / 2 ^ 118 = 0x3FA)
      | _ => false
    | [] => false

/-- Takes the head of a queue and sends it. -/
def State.sendHead (s : State) (q : Nat) : State :=
  match s.order (orderKey q 0) with
  | p :: t => (s.setOrder (orderKey q 0) t).sendFrame (some p) (wireSize (s.frameOctets q p.content))
  | [] => s

/-- The egress scheduler chooses the next frame (R406). -/
def State.egress (s : State) : State :=
  if !s.portsRun || !s.egressReady then s
  else
    let s := s.expireEgress
    match s.delayReqPort, s.msgHead with
    | some p, _ => s.sendDelayReq p
    | none, some q => s.sendHead q
    | none, none =>
      if !s.routerKnown then s
      else match s.drr 64 with
        | some (q, t) =>
          let w := t.back.turn
          let t := t.sendHead q
          if (t.upHead w).isNone then t.setDeficit w 0 else t
        | none => s

/-! ## Sawmill (R415, R416, R429) -/

/-- The payload of a send cut into pieces of `n` octets. -/
def chunks (n : Nat) : Nat → Octets → List Octets
  | 0, _ => []
  | k + 1, o => if o.isEmpty then [] else o.take n :: chunks n k (o.drop n)

/-- Segment payload octets S for an mtu and segment header of h octets. -/
def segmentOctets (mtu h : Nat) : Nat := (mtu - 48 - h) / 8 * 8

/-- Cuts the oldest posted send and commits its segments together; a refused request refuses the send whole (R416). -/
def State.sawmill (s : State) : State :=
  match s.back.sends with
  | [] => s
  | (m, msg, events) :: rest =>
    let s := { s with back := { s.back with sends := rest, sendId := s.back.sendId + 1 } }
    let size := segmentOctets s.mtu 8
    let parts := chunks size (ceilDiv msg.octets.length size) msg.octets
    let sid : BitVec 16 := s.back.sendId - 1
    let segs := (List.range parts.length).zip parts |>.map fun p =>
      toBe 2 sid.toNat ++ toBe 2 p.1 ++ toBe 2 parts.length ++ [0, 0] ++ p.2
    let q := 396 + m
    let acct := accountOf q 0
    let cellsEach := segs.map fun o => cellsOf (s.msgFrame m o.length)
    match s.grant acct (cellsEach.foldl (· + ·) 0) with
    | none => s.count .usSendRefused .device
    | some t =>
      (segs.zip cellsEach).foldl (fun t p => t.commitTo (orderKey q 0) acct p.2 (.message { msg with octets := p.1 } events)) t

/-! ## Paths and speeds -/

/-- Raises PATH_FAULT (R404). -/
def State.enterPathFault (s : State) (p : Port) (cause : Nat) : State :=
  let x := s.port p
  if x.pathFault then s
  else (s.setPort p { x with pathFault := true, faultCause := cause, goodWindows := 0 }).raise 0x0E03 none
    (toBe 1 (portCode p) ++ toBe 1 cause)

/-- Judges one port at the close of a window (R404, R405). -/
def State.judgePath (s : State) (y : Port) : State :=
  let x := otherPort y
  let f := (s.port x).firsts
  let m := (s.port y).missed
  let many := decide (f ≥ s.pathMinFrames)
  let bad := many && decide (1000 * m ≥ s.pathFaultPm * f)
  let good := many && decide (1000 * m < s.pathFaultPm * f)
  let v := s.port y
  let s := s.setPort y { v with
    badWindows := if bad then v.badWindows + 1 else 0, goodWindows := if good then v.goodWindows + 1 else 0 }
  if bad && decide (v.badWindows + 1 ≥ 2) then s.enterPathFault y 1
  else if v.pathFault && v.up && good && decide (v.goodWindows + 1 ≥ 2) then
    (s.setPort y { s.port y with pathFault := false, settledClk := s.clk }).raise 0x0E04 none
      (toBe 1 (portCode y) ++ toBe 1 v.faultCause)
  else s

/-- A 500 ms window closes. -/
def State.pathWindow (s : State) : State :=
  let s := s.prpExpire s.netNs
  let void := (s.port .p0).void || (s.port .p1).void
  let s := if void then s else (s.judgePath .p0).judgePath .p1
  let clear := fun (s : State) (p : Port) => s.setPort p { s.port p with
    firsts := 0, missed := 0, void := (s.port p).change.isSome }
  let s := clear (clear s .p0) .p1
  { s with back := { s.back with windowClk := s.clk } }

/-- The conditions on the other port for a change of port y (R411): `total` is the load of both ports in kb/s. -/
def State.mayChange (s : State) (y : Port) : Bool :=
  let x := s.port (otherPort y)
  s.usable (otherPort y) && !x.pathFault && decide (x.settledClk + secTicks 5 ≤ s.clk) && (s.port y).change.isNone &&
  (match x.changedClk with
    | some k => decide (k + secTicks 5 ≤ s.clk)
    | none => true) &&
  decide ((s.port .p0).load + (s.port .p1).load ≤ speedMb x.speed * 1000)

/-- Begins a speed change (Table 14.5). -/
def State.beginChange (s : State) (y : Port) (target : Speed) : State :=
  let x := s.port y
  s.setPort y { x with
    change := some { source := x.speed, target := target, start := s.clk, returning := false }, void := true, wantUp := false, lowSecs := 0 }

/-- Load in permille of a speed of `octets` in a second. -/
def loadPm (v : Speed) (octets : Nat) : Nat := octets * 8 / (speedMb v * 1000)

/-- Enters one port's load of the last second: octets received and sent (R411, R413). -/
def State.enterLoad (s : State) (y : Port) (rx tx : Nat) : State :=
  let x := s.port y
  let o := max rx tx
  let low := match stepDownSpeed (s.portMode y) with
    | some v => decide (loadPm v o < s.downThr)
    | none => false
  s.setPort y { x with
    load := o * 8 / 1000, lowSecs := if low then x.lowSecs + 1 else 0
    wantUp := x.wantUp || (decide (x.speed > modeSpeed (s.portMode y)) && decide (loadPm x.speed o > s.upThr)) }

/-- Decides a step of one port (R411, R413). -/
def State.decideStep (s : State) (y : Port) : State :=
  let x := s.port y
  let top := modeSpeed (s.portMode y)
  if !x.up || !s.mayChange y then s
  else if x.speed > top then (if x.wantUp then s.beginChange y top else s)
  else match stepDownSpeed (s.portMode y) with
    | some v =>
      if bitOf s.bhFlags 2 && !x.noStepDown && decide (x.lowSecs ≥ 10) && decide (v ≤ s.minSpeed) then s.beginChange y v else s
    | none => s

/-- Begins to establish both links (R537) with the SerDes settings of the image or those journalled (R390). -/
def State.beginPorts (s : State) : State :=
  let one := fun (s : State) (p : Port) =>
    let dflt : Octets := [8, 2, 0, 0]
    let set := match s.cfg 0x15 0 with
      | some r => sliceOct r (4 + 4 * portCode p) 4
      | none => (s.hw.serdes.get (portCode p)).getD dflt
    let s := s.setPort p { serdes := set, beginClk := some s.clk, speed := modeSpeed (s.portMode p) }
    if (s.cfg 0x15 0).isSome then { s with hw := { s.hw with serdes := s.hw.serdes.set (portCode p) set } } else s
  one (one s .p0) .p1

end Sys2Proof.Machine
end

