-- ==== Sys2Proof/Machine/LaneOps.lean ====
section
/-! DEFINITION. Operations on the lanes and the decoder pool (chapter 5). -/

namespace Sys2Proof.Machine

/-- The radio runs: an image is applied and radio on has been made (R29).  The hardware goes on through a forwarding pause (R20). -/
def State.radio (s : State) : Bool := s.operating && s.life.radioOn

/-- Samples of a front end reach its lanes. -/
def State.hears (s : State) (f : Fe) : Bool := s.radio && (s.feMode f == .rx || s.feMode f == .tx) && !s.blanked f

/-- The front end and channel of an assigned lane that hunts. -/
def State.laneOn (s : State) (l : Nat) : Option (Fe × Nat) :=
  match (s.lane l).assigned with
  | some (c, k) => match feOf c with
    | some f => if s.laneUsable l then some (f, k) else none
    | none => none
  | none => none

/-- The front end and channel of an assigned lane, its domain stopping or not. -/
def State.laneAt (s : State) (l : Nat) : Option (Fe × Nat) :=
  match (s.lane l).assigned with
  | some (c, k) => (feOf c).map fun f => (f, k)
  | none => none

/-! ## Sensing and the lanes (R156) -/

/-- A detection or a frame past its PHY header on a channel makes a sensing interval of that channel busy. -/
def State.markBusy (s : State) (f : Fe) (k : Nat) : State :=
  let x := s.feSt f
  match x.attempt with
  | some a => if a.phase = .sensing ∧ a.channel = k then s.setFe f { x with attempt := some { a with refused := true } } else s
  | none => s

/-- A lane of the channel holds a detection or a frame past its PHY header. -/
def State.channelBusy (s : State) (f : Fe) (k : Nat) : Bool :=
  (s.lanesOn f).any fun l => (s.lane l).assigned == some (feCode f, k) && (match (s.laneNow l).phase with
    | .detect _ _ _ => true
    | .frame _ _ => true
    | _ => false)

/-! ## Preambles (Table 5.2) -/

/-- Modes a preamble can lead to on a front end, by its SFD and by its sync word. -/
def preambleModes (f : Fe) (p : Preamble) (sync : Bool) : List Nat :=
  match p, sync with
  | .fsk50, false => if f = .h then [] else [0]
  | .fskOuter, false => if f = .h then [] else [2]
  | .fskInner, false => if f = .h then [] else [1]
  | .fskInner, true => if f = .h then [] else [4, 5]
  | .hs, true => [6]
  | .oqpsk, false => if f = .h then [3] else []
  | .fsk500, true => if f = .h then [4, 5] else []
  | _, _ => []

/-- The least preamble a lane detects, in symbols or in units of 16 chips for HS (Table 5.3, R88, R91); one shorter is not detected (DEDUCED, log
entry 75). -/
def leastPreamble : Preamble → Nat
  | .hs => 16
  | .oqpsk => 8
  | _ => 32

/-- What the delimiter after a preamble is: false the configured SFD, true the Helec sync word, in HS spread into chips (R88, R89, R91); `none`:
neither, and the hunt goes on. -/
def State.delimiter (s : State) (f : Fe) (p : Preamble) (word : BitVec 32) : Option Bool :=
  let w := word.toNat
  match p with
  | .oqpsk => if w = 0xA7 then some false else none
  | .hs | .fsk500 => if w = helecSync then some true else none
  | _ => if w = helecSync then some true else if w = sunSfdWord (s.sunSfd f) then some false else none

/-- The front end hunts for a mode of the preamble with this delimiter (R121). -/
def State.hunts (s : State) (f : Fe) (p : Preamble) (sync : Bool) : Bool := (preambleModes f p sync).any fun m => s.modeOn f m

/-- A port serves detection and reception: fitted, and not shut out by a forced port (R124). -/
def State.portHears (s : State) (f : Fe) (port : Nat) : Bool :=
  s.portFitted f port && (s.diversity = 0 || s.diversity = port + 1)

/-- The aerial a lane chooses (R124, R125), and its metric. -/
def State.chooseAerial (s : State) (f : Fe) (a b : PortMetric) : Nat × Nat × BitVec 9 :=
  let ma := portMetric a.s a.e
  let mb := portMetric b.s b.e
  if s.portHears f 0 && (!s.portHears f 1 || decide (mb ≤ ma)) then (0, ma, a.level) else (1, mb, b.level)

/-- Pilot tracking replaces the frozen estimate (R107). -/
def State.tracking (s : State) (f : Fe) : Bool :=
  decide (s.clk < s.canopy.radioClk + secTicks 120) || (s.feSt f).rfTest.isSome || decide (s.clk < (s.feSt f).trackUntil)

/-- A carrier offset within ±60 ppm of the channel frequency (R126). -/
def pullsIn (hz : Nat) (offset8 : Int) : Bool := decide (offset8.natAbs * 8 * 1000000 ≤ 60 * hz)

/-! ## Headers -/

/-- What a header gives: the counter of its rejection, or the frame it announces. -/
inductive HdrResult where
  | reject (c : Ctr)
  | frame (mode rate : Nat) (cwlen pilots fcs2 whitening : Bool) (length : Nat)
  deriving DecidableEq, Repr

/-- Bits `lo` to `lo + n − 1` of a number. -/
def bitsOf (v lo n : Nat) : Nat := (v >>> lo) % 2 ^ n

/-- Checks of a Helec header after Golay decoding (R94, R108); where the mode is not enabled and the length is wrong too, the mode's counter alone
advances (DESIGN CHOICE, log entry 76: R94 ranks neither). -/
def State.helecChecks (s : State) (f : Fe) (v : Nat) : HdrResult :=
  let mode := bitsOf v 2 2
  let rate := bitsOf v 4 2
  let fcs2 := bitOf v 7
  let length := bitsOf v 9 12
  if helecCrc (v % 2 ^ 28) ≠ bitsOf v 28 8 ∨ bitsOf v 0 2 ≠ 0 ∨ mode = 3 ∨ rate = 3 ∨ (mode = 2 ∧ rate ≠ 0) ∨ bitsOf v 21 7 ≠ 0 then .reject .rxHdrBad
  else if !s.modeOn f (4 + mode) then .reject .rxModeDisabled
  else if length < minPsdu fcs2 then .reject .rxLenShort
  else if length > 2047 then .reject .rxLenLong
  else .frame (4 + mode) rate (bitOf v 6) (bitOf v 8) fcs2 false length

/-- The checks of a PHY header against the preamble and delimiter found (R88, R89, R94, R108); `none`: not a header of that format.  Of a
SUN-FSK PHR that fails more than one, the first of mode switch, reserved bits and length counts (DESIGN CHOICE, log entry 76). -/
def State.checkHeader (s : State) (f : Fe) (i : RxInfo) (h : PhyHeader) : Option HdrResult :=
  match h, i.sync with
  | .helec bits, true => some (s.helecChecks f bits.toNat)
  | .oqpsk length, false =>
    if i.pre = .oqpsk then
      some (if length.toNat < 5 then .reject .rxLenShort else .frame 3 0 false false true false length.toNat)
    else none
  | .sunFsk ms res fcs dw length, false =>
    match preambleModes f i.pre false with
    | [m] =>
      if m = 3 then none
      else some (if ms then .reject .rxModeSwitch
        else if res ≠ 0 then .reject .rxHdrBad
        else if length.toNat < minPsdu fcs then .reject .rxLenShort
        else .frame m 0 false false fcs dw length.toNat)
    | _ => none
  | _, _ => none

/-! ## The decoder pool (R133, R134) -/

/-- No core serves (R502). -/
def State.noDecoder (s : State) : Bool := s.dec.out.all fun o => o

/-! ## Lane faults (R136) -/

/-- A node's ACK awaited on a lane is missing once the lane's assignment changes (R160). -/
def State.laneMoved (s : State) (l : Nat) : State :=
  feAll.foldl (fun s f =>
    let x := s.feSt f
    match x.ackWait with
    | some w => if w.lane = some l then s.setFe f { x with ackWait := some { w with laneMoved := true } } else s
    | none => s) s

/-- A lane waits for nothing: no change of assignment, no place in the watch map of a move that waits. -/
def State.laneFree (s : State) (l : Nat) : Bool :=
  (s.lane l).assigned.isNone && (s.lane l).next.isNone && feAll.all fun f => match (s.feSt f).move with
    | some mv => mv.watch.all fun p => p.1 != l
    | none => true

/-- The lane that takes a faulty lane's channel. -/
def State.spareLane (s : State) : Option Nat :=
  if !s.sparePolicy then none else (List.range 48).find? fun l => s.laneUsable l && s.laneFree l && s.laneAllowed l

/-- A lane's known-answer test runs: every 60 s on a lane unassigned and powered, for at most 3 ms, until LANE_KAT ends it (R137). -/
def State.laneTesting (s : State) (l : Nat) : Bool :=
  let base := max (s.lane l).katClk s.canopy.radioClk
  (s.lane l).assigned.isNone && decide (base + secTicks 60 ≤ s.clk) && decide ((s.clk - base) % secTicks 60 < msTicks 3)

/-- A front end that no lane is assigned to any more is idle from now on (R61). -/
def State.noteIdle (s : State) (p : Option (Nat × Nat)) : State :=
  match p.bind fun q => feOf q.1 with
  | some f => if (s.lanesOn f).isEmpty then s.setFe f { s.feSt f with idleSince := s.clk } else s
  | none => s

def laneCause : LaneFaultCause → Nat
  | .parity => 0
  | .stuck => 1
  | .timeCopy => 2
  | .kat => 3

/-- A lane is halted and mapped out (R136): what it is receiving is abandoned, complete frames are stored as any other, and a spare takes its
channel.  Codes of Table 18.6's and Table 5.6's causes in event data are the rows' numbers, from 0. -/
def State.faultLane (s : State) (l : Nat) (c : LaneFaultCause) : State :=
  let s := s.cutLane l .rxCutFault
  let x := s.laneNow l
  let pin := s.canopy.lanePins.get l
  let s := ((s.setLane l { out := true, was := (x.assign s.clk none).was, done := x.done, ackOwed := x.ackOwed && !x.done.isEmpty }).laneMoved l).owe 1
  let s := { s with canopy := { s.canopy with lanePins := s.canopy.lanePins.erase l, lanesLost := s.canopy.lanesLost + 1, faultClk := some s.clk } }
  let s := (s.count .laneMappedOut .device).canLog 0x10 1 0xFF 2 (0x100 + l) 1 0 0
  let r : Nat × State := match x.assigned, s.spareLane with
    | some p, some j =>
      let y := s.lane j
      let s := if s.laneTesting j then s.setLane j { y with next := some (some p), pinned := x.pinned }
        else s.setLane j { y.assign s.clk (some p) with pinned := x.pinned }
      (j, match pin with
        | some q => { s with canopy := { s.canopy with lanePins := s.canopy.lanePins.set j q } }
        | none => s)
    | p, _ => (0xFF, s.noteIdle p)
  r.2.raise 0x0501 none (toBe 1 l ++ toBe 1 (laneCause c) ++ toBe 1 r.1)

/-! ## Domains (R138, R139) -/

/-- Lanes of a domain that the variant has. -/
def State.domLanes (s : State) (d : LaneDom) : List Nat := (List.range s.halfLanes).map fun i => if d = .a then i else s.halfLanes + i

/-- Its lanes stop hunting: detections and frames in their header are dropped (R138, step 1). -/
def State.stopLane (s : State) (l : Nat) : State :=
  match (s.laneNow l).phase with
  | .frame _ _ => s
  | .hunt => s
  | _ => s.rewindLane l

def State.stopDom (s : State) (d : LaneDom) : State :=
  let x := s.dom d
  if x.powered && x.stopping.isNone && !x.stopped then
    (s.domLanes d).foldl State.stopLane (s.setDom d { x with stopping := some s.clk })
  else s

/-- A lane still receives a frame past its PHY header, or holds the cells of a complete one. -/
def State.laneHolds (s : State) (l : Nat) : Bool := !(s.lane l).frames.isEmpty

/-- The domain is powered down once no lane of it holds a cell or a tag; frames still being received after 10 ms are abandoned (R138).  On
the EPB7224 the domain stays powered and its lanes stop (Table 18.8). -/
def State.domDown (s : State) (d : LaneDom) : State :=
  let x := s.dom d
  match x.stopping with
  | none => s
  | some k =>
    let ls := s.domLanes d
    if ls.any s.laneHolds && decide (s.clk < k + msTicks 10) then s
    else
      let s := ls.foldl (fun s l => s.cutLane l .rxCutPower) s
      if ls.any s.laneHolds then s
      else
        let was := ls.map fun l => (s.lane l).assigned
        let lost := (was.filter fun p => p.isSome).length
        let s := { s with canopy := { s.canopy with lanesLost := s.canopy.lanesLost + lost, faultClk := some s.clk } }
        let s := ls.foldl (fun s l => (s.setLane l { out := (s.lane l).out, was := ((s.lane l).assign s.clk none).was, katClk := (s.lane l).katClk }).laneMoved l) s
        let s := was.foldl State.noteIdle s
        (s.setDom d { x with powered := !s.full, stopping := none, stopped := !s.full }).owe 1

end Sys2Proof.Machine
end

