-- ==== Sys2Proof/Machine/Calendar.lean ====
section
/-! DEFINITION. The calendar of wall time (R195, R196) and the due instants of Almanac entries (R198, R199). -/

namespace Sys2Proof.Machine

/-- A date and time of day as the calendar view shows them. -/
structure CalView where
  year : Nat
  month : Nat
  day : Nat
  weekday : Nat
  hour : Nat
  minute : Nat
  second : Nat
  deriving DecidableEq, Repr

/-- The calendar view of a day number (R195), modulo the 400-year cycle (Table 7.5): year, month, day, and the weekday of the day itself. -/
def dayView (days : Int) : CalView :=
  let z := (days % 146097).toNat + 146037
  let era := z / 146097
  let doe := z % 146097
  let yoe := (doe - doe / 1460 + doe / 36524 - doe / 146096) / 365
  let doy := doe - (365 * yoe + yoe / 4 - yoe / 100)
  let mp := (5 * doy + 2) / 153
  let month := if mp < 10 then mp + 3 else mp - 9
  { year := 1600 + 400 * era + yoe + (if month ≤ 2 then 1 else 0), month := month, day := doy - (153 * mp + 2) / 5 + 1,
    weekday := ((days + 5) % 7).toNat, hour := 0, minute := 0, second := 0 }

/-- The calendar view of a count, or of a local count, which may be negative (R195). -/
def calView (s : Int) : CalView :=
  let sod := (s % 86400).toNat
  { dayView (s / 86400) with hour := sod / 3600, minute := sod % 3600 / 60, second := sod % 60 }

/-- The day number of a date, with the roll-over of Table 7.5 (R196). -/
def dayOf (year month day : Nat) : Nat :=
  let y := year - (if month ≤ 2 then 1 else 0)
  let era := (y - 1600) / 400
  let yoe := (y - 1600) % 400
  let mp := if month > 2 then month - 3 else month + 9
  let doy := (153 * mp + 2) / 5 + day - 1
  let doe := 365 * yoe + yoe / 4 - yoe / 100 + doy
  146097 * era + doe - 146037

/-- The count of a calendar date, or `none` where the part refuses it (R196). -/
def countOf (year month day hour minute second : Nat) : Option Nat :=
  if 2000 ≤ year ∧ year ≤ 2399 ∧ 1 ≤ month ∧ month ≤ 12 ∧ 1 ≤ day ∧ day ≤ 31 ∧ hour ≤ 23 ∧ minute ≤ 59 ∧ second ≤ 59 then
    some (86400 * dayOf year month day + 3600 * hour + 60 * minute + second)
  else none

def leapYear (y : Nat) : Bool := y % 4 == 0 && (y % 100 != 0 || y % 400 == 0)

def monthLen (y m : Nat) : Nat :=
  if m = 2 then (if leapYear y then 29 else 28) else if m = 4 ∨ m = 6 ∨ m = 9 ∨ m = 11 then 30 else 31

/-! ## Almanac entries (Table 7.10) -/

def almId (e : Octets) : Nat := leField e 0 2
def almWorld (e : Octets) : Nat := leField e 2 1
def almKind (e : Octets) : Nat := leField e 3 1
def almBasis (e : Octets) : Nat := leField e 4 1
def almAction (e : Octets) : Nat := leField e 5 1
def almWeekdays (e : Octets) : Nat := leField e 6 1
def almMonth (e : Octets) : Nat := leField e 7 1
def almDay (e : Octets) : Nat := leField e 8 1
def almFlags (e : Octets) : Nat := leField e 9 1
def almCatchUp (e : Octets) : Nat := leField e 10 1
def almSod (e : Octets) : Nat := leField e 12 4
def almAt (e : Octets) : Nat := leField e 16 8
def almGroup (e : Octets) : Octets := sliceOct e 24 16
def almPort (e : Octets) : Nat := leField e 40 2
def almLen (e : Octets) : Nat := leField e 42 2
def almPayload (e : Octets) : Octets := sliceOct e 44 64
def almLast (e : Octets) : Nat := leField e 108 8

/-- An instant as bits [47:0] of last_fired and the events hold it (Table 7.10; log entry 78). -/
def almInstant (u : Int) : Nat := (u % (2 ^ 48 : Nat)).toNat

/-- The entry with its last_fired set. -/
def almSetLast (e : Octets) (v : Nat) : Octets := e.take 108 ++ toLe 8 v ++ e.drop 116

/-- Day d of the basis carries a due instant of the entry (Table 7.6, kinds 1 to 5). -/
def dueOnDay (e : Octets) (d : Int) : Bool :=
  let v := dayView d
  let last := monthLen v.year v.month
  let short := bitOf (almFlags e) 1
  match almKind e with
  | 1 => true
  | 2 => bitOf (almWeekdays e) v.weekday
  | 3 => v.day == almDay e || (short && decide (last < almDay e) && v.day == last)
  | 4 => v.month == almMonth e && (v.day == almDay e || (short && decide (last < almDay e) && v.day == last))
  | 5 => bitOf (almWeekdays e) v.weekday && (almMonth e == 0 || v.month == almMonth e) &&
      (if almDay e = 5 then decide (v.day + 7 > last) else (v.day - 1) / 7 + 1 == almDay e)
  | _ => false

/-- The latest due instant in (a, b], searching `n` days back from day d. -/
def latestFrom (e : Octets) (a b : Int) : Nat → Int → Option Int
  | 0, _ => none
  | n + 1, d =>
    let t := d * 86400 + almSod e
    if dueOnDay e d && decide (a < t) && decide (t ≤ b) then some t else latestFrom e a b n (d - 1)

/-- The latest due instant of the entry in (a, b] of its basis (R199). -/
def latestDue (e : Octets) (a b : Int) : Option Int :=
  if b ≤ a then none
  else if almKind e = 0 then (if a < almAt e ∧ (almAt e : Int) ≤ b then some (almAt e) else none)
  else latestFrom e a b (b / 86400 - a / 86400 + 1).toNat (b / 86400)

/-! ## Forms of an entry -/

/-- First octet of an entry that a reserved field or bit makes malformed (check 8). -/
def almMalformed (e : Octets) : Option Nat :=
  if almWeekdays e ≥ 128 then some 6
  else if almFlags e ≥ 4 then some 9
  else if leField e 11 1 ≠ 0 then some 11
  else if leField e 116 12 ≠ 0 then some 116
  else none

/-- First field of an entry outside its range (check 11). -/
def almBadRange (e : Octets) : Option Nat :=
  let k := almKind e
  let act := almAction e
  if almId e > 1023 then some 0
  else if almWorld e > 7 then some 2
  else if k > 5 then some 3
  else if almBasis e > 1 then some 4
  else if act > 2 then some 5
  else if k ≠ 2 ∧ k ≠ 5 ∧ almWeekdays e ≠ 0 then some 6
  else if (if k = 4 then almMonth e < 1 ∨ almMonth e > 12 else if k = 5 then almMonth e > 12 else almMonth e ≠ 0) then some 7
  else if (if k = 3 ∨ k = 4 then almDay e < 1 ∨ almDay e > 31 else if k = 5 then almDay e < 1 ∨ almDay e > 5 else almDay e ≠ 0) then some 8
  else if almCatchUp e > 240 then some 10
  else if (if k = 0 then almSod e ≠ 0 else almSod e > 86399) then some 12
  else if (if k = 0 then almAt e ≥ 2 ^ 48 else almAt e ≠ 0) then some 16
  else if (if act = 0 then leField e 24 1 ≠ 0xFF else !allZero (almGroup e)) then some 24
  else if (if act = 0 then almPort e = 0 else almPort e ≠ 0) then some 40
  else if (if act = 0 then almLen e < 1 ∨ almLen e > 64 else almLen e ≠ 0) then some 42
  else if !allZero ((almPayload e).drop (almLen e)) then some 44
  else none

def popcount : Nat → Nat → Nat
  | 0, _ => 0
  | n + 1, v => v % 2 + popcount n (v / 2)

/-- First field of an entry that breaks R202 or R205 on its own. -/
def almCross (e : Octets) : Option Nat :=
  let k := almKind e
  if almWorld e = 0 ∧ almAction e = 0 then some 5
  else if almWorld e ≠ 0 ∧ almAction e ≠ 0 then some 5
  else if almWorld e = 0 ∧ almBasis e ≠ 1 then some 4
  else if k = 2 ∧ almWeekdays e = 0 then some 6
  else if k = 5 ∧ popcount 7 (almWeekdays e) ≠ 1 then some 6
  else if k = 4 ∧ almDay e > monthLen 2001 (almMonth e) ∧ ¬(almMonth e = 2 ∧ almDay e = 29) then some 8
  else none

end Sys2Proof.Machine
end

