-- ==== Sys2Proof/Machine/TimeOps.lean ====
section
/-! DEFINITION. Wall time, the RTC, the Almanac and the servo (chapter 7), as operations on the state. -/

namespace Sys2Proof.Machine

/-! ## Wall time -/

/-- Seconds from 1970-01-01 to 2000-01-01 (R188). -/
def epoch2000 : Nat := 946684800

def State.locked (s : State) : Bool := s.time.disc == .locked

/-- The master announces the PTP timescale with currentUtcOffsetValid set. -/
def State.masterUtc (s : State) : Option Nat :=
  match s.time.master with
  | some m => if s.locked && m.ptpTimescale && m.utcValid then some m.utcOffset else none
  | none => none

/-- The UTC offset in use (R188). -/
def State.utcOffset (s : State) : Nat :=
  match s.masterUtc with
  | some u => u
  | none => s.time.utcKept.getD s.utcDefault

/-- LOCKED, with a master whose timescale gives wall time (R188, R189). -/
def State.wallDerivable (s : State) : Bool :=
  match s.time.master with
  | some m => s.locked && m.ptpTimescale
  | none => false

/-- RTC_COUNT as one 64-bit number: sec in bits 63 to 16, frac below (Table 7.4). -/
def State.rtcCount (s : State) : Nat := s.rtc.sec.toNat * 65536 + s.rtcFrac

/-- The part runs, so that an event can be raised. -/
def State.awake (s : State) : Bool :=
  s.life.mode == .operate || s.life.mode == .noConfig || s.life.mode == .provision || s.life.mode == .stump ||
  s.life.mode == .secError || s.life.mode == .retired

def State.setRtc (s : State) (r : Rtc) : State := { s with rtc := r }

/-- Wall time becomes trusted by a write of the seconds count (R193). -/
def State.trust (s : State) : State :=
  let s := s.setRtc { s.rtc with trusted := true }
  if s.awake then s.raise 0x0705 none (toBe 8 s.rtcCount) else s

/-! ## The Almanac -/

/-- An Almanac entry due: its instant in its basis, its id, its octets. -/
structure Due where
  u : Int
  key : Nat
  octets : Octets
  deriving DecidableEq, Repr

/-- Catch-up window W in seconds (R199). -/
def State.almWindow (s : State) (e : Octets) : Nat :=
  if !bitOf (almFlags e) 0 then 0
  else if almCatchUp e = 0 then s.catchUpMin * 60 else almCatchUp e * 60

/-- Sets an entry's octets and fate. -/
def State.setAlm (s : State) (k : Nat) (e : AlmEntry) : State := { s with hw := { s.hw with almanac := s.hw.almanac.set k e } }

/-- What one entry does over an interval (a, b] with floor f (R199): whether it fires and for which instant, and its latest missed
instant. -/
def almVerdict (e : Octets) (a b f : Int) : Option Int × Option Int :=
  match latestDue e a b with
  | none => (none, none)
  | some u =>
    if f ≤ u then (if almInstant u = almLast e then none else some u, if f - 1 ≤ a then none else latestDue e a (f - 1))
    else (none, some u)

/-- Counts a missed entry (R199, R200). -/
def State.almMiss (s : State) (k : Nat) (e : AlmEntry) (u : Int) : State :=
  let w := almWorld e.octets
  let s := if almKind e.octets = 0 then s.setAlm k { e with fate := .missed } else s
  (s.count .almanacMissed (.world w)).raise 0x0709 (some w) (toBe 1 w ++ toBe 2 k ++ toBe 6 (almInstant u))

/-- The entries of a basis in ascending id: misses are counted, firings collected. -/
def State.almScan (s : State) (basis : Nat) (cPrev oPrev cNow oNow : Int) : List Due × State :=
  let a : Int := if basis = 1 then cPrev else cPrev + 900 * oPrev
  let b : Int := if basis = 1 then cNow else cNow + 900 * oNow
  s.hw.almanac.foldl (fun r p =>
    let e := p.2
    if almBasis e.octets ≠ basis ∨ e.fate ≠ .standing then r
    else
      let f : Int := cNow - s.almWindow e.octets + (if basis = 1 then 0 else 900 * oPrev)
      let v := almVerdict e.octets a b f
      let st := match v.2 with
        | some u => r.2.almMiss p.1 e u
        | none => r.2
      match v.1 with
      | some u => (r.1 ++ [{ u := u, key := p.1, octets := e.octets }], st)
      | none => (r.1, st)) ([], s)

/-- Inserts in ascending due instant, then ascending id (R201). -/
def dueInsert (d : Due) : List Due → List Due
  | [] => [d]
  | x :: t => if x.u ≤ d.u then x :: dueInsert d t else d :: x :: t

/-- Changes the local offset; `none` where it would leave −48 to +56 (R197). -/
def offsetChanged (o : Int) (d : Int) : Option Int := if -48 ≤ o + d ∧ o + d ≤ 56 then some (o + d) else none

def State.localOffset (s : State) : Int := s.rtc.offset.toInt

/-- An ADD-HOUR or SUB-HOUR action of the Almanac, in effect at once (R197, R201). -/
def State.almAct (s : State) (add : Bool) : State :=
  match offsetChanged s.localOffset (if add then 4 else -4) with
  | some o => s.setRtc { s.rtc with offset := BitVec.ofInt 8 o, summer := add }
  | none => s.count .almanacActionRefused .device

/-- Firmware working queue in which an Almanac packet waits for its classification (R201, R216). -/
def almQueue : Nat := 404

/-- Fires one entry: recorded in Heartwood before anything is posted (R201). -/
def State.almFire (s : State) (now : Int) (d : Due) : State :=
  let e := d.octets
  let w := almWorld e
  let s := s.setAlm d.key { octets := almSetLast e (almInstant d.u), fate := if almKind e = 0 then .fired else .standing }
  let s := s.count .almanacFired (.world w)
  let s := if d.u < now then s.count .almanacCaughtUp (.world w) else s
  match almAction e with
  | 0 =>
    let payload := (almPayload e).take (almLen e)
    match s.post almQueue 0 w (48 + payload.length) (.group w (almGroup e) (BitVec.ofNat 16 (almPort e)) payload) with
    | some t => t
    | none => s
  | 1 => s.almAct true
  | _ => s.almAct false

/-- Evaluates the Almanac at a count (R199 to R201): UTC entries, then local ones with the offset they left. -/
def State.almEvaluate (s : State) (count : BitVec 48) : State :=
  let cNow : Int := count.toNat
  let o0 := s.localOffset
  let prev : Int × Int := match s.time.almPrev with
    | some p => ((p.1.toNat : Int), p.2)
    | none => (cNow - 1, o0)
  let u := s.almScan 1 prev.1 prev.2 cNow o0
  let s := (u.1.foldl (fun l d => dueInsert d l) []).foldl (fun s d => s.almFire cNow d) u.2
  let o1 := s.localOffset
  let l := s.almScan 0 prev.1 prev.2 cNow o1
  let s := (l.1.foldl (fun l d => dueInsert d l) []).foldl (fun s d => s.almFire (cNow + 900 * o1) d) l.2
  { s with time := { s.time with almPrev := some (count, o1) } }.touch .almEval

/-- A second boundary meets the Almanac where an image is applied, radio on reached and wall time trusted (R199); a forwarding pause puts the
evaluation off to its end (R20, R21). -/
def State.almanac (s : State) : State :=
  if !(s.operating && s.life.radioOn && s.rtc.trusted) then s
  else if s.inPause then { s with time := { s.time with almHeld := s.time.almHeld ++ [s.rtc.sec] } }
  else s.almEvaluate s.rtc.sec

/-- The evaluations that a forwarding pause held, in order (R21). -/
def State.almResume (s : State) : State :=
  s.time.almHeld.foldl State.almEvaluate { s with time := { s.time with almHeld := [] } }

/-! ## Writes of the seconds count -/

/-- A write (R187) that took effect `ago` ticks before the present one. -/
def State.writeRtc (s : State) (sec : BitVec 48) (ago : Nat) : State :=
  let s := s.setRtc { s.rtc with
    sec := sec, osf := false, presc0 := 0, frozen := 0, boundary := s.clk - ago, boundaryNet := s.netNs - 4 * ago
    leapHeld := false, windowNet := none }
  s.trust.almanac

/-- A write the part makes from network time, once its whole second has come (R187); in FREE and HOLDOVER it makes none (R189). -/
def State.settleRtc (s : State) : State :=
  match s.rtc.pendWrite with
  | some w =>
    if w.atNs ≤ s.netNs then
      let t := s.setRtc { s.rtc with pendWrite := none }
      if t.wallDerivable then t.writeRtc w.sec ((s.netNs - w.atNs) / 4) else t
    else s
  | none => s

/-- `dt` ticks pass, with what they bring of themselves: the write of the RTC (R189) and the copies on the ports (R402). -/
def State.tick (s : State) (dt : Nat) : State := ((s.advance dt).settleRtc).runPorts

/-! ## The RTC second (R186, R190, R191, R197) -/

/-- Whole cycles by which a second is shortened, and the accumulator left (R186). -/
def trimCycles (acc : Int) : Int × Int :=
  if acc ≥ 0 then (acc / 78125, acc % 78125) else (-((-acc) / 78125), -((-acc) % 78125))

/-- Changes of the local offset that waited for this boundary (R197). -/
def applyLocals (r : Rtc) : Rtc :=
  let f := fun (r : Rtc) (p : PendLocal) => { r with offset := BitVec.ofInt 8 p.offset, summer := p.summer.getD r.summer }
  { r.pendLocal.foldl f r with pendLocal := [] }

/-- The local offset once the changes that wait are in effect. -/
def State.offsetAhead (s : State) : Int :=
  match s.rtc.pendLocal.getLast? with
  | some p => p.offset
  | none => s.localOffset

/-- Leap indications at the boundary that would reach a multiple of 86 400 (R190): how far the count goes, and the change of u; a hold is made once. -/
def State.leapStep (s : State) : Nat × Int :=
  match s.time.master with
  | some m =>
    if s.locked && bitOf s.timeFlags 2 && m.ptpTimescale && !s.rtc.leapHeld && (s.rtc.sec.toNat + 1) % 86400 == 0 then
      (if m.leap61 then (0, 1) else if m.leap59 then (2, -1) else (1, 0))
    else (1, 0)
  | none => (1, 0)

/-- u after a leap, in the same instant (R190). -/
def State.leapOffset (s : State) (d : Int) : State :=
  if d = 0 then s
  else
    let u := ((s.utcOffset : Int) + d).toNat
    { s with time := { s.time with
      utcKept := some u
      master := s.time.master.map fun (m : Master) => { m with utcOffset := u, leap61 := false, leap59 := false } } }.touch .utcOffset

/-- The countdown at a boundary made by the passage of a second (R191). -/
def State.countdown (s : State) : State :=
  let v := s.rtc.countdown
  if v = 0 then s
  else if v = 1 then
    let s := s.setRtc { s.rtc with countdown := 0, cdExpired := true, cdEvent := if s.awake then none else some (s.rtc.sec.toNat * 65536) }
    if s.awake then s.raise 0x0708 none (toBe 8 (s.rtc.sec.toNat * 65536)) else s
  else s.setRtc { s.rtc with countdown := v - 1 }

/-- The part's timestamp of the latest RTC second boundary, `err` ns off, by at most 31 µs (R189). -/
def State.rtcStamp (s : State) (err : Int) : Int := (s.rtc.boundaryNet : Int) + max (-31000) (min 31000 err)

/-- A second boundary of the RTC.  The window of an adjustment begins at the first after the last one, or after a write (log entry 78). -/
def State.rtcSecond (s : State) : State :=
  if s.rtc.stopped then s
  else
    let leap := s.leapStep
    let k := trimCycles (s.rtc.acc + 256 * s.rtc.trim.toInt)
    let r := applyLocals s.rtc
    let s := s.setRtc { r with
      sec := r.sec + BitVec.ofNat 48 leap.1, acc := k.2, presc0 := k.1, boundary := s.clk, boundaryNet := s.netNs, sinceAdj := r.sinceAdj + 1
      leapHeld := leap.1 == 0 }
    let s := match s.rtc.windowNet with
      | some _ => s
      | none => { s.setRtc { s.rtc with windowNet := some (s.rtcStamp (Config.unstated s.rnd).toInt), sinceAdj := 0 } with rnd := s.rnd + 1 }
    ((s.leapOffset leap.2).countdown).almanac

/-! ## The servo -/

/-- The first Meridian bus update at least 8.192 µs after now (R175). -/
def stepTick (clk : Nat) : Nat := (clk + 2048 + 1023) / 1024 * 1024

/-- Posts a step by δ ns (R175). -/
def State.postStep (s : State) (delta : Int) : State :=
  { s with time := { s.time with pendStep := some { delta := delta, atClk := stepTick s.clk } } }

/-- The data of TIME_LOCKED, TIME_HOLDOVER and TIME_HOLDOVER_DEGRADED: port and last offset. -/
def State.servoData (s : State) : Octets :=
  toBe 1 (match s.time.master with
    | some m => m.port
    | none => 0) ++ toBe 8 (unsigned 64 s.time.lastOffset)

/-- Sets the discipline state, journalled in Heartwood. -/
def State.setDisc (s : State) (d : Discipline) : State :=
  { s with time := { s.time with disc := d, goodRun := 0, badRun := 0 } }.touch .discipline

/-- P0 carries a master in the domain: one spoke within master_loss_ms (R178, R418). -/
def State.p0Master (s : State) : Bool :=
  match s.time.p0Clk with
  | some k => decide (s.clk ≤ k + msTicks s.masterLossMs)
  | none => false

/-- The port the servo uses (R178). -/
def State.servoPort (s : State) : Option Port :=
  if bitOf s.ptpPorts 0 && s.p0Master then some .p0 else if bitOf s.ptpPorts 1 then some .p1 else none

/-- The servo's firmware runs (Table 1.5, R51). -/
def State.servoRuns (s : State) : Bool := s.firmware || (s.life.mode == .noConfig && !s.inPause)

/-- Enters one measurement in the runs of R178 and R179; the servo's frequency estimate takes it in. -/
def State.measure (s : State) (o : Int) : State :=
  let t := s.time
  let big := decide (o.natAbs ≥ s.stepThreshold)
  let good := decide (o.natAbs ≤ s.lockNs)
  let run := if big then t.bigRun + 1 else 0
  let s := { s with
    rnd := s.rnd + 1
    time := { t with
      lastOffset := o, lastMeas := s.clk, bigRun := if run ≥ 4 then 0 else run, freqEst := Config.freqEstimate s.rnd
      goodRun := if good then t.goodRun + 1 else 0, badRun := if good then 0 else t.badRun + 1 } }
  let s := match s.time.disc with
    | .free => if s.time.goodRun ≥ 16 then (s.setDisc .locked).raise 0x0702 none s.servoData else s
    | .locked => if s.time.badRun ≥ 16 then s.setDisc .free else s
    | .holdover => s.setDisc .free
  if run ≥ 4 then s.postStep (-o) else s

/-- Signed distance of an instant from the nearest whole second. -/
def fromSecond (t : Int) : Int := (t + 500000000) % 1000000000 - 500000000

/-- The offset of a completed exchange, network time less master time (R178, R417; log entry 78). -/
def PtpPort.offset (x : PtpPort) (asym : Int) : Option Int :=
  match x.down, x.up, x.answer with
  | some (t1, t2), some (_, t3), some t4 => some (t2 - t1 - asym - ((t2 - t3) + (t4 - t1)) / 2)
  | _, _, _ => none

/-- The measurement's phase from a PPS_IN edge while LOCKED, where TIME.flags bit 1 asks it, its seconds from PTP (R183). -/
def State.phased (s : State) (o : Int) : Int :=
  match s.time.ppsIn with
  | some t => if bitOf s.timeFlags 1 && s.locked then (o + 500000000) / 1000000000 * 1000000000 + fromSecond t else o
  | none => o

/-- Takes up what the master of a port announces (R188, R190). -/
def State.followMaster (s : State) (m : Master) : State :=
  let s := { s with time := { s.time with master := some m } }
  match s.masterUtc with
  | some u => if s.time.utcKept = some u then s else { s with time := { s.time with utcKept := some u } }.touch .utcOffset
  | none => s

/-- A completed exchange on the servo's port gives one offset measurement (R178, R179, R418). -/
def State.ptp (s : State) (p : Port) : State :=
  let x := (s.port p).ptp
  match x.offset s.asymNs, x.master with
  | some o, some m =>
    if !s.servoRuns || s.servoPort ≠ some p || !s.usable p then s
    else
      let s := s.setPort p { s.port p with ptp := { x with down := none, up := none, answer := none } }
      let s := s.measure (s.phased o)
      ({ s with time := { s.time with ppsIn := none } }).followMaster m.said
  | _, _ => s

/-- The Announce that a port keeps: of its master, of a better one, or of any where its master has fallen silent. -/
def PtpPort.better (x : PtpPort) (source : BitVec 80) (rank : BitVec 168) (silent : Nat) (clk : Nat) : Bool :=
  match x.master with
  | some m => m.source == source || decide (rank.toNat < m.rank.toNat) || decide (m.heardClk + silent < clk)
  | none => true

/-- A PTP message received on port p at timestamp t of its first symbol after the SFD (R182, R417, R418).  A Delay_Req follows each Sync on the
servo's port (log entry 78). -/
def State.takePtp (s : State) (p : Port) (m : PtpMsg) (t : Nat) : State :=
  let x := (s.port p).ptp
  let t2 : Int := (t : Int) - s.rxLatNs p
  let corr := m.correction / 65536
  let put := fun (s : State) (y : PtpPort) => s.setPort p { s.port p with ptp := y }
  let mine := match x.master with
    | some k => k.source == m.source
    | none => false
  let alive := fun (s : State) => if p = .p0 then { s with time := { s.time with p0Clk := some s.clk } } else s
  let asks := s.servoRuns && s.servoPort == some p
  if !bitOf s.ptpPorts (portCode p) || m.domain.toNat ≠ s.ptpDomain then s
  else match m.body with
    | .announce rank scale utc valid l61 l59 =>
      if x.better m.source rank (msTicks s.masterLossMs) s.clk then
        let said : Master := { port := portCode p, ptpTimescale := scale, utcOffset := utc, utcValid := valid, leap61 := l61, leap59 := l59 }
        let s := alive (put s { x with master := some { source := m.source, rank := rank, heardClk := s.clk, said := said } })
        if s.servoRuns && s.servoPort == some p && s.time.master.isSome then s.followMaster said else s
      else s
    | .sync two origin =>
      if !mine then s
      else if two then alive (put s { x with sync := some (m.seq, t2, corr) })
      else alive (put s { x with sync := none, down := some ((origin : Int) + corr, t2), due := x.due || asks, answer := none })
    | .followUp origin =>
      match x.sync with
      | some (q, u, c) =>
        if mine && q == m.seq then put s { x with sync := none, down := some ((origin : Int) + corr + c, u), due := x.due || asks, answer := none } else s
      | none => s
    | .delayResp receive who =>
      match x.up with
      | some (q, _) =>
        if mine && q == m.seq && who.toNat == s.id.eui64.toNat * 65536 + portCode p + 1 then put s { x with answer := some ((receive : Int) - corr) } else s
      | none => s
    | .other => s

/-- R189: e in ns of the RTC at its latest boundary, timestamped `stamp`. -/
def State.rtcError (s : State) (stamp : Int) : Int :=
  (s.rtc.sec.toNat : Int) * 1000000000 - (stamp - ((epoch2000 + s.utcOffset : Nat) : Int) * 1000000000)

/-- Nearest integer of a / b, halves away from 0. -/
def roundDiv (a : Int) (b : Nat) : Int :=
  if a ≥ 0 then (2 * a + b) / (2 * b : Nat) else -((2 * (-a) + b) / (2 * b : Nat))

/-- R189: r, the RTC's rate error in 0.1 ppm over a window of `n` of its seconds that took `net` ns of network time. -/
def rtcRate (n net : Nat) : Int := roundDiv (((n * 1000000000 : Nat) : Int) * 10000000 - (net * 10000000 : Nat)) net

/-- The adjustment of R189; `err`: the error in ns of the timestamp it is made by. -/
def State.rtcAdjust (s : State) (err : Int) : State :=
  match s.rtc.windowNet with
  | none => s
  | some began =>
    if !s.servoRuns || !s.wallDerivable || s.rtc.sinceAdj < 1024 || s.rtc.stopped then s
    else
      let stamp := s.rtcStamp err
      let e := s.rtcError stamp
      let r := rtcRate s.rtc.sinceAdj (stamp - began).toNat
      let s := s.setRtc { s.rtc with sinceAdj := 0, windowNet := some stamp }
      if e.natAbs ≥ s.rtcStepMs * 1000000 then
        let sec := s.netNs / 1000000000 + 1
        (s.setRtc { s.rtc with
          pendWrite := some { sec := BitVec.ofNat 48 (sec - epoch2000 - s.utcOffset), atNs := sec * 1000000000 } }).count .rtcStep .device
      else
        let t := s.rtc.trim.toInt - r - roundDiv e 409600
        s.setRtc { s.rtc with trim := BitVec.ofInt 12 (max (-2000) (min 2000 t)) }

/-- Seeds network time from the RTC (R192). -/
def State.seedTime (s : State) : State :=
  let sec := s.rtc.sec.toNat + epoch2000 + s.hw.utcOffset.getD s.utcDefault
  let inc := s.hw.increment.getD (4, 0)
  { s with
    rtc := { s.rtc with windowNet := none, pendWrite := none }
    time := { s.time with
    sincePass := none, freqEst := inc.1.toNat * 4294967296 + inc.2.toNat, almHeld := [], ppsIn := none
    sec := BitVec.ofNat 64 sec, ns := BitVec.ofNat 30 (s.rtcFrac * 1000000000 / 65536), frac := 0, incNs := inc.1, incFrac := inc.2
    disc := .free, pendInc := none, pendStep := none, bigRun := 0, goodRun := 0, badRun := 0, master := none, degraded := false
    p0Clk := none, utcKept := s.hw.utcOffset, almPrev := s.hw.almEval } }

/-- No crystal edge for 244 µs: osf is set, also where a write cleared it while the crystal stood still (R185). -/
def State.oscStop (s : State) : State :=
  let was := s.rtc.osf
  let s := s.setRtc { s.rtc with frozen := s.rtc.prescaler s.clk, stopped := true, osf := true }
  if was then s
  else if s.awake then
    let s := s.raise 0x0707 none (toBe 8 s.rtcCount)
    (s.setRtc { s.rtc with trusted := false }).raise 0x0706 none (toBe 8 s.rtcCount)
  else s.setRtc { s.rtc with osfEvent := true, trusted := false }

/-- The crystal starts again: the count resumes from the value held (R185). -/
def State.oscStart (s : State) : State :=
  if s.rtc.stopped then s.setRtc { s.rtc with stopped := false, presc0 := s.rtc.frozen, boundary := s.clk } else s

end Sys2Proof.Machine
end

