-- ==== Sys2Proof/Machine/Table.lean ====
section
/-! DEFINITION. The node table, its index, the link tables and the route walker (chapter 10), as operations on the state. -/

namespace Sys2Proof.Machine

/-! ## Records -/

def State.node (s : State) (i : Nat) : Option Node := s.table.nodes.get i

def State.setNode (s : State) (i : Nat) (n : Node) : State := { s with table := { s.table with nodes := s.table.nodes.set i n } }

/-- A record changed in a way Heartwood keeps among its state fields (R459). -/
def State.putNode (s : State) (i : Nat) (n : Node) : State := (s.setNode i n).touch (.nodeState i)

/-- The full value of which `low` holds `bits` low bits, nearest to `now` (R128). -/
def rebuild (bits low now : Nat) : Nat :=
  let m := 2 ^ bits
  let c := now / m * m + low % m
  if c + m / 2 < now then c + m else if now + m / 2 < c ∧ m ≤ c then c - m else c

def State.epochOf (s : State) (w : Nat) : Nat := s.table.epochs.getD w 0

/-- A record carries its world's epoch in force (R277). -/
def State.current (s : State) (n : Node) : Bool := n.state == .joining || n.epoch == s.epochOf n.world

/-- LIVE or QUIET, of the epoch in force. -/
def State.inTable (s : State) (n : Node) : Bool := (n.state == .live || n.state == .quiet) && n.epoch == s.epochOf n.world

/-- The deadline of a record in seconds; none when age_s is 0 (Table 10.7). -/
def State.ageDeadline (s : State) (n : Node) : Option Nat :=
  if s.ageS = 0 then none else some (rebuild 32 n.lastHeard.toNat s.time.sec.toNat + s.ageS)

/-! ## The index (R260, R261) -/

/-- b1, b2 and tag of an EUI-64 under a seed. -/
structure Hash where
  b1 : Nat
  b2 : Nat
  tag : Nat
  deriving DecidableEq, Repr

def hashOf (seed eui : BitVec 64) : Hash :=
  let x := eui ^^^ seed
  let x := x ^^^ (x >>> 31)
  let x := x * 0x9E3779B97F4A7C15
  let x := x ^^^ (x >>> 29)
  let x := x * 0xD6E8FEB86659FD93
  let x := x ^^^ (x >>> 32)
  let v := x.toNat
  let b1 := v % 65536
  let b2 := v / 65536 % 65536
  let tag := v / 2 ^ 32 % 32768
  { b1 := b1, b2 := if b2 = b1 then b1 ^^^ 1 else b2, tag := if tag = 0 then 1 else tag }

def bucketCount (c : IdxCopy) (b : Nat) : Nat := ((List.range 4).filter fun k => (c.entries.get (4 * b + k)).isSome).length

def bucketFree (c : IdxCopy) (b : Nat) : Option Nat := ((List.range 4).map fun k => 4 * b + k).find? fun k => (c.entries.get k).isNone

/-- The least number not a key of the table, from `n` on. -/
def leastFree {α : Type} : Tbl α → Nat → Nat
  | [], n => n
  | (k, _) :: t, n => if k = n then leastFree t (n + 1) else if k < n then leastFree t n else n

/-- Places an entry (R263); `none` where it fits nowhere. -/
def IdxCopy.place (c : IdxCopy) (h : Hash) (i : Nat) : Option IdxCopy :=
  let b := if bucketCount c h.b2 < bucketCount c h.b1 then h.b2 else h.b1
  match bucketFree c b with
  | some k => some { c with entries := c.entries.set k { tag := h.tag, index := i } }
  | none =>
    let p := leastFree c.overflow 0
    if p < 2048 then some { c with overflow := c.overflow.set p { b1 := h.b1, b2 := h.b2, tag := h.tag, index := i } } else none

/-- Moves the lowest overflow entry of a bucket into a freed position (R265). -/
def IdxCopy.refill (c : IdxCopy) (k : Nat) : IdxCopy :=
  let b := k / 4
  match c.overflow.find? fun p => p.2.b1 == b || p.2.b2 == b with
  | some (p, e) => { entries := c.entries.set k { tag := e.tag, index := e.index }, overflow := c.overflow.erase p }
  | none => c

/-- Removes the entries that name record i. -/
def IdxCopy.drop (c : IdxCopy) (h : Hash) (i : Nat) : IdxCopy :=
  let ks := ((List.range 4).map fun k => 4 * h.b1 + k) ++ ((List.range 4).map fun k => 4 * h.b2 + k)
  match ks.find? fun k => match c.entries.get k with
    | some e => e.index == i
    | none => false with
  | some k => { c with entries := c.entries.erase k }.refill k
  | none => { c with overflow := c.overflow.filter fun p => p.2.index != i }

/-- Node indices whose entries match an EUI-64's tag in its buckets and the overflow store (R262). -/
def IdxCopy.candidates (c : IdxCopy) (h : Hash) : List Nat :=
  let ks := ((List.range 4).map fun k => 4 * h.b1 + k) ++ ((List.range 4).map fun k => 4 * h.b2 + k)
  ks.filterMap (fun k => match c.entries.get k with
    | some e => if e.tag = h.tag then some e.index else none
    | none => none) ++
  c.overflow.filterMap fun p => if p.2.b1 = h.b1 ∧ p.2.tag = h.tag then some p.2.index else none

/-- The record that holds an EUI-64, in whatever state (R262). -/
def State.findEui (s : State) (eui : BitVec 64) : Option Nat :=
  (s.table.act.candidates (hashOf s.table.seed eui)).find? fun i => match s.node i with
    | some n => n.eui == eui
    | none => false

/-- Both copies of the index lose a record's entries. -/
def State.unindex (s : State) (i : Nat) (eui : BitVec 64) : State :=
  let h := hashOf s.table.seed eui
  { s with table := { s.table with act := s.table.act.drop h i, shadow := s.table.shadow.drop h i } }

/-- TABLE_FULL data: reason, records in use, overflow entries in use. -/
def State.raiseTableFull (s : State) (reason : Nat) : State :=
  s.raise 0x0A01 none (toBe 1 reason ++ toBe 3 s.table.nodes.length ++ toBe 2 s.table.act.overflow.length)

/-- A failed insertion: counted, and raised at the first failure and then at most once per 60 s (R264). -/
def State.insertFailed (s : State) (reason : Nat) : State :=
  let s := s.count .tableInsertFail .device
  let due := match s.table.fullRaised with
    | none => true
    | some k => decide (k + secTicks 60 ≤ s.clk)
  if due then { s with table := { s.table with fullRaised := some s.clk } }.raiseTableFull reason else s

/-- Inserts a record at the lowest FREE index (R263, R264); the index taken. -/
def State.insertNode (s : State) (n : Node) : Option Nat × State :=
  let i := leastFree s.table.nodes 0
  if i ≥ 131072 then (none, s.insertFailed 1)
  else
    let h := hashOf s.table.seed n.eui
    match s.table.act.place h i with
    | none => (none, s.insertFailed 2)
    | some a =>
      let sh := (s.table.shadow.place h i).getD s.table.shadow
      (some i, { s with table := { s.table with act := a, shadow := sh, fullRaised := none } }.putNode i n)

/-! ## Leaving the table -/

/-- Removes what lives beside a record: its join, its measurements, its course. -/
def State.forgetNode (s : State) (i : Nat) : State :=
  { s with
    table := { s.table with joins := s.table.joins.filter fun j => j.node != i }
    canopy := { s.canopy with meas := s.canopy.meas.erase i, course := s.canopy.course.erase i
                              taken := s.canopy.taken.filter (fun t => t.node != i), rehome := s.canopy.rehome.erase i
                              pinWait := s.canopy.pinWait.filter fun p => p.node != i } }

/-- A record becomes CLEARING (Table 10.7, R269): its index entry is removed in the same instant. -/
def State.clearNode (s : State) (i : Nat) : State :=
  match s.node i with
  | none => s
  | some n =>
    if n.state == NodeState.clearing then s
    else (((s.unindex i n.eui).putNode i { n with state := .clearing, clearPass := s.table.sweepPass }).forgetNode i).dropCached i

/-! ## Upstream lookups (R262, R268) -/

/-- What an upstream lookup gives. -/
inductive Found where
  /-- LIVE or QUIET, or RETIRING refreshed by a frame at or before its deadline. -/
  | node (i : Nat)
  | joining (i : Nat)
  /-- RETIRING, the frame after the deadline. -/
  | retiring (i : Nat)
  | absent
  deriving DecidableEq, Repr

def State.upLookup (s : State) (eui : BitVec 64) (sfdNs : Nat) : Found :=
  match s.findEui eui with
  | none => .absent
  | some i => match s.node i with
    | none => .absent
    | some n =>
      if !s.current n then .absent
      else match n.state with
        | .joining => .joining i
        | .live | .quiet => .node i
        | .retiring => match s.ageDeadline n with
          | some d => if sfdNs ≤ d * 1000000000 then .node i else .retiring i
          | none => .node i
        | _ => .absent

/-! ## Link tables (R270 to R273) -/

/-- A hearing as a link table takes it. -/
structure Hearing where
  node : Nat
  sfdNs : Nat
  lane : Nat
  channel : Nat
  aerial : Nat
  level : BitVec 9
  snr : BitVec 8
  freqOffset : Int
  mode : Nat
  direct : Bool
  deriving DecidableEq, Repr

def Hearing.entry (h : Hearing) (heard : Nat) : LinkEntry :=
  { node := h.node, sfdNs := h.sfdNs, lane := h.lane, channel := h.channel, aerial := h.aerial, level := h.level, snr := h.snr
    freqOffset := h.freqOffset, mode := h.mode, direct := h.direct, heard := heard }

/-- The frame of the greater snr, then level, then the lower lane (R272): the new one is better. -/
def betterHearing (h : Hearing) (e : LinkEntry) : Bool :=
  decide (e.snr.toNat < h.snr.toNat) || (h.snr == e.snr && (decide (e.level.toNat < h.level.toNat) ||
    (h.level == e.level && decide (h.lane < e.lane))))

def linkSlots (node : Nat) : List Nat := (List.range 4).map fun w => 4 * (node % 8192) + w

/-- The way a node not in its set takes: an invalid one, or that of the oldest SFD timestamp, the lowest on ties. -/
def linkVictim (t : Tbl LinkEntry) (node : Nat) : Nat :=
  match (linkSlots node).find? fun k => (t.get k).isNone with
  | some k => k
  | none =>
    let age := fun k => match t.get k with
      | some e => e.sfdNs
      | none => 0
    (linkSlots node).foldl (fun best k => if age k < age best then k else best) (4 * (node % 8192))

def linkOf (t : Tbl LinkEntry) (node : Nat) : Option (Nat × LinkEntry) :=
  (linkSlots node).findSome? fun k => match t.get k with
    | some e => if e.node = node then some (k, e) else none
    | none => none

/-- The pipeline learns a hearing (R271, R272). -/
def State.learn (s : State) (f : Fe) (h : Hearing) : State :=
  let t := s.table.links.get f
  let put := fun (s : State) (t : Tbl LinkEntry) => { s with table := { s.table with links := s.table.links.set f t } }
  match linkOf t h.node with
  | none => put s (t.set (linkVictim t h.node) (h.entry 1))
  | some (k, e) =>
    let near := decide (h.sfdNs ≤ e.sfdNs + s.mergeUs * 1000) && decide (e.sfdNs ≤ h.sfdNs + s.mergeUs * 1000)
    if near then
      (put s (if betterHearing h e then t.set k (h.entry e.heard) else t)).count .linkMerge (.pipe (feCode f))
    else put s (t.set k (h.entry (min 511 (e.heard + 1))))

/-! ## Refreshing frames (R274) -/

/-- Order of a frame against the last refreshing frame: within the merge window that which R272 keeps, otherwise the later; on equal
timestamps the earlier pipeline. -/
def State.newerRefresh (s : State) (n : Node) (pipe : Nat) (h : Hearing) : Bool :=
  let w := s.mergeUs * 1000
  if pipe = n.refPipe ∧ h.sfdNs ≤ n.refNs + w ∧ n.refNs ≤ h.sfdNs + w ∧ n.refNs ≠ 0 then
    decide (n.refSnr < h.snr.toNat) || (h.snr.toNat == n.refSnr && (decide (n.refLevel < h.level.toNat) ||
      (h.level.toNat == n.refLevel && decide (h.lane < n.refLane))))
  else decide (n.refNs < h.sfdNs) || (n.refNs == h.sfdNs && decide (pipe < n.refPipe))

/-- Writes a refreshing frame into the record: mode and rate of its band, its offset unless tracked, and LIVE. -/
def State.refresh (s : State) (i : Nat) (f : Fe) (h : Hearing) (rate : Nat) (tracked : Bool) : State :=
  match s.node i with
  | none => s
  | some n =>
    let alive := { n with state := .live }
    if !s.newerRefresh n (feCode f) h then s.putNode i alive
    else
      let sec := BitVec.ofNat 32 (h.sfdNs / 1000000000)
      let m := { alive with lastHeard := sec, refNs := h.sfdNs, refSnr := h.snr.toNat, refLevel := h.level.toNat, refPipe := feCode f, refLane := h.lane }
      let m := if f = .h then { m with modeH := h.mode, rateH := rate, validH := true }
        else { m with modeSub := h.mode, rateSub := rate, validSub := true }
      let m := if tracked then m
        else { m with offset := BitVec.ofInt 16 h.freqOffset, offsetSec := sec, offsetBand := f = .h, offsetHeld := true }
      s.putNode i m

/-! ## The sweep (R267, R269, R284) -/

/-- A parent slot that the sweep keeps: its parent is the part, or a LIVE or QUIET record of the world and the epoch in force. -/
def State.slotStands (s : State) (w : Nat) (p : ParentSlot) : Bool :=
  p.root || match s.node p.index with
    | some q => s.inTable q && q.world == w
    | none => false

/-- A usable slot (R285). -/
def State.slotUsable (s : State) (w : Nat) (p : ParentSlot) : Bool := p.valid && s.slotStands w p

/-- The registration has lapsed: network time has reached reg_expiry, all ones never (R284). -/
def State.regLapsed (s : State) (n : Node) : Bool :=
  n.regExpiry.toNat != 2 ^ 24 - 1 && decide ((s.time.sec.toNat + 2 ^ 24 - n.regExpiry.toNat) % 2 ^ 24 < 2 ^ 23)

/-- The transitions of Table 10.7 that fall to the sweep. -/
def State.sweepState (s : State) (i : Nat) (n : Node) : State :=
  let now := s.time.sec.toNat
  match n.state with
  | .joining => if n.created + secTicks s.joinTimeoutS ≤ s.clk then s.clearNode i else s
  | .live | .quiet =>
    match s.ageDeadline n with
    | some d =>
      if d * 1000000000 < s.netNs then s.putNode i { n with state := .retiring }
      else if n.state = .live ∧ rebuild 32 n.lastHeard.toNat now + s.quietS ≤ now then s.putNode i { n with state := .quiet }
      else s
    | none =>
      if n.state = .live ∧ rebuild 32 n.lastHeard.toNat now + s.quietS ≤ now then s.putNode i { n with state := .quiet } else s
  | .retiring =>
    match s.ageDeadline n with
    | some d => if d + 3 ≤ now then s.clearNode i else s
    | none => s
  | _ => s

/-- Clears the slots that no longer stand, and all of them where the registration has lapsed. -/
def State.sweepParents (s : State) (i : Nat) : State :=
  match s.node i with
  | none => s
  | some n =>
    let any := n.parents.any fun p => p.valid
    if any && s.regLapsed n then
      ((s.setNode i { n with parents := n.parents.map (fun p => { p with valid := false }), daoSeen := false }).touch (.parents i)).count
        .routeLapsed (.world n.world)
    else
      let ps := n.parents.map fun p => if p.valid && !s.slotStands n.world p then { p with valid := false } else p
      if ps = n.parents then s else (s.setNode i { n with parents := ps }).touch (.parents i)

/-- Invalidates a record's link-table entries. -/
def State.dropLinks (s : State) (i : Nat) : State :=
  let f := fun (t : Tbl LinkEntry) => t.filter fun p => p.2.node != i
  let l := s.table.links
  { s with table := { s.table with links := { sa := f l.sa, sb := f l.sb, h := f l.h } } }

/-- A CLEARING record's index becomes FREE, and Heartwood's entries of it are released (R269, R456). -/
def State.freeNode (s : State) (i : Nat) : State :=
  { s with
    table := { s.table with nodes := s.table.nodes.erase i }
    hw := { s.hw with ids := s.hw.ids.erase i, nodeKeys := s.hw.nodeKeys.erase i, fc := s.hw.fc.erase i
                      parents := s.hw.parents.erase i, pendings := s.hw.pendings.erase i } }

/-- One visit of the sweep. -/
def State.sweepVisit (s : State) : State :=
  let i := s.table.sweepPos
  let s := match s.node i with
    | none => s
    | some n =>
      if n.state == NodeState.clearing then
        (if n.clearPass + 2 ≤ s.table.sweepPass then (s.dropLinks i).freeNode i else s.dropLinks i)
      else (s.sweepState i n).sweepParents i
  let last := decide (i + 1 ≥ 131072)
  { s with table := { s.table with sweepPos := if last then 0 else i + 1, sweepPass := if last then s.table.sweepPass + 1 else s.table.sweepPass } }

/-! ## The walker (R279, Table 10.10) -/

/-- An entry in bucket b agrees with the record it names. -/
def State.entryAgrees (s : State) (b : Nat) (tag i : Nat) : Bool :=
  match s.node i with
  | some n =>
    let h := hashOf s.table.seed n.eui
    n.state != .clearing && h.tag == tag && (h.b1 == b || h.b2 == b)
  | none => false

/-- One position of a bucket compared between the copies and corrected. -/
def State.fixEntry (s : State) (b k : Nat) : State :=
  let a := s.table.act.entries.get k
  let d := s.table.shadow.entries.get k
  let good := fun (e : Option IdxEntry) => match e with
    | some x => s.entryAgrees b x.tag x.index
    | none => false
  let put := fun (c : IdxCopy) (e : Option IdxEntry) => match e with
    | some x => { c with entries := c.entries.set k x }
    | none => { c with entries := c.entries.erase k }
  let both := fun (e : Option IdxEntry) =>
    { s with table := { s.table with act := put s.table.act e, shadow := put s.table.shadow e } }.count .tableIndexFix .device
  if good a then (if a = d then s else both a)
  else if good d then both d
  else if a.isNone && d.isNone then s
  else both none

/-- Overflow entries of the bucket likewise: an entry that agrees with no record is removed, one missing from a copy is entered. -/
def State.fixOverflow (s : State) (b : Nat) : State :=
  let ok := fun (e : OvfEntry) => s.entryAgrees e.b1 e.tag e.index && (match s.node e.index with
    | some n => (hashOf s.table.seed n.eui).b2 == e.b2
    | none => false)
  let mine := fun (p : Nat × OvfEntry) => p.2.b1 == b
  let a := s.table.act.overflow
  let d := s.table.shadow.overflow
  let keep := fun (t : Tbl OvfEntry) => t.filter fun p => !mine p || ok p.2
  let join := fun (t u : Tbl OvfEntry) => (u.filter fun p => mine p && ok p.2).foldl (fun t p => if (t.get p.1).isNone then t.set p.1 p.2 else t) t
  let a' := join (keep a) d
  let d' := join (keep d) a
  if a' = a ∧ d' = d then s
  else { s with table := { s.table with act := { s.table.act with overflow := a' }, shadow := { s.table.shadow with overflow := d' } } }.count
    .tableIndexFix .device

/-- A record that no entry reaches is entered again; where that fails it is made CLEARING (Table 10.10). -/
def State.fixRecord (s : State) (i : Nat) : State :=
  match s.node i with
  | none => s
  | some n =>
    let h := hashOf s.table.seed n.eui
    if n.state = .clearing ∨ (s.table.act.candidates h).contains i then s
    else match s.table.act.place h i with
      | some a =>
        { s with table := { s.table with act := a, shadow := (s.table.shadow.place h i).getD s.table.shadow } }.count .tableIndexFix .device
      | none => ((s.clearNode i).count .tableIndexFix .device).count .tableIndexLost .device

/-- One visit of the walker. -/
def State.walkVisit (s : State) : State :=
  let b := s.table.walkPos
  if s.table.rehash.isSome then s
  else
    let s := (List.range 4).foldl (fun s k => s.fixEntry b (4 * b + k)) s
    let s := ((s.fixOverflow b).fixRecord (2 * b)).fixRecord (2 * b + 1)
    { s with table := { s.table with walkPos := (b + 1) % 65536 } }

/-! ## The route walker (R285) -/

/-- The slot a walk takes at a record. -/
def State.walkSlot (s : State) (n : Node) (sel : Nat) : Option ParentSlot :=
  let usable := n.parents.filter fun p => s.slotUsable n.world p
  match n.parents[sel]? with
  | some p => if s.slotUsable n.world p then some p else usable.head?
  | none => usable.head?

/-- The walk from record i: `fuel` records may still be appended.  `none`: no route. -/
def State.walkFrom (s : State) (sel : Option Nat) : Nat → Nat → Option (List Nat)
  | 0, _ => none
  | fuel + 1, i =>
    match s.node i with
    | none => none
    | some n => match s.walkSlot n (sel.getD n.pathSel) with
      | none => none
      | some p => if p.root then some [i] else (s.walkFrom none fuel p.index).map fun l => i :: l

/-- The path of a packet for node D, from D to the first hop. -/
def State.walk (s : State) (i : Nat) : Option (List Nat) := s.walkFrom none 16 i

/-- The walk with D's path_sel taken as `sel` (R312). -/
def State.walkBy (s : State) (i sel : Nat) : Option (List Nat) := s.walkFrom (some sel) 16 i

/-- Octets of the routing header of a path of n nodes, with its outer header (R286). -/
def routeOctets (n : Nat) : Nat := if n ≤ 1 then 0 else 40 + 8 + 8 * (n - 1)

end Sys2Proof.Machine
end

