-- ==== Sys2Proof/Machine/WakeOps.lean ====
section
/-! DEFINITION. The wake cycle (chapter 8): phases, gates, closes, credits, the shaping calendar, and the frames a front end may send. -/

namespace Sys2Proof.Machine

/-! ## Cycle and phase (R206); instants in network ns -/

def cycleNs : Nat := 2048000000
def phaseNs : Nat := 8000000
def slotNs : Nat := 500000

def cycleOf (t : Nat) : Nat := t / cycleNs
def offsetOf (t : Nat) : Nat := t % cycleNs
def ceilTo (t m : Nat) : Nat := (t + m - 1) / m * m
def phaseOf (t : Nat) : Nat := offsetOf t / phaseNs

/-! ## Entries (Table 8.1) -/

def geStart (e : BitVec 64) : Nat := bitsOf e.toNat 0 21 * 1000
def geLen (e : BitVec 64) : Nat := bitsOf e.toNat 21 21 * 1000
def geEnd (e : BitVec 64) : Nat := geStart e + geLen e
def geClass (e : BitVec 64) : Nat := bitsOf e.toNat 42 3
def geArg (e : BitVec 64) : Nat := bitsOf e.toNat 45 8
def geChannel (e : BitVec 64) : Nat := bitsOf e.toNat 53 7
def gePlaceable (e : BitVec 64) : Bool := bitOf e.toNat 60

/-- The entry's window holds an offset into the cycle. -/
def geOpen (e : BitVec 64) (off : Nat) : Bool := decide (geStart e ≤ off) && decide (off < geEnd e)

/-- The entry, open at an offset, opens queue q (Table 8.2). -/
def geOpens (e : BitVec 64) (off q : Nat) : Bool :=
  geOpen e off && (match geClass e with
    | 1 => q == geArg e
    | 2 => q == off / phaseNs
    | 3 => if geArg e = 255 then decide (256 ≤ q) && decide (q ≤ 319) else q == 256 + geArg e
    | 4 => if geArg e = 255 then decide (448 ≤ q) else decide (448 + 8 * geArg e ≤ q) && decide (q ≤ 455 + 8 * geArg e)
    | _ => false)

/-- Where an entry that opens q at an offset stops doing so. -/
def geOpenEnd (e : BitVec 64) (off : Nat) : Nat := if geClass e = 2 then min (geEnd e) ((off / phaseNs + 1) * phaseNs) else geEnd e

/-! ## Lists -/

def State.gates (s : State) (f : Fe) : GateSt := s.wake.gates.get f

def State.setGates (s : State) (f : Fe) (g : GateSt) : State := { s with wake := { s.wake with gates := s.wake.gates.set f g } }

/-- The list in force in a cycle, the change-over due included (R213). -/
def State.listAt (s : State) (f : Fe) (cycle : Nat) : List (BitVec 64) :=
  let g := s.gates f
  match g.shadow with
  | some l => if g.notBefore ≤ cycle * cycleNs then l else g.active
  | none => g.active

def State.contention (s : State) (f : Fe) (t : Nat) : Bool :=
  s.radio && (s.listAt f (cycleOf t)).any fun e => geClass e == 5 && geOpen e (offsetOf t)

/-- Queue q is open on front end f at instant t (R210). -/
def State.queueOpen (s : State) (f : Fe) (q t : Nat) : Bool :=
  s.radio && !s.contention f t && (s.listAt f (cycleOf t)).any fun e => geOpens e (offsetOf t) q

/-- The BEACON entry open at instant t: its start, its end, its channel. -/
def State.beaconEntry (s : State) (f : Fe) (t : Nat) : Option (Nat × Nat × Nat) :=
  ((s.listAt f (cycleOf t)).find? fun e => geClass e == 0 && geOpen e (offsetOf t)).map fun e =>
    (cycleOf t * cycleNs + geStart e, cycleOf t * cycleNs + geEnd e, geChannel e)

/-- The channel of the BULK entry that opens queue q at instant t. -/
def State.bulkChannel (s : State) (f : Fe) (q t : Nat) : Option Nat :=
  ((s.listAt f (cycleOf t)).find? fun e => geClass e == 4 && geOpens e (offsetOf t) q).map geChannel

/-- How far into a cycle the open entries of a list carry queue q on from an offset, one entry at a time (R211). -/
def carryOn (l : List (BitVec 64)) (q : Nat) : Nat → Nat → Nat
  | 0, off => off
  | n + 1, off =>
    let u := (l.filterMap fun e => if geOpens e off q then some (geOpenEnd e off) else none).foldl max off
    if u = off then off else carryOn l q n u

/-- Later than any instant of network time: the end of an interval that the lists in force and due leave open for ever. -/
def neverNs : Nat := 2 ^ 80

/-- The end of the interval in which queue q stays open from an offset of a cycle on, each following cycle under the list in force at its
boundary (R211): once the shadow list is active a cycle open throughout repeats for ever, so only the change-over's cycle is sought. -/
def State.openUntil (s : State) (f : Fe) (q cycle off : Nat) : Nat :=
  let carry := fun (c o : Nat) => let l := s.listAt f c; carryOn l q (l.length + 1) o
  let g := s.gates f
  let last := match g.shadow with
    | some _ => max cycle (ceilTo g.notBefore cycleNs / cycleNs)
    | none => cycle
  let u := carry cycle off
  if u < cycleNs then cycle * cycleNs + u
  else if carry (cycle + 1) 0 < cycleNs then (cycle + 1) * cycleNs + carry (cycle + 1) 0
  else if last ≤ cycle + 1 then neverNs
  else if carry last 0 < cycleNs then last * cycleNs + carry last 0
  else neverNs

/-- The first start of a CONTENTION entry in (t, u], or u: in this cycle or the next, or from the change-over due on. -/
def State.nextContention (s : State) (f : Fe) (t u : Nat) : Nat :=
  let starts := fun (c : Nat) => (s.listAt f c).filterMap fun e =>
    let b := c * cycleNs + geStart e
    if geClass e = 5 ∧ t < b then some b else none
  let due := match (s.gates f).shadow with
    | some _ => starts (ceilTo (s.gates f).notBefore cycleNs / cycleNs)
    | none => []
  (starts (cycleOf t) ++ starts (cycleOf t + 1) ++ due).foldl min u

/-- The close of a gate for queue q from instant t (R211). -/
def State.gateClose (s : State) (f : Fe) (q t : Nat) : Nat := s.nextContention f t (s.openUntil f q (cycleOf t) (offsetOf t))

/-! ## Wake intervals (R208) -/

def nodeCycleOffset (n : Node) : Nat := n.eui.toNat % 65536 % 2 ^ n.wakeExp

def Node.listens (n : Node) (cycle : Nat) : Bool := n.listen || cycle % 2 ^ n.wakeExp == nodeCycleOffset n

/-- The queue a node's frames go to (R216). -/
def Node.queue (n : Node) : Nat := if n.listen then 256 + n.group else n.phase

/-- The node's listening window in a cycle. -/
def State.window (s : State) (n : Node) (cycle : Nat) : Nat × Nat :=
  if n.listen then (cycle * cycleNs, (cycle + 1) * cycleNs)
  else
    let b := cycle * cycleNs + n.phase * phaseNs
    (b, b + s.listenWindowUs * 1000)

/-- Instant t lies in the node's listening window of a cycle in which it listens. -/
def State.nodeHears (s : State) (n : Node) (t : Nat) : Bool :=
  let w := s.window n (cycleOf t)
  n.listens (cycleOf t) && decide (w.1 ≤ t) && decide (t < w.2)

/-- effective_sec of a node's pending assignment, rebuilt (R307). -/
def State.effSecond (s : State) (n : Node) : Nat := rebuild 20 n.effSec.toNat s.time.sec.toNat

/-- The close of a frame of node n from instant t: its gate, its window, its pending assignment. -/
def State.nodeClose (s : State) (f : Fe) (n : Node) (t : Nat) : Nat :=
  let c := if n.listen then s.gateClose f n.queue t else min (s.gateClose f n.queue t) (s.window n (cycleOf t)).2
  if n.pending then min c (s.effSecond n * 1000000000) else c

/-- The first instant at or after t within one cycle of a node's window at which its queue is open. -/
def State.openIn (s : State) (f : Fe) (n : Node) (t cycle : Nat) : Option Nat :=
  let w := s.window n cycle
  let lo := max t w.1
  let l := s.listAt f cycle
  let cand := lo :: l.flatMap fun e =>
    let b := cycle * cycleNs
    [b + geStart e, b + geEnd e, max (b + geStart e) (b + n.phase * phaseNs)]
  let good := cand.filter fun u => decide (lo ≤ u) && decide (u < w.2) && s.queueOpen f n.queue u
  good.foldl (fun (a : Option Nat) u => match a with
    | some v => some (min v u)
    | none => some u) none

/-- The first instant at or after t, over `k` cycles, at which a frame of the node is eligible (R217). -/
def State.firstEligible (s : State) (f : Fe) (n : Node) (t : Nat) : Nat → Nat → Option Nat
  | 0, _ => none
  | k + 1, cycle =>
    let here := if n.listens cycle then s.openIn f n t cycle else none
    match here with
    | some u => some u
    | none => s.firstEligible f n t k (cycle + 1)

/-- The eligible time of a node's flow (R217): not before its pacing time. -/
def State.flowTime (s : State) (n : Node) : Option Nat :=
  match feOf n.fe with
  | none => none
  | some f =>
    let t := max s.netNs n.paceNs
    s.firstEligible f n t (2 ^ n.wakeExp + 1) (cycleOf t)

/-! ## Credits (R219), in ps -/

def State.burst (s : State) : Int := (s.burstMs : Int) * 1000000000

def creditKey (w : Nat) (f : Fe) : Nat := 8 * feCode f + w

/-- The credit at the present instant. -/
def State.creditOf (s : State) (w : Nat) (f : Fe) : Int :=
  min s.burst (s.wake.credit.getD (creditKey w f) 0 + ((s.clk - s.wake.creditClk) * 4 * s.airShare w f : Nat))

/-- Brings every credit up to the present instant. -/
def State.settleCredits (s : State) : State :=
  let ks := feAll.flatMap fun f => (List.range 8).map fun w => (w, f)
  let t := ks.foldl (fun (t : Tbl Int) p =>
    let v := s.creditOf p.1 p.2
    if v = 0 then Tbl.erase t (creditKey p.1 p.2) else Tbl.set t (creditKey p.1 p.2) v) s.wake.credit
  { s with wake := { s.wake with credit := t, creditClk := s.clk } }

/-- Adds to a credit within its bounds; the amount by which it changed. -/
def State.addCredit (s : State) (w : Nat) (f : Fe) (d : Int) : Int × State :=
  let s := s.settleCredits
  let v := s.wake.credit.getD (creditKey w f) 0
  let u := max (-s.burst) (min s.burst (v + d))
  (u - v, { s with wake := { s.wake with credit := s.wake.credit.set (creditKey w f) u } })

/-! ## Frames -/

/-- The destination of a frame is a node whose records, and those of its route, still stand (R269). -/
def State.frameStands (s : State) (d : DownFrame) : Bool :=
  d.path.all fun p => match s.node p.1 with
    | some n => n.state != .clearing && n.eui == p.2
    | none => false

def DownFrame.node (d : DownFrame) : Option Nat :=
  match d.dst with
  | .node i _ => some i
  | .broadcast => none

def DownFrame.packet (d : DownFrame) : Option Nat :=
  match d.kind with
  | .data p _ _ => some p
  | _ => none

def downOf (p : Packet) : Option DownFrame :=
  match p.content with
  | .down d => some d
  | _ => none

/-- Keys of the orders of Q0 to Q319. -/
def isNodeOrder (k : Nat) : Bool := decide (k < 1280)

/-- A frame for node i waits in a queue, in the calendar or in a retry set. -/
def State.hasFrameFor (s : State) (i : Nat) : Bool :=
  let isFor := fun (p : Packet) => match downOf p with
    | some d => d.node == some i
    | none => false
  (s.queues.orders.any fun o => isNodeOrder o.1 && o.2.any isFor) ||
  (s.wake.flows.any fun f => f.node == i && !f.frames.isEmpty) ||
  feAll.any fun f => (s.feSt f).retry.any fun r => r.frame.node == some i

/-- A frame of node i waits in a retry set (R162). -/
def State.retryFor (s : State) (i : Nat) : Bool := feAll.any fun f => (s.feSt f).retry.any fun r => r.frame.node == some i

/-! ## Pacing and the end of packets (R221) -/

/-- A frame of a paced packet has ended at an instant: after the last, the node's pacing time is set. -/
def State.pacedEnd (s : State) (packet : Nat) (n endNs : Nat) : State :=
  match s.wake.paced.find? fun p => p.packet == packet with
  | none => s
  | some p =>
    let rest := s.wake.paced.filter fun q => q.packet != packet
    if p.left ≤ n then
      let s := { s with wake := { s.wake with paced := rest } }
      let share := s.nodeShare p.world
      match s.node p.node with
      | some m => s.setNode p.node { m with paceNs := endNs + p.air * (1000 - share) / share * 1000 }
      | none => s
    else { s with wake := { s.wake with paced := rest ++ [{ p with left := p.left - n }] } }

/-- Adds an attempt's time on air to its packet's sum. -/
def State.pacedAir (s : State) (packet : Nat) (us : Nat) : State :=
  { s with wake := { s.wake with paced := s.wake.paced.map fun p => if p.packet = packet then { p with air := p.air + us } else p } }

/-! ## Discarding (R162) -/

/-- Releases packets' cells. -/
def State.releaseAll (s : State) (l : List Packet) : State := l.foldl (fun s p => s.releaseChain p.acct p.cells p.chain) s

/-- Splits a list of packets by a test. -/
def splitBy (t : Packet → Bool) (l : List Packet) : List Packet × List Packet := (l.filter t, l.filter fun p => !t p)

/-- The remaining fragments of a packet leave every queue, flow and retry set (R162); their number. -/
def State.removePacket (s : State) (packet : Nat) : Nat × State :=
  let mine := fun (p : Packet) => match downOf p with
    | some d => d.packet == some packet
    | none => false
  let gone := s.queues.orders.flatMap fun o => if isNodeOrder o.1 then o.2.filter mine else []
  let orders := (s.queues.orders.map fun o => if isNodeOrder o.1 then (o.1, o.2.filter fun p => !mine p) else o).filter fun o => !o.2.isEmpty
  let goneF := s.wake.flows.flatMap fun f => (f.frames.map Prod.snd).filter mine
  let flows := (s.wake.flows.map fun (f : Flow) => { f with frames := f.frames.filter fun p => !mine p.2 }).filter fun f => !f.frames.isEmpty
  let s := { s with queues := { s.queues with orders := orders }, wake := { s.wake with flows := flows } }
  let s := (s.releaseAll gone).releaseAll goneF
  let r := feAll.foldl (fun (r : Nat × State) f =>
    let x := r.2.feSt f
    let bad := x.retry.filter fun q => q.frame.packet == some packet
    let t := r.2.setFe f { x with retry := x.retry.filter fun q => q.frame.packet != some packet }
    (r.1 + bad.length, bad.foldl (fun s q => s.releaseChain q.acct q.cells q.chain) t)) (gone.length + goneF.length, s)
  r

/-- A frame of a downstream packet is lost: the rest is discarded and counted, and the packet's pacing ends (R162, R221). -/
def State.abandonRest (s : State) (d : DownFrame) : State :=
  match d.packet with
  | none => s
  | some k =>
    let r := s.removePacket k
    (r.2.countN .dsFragAbandon (.world d.world) r.1).pacedEnd k (r.1 + 1) s.netNs

/-- Discards one frame under a counter. -/
def State.discardFrame (s : State) (d : DownFrame) (acct cells : Nat) (chain : List Nat) (c : Ctr) (sc : Scope) : State :=
  ((s.releaseChain acct cells chain).count c sc).abandonRest d

/-! ## The calendar (R217, R222 to R224) -/

/-- Places a flow by R222: released now, into a wheel slot, or on the far list. -/
def Flow.place (f : Flow) (now e : Nat) : Flow :=
  let b := ceilTo e slotNs
  if b ≤ now then { f with eligible := e, far := false, slot := 0, released := true }
  else if b < now / slotNs * slotNs + cycleNs then { f with eligible := e, far := false, slot := offsetOf b / slotNs, released := false }
  else { f with eligible := e, far := true, slot := 0, released := false }

def State.flowOf (s : State) (i : Nat) : Option Flow := s.wake.flows.find? fun f => f.node == i

/-- Puts a flow in place of its node's; an empty one ends (R224). -/
def State.setFlow (s : State) (f : Flow) : State :=
  let rest := s.wake.flows.filter fun g => g.node != f.node
  { s with wake := { s.wake with flows := if f.frames.isEmpty then rest else rest ++ [f] } }

/-- Discards the frames of a flow that meets no eligible time, at most `n`: each counted in ds_no_gate, the rest of its packet under R162 (R217). -/
def State.noGate (s : State) (i : Nat) : Nat → State
  | 0 => s
  | n + 1 => match s.flowOf i with
    | some w => match w.frames with
      | (_, p) :: t => match downOf p with
        | some d => ((s.setFlow { w with frames := t }).discardFrame d p.acct p.cells p.chain .dsNoGate (.world d.world)).noGate i n
        | none => (s.setFlow { w with frames := t }).noGate i n
      | [] => s
    | none => s

/-- Places a flow, with its eligible time computed anew. -/
def State.replace (s : State) (f : Flow) : State :=
  match s.node f.node with
  | none => s.setFlow f
  | some n => match s.flowTime n with
    | some e => s.setFlow (f.place s.netNs e)
    | none => (s.setFlow f).noGate f.node f.frames.length

/-- Moves a frame that fails R217 into its node's flow; `counted`: it is deferred for the first time. -/
def State.defer (s : State) (i : Nat) (q : Nat) (p : Packet) (d : DownFrame) : State :=
  match s.flowOf i with
  | some f => (s.setFlow { f with frames := f.frames ++ [(q, p)] }).count .shapeDeferred (.world d.world)
  | none =>
    if s.wake.flows.length ≥ 32768 then s.discardFrame d p.acct p.cells p.chain .shapeFlowFull (.world d.world)
    else (s.replace { node := i, eligible := 0, frames := [(q, p)], far := false, slot := 0, released := false }).count .shapeDeferred
      (.world d.world)

/-! ## Continuations (R163) -/

def State.contOf (s : State) (eui : BitVec 64) : Option Cont := s.mac.conts.find? fun c => c.eui == eui && decide (s.netNs ≤ c.endNs)

/-- Opens a continuation for a node, in place of any it has. -/
def State.openCont (s : State) (c : Cont) : State :=
  { s with mac := { s.mac with conts := (s.mac.conts.filter fun d => d.eui != c.eui) ++ [c] } }

/-! ## Channels (R299) -/

/-- The channel number of a frequency on a front end. -/
def State.channelOf (s : State) (f : Fe) (hz : Nat) : Option Nat := (List.range (s.channels f)).find? fun k => s.freqOf f k == hz

/-- The channel of a node's group at instant t. -/
def State.groupChannel (s : State) (f : Fe) (n : Node) (t : Nat) : Option Nat :=
  match s.canopy.groups.get n.group with
  | none => none
  | some g =>
    let m := g.freqs.length
    let i := if n.listen then 0 else if m = 0 then 0 else (cycleOf t + n.phase) % m
    match g.freqs[i]? with
    | some hz => s.channelOf f hz
    | none => none

/-! ## Candidates (R218) -/

/-- A frame that may be posted: its source as `Retry.src` has it, its channel and the bound on its sensing. -/
structure Cand where
  retry : Retry
  channel : Option Nat
  bound : Nat
  deriving DecidableEq, Repr

def candOf (d : DownFrame) (p : Packet) (q src : Nat) (channel : Option Nat) (bound : Nat) : Cand :=
  { retry := { frame := d, acct := p.acct, cells := p.cells, commit := p.commit, queue := q, attempts := 0, src := src, chain := p.chain }, channel := channel, bound := bound }

/-- A frame of node i may be posted now by its gate: its node's record names f, its queue is open, its node hears (R217). -/
def State.gateEligible (s : State) (f : Fe) (n : Node) : Bool :=
  n.fe == feCode f && s.queueOpen f n.queue s.netNs && s.nodeHears n s.netNs

def State.pacePassed (s : State) (n : Node) : Bool := decide (n.paceNs ≤ s.netNs)

/-- Examines the heads of an order until one is eligible (R217): the frame, with the state in which those before it are deferred. -/
def State.examine (s : State) (f : Fe) (q : Nat) : Nat → State
  | 0 => s
  | n + 1 =>
    let k := orderKey q (feCode f)
    match s.order k with
    | [] => s
    | p :: t => match downOf p with
      | none => s
      | some d =>
        if s.expired p then ((((s.setOrder k t).releaseChain p.acct p.cells p.chain).countExpired p.acct).abandonRest d).examine f q n
        else if !s.frameStands d then ((s.setOrder k t).discardFrame d p.acct p.cells p.chain .dsNodeGone (.world d.world)).examine f q n
        else match d.node with
          | none => s
          | some i => match s.node i with
            | none => s
            | some m =>
              if m.fe = feCode f ∧ m.queue = q ∧ s.nodeHears m s.netNs ∧ (s.flowOf i).isNone ∧ s.pacePassed m then s
              else if (s.contOf m.eui).isSome ∧ (s.flowOf i).isNone ∧ s.pacePassed m then s
              else ((s.setOrder k t).defer i q p d).examine f q n

/-- Released flows whose head no longer stands or no longer passes R217 are dealt with: discarded or placed again. -/
def State.reviewFlow (s : State) (f : Fe) (i : Nat) : State :=
  match s.flowOf i with
  | none => s
  | some w =>
    if !w.released then s
    else match s.node i, w.frames with
      | some n, (_, p) :: rest => match downOf p with
        | none => s
        | some d =>
          if !s.frameStands d then (s.setFlow { w with frames := rest }).discardFrame d p.acct p.cells p.chain .dsNodeGone (.world d.world)
          else if s.expired p then (((s.setFlow { w with frames := rest }).releaseChain p.acct p.cells p.chain).countExpired p.acct).abandonRest d
          else if n.fe ≠ feCode f then s
          else if s.gateEligible f n && s.pacePassed n then s
          else if (s.contOf n.eui).isSome then s
          else s.replace w
      | none, _ => w.frames.foldl (fun s p => match downOf p.2 with
          | some d => s.discardFrame d p.2.acct p.2.cells p.2.chain .dsNodeGone (.world d.world)
          | none => s) (s.setFlow { w with frames := [] })
      | _, [] => s.setFlow w

/-- Retry frames whose node's record names another front end move to that one's retry set. -/
def State.rehomeRetry (s : State) (f : Fe) : State :=
  let away := fun (r : Retry) => match r.frame.node with
    | some i => match s.node i with
      | some n => n.fe != feCode f && (feOf n.fe).isSome
      | none => false
    | none => false
  let x := s.feSt f
  let moved := x.retry.filter away
  moved.foldl (fun s r => match r.frame.node with
    | some i => match s.node i with
      | some n => match feOf n.fe with
        | some g =>
          let y := s.feSt g
          if y.retry.length < 64 then s.setFe g { y with retry := y.retry ++ [r] }
          else s.discardFrame r.frame r.acct r.cells r.chain .txRetrySetFull (.world r.frame.world)
        | none => s
      | none => s
    | none => s) (s.setFe f { x with retry := x.retry.filter fun r => !away r })

/-- Retry frames whose records no longer stand are discarded (R269). -/
def State.dropRetry (s : State) (f : Fe) : State :=
  let x := s.feSt f
  let bad := x.retry.filter fun r => !s.frameStands r.frame
  bad.foldl (fun s r => s.discardFrame r.frame r.acct r.cells r.chain .dsNodeGone (.world r.frame.world))
    (s.setFe f { x with retry := x.retry.filter fun r => s.frameStands r.frame })

/-- Queues of Q0 to Q319 that are open on f now. -/
def State.openQueues (s : State) (f : Fe) : List Nat :=
  let t := s.netNs
  phaseOf t :: (List.range 64).map (fun g => 256 + g) |>.filter fun q => s.queueOpen f q t

/-- Everything the choice of R218 looks at is examined: retry frames, released flows, the heads of the open queues. -/
def State.prepare (s : State) (f : Fe) : State :=
  let s := feAll.foldl (fun s g => (s.dropRetry g).rehomeRetry g) s
  let s := (s.wake.flows.map fun w => w.node).foldl (fun s i => s.reviewFlow f i) s
  (s.openQueues f).foldl (fun s q => s.examine f q (s.order (orderKey q (feCode f))).length) s

/-- A frame of node n may go: by its continuation, or by its gate; its channel and its bound. -/
def State.termsFor (s : State) (f : Fe) (n : Node) : Option (Option Nat × Nat) :=
  match s.contOf n.eui with
  | some c => if c.fe = feCode f then some (some c.channel, c.endNs)
    else none
  | none => if s.gateEligible f n then some (s.groupChannel f n s.netNs, s.nodeClose f n s.netNs) else none

/-- Retry frames that are eligible. -/
def State.retryCands (s : State) (f : Fe) : List Cand :=
  (s.feSt f).retry.filterMap fun r =>
    let r := { r with src := if r.src = 3 then 4 else 2 }
    match r.frame.node with
    | some i => match s.node i with
      | some n => (s.termsFor f n).map fun t => { retry := r, channel := t.1, bound := t.2 }
      | none => none
    | none => if s.queueOpen f r.queue s.netNs then
        some { retry := r, channel := s.bulkChannel f r.queue s.netNs, bound := s.gateClose f r.queue s.netNs } else none

/-- The next frame of a node: its flow's head, else the first for it in its queue's order. -/
def State.nextFrame (s : State) (f : Fe) (i : Nat) (n : Node) : Option (DownFrame × Packet × Nat × Nat) :=
  match s.flowOf i with
  | some w => match w.frames with
    | (q, p) :: _ => (downOf p).map fun d => (d, p, q, 1)
    | [] => none
  | none =>
    (s.order (orderKey n.queue (feCode f))).findSome? fun p => match downOf p with
      | some d => if d.node = some i then some (d, p, n.queue, 0) else none
      | none => none

def State.contCands (s : State) (f : Fe) : List Cand :=
  s.mac.conts.filterMap fun c =>
    if c.fe ≠ feCode f ∨ c.endNs < s.netNs then none
    else match s.findEui c.eui with
      | none => none
      | some i => match s.node i with
        | none => none
        | some n =>
          if n.fe ≠ feCode f ∨ s.retryFor i ∨ !s.pacePassed n then none
          else (s.nextFrame f i n).map fun r => candOf r.1 r.2.1 r.2.2.1 r.2.2.2 (some c.channel) c.endNs

/-- Inserts a flow in ascending eligible time, then ascending node. -/
def flowInsert (w : Flow) : List Flow → List Flow
  | [] => [w]
  | x :: t => if x.eligible < w.eligible ∨ (x.eligible = w.eligible ∧ x.node ≤ w.node) then x :: flowInsert w t else w :: x :: t

def State.flowCands (s : State) (f : Fe) : List Cand :=
  let l := (s.wake.flows.filter fun w => w.released).foldl (fun l w => flowInsert w l) []
  l.filterMap fun w => match s.node w.node, w.frames with
    | some n, (q, p) :: _ =>
      if s.retryFor w.node || !s.gateEligible f n || !s.pacePassed n then none
      else (downOf p).map fun d => candOf d p q 1 (s.groupChannel f n s.netNs) (s.nodeClose f n s.netNs)
    | _, _ => none

def State.queueCands (s : State) (f : Fe) : List Cand :=
  (s.openQueues f).filterMap fun q => match s.order (orderKey q (feCode f)) with
    | p :: _ => match downOf p with
      | some d => match d.node with
        | some i => match s.node i with
          | some n =>
            if s.retryFor i || !(s.gateEligible f n) || (s.flowOf i).isSome || !s.pacePassed n then none
            else some (candOf d p q 0 (s.groupChannel f n s.netNs) (s.nodeClose f n s.netNs))
          | none => none
        | none => none
      | none => none
    | [] => none

/-- Front ends that send the bulk frames of a world (R226). -/
def State.bulkFes (s : State) (w : Nat) : List Nat := (feAll.filter fun f => bitOf (s.bulkMask w) (feCode f) && s.hasFe f).map feCode

def State.bulkCands (s : State) (f : Fe) : List Cand :=
  ((List.range 64).map fun j => 448 + j).filterMap fun q =>
    if !bitOf (s.bulkMask ((q - 448) / 8)) (feCode f) || !s.queueOpen f q s.netNs then none
    else
      let waits := fun (p : Packet) => match downOf p with
        | some d => !p.sentBy.contains (feCode f) && !((s.feSt f).retry.any fun r => r.frame == d && r.commit == p.commit)
        | none => false
      match (s.order (orderKey q 0)).find? waits with
      | some p => (downOf p).map fun d => candOf d p q 3 (s.bulkChannel f q s.netNs) (s.gateClose f q s.netNs)
      | none => none

/-- Every frame eligible for f in the order of R218. -/
def State.cands (s : State) (f : Fe) : List Cand :=
  (s.retryCands f ++ s.contCands f ++ s.flowCands f ++ s.queueCands f ++ s.bulkCands f).filter fun c =>
    !c.retry.frame.ar || (match c.channel with
      | some k => (s.laneFor f k).isSome
      | none => true)

/-- World a precedes world b on f (R218). -/
def State.worldBefore (s : State) (f : Fe) (a b : Nat) : Bool :=
  let ca := s.creditOf a f
  let cb := s.creditOf b f
  let pa := decide (0 ≤ ca)
  let pb := decide (0 ≤ cb)
  if pa != pb then pa
  else
    let ha := decide (0 < s.airShare a f)
    let hb := decide (0 < s.airShare b f)
    if ha != hb then ha else if ca ≠ cb then decide (cb < ca) else decide (a < b)

/-- The frame R218 chooses. -/
def State.choose (s : State) (f : Fe) : Option Cand :=
  let l := s.cands f
  match l with
  | [] => none
  | c :: t =>
    let w := t.foldl (fun w x => if s.worldBefore f x.retry.frame.world w then x.retry.frame.world else w) c.retry.frame.world
    l.find? fun x => x.retry.frame.world == w

end Sys2Proof.Machine
end

