-- ==== Sys2Proof/Machine/MacOps.lean ====
section
/-! DEFINITION. The MAC's transmissions (chapter 6): beacons, channel access, attempts, retries and what their end brings. -/

namespace Sys2Proof.Machine

/-! ## Sensing (R156) -/

def State.senseUs (s : State) (sub : Nat) : Nat := if subLbt s.region sub = 0 then s.ccaUs else subSense s.region sub

/-- The unit back-off period in ticks: sensing time plus 20 µs. -/
def State.backoffUnit (s : State) (sub : Nat) : Nat := usTicks (s.senseUs sub + 20)

def State.senseThr (s : State) (sub : Nat) : Int := if subLbt s.region sub = 0 then s.ccaThr else subLbtThr s.region sub

/-! ## Mode, port and power of a frame -/

/-- Mode and rate of a frame to a node on f (R105). -/
def State.nodeMode (s : State) (f : Fe) (n : Node) : Nat × Nat :=
  if f = .h then (if n.validH then (n.modeH, n.rateH) else (s.defaultMode f, s.defaultRate f))
  else if n.validSub then (n.modeSub, n.rateSub) else (s.defaultMode f, s.defaultRate f)

/-- Mode and rate of any downstream frame (R105). -/
def State.frameMode (s : State) (f : Fe) (d : DownFrame) : Nat × Nat :=
  match d.node.bind s.node with
  | some n => s.nodeMode f n
  | none => (s.beaconMode f, 0)

/-- The lowest fitted port of a front end, which broadcast frames use (log entry 32). -/
def State.firstPort (s : State) (f : Fe) : Nat := if s.portFitted f 0 then 0 else 1

def State.framePort (s : State) (f : Fe) (d : DownFrame) : Nat :=
  match d.node.bind s.node with
  | some n => n.aerial
  | none => s.firstPort f

/-- Power of a frame: the record's, p_max for a broadcast frame (log entry 32), limited under R71. -/
def State.framePower (s : State) (f : Fe) (d : DownFrame) (sub : Nat) : Int :=
  s.limitPower f (s.framePort f d) sub (match d.node.bind s.node with
    | some n => n.txPower
    | none => s.pMax f)

/-- Carrier pre-correction of a frame to a node (R80). -/
def State.framePrecorr (s : State) (f : Fe) (d : DownFrame) : Int :=
  if !s.precorrOn f then 0
  else match d.node.bind s.node with
    | some n =>
      let age : Int := (s.time.sec.toNat : Int) - rebuild 32 n.offsetSec.toNat s.time.sec.toNat
      if n.offsetHeld && n.offsetBand == (f == .h) && decide (age ≤ s.precorrMaxAge f) then clampOffset (8 * n.offset.toInt) else 0
    | none => 0

/-! ## Beacons (R166 to R168) -/

/-- Groups a front end's beacon lists: its own, ascending, at most max_groups. -/
def State.beaconGroups (s : State) (f : Fe) : List (Nat × Group) :=
  (s.canopy.groups.filter fun p => p.2.fe == feCode f).take (s.beaconMaxGroups f)

/-- Start of the first BEACON entry after an instant, in the present cycle or the next. -/
def State.nextBeacon (s : State) (f : Fe) (t : Nat) : Option Nat :=
  let starts := fun (c : Nat) => (s.listAt f c).filterMap fun e =>
    let b := c * cycleNs + geStart e
    if geClass e = 0 ∧ t < b then some b else none
  (starts (cycleOf t) ++ starts (cycleOf t + 1)).foldl (fun (a : Option Nat) u => match a with
    | some v => some (min v u)
    | none => some u) none

/-- Time from the beacon entry in force to the front end's next one, in 8 ms units; 0 if none follows (Table 6.2). -/
def State.beaconInterval (s : State) (f : Fe) : Nat :=
  match s.nextBeacon f (s.feSt f).beaconFrom with
  | some b => (b - (s.feSt f).beaconFrom) / phaseNs
  | none => 0

/-- Element 0x01 (Table 6.2) as the template in force gives it, its time fields zero; flags as they stand (R180). -/
def State.beaconTemplate (s : State) (f : Fe) : Octets :=
  let fl := (if s.locked then 1 else 0) + (if s.time.disc = .holdover then 2 else 0) + (if s.rtc.trusted then 0 else 4)
  let gs := s.beaconGroups f
  toLe 3 (s.beaconOui f) ++ [1, 1] ++ toLe 2 (s.routerId.getD 0) ++ toLe 1 fl ++ List.replicate 11 0 ++ toLe 2 (s.beaconInterval f) ++
    toLe 1 (feCode f) ++ toLe 4 (s.centre f) ++ toLe 1 (s.raster f) ++ toLe 1 gs.length ++
    gs.flatMap fun p => toLe 1 p.1 ++ toLe 8 ((List.range (s.channels f)).foldl (fun v k =>
      if p.2.freqs.contains (s.freqOf f k) then v + 2 ^ k else v) 0)

/-- The template of a beacon whose sensing begins now: through a forwarding pause the last one, but for the interval of its entry (R20, R168; log
entry 76). -/
def State.beaconElem (s : State) (f : Fe) : Octets :=
  let t := (s.feSt f).template
  if !s.inPause || t.isEmpty then s.beaconTemplate f else t.take 19 ++ toLe 2 (s.beaconInterval f) ++ t.drop 21

/-- Writes sfd_sec, sfd_ns and phase: the instant at which the last sync symbol leaves the ball (R168). -/
def stampBeacon (sfd : Nat) (e : Octets) : Octets :=
  e.take 8 ++ toLe 6 (sfd / 1000000000) ++ toLe 4 (sfd % 1000000000) ++ toLe 1 (phaseOf sfd) ++ e.drop 19

/-- The octets of a beacon, with its FCS (R166). -/
def State.beaconFrame (s : State) (f : Fe) (elem : Octets) : Octets :=
  withFcs (s.fcsOctets f (s.beaconMode f) == 2) (beaconOctets s.panId s.id.eui64 (s.feSt f).beaconSeq elem)

/-- PSDU octets of a beacon with an element of so many octets (R168). -/
def State.beaconPsdu (s : State) (f : Fe) (elem : Nat) : Nat := 17 + elem + s.fcsOctets f (s.beaconMode f)

/-- The port a beacon goes out on. -/
def State.beaconPortNow (s : State) (f : Fe) : Nat :=
  let p := s.beaconPort f
  if p ≠ 2 then p
  else if s.portFitted f 0 && s.portFitted f 1 then (if (s.feSt f).beaconB then 1 else 0)
  else s.firstPort f

/-- A beacon that cannot start any more is skipped (R166). -/
def State.skipBeacon (s : State) (f : Fe) : State :=
  let x := s.feSt f
  let own := match x.attempt with
    | some a => (match a.body with
      | .beacon _ => true
      | _ => false)
    | none => false
  (s.setFe f { x with beacon := none, beaconTries := 0, attempt := if own then none else x.attempt }).count .beaconSkipped (.fe (feCode f))

/-! ## Withdrawing (R146, R152, R219) -/

/-- Returns an attempt's charge and credit. -/
def State.giveBack (s : State) (f : Fe) (a : Attempt) : State :=
  let s := s.returnCharge a.admitted a.air
  let s := if a.credit = 0 then s else match a.body with
    | .frame r => (s.addCredit r.frame.world f (-a.credit)).2
    | _ => s
  match (s.feSt f).attempt with
  | some b => s.setFe f { s.feSt f with attempt := some { b with admitted := none, credit := 0 } }
  | none => s

/-- Withdraws the request of class other than ACK that f holds unstarted. -/
def State.withdraw (s : State) (f : Fe) : State :=
  let x := s.feSt f
  let drop : Bool := match x.held with
    | some q => q.cls != .ack
    | none => false
  s.setFe f { x with posted := x.posted.filter (fun q => q.cls == .ack), held := if drop then none else x.held }

/-! ## Ends of attempts (R161, R162, R226) -/

/-- A bulk frame has gone out on f, or will not: it leaves its queue after the last front end (R226). -/
def State.bulkSentBy (s : State) (f : Fe) (r : Retry) : State :=
  let k := orderKey r.queue 0
  let mine := fun (p : Packet) => p.commit == r.commit && downOf p == some r.frame
  let l := (s.order k).map fun (p : Packet) => if mine p then { p with sentBy := p.sentBy ++ [feCode f] } else p
  let all := s.bulkFes ((r.queue - 448) / 8)
  let gone := l.filter fun p => mine p && all.all fun g => p.sentBy.contains g
  (s.setOrder k (l.filter fun p => !(mine p && all.all fun g => p.sentBy.contains g))).releaseAll gone

def Retry.bulk (r : Retry) : Bool := r.src == 3 || r.src == 4

/-- A frame has been sent for good: its cells are released and its packet advances. -/
def State.frameDone (s : State) (f : Fe) (r : Retry) (endNs : Nat) : State :=
  if r.bulk then (s.bulkSentBy f r).count .bulkSent (.world r.frame.world)
  else
    let s := s.releaseChain r.acct r.cells r.chain
    match r.frame.packet with
    | some k => s.pacedEnd k 1 endNs
    | none => s

/-- A frame is given up under a counter. -/
def State.frameLost (s : State) (f : Fe) (r : Retry) (c : Ctr) : State :=
  if r.bulk then (s.bulkSentBy f r).count c (.world r.frame.world)
  else s.discardFrame r.frame r.acct r.cells r.chain c (.world r.frame.world)

/-- Puts a frame into a retry set in the order of first entry. -/
def retryInsert (r : Retry) : List Retry → List Retry
  | [] => [r]
  | x :: t => if x.since ≤ r.since then x :: retryInsert r t else r :: x :: t

/-- An attempt has failed: the frame waits in the retry set, or is discarded (R162). -/
def State.attemptFailed (s : State) (f : Fe) (r : Retry) (c : Ctr) : State :=
  let r := { r with attempts := r.attempts + 1 }
  if r.attempts ≥ 1 + s.maxRetries then s.frameLost f r c
  else
    let x := s.feSt f
    if x.retry.length ≥ 64 then s.frameLost f r .txRetrySetFull
    else
      let kept := { r with src := if r.bulk then 3 else 2, since := if r.since = 0 then s.clk else r.since }
      s.setFe f { x with retry := retryInsert kept x.retry }

/-- The frame returns to its place untouched (R158). -/
def State.putBack (s : State) (f : Fe) (r : Retry) : State :=
  let p : Packet := { acct := r.acct, cells := r.cells, commit := r.commit, content := .down r.frame, chain := r.chain }
  match r.src with
  | 0 =>
    let k := orderKey r.queue (feCode f)
    s.setOrder k (p :: s.order k)
  | 1 => match r.frame.node with
    | some i => match s.flowOf i with
      | some w => s.setFlow { w with frames := (r.queue, p) :: w.frames }
      | none =>
        if s.wake.flows.length ≥ 32768 then s.discardFrame r.frame r.acct r.cells r.chain .shapeFlowFull (.world r.frame.world)
        else s.replace { node := i, eligible := s.netNs, frames := [(r.queue, p)], far := false, slot := 0, released := false }
    | none => s
  | 3 => s
  | _ => s.setFe f { s.feSt f with retry := retryInsert { r with src := if r.src = 4 then 3 else 2 } (s.feSt f).retry }

/-- The attempt ends by access failure (R157); a beacon whose attempts are all made is skipped (R161). -/
def State.accessFailed (s : State) (f : Fe) (a : Attempt) : State :=
  let s := s.setFe f { s.feSt f with attempt := none }
  match a.body with
  | .frame r => s.attemptFailed f r .txCcaFail
  | .beacon _ =>
    let n := (s.feSt f).beaconTries + 1
    if n ≥ 1 + s.maxRetries then s.skipBeacon f else s.setFe f { s.feSt f with beaconTries := n }
  | .test => s

/-- The wait before a sensing interval begins: random(0 to 2^be − 1) unit back-off periods, drawn from the hardware generator, whose values are
free (R157). -/
def State.backOff (s : State) (f : Fe) (a : Attempt) : State :=
  let n := (Config.drbg s.rnd).toNat % 2 ^ a.be
  { s with rnd := s.rnd + 1 }.setFe f { s.feSt f with attempt := some { a with
    phase := .backoff, refused := false, void := false, waitEnd := s.clk + n * s.backoffUnit a.sub } }

/-- A busy sensing interval (R157). -/
def State.csmaBusy (s : State) (f : Fe) : State :=
  match (s.feSt f).attempt with
  | none => s
  | some a =>
    let s := (s.withdraw f).giveBack f a
    let a := { a with admitted := none, credit := 0 }
    if a.nb + 1 > s.maxBackoffs then s.accessFailed f a
    else s.backOff f { a with nb := a.nb + 1, be := min (a.be + 1) s.maxBe }

/-! ## Beginning an attempt (R157, R218) -/

/-- Takes a chosen frame out of its place; a bulk frame stays. -/
def State.takeOut (s : State) (f : Fe) (r : Retry) : State :=
  match r.src with
  | 0 =>
    let k := orderKey r.queue (feCode f)
    let same := fun (p : Packet) => p.commit == r.commit && downOf p == some r.frame
    match (s.order k).find? same with
    | some p => s.setOrder k ((s.order k).erase p)
    | none => s
  | 1 => match r.frame.node.bind s.flowOf with
    | some w => s.setFlow { w with frames := w.frames.drop 1 }
    | none => s
  | 3 => s
  | _ => s.setFe f { s.feSt f with retry := (s.feSt f).retry.filter fun q => !(q.frame == r.frame && q.commit == r.commit) }

/-- PSDU octets of a frame as f sends it. -/
def State.sentLen (s : State) (f : Fe) (d : DownFrame) : Nat := d.mpdu + s.fcsOctets f (s.frameMode f d).1

/-- Why a frame can never be sent on a channel of f: the counter and its scope (R71, R109, R143, R147). -/
def State.refusal (s : State) (f : Fe) (d : DownFrame) (channel : Option Nat) : Option (Ctr × Scope) :=
  let m := s.frameMode f d
  match channel.bind fun k => (s.subBand f k).map fun i => (k, i) with
  | none => some (.txNoSubband, .device)
  | some (_, i) =>
    if s.sentLen f d < minPsdu (s.fcsOctets f m.1 == 2) ∨ s.sentLen f d > s.txMaxPsdu f m.1 then some (.txLenRefused, .fe (feCode f))
    else if s.tooLong i (s.txAir f m.1 m.2 (s.sentLen f d)) then some (.txDutyRefused, .device)
    else if s.powerNone f (s.framePort f d) i then some (.txEirpRefused, .fe (feCode f))
    else none

/-- Begins the attempt of a frame that can be sent. -/
def State.beginAttempt (s : State) (f : Fe) (c : Cand) (k i : Nat) : State :=
  let r := c.retry
  let m := s.frameMode f r.frame
  let s := s.takeOut f r
  s.backOff f {
    body := .frame r, phase := .backoff, nb := 0, be := min (s.minBe + r.attempts) s.maxBe, sub := i, channel := k
    port := s.framePort f r.frame, power := s.framePower f r.frame i, mode := m.1, rate := m.2, air := s.txAir f m.1 m.2 (s.sentLen f r.frame)
    bound := some c.bound, admitted := none, senseStart := 0, refused := false, credit := 0 }

/-- The attempt of a beacon (R166), where it can be sent.  Its first sensing interval begins at the entry's start, without a wait (R212). -/
def State.beginBeacon (s : State) (f : Fe) (close k : Nat) : State :=
  let m := s.beaconMode f
  let len := s.beaconPsdu f (s.beaconElem f).length
  let port := s.beaconPortNow f
  match s.subBand f k with
  | none => (s.skipBeacon f).count .txNoSubband .device
  | some i =>
    let air := s.txAir f m 0 len
    if len > s.txMaxPsdu f m then (s.skipBeacon f).count .txLenRefused (.fe (feCode f))
    else if s.tooLong i air then (s.skipBeacon f).count .txDutyRefused .device
    else if s.powerNone f port i then (s.skipBeacon f).count .txEirpRefused (.fe (feCode f))
    else
      let tries := (s.feSt f).beaconTries
      let a : Attempt := {
        body := .beacon close, phase := .backoff, nb := 0, be := min (s.minBe + tries) s.maxBe, sub := i, channel := k, port := port
        power := s.limitPower f port i (s.beaconPower f), mode := m, rate := 0, air := air, bound := some close, admitted := none
        senseStart := 0, refused := false, credit := 0, waitEnd := s.clk }
      if tries = 0 then s.setFe f { s.feSt f with attempt := some a } else s.backOff f a

/-- The attempt of an RF test's burst (R443). -/
def State.beginBurst (s : State) (f : Fe) (t : RfTest) : State :=
  match s.subBand f t.channel with
  | none => s
  | some i => s.backOff f {
      body := .test, phase := .backoff, nb := 0, be := min s.minBe s.maxBe, sub := i, channel := t.channel, port := t.port
      power := s.limitPower f t.port i t.power, mode := t.airMode, rate := t.rate, air := t.burst * 1000, bound := none, admitted := none
      senseStart := 0, refused := false, credit := 0 }

/-- Chooses and begins, discarding frames that can never be sent; at most `n` discards. -/
def State.selectFrame (s : State) (f : Fe) : Nat → State
  | 0 => s
  | n + 1 =>
    match s.choose f with
    | none => s
    | some c =>
      match s.refusal f c.retry.frame c.channel with
      | some (ctr, sc) =>
        let r := c.retry
        let s := s.takeOut f r
        (if r.bulk then (s.bulkSentBy f r).count ctr sc else s.discardFrame r.frame r.acct r.cells r.chain ctr sc).selectFrame f n
      | none =>
        match c.channel.bind fun k => (s.subBand f k).map fun i => (k, i) with
        | some (k, i) => s.beginAttempt f c k i
        | none => s

/-- FRAME_SELECT's work (R210, R218, R443, Table 18.8 step 3). -/
def State.select (s : State) (f : Fe) : State :=
  let x := s.feSt f
  if !s.radio || s.feMode f == .off || x.attempt.isSome || x.ackWait.isSome then s
  else match x.rfTest with
    | some t => if t.mode = 2 ∨ 3 ≤ s.isl.step then s else s.beginBurst f t
    | none =>
      match x.beacon, s.beaconEntry f s.netNs with
      | some close, some (_, _, k) => s.beginBeacon f close k
      | _, _ =>
        if decide (3 ≤ s.isl.step) || s.contention f s.netNs then s
        else (s.prepare f).selectFrame f 64

/-! ## Posting a request (R157, R158) -/

/-- The transmit request of an attempt.  Frame pending is set over the octets as protected, whose MIC stays (R161, R163; log entry 75). -/
def State.requestFor (s : State) (f : Fe) (a : Attempt) : TxReq :=
  let target := s.netNs + s.senseUs a.sub * 1000
  let latest := match a.bound with
    | some b => min (target + 100000) b
    | none => target + 100000
  let fcs2 := s.fcsOctets f a.mode == 2
  let body := match a.body with
    | .frame r => TxBody.down r.frame (match r.frame.node with
        | some i => s.hasFrameFor i
        | none => false)
    | .beacon close => .beacon close (s.beaconElem f)
    | .test => .test
  { channel := a.channel, port := a.port, power := a.power, mode := a.mode, rate := a.rate
    cls := match a.body with
      | .beacon _ => .beacon
      | _ => .other
    precorr := match a.body with
      | .frame r => s.framePrecorr f r.frame
      | _ => 0
    target := target, latest := latest, start := target, air := a.air, charge := some (a.sub, s.time.sec.toNat), body := body
    fcs2 := fcs2, whitening := s.whitening f
    psdu := match body with
      | .down d pending => withFcs fcs2 (setPending pending d.octets)
      | .beacon _ e => s.beaconFrame f e
      | _ => [] }

/-- A unicast frame with AR is posted only while its channel has an assigned lane (R160). -/
def State.laneLacks (s : State) (f : Fe) (a : Attempt) : Bool :=
  match a.body with
  | .frame r => r.frame.ar && (s.laneFor f a.channel).isNone
  | _ => false

/-- The back-off has ended: the request is posted and sensing begins; where that would be past its bound, or no lane would hear its ACK, the frame
returns to its place (R158, R160). -/
def State.backoffEnd (s : State) (f : Fe) : State :=
  let x := s.feSt f
  match x.attempt with
  | none => s
  | some a =>
    if a.phase ≠ .backoff ∨ s.clk < a.waitEnd ∨ s.ackOwedOn f ∨ s.blanked f ∨ s.feMode f = .off then s
    else
      let tooLate := match a.bound with
        | some b => decide (b < s.netNs)
        | none => false
      let shut := match a.body with
        | .beacon _ => false
        | _ => s.contention f s.netNs || decide (3 ≤ s.isl.step) || s.laneLacks f a
      if tooLate || shut then
        let s := s.setFe f { x with attempt := none }
        match a.body with
        | .frame r => s.putBack f r
        | .beacon _ => s.skipBeacon f
        | .test => s
      else
        let a : Attempt := match a.body with
          | .beacon _ => { a with air := s.txAir f a.mode a.rate (s.beaconPsdu f (s.beaconElem f).length) }
          | _ => a
        let cls : TxClass := match a.body with
          | .beacon _ => .beacon
          | _ => .other
        let admitted := s.admits a.sub a.air cls
        let busy := !admitted || s.channelBusy f a.channel
        let q := s.requestFor f a
        let c : Int × State := match a.body with
          | .frame r => s.addCredit r.frame.world f (-(a.air * 1000000 : Nat))
          | _ => (0, s)
        let s := if admitted then c.2.charge a.sub a.air else s
        let b := { a with phase := .sensing, senseStart := s.netNs, refused := busy, void := false
                          admitted := if admitted then some (a.sub, s.time.sec.toNat) else none, credit := if admitted then c.1 else 0 }
        s.setFe f { s.feSt f with attempt := some b, posted := if admitted then (s.feSt f).posted ++ [q] else (s.feSt f).posted }

/-- The sensing interval has ended (R156, R157): void where it met blanking, of the part's own making or as the operand says. -/
def State.senseEnd (s : State) (f : Fe) (power : Int) (blanked : Bool) : State :=
  let x := s.feSt f
  match x.attempt with
  | none => s
  | some a =>
    if a.phase ≠ .sensing ∨ s.netNs < a.senseStart + s.senseUs a.sub * 1000 then s
    else if blanked || a.void || s.blanked f then
      let s := (s.withdraw f).giveBack f a
      s.setFe f { s.feSt f with attempt := some { a with
        phase := .backoff, refused := false, void := false, admitted := none, credit := 0, waitEnd := s.clk } }
    else if a.refused || decide (s.senseThr a.sub < power) then s.csmaBusy f
    else s.setFe f { x with attempt := some { a with phase := .sending } }

/-- An ACK becomes owed on f: the unstarted request is withdrawn and counts as a busy interval (R152). -/
def State.ackTakes (s : State) (f : Fe) : State :=
  match (s.feSt f).attempt with
  | none => s.withdraw f
  | some a =>
    match a.phase with
    | .backoff => s
    | .sensing => ((s.withdraw f).giveBack f a).setFe f { ((s.withdraw f).giveBack f a).feSt f with
        attempt := some { a with refused := true, admitted := none, credit := 0 } }
    | .sending => if (s.feSt f).cur.isSome then s else s.csmaBusy f

/-! ## The node's acknowledgement (R159 to R163) -/

/-- Preamble and SFD or sync word of the node's ACK, in µs. -/
def State.ackSync (s : State) (f : Fe) (mode : Nat) : Nat :=
  let p := s.nodeAckPreamble
  match mode with
  | 0 => 8 * (p + 2) * 20
  | 1 | 2 => 8 * (p + 2) * 10
  | 3 => 160
  | 6 => (16 * s.nodeAckHs + 256) * helecTick (f = .h)
  | _ => (8 * p + 32) * helecTick (f = .h)

def State.measOf (s : State) (i : Nat) : Meas := s.canopy.meas.getD i {}

def State.setMeas (s : State) (i : Nat) (m : Meas) : State := { s with canopy := { s.canopy with meas := s.canopy.meas.set i m } }

/-- ack_pm takes one attempt (Table 11.2); Canopy takes no measurement through a forwarding pause (Table 1.5). -/
def State.ackMeasured (s : State) (i : Nat) (ok : Bool) : State :=
  let m := s.measOf i
  if s.inPause then s
  else s.setMeas i { m with ackPm := (3 * m.ackPm + (if ok then 1000 else 0) + 2) / 4, attempts := m.attempts + 1 }

/-- The ACK awaited is missing (R159, R161). -/
def State.ackMissing (s : State) (f : Fe) (w : AckWait) : State :=
  let s := s.setFe f { s.feSt f with ackWait := none }
  let s := match w.retry.frame.node with
    | some i => s.ackMeasured i false
    | none => s
  s.attemptFailed f w.retry .txNoAck

/-- The ACK awaited has come, at `endNs`: the frame is done, a continuation may open, an assignment is confirmed (R163, R305). -/
def State.ackCame (s : State) (f : Fe) (w : AckWait) (endNs : Nat) : State :=
  let s := s.setFe f { s.feSt f with ackWait := none }
  let s := match w.retry.frame.dst with
    | .node i e =>
      let s := s.ackMeasured i true
      let s := if w.pending then
          s.openCont { eui := e, fe := feCode f, channel := w.channel, endNs := endNs + s.pendingHoldMs * 1000000 }
        else s
      match s.canopy.course.get i with
      | some c => if w.retry.frame.elem then
          { s with canopy := { s.canopy with course := s.canopy.course.set i { c with confirmed := true } } }
        else s
      | none => s
    | .broadcast => s
  s.frameDone f w.retry endNs

/-- A frame f has sent has ended at `endNs` (R159, R161, R221). -/
def State.downSent (s : State) (f : Fe) (a : Attempt) (r : Retry) (pending : Bool) (endNs : Nat) : State :=
  let s := match r.frame.packet with
    | some k => s.pacedAir k a.air
    | none => s
  let s := s.setFe f { s.feSt f with attempt := none }
  if r.frame.ar then
    s.setFe f { s.feSt f with ackWait := some {
      retry := r, channel := a.channel, lane := s.laneFor f a.channel
      deadline := endNs + 1000000 + s.ackMarginUs * 1000 + s.ackSync f a.mode * 1000, arrived := none, pending := pending, laneMoved := false
      mode := a.mode, rate := a.rate } }
  else s.frameDone f r endNs

/-! ## The part's own acknowledgement -/

/-- An owed ACK is sent no more, or has ended (R152). -/
def State.ackOver (s : State) (l : Nat) : State := s.setLane l { s.lane l with ackOwed := false }

/-- An ACK is not sent (R153). -/
def State.ackNotSent (s : State) (f : Fe) (q : TxReq) : State :=
  let s := s.returnCharge q.charge q.air
  let s := match q.body with
    | .ack l _ _ _ => s.ackOver l
    | _ => s
  s.count .ackLate (.fe (feCode f))

/-- A refused or withdrawn request of the MAC. -/
def State.refused (s : State) (f : Fe) (q : TxReq) : State :=
  if q.cls = .ack then s.ackNotSent f q
  else match (s.feSt f).attempt with
    | none => s
    | some a =>
      if a.phase = .sending then s.csmaBusy f
      else (s.giveBack f a).setFe f { (s.giveBack f a).feSt f with attempt := some { a with refused := true, admitted := none, credit := 0 } }

/-! ## A front end goes OFF (R61, R500) -/

/-- What the MAC had on a front end that goes OFF: the frame on the air ends its attempt, one not yet begun returns to its place, requests
it holds are refused with TX_UNAVAILABLE. -/
def State.macOff (s : State) (f : Fe) : State :=
  let x := s.feSt f
  let s := match x.ackWait with
    | some w => s.ackMissing f w
    | none => s
  let acks := (x.posted ++ x.held.toList).filter fun q => q.cls == .ack
  let s := acks.foldl (fun s q => s.ackNotSent f q) s
  let s := match x.cur with
    | some q => match q.body with
      | .ack l _ _ _ => s.ackOver l
      | _ => s
    | none => s
  let s := if x.held.isSome then s.count .feTxRefused (.fe (feCode f)) else s
  match (s.feSt f).attempt with
  | none => s
  | some a =>
    let onAir : Bool := x.cur.isSome && a.phase == .sending
    let s := if onAir then s else s.giveBack f a
    let s := s.setFe f { s.feSt f with attempt := none }
    match a.body with
    | .frame r => if onAir then s.attemptFailed f r .txNoAck else s.putBack f r
    | .beacon _ => if onAir then s else s.skipBeacon f
    | .test => s

/-- Unit kinds of Table 15.8, with the event of R500; causes are the rows of Table 18.6 and, past them, of Table 18.5 (log entry 33). -/
def State.unitLost (s : State) (kind number cause : Nat) : State :=
  (s.count .unitMappedOut (.kind kind)).raise 0x1202 none (toBe 1 kind ++ toBe 1 number ++ toBe 1 cause)

/-- A front end is mapped out (Table 18.6): OFF until the next start. -/
def State.feFault (s : State) (f : Fe) (cause : Nat) : State :=
  if (s.feSt f).faulty then s
  else
    let s := (s.macOff f).feOff f
    let s := s.setFe f { s.feSt f with faulty := true }
    let s := { s with canopy := { s.canopy with faultClk := some s.clk, owed := if s.canopy.owed.contains 1 then s.canopy.owed else s.canopy.owed ++ [1] } }
    (s.canLog 0x10 1 0xFF 2 (0x400 + feCode f) 1 0 0).unitLost 3 (feCode f) cause

end Sys2Proof.Machine
end

