-- ==== Sys2Proof/Machine/Score.lean ====
section
/-! DEFINITION. What Canopy reads and how it scores (chapter 11): channel groups, counts of nodes, avoided and watched channels, the
score of a placement (R301). -/

namespace Sys2Proof.Machine

/-! ## Fields of CANOPY's front-end entries (Table 11.9) -/

def State.canopyFe (s : State) (f : Fe) (off len dflt : Nat) : Nat := s.canopyN (72 + 16 * feCode f + off) len dflt
def State.cfgCentre (s : State) (f : Fe) : Nat := s.cfgN 0x02 (feCode f) 0 4 0
def State.sliceLo (s : State) (f : Fe) : Nat := s.canopyFe f 0 4 (s.cfgCentre f)
def State.sliceHi (s : State) (f : Fe) : Nat := s.canopyFe f 4 4 (s.cfgCentre f)
def State.sliceStepMax (s : State) (f : Fe) : Nat := s.canopyFe f 8 1 0
def State.groupBase (s : State) (f : Fe) : Nat := s.canopyFe f 9 1 (16 * feCode f)
def State.groupWidth (s : State) (f : Fe) : Nat := s.canopyFe f 11 1 (if f = .h then 1 else max 1 (ceilDiv (s.channels f) 16))
def State.groupCount (s : State) (f : Fe) : Nat := s.canopyFe f 10 1 (ceilDiv (s.channels f) (s.groupWidth f))

/-- Group numbers of a front end (R297). -/
def State.groupNumbers (s : State) (f : Fe) : List Nat := (List.range (s.groupCount f)).map fun j => s.groupBase f + j

def State.group (s : State) (g : Nat) : Option Group := s.canopy.groups.get g

/-- The default layout of a front end (R297). -/
def State.defaultGroups (s : State) (f : Fe) : List (Nat × Group) :=
  let w := s.groupWidth f
  (List.range (s.groupCount f)).filterMap fun j =>
    let ks := ((List.range w).map fun i => j * w + i).filter fun k => k < s.channels f
    if ks.isEmpty then none else some (s.groupBase f + j, { fe := feCode f, freqs := ks.map (s.freqOf f) })

/-! ## Channels -/

/-- A channel within half its own raster of a neighbour's frequency is avoided (R317). -/
def nearRaster (hz raster foreign : Nat) : Bool := decide (2 * hz ≤ 2 * foreign + rasterHz raster) && decide (2 * foreign ≤ 2 * hz + rasterHz raster)

def State.avoidedHz (s : State) (f : Fe) (hz : Nat) : Bool := s.canopy.marks.any fun m => nearRaster hz (s.raster f) m.2

def State.avoided (s : State) (f : Fe) (k : Nat) : Bool := s.avoidedHz f (s.freqOf f k)

/-- A lane that serves watches the channel. -/
def State.watched (s : State) (f : Fe) (k : Nat) : Bool :=
  s.feMode f != .off && (List.range 48).any fun l => s.laneUsable l && (s.lane l).assigned == some (feCode f, k)

/-- busy_pm of a frequency, unknown where it was never measured or left the slice 7 days ago (Table 11.2). -/
def State.busyPm (s : State) (f : Fe) (hz : Nat) : Nat :=
  match s.canopy.busy.find? fun b => b.fe == feCode f && b.hz == hz with
  | some b => if s.clk ≤ b.clk + secTicks 604800 then b.pm else s.unknownBusyPm
  | none => s.unknownBusyPm

/-! ## Members: records that are LIVE, QUIET or RETIRING, counted at the place a pending assignment gives them (Table 11.2) -/

def State.isMember (s : State) (n : Node) : Bool :=
  (n.state == .live || n.state == .quiet || n.state == .retiring) && n.epoch == s.epochOf n.world

def Node.toGroup (n : Node) : Nat := if n.pending then n.newGroup else n.group
def Node.toPhase (n : Node) : Nat := if n.pending then n.newPhase else n.phase

/-- The front end that owns a group number: that of its channels, or of its range. -/
def State.groupFe (s : State) (g : Nat) : Option Fe :=
  match s.group g with
  | some x => feOf x.fe
  | none => feAll.find? fun f => s.hasFe f && (s.groupNumbers f).contains g

def State.toFe (s : State) (n : Node) : Nat :=
  if n.pending then (match s.groupFe n.newGroup with
    | some f => feCode f
    | none => n.fe) else n.fe

def State.members (s : State) : List (Nat × Node) := s.table.nodes.filter fun p => s.isMember p.2

/-- U[g], in ppm with 16 fractional bits, of the group's nodes other than `skip`. -/
def State.groupU (s : State) (g skip : Nat) : Nat :=
  s.members.foldl (fun u p => if p.1 != skip && p.2.toGroup == g then u + (s.measOf p.1).u else u) 0

/-- N[F] and N[F][p]: sleeping nodes other than `skip`. -/
def State.countFe (s : State) (f : Fe) (skip : Nat) : Nat :=
  (s.members.filter fun p => p.1 != skip && !p.2.listen && s.toFe p.2 == feCode f).length

def State.countPhase (s : State) (f : Fe) (ph skip : Nat) : Nat :=
  (s.members.filter fun p => p.1 != skip && !p.2.listen && s.toFe p.2 == feCode f && p.2.toPhase == ph).length

/-- A group has members, present or pending. -/
def State.groupMembers (s : State) (g : Nat) : Nat := (s.members.filter fun p => p.2.group == g || (p.2.pending && p.2.newGroup == g)).length

/-! ## The score (R301) -/

/-- Four times (sensitivity + 170) for N = 2048, with the sensitivity in dBm (Table 4.9). -/
def sens4 (onH : Bool) (mode rate : Nat) : Int :=
  match mode, onH with
  | 0, _ => 240
  | 1, _ => 256
  | 2, _ => 284
  | 3, _ => 276
  | 4, false => 212 + 10 * (rate : Int)
  | 4, true => 240 + 10 * (rate : Int)
  | 5, false => 236 + 10 * (rate : Int)
  | 5, true => 264 + 10 * (rate : Int)
  | _, false => 172
  | _, true => 200

/-- L of R301 from an estimate. -/
def State.linkMargin (s : State) (f : Fe) (n : Node) (e : LinkEst) : Nat :=
  if e.hearings = 0 then 0
  else
    let m := s.nodeMode f n
    min 120 ((e.level : Int) - sens4 (f == .h) m.1 m.2).toNat

def State.estOf (s : State) (i : Nat) (f : Fe) : LinkEst := (s.measOf i).est.get f

/-- An estimate is valid (R296). -/
def State.estValid (s : State) (e : LinkEst) : Bool := decide (4 ≤ e.hearings) && decide (s.netNs ≤ e.usedNs + s.linkStaleS * 1000000000)

/-- A channel of a group counts in a of R301. -/
def State.badChannels (s : State) (f : Fe) (g : Group) : Nat :=
  (g.freqs.filter fun hz => s.avoidedHz f hz || !((s.channelOf f hz).any fun k => s.watched f k)).length

/-- The score of (g, p) for node i, with its estimate on the group's pipeline. -/
def State.scoreWith (s : State) (i : Nat) (n : Node) (f : Fe) (g p : Nat) (e : LinkEst) : Int :=
  let freqs := ((s.group g).map fun x => x.freqs).getD []
  let m := freqs.length
  let l := s.linkMargin f n e
  let gg := (s.groupU g i + (s.measOf i).u) / (65536 * 100 * m)
  let h := if n.listen then 0 else 256000 * (s.countPhase f p i + 1) / (s.countFe f i + 1)
  let a := 1000 * (s.badChannels f { fe := feCode f, freqs := freqs }) / m
  (s.wLink * l : Nat) - (s.wGrp * gg : Nat) - (s.wPh * h : Nat) - (s.wAvoid * a : Nat)

def State.score (s : State) (i : Nat) (n : Node) (g p : Nat) : Int :=
  match s.groupFe g with
  | some f => s.scoreWith i n f g p (s.estOf i f)
  | none => 0

/-! ## Candidates (R300) -/

/-- The mode a node's frames would take on a front end is enabled there (R113). -/
def State.modeFits (s : State) (f : Fe) (n : Node) : Bool := s.modeOn f (s.nodeMode f n).1


/-- Groups of a front end that Canopy may place a node of world w in: not OFF, in fe_mask, no channel avoided. -/
def State.openGroups (s : State) (w : Nat) (f : Fe) : List Nat :=
  if s.feMode f == .off || !bitOf (s.worldFes w) (feCode f) then []
  else (s.canopy.groups.filter fun p => p.2.fe == feCode f && !(p.2.freqs.any fun hz => s.avoidedHz f hz)).map Prod.fst

def State.phases (s : State) (w : Nat) : List Nat := (List.range 256).filter fun p => decide (s.phaseLo w ≤ p) && decide (p ≤ s.phaseHi w)

/-- Candidate groups of node i: those whose estimate is valid and clears link_min_db; `only`: a pinned front end. -/
def State.candGroups (s : State) (i : Nat) (n : Node) (only : Option Nat) : List Nat :=
  feAll.flatMap fun f =>
    let e := s.estOf i f
    if s.modeFits f n && s.estValid e && decide (4 * s.linkMinDb ≤ s.linkMargin f n e) && (match only with
        | some c => c == feCode f
        | none => true) then s.openGroups n.world f else []

/-- Candidates (g, p) of node i other than the present one, in ascending group and phase. -/
def State.candPlaces (s : State) (i : Nat) (n : Node) (only : Option Nat) : List (Nat × Nat) :=
  (s.candGroups i n only).flatMap fun g => if n.listen then [(g, n.phase)] else (s.phases n.world).map fun p => (g, p)

/-- The candidate of highest score, the first given on ties. -/
def bestOf {α : Type} (score : α → Int) : List α → Option (α × Int)
  | [] => none
  | x :: t => match bestOf score t with
    | some (y, v) => if v ≤ score x then some (x, score x) else some (y, v)
    | none => some (x, score x)

/-! ## Exchanges (R295) -/

def State.inExchange (s : State) (i : Nat) (n : Node) : Bool :=
  n.state == .joining || n.pending || (s.table.joins.any fun j => j.node == i) || s.retryFor i || (s.contOf n.eui).isSome ||
  (s.wake.paced.any fun p => p.node == i && decide (0 < p.air)) ||
  [384, 385, 386].any fun q => (s.order (orderKey q 0)).any fun p => match p.content with
    | .rx _ f => f.src == .ext n.eui
    | _ => false

/-! ## Placement at a join (R303) -/

/-- Group, phase and front end of a node whose JOIN-CONFIRM came on f at `level`; `none`: no group is a candidate. -/
def State.joinPlace (s : State) (i : Nat) (n : Node) (f : Fe) (level : Nat) : Option (Nat × Nat) :=
  let e : LinkEst := { level := 2 * level, hearings := 1 }
  let gs := s.openGroups n.world f
  let ph := match bestOf (fun p => -(s.countPhase f p i : Int)) (s.phases n.world) with
    | some (p, _) => p
    | none => 0
  (bestOf (fun g => s.scoreWith i n f g ph e) gs).map fun r => (r.1, ph)

end Sys2Proof.Machine
end

