-- ==== Sys2Proof/Machine/DownOps.lean ====
section
/-! DEFINITION. Protection of downstream frames (R164, R369, R373 to R378), the node-key cache (R368) and the commits of R216. -/

namespace Sys2Proof.Machine

/-! ## The node-key cache (R368) -/

/-- A job is in flight on the slot. -/
def State.slotBusy (s : State) (k : Nat) : Bool := (s.crypto.unitJob.any fun p => p.2.slot == k) || s.crypto.waiting.any fun j => j.slot == k

/-- The cache slot a key is loaded into: an EMPTY one, else the least recently used without a job in flight. -/
def State.cacheVictim (s : State) : Nat :=
  match cacheSlots.find? fun k => (s.slot k).state == .empty with
  | some k => k
  | none =>
    let free := cacheSlots.filter fun k => !s.slotBusy k
    free.foldl (fun best k => if s.crypto.cacheUse.getD k 0 < s.crypto.cacheUse.getD best 0 then k else best) (free.headD 168)

/-- Puts a link key of node i into the cache. -/
def State.cacheKey (s : State) (i world : Nat) (key : Key) : State :=
  let k := s.cacheVictim
  let s := s.loadSlot k { world := BitVec.ofNat 3 world, usage := useFwd, lcs := 3, key := key }
  { s with crypto := { s.crypto with cacheUse := s.crypto.cacheUse.set k s.clk, cacheNode := s.crypto.cacheNode.set k i } }

/-- A node's link key, from the cache or from its Heartwood copy; `none`: no longer held (R15, R358). -/
def State.linkKey (s : State) (i : Nat) (n : Node) : Option (Key × State) :=
  match s.cachedSlot i with
  | some k => some ((s.slot k).key, { s with crypto := { s.crypto with cacheUse := s.crypto.cacheUse.set k s.clk } })
  | none => match s.hw.nodeKeys.get i with
    | some r => if r.crcOk && bitOf r.sec.toNat 11 then
        (match s.unwrapBy 1 r.wrapped with
        | some key => some (keyOf key, s.cacheKey i n.world (keyOf key))
        | none => none)
      else none
    | none => none

/-- K_node of an EUI-64 under world w's K_join; `none`: slot 32 + w not READY (Table 12.2). -/
def State.nodeKey (s : State) (w : Nat) (eui : BitVec 64) : Option Key :=
  if (s.slot (32 + w)).state = .ready then some (derive (s.slot (32 + w)).octets "EPNOR-NODE" (euiOctets eui) 128) else none

/-! ## Overheads (R164, R379, Table 13.6) -/

/-- Auxiliary header and MIC of a security level. -/
def secOctets (level : Nat) : Nat := if level = 5 then 10 else if level = 7 then 22 else 14

/-- MAC header of a frame to an extended address, and of one to the broadcast address. -/
def State.macHeader (s : State) : Nat := if s.srcMode = 0 then 15 else 21
def State.macHeaderCast (s : State) : Nat := s.macHeader - 6

/-- Octets of a worn-counter notice in a frame (R378): its vendor IE, with the terminations where the frame has no other element. -/
def wornOctets (worn elem : Bool) : Nat := if worn then (if elem then 7 else 11) else 0

/-- O of R164 for a frame of front end f to node n. -/
def State.overhead (s : State) (f : Fe) (n : Node) : Nat :=
  s.macHeader + secOctets n.secLevel + (if n.pending then 20 else 0) + s.fcsOctets f (s.nodeMode f n).1

/-- A of R164: room of a frame, less a worn-counter notice it carries. -/
def State.room (s : State) (f : Fe) (n : Node) : Nat := s.txMaxPsdu f (s.nodeMode f n).1 - s.overhead f n - wornOctets n.worn n.pending

/-! ## Counters (R377, R378) -/

/-- The ceiling of node i's outbound counter. -/
def State.nodeCeil (s : State) (i : Nat) : Nat := (s.hw.fc.getD i { fcIn := 0, ceiling := 0 }).ceiling.toNat

def lastCounter : Nat := 0xFFFFFFFF
def wornCounter : Nat := 0xF0000000

/-- READY group slots of a slot's world that hold its key: they draw from one counter (R462). -/
def State.keyTwins (s : State) (k : Nat) : List Nat :=
  match slotWorld k with
  | some w => (groupSlots w).filter fun j => (s.slot j).state == .ready && (s.slot j).key == (s.slot k).key
  | none => [k]

/-- The next outbound value of a group slot's key. -/
def State.groupNextOf (s : State) (k : Nat) : Nat := (s.keyTwins k).foldl (fun n j => max n (s.crypto.groupNext.getD j 0)) 0

/-- A group slot's ceiling. -/
def State.groupCeil (s : State) (k : Nat) : Nat := (s.keyTwins k).foldl (fun n j => max n (match s.hw.groupCell.get j with
  | some c => c.ceiling.toNat
  | none => 0)) 0

/-- Sets the next outbound value of a group slot's key. -/
def State.setGroupNext (s : State) (k n : Nat) : State :=
  { s with crypto := { s.crypto with groupNext := (s.keyTwins k).foldl (fun t j => t.setNat j n) s.crypto.groupNext } }

/-- What protecting ends in. -/
inductive Prot where
  /-- The value needed reaches the ceiling before its write completes: the protection waits. -/
  | wait
  /-- The frames are discarded or committed. -/
  | done (s : State)
  deriving DecidableEq, Repr

/-! ## Unicast frames to a node's queue -/

/-- A frame still to be protected: the contents of its vendor payload IEs, its MAC payload behind them, and what it carries. -/
structure Plain where
  ies : List Octets := []
  body : Octets := []
  kind : DownKind
  deriving DecidableEq, Repr

/-- The authenticated head of a secured frame: MAC header, auxiliary header, Header Termination 1 where payload IEs follow (R371, R379). -/
def State.secHead (s : State) (ar : Bool) (seq : BitVec 8) (dst : Addr) (level fc : Nat) (keyIndex : BitVec 8) (ies : List Octets) : Octets :=
  dataHeader ar (!ies.isEmpty) seq s.panId dst s.srcAddr ++ auxHeader level fc keyIndex ++ (if ies.isEmpty then [] else headerTerm)

/-- What is encrypted: the payload IEs with their termination, and the MAC payload. -/
def secBody (ies : List Octets) (body : Octets) : Octets := (if ies.isEmpty then [] else ies.flatMap vendorIe ++ payloadTerm) ++ body

/-- The protected octets of a frame the part sends (R371, R373). -/
def State.sealed (s : State) (key : Key) (level fc : Nat) (head body : Octets) : Octets :=
  ccmSeal (beOfNat 16 key.toNat) (ccmNonce s.id.eui64 fc level) level head body

/-- A frame of a join is protected apart from the record's counter (Table 13.9): level and key index. -/
structure OtherKey where
  level : Nat
  keyIndex : Nat
  fc : Nat
  deriving DecidableEq, Repr

/-- The protected form of one frame to node n by front end f, the record's counters advanced with it.  Element 0x02 and the notice of a worn counter
go into its payload IEs (R305, R378); their OUI is that of the front end's BEACON record (Table 6.3). -/
def State.protectOne (s : State) (i : Nat) (n : Node) (f : Fe) (key : Key) (p : Plain) (ar : Bool) (path : List (Nat × BitVec 64))
    (other : Option OtherKey) : DownFrame × Node :=
  let assigned := n.pending && other.isNone
  let worn := n.worn && other.isNone
  let level := match other with
    | some o => o.level
    | none => n.secLevel
  let fc := match other with
    | some o => o.fc
    | none => n.fcOut.toNat
  let keyIndex := match other with
    | some o => BitVec.ofNat 8 o.keyIndex
    | none => BitVec.ofNat 8 (0x80 + 16 * n.world + n.keyGen)
  let oui := s.beaconOui f
  let fe := match s.groupFe n.newGroup with
    | some g => feCode g
    | none => n.fe
  let ies := (if assigned then [assignElem oui n.newGroup n.newPhase fe (s.effSecond n) n.listen] else []) ++
    (if worn then [rejoinElem oui 3] else []) ++ p.ies
  let head := s.secHead ar n.seqOut (.ext n.eui) level fc keyIndex ies
  let body := secBody ies p.body
  let mpdu := head.length + body.length + micLen level
  let d : DownFrame := {
    world := n.world, dst := .node i n.eui, fe := f, mpdu := mpdu, psdu := mpdu + s.fcsOctets f (s.nodeMode f n).1, ar := ar, seq := some n.seqOut
    keyIndex := some keyIndex, fc := BitVec.ofNat 32 fc, elem := assigned, worn := worn, path := path, kind := p.kind
    octets := s.sealed key level fc head body }
  let m := { n with seqOut := n.seqOut + 1 }
  let m := if other.isSome then m
    else { m with fcOut := n.fcOut + 1, worn := if worn then false else decide (n.fcOut.toNat + 1 = wornCounter) }
  (d, m)

/-- Protects a train of frames in order. -/
def State.protectAll (s : State) (i : Nat) (n : Node) (f : Fe) (key : Key) (ar : Bool) (path : List (Nat × BitVec 64)) (other : Option OtherKey) :
    List Plain → List DownFrame × Node
  | [] => ([], n)
  | p :: t =>
    let r := s.protectOne i n f key p ar path other
    let u := s.protectAll i r.2 f key ar path (other.map fun o => { o with fc := o.fc + 1 }) t
    (r.1 :: u.1, u.2)

/-- The front end a node's record names, SA where it names none. -/
def nodeFe (n : Node) : Fe := (feOf n.fe).getD .sa

/-- Commits protected frames to node n's queue, whole or not at all: ds_queue_full where the cells are refused (R216, R246). -/
def State.queueFrames (s : State) (i : Nat) (before after : Node) (frames : List DownFrame) : Option State :=
  let q := before.queue
  let acct := accountOf q before.world
  match s.grant acct ((frames.map fun d => cellsOf d.psdu).foldl (· + ·) 0) with
  | none => none
  | some t =>
    some ((frames.foldl (fun t d => t.commitTo (orderKey q before.fe) acct (cellsOf d.psdu) (.down d)) t).setNode i after)

/-- Protects and commits a train of frames for node i under its link key. -/
def State.sendUnicast (s : State) (i : Nat) (n : Node) (l : List Plain) (path : List (Nat × BitVec 64)) (tooLong : Bool := false) : Prot :=
  if tooLong then .done (s.count .dsHdrTooBig (.world n.world))
  else match s.linkKey i n with
  | none => .done (s.count .txKeyAbsent (.world n.world))
  | some (key, t) =>
    let c := n.fcOut.toNat
    if c + l.length > lastCounter then .done (t.count .txFcExhausted (.world n.world))
    else if c + l.length > t.nodeCeil i then .wait
    else
      let r := t.protectAll i n (nodeFe n) key true path none l
      match t.queueFrames i n r.2 r.1 with
      | some u => .done u
      | none => .done (t.count .dsQueueFull (.world n.world))

/-- A frame of a join or a notice under K_node of world w with the join counter (R374). -/
def State.sendJoinKey (s : State) (i : Nat) (n : Node) (w : Nat) (key : Key) (elem : Octets) (kind : DownKind) : Prot :=
  let c := s.crypto.joinNext
  if c ≥ lastCounter then .done (s.count .txFcExhausted (.world w))
  else if c ≥ s.hw.joinCeil.toNat then .wait
  else
    let r := s.protectOne i n (nodeFe n) key { ies := [elem], kind := kind } true [(i, n.eui)] (some { level := 6, keyIndex := 0x40 + w, fc := c })
    let d := { r.1 with world := w }
    let s := { s with crypto := { s.crypto with joinNext := c + 1 } }
    match s.queueFrames i { n with world := w } r.2 [d] with
    | some u => .done u
    | none => .done (s.count .dsQueueFull (.world w))

/-! ## Broadcast frames (R226, R373) -/

/-- FCS octets of a world's bulk frames on the front end of its bulk mask whose FCS is longest. -/
def State.castFcs (s : State) (w : Nat) : Nat :=
  (feAll.filter fun f => (s.bulkFes w).contains (feCode f)).foldl (fun m f => max m (s.fcsOctets f (s.beaconMode f))) 2

/-- Room in a world's bulk frames: of the front ends that send them, the least. -/
def State.castRoom (s : State) (w : Nat) : Nat :=
  let top := (feAll.filter fun f => (s.bulkFes w).contains (feCode f)).foldl (fun m f => min m (s.txMaxPsdu f (s.beaconMode f))) 2047
  top - (s.macHeaderCast + secOctets (s.worldLevel w) + s.castFcs w)

/-- Protects and commits broadcast frames of world w to queue q under its group key.  The manual states no sequence number for them: it is free
(log entry 75). -/
def State.sendCast (s : State) (w q : Nat) (l : List Plain) (tooLong : Bool := false) : Prot :=
  let k := 40 + 16 * w + s.txGroup w
  if tooLong then .done (s.count .dsHdrTooBig (.world w))
  else if (s.slot k).state != .ready then .done (s.count .txKeyAbsent (.world w))
  else
    let c := s.groupNextOf k
    let n := l.length
    if c + n > lastCounter then .done (s.count .txFcExhausted (.world w))
    else if c + n > s.groupCeil k then .wait
    else
      let fe := (feAll.find? fun f => (s.bulkFes w).contains (feCode f)).getD .sa
      let level := s.worldLevel w
      let index := BitVec.ofNat 8 (0x20 + s.txGroup w)
      let key := (s.slot k).key
      let frames : List DownFrame := (List.range n).zip l |>.map fun p =>
        let seq := Config.freeOctet s.rnd p.1
        let head := s.secHead false seq (.short 0xFFFF) level (c + p.1) index p.2.ies
        let body := secBody p.2.ies p.2.body
        let mpdu := head.length + body.length + micLen level
        { world := w, dst := .broadcast, fe := fe, mpdu := mpdu, psdu := mpdu + s.castFcs w, ar := false, seq := none
          keyIndex := some index, fc := BitVec.ofNat 32 (c + p.1), elem := false, worn := false, path := [], kind := p.2.kind
          octets := s.sealed key level (c + p.1) head body }
      let acct := accountOf q w
      let s := { s with rnd := s.rnd + 1 }.setGroupNext k (c + n)
      let s := if c < wornCounter ∧ wornCounter ≤ c + n then s.raise 0x0D01 (some w) (toBe 1 w ++ toBe 1 k) else s
      match s.grant acct ((frames.map fun d => cellsOf d.psdu).foldl (· + ·) 0) with
      | none => .done (s.count .dsQueueFull (.world w))
      | some t => .done (frames.foldl (fun t d => t.commitTo (orderKey q 0) acct (cellsOf d.psdu) (.down d)) t)

/-! ## Fragmentation (R165) -/

/-- Payload octets of FRAG1 beside compressed headers of hc octets, hu uncompressed. -/
def frag1 (room hc hu : Nat) : Nat :=
  let top := room - 4 - hc
  top - (hu + top) % 8

/-- Payload octets of the FRAGNs. -/
def fragRest (step : Nat) : Nat → Nat → List Nat
  | 0, _ => []
  | n + 1, left => if left = 0 then [] else if left ≤ step then [left] else step :: fragRest step n (left - step)

/-- Octets above the MAC of each frame of a packet: its compressed size, its headers compressed and not, its payload; `none`: its
headers do not fit. -/
def sawmillCuts (room c hc hu payload : Nat) : Option (List Nat) :=
  if c ≤ room then some [c]
  else if hc + 4 > room ∨ room < 13 then none
  else
    let f := min payload (frag1 room hc hu)
    some ((4 + hc + f) :: (fragRest ((room - 5) / 8 * 8) payload (payload - f)).map fun n => 5 + n)

/-- The FRAGNs of the octets left, `sent` uncompressed octets being sent already. -/
def fragNs (size tag : Nat) : Nat → Octets → List Nat → List Octets
  | _, _, [] => []
  | sent, left, n :: t => (fragNHeader size tag (sent / 8) ++ left.take (n - 5)) :: fragNs size tag (sent + (n - 5)) (left.drop (n - 5)) t

/-- The octets above the MAC of each frame of a compressed packet cut into those sizes (R165). -/
def sawmillFrames (tag : Nat) (compressed : Octets) (hc hu : Nat) : List Nat → List Octets
  | [] => []
  | [_] => [compressed]
  | n :: t =>
    let size := hu + (compressed.length - hc)
    (frag1Header size tag ++ compressed.take (n - 4)) :: fragNs size tag (hu + (n - 4 - hc)) (compressed.drop (n - 4)) t

/-- The frames of packet number k with those payloads. -/
def plainsOf (k : Nat) (cast : Bool) (l : List Octets) : List Plain :=
  (List.range l.length).zip l |>.map fun p =>
    { body := p.2, kind := if cast then .multicast k else .data k p.1 (p.1 + 1 == l.length) }

/-- A fragmented packet takes the next datagram_tag. -/
def State.takeTag (s : State) (sizes : List Nat) : State :=
  if sizes.length > 1 then { s with mac := { s.mac with fragTag := s.mac.fragTag + 1 } } else s

end Sys2Proof.Machine
end

