-- ==== Sys2Proof/Machine/FrontEnds.lean ====
section
/-! DEFINITION. Meanings of the events of the front ends and of channel access (chapters 3 and 6). -/

namespace Sys2Proof.Machine

/-! ## Transmit requests -/

/-- A transmit calibration begins on a channel, ending 36 µs after `start`; counted (R62). -/
def State.beginCal (s : State) (f : Fe) (k start : Nat) : State :=
  (s.setFe f { s.feSt f with cal := some (k, start + usTicks 36) }).count .feCal (.fe (feCode f))

/-- The held request's channel is brought to the synthesiser: a hop, or a calibration once the present frame and calibration end. -/
def State.tune (s : State) (f : Fe) : State :=
  let x := s.feSt f
  match x.held with
  | none => s
  | some q =>
    if x.cur.isSome || x.cal.isSome then s
    else if x.parked = some q.channel then s
    else if s.calibrated f q.channel then s.setFe f { x with parked := some q.channel }
    else s.beginCal f q.channel s.clk

/-- A front end in SLEEP or STANDBY comes up for an accepted request: its receive synthesiser is calibrated, and in parallel the transmit one
on the request's channel (Tables 3.3 and 3.4, R62). -/
def State.comeUp (s : State) (f : Fe) (k : Nat) : State :=
  let x := s.feSt f
  match x.mode with
  | .sleep => ((s.setFe f { x with mode := .synthOn, rxTemp := x.temp, rxDue := none }).beginCal f k (s.clk + usTicks 412)).count .feCal (.fe (feCode f))
  | .standby => ((s.setFe f { x with mode := .synthOn, rxTemp := x.temp, rxDue := none }).beginCal f k (s.clk + usTicks 12)).count .feCal (.fe (feCode f))
  | _ => s

/-- The front end takes the oldest request posted (R58, R66, R67). -/
def State.takeRequest (s : State) (f : Fe) (temp : Int) : State :=
  let x := s.feSt f
  match x.posted with
  | [] => s
  | q :: rest =>
    let s := s.setFe f { x with posted := rest, temp := temp }
    let unavailable := s.feMode f == .off || !s.portFitted f q.port || decide (s.channels f ≤ q.channel)
    if unavailable || x.held.isSome then (s.count .feTxRefused (.fe (feCode f))).refused f q
    else
      let r := s.ready f q.channel
      if q.latest < r then (s.count .feTxLate (.fe (feCode f))).refused f q
      else
        let s := s.setFe f { s.feSt f with held := some { q with start := max q.target r }, idleSince := s.clk }
        (s.comeUp f q.channel).tune f

/-- TRANSMIT_REQUEST (R58, R66, R67). -/
def execTransmitRequest (dt : Nat) (f : Fe) (temp : Int) (s : State) : Host.Outcome State Fault Refusal :=
  .next (let t := s.tick dt
    if t.radio then t.takeRequest f temp else t)

/-! ## Commit (R68, R78) -/

/-- The latest end of the frames lanes of the guarded front ends hold past their PHY header. -/
def State.guardEnd (s : State) (f : Fe) (q : TxReq) : Option Nat :=
  ((f :: s.crossBlanks f q).flatMap fun g => (s.lanesOn g).filterMap s.frameEndOf).foldl (fun (a : Option Nat) u => match a with
    | some v => some (max v u)
    | none => some u) none

/-- The request's frame has been decided: not an attempt still sensing (R157). -/
def State.decided (s : State) (f : Fe) (q : TxReq) : Bool :=
  q.cls == .ack || (match (s.feSt f).attempt with
    | some a => a.phase == .sending
    | none => true)

/-- The start of a request as the guard leaves it (R68). -/
def State.guardedStart (s : State) (f : Fe) (q : TxReq) : Nat :=
  if q.cls = .other ∧ q.start < q.latest then
    match s.guardEnd f q with
    | some e => min q.latest (max q.start (q.start + (e - s.commitOf f q.start)))
    | none => q.start
  else q.start

/-- A request at its commit: the time fields of a beacon are written (R168). -/
def State.atCommit (s : State) (f : Fe) (q : TxReq) : TxReq :=
  match q.body with
  | .beacon close e =>
    let e := stampBeacon (q.start + untilSfd (s.txFmt f q.mode q.rate q.psdu.length) * 1000) e
    { q with body := .beacon close e, psdu := s.beaconFrame f e }
  | _ => q

/-- Symbols of a PN9 burst of `us` µs (R443). -/
def pn9Burst (fmt : AirFmt) (us : Nat) : List Int :=
  let n := us * 1000 / symbolNs fmt
  if fmt.mode = 2 ∨ fmt.mode = 5 then dev4All fmt.onH (pn9 (2 * n)) else if fmt.mode = 3 then [] else (pn9 n).map (dev2 fmt.onH)

/-- What the front end puts on the air for a request: the frame's symbols between two ramps (R69, R86 to R91, R101, R105); the burst of an RF test is
the carrier without modulation, or PN9 (R443). -/
def State.waveFor (s : State) (f : Fe) (q : TxReq) : Wave :=
  let fmt := s.txFmt f q.mode q.rate q.psdu.length
  match q.body with
  | .test =>
    let plain := match (s.feSt f).rfTest with
      | some t => t.mode == 0
      | none => true
    { tickNs := symbolNs fmt, dev := if plain then [] else pn9Burst fmt q.air, ramp := rampOf (s.rampShape f), rampUs := s.rampUs f
      chips := if !plain && fmt.mode == 3 then pn9 (q.air * 2) else [] }
  | _ => waveOf fmt (s.sunSfd f) q.fcs2 q.whitening (s.rampShape f) (s.rampUs f) q.psdu

/-- A frame carrying an assignment has begun transmission (R306). -/
def State.assignBegun (s : State) (b : TxBody) : State :=
  match b with
  | .down d _ => match d.elem, d.node with
    | true, some i => match s.canopy.course.get i with
      | some c => { s with canopy := { s.canopy with course := s.canopy.course.set i { c with begun := true } } }
      | none => s
    | _, _ => s
  | _ => s

/-- The gain a frame starts at, in quarter dB: 1.0 dB under the one stored for its port and power, or 3.0 dB under the open-loop estimate
(R72), whose value the manual does not state. -/
def State.startGain (s : State) (f : Fe) (q : TxReq) : Int :=
  match (s.feSt f).gains.find? fun g => g.1 == q.port && g.2.1 == q.power with
  | some g => g.2.2 - 4
  | none => Config.openLoop (feCode f) q.port q.power - 12

/-- The start is fixed: what will be sent stands, the FEM code changes, receive is blanked from the instant the switch leaves it, other front ends are cross-blanked
(R57, R68, R72, R78). -/
def State.commitStart (s : State) (f : Fe) (q : TxReq) : State :=
  let hit := s.crossBlanks f q
  let shut := s.crossShut f q
  let off := s.switchOff f q.start
  let q := s.atCommit f q
  let x := s.feSt f
  let beacon := if q.cls = .beacon then none else x.beacon
  let table := x.table.map fun (e : CalEntry) => if e.channel = q.channel then { e with used := s.clk } else e
  let s := s.setFe f { x with
    mode := .tx, cur := some q, wave := some (s.waveFor f q), beacon := beacon, held := none, committed := true, blanks := shut, parked := some q.channel, table := table
    lastPort := q.port, gain := s.startGain f q }
  let s := (f :: hit).foldl (fun s g => s.blankFrom g off) s
  let s := if hit.isEmpty then s else s.count .feCrossBlank (.fe (feCode f))
  s.assignBegun q.body

/-- The commit instant of the request held. -/
def State.txCommit (s : State) (f : Fe) : State :=
  let x := s.feSt f
  match x.held with
  | none => s
  | some q =>
    if x.cur.isSome || !s.decided f q || decide (s.netNs < s.commitOf f q.start) then s
    else
      let start := s.guardedStart f q
      if q.start < start then s.setFe f { x with held := some { q with start := start } }
      else
        let s := if q.cls = .other ∧ (s.guardEnd f q).isSome then s.count .feGuardExpired (.fe (feCode f)) else s
        s.commitStart f q

/-- TRANSMISSION_COMMIT (R57, R68, R69, R77, R78, R86 to R102, R168). -/
def execTransmissionCommit (dt : Nat) (f : Fe) (s : State) : Host.Outcome State Fault Refusal := .next ((s.tick dt).txCommit f)

/-! ## The end of a transmission (R67, R72, R74) -/

/-- Stores the gain reached for (port, power). -/
def storeGain (l : List (Nat × Int × Int)) (port : Nat) (power gain : Int) : List (Nat × Int × Int) :=
  (l.filter fun g => !(g.1 == port && g.2.1 == power)) ++ [(port, power, gain)]

/-- The aerial power in quarter dB that a detector voltage in mV means on RADIO_FE.det_curve: 16 points 1 dB apart up to p_max, linear in mV
between them, rounded down (R72); beyond an end, that end. -/
def State.curvePower (s : State) (f : Fe) (mv : Nat) : Int :=
  let v := fun (i : Nat) => s.detCurve f i
  let top := 2 * s.pMax f
  match (List.range 15).find? fun i => decide (v i ≤ mv) && decide (mv < v (i + 1)) with
  | some i => top - 60 + 4 * (i : Int) + ((4 * (mv - v i) / (v (i + 1) - v i) : Nat) : Int)
  | none => if mv < v 0 then top - 60 else top

/-- One sample of the power loop: the gain moves towards the target by at most 0.25 dB (R72).  A sample is the reading of the on-chip detector
in quarter dB, or of the external one in mV. -/
def State.loopStep (s : State) (f : Fe) (q : TxReq) (gain sample : Int) : Int :=
  let p := if s.extPa f then s.curvePower f sample.toNat else sample
  gain + max (-1) (min 1 (2 * q.power - p))

/-- The port's detector is faulty: it runs in open loop (R74). -/
def State.openLoop (s : State) (f : Fe) (port : Nat) : Bool :=
  if port = 0 then (s.feSt f).detA.fault else (s.feSt f).detB.fault

/-- The gain at the end of a frame, from the samples taken every 2 µs. -/
def State.endGain (s : State) (f : Fe) (q : TxReq) (samples : List Int) : Int :=
  if s.openLoop f q.port then (s.feSt f).gain else (samples.take (q.air / 2)).foldl (s.loopStep f q) (s.feSt f).gain

/-- The detector after a frame whose reading was `r` (R74): faulty after two out of range, sound again after 16 within the curve; a reading
outside the curve and inside the limits is neither. -/
def Detector.frame (d : Detector) (r : DetReading) : Detector :=
  if r = .within then
    (if d.good + 1 ≥ 16 then { d with fault := false, bad := 0, good := 0 } else { d with bad := 0, good := d.good + 1 })
  else if r = .below ∨ r = .above then { d with bad := 0, good := 0 }
  else if d.bad + 1 ≥ 2 then { d with fault := true, bad := d.bad + 1, good := 0 }
  else { d with bad := d.bad + 1, good := 0 }

/-- The external detector of the port just used (R74).  FE_DETECTOR_FAULT is raised once in a start for each port, also where the detector recovers
and fails again (DESIGN CHOICE, log entry 74). -/
def State.detector (s : State) (f : Fe) (port : Nat) (r : DetReading) : State :=
  if !s.extPa f then s
  else
    let x := s.feSt f
    let old := if port = 0 then x.detA else x.detB
    let new := old.frame r
    let fresh := new.fault && !old.fault
    let raised := fresh && !old.raised
    let d : Detector := { new with raised := old.raised || fresh }
    let s := s.setFe f (if port = 0 then { x with detA := d } else { x with detB := d })
    let s := if fresh then s.count .feDetFault (.fe (feCode f)) else s
    if raised then s.raise 0x0302 none (toBe 1 (feCode f) ++ toBe 1 port) else s

/-- What the MAC does at the end of a frame the part has sent. -/
def State.macSent (s : State) (f : Fe) (q : TxReq) (endNs : Nat) : State :=
  match q.body with
  | .ack l dst _ pending =>
    let s := s.ackOver l
    match dst, pending with
    | .ext e, true => s.openCont { eui := e, fe := feCode f, channel := q.channel, endNs := endNs + s.pendingHoldMs * 1000000 }
    | _, _ => s
  | .beacon _ _ =>
    let x := s.feSt f
    s.setFe f { x with beaconSeq := x.beaconSeq + 1, beaconTries := 0, beaconB := !x.beaconB, attempt := none }
  | .down _ pending => match (s.feSt f).attempt with
    | some a => match a.body with
      | .frame r => s.downSent f a r pending endNs
      | _ => s
    | none => s
  | .test =>
    let x := s.feSt f
    s.setFe f { x with attempt := none, rfTest := x.rfTest.map fun (t : RfTest) => { t with bursts := t.bursts + 1 } }

/-- The sub-band's last transmission ends (R146). -/
def State.lastTx (s : State) (f : Fe) (q : TxReq) (endNs : Nat) : State :=
  match s.subBand f q.channel with
  | some i => s.setDuty i { s.dutyOf i with lastEnd := some endNs }
  | none => s

/-- The frame on the air ends. -/
def State.txEnd (s : State) (f : Fe) (samples : List Int) (det : DetReading) : State :=
  let x := s.feSt f
  match x.cur with
  | none => s
  | some q =>
    let e := q.start + q.air * 1000
    if s.netNs < e then s
    else
      let s := s.setFe f { x with
        mode := .leaving, cur := none, wave := none, committed := false, lastEnd := e, gains := storeGain x.gains q.port q.power (s.endGain f q samples)
        idleSince := s.clk }
      (((s.detector f q.port det).lastTx f q e).macSent f q e).tune f

/-- TRANSMISSION_END (R67, R72, R74, R159, R163). -/
def execTransmissionEnd (dt : Nat) (f : Fe) (samples : List Int) (det : DetReading) (s : State) : Host.Outcome State Fault Refusal :=
  .next ((s.tick dt).txEnd f samples det)

/-- A detector sample exceeds the target by more than 3 dB (R73): the frame ends and the MAC treats it as not sent; the third within 1 s
makes the front end faulty (Table 18.6). -/
def State.overpower (s : State) (f : Fe) : State :=
  let x := s.feSt f
  match x.cur with
  | none => s
  | some q =>
    let recent := (x.overpowers.filter fun k => decide (s.clk < k + secTicks 1)) ++ [s.clk]
    let s := s.setFe f { x with
      mode := .leaving, cur := none, wave := none, committed := false, lastEnd := s.netNs, overpowers := recent, idleSince := s.clk }
    let s := (s.count .feOverpowerAbort (.fe (feCode f))).lastTx f q s.netNs
    let s := match q.body with
      | .ack l _ _ _ => s.ackOver l
      | b =>
        let s := match b with
          | .down d _ => (d.packet.map fun k => s.pacedAir k ((s.netNs - q.start) / 1000)).getD s
          | _ => s
        (s.setFe f { s.feSt f with
          attempt := (s.feSt f).attempt.map fun (a : Attempt) => { a with admitted := none, credit := 0 } }).csmaBusy f
    if recent.length ≥ 3 then s.feFault f 4 else s.tune f

/-- OVERPOWER_ABORT (R73); `excessQdb` in 0.25 dB units. -/
def execOverpowerAbort (dt : Nat) (f : Fe) (excessQdb : Int) (s : State) : Host.Outcome State Fault Refusal :=
  .next (let t := s.tick dt
    if decide (12 < excessQdb) then t.overpower f else t)

/-! ## Calibration -/

/-- Entries that have lost validity by temperature, most recently used first. -/
def staleEntry (l : List CalEntry) : Option CalEntry :=
  l.foldl (fun (a : Option CalEntry) e => match a with
    | some b => if b.used < e.used then some e else some b
    | none => some e) none

/-- A background calibration begins (R63). -/
def State.backCal (s : State) (f : Fe) (temp : Int) : State :=
  let x := s.feSt f
  let able := (s.feMode f == .rx || s.feMode f == .synthOn) && x.posted.isEmpty && x.held.isNone && x.cur.isNone && x.cal.isNone
  if !able then s
  else
    let s := s.setFe f { x with temp := temp }
    match x.pass with
    | k :: _ => s.beginCal f k s.clk
    | [] => match staleEntry (x.table.filter fun e => decide (s.tempRecal f < tempDiff e.temp temp)) with
      | some e => s.beginCal f e.channel s.clk
      | none => s

/-- BACKGROUND_CALIBRATION (R63). -/
def execBackgroundCalibration (dt : Nat) (f : Fe) (temp : Int) (s : State) : Host.Outcome State Fault Refusal :=
  .next ((s.tick dt).backCal f temp)

/-- A front end that came up for a request since withdrawn goes on to RX (Table 3.3). -/
def State.toRx (s : State) (f : Fe) : State :=
  let x := s.feSt f
  if x.mode = .synthOn ∧ x.held = none ∧ x.cal = none then s.setFe f { x with mode := .rx, idleSince := s.clk } else s

/-- Calibrations that have run their time end: of the transmit synthesiser, of the receive synthesiser (R62, R64).  One begun before a slice
move is of no channel of the new slice, and one made for a request while a fresh slice's pass goes on takes its channel out of the pass
(DESIGN CHOICE, log entry 74). -/
def State.calDone (s : State) (f : Fe) (temp : Int) : State :=
  let x := s.feSt f
  let s := match x.rxCal with
    | some e => if e ≤ s.clk then s.setFe f { x with rxCal := none, rxTemp := temp, temp := temp, rxDue := none } else s
    | none => s
  let x := s.feSt f
  match x.cal with
  | some (k, e) =>
    if s.clk < e then s
    else if s.channels f ≤ k then ((s.setFe f { x with cal := none, temp := temp, parked := none }).tune f).toRx f
    else ((s.setFe f { x with
      cal := none, table := calInsert x.table k temp, temp := temp, parked := some k, pass := x.pass.filter fun j => j != k }).tune f).toRx f
  | none => s

/-- CALIBRATION_COMPLETE (R62, R63, R64). -/
def execCalibrationComplete (dt : Nat) (f : Fe) (temp : Int) (s : State) : Host.Outcome State Fault Refusal :=
  .next ((s.tick dt).calDone f temp)

/-- `n` receive-synthesiser calibrations in turn, each of which blanks receive for 46 µs. -/
def State.rxCalibrate (s : State) (f : Fe) (n : Nat) : State :=
  let s := (s.blankFe f .rxCutCal).countN .feCal (.fe (feCode f)) n
  s.setFe f { s.feSt f with rxCal := some (s.clk + n * usTicks 46), rxDue := none }

/-- The receive synthesiser loses lock (R64): `failed` calibrations end without lock before one ends in it; three make it faulty. -/
def State.lockLost (s : State) (f : Fe) (failed : Nat) : State :=
  if s.feMode f == .off || s.feMode f == .sleep || s.feMode f == .standby then s
  else
    let s := (s.count .feLockLost (.fe (feCode f))).raise 0x0301 none (toBe 1 (feCode f))
    if failed ≥ 3 then (s.rxCalibrate f 3).feFault f 4
    else
      let s := s.rxCalibrate f (failed + 1)
      s.setFe f { s.feSt f with lockFails := 0, trackUntil := s.clk + (failed + 1) * usTicks 46 + secTicks 10 }

/-- FE_LOCK_LOST (R64, R107). -/
def execFeLockLost (dt : Nat) (f : Fe) (failed : Nat) (s : State) : Host.Outcome State Fault Refusal :=
  .next (let t := s.tick dt
    if t.radio then t.lockLost f failed else t)

/-- The receive synthesiser is calibrated for temperature: when no lane holds a frame past its PHY header, after 50 ms regardless (R64). -/
def State.rxRecal (s : State) (f : Fe) (temp : Int) : State :=
  let x := s.feSt f
  if (s.feMode f != .rx && s.feMode f != .tx && s.feMode f != .leaving) || x.rxCal.isSome then s
  else if tempDiff x.rxTemp temp ≤ s.tempRecal f then s.setFe f { x with rxDue := none }
  else
    let held := (s.lanesOn f).any fun l => (s.frameEndOf l).isSome
    let due := x.rxDue.getD s.clk
    if held && decide (s.clk < due + msTicks 50) then s.setFe f { x with rxDue := some due }
    else s.rxCalibrate f 1

/-- RX_SYNTH_CALIBRATION (R64). -/
def execRxSynthCalibration (dt : Nat) (f : Fe) (temp : Int) (s : State) : Host.Outcome State Fault Refusal :=
  .next (let t := s.tick dt
    if t.radio then t.rxRecal f temp else t)

/-! ## Sleep (R61) -/

/-- FE_SLEEP (R61). -/
def execFeSleep (dt : Nat) (f : Fe) (s : State) : Host.Outcome State Fault Refusal :=
  .next (let t := s.tick dt
    let x := t.feSt f
    if t.radio && t.sleepAfterMs f != 0 && t.feMode f == .rx && (t.lanesOn f).isEmpty && x.posted.isEmpty && x.held.isNone && x.cal.isNone &&
        decide (x.idleSince + msTicks (t.sleepAfterMs f) ≤ t.clk) then
      t.setFe f { x with mode := .sleep, parked := none }
    else t)

/-- FE_WAKE (R61). -/
def execFeWake (dt : Nat) (f : Fe) (s : State) : Host.Outcome State Fault Refusal :=
  .next (let t := s.tick dt
    if t.radio then t.wakeFe f else t)

/-! ## Channel access -/

/-- FRAME_SELECT (R143, R158, R160, R210, R218, R226). -/
def execFrameSelect (dt : Nat) (f : Fe) (s : State) : Host.Outcome State Fault Refusal := .next ((s.tick dt).select f)

/-- BACKOFF_EXPIRY (R146, R157, R158, R219). -/
def execBackoffExpiry (dt : Nat) (f : Fe) (s : State) : Host.Outcome State Fault Refusal := .next ((s.tick dt).backoffEnd f)

/-- SENSING_END (R156, R157). -/
def execSensingEnd (dt : Nat) (f : Fe) (power : Int) (blanked : Bool) (s : State) : Host.Outcome State Fault Refusal :=
  .next ((s.tick dt).senseEnd f power blanked)

/-- A frame on the awaited channel whose SFD came at or before the deadline is still being received (R159). -/
def State.ackInFlight (s : State) (f : Fe) (w : AckWait) : Bool :=
  let mine := fun (i : RxInfo) => i.fe == feCode f && i.channel == w.channel && decide (i.cmpNs ≤ w.deadline)
  !w.laneMoved && (List.range 48).any fun l => (s.laneNow l).frames.any (fun p => mine p.1) || (match (s.laneNow l).phase with
    | .header i => mine i
    | _ => false)

/-- The deadline of an awaited ACK (R159). -/
def State.ackDue (s : State) (f : Fe) : State :=
  match (s.feSt f).ackWait with
  | none => s
  | some w => if s.netNs < w.deadline || s.ackInFlight f w then s else s.ackMissing f w

/-- ACK_DEADLINE (R159, R161, R162). -/
def execAckDeadline (dt : Nat) (f : Fe) (s : State) : Host.Outcome State Fault Refusal := .next ((s.tick dt).ackDue f)

/-- CONTINUATION_END (R163, R381): a continuation whose end has come is dropped. -/
def execContinuationEnd (dt : Nat) (eui : BitVec 64) (s : State) : Host.Outcome State Fault Refusal :=
  .next (let t := s.tick dt
    { t with mac := { t.mac with conts := t.mac.conts.filter fun c => !(c.eui == eui && decide (c.endNs ≤ t.netNs)) } })

/-- An ACK becomes owed (R152). -/
def State.oweAck (s : State) (l : Nat) (fc : FrameCtl) : State :=
  match (s.lane l).frames.getLast? |>.bind fun p => (feOf p.1.fe).map fun f => (f, p.2) with
  | some (f, h) =>
    let kind := fc.ar && fc.version == 2 && (fc.ftype == 1 || fc.ftype == 3)
    let ready := decide (h.mode < 4) || (decide (1 ≤ h.decoded) && !h.ldpcBad)
    if kind && ready && (s.feSt f).rfTest.isNone then (s.setLane l { s.lane l with ackOwed := true }).ackTakes f else s
  | none => s

/-- ACK_OWED (R152). -/
def execAckOwed (dt : Nat) (l : Lane) (fc : FrameCtl) (s : State) : Host.Outcome State Fault Refusal := .next ((s.tick dt).oweAck l.val fc)

/-- The destination is the part's own PAN and its EUI-64 or short address (R149, R150). -/
def State.ownDest (s : State) (pan : Option (BitVec 16)) (dst : Addr) : Bool :=
  (match pan with
    | some p => p.toNat == s.panId
    | none => true) &&
  (match dst with
    | .ext e => e == s.id.eui64
    | .short a => a.toNat == s.shortAddr && s.shortAddr != 0xFFFE
    | .none => false)

/-- DESTINATION_ADDRESS_RECEIVED (R152). -/
def execDestinationAddressReceived (dt : Nat) (l : Lane) (dstPan : Option (BitVec 16)) (dst : Addr) (s : State) : Host.Outcome State Fault Refusal :=
  .next (let t := s.tick dt
    if (t.lane l.val).ackOwed && !t.ownDest dstPan dst then t.ackOver l.val else t)

/-- HARDWARE_GENERATOR_RESEED (R157): once 60 s have passed, from the DRBG. -/
def execHardwareGeneratorReseed (dt : Nat) (s : State) : Host.Outcome State Fault Refusal :=
  .next (let t := s.tick dt
    if t.crypto.drbgOn && decide (t.crypto.hwGenClk + secTicks 60 ≤ t.clk) then
      let r := t.draw
      { r.2 with crypto := { r.2.crypto with hwGenClk := t.clk } }
    else t)

end Sys2Proof.Machine
end

