-- ==== Sys2Proof/Machine/HwOps.lean ====
section
/-! DEFINITION. Heartwood's transactions, write-throughs, coalescing buffer, superblocks and wear (chapter 16). -/

namespace Sys2Proof.Machine

/-! ## Wear (R472) -/

/-- Least-written of the physical pages that hold no logical page. -/
def Heart.leastFree (h : Heart) : Nat :=
  let used := fun (p : Nat) => (h.pageMap.any fun m => m.2 == p) || (decide (p < 2944) && (h.pageMap.get p).isNone)
  let free := (List.range 4096).filter fun p => !used p && !h.outPages.contains p
  free.foldl (fun b p => if h.wear.getD p 0 < h.wear.getD b 0 then p else b) (free.headD 2944)

/-- A line of the logical page that holds an address is written. -/
def State.lineWrite (s : State) (addr : Nat) : State :=
  let l := addr / 4096
  let p := s.hw.pageMap.getD l l
  let n := s.hw.wear.getD p 0 + 1
  let s := { s with hw := { s.hw with wear := s.hw.wear.set p n } }
  if n ≤ 2 ^ 24 then s
  else
    let f := s.hw.leastFree
    if n ≤ s.hw.wear.getD f 0 + 2 ^ 24 then s
    else { s with hw := { s.hw with pageMap := s.hw.pageMap.set l f } }.count .hwPageSwap .device

/-- Physical pages that are free. -/
def Heart.freePages (h : Heart) : Nat := 4096 - 2944 - h.outPages.length

/-- A logical page with a line beyond correction moves to a free page, and its own is retired; HEARTWOOD_WORN as the free pages come to be
fewer than 64. -/
def State.retirePage (s : State) (l : Nat) : State :=
  if s.hw.freePages = 0 || 2944 ≤ l then s
  else
    let h := { s.hw with outPages := s.hw.outPages ++ [s.hw.pageMap.getD l l] }
    let s := { s with hw := { h with pageMap := h.pageMap.set l h.leastFree } }.count .hwPageRetired .device
    if s.hw.freePages = 63 then s.raise 0x1002 none (toBe 2 s.hw.freePages) else s

/-! ## Words of a record (Tables 16.3 and 16.4) -/

def stateCode : NodeState → Nat
  | .free => 0
  | .joining => 1
  | .live => 2
  | .quiet => 3
  | .retiring => 4
  | .clearing => 5

/-- sec of Table 16.4; `valid`: a link key is held. -/
def Node.secWord (n : Node) (valid : Bool) : Nat :=
  n.keyGen + n.secLevel * 16 + n.wakeExp * 128 + (if n.listen then 1024 else 0) + (if valid then 2048 else 0)

/-- place of Table 16.4. -/
def Node.placeRec (n : Node) : Nat :=
  n.group + n.phase * 64 + n.fe * 16384 + n.aerial * 65536 + n.pathSel * 131072 + n.pins.toNat * 2 ^ 19 + unsigned 8 n.txPower * 2 ^ 24

/-- A parent slot as Table 16.7 writes it. -/
def ParentSlot.word (p : ParentSlot) : BitVec 18 := if !p.valid then 0x3FFFF else if p.root then 0x20000 else BitVec.ofNat 18 p.index

def Node.parentsRec (n : Node) : ParentsRec :=
  { slots := n.parents.map ParentSlot.word, pathSeq := n.pathSeq, regExpiry := n.regExpiry }

/-! ## Transactions (R457 to R461) -/

/-- Applies one entry to its home. -/
def Heart.apply (h : Heart) : HwItem → Heart
  | .nodeNew i eui w ep =>
    let old := h.ids.getD i { eui := eui, lastHeard := 0, state := 0, epoch := ep, world := w, seqOut := 0, crcOk := true }
    { h with ids := h.ids.set i { old with eui := eui, world := w, epoch := ep, crcOk := true } }
  | .nodeState i st lh sq => match h.ids.get i with
    | some r => { h with ids := h.ids.set i { r with state := st, lastHeard := lh, seqOut := sq } }
    | none => h
  | .nodePlace i p => match h.nodeKeys.get i with
    | some r => { h with nodeKeys := h.nodeKeys.set i { r with place := p } }
    | none => h
  | .nodeSec i x => match h.nodeKeys.get i with
    | some r => { h with nodeKeys := h.nodeKeys.set i { r with sec := x } }
    | none => h
  | .parents i r => { h with parents := match r with
    | some x => h.parents.set i x
    | none => h.parents.erase i }
  | .pending i r => { h with pendings := match r with
    | some x => h.pendings.set i x
    | none => h.pendings.erase i }
  | .duty k d => { h with duty := h.duty.set k d }
  | .canopy k => { h with canopy := some k }
  | .almEval c o => { h with almEval := some (c, o) }
  | .increment n f => { h with increment := some (n, f) }
  | .utcOffset u => { h with utcOffset := some u }
  | .discipline d => { h with disc := d }

/-- Writes a transaction: its entries follow one another in the ring, whose pass toggles at the wrap. -/
def State.journal (s : State) (l : List HwItem) : State :=
  if l.isEmpty then s
  else
    let h := s.hw
    let e := h.head + l.length
    let s := s.lineWrite (0x780000 + 16 * h.head)
    { s with hw := { l.foldl Heart.apply s.hw with
      ring := h.ring ++ [l], head := e % 262144, pass := if e ≥ 262144 then !h.pass else h.pass } }

/-- The pending assignment of node i is written through (R458). -/
def State.writePending (s : State) (i : Nat) : State :=
  match s.node i with
  | some n => s.journal [.pending i (if n.pending then some { group := n.newGroup, phase := n.newPhase, effSec := n.effSec } else none)]
  | none => s

/-- The inbound counter of node i is written through (R376). -/
def State.writeFcIn (s : State) (i : Nat) (v : BitVec 32) : State :=
  let e := s.hw.fc.getD i { fcIn := 0, ceiling := 0 }
  { s.lineWrite (0x680000 + 8 * i) with hw := { (s.lineWrite (0x680000 + 8 * i)).hw with fc := s.hw.fc.set i { e with fcIn := v } } }

/-- The outbound ceiling of node i is written through (R377). -/
def State.writeCeil (s : State) (i v : Nat) : State :=
  let e := s.hw.fc.getD i { fcIn := 0, ceiling := 0 }
  { s.lineWrite (0x680000 + 8 * i) with hw := { (s.lineWrite (0x680000 + 8 * i)).hw with fc := s.hw.fc.set i { e with ceiling := BitVec.ofNat 32 v } } }

/-- The entries of a join completed, in the order of Table 16.8: the key record first, with the link key wrapped under K_hw. -/
def State.writeJoin (s : State) (i : Nat) (key : Key) : State :=
  match s.node i with
  | none => s
  | some n =>
    let w := s.wrapHw (beOfNat 16 key.toNat)
    let s := s.lineWrite (0x280000 + 32 * i)
    let s := { s with hw := { s.hw with
      nodeKeys := s.hw.nodeKeys.set i { wrapped := w, sec := BitVec.ofNat 16 (n.secWord true), place := BitVec.ofNat 32 n.placeRec, crcOk := true } } }
    s.journal [.nodeNew i n.eui n.world n.epoch, .nodeSec i (BitVec.ofNat 16 (n.secWord true)), .nodePlace i (BitVec.ofNat 32 n.placeRec),
      .nodeState i (stateCode n.state) n.lastHeard n.seqOut]

/-! ## The coalescing buffer (R459) -/

/-- What Canopy keeps across a start (R322). -/
def State.canopyKeep (s : State) : CanopyKeep :=
  let watch : Tbl (Nat × Nat) := (List.range 48).filterMap fun l => (((s.lane l).next).getD (s.lane l).assigned).map fun a => (l, a)
  let entries : Tbl Nat := feAll.flatMap fun f =>
    let g := s.wake.gates.get f
    let l := g.shadow.getD g.active
    (List.range l.length).zip l |>.filterMap fun p =>
      if bitOf p.2.toNat 60 then some (1024 * feCode f + p.1, (p.2.toNat >>> 53) % 128) else none
  { centres := feAll.map (fun f => (s.fe.get f).centre), watch := watch
    groups := s.canopy.groups.map (fun p => (p.1, (p.2.fe, p.2.freqs))), lanePins := s.canopy.lanePins, slicePins := s.canopy.slicePins
    freezes := s.canopy.freezes.map (fun f => (f.kinds, f.world, f.endNs)), entries := entries }

/-- The entries an item of the buffer is written as. -/
def State.hwItems (s : State) : HwDirty → List HwItem
  | .nodeState i => match s.node i with
    | some n => [.nodeState i (stateCode n.state) n.lastHeard n.seqOut]
    | none => []
  | .nodePlace i => match s.node i with
    | some n => [.nodePlace i (BitVec.ofNat 32 n.placeRec)]
    | none => []
  | .nodeSec i => match s.node i with
    | some n => [.nodeSec i (BitVec.ofNat 16 (n.secWord true))]
    | none => []
  | .parents i => match s.node i with
    | some n => [.parents i (some n.parentsRec)]
    | none => []
  | .canopy => [.canopy s.canopyKeep]
  | .almEval => match s.time.almPrev with
    | some (c, o) => [.almEval c o]
    | none => []
  | .increment => match s.time.pendInc with
    | some (_, n, f) => [.increment n f]
    | none => [.increment s.time.incNs s.time.incFrac]
  | .utcOffset => match s.time.utcKept with
    | some u => [.utcOffset u]
    | none => []
  | .discipline => [.discipline s.time.disc]

/-- Closes the buffer and writes it, with the duty-cycle bins of each sub-band and the second of the newest (R148). -/
def State.closeBuffer (s : State) : State :=
  let full := decide (s.dirty.length ≥ 8192)
  let items := s.dirty.map s.hwItems
  let duty : List HwItem := s.mac.duty.map fun p => .duty p.1 { p.2 with newest := s.netNs / 1000000000 }
  let s := items.foldl State.journal { s with dirty := [] }
  let s := s.journal duty
  if full then s.count .hwBufferEarly .device else s

/-! ## Superblocks (Table 16.5) -/

/-- `a` is newer than or as new as `b`, in the 32-bit order of R36. -/
def newer32 (a b : BitVec 32) : Bool := decide ((a - b).toNat < 2 ^ 31)

/-- The superblock chosen: the valid one, or the newer, A on equal values. -/
def Heart.super (h : Heart) : Option Super :=
  if h.superA.valid && (!h.superB.valid || newer32 h.superA.seq h.superB.seq) then some h.superA
  else if h.superB.valid then some h.superB else none

/-- Writes the superblock that is not the one chosen. -/
def State.writeSuper (s : State) (clean : Bool) : State :=
  let h := s.hw
  let cur := h.super
  let seq := match cur with
    | some c => c.seq + 1
    | none => 0
  let x : Super := { seq := seq, clean := clean, pass := h.pass, tail := h.tail, head := h.head, lastSec := s.time.sec, valid := true }
  let s := s.lineWrite 0
  if cur = some h.superA then { s with hw := { s.hw with superB := x } } else { s with hw := { s.hw with superA := x } }

/-- Every transaction written is applied to its home (R461). -/
def State.homeAll (s : State) : State := { s with hw := { s.hw with ring := [], tail := s.hw.head } }

end Sys2Proof.Machine
end

