-- ==== Sys2Proof/Machine/Lanes.lean ====
section
/-! DEFINITION. Meanings of the events of the receive lanes (chapter 5), FRAME_END apart. -/

namespace Sys2Proof.Machine

/-- A preamble of so many symbols or HS units found by a lane (R121 to R123); correlations in 0.25 dB units, the level in dB. -/
def State.preamble (s : State) (l : Nat) (p : Preamble) (units corrA corrB level : Nat) : State :=
  match s.laneOn l with
  | none => s
  | some (f, k) =>
    let x := s.laneNow l
    let heard := (s.portHears f 0 && decide (s.detectThr < corrA)) || (s.portHears f 1 && decide (s.detectThr < corrB))
    if !s.hears f || decide (units < leastPreamble p) || !heard || !(s.hunts f p false || s.hunts f p true) then s
    else match x.phase with
      | .hunt => (s.setLane l { x with phase := .detect p level s.clk }).markBusy f k
      | .detect _ l0 _ =>
        if s.captureDb ≠ 0 ∧ l0 + s.captureDb ≤ level then (s.setLane l { x with phase := .detect p level s.clk }).count .rxCapture (.lane l) else s
      | _ => s

/-- PREAMBLE_DETECTED (R121, R122, R123). -/
def execPreambleDetected (dt : Nat) (l : Lane) (p : HeardPreamble) (corrA corrB level : Nat) (s : State) : Host.Outcome State Fault Refusal :=
  .next ((s.tick dt).preamble l.val p.kind p.units corrA corrB level)

/-- Duration in time-clock ticks of the unit in which the search for a delimiter is bounded: the symbol, or 8 chips for HS (R122). -/
def searchUnit (f : Fe) : Preamble → Nat
  | .fsk50 => usTicks 20
  | .fskOuter | .fskInner => usTicks 10
  | .fsk500 => usTicks 2
  | .oqpsk => usTicks 16
  | .hs => usTicks (8 * helecTick (f = .h))

/-- The search after a detection at `k` ends at this instant (R122). -/
def State.searchEnd (s : State) (f : Fe) (p : Preamble) (k : Nat) : Nat := k + s.sfdTimeoutSym * searchUnit f p

/-- No SFD or sync word within sfd_timeout_sym (R122). -/
def State.sfdTimeout (s : State) (l : Nat) : State :=
  match s.laneAt l, (s.laneNow l).phase with
  | some (f, _), .detect p _ k => if s.searchEnd f p k ≤ s.clk then (s.rewindLane l).count .rxSfdTimeout (.lane l) else s
  | _, _ => s

/-- SFD_TIMEOUT (R122). -/
def execSfdTimeout (dt : Nat) (l : Lane) (s : State) : Host.Outcome State Fault Refusal := .next ((s.tick dt).sfdTimeout l.val)

/-- The end of the SFD or sync word: aerial, estimate and timestamp are fixed (R124 to R127). -/
def State.sfdFound (s : State) (l : Nat) (word : BitVec 32) (offset8 : Int) (a b : PortMetric) : State :=
  match s.laneOn l, (s.laneNow l).phase with
  | some (f, k), .detect p _ d =>
    match s.delimiter f p word with
    | none => s
    | some sync =>
      if !s.hears f || !s.hunts f p sync || !pullsIn (s.freqOf f k) offset8 || decide (s.searchEnd f p d < s.clk) then s
      else
        let c := s.chooseAerial f a b
        s.setLane l { s.laneNow l with phase := .header {
          fe := feCode f, channel := k, sfdClk := s.clk, pre := p, sync := sync, port := c.1, snr := c.2.1, level := c.2.2, offset8 := offset8
          sfdNs := s.netNs / 8 * 8, cmpNs := s.netNs / 8 * 8, tracked := s.tracking f } }
  | _, _ => s

/-- SFD_FOUND (R88, R89, R91, R124 to R127). -/
def execSfdFound (dt : Nat) (l : Lane) (word : BitVec 32) (offset8 : Int) (a b : PortMetric) (s : State) : Host.Outcome State Fault Refusal :=
  .next ((s.tick dt).sfdFound l.val word offset8 a b)

/-- The end of the PHY header: rejected, or granted its cells whole (R88, R89, R94, R108, R129, R130, R502). -/
def State.headerEnd (s : State) (l : Nat) (hdr : PhyHeader) : State :=
  match s.laneOn l, (s.laneNow l).phase with
  | some (f, k), .header i =>
    let back := fun (s : State) (c : Ctr) => (s.rewindLane l).count c (.pipe (feCode f))
    match s.checkHeader f i hdr with
    | none => s
    | some (.reject c) => back s c
    | some (.frame mode rate cwlen pilots fcs2 dw len) =>
      let n := cellsOf (16 + len)
      let fmt : AirFmt := { mode := mode, rate := rate, cwlen := cwlen, pilots := pilots, preamble := 0, hsUnits := 0, onH := f = .h }
      if mode ≥ 4 ∧ s.noDecoder then back s .rxNoDecoder
      else match s.grant (rxAcct (feCode f)) n with
        | none =>
          let s := back s .cellsExhaustedAir
          if s.acctRes (rxAcct (feCode f)) < s.used (rxAcct (feCode f)) then s.count .rxSecBacklogDrop (.pipe (feCode f)) else s
        | some t =>
          let e := s.netNs + afterSfd fmt len * 1000 - (s.clk - i.sfdClk) * 4
          if s.blankSoon f |>.any (fun off => decide (off < e)) then (s.rewindLane l).count .rxCutTx (.lane l)
          else (t.picked.setLane l { t.laneNow l with
            tagClk := some t.clk
            phase := .frame i {
              mode := mode, rate := rate, cwlen := cwlen, pilots := pilots, fcs2 := fcs2, whitening := dw, length := len, cells := n, chain := t.drawCells n []
              codewords := if mode ≥ 4 then helecCodewords rate cwlen len else 0, received := 0, decoded := 0, iterations := 0
              ldpcBad := false, endNs := e } }).markBusy f k
  | _, _ => s

/-- PHY_HEADER_END (R88, R89, R94, R108, R129, R130). -/
def execPhyHeaderEnd (dt : Nat) (l : Lane) (hdr : PhyHeader) (s : State) : Host.Outcome State Fault Refusal :=
  .next ((s.tick dt).headerEnd l.val hdr)

/-- A Helec codeword is complete (R133). -/
def State.codeword (s : State) (l : Nat) : State :=
  let x := s.laneNow l
  match x.frames.find? fun p => decide (p.2.received < p.2.codewords) with
  | some (_, h) =>
    let s := s.setLane l (x.change (fun h => decide (h.received < h.codewords)) fun h => { h with received := h.received + 1 })
    State.feed { s with dec := { s.dec.recall s.clk with ready := (s.dec.recall s.clk).ready ++ [({ clk := s.clk, lane := l, long := h.cwlen, index := h.received } : ReadyCw)] } }
  | none => s

/-- CODEWORD_READY (R133). -/
def execCodewordReady (dt : Nat) (l : Lane) (s : State) : Host.Outcome State Fault Refusal := .next ((s.tick dt).codeword l.val)

/-- A core stops a codeword, which stands in its lane as `word`, coded bit j in bit j: decoded where its syndrome is zero (R96, R104, R134), its
information bits then being the first K; the next one ready takes its place (R133). -/
def State.decoded (s : State) (core iterations : Nat) (word : BitVec 2048) : State :=
  match s.dec.busy.get core with
  | none => s
  | some w =>
    let s := { s with dec := { s.dec with busy := s.dec.busy.erase core } }
    let z := helecN w.long / 64
    let s := s.setLane w.lane ((s.laneNow w.lane).change (fun h => decide (h.decoded < h.received)) fun h =>
      let zero := zeroSyndrome h.rate z (wordBlocks z word.toNat)
      let n := if zero then min iterations s.ldpcMaxIter else s.ldpcMaxIter
      { h with
        decoded := h.decoded + 1, iterations := max h.iterations n, ldpcBad := h.ldpcBad || !zero
        info := h.info ++ [(w.index, word.toNat % 2 ^ helecK h.rate h.cwlen)] })
    s.feed

/-- CODEWORD_DECODED (R96, R104, R134). -/
def execCodewordDecoded (dt : Nat) (core : Fin 4) (iterations : Nat) (word : BitVec 2048) (s : State) : Host.Outcome State Fault Refusal :=
  .next ((s.tick dt).decoded core.val iterations word)

/-- A lane's change of assignment takes effect (R117, R118, R137); a front end in SLEEP returns to RX (R61, R119). -/
def State.assignEffect (s : State) (l : Nat) : State :=
  let x := s.laneNow l
  match x.next, x.phase with
  | some n, .hunt =>
    let taken := match n with
      | some p => (List.range 48).any fun j => j != l && (s.lane j).assigned == some p
      | none => false
    let lost := n.isSome && !s.laneUsable l
    if s.laneTesting l || taken then s
    else if lost then s.setLane l { x with next := none }
    else
      let s := if n = x.assigned then s else s.laneMoved l
      let s := s.setLane l { x.assign s.clk n with next := none, ackOwed := x.ackOwed && !x.done.isEmpty }
      let s := s.noteIdle x.assigned
      match n.bind fun p => feOf p.1 with
      | some f => s.wakeFe f
      | none => s
  | _, _ => s

/-- LANE_ASSIGNMENT_EFFECT (R117, R118, R119, R160). -/
def execLaneAssignmentEffect (dt : Nat) (l : Lane) (s : State) : Host.Outcome State Fault Refusal :=
  .next ((s.tick dt).assignEffect l.val)

/-- A lane that is there, powered and not mapped out. -/
def State.laneLive (s : State) (l : Nat) : Bool :=
  decide (l < s.laneCount) && (s.dom (s.laneDom l)).powered && !(s.lane l).out

/-- LANE_FAULT (R136). -/
def execLaneFault (dt : Nat) (l : Lane) (cause : LaneFaultCause) (s : State) : Host.Outcome State Fault Refusal :=
  .next (let t := s.tick dt
    if t.laneLive l.val then t.faultLane l.val cause else t)

/-- LANE_KAT (R137): the test of an unassigned, powered lane ends; a change of assignment that waited for it takes effect. -/
def execLaneKat (dt : Nat) (l : Lane) (pass : Bool) (s : State) : Host.Outcome State Fault Refusal :=
  .next (let t := s.tick dt
    if !t.laneLive l.val || (t.lane l.val).assigned.isSome then t
    else if pass then (t.setLane l.val { t.lane l.val with katClk := t.clk }).assignEffect l.val
    else t.faultLane l.val .kat)

/-- LANE_DOMAIN_POWER_DOWN (R138). -/
def execLaneDomainPowerDown (dt : Nat) (d : LaneDom) (s : State) : Host.Outcome State Fault Refusal :=
  .next ((s.tick dt).domDown d)

/-- The lanes of a domain powered up again pass the return sequence (Table 5.7). -/
def State.domReturn (s : State) (d : LaneDom) (kat : List Bool) : State :=
  let x := s.dom d
  if !x.returning then s
  else
    let ls := (s.domLanes d).filter fun l => decide (l < s.laneCount) && !(s.lane l).out
    let s := s.setDom d { powered := true }
    let s := ls.foldl (fun s l => s.setLane l { katClk := s.clk }) s
    let good := ls.filter fun l => kat.getD (l % s.halfLanes) true
    let s := (ls.filter fun l => !kat.getD (l % s.halfLanes) true).foldl (fun s l => s.faultLane l .kat) s
    let s := good.foldl (fun s l => s.canLog 0x10 1 0xFF 2 (0x100 + l) 0 1 0) (s.owe 4)
    s.raise 0x0502 none (toBe 6 (good.foldl (fun n l => n + 2 ^ l) 0))

/-- LANE_RETURN (R139). -/
def execLaneReturn (dt : Nat) (d : LaneDom) (kat : List Bool) (s : State) : Host.Outcome State Fault Refusal :=
  .next ((s.tick dt).domReturn d kat)

end Sys2Proof.Machine
end

