-- ==== Sys2Proof/Machine/CanopyOps.lean ====
section
/-! DEFINITION. Canopy's operations on nodes, lanes and slices (chapter 11), from which its rounds and the hosts' pins are built. -/

namespace Sys2Proof.Machine

/-! ## Freezes (R321) and cool-downs (R293) -/

/-- Decision kind `k` is frozen for world w (8: a kind without worlds). -/
def State.frozen (s : State) (k w : Nat) : Bool := s.canopy.freezes.any fun f => bitOf f.kinds k && (f.world == 8 || f.world == w)

/-- A cool-down of `sec` seconds counted from an instant of the time clock has passed. -/
def State.cooled (s : State) (since : Option Nat) (sec : Nat) : Bool :=
  decide (max (since.getD 0) s.canopy.radioClk + secTicks sec ≤ s.clk)

def State.setCourse (s : State) (i : Nat) (c : Option Course) : State :=
  { s with canopy := { s.canopy with course := match c with
    | some x => s.canopy.course.set i x
    | none => s.canopy.course.erase i } }

def State.coolNode (s : State) (i : Nat) : State := s.setMeas i { s.measOf i with coolPlace := some s.clk }

/-! ## Moves of nodes (R304 to R309) -/

/-- e of R304 and R306: 0 for a listening node. -/
def Node.moveExp (n : Node) : Nat := if n.listen then 0 else n.wakeExp

/-- effective_sec of a move decided now (R304). -/
def State.moveSecond (s : State) (n : Node) : Nat := ceilDiv (s.netNs + s.noticeWakes * 2 ^ n.moveExp * cycleNs) 1000000000

/-- 16 384 pending assignments stand (R461). -/
def State.pendingFull (s : State) : Bool := decide ((s.table.nodes.filter fun p => p.2.pending).length ≥ 16384)

/-- Decides a move of node i to (g, p): one write of the record, the assignment frame, the cool-down, the log (R304). -/
def State.decideMove (s : State) (i g p cause flags : Nat) (gain : Int) : State :=
  match s.node i with
  | none => s
  | some n =>
    let eff := s.moveSecond n
    let m := { n with newGroup := g, newPhase := p, effSec := BitVec.ofNat 20 eff, pending := true }
    let fe := match s.groupFe g with
      | some f => feCode f
      | none => n.fe
    let t := (s.setNode i m).writePending i
    match t.sendUnicast i m [{ kind := .assign g p fe eff n.listen }] [(i, n.eui)] with
    | .wait => s.count .fcReserveWait .device
    | .done u =>
      let u := (u.setCourse i (some { decidedNs := s.netNs, effNs := eff * 1000000000, begun := false, confirmed := false })).coolNode i
      (u.canLog 0x05 cause n.world flags i n.placeWord (placeWord g p fe n.listen) gain).count .canopyPlaceMove (.world n.world)

/-- An assignment takes effect at the tick its second begins, in one write (R307). -/
def State.assignNow (s : State) (i : Nat) : State :=
  match s.node i with
  | none => s
  | some n =>
    if !n.pending || decide (s.netNs < s.effSecond n * 1000000000) then s
    else
      let m := { n with group := n.newGroup, phase := n.newPhase, fe := s.toFe n, pending := false }
      let s := ((s.setNode i m).touch (.nodePlace i)).writePending i
      let s := { s with mac := { s.mac with conts := s.mac.conts.filter fun c => c.eui != n.eui } }
      let confirmed := match s.canopy.course.get i with
        | some c => c.confirmed
        | none => false
      let t : Taken := { node := i, group := n.group, phase := n.phase, fe := n.fe, effNs := s.effSecond n * 1000000000, revert := false }
      let rest := s.canopy.taken.filter fun x => x.node != i
      let s := { s with canopy := { s.canopy with taken := if confirmed then rest else rest ++ [t] } }
      (s.setCourse i none).canLog 0x06 6 n.world 0 i n.placeWord m.placeWord 0

/-- An unstarted frame for node i that carries the element. -/
def carries (i : Nat) (d : DownFrame) : Bool := d.elem && d.node == some i

/-- A frame of node i under attempt that has not begun is given up. -/
def State.dropAttempt (s : State) (f : Fe) (i : Nat) : State :=
  let x := s.feSt f
  match x.attempt with
  | some a => match a.body with
    | .frame r =>
      if carries i r.frame && !x.committed && x.cur.isNone then
        let s := (s.giveBack f a).withdraw f
        let s := s.setFe f { s.feSt f with attempt := none }
        (s.releaseChain r.acct r.cells r.chain).abandonRest r.frame
      else s
    | _ => s
  | none => s

/-- Every unstarted frame that carries the element is discarded, with the rest of its packet (R306, R162). -/
def State.dropCarriers (s : State) (i : Nat) : State :=
  let s := feAll.foldl (fun s f => s.dropAttempt f i) s
  let mine := fun (p : Packet) => match downOf p with
    | some d => carries i d
    | none => false
  let gone := s.queues.orders.flatMap fun o => if isNodeOrder o.1 then o.2.filter mine else []
  let goneF := s.wake.flows.flatMap fun f => (f.frames.map Prod.snd).filter mine
  let orders := (s.queues.orders.map fun o => if isNodeOrder o.1 then (o.1, o.2.filter fun p => !mine p) else o).filter fun o => !o.2.isEmpty
  let flows := (s.wake.flows.map fun (f : Flow) => { f with frames := f.frames.filter fun p => !mine p.2 }).filter fun f => !f.frames.isEmpty
  let s := { s with queues := { s.queues with orders := orders }, wake := { s.wake with flows := flows } }
  let s := (gone ++ goneF).foldl (fun s p => match downOf p with
    | some d => (s.releaseChain p.acct p.cells p.chain).abandonRest d
    | none => s) s
  feAll.foldl (fun s f =>
    let x := s.feSt f
    let bad := x.retry.filter fun r => carries i r.frame && r.attempts = 0
    bad.foldl (fun s r => (s.releaseChain r.acct r.cells r.chain).abandonRest r.frame)
      (s.setFe f { x with retry := x.retry.filter fun r => !(carries i r.frame && r.attempts = 0) })) s

/-- An assignment that no begun frame carries is withdrawn at its instant (R306). -/
def State.assignWithdraw (s : State) (i : Nat) : State :=
  match s.node i, s.canopy.course.get i with
  | some n, some c =>
    if !n.pending || c.begun || decide (s.netNs + 2 ^ n.moveExp * cycleNs < c.effNs) then s
    else
      let s := ((s.setNode i { n with pending := false }).writePending i).setCourse i none
      ((s.dropCarriers i).count .canopyAssignWithdrawn (.world n.world)).canLog 0x07 6 n.world 1 i
        (placeWord n.newGroup n.newPhase (s.toFe n) n.listen) n.placeWord 0
  | _, _ => s

/-- Writes a placement without notice: a revert (R308) or a re-home (R309). -/
def State.writePlace (s : State) (i g p fe kind : Nat) (c : Ctr) : State :=
  match s.node i with
  | none => s
  | some n =>
    let m := { n with group := g, phase := p, fe := fe }
    let s := ((s.setNode i m).journal [.nodePlace i (BitVec.ofNat 32 m.placeRec)]).coolNode i
    (s.count c (.world n.world)).canLog kind 0 n.world 1 i n.placeWord m.placeWord 0

/-! ## Lane assignments -/

/-- An assignment as Table 5.9 lays it out. -/
def laneEntry (a : Option (Nat × Nat)) (pinned : Bool) : Nat :=
  match a with
  | some (f, k) => k + f * 128 + 512 + (if pinned then 1024 else 0)
  | none => 0

/-- What a lane is assigned to once its waiting change has taken effect. -/
def State.laneTarget (s : State) (l : Nat) : Option (Nat × Nat) := ((s.lane l).next).getD (s.lane l).assigned

/-- Changes a lane's assignment, at once where R118 lets it. -/
def State.assignLane (s : State) (l : Nat) (a : Option (Nat × Nat)) (cause flags : Nat) (pinned : Bool) : State :=
  let old := s.laneTarget l
  if old = a ∧ (s.lane l).pinned = pinned then s
  else
    let s := s.canLog 0x03 cause 0xFF flags l (laneEntry old (s.lane l).pinned) (laneEntry a pinned) 0
    ((s.setLane l { s.lane l with next := some a, pinned := pinned }).assignEffect l).touch .canopy

/-- Lanes whose changes wait are looked at again. -/
def State.settleLanes (s : State) : State := (List.range 48).foldl State.assignEffect s

/-! ## The watch map (R313), on frequencies: `ctr` gives each front end's centre -/

/-- A channel as the map sees it. -/
structure Chan where
  fe : Nat
  k : Nat
  hz : Nat
  v : Nat
  deriving DecidableEq, Repr

/-- v of a frequency: G of its group with u = 0, plus 1, where the group has members. -/
def State.chanValue (s : State) (f hz : Nat) : Nat :=
  match s.canopy.groups.find? fun p => p.2.fe == f && p.2.freqs.contains hz with
  | some (g, x) => if s.groupMembers g = 0 then 0 else s.groupU g 131072 / (65536 * 100 * x.freqs.length) + 1
  | none => 0

/-- Channels of the front ends that are not OFF and not about to move, ascending. -/
def State.chans (s : State) (ctr : Fe → Nat) : List Chan :=
  feAll.flatMap fun f =>
    if !s.hasFe f || !s.fePresent f || s.feMode f == .off || (s.feSt f).move.isSome then []
    else (List.range (s.channels f)).map fun k =>
      let hz := channelHz (ctr f) (s.raster f) k
      { fe := feCode f, k := k, hz := hz, v := s.chanValue (feCode f) hz }

/-- The map being formed: lanes and what they watch (front end and frequency), with the reassignments made. -/
structure MapSt where
  map : Tbl (Nat × Nat)
  moves : Nat
  deriving DecidableEq, Repr

def watching (m : Tbl (Nat × Nat)) (c : Chan) : Bool := m.any fun p => p.2 == (c.fe, c.hz)

/-- Greatest value, the first given on ties. -/
def topChan : List Chan → Option Chan
  | [] => none
  | c :: t => match topChan t with
    | some d => if d.v ≤ c.v then some c else some d
    | none => some c

/-- Least value, the last given on ties. -/
def lowChan : List Chan → Option Chan
  | [] => none
  | c :: t => match lowChan t with
    | some d => if d.v ≤ c.v then some d else some c
    | none => some c

/-- Lowest available lane that watches nothing. -/
def freeLane (avail : List Nat) (m : Tbl (Nat × Nat)) : Option Nat := avail.find? fun l => (m.get l).isNone

/-- Step 1 over the channels in descending value. -/
def mapFill (chans : List Chan) (avail : List Nat) : Nat → Tbl (Nat × Nat) → Tbl (Nat × Nat)
  | 0, m => m
  | n + 1, m =>
    match topChan (chans.filter fun c => decide (0 < c.v) && !watching m c), freeLane avail m with
    | some c, some l => mapFill chans avail n (m.set l (c.fe, c.hz))
    | _, _ => m

/-- Step 2: at most `n` reassignments. -/
def mapMove (chans : List Chan) (avail : List Nat) (hyst : Nat) : Nat → MapSt → MapSt
  | 0, m => m
  | n + 1, m =>
    match topChan (chans.filter fun c => !watching m.map c),
        lowChan (chans.filter fun c => avail.any fun l => m.map.get l == some (c.fe, c.hz)) with
    | some x, some y =>
      if x.v ≤ y.v + hyst then m
      else match avail.find? fun l => m.map.get l == some (y.fe, y.hz) with
        | some l => mapMove chans avail hyst n { map := m.map.set l (x.fe, x.hz), moves := m.moves + 1 }
        | none => m
    | _, _ => m

/-- Step 3, surplus: free lanes take neighbours' beacon channels, then the rest. -/
def mapSpread (order : List Chan) (avail : List Nat) (spare : Nat) : Nat → Tbl (Nat × Nat) → Tbl (Nat × Nat)
  | 0, m => m
  | n + 1, m =>
    if (avail.filter fun l => (m.get l).isNone).length ≤ spare then m
    else match order.find? fun c => !watching m c, freeLane avail m with
      | some c, some l => mapSpread order avail spare n (m.set l (c.fe, c.hz))
      | _, _ => m

/-- Step 3, shortage: lanes on channels of value 0 that no neighbour names are released, highest first. -/
def mapRelease (idle : Nat × Nat → Bool) (avail : List Nat) (spare : Nat) : Nat → Tbl (Nat × Nat) → Tbl (Nat × Nat)
  | 0, m => m
  | n + 1, m =>
    if spare ≤ (avail.filter fun l => (m.get l).isNone).length then m
    else match avail.reverse.find? fun l => (m.get l).any idle with
      | some l => mapRelease idle avail spare n (Tbl.erase m l)
      | none => m

/-- Current neighbours, in ascending router_id. -/
def State.currentNbrs (s : State) : List Nbr :=
  let insert := fun (l : List Nbr) (n : Nbr) => (l.filter fun x => decide (x.routerId < n.routerId)) ++ n :: l.filter fun x => decide (n.routerId ≤ x.routerId)
  (s.mac.nbrs.filter fun n => !n.lapsed).foldl insert []

/-- A slice move that waits has the lane, now or in its map. -/
def State.heldByMove (s : State) (l : Nat) : Bool :=
  feAll.any fun f => match (s.feSt f).move with
    | some mv => (mv.watch.any fun p => p.1 == l) || (match s.laneTarget l with
      | some (c, _) => c == feCode f
      | none => false)
    | none => false

/-- Lanes the map may assign (R313). -/
def State.availLanes (s : State) : List Nat :=
  (List.range 48).filter fun l => s.laneUsable l && s.laneAllowed l && (s.canopy.lanePins.get l).isNone && !s.heldByMove l

/-- The map R313 gives, from the map in force, with `extra` more reassignments allowed. -/
def State.watchMap (s : State) (ctr : Fe → Nat) (extra : Nat) : MapSt :=
  let chans := s.chans ctr
  let avail := s.availLanes
  let now : Tbl (Nat × Nat) := (List.range 48).filterMap fun l => match s.laneTarget l with
    | some (c, k) => match feOf c with
      | some f => let hz := s.freqOf f k
        if s.laneUsable l && chans.any fun x => x.fe == c && x.hz == hz then some (l, (c, hz)) else none
      | none => none
    | none => none
  let m := mapFill chans avail 48 now
  let r := mapMove chans avail s.mapHyst (s.mapMovesMax + extra) { map := m, moves := 0 }
  let named := s.currentNbrs.filterMap fun n => chans.find? fun c => c.fe == n.fe && c.hz == n.hz
  let idle := fun (p : Nat × Nat) => (chans.any fun c => c.fe == p.1 && c.hz == p.2 && c.v == 0) && !(named.any fun c => c.fe == p.1 && c.hz == p.2)
  let t := mapSpread (named ++ chans) avail s.spareLanes 48 r.map
  { r with map := mapRelease idle avail s.spareLanes 48 t }

/-! ## Slices (R314, R315) -/

def sliceFreqs (centre raster : Nat) : List Nat := (List.range (rasterChannels raster)).map fun k => channelHz centre raster k

/-- A centre is a candidate of R314, the step bound apart: on the image's raster grid (R115), 6.4 MHz from where the other sub-GHz front end
is and from where it is about to be (R83). -/
def State.sliceCand (s : State) (f : Fe) (c : Nat) : Bool :=
  let hzs := sliceFreqs c (s.raster f)
  let clear := fun (g : Fe) => !s.hasFe g || (s.centre g :: ((s.feSt g).move.map fun m => m.centre).toList).all fun d =>
    decide (d + 6400000 ≤ c) || decide (c + 6400000 ≤ d)
  let apart := match f with
    | .sa => clear .sb
    | .sb => clear .sa
    | .h => true
  let from0 := (s.cfgN 0x02 (feCode f) 0 4 0 : Int) - c
  decide (from0 % (rasterHz (s.raster f) : Int) = 0) && decide (s.sliceLo f ≤ c) && decide (c ≤ s.sliceHi f) && apart &&
  (s.canopy.groups.all fun p => p.2.fe != feCode f || s.groupMembers p.1 == 0 || p.2.freqs.all fun hz => hzs.contains hz) &&
  hzs.any fun hz => (subOf s.region hz (s.raster f)).isSome

/-- The cost of a centre. -/
def State.sliceCost (s : State) (f : Fe) (c : Nat) : Nat :=
  (sliceFreqs c (s.raster f)).foldl (fun n hz =>
    n + s.busyPm f hz + (if s.avoidedHz f hz then 1000 else 0) + (if (subOf s.region hz (s.raster f)).isNone then 1000 else 0)) 0

/-- Centres in the order that settles ties: smaller |m|, then lower. -/
def State.sliceTries (s : State) (f : Fe) : List Nat :=
  let r := rasterHz (s.raster f)
  s.centre f :: (List.range (s.sliceStepMax f)).flatMap fun j => [s.centre f - (j + 1) * r, s.centre f + (j + 1) * r]

/-- The layout after a move of f to centre c (R315). -/
def State.regroup (s : State) (f : Fe) (c : Nat) : Tbl Group :=
  let hzs := sliceFreqs c (s.raster f)
  let kept : Tbl Group := s.canopy.groups.filter fun p => p.2.fe != feCode f || p.2.freqs.all fun hz => hzs.contains hz
  let grouped := fun hz => kept.any fun p => p.2.fe == feCode f && p.2.freqs.contains hz
  let w := s.groupWidth f
  let runs := hzs.foldl (fun (r : List (List Nat) × List Nat) hz =>
    if grouped hz then (if r.2.isEmpty then r.1 else r.1 ++ [r.2], [])
    else if r.2.length + 1 = w then (r.1 ++ [r.2 ++ [hz]], [])
    else (r.1, r.2 ++ [hz])) ([], [])
  let all := if runs.2.isEmpty then runs.1 else runs.1 ++ [runs.2]
  let free := (s.groupNumbers f).filter fun g => (kept.get g).isNone
  (free.zip all).foldl (fun t p => t.set p.1 { fe := feCode f, freqs := p.2 }) kept

/-- Bit j of a GROUPS log entry: group group_base + j exists. -/
def State.groupBits (s : State) (f : Fe) (t : Tbl Group) : Nat :=
  (List.range (s.groupCount f)).foldl (fun n j => if (t.get (s.groupBase f + j)).isSome then n + 2 ^ j else n) 0

/-- Channel number of a frequency in a slice. -/
def chanIn (centre raster hz : Nat) : Option Nat := (List.range (rasterChannels raster)).find? fun k => channelHz centre raster k == hz

/-- A slice move is made (R116, R63, R298, R315): the map that goes with it, the groups, the channel numbers, a fresh background pass.  The lanes of
the front end lose their assignments at once; those of the watch map take theirs where R117 lets them, a lane of another front end as R118 says.
A calibration in course is of no channel of the new slice, and every entry of the transmit table is cleared (DESIGN CHOICE, log entry 74). -/
def State.makeMove (s : State) (f : Fe) (mv : SliceMove) : State :=
  let c := feCode f
  let old := s.centre f
  let r := s.raster f
  let renum := fun (k : Nat) => chanIn mv.centre r (channelHz old r k)
  let groups := s.regroup f mv.centre
  let s := s.canLog 0x02 0 0xFF 0 c (s.groupBits f s.canopy.groups) (s.groupBits f groups) 0
  let s := s.rxCalibrate f 1
  let was := s.lanesOn f
  let s := was.foldl (fun s l =>
    let x := s.laneNow l
    let stale := match x.next with
      | some (some (g, _)) => g == c
      | _ => false
    (s.setLane l { x.assign s.clk none with next := if stale then none else x.next, ackOwed := x.ackOwed && !x.done.isEmpty }).laneMoved l) s
  let s := mv.watch.foldl (fun s p => if s.laneUsable p.1 then s.setLane p.1 { s.lane p.1 with next := some (some (c, p.2)) } else s) s
  let x := s.feSt f
  let s := s.setFe f { x with
    centre := mv.centre, table := [], pass := List.range (rasterChannels r), move := none, parked := none
    cal := x.cal.map fun p => (rasterChannels r, p.2)
    ackWait := x.ackWait.map (fun w => { w with channel := (renum w.channel).getD w.channel }) }
  let fix := fun (p : Nat × (Nat × Nat)) => if p.2.1 = c then (p.1, (c, (renum p.2.2).getD p.2.2)) else p
  let s := { s with
    canopy := { s.canopy with groups := groups, lanePins := s.canopy.lanePins.map fix }
    mac := { s.mac with
      conts := s.mac.conts.filterMap fun (d : Cont) => if d.fe = c then (renum d.channel).map fun k => { d with channel := k } else some d
      nbrs := s.mac.nbrs.map fun (n : Nbr) => if n.fe = c then { n with channel := (renum n.channel).getD n.channel } else n } }
  let s := match (s.feSt f).attempt with
    | some a => match renum a.channel with
      | some k => s.setFe f { s.feSt f with attempt := some { a with channel := k } }
      | none =>
        let s := (s.giveBack f a).setFe f { (s.giveBack f a).feSt f with attempt := none }
        (match a.body with
          | .frame q => s.putBack f q
          | .beacon _ => s.skipBeacon f
          | .test => s)
    | none => s
  (s.touch .canopy).settleLanes

/-- Decides a slice move, in place of one that waits: logged, counted, handed over with the watch map of the new slice (R314, R116). -/
def State.decideSlice (s : State) (f : Fe) (centre cause flags : Nat) (gain : Int) : State :=
  let old := s.centre f
  let s := { s with canopy := { s.canopy with coolSlice := s.canopy.coolSlice.set (feCode f) s.clk } }
  let s := s.setFe f { s.feSt f with move := none }
  let ctr := fun g => if g = f then centre else s.centre g
  let wm := s.watchMap ctr 0
  let watch := wm.map.filterMap fun p => if p.2.1 = feCode f then (chanIn centre (s.raster f) p.2.2).map fun k => (p.1, k) else none
  let s := s.setFe f { s.feSt f with move := some { centre := centre, clk := s.clk, watch := watch } }
  (s.canLog 0x01 cause 0xFF flags (feCode f) (old / 1000) (centre / 1000) gain).count .canopySliceMove (.fe (feCode f))

/-- A slice move may be made: no request accepted or held, and no frame past its header on f, or 50 ms gone by (R65, R116). -/
def State.sliceMove (s : State) (f : Fe) : State :=
  let x := s.feSt f
  match x.move with
  | none => s
  | some mv =>
    let txBusy := x.cur.isSome || x.held.isSome || !x.posted.isEmpty
    let holds := (s.lanesOn f).any fun l => (s.frameEndOf l).isSome
    if txBusy || s.feMode f != .rx || (holds && decide (s.clk < mv.clk + msTicks 50)) then s else s.makeMove f mv

end Sys2Proof.Machine
end

