-- ==== Sys2Proof/Machine/Canopy.lean ====
section
/-! DEFINITION. Canopy's rounds (R290 to R319) and the hardware's part in its decisions. -/

namespace Sys2Proof.Machine

/-! ## Measurements (Table 11.2) -/

/-- An estimate takes a link-table entry newer than the last it used. -/
def LinkEst.take (e : LinkEst) (x : LinkEntry) : LinkEst :=
  if e.hearings != 0 && decide (x.sfdNs ≤ e.usedNs) then e
  else
    let l := x.level.toNat
    let q := x.snr.toNat
    let avg := fun (first : Bool) (old : Nat) => if first then q else (7 * old + q + 4) / 8
    let e := { e with level := if e.hearings = 0 then 2 * l else (7 * e.level + 2 * l + 4) / 8, hearings := min 255 (e.hearings + 1), usedNs := x.sfdNs }
    if x.aerial = 0 then { e with snrA := avg (e.hearA = 0) e.snrA, hearA := min 255 (e.hearA + 1) }
    else { e with snrB := avg (e.hearB = 0) e.snrB, hearB := min 255 (e.hearB + 1) }

/-- Each pipeline's link table is read once. -/
def State.measureLinks (s : State) : State :=
  feAll.foldl (fun s f => (s.table.links.get f).foldl (fun s p =>
    match s.node p.2.node with
    | some n =>
      if n.state == NodeState.clearing then s
      else let m := s.measOf p.2.node
        s.setMeas p.2.node { m with est := m.est.set f ((m.est.get f).take p.2) }
    | none => s) s) s

/-- A frequency lies in its front end's present slice. -/
def State.inSlice (s : State) (f hz : Nat) : Bool := match feOf f with
  | some g => (s.channelOf g hz).isSome
  | none => false

/-- The channel windows that have ended. -/
def State.measureBusy (s : State) (l : List BusyWindow) : State :=
  let b := s.canopy.busy.filter fun x => decide (s.clk ≤ x.clk + secTicks 604800)
  let b := b.map fun (x : BusyEst) => if s.inSlice x.fe x.hz then { x with clk := s.clk } else x
  let one := fun (b : List BusyEst) (w : BusyWindow) =>
    let c := feCode w.fe
    let hz := s.freqOf w.fe w.channel
    if s.channels w.fe ≤ w.channel then b
    else match b.find? fun x => x.fe == c && x.hz == hz with
      | some x => (b.filter fun y => !(y.fe == c && y.hz == hz)) ++ [{ x with pm := (5 * x.pm + w.perMille + 3) / 6, clk := s.clk }]
      | none => b ++ [{ fe := c, hz := hz, pm := w.perMille, clk := s.clk }]
  { s with canopy := { s.canopy with busy := l.foldl one b } }

/-! ## Neighbour avoidance (R317) -/

/-- Frequencies a neighbour's beacon names: its own and those of its groups' channels. -/
def Nbr.freqs (n : Nbr) : List Nat :=
  n.hz :: n.elem.groups.flatMap fun g => ((List.range 64).filter fun k => bitOf g.bitmap.toNat k).map fun k => channelHz n.elem.sliceCentre n.elem.raster k

def State.avoidSet (s : State) : List (Nat × Nat) :=
  feAll.flatMap fun f => if s.hasFe f then ((List.range (s.channels f)).filter fun k => s.avoided f k).map fun k => (feCode f, k) else []

/-- Marks of neighbours that are current are made, those of the others released. -/
def State.avoidNeighbours (s : State) : State :=
  let before := s.avoidSet
  let cur := s.currentNbrs
  let kept := s.canopy.marks.filter fun m => cur.any fun n => n.routerId == m.1
  let new := cur.filter fun n => !(kept.any fun m => m.1 == n.routerId)
  let marks := kept ++ new.flatMap fun n => n.freqs.map fun hz => (n.routerId, hz)
  let s := { s with canopy := { s.canopy with marks := marks } }
  let after := s.avoidSet
  let s := (before.filter fun c => !after.contains c).foldl (fun s c => s.canLog 0x0F 3 0xFF 0 (128 * c.1 + c.2) 1 0 0) s
  (after.filter fun c => !before.contains c).foldl (fun s c => s.canLog 0x0F 3 0xFF 0 (128 * c.1 + c.2) 0 1 0) s

/-! ## Slices and lanes -/

/-- The centre of least cost among the candidates, the first on ties. -/
def State.bestSlice (s : State) (f : Fe) : Nat × Nat :=
  let now := s.centre f
  ((s.sliceTries f).filter fun c => s.sliceCand f c).foldl (fun b c =>
    let v := s.sliceCost f c
    if v < b.2 then (c, v) else b) (now, s.sliceCost f now)

/-- Kind 3 for one front end (R314). -/
def State.slice (s : State) (f : Fe) : State :=
  let c := feCode f
  if !s.hasFe f || s.feMode f == .off || s.sliceStepMax f = 0 || (s.canopy.slicePins.get c).isSome || (s.feSt f).move.isSome ||
      !s.cooled (s.canopy.coolSlice.get c) s.sliceCool then s
  else
    let b := s.bestSlice f
    let v := s.sliceCost f (s.centre f)
    if v > b.2 + s.sliceHyst then s.decideSlice f b.1 0 0 ((v : Int) - b.2) else s

/-- Applies the watch map (R313): lanes that are released give way first. -/
def State.applyMap (s : State) (extra cause flags : Nat) : State :=
  let r := s.watchMap s.centre extra
  let avail := s.availLanes
  let want := avail.map fun l => (l, match r.map.get l with
    | some (c, hz) => match feOf c with
      | some f => (s.channelOf f hz).map fun k => (c, k)
      | none => none
    | none => none)
  let s := (want.filter fun p => p.2.isNone).foldl (fun s p => s.assignLane p.1 p.2 cause flags false) s
  let s := (want.filter fun p => p.2.isSome).foldl (fun s p => s.assignLane p.1 p.2 cause flags false) s
  (s.countN .canopyLaneMove .device r.moves).settleLanes

/-- A channel with members that no lane watches (R302, R313). -/
def State.unwatchedChans (s : State) : List Chan :=
  (feAll.flatMap fun f => if !s.hasFe f then [] else (List.range (s.channels f)).map fun k =>
    let hz := s.freqOf f k
    ({ fe := feCode f, k := k, hz := hz, v := s.chanValue (feCode f) hz } : Chan)).filter fun c =>
      decide (0 < c.v) && (match feOf c.fe with
        | some f => !s.watched f c.k
        | none => false)

/-- Fault mapping (R319). -/
def State.faultMap (s : State) : State :=
  let off := (List.range 48).filter fun l => match s.laneTarget l with
    | some (c, _) => (match feOf c with
      | some f => s.feMode f == .off
      | none => false)
    | none => false
  let s := off.foldl (fun s l => s.assignLane l none 1 2 false) s
  let s := s.applyMap s.canopy.lanesLost 1 2
  let keep := !s.unwatchedChans.isEmpty
  { s with canopy := { s.canopy with lanesLost := 0, faultClk := if keep then s.canopy.faultClk else none } }

/-- Channels with members that stay unwatched (R313). -/
def State.noteUnwatched (s : State) : State :=
  let now := s.unwatchedChans
  let kept := s.canopy.unwatched.filter fun u => now.any fun c => c.fe == u.fe && c.hz == u.hz
  let new := now.filter fun c => !(kept.any fun u => u.fe == c.fe && u.hz == c.hz)
  { s with canopy := { s.canopy with unwatched := kept ++ new.map fun (c : Chan) => ({ fe := c.fe, hz := c.hz, since := s.clk, raised := none } : Unwatched) } }

/-! ## Placeable gate entries (R316) -/

/-- An entry with another channel. -/
def geSetChannel (e : BitVec 64) (k : Nat) : BitVec 64 :=
  BitVec.ofNat 64 (e.toNat - geChannel e * 2 ^ 53 + k * 2 ^ 53)

/-- Candidate channels of a front end and the best of them. -/
def State.gateChannels (s : State) (f : Fe) : List Nat :=
  (List.range (s.channels f)).filter fun k => (s.subBand f k).isSome && s.watched f k && !s.avoided f k

def State.gateBest (s : State) (f : Fe) : Option Nat :=
  (bestOf (fun k => -(s.busyPm f (s.freqOf f k) : Int)) (s.gateChannels f)).map Prod.fst

/-- The channel entry number j ought to have. -/
def State.gateWish (s : State) (f : Fe) (j : Nat) (e : BitVec 64) (best : Nat) : Nat :=
  let now := geChannel e
  let pm := fun k => s.busyPm f (s.freqOf f k)
  if !(s.gateChannels f).contains now then best
  else if pm now > pm best + s.listHyst && s.cooled (s.canopy.coolEntry.get (1024 * feCode f + j)) 3600 then best
  else now

/-- A list written for the placeable entries, every fixed one as the active list has it; while a shadow list waits, Canopy writes none (R214, log
entry 77). -/
def State.gateList (s : State) (f : Fe) : State :=
  match s.gateBest f, (s.gates f).shadow with
  | none, _ | _, some _ => s
  | some best, none =>
    let g := s.gates f
    let l := g.active
    let wish := (List.range l.length).zip l |>.map fun p =>
      if gePlaceable p.2 && (geClass p.2 = 0 || geClass p.2 = 4) then (p.1, p.2, s.gateWish f p.1 p.2 best) else (p.1, p.2, geChannel p.2)
    let moved := wish.filter fun p => p.2.2 != geChannel p.2.1
    if moved.isEmpty then s
    else
      let s := moved.foldl (fun s p =>
        let key := 1024 * feCode f + p.1
        let s := s.canLog 0x04 0 0xFF 0 key (geChannel p.2.1) p.2.2 0
        { s with canopy := { s.canopy with coolEntry := s.canopy.coolEntry.set key s.clk } }) s
      (s.setGates f { g with shadow := some (wish.map fun p => geSetChannel p.2.1 p.2.2), notBefore := s.netNs + s.changeoverMs * 1000000 }).touch .canopy

/-! ## Nodes: group, band and phase (R302, R308, R309, R320) -/

def State.revertNode (s : State) (t : Taken) : State :=
  s.writePlace t.node t.group t.phase t.fe 0x08 .canopyAssignRevert

def State.reverts (s : State) : State :=
  let due := s.canopy.taken.filter fun t => t.revert
  due.foldl State.revertNode { s with canopy := { s.canopy with taken := s.canopy.taken.filter fun t => !t.revert } }

def State.rehomes (s : State) : State :=
  let due := s.canopy.rehome
  due.foldl (fun s p => match s.node p.1, s.groupFe p.2 with
    | some n, some f => match feOf n.fe with
      | some g => if s.feMode g == .off then s.writePlace p.1 p.2 n.phase (feCode f) 0x09 .canopyRehome else s
      | none => s
    | _, _ => s) { s with canopy := { s.canopy with rehome := [] } }

/-- The place a host's pin asks for node i (Table 11.4). -/
def State.pinPlace (s : State) (i : Nat) (n : Node) (w : PinWait) : Option (Nat × Nat) :=
  match w.place with
  | some p => some p
  | none => match w.fe with
    | none => none
    | some c => match feOf c with
      | none => none
      | some f =>
        if n.fe = c then some (n.group, n.phase)
        else
          let l := (if s.modeFits f n then s.openGroups n.world f else []).flatMap fun g => if n.listen then [(g, n.phase)] else (s.phases n.world).map fun p => (g, p)
          (bestOf (fun p => s.score i n p.1 p.2) l).map Prod.fst

/-- Pins whose nodes are in no exchange are decided, outside period, cool-down and limits. -/
def State.decidePins (s : State) : State :=
  s.canopy.pinWait.foldl (fun s w => match s.node w.node with
    | none => { s with canopy := { s.canopy with pinWait := s.canopy.pinWait.filter fun x => x.node != w.node } }
    | some n =>
      if s.inExchange w.node n then s
      else if s.pendingFull then s.count .hwPendingFull .device
      else match s.pinPlace w.node n w with
        | none => s
        | some (g, p) =>
          let s := { s with canopy := { s.canopy with pinWait := s.canopy.pinWait.filter fun x => x.node != w.node } }
          let listen := w.listen.getD n.listen
          if g = n.group ∧ p = n.phase ∧ listen = n.listen then s
          else (s.setNode w.node { n with listen := listen }).decideMove w.node g p 2 4 0) s

/-- A fault left channels with members unwatched within the last 3 600 s. -/
def State.faultRecent (s : State) : Bool := match s.canopy.faultClk with
  | some k => decide (s.clk < k + secTicks 3600)
  | none => false

/-- The node's group holds an unwatched channel. -/
def State.groupBlind (s : State) (n : Node) : Bool :=
  match s.group n.group with
  | some x => match feOf x.fe with
    | some f => x.freqs.any fun hz => !((s.channelOf f hz).any fun k => s.watched f k)
    | none => false
  | none => false

/-- Canopy considers node i (R300). -/
def State.eligible (s : State) (i : Nat) (n : Node) : Bool :=
  n.state == .live && s.current n && !bitOf n.pins.toNat 0 && bitOf (s.canopyFlags n.world) 0 && !s.frozen 6 n.world &&
  (s.cooled (s.measOf i).coolPlace s.nodeCool || (s.faultRecent && s.groupBlind n)) && !s.inExchange i n

/-- The best candidate of node i, its present place first, and its gain. -/
def State.bestPlace (s : State) (i : Nat) (n : Node) : (Nat × Nat) × Int :=
  let now := (n.group, n.phase)
  let only := if bitOf n.pins.toNat 1 then some n.fe else none
  let l := now :: (s.candPlaces i n only).filter fun p => p != now
  match bestOf (fun p => s.score i n p.1 p.2) l with
  | some (p, v) => (p, v - s.score i n n.group n.phase)
  | none => (now, 0)

/-- The eligible node of greatest gain, the lower index on ties. -/
def State.bestMove (s : State) : Option (Nat × (Nat × Nat) × Int) :=
  (s.table.nodes.filter fun p => s.eligible p.1 p.2).foldl (fun (b : Option (Nat × (Nat × Nat) × Int)) p =>
    let r := s.bestPlace p.1 p.2
    match b with
    | some x => if x.2.2 < r.2 then some (p.1, r) else b
    | none => some (p.1, r)) none

/-- The repeat of R302. -/
def State.placeNodes (s : State) : Nat → State
  | 0 => s
  | n + 1 => match s.bestMove with
    | some (i, p, gain) => if gain ≤ s.placeHyst then s
      else if s.pendingFull then s.count .hwPendingFull .device
      else (s.decideMove i p.1 p.2 0 0 gain).placeNodes n
    | none => s

/-! ## Aerial and power (R310, R311) -/

/-- The aerial R310 gives a node on its front end. -/
def State.aerialFor (s : State) (f : Fe) (i : Nat) (n : Node) : Nat :=
  if !(s.portFitted f 0 && s.portFitted f 1) then s.firstPort f
  else if s.diversity ≠ 0 then s.diversity - 1
  else
    let e := s.estOf i f
    let a := if 4 ≤ e.hearA then some e.snrA else none
    let b := if 4 ≤ e.hearB then some e.snrB else none
    let other := 1 - n.aerial
    let mine := (if n.aerial = 0 then a else b).getD 0
    match if other = 0 then a else b with
    | some v => if v > mine + s.aerialHyst && s.cooled (s.measOf i).coolAerial s.aerialCool then other else n.aerial
    | none => n.aerial

def State.aerialNode (s : State) (i : Nat) : State :=
  match s.node i with
  | some n => match feOf n.fe with
    | some f =>
      if !s.inTable n || bitOf n.pins.toNat 2 || s.frozen 7 n.world || s.feMode f == .off then s
      else
        let p := s.aerialFor f i n
        if p = n.aerial then s
        else
          let s := (s.setNode i { n with aerial := p }).touch (.nodePlace i)
          let s := s.setMeas i { s.measOf i with coolAerial := some s.clk }
          (s.canLog 0x0A 0 n.world 0 i n.aerial p 0).count .canopyAerialChange (.world n.world)
    | none => s
  | none => s

/-- A node's power bias now: it falls by 1 dB for each day since it last rose. -/
def State.biasNow (s : State) (m : Meas) : Nat := m.bias - (s.clk - m.biasClk) / secTicks 86400

def State.powerNode (s : State) (i : Nat) : State :=
  match s.node i with
  | some n => match feOf n.fe with
    | some f =>
      if !s.inTable n || bitOf n.pins.toNat 3 || s.frozen 8 n.world || s.feMode f == .off then s
      else match ((s.group n.group).bind fun g => g.freqs.head?).bind fun hz => subOf s.region hz (s.raster f) with
        | none => s
        | some sub =>
          let top := s.powerCap f n.aerial sub
          let m := s.measOf i
          let b := s.biasNow m
          let l := s.linkMargin f n (s.estOf i f)
          let poor := decide (m.ackPm < 10 * s.ackFloorPct) && decide (4 ≤ m.attempts)
          let want := if poor then top else max (s.pMin f) (top - ((l - 4 * (s.powerMargin + b)) / 2 : Nat))
          let m := if poor then { m with bias := min (b + 3) 12, biasClk := s.clk } else m
          let s := s.setMeas i m
          if (s.powerHyst : Int) ≤ (want - n.txPower).natAbs && (decide (n.txPower < want) || s.cooled m.coolPower s.powerCool) then
            let s := (s.setNode i { n with txPower := want }).touch (.nodePlace i)
            let s := s.setMeas i { m with coolPower := some s.clk, attempts := 0 }
            (s.canLog 0x0B 0 n.world 0 i (unsigned 32 n.txPower) (unsigned 32 want) 0).count .canopyPowerChange (.world n.world)
          else s
    | none => s
  | none => s

/-! ## Downward paths (R312) -/

/-- Relay counts: how many other nodes' walks pass through each node. -/
def State.relays (s : State) : Tbl Nat :=
  s.members.foldl (fun t p => match s.walk p.1 with
    | some path => (path.drop 1).foldl (fun (t : Tbl Nat) j => t.set j (t.getD j 0 + 1)) t
    | none => t) []

/-- The cost of slot k of node i; `none`: no candidate. -/
def State.pathCost (s : State) (rel : Tbl Nat) (i k : Nat) (p : ParentSlot) : Option Nat :=
  (s.walkBy i k).map fun path => s.wHops * path.length + s.wPref * p.pref + s.wRelay * ((if p.root then 0 else rel.getD p.index 0) / 16)

/-- The slot of least cost, ties to the lower pref, then the lower slot: slot and cost. -/
def State.bestSlot (s : State) (rel : Tbl Nat) (i : Nat) (n : Node) : Option (Nat × Nat) :=
  ((List.range 3).zip n.parents).foldl (fun (b : Option (Nat × Nat × Nat)) p =>
    if !s.slotUsable n.world p.2 then b
    else match s.pathCost rel i p.1 p.2 with
      | none => b
      | some c => match b with
        | some x => if c < x.2.1 || (c == x.2.1 && decide (p.2.pref < x.2.2)) then some (p.1, c, p.2.pref) else b
        | none => some (p.1, c, p.2.pref)) none |>.map fun x => (x.1, x.2.1)

def State.usableSlots (s : State) (n : Node) : Nat := (n.parents.filter fun p => s.slotUsable n.world p).length

/-- Sets a node's path_sel. -/
def State.setPath (s : State) (i slot : Nat) (gain : Int) : State :=
  match s.node i with
  | some n =>
    let s := (s.setNode i { n with pathSel := slot }).touch (.nodePlace i)
    let s := s.setMeas i { s.measOf i with coolPath := some s.clk }
    (s.canLog 0x0C 0 n.world 0 i n.pathSel slot gain).count .canopyPathChange (.world n.world)
  | none => s

/-- A wished change of path: node, slot, gain; `true` where the present slot is not usable. -/
def State.pathWish (s : State) (rel : Tbl Nat) (i : Nat) (n : Node) : Option (Nat × Int × Bool) :=
  if !s.inTable n || bitOf n.pins.toNat 4 || s.frozen 9 n.world || s.usableSlots n < 2 then none
  else match s.bestSlot rel i n with
    | none => none
    | some (k, c) =>
      let slot := n.parents[n.pathSel]?
      let usable := match slot with
        | some p => s.slotUsable n.world p
        | none => false
      if !usable then some (k, 0, true)
      else
        let now := match slot with
          | some p => (s.pathCost rel i n.pathSel p).getD 1000000000
          | none => 1000000000
        if k != n.pathSel && decide (now > c + s.pathHyst) && s.cooled (s.measOf i).coolPath s.pathCool then some (k, (now : Int) - c, false) else none

/-- Inserts by descending gain, then ascending node. -/
def gainInsert (x : Nat × Nat × Int) : List (Nat × Nat × Int) → List (Nat × Nat × Int)
  | [] => [x]
  | y :: t => if x.2.2 > y.2.2 then x :: y :: t else y :: gainInsert x t

def State.paths (s : State) : State :=
  let rel := s.relays
  let wish := s.table.nodes.filterMap fun p => (s.pathWish rel p.1 p.2).map fun w => (p.1, w.1, w.2.1, w.2.2)
  let free := wish.filter fun w => w.2.2.2
  let s := free.foldl (fun s w => s.setPath w.1 w.2.1 w.2.2.1) s
  let rest := (wish.filter fun w => !w.2.2.2).foldl (fun l w => gainInsert (w.1, w.2.1, w.2.2.1) l) []
  (rest.take s.pathMovesMax).foldl (fun s w => s.setPath w.1 w.2.1 w.2.2) s

/-! ## Work (R318) -/

def orderInsert (pm : Nat → Nat) (u : Nat) : List Nat → List Nat
  | [] => [u]
  | v :: t => if pm u < pm v || (pm u == pm v && decide (u < v)) then u :: v :: t else v :: orderInsert pm u t

/-- An order as the log shows it: four nibbles. -/
def orderWord (l : List Nat) : Nat := (l.take 4).foldr (fun u n => u + 16 * n) 0

/-- The order to adopt in place of `now`. -/
def newOrder (pm : Nat → Nat) (hyst : Nat) (now : List Nat) : List Nat :=
  let new := now.foldl (fun l u => orderInsert pm u l) []
  if pm (now.headD 0) > pm (new.headD 0) + hyst then new else now

def State.work (s : State) : State :=
  let pm := fun u => s.canopy.unitPm.getD u 0
  let d := newOrder pm s.workHyst s.dec.order
  let c := newOrder (fun u => pm (4 + u)) s.workHyst s.canopy.cipherOrder
  let s := if d = s.dec.order then s
    else { s.canLog 0x0D 0 0xFF 0 0 (orderWord s.dec.order) (orderWord d) 0 with dec := { s.dec with order := d } }
  if c = s.canopy.cipherOrder then s
  else
    let t := s.canLog 0x0E 0 0xFF 0 0 (orderWord s.canopy.cipherOrder) (orderWord c) 0
    { t with canopy := { t.canopy with cipherOrder := c } }

/-! ## Rounds (R290 to R292) -/

/-- Period of a decision kind; 0: by event only. -/
def State.kindPeriod (s : State) (k : Nat) : Nat :=
  match k with
  | 3 => s.slicePeriod
  | 4 => s.mapPeriod
  | 5 => s.listPeriod
  | 6 => s.placePeriod
  | 7 => s.placePeriod
  | 8 => s.placePeriod
  | 9 => s.pathPeriod
  | 10 => s.workPeriod
  | _ => 0

/-- Kinds that fall due in rounds a to b, or were brought forward. -/
def State.dueKinds (s : State) (a b : Nat) : List Nat :=
  (List.range 11).filter fun k => s.canopy.owed.contains k || (s.kindPeriod k != 0 && decide (a ≤ b / s.kindPeriod k * s.kindPeriod k))

/-- One decision kind. -/
def State.decideKind (s : State) (k : Nat) : State :=
  let held := (k == 3 || k == 4 || k == 5 || k == 10) && s.canopy.freezes.any fun f => bitOf f.kinds k
  if held then s
  else match k with
    | 1 => s.faultMap
    | 2 => s.avoidNeighbours
    | 3 => feAll.foldl State.slice s
    | 4 => s.applyMap 0 0 0
    | 5 => feAll.foldl State.gateList s
    | 6 => s.placeNodes (if s.faultRecent then s.faultMovesMax else s.nodeMovesMax)
    | 7 => (s.table.nodes.map Prod.fst).foldl State.aerialNode s
    | 8 => (s.table.nodes.map Prod.fst).foldl State.powerNode s
    | 9 => s.paths
    | 10 => s.work
    | _ => s

/-- A round's decisions in the order of Table 11.1; reverts, re-homes and pins are looked at in every round. -/
def State.decideAll (s : State) (due : List Nat) : State :=
  let s := (due.filter fun k => decide (k ≤ 5)).foldl State.decideKind s
  let s := ((s.reverts).rehomes).decidePins
  ((due.filter fun k => decide (6 ≤ k)).foldl State.decideKind s).noteUnwatched

/-- The round due now: every round from the last one's successor that has come. -/
def State.canopyRound (s : State) (e : CanopyEnv) : State :=
  let k := (s.clk - s.canopy.radioClk) / secTicks 1
  if !s.firmware || !s.life.radioOn || decide (k < s.canopy.round) then s
  else
    let due := s.dueKinds s.canopy.round k
    let next := fun (s : State) (owed : List Nat) => { s with canopy := { s.canopy with round := k + 1, owed := owed } }
    if e.late then (next s due).count .canopyRoundLate .device
    else
      let s := next s []
      let s := if due.contains 10 then { s with canopy := { s.canopy with unitPm := e.unitPm } } else s
      ((s.measureLinks).measureBusy e.busy).decideAll due

/-- CANOPY_ROUND (R290 to R319). -/
def execCanopyRound (dt : Nat) (e : CanopyEnv) (s : State) : Host.Outcome State Fault Refusal := .next ((s.tick dt).canopyRound e)

/-- SLICE_MOVE (R65, R116, R298, R315). -/
def execSliceMove (dt : Nat) (f : Fe) (s : State) : Host.Outcome State Fault Refusal := .next ((s.tick dt).sliceMove f)

/-- ASSIGNMENT_EFFECT (R307). -/
def execAssignmentEffect (dt : Nat) (index : Nat) (s : State) : Host.Outcome State Fault Refusal := .next ((s.tick dt).assignNow index)

/-- ASSIGNMENT_WITHDRAWAL (R306). -/
def execAssignmentWithdrawal (dt : Nat) (index : Nat) (s : State) : Host.Outcome State Fault Refusal :=
  .next ((s.tick dt).assignWithdraw index)

/-- Freezes whose end instant has come end (R321). -/
def State.freezeEnd (s : State) : State :=
  let ended := fun (f : Freeze) => match f.endNs with
    | some e => decide (e ≤ s.netNs)
    | none => false
  if s.canopy.freezes.any ended then
    { s with canopy := { s.canopy with freezes := s.canopy.freezes.filter fun f => !ended f } }.touch .canopy
  else s

/-- FREEZE_END (R321). -/
def execFreezeEnd (dt : Nat) (s : State) : Host.Outcome State Fault Refusal := .next ((s.tick dt).freezeEnd)

/-- CANOPY_UNWATCHED for one channel: after 60 s, then every hour (R313). -/
def State.raiseUnwatched (s : State) (f : Fe) (k : Nat) : State :=
  let hz := s.freqOf f k
  let s := s.noteUnwatched
  match s.canopy.unwatched.find? fun u => u.fe == feCode f && u.hz == hz with
  | none => s
  | some u =>
    let due := match u.raised with
      | some r => decide (r + secTicks 3600 ≤ s.clk)
      | none => decide (u.since + secTicks 60 ≤ s.clk)
    if !due then s
    else
      let n := match s.canopy.groups.find? fun p => p.2.fe == feCode f && p.2.freqs.contains hz with
        | some (g, _) => s.groupMembers g
        | none => 0
      let mark := fun (x : Unwatched) => if x.fe = u.fe ∧ x.hz = u.hz then { x with raised := some s.clk } else x
      { s with canopy := { s.canopy with unwatched := s.canopy.unwatched.map mark } }.raise 0x0B01 none (toBe 1 (feCode f) ++ toBe 1 k ++ toBe 3 n)

/-- CANOPY_UNWATCHED (R313). -/
def execCanopyUnwatched (dt : Nat) (f : Fe) (channel : Nat) (s : State) : Host.Outcome State Fault Refusal :=
  .next (let t := s.tick dt
    if t.firmware && t.life.radioOn then t.raiseUnwatched f channel else t)

end Sys2Proof.Machine
end

