-- ==== Sys2Proof/Machine/CanopyCmds.lean ====
section
/-! DEFINITION. The hosts' commands to Canopy: pins, freezes and the decision log (R320, R321, R323, R442). -/

namespace Sys2Proof.Machine

/-! ## Pins of nodes (Tables 11.4 and 15.6) -/

/-- The powers R71 allows a node, on its front end, aerial and group. -/
def State.nodePowers (s : State) (n : Node) : Int × Int :=
  match feOf n.fe with
  | none => (0, 0)
  | some f =>
    match ((s.group n.group).bind fun g => g.freqs.head?).bind fun hz => subOf s.region hz (s.raster f) with
    | some sub => (s.pMin f, s.powerCap f n.aerial sub)
    | none => (s.pMin f, s.pMax f)

/-- A value pinned on a node lies within the bounds Canopy keeps to (R320). -/
def State.pinInRange (s : State) (n : Node) (kind value : Nat) : Bool :=
  match kind with
  | 0 =>
    let p := bitsOf value 6 8
    decide (value < 2 ^ 17) && bitsOf value 14 2 == 0 && (bitOf value 16 || (decide (s.phaseLo n.world ≤ p) && decide (p ≤ s.phaseHi n.world))) &&
      (match s.groupFe (bitsOf value 0 6) with
        | some f => bitOf (s.worldFes n.world) (feCode f)
        | none => false)
  | 1 => match feOf value with
    | some f => s.hasFe f && bitOf (s.worldFes n.world) value
    | none => false
  | 2 => match feOf n.fe with
    | some f => decide (value ≤ 1) && s.portFitted f value
    | none => false
  | 3 =>
    let v := signed 32 value
    let b := s.nodePowers n
    decide (b.1 ≤ v) && decide (v ≤ b.2)
  | 4 => decide (value ≤ 2)
  | _ => false

/-- A pin on group and phase or on a band waits for a round. -/
def State.waitPin (s : State) (i : Nat) (w : PinWait) : State :=
  let old := (s.canopy.pinWait.find? fun (p : PinWait) => p.node == i).getD { node := i, place := none, fe := none }
  let new : PinWait := { node := i, place := w.place.or old.place, fe := w.fe.or old.fe, listen := w.listen.or old.listen }
  let s := { s with canopy := { s.canopy with pinWait := (s.canopy.pinWait.filter fun (p : PinWait) => p.node != i) ++ [new] } }
  s.coolNode i

/-- Sets bit `kind` of a node's pins, logged. -/
def State.markPin (s : State) (i kind : Nat) (on : Bool) : State :=
  match s.node i with
  | none => s
  | some n =>
    let old := n.pins.toNat
    let bit := 2 ^ kind
    let new := if on then (if bitOf old kind then old else old + bit) else (if bitOf old kind then old - bit else old)
    let s := (s.setNode i { n with pins := BitVec.ofNat 5 new }).touch (.nodePlace i)
    s.canLog 0x11 2 n.world (if on then 4 else 0) i old new 0

/-- A pin on a node takes effect. -/
def State.pinNode (s : State) (i : Nat) (n : Node) (kind value : Nat) : State :=
  match kind with
  | 0 => s.waitPin i { node := i, place := some (bitsOf value 0 6, bitsOf value 6 8), fe := none, listen := some (bitOf value 16) }
  | 1 => s.waitPin i { node := i, place := none, fe := some value }
  | 2 =>
    let s := (s.setNode i { n with aerial := value }).setMeas i { s.measOf i with coolAerial := some s.clk }
    if value = n.aerial then s else (s.canLog 0x0A 2 n.world 4 i n.aerial value 0).count .canopyAerialChange (.world n.world)
  | 3 =>
    let s := (s.setNode i { n with txPower := signed 32 value }).setMeas i { s.measOf i with coolPower := some s.clk }
    if signed 32 value = n.txPower then s
    else (s.canLog 0x0B 2 n.world 4 i (unsigned 32 n.txPower) value 0).count .canopyPowerChange (.world n.world)
  | _ =>
    let s := (s.setNode i { n with pathSel := value }).setMeas i { s.measOf i with coolPath := some s.clk }
    if value = n.pathSel then s else (s.canLog 0x0C 2 n.world 4 i n.pathSel value 0).count .canopyPathChange (.world n.world)

/-- The record a node subject names. -/
def State.pinSubject (s : State) (i : Nat) : Option Node := (s.node i).filter fun n => s.isMember n

/-! ## Pins of lanes and slices -/

/-- A LANES map entry that assigns a channel (Table 5.9). -/
def State.laneValue (s : State) (value : Nat) : Option (Nat × Nat) :=
  match feOf (bitsOf value 7 2) with
  | some f =>
    if bitOf value 9 && decide (value < 2048) && s.hasFe f && decide (bitsOf value 0 7 < s.channels f) then some (feCode f, bitsOf value 0 7) else none
  | none => none

/-- A lane is pinned to a channel; a lane already watching it is released. -/
def State.pinLane (s : State) (l : Nat) (a : Nat × Nat) : State :=
  let others := (List.range 48).filter fun j => j != l && s.laneTarget j == some a
  let s := others.foldl (fun s j =>
    ({ s with canopy := { s.canopy with lanePins := s.canopy.lanePins.erase j } }).assignLane j none 2 4 false) s
  let s := { s with canopy := { s.canopy with lanePins := s.canopy.lanePins.set l a } }
  ((s.assignLane l (some a) 2 4 true).settleLanes).canLog 0x11 2 0xFF 4 (2 ^ 31 + l) 0 1 0

/-- A slice centre is pinned: moved at once; pinned where it is, a move that waits is given up. -/
def State.pinSlice (s : State) (f : Fe) (c : Nat) : State :=
  let k := feCode f
  let s := { s with canopy := { s.canopy with slicePins := s.canopy.slicePins.set k c, coolSlice := s.canopy.coolSlice.set k s.clk } }
  let s := (s.touch .canopy).canLog 0x11 2 0xFF 4 (2 ^ 30 + k) 0 1 0
  if c = s.centre f then s.setFe f { s.feSt f with move := none } else s.decideSlice f c 2 4 0

/-- CANOPY-PIN (R320, R442). -/
def State.canopyPin (s : State) (m : Nat) (r : Request) : State :=
  let kind := beField r.payload 0 1
  let subject := beField r.payload 1 4
  let value := beField r.payload 5 4
  if kind ≤ 4 then
    match s.pinSubject subject with
    | none => s.respond m r sNotFound []
    | some n =>
      if s.pinInRange n kind value then ((s.pinNode subject n kind value).markPin subject kind true).respond m r sOk []
      else s.respond m r sRange []
  else if kind = 5 then
    if subject ≥ s.laneCount then s.respond m r sNotFound []
    else if (s.lane subject).out then s.respond m r sState []
    else match s.laneValue value with
      | some a => if s.laneAllowed subject then (s.pinLane subject a).respond m r sOk [] else s.respond m r sRange []
      | none => s.respond m r sRange []
  else if kind = 6 then
    match feOf subject with
    | some f =>
      if !s.hasFe f then s.respond m r sNotFound []
      else if s.feMode f == .off then s.respond m r sState []
      else if s.sliceCand f value then (s.pinSlice f value).respond m r sOk [] else s.respond m r sRange []
    | none => s.respond m r sNotFound []
  else s.respond m r sRange []

/-- CANOPY_PIN (R320, R442). -/
def execCanopyPin (dt : Nat) (m : Mbox) (s : State) : Host.Outcome State Fault Refusal :=
  .next ((s.tick dt).shortCmd m.val 0x0601 9 fun s r => s.canopyPin m.val r)

/-- A pin that still waits for its round is dropped. -/
def State.dropWait (s : State) (i kind : Nat) : State :=
  let cut := fun (w : PinWait) =>
    if w.node ≠ i then w else if kind = 0 then { w with place := none, listen := none } else if kind = 1 then { w with fe := none } else w
  { s with canopy := { s.canopy with pinWait := (s.canopy.pinWait.map cut).filter fun w => w.place.isSome || w.fe.isSome } }

/-- CANOPY-UNPIN: the pin is cleared, the value stays (R320). -/
def State.canopyUnpin (s : State) (m : Nat) (r : Request) : State :=
  let kind := beField r.payload 0 1
  let subject := beField r.payload 1 4
  if kind ≤ 4 then
    match s.pinSubject subject with
    | none => s.respond m r sNotFound []
    | some _ => ((s.dropWait subject kind).markPin subject kind false).respond m r sOk []
  else if kind = 5 then
    if subject ≥ s.laneCount then s.respond m r sNotFound []
    else
      let s := { s with canopy := { s.canopy with lanePins := s.canopy.lanePins.erase subject } }
      let was := if (s.lane subject).pinned then 1 else 0
      let s := (s.setLane subject { s.lane subject with pinned := false }).touch .canopy
      (s.canLog 0x11 2 0xFF 0 (2 ^ 31 + subject) was 0 0).respond m r sOk []
  else if kind = 6 then
    match feOf subject with
    | some f =>
      if !s.hasFe f then s.respond m r sNotFound []
      else
        let was := if (s.canopy.slicePins.get subject).isSome then 1 else 0
        let s := { s with canopy := { s.canopy with slicePins := s.canopy.slicePins.erase subject } }.touch .canopy
        (s.canLog 0x11 2 0xFF 0 (2 ^ 30 + subject) was 0 0).respond m r sOk []
    | none => s.respond m r sNotFound []
  else s.respond m r sRange []

/-- CANOPY_UNPIN (R320). -/
def execCanopyUnpin (dt : Nat) (m : Mbox) (s : State) : Host.Outcome State Fault Refusal :=
  .next ((s.tick dt).shortCmd m.val 0x0602 5 fun s r => s.canopyUnpin m.val r)

/-! ## Freezes (R321) -/

/-- Kinds 6 to 9, which have worlds, and kinds 3, 4, 5 and 10, which have none. -/
def worldKinds : Nat := 0x3C0
def deviceKinds : Nat := 0x438

/-- A freeze less the kinds named for world w (8: all). -/
def Freeze.cut (kinds w : Nat) (f : Freeze) : List Freeze :=
  let dev := kinds &&& deviceKinds
  let wk := kinds &&& worldKinds
  let gone := dev + (if w = 8 ∨ f.world = w ∨ f.world = 8 then wk else 0)
  let left := f.kinds - (f.kinds &&& gone)
  let main : List Freeze := if left = 0 then [] else [{ f with kinds := left }]
  if f.world = 8 ∧ w ≠ 8 ∧ f.kinds &&& wk ≠ 0 then
    main ++ ((List.range 8).filter fun v => v != w).map fun v => ({ kinds := f.kinds &&& wk, world := v, endNs := f.endNs } : Freeze)
  else main

/-- The kinds and the world of a FREEZE or THAW argument, where they are in range. -/
def freezeArg (p : Octets) : Option (Nat × Nat) :=
  let kinds := beField p 0 2
  let w := beField p 2 1
  if kinds = 0 ∨ kinds - (kinds &&& (worldKinds + deviceKinds)) ≠ 0 then none
  else if w ≤ 7 then some (kinds, w) else if w = 0xFF then some (kinds, 8) else none

/-- Enters or ends a freeze, logged as kind 0x12. -/
def State.setFreeze (s : State) (kinds w duration : Nat) (on : Bool) : State :=
  let rest := s.canopy.freezes.flatMap (Freeze.cut kinds w)
  let new : Freeze := { kinds := kinds, world := w, endNs := if duration = 0 then none else some (s.netNs + duration * 1000000000) }
  let world := if w = 8 then 0xFF else w
  let s := { s with canopy := { s.canopy with freezes := if on then rest ++ [new] else rest } }.touch .canopy
  s.canLog 0x12 2 (if kinds &&& deviceKinds = 0 then world else 0xFF) 0 (kinds + world * 65536) 0 duration 0

/-- CANOPY_FREEZE (R321). -/
def execCanopyFreeze (dt : Nat) (m : Mbox) (s : State) : Host.Outcome State Fault Refusal :=
  .next ((s.tick dt).shortCmd m.val 0x0603 7 fun s r =>
    let d := beField r.payload 3 4
    match freezeArg r.payload with
    | some (k, w) => if d ≤ 604800 then (s.setFreeze k w d true).respond m.val r sOk [] else s.respond m.val r sRange []
    | none => s.respond m.val r sRange [])

/-- CANOPY_THAW (R321). -/
def execCanopyThaw (dt : Nat) (m : Mbox) (s : State) : Host.Outcome State Fault Refusal :=
  .next ((s.tick dt).shortCmd m.val 0x0604 3 fun s r =>
    match freezeArg r.payload with
    | some (k, w) => (s.setFreeze k w 0 false).respond m.val r sOk []
    | none => s.respond m.val r sRange [])

/-! ## The decision log (R323) -/

/-- The 32 octets of Table 11.5. -/
def LogEntry.octets (e : LogEntry) : Octets :=
  toBe 4 e.seq.toNat ++ toBe 6 e.sec.toNat ++ toBe 2 e.ms ++ toBe 1 e.kind ++ toBe 1 e.cause ++ toBe 1 e.world ++ toBe 1 e.flags ++
    toBe 4 e.subject ++ toBe 4 e.old.toNat ++ toBe 4 e.new.toNat ++ toBe 4 (unsigned 32 e.gain)

/-- CANOPY_LOG_READ (R323). -/
def execCanopyLogRead (dt : Nat) (m : Mbox) (s : State) : Host.Outcome State Fault Refusal :=
  .next ((s.tick dt).shortCmd m.val 0x0605 5 fun s r =>
    let seq := beField r.payload 0 4
    let n := beField r.payload 4 1
    if n < 1 ∨ 64 < n then s.respond m.val r sRange []
    else
      let w := (s.mb m.val).world
      let lost := match s.canopy.log with
        | e :: _ => decide (seq < e.seq.toNat)
        | [] => false
      let seen := (s.canopy.log.filter fun e => decide (seq ≤ e.seq.toNat) && (w == 0 || e.world == w)).take n
      s.respond m.val r sOk (toBe 1 (if lost then 1 else 0) ++ toBe 1 seen.length ++ seen.flatMap LogEntry.octets))

end Sys2Proof.Machine
end

