-- ==== Sys2Proof/Machine/Clock.lean ====
section
/-! DEFINITION. Meanings of the commands and events of network time, wall time and the Almanac (chapter 7), TIME_STEP and
MERIDIAN_UPDATE apart. -/

namespace Sys2Proof.Machine

/-! ## Events -/

/-- The range of Table 7.2: 3.999 2 ns to 4.000 8 ns. -/
def incInRange (ns : BitVec 3) (frac : BitVec 32) : Bool :=
  let v := (ns.toNat * 4294967296 + frac.toNat) * 10000
  decide (39992 * 4294967296 ≤ v) && decide (v ≤ 40008 * 4294967296)

/-- An increment lies within max_slew_ppm of the servo's frequency estimate (R178). -/
def State.slewOk (s : State) (ns : BitVec 3) (frac : BitVec 32) : Bool :=
  let v : Int := (ns.toNat * 4294967296 + frac.toNat : Nat)
  decide ((v - s.time.freqEst).natAbs * 1000000 ≤ s.maxSlewPpm * s.time.freqEst)

/-- The servo writes the increment (R174, R175), never farther from its frequency estimate than R178 allows; in HOLDOVER it writes nothing (R179). -/
def State.writeInc (s : State) (ns : BitVec 3) (frac : BitVec 32) : State :=
  if !s.servoRuns || s.time.disc == .holdover || !s.slewOk ns frac then s
  else if incInRange ns frac then
    { s with time := { s.time with pendInc := some (nextMeridian s.clk, ns, frac) } }.touch .increment
  else s.count .timeIncRefused .device

/-- INCREMENT_WRITE (R174, R175). -/
def execIncrementWrite (dt : Nat) (incNs : BitVec 3) (incFrac : BitVec 32) (s : State) : Host.Outcome State Fault Refusal :=
  .next ((s.tick dt).writeInc incNs incFrac)

/-- PTP_MEASUREMENT (R178, R179). -/
def execPtpMeasurement (dt : Nat) (p : Port) (s : State) : Host.Outcome State Fault Refusal :=
  .next ((s.tick dt).ptp p)

/-- No valid measurement for master_loss_ms while LOCKED (R179). -/
def State.masterLoss (s : State) : State :=
  if s.servoRuns && s.locked && decide (s.time.lastMeas + msTicks s.masterLossMs ≤ s.clk) then
    let s := { s with time := { s.time with holdClk := s.clk, degraded := false } }.setDisc .holdover
    (s.raise 0x0703 none s.servoData).count .ptpMasterLost .device
  else s

/-- MASTER_LOSS (R179). -/
def execMasterLoss (dt : Nat) (s : State) : Host.Outcome State Fault Refusal := .next ((s.tick dt).masterLoss)

/-- degraded_after_h have passed in HOLDOVER (R179). -/
def State.holdoverDegraded (s : State) : State :=
  if s.servoRuns ∧ s.time.disc = .holdover ∧ !s.time.degraded ∧ s.time.holdClk + secTicks (3600 * s.degradedAfterH) ≤ s.clk then
    { s with time := { s.time with degraded := true } }.raise 0x0704 none s.servoData
  else s

/-- HOLDOVER_DEGRADED (R179). -/
def execHoldoverDegraded (dt : Nat) (s : State) : Host.Outcome State Fault Refusal := .next ((s.tick dt).holdoverDegraded)

/-- A PPS_IN edge: timestamped at 4 ns after the compensation, used or rejected (R183). -/
def State.ppsEdge (s : State) : State :=
  let t : Int := (s.netNs : Int) - s.ppsComp
  let t := (t - t % 4).toNat
  let r := t % 1000000000
  if 100000000 < r ∧ r < 900000000 then s.count .ppsInReject .device
  else { s with time := { s.time with ppsIn := some t } }

/-- PPS_IN_EDGE (R183). -/
def execPpsInEdge (dt : Nat) (s : State) : Host.Outcome State Fault Refusal := .next ((s.tick dt).ppsEdge)

/-- PPS_OUT (R183): high for pps_width_ms from each passage of ns through 0. -/
def State.ppsOut (s : State) : Bool :=
  s.operating && bitOf s.timeFlags 0 && (match s.time.sincePass with
    | some n => decide (n < msTicks s.ppsWidthMs)
    | none => false)

/-- RTC_SECOND (R186, R190, R191, R197, R199). -/
def execRtcSecond (dt : Nat) (s : State) : Host.Outcome State Fault Refusal := .next ((s.tick dt).rtcSecond)

/-- RTC_ADJUST (R189). -/
def execRtcAdjust (dt : Nat) (stampErr : Int) (s : State) : Host.Outcome State Fault Refusal := .next ((s.tick dt).rtcAdjust stampErr)

/-- RTC_OSC_STOPPED (R185, R193). -/
def execRtcOscStopped (dt : Nat) (s : State) : Host.Outcome State Fault Refusal := .next ((s.tick dt).oscStop)

/-- CRYSTAL_RESTART (R185). -/
def execCrystalRestart (dt : Nat) (s : State) : Host.Outcome State Fault Refusal := .next ((s.tick dt).oscStart)

/-! ## Commands (Table 15.4) -/

/-- Result of TIME-GET. -/
def State.timeView (s : State) : Octets :=
  let st := match s.time.disc with
    | .free => 0
    | .locked => 1
    | .holdover => 2
  let fl := (if s.time.disc = .holdover ∧ s.time.degraded then 1 else 0) + (if s.rtc.trusted then 0 else 2) + (if s.rtc.summer then 4 else 0)
  toBe 1 st ++ toBe 1 fl ++ toBe 8 s.time.sec.toNat ++ toBe 4 s.time.ns.toNat ++ toBe 2 s.utcOffset ++ toBe 6 s.rtc.sec.toNat ++
    toBe 2 s.rtcFrac ++ toBe 1 s.rtc.offset.toNat ++ toBe 4 s.rtc.countdown.toNat

/-- TIME_GET (R202). -/
def execTimeGet (dt : Nat) (m : Mbox) (s : State) : Host.Outcome State Fault Refusal :=
  .next ((s.tick dt).shortCmd m.val 0x0501 0 fun s r => s.respond m.val r sOk s.timeView)

/-- The count a TIME-SET argument names: `none` malformed, `some none` out of range. -/
def timeSetArg (p : Octets) : Option (Option Nat) :=
  let form := beField p 0 1
  if form = 0 ∧ p.length = 7 then some (some (beField p 1 6))
  else if form = 1 ∧ p.length = 8 then
    some (countOf (beField p 1 2) (beField p 3 1) (beField p 4 1) (beField p 5 1) (beField p 6 1) (beField p 7 1))
  else none

/-- TIME-SET (R187, R196, R202). -/
def State.timeSet (s : State) (m : Nat) (r : Request) : State :=
  match timeSetArg r.payload with
  | none => s.respond m r sMalformed []
  | some v =>
    if s.wallDerivable then s.respond m r sState []
    else match v with
      | none => s.respond m r sRange []
      | some c => (s.writeRtc (BitVec.ofNat 48 c) 0).respond m r sOk []

/-- TIME_SET (R187). -/
def execTimeSet (dt : Nat) (m : Mbox) (s : State) : Host.Outcome State Fault Refusal :=
  .next ((s.tick dt).hostCmd m.val 0x0502 fun s r => s.timeSet m.val r)

/-- A change of the local offset, in effect at the next second boundary (R197). -/
def State.localChange (s : State) (m : Nat) (r : Request) (o : Int) (summer : Option Bool) : State :=
  if -48 ≤ o ∧ o ≤ 56 then
    (s.setRtc { s.rtc with pendLocal := s.rtc.pendLocal ++ [{ offset := o, summer := summer }] }).respond m r sOk []
  else s.respond m r sRange []

/-- LOCAL_OFFSET_SET (R197). -/
def execLocalOffsetSet (dt : Nat) (m : Mbox) (s : State) : Host.Outcome State Fault Refusal :=
  .next ((s.tick dt).shortCmd m.val 0x0503 1 fun s r => s.localChange m.val r (signed 8 (beField r.payload 0 1)) none)

/-- ADD_HOUR (R197). -/
def execAddHour (dt : Nat) (m : Mbox) (s : State) : Host.Outcome State Fault Refusal :=
  .next ((s.tick dt).shortCmd m.val 0x0504 0 fun s r => s.localChange m.val r (s.offsetAhead + 4) (some true))

/-- SUB_HOUR (R197). -/
def execSubHour (dt : Nat) (m : Mbox) (s : State) : Host.Outcome State Fault Refusal :=
  .next ((s.tick dt).shortCmd m.val 0x0505 0 fun s r => s.localChange m.val r (s.offsetAhead - 4) (some false))

/-- COUNTDOWN_SET (R191). -/
def execCountdownSet (dt : Nat) (m : Mbox) (s : State) : Host.Outcome State Fault Refusal :=
  .next ((s.tick dt).shortCmd m.val 0x0506 4 fun s r =>
    (s.setRtc { s.rtc with countdown := BitVec.ofNat 32 (beField r.payload 0 4), cdExpired := false }).respond m.val r sOk [])

/-- Status with which ALMANAC-ADD answers an entry (R202). -/
def State.almAddStatus (s : State) (m : Nat) (e : Octets) : Nat :=
  if (almMalformed e).isSome then sMalformed
  else if (almBadRange e).isSome then sRange
  else if almWorld e ≠ (s.mb m).world then sNotPermitted
  else if (almCross e).isSome then sRange
  else if s.hw.almanac.length ≥ 1024 then sFull
  else if (s.hw.almanac.get (almId e)).isSome then sExists
  else sOk

/-- ALMANAC_ADD (R202). -/
def execAlmanacAdd (dt : Nat) (m : Mbox) (s : State) : Host.Outcome State Fault Refusal :=
  .next ((s.tick dt).shortCmd m.val 0x0511 128 fun s r =>
    let e := almSetLast r.payload (2 ^ 64 - 1)
    let st := s.almAddStatus m.val e
    (if st = sOk then s.setAlm (almId e) { octets := e, fate := .standing } else s).respond m.val r st [])

/-- An entry the mailbox may remove or see: its own world's, or any for W0 (R202). -/
def State.almVisible (s : State) (m : Nat) (e : AlmEntry) : Bool := (s.mb m).world = 0 || almWorld e.octets = (s.mb m).world

/-- ALMANAC_REMOVE (R202). -/
def execAlmanacRemove (dt : Nat) (m : Mbox) (s : State) : Host.Outcome State Fault Refusal :=
  .next ((s.tick dt).shortCmd m.val 0x0512 2 fun s r =>
    let k := beField r.payload 0 2
    if k > 1023 then s.respond m.val r sRange []
    else match s.hw.almanac.get k with
      | some e =>
        if s.almVisible m.val e then { s with hw := { s.hw with almanac := s.hw.almanac.erase k } }.respond m.val r sOk []
        else s.respond m.val r sNotFound []
      | none => s.respond m.val r sNotFound [])

def fateCode : Fate → Nat
  | .standing => 0
  | .fired => 1
  | .missed => 2

/-- An entry as ALMANAC-LIST shows it: another world's without its payload (R202). -/
def State.almView (s : State) (m : Nat) (e : AlmEntry) : Octets :=
  toBe 1 (fateCode e.fate) ++
    (if almWorld e.octets = (s.mb m).world then e.octets else e.octets.take 44 ++ List.replicate 64 0 ++ e.octets.drop 108)

/-- ALMANAC_LIST (R202): up to 255 entries from the cursor on; next is 0xFFFF at the end (log entry 30). -/
def execAlmanacList (dt : Nat) (m : Mbox) (s : State) : Host.Outcome State Fault Refusal :=
  .next ((s.tick dt).shortCmd m.val 0x0513 2 fun s r =>
    let seen := s.hw.almanac.filter fun p => decide (beField r.payload 0 2 ≤ p.1) && s.almVisible m.val p.2
    let now := seen.take 255
    let next := match (seen.drop 255).head? with
      | some p => p.1
      | none => 0xFFFF
    s.respond m.val r sOk (toBe 2 next ++ toBe 1 now.length ++ now.flatMap fun p => s.almView m.val p.2))

end Sys2Proof.Machine
end

