-- ==== Sys2Proof/Machine/MacRx.lean ====
section
/-! DEFINITION. The end of a received frame (chapters 4, 6, 10): checks, the acknowledgement, duplicates, the node table, neighbours. -/

namespace Sys2Proof.Machine

/-! ## The acknowledgement (R150 to R153) -/

/-- What the MAC knows of a frame at its end. -/
structure RxEnd where
  fe : Fe
  channel : Nat
  lane : Nat
  info : RxInfo
  hdr : RxHdr
  deriving DecidableEq, Repr

/-- PSDU octets of the Enh-Ack (R151). -/
def ackPsdu (f : AirFrame) (fcs2 : Bool) : Nat :=
  2 + (if f.seq.isSome then 1 else 0) + (match f.src with
    | .ext _ => 8
    | .short _ => 2
    | .none => 0) + (if fcs2 then 2 else 4)

/-- Time from the end of one frame to the start of the next on a channel (Table 3.3). -/
def State.txToTx (s : State) (f : Fe) (k last : Nat) : Nat :=
  if k = last then s.rampTime f 16 2 else if s.calibrated f k then s.rampTime f 22 2 else s.rampTime f 52 2

/-- An ACK already accepted on f does not end early enough for a new one (R153). -/
def State.ackClash (s : State) (f : Fe) (k latest : Nat) : Bool :=
  let x := s.feSt f
  (x.cur.toList ++ x.held.toList ++ x.posted).any fun q =>
    q.cls == .ack && decide (latest < q.start + q.air * 1000 + s.txToTx f k q.channel)

/-- The source's record where it gives the ACK its power: LIVE, QUIET or RETIRING, naming f (R151). -/
def State.ackRecord (s : State) (f : Fe) (src : Addr) : Option Node :=
  match src with
  | .ext e => match s.findEui e with
    | some i => match s.node i with
      | some n => if (s.inTable n || n.state == .retiring) && n.fe == feCode f then some n else none
      | none => none
    | none => none
  | _ => none

/-- Frame pending in the ACK: the source is in the node table and a frame for it waits (R151). -/
def State.ackPending (s : State) (src : Addr) : Bool :=
  match src with
  | .ext e => match s.findEui e with
    | some i => match s.node i with
      | some n => s.inTable n && s.hasFrameFor i
      | none => false
    | none => false
  | _ => false

/-- Posts the ACK of a frame (R146, R147, R150, R151, R153), in its mode, rate and FCS type and whitened as it was (R105); one shorter than the least
PSDU is not sent (R109).  Its lane owes it until it has ended. -/
def State.postAck (s : State) (r : RxEnd) (f : AirFrame) : State :=
  let fe := r.fe
  let s := s.ackOver r.lane
  let target := r.hdr.endNs + 1000000
  let latest := target + 20000
  let air := s.txAir fe r.hdr.mode r.hdr.rate (ackPsdu f r.hdr.fcs2)
  let rec_ := s.ackRecord fe f.src
  match s.subBand fe r.channel with
  | none => s.count .txNoSubband .device
  | some i =>
    if s.powerNone fe r.info.port i then s.count .txEirpRefused (.fe (feCode fe))
    else if ackPsdu f r.hdr.fcs2 < minPsdu r.hdr.fcs2 then s.count .txLenRefused (.fe (feCode fe))
    else if s.ackClash fe r.channel latest then s.count .ackLate (.fe (feCode fe))
    else if !s.admits i air .ack then s.count .ackDutyRefused (.fe (feCode fe))
    else
      let want := match rec_ with
        | some n => n.txPower
        | none => s.pMax fe
      let q : TxReq := {
        channel := r.channel, port := r.info.port, power := s.limitPower fe r.info.port i want, mode := r.hdr.mode, rate := r.hdr.rate
        cls := .ack, precorr := if s.precorrOn fe then clampOffset (8 * r.info.offset8) else 0, target := target, latest := latest
        start := target, air := air, charge := some (i, s.time.sec.toNat), body := .ack r.lane f.src f.seq (s.ackPending f.src)
        psdu := withFcs r.hdr.fcs2 (ackOctets f.src f.seq (s.ackPending f.src)), fcs2 := r.hdr.fcs2, whitening := r.hdr.whitening }
      let s := (s.charge i air).setLane r.lane { s.lane r.lane with ackOwed := true }
      (s.setFe fe { s.feSt fe with posted := (s.feSt fe).posted ++ [q] }).ackTakes fe

/-! ## Duplicates (R154, R155) -/

/-- FCS value of a PSDU. -/
def fcsValue (two : Bool) (p : Octets) : BitVec 32 := BitVec.ofNat 32 (leNat (p.drop (p.length - fcsLen two)))

/-- An unexpired entry matches the frame (R154). -/
def State.dupFind (s : State) (f : AirFrame) (fcs : BitVec 32) (len sfdNs : Nat) : Bool :=
  match f.seq with
  | none => false
  | some q => s.mac.dups.any fun e =>
      e.src == f.src && e.srcPan == f.srcPan && e.seq == q && e.length == len && e.fcs == fcs && decide (sfdNs ≤ e.expiry)

/-- World of the record an address names, where it has one. -/
def State.worldOfAddr (s : State) (a : Addr) : Option Nat :=
  match a with
  | .ext e => match s.findEui e with
    | some i => (s.node i).bind fun n => if n.state == .joining then none else some n.world
    | none => none
  | _ => none

def State.countWorldAndDevice (s : State) (c : Ctr) (w : Option Nat) : State :=
  let s := s.count c .device
  match w with
  | some w => s.count c (.world w)
  | none => s

/-- An entry that a frame may still match: it has not expired, or a lane holds a frame whose SFD came before it did. -/
def State.dupLives (s : State) (e : DupEntry) : Bool :=
  decide (s.netNs ≤ e.expiry) || s.lanes.any fun p => p.2.frames.any (fun q => decide (q.1.cmpNs ≤ e.expiry)) || (match p.2.phase with
    | .header i => decide (i.cmpNs ≤ e.expiry)
    | _ => false)

/-- Enters a frame in the duplicate cache, from which expired entries go; a full cache loses its oldest entry. -/
def State.dupEnter (s : State) (f : AirFrame) (fcs : BitVec 32) (len endNs : Nat) : State :=
  match f.seq with
  | none => s
  | some q =>
    let e : DupEntry := { src := f.src, srcPan := f.srcPan, seq := q, length := len, fcs := fcs, expiry := endNs + s.dupHoldMs * 1000000 }
    let same := fun (d : DupEntry) => d.src == e.src && d.srcPan == e.srcPan && d.seq == e.seq && d.length == len && d.fcs == e.fcs
    let rest := s.mac.dups.filter fun d => s.dupLives d && !same d
    match rest with
    | o :: t =>
      if rest.length ≥ 8192 then
        { s with mac := { s.mac with dups := t ++ [e] } }.countWorldAndDevice .dupCacheEvict (s.worldOfAddr o.src)
      else { s with mac := { s.mac with dups := rest ++ [e] } }
    | [] => { s with mac := { s.mac with dups := [e] } }

/-! ## Neighbours (R169, R170, R317) -/

/-- NEIGHBOUR_LAPSED and NEIGHBOUR_HEARD. -/
def State.nbrEvent (s : State) (code : Nat) (n : Nbr) : State :=
  let s := s.raise code none (toBe 2 n.routerId ++ toBe 1 n.fe ++ toBe 1 n.channel)
  { s with canopy := { s.canopy with owed := if s.canopy.owed.contains 2 then s.canopy.owed else s.canopy.owed ++ [2] } }

/-- The entry a new neighbour takes among 32: a free one, the lapsed one heard longest ago, the one of lowest level. -/
def nbrVictim (l : List Nbr) : Option Nbr :=
  let lapsed := l.filter fun n => n.lapsed
  let oldest := lapsed.foldl (fun (a : Option Nbr) n => match a with
    | some b => if n.sfdNs < b.sfdNs then some n else some b
    | none => some n) none
  match oldest with
  | some n => some n
  | none => l.foldl (fun (a : Option Nbr) n => match a with
    | some b => if n.level.toNat < b.level.toNat then some n else some b
    | none => some n) none

/-- A neighbour's beacon (R169). -/
def State.neighbour (s : State) (r : RxEnd) (src : BitVec 64) (e : BeaconElem) : State :=
  let n : Nbr := { routerId := e.routerId, eui := src, fe := feCode r.fe, channel := r.channel, hz := s.freqOf r.fe r.channel, level := r.info.level, sfdNs := r.info.cmpNs
                   interval := e.interval, expected := if e.interval = 0 then none else some (r.info.cmpNs + e.interval * phaseNs)
                   misses := 0, lapsed := false, elem := e }
  match s.mac.nbrs.find? fun m => m.routerId == e.routerId with
  | some m =>
    let tol := s.nbrTolMs * 1000000
    let inWindow := match m.expected with
      | some x => decide (x ≤ r.info.cmpNs + tol) && decide (r.info.cmpNs ≤ x + tol)
      | none => false
    let keep : Nbr := if m.lapsed then n else { n with misses := if inWindow then 0 else m.misses }
    let s := { s with mac := { s.mac with nbrs := s.mac.nbrs.map fun (x : Nbr) => if x.routerId = e.routerId then keep else x } }
    if m.lapsed then s.nbrEvent 0x0602 keep else s
  | none =>
    let put := fun (s : State) (l : List Nbr) =>
      { s with
        mac := { s.mac with nbrs := l ++ [n] }
        canopy := { s.canopy with owed := if s.canopy.owed.contains 2 then s.canopy.owed else s.canopy.owed ++ [2] } }
    if s.mac.nbrs.length < 32 then put s s.mac.nbrs
    else match nbrVictim s.mac.nbrs with
      | some v => (put s (s.mac.nbrs.erase v)).count .nbrTableFull .device
      | none => s

/-- An enhanced beacon is a neighbour's under the part's own ie_oui and with a router_id that is not its own. -/
def State.isNeighbour (s : State) (e : BeaconElem) : Bool :=
  e.format == 1 && (feAll.any fun f => s.hasBeacon f && s.beaconOui f == e.oui.toNat) && s.routerId != some e.routerId

def State.beaconHeard (s : State) (r : RxEnd) (f : AirFrame) : State :=
  match f.payload, f.src with
  | .routerBeacon e, .ext src => if s.isNeighbour e then s.neighbour r src e else s.count .rxBeaconOther (.pipe (feCode r.fe))
  | _, _ => s.count .rxBeaconOther (.pipe (feCode r.fe))

/-! ## The node's ACK (R159, R160) -/

/-- The Enh-Ack a front end awaits, met by the frame just ended, or missed by it: an ACK in the mode of R105 whose sequence number is the one sent,
whose destination is the source address sent and whose source, where it has one, is the node. -/
def State.awaited (s : State) (r : RxEnd) (f : AirFrame) (good : Bool) : State :=
  match (s.feSt r.fe).ackWait with
  | none => s
  | some w =>
    if w.channel ≠ r.channel ∨ w.deadline < r.info.cmpNs ∨ w.laneMoved ∨ w.lane ≠ some r.lane then s
    else
      let seqOk := match w.retry.frame.seq with
        | some q => f.seq == some q
        | none => true
      let dstOk := f.dst == s.srcAddr && (match f.dstPan with
        | some p => p.toNat == s.panId
        | none => true)
      let srcOk := match f.src, w.retry.frame.dst with
        | .none, _ => true
        | .ext e, .node _ d => e == d
        | _, _ => false
      let addrOk := dstOk && srcOk && r.hdr.mode == w.mode && (w.mode < 4 || r.hdr.rate == w.rate)
      if good && f.ftype == 2 && seqOk && addrOk then s.ackCame r.fe w r.hdr.endNs else s.ackMissing r.fe w

/-! ## The table at acceptance (R262 to R274, R382) -/

/-- The hearing a frame gives a link table. -/
def RxEnd.hearing (r : RxEnd) (node : Nat) (direct : Bool) : Hearing :=
  { node := node, sfdNs := r.info.cmpNs, lane := r.lane, channel := r.channel, aerial := r.info.port, level := r.info.level
    snr := BitVec.ofNat 8 r.info.snr, freqOffset := r.info.offset8, mode := r.hdr.mode, direct := direct }

/-- Learns a hearing of a node in the table (R271). -/
def State.learnFrame (s : State) (r : RxEnd) (src : Addr) (direct : Bool) : State :=
  if r.info.tracked then s
  else match src with
    | .ext e => match s.upLookup e r.info.cmpNs with
      | .node i => s.learn r.fe (r.hearing i direct)
      | _ => s
    | _ => s

/-- u takes one refreshing frame at least 1 s after the last (Table 11.2): ppm of time on air with 16 fractional bits; not through a forwarding pause
(Table 1.5). -/
def State.measureU (s : State) (i : Nat) (r : RxEnd) : State :=
  let m := s.measOf i
  if s.inPause then s
  else match m.uRef with
  | none => s.setMeas i { m with uRef := some r.info.cmpNs }
  | some t =>
    if r.info.cmpNs < t + 1000000000 then s
    else
      let air := airTime { mode := r.hdr.mode, rate := r.hdr.rate, cwlen := r.hdr.cwlen, pilots := r.hdr.pilots
                           preamble := s.preambleOctets r.fe, hsUnits := s.hsUnits r.fe, onH := r.fe = .h } r.hdr.length
      let x := air * 1000 * 1000000 * 65536 / (r.info.cmpNs - t)
      s.setMeas i { m with uRef := some r.info.cmpNs, u := if m.uHeld then (7 * m.u + x) / 8 else x, uHeld := true }

/-- The group that holds a channel of a front end. -/
def State.groupOf (s : State) (f : Fe) (k : Nat) : Option Nat :=
  (s.canopy.groups.find? fun p => p.2.fe == feCode f && p.2.freqs.contains (s.freqOf f k)).map Prod.fst

/-- A re-home or a revert that the refreshing frame calls for (R308, R309). -/
def State.noteChannel (s : State) (i : Nat) (r : RxEnd) : State :=
  match s.node i with
  | none => s
  | some n =>
    let hz := s.freqOf r.fe r.channel
    let has := fun (g : Nat) => match s.canopy.groups.get g with
      | some x => x.fe == feCode r.fe && x.freqs.contains hz
      | none => false
    let taken := s.canopy.taken.map fun (t : Taken) =>
      if t.node = i ∧ t.effNs ≤ r.info.cmpNs then { t with revert := has t.group && !has n.group } else t
    let taken := taken.filter fun t => t.node != i || t.revert || decide (r.info.cmpNs < t.effNs)
    let s := { s with canopy := { s.canopy with taken := taken } }
    match feOf n.fe, s.groupOf r.fe r.channel with
    | some f, some g =>
      if s.feMode f == .off ∧ bitOf (s.worldFes n.world) (feCode r.fe) then
        { s with canopy := { s.canopy with rehome := s.canopy.rehome.set i g } }
      else s
    | _, _ => s

/-- The lookup of an accepted frame, with what it writes: refresh, insertion (R263, R266, R268, R274, R382). -/
def State.acceptSource (s : State) (r : RxEnd) (f : AirFrame) : RxFound × State :=
  match f.src with
  | .ext e => match s.upLookup e r.info.cmpNs with
    | .node i =>
      let s := if r.info.tracked then s else s.learn r.fe (r.hearing i true)
      (.known i, ((s.refresh i r.fe (r.hearing i true) r.hdr.rate r.info.tracked).measureU i r).noteChannel i r)
    | .joining i => (.known i, s)
    | .retiring _ => (.late, s.count .rxNodeRetiring (.pipe (feCode r.fe)))
    | .absent =>
      let stands := s.findEui e
      let joining := (s.table.nodes.filter fun p => p.2.state == .joining).length
      if stands.isSome then (.absent, s)
      else if joining ≥ s.joiningMax then (.absent, s.count .joinTableBusy .device)
      else
        let g := s.groupOf r.fe r.channel
        let t := s.insertNode { eui := e, state := .joining, lastHeard := BitVec.ofNat 32 (r.info.cmpNs / 1000000000), fe := feCode r.fe
                                group := g.getD 0, listen := true, created := s.clk }
        match t.1 with
        | some i => (.known i, t.2)
        | none => (.noRecord, t.2)
  | _ => (.unresolved, s)

/-! ## The frame's end -/

/-- The receive descriptor (Table 5.4). -/
def RxEnd.word (r : RxEnd) : Word :=
  let h := r.hdr
  let i := r.info
  let helec := decide (4 ≤ h.mode)
  let f := fun (n lo : Nat) => n * 2 ^ lo
  BitVec.ofNat 128 (f (i.sfdNs % 1000000000) 0 + f (i.sfdNs / 1000000000 % 2 ^ 20) 30 + f r.lane 50 + f (feCode r.fe) 56 + f i.port 58 +
    f (if i.tracked then 1 else 0) 59 + f r.channel 60 + f h.mode 67 + f (if helec then h.rate else 0) 70 +
    f (if helec && h.cwlen then 1 else 0) 72 + f (if helec && h.pilots then 1 else 0) 73 + f (if h.fcs2 then 1 else 0) 74 + f h.length 75 +
    f i.level.toNat 87 + f (unsigned 16 i.offset8) 96 + f (i.snr % 256) 112 + f (if helec then h.iterations else 0) 120)

def RxEnd.desc (r : RxEnd) : RxDesc :=
  { fe := r.fe, lane := r.lane, channel := r.channel, port := r.info.port, mode := r.hdr.mode, rate := r.hdr.rate, level := r.info.level
    snr := BitVec.ofNat 8 r.info.snr, freqOffset := r.info.offset8, sfdNs := r.info.sfdNs, endNs := r.hdr.endNs, length := r.hdr.length
    fcsOk := true, capture := false, corrected := 0, word := r.word, found := .unresolved }

/-- The oldest complete frame of a lane leaves it, and with it the lane's tag (R131); its cells stay charged. -/
def State.freeLane (s : State) (l : Nat) : State :=
  let x := s.laneNow l
  s.setLane l { x with done := x.done.drop 1, ackOwed := false, tagClk := if x.frames.length ≤ 1 then none else x.tagClk }

/-- That frame is discarded, and its cells are released. -/
def State.closeFrame (s : State) (r : RxEnd) : State := 
  ((s.freeLane r.lane).releaseChain (rxAcct (feCode r.fe)) r.hdr.cells r.hdr.chain).leaveStaging (.lane r.lane) r.hdr.cells

/-- A frame counted by an RF test (R443): nothing of it is kept. -/
def State.testFrame (s : State) (fe : Fe) (level : Nat) : State :=
  let x := s.feSt fe
  s.setFe fe { x with rfTest := x.rfTest.map fun (t : RfTest) =>
    if t.mode = 2 then { t with framesOk := t.framesOk + 1, levelSum := t.levelSum + level } else t }

/-- An accepted frame: duplicate, or looked up and committed to its pending-security queue (R13, R14, R154). -/
def State.acceptFrame (s : State) (r : RxEnd) (f : AirFrame) : State :=
  let asks := f.ar && (f.ftype == 1 || f.ftype == 3) && s.ownDest f.dstPan f.dst
  let answer := fun (s : State) => if asks then s.postAck r f else s.ackOver r.lane
  let s := s.freeLane r.lane
  let fcs := fcsValue r.hdr.fcs2 f.psdu
  if s.dupFind f fcs r.hdr.length r.info.cmpNs then
    answer (((s.releaseChain (rxAcct (feCode r.fe)) r.hdr.cells r.hdr.chain).leaveStaging (.lane r.lane) r.hdr.cells).countWorldAndDevice .rxDupDiscard (s.worldOfAddr f.src))
  else
    let a := s.acceptSource r f
    let q := 384 + feCode r.fe
    let held : Option Node := match a.1 with
      | .known i => (a.2.node i).filter fun n => n.state != .joining
      | _ => none
    let d := { r.desc with found := a.1, world := held.map fun n => n.world, keyGen := held.map fun n => n.keyGen, clk := s.clk }
    ((answer a.2).dupEnter f fcs r.hdr.length r.hdr.endNs).commitTo (orderKey q 0) (accountOf q 0) r.hdr.cells (.rx d f) r.hdr.chain

/-- Addressed to the part: its own addresses or the broadcast (R149). -/
def State.forUs (s : State) (f : AirFrame) : Bool :=
  s.ownDest f.dstPan f.dst || ((match f.dstPan with
    | some p => p.toNat == s.panId
    | none => true) && f.dst == .short 0xFFFF)

/-- The PSDU received: from the codewords of a Helec frame, else as it came off the air, without its whitening (R87, R88, R95). -/
def rxPsdu (h : RxHdr) (f : AirFrame) : Octets :=
  if 4 ≤ h.mode then
    helecPsdu h.length ((List.range h.codewords).map fun c => bitsLsb (helecK h.rate h.cwlen) (((h.info.find? fun p => p.1 == c).map Prod.snd).getD 0))
  else
    let o := f.psdu.take h.length
    if h.whitening then bitOctets (whiten (octetBits o)) else o

/-- The last PSDU bit or codeword has been received (R13, R104, R149). -/
def State.frameEnd (s : State) (l : Nat) (f : AirFrame) : State :=
  match (s.laneNow l).frames.head? |>.bind fun p => (feOf p.1.fe).map fun f => (f, p.1, p.2) with
  | some (fe, i, h) =>
    if s.netNs < h.endNs ∨ h.decoded < h.codewords then s
    else
      let f := { f with psdu := rxPsdu h f }
      let r : RxEnd := { fe := fe, channel := i.channel, lane := l, info := i, hdr := h }
      let pipe : Scope := .pipe (feCode fe)
      if h.ldpcBad then (((s.closeFrame r).count .rxLdpcFail pipe).count .rxFcsBad pipe).awaited r f false
      else if f.psdu.length ≠ h.length ∨ !fcsGood h.fcs2 f.psdu then ((s.closeFrame r).count .rxFcsBad pipe).awaited r f false
      else if (s.feSt fe).rfTest.isSome then (s.closeFrame r).testFrame fe i.level.toNat
      else if f.version ≠ 2 then ((s.closeFrame r).count .rxFrameVersion pipe).awaited r f false
      else if f.ftype = 2 then
        let s := (s.closeFrame r).awaited r f true
        if s.forUs f || f.dst == .none then s else s.count .rxNotForUs pipe
      else if f.ftype = 0 then ((s.closeFrame r).awaited r f false).beaconHeard r f
      else
        let s := s.awaited r f false
        if s.forUs f then s.acceptFrame r f
        else
          let s := (s.closeFrame r).count .rxNotForUs pipe
          if s.learnAll then s.learnFrame r f.src false else s
  | none => s

/-- FRAME_END (R13, R104, R128, R149 to R155, R159, R169, R262 to R274). -/
def execFrameEnd (dt : Nat) (l : Lane) (f : AirFrame) (s : State) : Host.Outcome State Fault Refusal := .next ((s.tick dt).frameEnd l.val f)

/-! ## Neighbour windows (R170) -/

/-- An entry's expected window is judged: a beacon heard in it moved the entry on already. -/
def State.nbrWindow (s : State) (router : Nat) : State :=
  match s.mac.nbrs.find? fun n => n.routerId == router with
  | none => s
  | some n => match n.expected with
    | none => s
    | some x =>
      let tol := s.nbrTolMs * 1000000
      if s.netNs < x + tol then s
      else
        let heard := decide (x ≤ n.sfdNs + tol) && decide (n.sfdNs ≤ x + tol)
        let a := s.clk - (s.netNs - (x - tol)) / 4
        let b := s.clk - (s.netNs - (x + tol)) / 4
        let watched := s.lanes.any fun p => p.2.watched (n.fe, n.channel) a b
        let next := some (x + n.interval * phaseNs)
        let set := fun (s : State) (m : Nbr) =>
          { s with mac := { s.mac with nbrs := s.mac.nbrs.map fun (y : Nbr) => if y.routerId = router then m else y } }
        if heard then set s { n with misses := 0, expected := next }
        else if !watched then set s { n with expected := next }
        else if n.misses + 1 ≥ 3 ∧ !n.lapsed then
          let m : Nbr := { n with misses := n.misses + 1, expected := next, lapsed := true }
          ((set s m).count .nbrLapsed .device).nbrEvent 0x0601 m
        else set s { n with misses := n.misses + 1, expected := next }

/-- NEIGHBOUR_WINDOW (R170). -/
def execNeighbourWindow (dt : Nat) (routerId : Nat) (s : State) : Host.Outcome State Fault Refusal := .next ((s.tick dt).nbrWindow routerId)

end Sys2Proof.Machine
end

