-- ==== Sys2Proof/Machine/Rpl.lean ====
section
/-! DEFINITION. The RPL root of each world (R281 to R284): the trickle timer, DIS and DAO. -/

namespace Sys2Proof.Machine

def State.dodag (s : State) (w : Nat) : Dodag := s.table.dodags.getD w {}

def State.setDodag (s : State) (w : Nat) (d : Dodag) : State := { s with table := { s.table with dodags := s.table.dodags.set w d } }

/-! ## The trickle timer (RFC 6206) -/

/-- Imin and the greatest interval, in ns. -/
def State.trickleMin (s : State) (w : Nat) : Nat := 2 ^ s.rplImin w * 1000000
def State.trickleMax (s : State) (w : Nat) : Nat := s.trickleMin w * 2 ^ s.rplDoublings w

/-- Begins an interval of the least length now. -/
def State.resetTrickle (s : State) (w : Nat) : State :=
  s.setDodag w { s.dodag w with interval := s.rplImin w, startNs := s.netNs, sent := false }

/-- Intervals that have passed by `now`: the next begins where the last ended, of double length up to the greatest. -/
def Dodag.pass (top now : Nat) : Nat → Dodag → Dodag
  | 0, d => d
  | n + 1, d =>
    let len := 2 ^ d.interval * 1000000
    if now < d.startNs + len then d
    else if d.interval < top then Dodag.pass top now n { d with interval := d.interval + 1, startNs := d.startNs + len, sent := false }
    else { d with startNs := now - (now - d.startNs) % len, sent := false }

/-- The timer as it stands now. -/
def State.trickle (s : State) (w : Nat) : Dodag := (s.dodag w).pass (s.rplImin w + s.rplDoublings w) s.netNs 32

/-- Octets of a DIO or DAO-ACK above the MAC: the manual states no size (log entry 6). -/
def State.rplOctets (s : State) (room : Nat) : Nat := min room ((Config.unstated s.rnd).toNat % 2048)

/-- The octets of the n-th such message: RFC 6550's, which the manual does not give (log entry 6). -/
def freeOctets (n len : Nat) : Octets := (List.range len).map (Config.freeOctet n)

/-- A unicast DIO or DAO-ACK, queued by the node's schedule. -/
def State.rplReply (s : State) (i : Nat) (kind : DownKind) : Prot :=
  match s.node i with
  | none => .done s
  | some n =>
    let o := s.rplOctets (s.room (nodeFe n) n)
    { s with rnd := s.rnd + 1 }.sendUnicast i n [{ body := freeOctets s.rnd o, kind := kind }] [(i, n.eui)]

/-- The instant of world w's timer has come: once in each interval, in its second half (R281). -/
def State.dioTrickle (s : State) (w : Nat) : State :=
  if !s.firmware || !s.life.radioOn || !s.rplEnabled w then s
  else
    let d := s.trickle w
    let s := s.setDodag w d
    if d.sent || decide (s.netNs < d.startNs + 2 ^ d.interval * 500000) then s
    else
      let o := s.rplOctets (s.castRoom w)
      let t := { s with rnd := s.rnd + 1 }.setDodag w { d with sent := true }
      match t.sendCast w (448 + 8 * w) [{ body := freeOctets s.rnd o, kind := .dio d.version.toNat }] with
      | .done u => u
      | .wait => s.count .fcReserveWait .device

/-- DIO_TRICKLE (R281). -/
def execDioTrickle (dt : Nat) (w : World) (s : State) : Host.Outcome State Fault Refusal := .next ((s.tick dt).dioTrickle w.val)

/-! ## Sequence counters (RFC 6550, section 7.2) -/

/-- Orders of two sequence values. -/
inductive SeqOrder where
  | newer | equal | older | unordered
  deriving DecidableEq, Repr

/-- How `b` stands to `a`, with SEQUENCE_WINDOW 16. -/
def seqOrder (a b : Nat) : SeqOrder :=
  if a = b then .equal
  else if 128 ≤ a ∧ b < 128 then (if 256 + b - a ≤ 16 then .newer else .older)
  else if a < 128 ∧ 128 ≤ b then (if 256 + a - b ≤ 16 then .older else .newer)
  else if b > a then (if b - a ≤ 16 then .newer else .unordered)
  else if a - b ≤ 16 then .older else .unordered

/-! ## DAO (R282, R283) -/

/-- Rank of a Path Control field: its highest subfield in use. -/
def pathRank (pc : Nat) : Nat := if pc ≥ 64 then 0 else if pc ≥ 16 then 1 else if pc ≥ 4 then 2 else if pc ≥ 1 then 3 else 4

/-- A transit whose parent may stand: its slot, its lifetime, its rank. -/
structure Usable where
  slot : ParentSlot
  lifetime : Nat
  rank : Nat
  deriving DecidableEq, Repr

/-- The parent a transit names, for node i of world w. -/
def State.transitParent (s : State) (i w : Nat) (t : Transit) : Option ParentSlot :=
  match t.parent with
  | none => some { root := true, valid := true }
  | some e =>
    if e = s.id.eui64 then some { root := true, valid := true }
    else match s.findEui e with
      | some j => match s.node j with
        | some q => if s.inTable q && q.world == w && j != i then some { index := j, valid := true } else none
        | none => none
      | none => none

/-- Inserts after every transit of the same or a higher rank. -/
def rankInsert (u : Usable) : List Usable → List Usable
  | [] => [u]
  | x :: t => if x.rank ≤ u.rank then x :: rankInsert u t else u :: x :: t

/-- Replaces the parent set of node i. -/
def State.applyDao (s : State) (i : Nat) (n : Node) (seq : BitVec 8) (l : List Transit) : State :=
  let named := l.map fun t => (t, s.transitParent i n.world t)
  let refused := (named.filter fun p => p.2.isNone).length
  let used := named.filterMap fun p => match p.2 with
    | some q => if p.1.lifetime = 0 then none else some ({ slot := q, lifetime := p.1.lifetime, rank := pathRank p.1.pathControl } : Usable)
    | none => none
  let order := used.foldl (fun l u => rankInsert u l) []
  let kept := order.take 3
  let slots := ((List.range 3).zip kept).map fun p => { p.2.slot with pref := p.1 }
  let least := kept.foldl (fun m u => min m u.lifetime) 255
  let reg : BitVec 24 :=
    if kept.isEmpty then n.regExpiry
    else if least = 255 then BitVec.ofNat 24 (2 ^ 24 - 1) else BitVec.ofNat 24 (s.time.sec.toNat + least * s.lifetimeUnit)
  let m := { n with parents := slots ++ List.replicate (3 - slots.length) {}, pathSeq := seq, regExpiry := reg, daoSeen := true }
  let s := (s.setNode i m).touch (.parents i)
  let s := if refused = 0 then s else s.countN .daoParentRefused (.world n.world) refused
  if order.length ≤ 3 then s else s.countN .daoParentsTruncated (.world n.world) (order.length - 3)

/-- A DAO from node i. -/
def State.dao (s : State) (i : Nat) (n : Node) (inst : Nat) (targets : List (BitVec 64)) (seq : BitVec 8) (l : List Transit) (k : Bool) : Prot :=
  let w : Scope := .world n.world
  if !s.rplEnabled n.world || inst != s.rplInst n.world then .done (s.count .daoRefused w)
  else if targets ≠ [n.eui] then .done (s.count .daoTargetRefused w)
  else if n.daoSeen && seqOrder n.pathSeq.toNat seq.toNat == .older then .done (s.count .daoStale w)
  else
    let t := s.applyDao i n seq l
    if k && s.daoAck then t.rplReply i (.daoAck seq) else .done t

/-- A DIS from node i (R281). -/
def State.dis (s : State) (i : Nat) (n : Node) (multicast : Bool) : Prot :=
  if !s.rplEnabled n.world then .done s
  else if multicast then .done (s.resetTrickle n.world)
  else s.rplReply i (.dio (s.dodag n.world).version.toNat)

end Sys2Proof.Machine
end

