-- ==== Sys2Proof/Machine/Link.lean ====
section
/-! DEFINITION. What an M-core does with a frame of a pending-security queue: verification, joins, notices, the rebuilt packet (R14, R15,
R370, R372, R379 to R386, R536). -/

namespace Sys2Proof.Machine

/-- Classes of key index (Table 13.7). -/
inductive KeyClass where
  | group (i : Nat)
  | node (w : Nat)
  | link (w g : Nat)
  | none
  deriving DecidableEq, Repr

def keyClass (k : BitVec 8) : KeyClass :=
  let v := k.toNat
  if 0x20 ≤ v ∧ v < 0x30 then .group (v - 0x20)
  else if 0x40 ≤ v ∧ v < 0x48 then .node (v - 0x40)
  else if 0x80 ≤ v then .link ((v - 0x80) / 16) (v % 16)
  else .none

/-- A frame taken from a pending-security queue. -/
structure Rx where
  pipe : Nat
  pkt : Packet
  d : RxDesc
  f : AirFrame
  deriving DecidableEq, Repr

/-- Counts per pipeline, and per world where one is known. -/
def State.countRx (s : State) (r : Rx) (c : Ctr) (w : Option Nat) : State :=
  let s := s.count c (.pipe r.pipe)
  match w with
  | some w => s.count c (.world w)
  | none => s

/-- The frame's cells are released. -/
def State.dropRx (s : State) (r : Rx) : State := s.releaseChain r.pkt.acct r.pkt.cells r.pkt.chain

/-- CCM* verification of the frame under a key succeeds (R371). -/
def Rx.opens (r : Rx) (sec : AirSec) (k : Key) : Bool :=
  match r.f.src with
  | .ext e => ccmOpens (beOfNat 16 k.toNat) (ccmNonce e sec.fc.toNat sec.level) sec.level sec.hdr (mpduOf (bitOf r.d.word.toNat 74) r.f.psdu)
  | _ => false

/-! ## Continuations (R381) -/

/-- End of the ACK to the frame, where it asked for one. -/
def State.ackEnd (s : State) (r : Rx) : Nat :=
  if r.f.ar then r.d.endNs + 1000000 + s.txAir r.d.fe r.d.mode r.d.rate (ackPsdu r.f (bitOf r.d.word.toNat 74)) * 1000 else r.d.endNs

/-- The continuation of a handshake or of a notice. -/
def State.holdOpen (s : State) (r : Rx) : State :=
  match r.f.src with
  | .ext e => s.openCont { eui := e, fe := feCode r.d.fe, channel := r.d.channel, endNs := max s.netNs (s.ackEnd r) + s.joinHoldMs * 1000000 }
  | _ => s

/-! ## Notices (R385, R386) -/

/-- A notice to node i, under its link key or under K_node of world w. -/
def State.notice (s : State) (r : Rx) (i : Nat) (n : Node) (w reason : Nat) (byLink : Bool) : Prot :=
  let held := s.table.notices.any fun x => x.eui == n.eui && decide (s.clk < x.clk + secTicks s.noticeHoldS)
  if held then .done (s.count .rejoinNoticeHeld (.world w))
  else
    let l := s.table.notices.filter (fun x => x.eui != n.eui) ++ [{ eui := n.eui, clk := s.clk }]
    let s := { s with table := { s.table with notices := l.drop (l.length - 1024) } }.holdOpen r
    let elem := rejoinElem (s.beaconOui (nodeFe n)) reason
    let sent := if byLink && (s.linkKey i n).isSome then s.sendUnicast i n [{ ies := [elem], kind := .rejoin reason }] [(i, n.eui)]
      else match s.nodeKey w n.eui with
        | some k => s.sendJoinKey i n w k elem (.rejoin reason)
        | none => .done (s.count .txKeyAbsent (.world w))
    match sent with
    | .done t => .done (t.count .rejoinNotice (.world w))
    | .wait => .wait

/-! ## Joins (R379 to R383) -/

/-- Tokens, in thousandths, at the present tick (R386). -/
def State.tokensNow (s : State) : Nat :=
  min (s.joinBurst * 1000) (s.table.tokens + (s.clk - s.table.tokenClk) * s.joinRate / 250000)

def State.joinOf (s : State) (i : Nat) : Option Join := s.table.joins.find? fun j => j.node == i

def State.dropJoin (s : State) (i : Nat) : State := { s with table := { s.table with joins := s.table.joins.filter fun j => j.node != i } }

/-- A join fails (R383): a new one's record becomes CLEARING. -/
def State.joinFails (s : State) (i : Nat) (n : Node) (w : Nat) (c : Ctr) : State :=
  let s := (s.dropJoin i).count c (.world w)
  if n.state = .joining then s.clearNode i else s

/-- The record of a JOINING node takes the frame's place (R382). -/
def State.joinHeard (s : State) (r : Rx) (i : Nat) (n : Node) (g : Nat) : Node × State :=
  if n.state = .joining then
    let m := { n with fe := feCode r.d.fe, group := g, listen := true }
    (m, s.setNode i m)
  else (n, s)

/-- K_link (Table 12.2). -/
def linkKeyOf (kNode : Key) (gen : Nat) (nodeNonce partNonce : BitVec 64) : Key :=
  derive (beOfNat 16 kNode.toNat) "EPNOR-LINK" ([gen] ++ octNats (toLe 8 nodeNonce.toNat) ++ octNats (toLe 8 partNonce.toNat)) 128

/-- A frame under K_node of world w (R380, step 1). -/
def State.joinReq (s : State) (r : Rx) (sec : AirSec) (i : Nat) (n : Node) (w : Nat) : Prot :=
  match r.f.payload with
  | .joinReq wake listen nodeNonce =>
    if sec.level ≠ 2 then .done (s.joinFails i n w .joinMicFail)
    else match s.groupOf r.d.fe r.d.channel with
      | none => .done (s.count .joinNoGroup .device)
      | some g =>
        let s := s.holdOpen r
        match (if s.joinsPermitted w then s.nodeKey w n.eui else none) with
        | none => .done (s.joinFails i n w .joinNoKey)
        | some k =>
          if !r.opens sec k then .done (s.joinFails i n w .joinMicFail)
          else
            let tokens := s.tokensNow
            if tokens < 1000 then .done (s.count .joinRateLimited .device)
            else
              let s := { s with table := { s.table with tokens := tokens - 1000, tokenClk := s.clk } }
              if n.state ≠ .joining ∧ n.world ≠ w then .done (s.joinFails i n w .joinWorldMismatch)
              else
                let h := s.joinHeard r i n g
                let rejoin := n.state != .joining
                let gen := if rejoin then (n.keyGen + 1) % 16 else 0
                let q := h.2.draw
                let partNonce := q.1.truncate 64
                let j : Join := { node := i, world := w, rejoin := rejoin, nodeNonce := nodeNonce, partNonce := partNonce, keyGen := gen
                                  level := s.worldLevel w, listen := listen, wakeExp := wake.val, linkKey := linkKeyOf k gen nodeNonce partNonce
                                  startClk := s.clk }
                let t := q.2.dropJoin i
                let t := { t with table := { t.table with joins := t.table.joins ++ [j] } }
                t.sendJoinKey i h.1 w k (joinRespElem (s.beaconOui (nodeFe h.1)) nodeNonce partNonce gen j.level)
                  (.joinResp nodeNonce partNonce gen j.level)
  | _ => .done (s.joinFails i n w .joinMicFail)

/-- JOIN-DONE with the placement in force. -/
def State.joinDone (s : State) (i : Nat) : Prot :=
  match s.node i with
  | some n => s.sendUnicast i n [{
      ies := [joinDoneElem (s.beaconOui (nodeFe n)) n.group n.phase n.fe n.listen], kind := .joinDone n.group n.phase n.fe n.listen }] [(i, n.eui)]
  | none => .done s

/-- A join is completed (R303, R380 step 3). -/
def State.joinComplete (s : State) (r : Rx) (sec : AirSec) (i : Nat) (n : Node) (j : Join) (g p : Nat) : Prot :=
  let c := feCode r.d.fe
  let m := { n with
    state := .live, world := j.world, epoch := s.epochOf j.world, keyGen := j.keyGen, secLevel := j.level, wakeExp := j.wakeExp, listen := j.listen
    group := g, phase := p, fe := c, pending := false, fcIn := sec.fc + 1, fcOut := 0, stale := 0, worn := decide (sec.fc.toNat + 1 = wornCounter)
    partNonce := some j.partNonce, daoSeen := false }
  let s := ((s.dropJoin i).dropCached i).setNode i m
  let s := { s with hw := { s.hw with fc := s.hw.fc.set i { fcIn := sec.fc + 1, ceiling := 4096 } } }
  let s := (s.writeJoin i j.linkKey).cacheKey i j.world j.linkKey
  let s := if n.pending then (s.writePending i).setCourse i none else s
  let e := s.measOf i
  let s := s.setMeas i { e with
    est := e.est.set r.d.fe { level := 2 * r.d.level.toNat, hearings := 1, usedNs := r.d.sfdNs }, coolPlace := some s.clk }
  let s := s.canLog 0x05 5 j.world 0 i n.placeWord m.placeWord 0
  let s := s.count .joinDone (.world j.world)
  (if j.rejoin then s.count .rejoinDone (.world j.world) else s).joinDone i

/-- A frame under the link key of a join in progress that is a JOIN-CONFIRM or fails as one; `none`: neither. -/
def State.joinConfirm (s : State) (r : Rx) (sec : AirSec) (i : Nat) (n : Node) (j : Join) : Option Prot :=
  if !r.opens sec j.linkKey ∨ sec.level ≠ j.level ∨ sec.fc.toNat = lastCounter then some (.done (s.joinFails i n j.world .joinConfirmFail))
  else match r.f.payload with
    | .joinConfirm nonce =>
      some (match s.groupOf r.d.fe r.d.channel with
        | none => .done (s.count .joinNoGroup .device)
        | some g =>
          let s := s.holdOpen r
          if nonce ≠ j.partNonce then .done (s.joinFails i n j.world .joinConfirmFail)
          else
            let h := s.joinHeard r i n g
            let want := { h.1 with world := j.world, listen := j.listen, wakeExp := j.wakeExp }
            match h.2.joinPlace i want r.d.fe r.d.level.toNat with
            | none => .done (h.2.joinFails i n j.world .joinNoPlace)
            | some (g, p) => h.2.joinComplete r sec i n j g p)
    | _ => none

/-! ## Upstream packets (R536, R245) -/

/-- A packet enters the upstream queue of its world in exchange for the cells given up; moved without copying, it keeps the cells of `keep`. -/
def State.upstream (s : State) (w : Nat) (src : BitVec 64) (ip : Octets) (tc : BitVec 8) (keep : List Nat := []) : State :=
  if ip.length > s.mtu then s.count .usTooBig (.world w)
  else match s.post (320 + 8 * w + tc.toNat / 32) 0 w (14 + (if s.tagged w then 4 else 0) + ip.length) (.up w src ip tc) keep with
    | some t => t
    | none => s.count .usQueueFull (.world w)

/-- Fragments held for a datagram are released, and the datagram counted (R536). -/
def State.dropReasm (s : State) (x : Reasm) : State :=
  let s := x.frags.foldl (fun s p => s.releaseChain p.2.2.acct p.2.2.cells p.2.2.chain) s
  let s := { s with queues := { s.queues with reasm := s.queues.reasm.filter fun y => y != x } }
  s.count .usReasmFail (.world x.world)

/-- The working queue in which fragments are held. -/
def fragAcct : Nat := accountOf 405 0

/-- Traffic Class of a datagram: that of its first fragment. -/
def reasmClass (l : List (Nat × Octets × Packet)) : BitVec 8 :=
  match l.find? fun p => p.1 == 0 with
  | some p => match p.2.2.content with
    | .rx _ f => match f.payload with
      | .data _ _ tc _ => tc
      | _ => 0
    | _ => 0
  | none => 0

/-- The octets at `off` and those at `off2` overlap and differ there. -/
def overlapDiffers (off : Nat) (o : Octets) (off2 : Nat) (o2 : Octets) : Bool :=
  let lo := max off off2
  let n := min (off + o.length) (off2 + o2.length) - lo
  sliceOct o (lo - off) n != sliceOct o2 (lo - off2) n

/-- The octets of the fragments joined in offset order, as far as they reach without a gap; `n` bounds the fragments used. -/
def joinFrags (l : List (Nat × Octets × Packet)) : Nat → Nat → Octets
  | 0, _ => []
  | n + 1, pos => match l.find? fun p => decide (p.1 ≤ pos) && decide (pos < p.1 + p.2.1.length) with
    | some p => p.2.1.drop (pos - p.1) ++ joinFrags l n (p.1 + p.2.1.length)
    | none => []

/-- A fragment of uncompressed octets.  One whose cells the working queue refuses is discarded and counted in us_queue_full: the manual names no
counter (DESIGN CHOICE, log entry 76). -/
def State.fragment (s : State) (r : Rx) (w : Nat) (src : BitVec 64) (ip : Octets) (h : FragHdr) : State :=
  let old := s.queues.reasm.find? fun x => x.src == src && x.tag == h.tag && x.size == h.size
  let x : Reasm := old.getD { src := src, tag := h.tag, size := h.size, world := w, first := r.d.clk, frags := [] }
  let same := x.frags.any fun p => p.1 == h.offset && p.2.1 == ip
  let clash := x.frags.any fun p => overlapDiffers h.offset ip p.1 p.2.1
  if old.isNone ∧ s.queues.reasm.length ≥ 256 then (s.dropRx r).count .usReasmFail (.world w)
  else if h.size < h.offset + ip.length then (s.dropRx r).dropReasm x
  else if same then s.dropRx r
  else if clash then (s.dropRx r).dropReasm x
  else
    let frags := x.frags ++ [(h.offset, ip, { r.pkt with acct := fragAcct })]
    let rest := s.queues.reasm.filter fun y => y != x
    let whole := joinFrags frags frags.length 0
    if whole.length = h.size then
      let s := x.frags.foldl (fun s p => s.releaseChain p.2.2.acct p.2.2.cells p.2.2.chain) (s.dropRx r)
      { s with queues := { s.queues with reasm := rest } }.upstream w src whole (reasmClass frags)
    else match s.moveCharge r.pkt.acct r.pkt.cells fragAcct r.pkt.cells with
      | some t => { t with queues := { t.queues with reasm := rest ++ [{ x with frags := frags }] } }
      | none => (s.dropRx r).count .usQueueFull (.world w)

/-- The content of a frame that has passed R372. -/
def State.upContent (s : State) (r : Rx) (i : Nat) (n : Node) : Prot :=
  match r.f.payload with
  | .data ip ok tc frag =>
    if !ok then .done ((s.dropRx r).count .usDecompFail (.world n.world))
    else match frag with
      | none => .done ((s.dropRx r).upstream n.world n.eui ip tc r.pkt.chain)
      | some h => .done (s.fragment r n.world n.eui ip h)
  | .dao inst targets seq l k => (s.dropRx r).dao i n inst targets seq l k
  | .dis m => (s.dropRx r).dis i n m
  | .joinConfirm nonce =>
    if n.partNonce = some nonce then ((s.dropRx r).holdOpen r).joinDone i else .done (s.dropRx r)
  | _ => .done ((s.dropRx r).count .usDecompFail (.world n.world))

/-! ## Verification (R372) -/

/-- The key a frame verifies under is one of those its class names; `none`: a link key no longer held (R15). -/
def State.verify (s : State) (r : Rx) (sec : AirSec) (i : Nat) (n : Node) (c : KeyClass) : Option (Bool × State) :=
  match c with
  | .link _ _ => (s.linkKey i n).map fun k => (r.opens sec k.1, k.2)
  | .group g =>
    let k := s.slot (40 + 16 * n.world + g)
    let b := s.slot k.fallback.toNat
    some (k.state == .ready && (r.opens sec k.key || (k.fbValid && b.state == .ready && r.opens sec b.key)), s)
  | _ => some (false, s)

/-- A frame of a record that is not JOINING.  One accepted under the generation the record then held, which a rejoin has ended since, is counted in
rx_node_gone (R15); one that arrived later fails as stale (R384). -/
def State.verifyFrame (s : State) (r : Rx) (sec : AirSec) (i : Nat) (n : Node) (c : KeyClass) : Prot :=
  let w := some n.world
  let stale := match c with
    | .link lw g => lw != n.world || g != n.keyGen
    | _ => false
  let heldGen := match c with
    | .link lw g => r.d.world == some lw && r.d.keyGen == some g
    | _ => false
  let isLink := match c with
    | .link _ _ => true
    | _ => false
  let sameWorld := match c with
    | .link lw _ => lw == n.world
    | _ => false
  if sec.level ≠ n.secLevel then .done ((s.dropRx r).countRx r .rxSecLevel w)
  else if stale && heldGen then .done ((s.dropRx r).countRx r .rxNodeGone r.d.world)
  else if stale then
    let t := (s.dropRx r).countRx r .rxKeygenStale w
    if sameWorld then t.notice r i n n.world 1 false else .done t
  else if sec.fc.toNat < n.fcIn.toNat ∨ sec.fc.toNat = lastCounter then
    let t := (s.dropRx r).countRx r .rxFcStale w
    if isLink && decide (sec.fc.toNat < n.fcIn.toNat) then
      let m := { n with stale := n.stale + 1 }
      let t := t.setNode i m
      if m.stale ≥ s.staleCount then t.notice r i m n.world 0 true else .done t
    else .done t
  else match s.verify r sec i n c with
    | none => .done ((s.dropRx r).countRx r .rxNodeGone w)
    | some (false, t) => .done ((t.dropRx r).countRx r .rxMicFail w)
    | some (true, t) =>
      let fc := sec.fc + 1
      let m := { n with fcIn := fc, stale := 0, worn := n.worn || (decide (n.fcIn.toNat < wornCounter) && decide (wornCounter ≤ fc.toNat)) }
      ((t.setNode i m).writeFcIn i fc).upContent r i m

/-- A frame whose record stands. -/
def State.secure (s : State) (r : Rx) (i : Nat) (n : Node) : Prot :=
  match r.f.sec with
  | none => .done ((s.dropRx r).countRx r .rxSecLevel (if n.state = .joining then none else some n.world))
  | some sec =>
    let c := keyClass sec.keyIndex
    let usual := fun (_ : Unit) =>
      if n.state ≠ .joining then s.verifyFrame r sec i n c
      else match c with
        | .link lw _ => (s.dropRx r).notice r i n lw 2 false
        | _ => .done ((s.dropRx r).countRx r .rxSecLevel none)
    match c with
    | .none => .done ((s.dropRx r).countRx r .rxKeyIndexBad (if n.state = .joining then none else some n.world))
    | .node w => (s.dropRx r).joinReq r sec i n w
    | .link lw g =>
      match s.joinOf i with
      | some j => if lw = j.world ∧ g = j.keyGen then ((s.dropRx r).joinConfirm r sec i n j).getD (usual ()) else usual ()
      | none => usual ()
    | .group _ => usual ()

/-- A record still stands for the frame accepted for it (R15). -/
def State.stillStands (s : State) (i : Nat) (src : Addr) : Option Node :=
  (s.node i).filter fun n => n.state != .clearing && src == .ext n.eui && s.current n

/-- One frame taken from a pending-security queue; the head stays while a protection waits for its ceiling (R377). -/
def State.security (s : State) (p : Fe) : State :=
  let k := orderKey (384 + feCode p) 0
  let t := s.take k
  match t.1 with
  | none => t.2
  | some pkt =>
    match pkt.content with
    | .rx d f =>
      let r : Rx := { pipe := feCode p, pkt := pkt, d := d, f := f }
      let drop := fun (_ : Unit) => t.2.dropRx r
      match d.found with
      | .unresolved => (drop ()).count .rxSrcUnresolved (.pipe r.pipe)
      | .late => drop ()
      | .absent => drop ()
      | .noRecord => (drop ()).count .rxJoinNoRecord (.pipe r.pipe)
      | .known i =>
        match t.2.stillStands i f.src with
        | none => (drop ()).countRx r .rxNodeGone d.world
        | some n => match t.2.secure r i n with
          | .done u => u
          | .wait => s.count .fcReserveWait .device
    | _ => t.2.releaseChain pkt.acct pkt.cells pkt.chain

/-- M-core number i carries out tasks. -/
def State.coreRuns (s : State) (core : Nat) : Bool := s.firmware && !(s.isl.mcoreOut.getD core false)

/-- SECURITY_PROCESSING (R14, R15, R372, R379 to R386, R536). -/
def execSecurityProcessing (dt : Nat) (core : Fin 4) (p : Fe) (s : State) : Host.Outcome State Fault Refusal :=
  .next (let t := s.tick dt
    if t.coreRuns core.val then t.security p else t)

/-- A join has not been confirmed within join_timeout_s (R383). -/
def State.joinTimeout (s : State) (i : Nat) : State :=
  match s.joinOf i, s.node i with
  | some j, some n =>
    if s.firmware && decide (j.startClk + secTicks s.joinTimeoutS ≤ s.clk) then s.joinFails i n j.world .joinTimeout else s
  | _, _ => s

/-- JOIN_TIMEOUT (R383). -/
def execJoinTimeout (dt : Nat) (index : Nat) (s : State) : Host.Outcome State Fault Refusal := .next ((s.tick dt).joinTimeout index)

/-- A datagram not complete 60 s after its first fragment (R536). -/
def State.reasmTimeout (s : State) (src : BitVec 64) (tag size : Nat) : State :=
  match s.queues.reasm.find? fun x => x.src == src && x.tag == tag && x.size == size with
  | some x => if s.firmware && decide (x.first + secTicks 60 ≤ s.clk) then s.dropReasm x else s
  | none => s

/-- REASSEMBLY_TIMEOUT (R536). -/
def execReassemblyTimeout (dt : Nat) (src : BitVec 64) (tag size : Nat) (s : State) : Host.Outcome State Fault Refusal :=
  .next ((s.tick dt).reasmTimeout src tag size)

/-! ## Ceilings (R377, R427) -/

/-- The write-through of a ceiling that is due. -/
def State.ceilingWrite (s : State) (k : CeilKind) : State :=
  let raised := fun (next ceil : Nat) => if next + 1024 ≥ ceil then some (min (ceil + 4096) lastCounter) else none
  if !s.firmware then s
  else match k with
    | .node i => match s.node i with
      | some n => match raised n.fcOut.toNat (s.nodeCeil i) with
        | some v => s.writeCeil i v
        | none => s
      | none => s
    | .group slot =>
      if (s.slot slot).state ≠ .ready then s
      else match raised (s.groupNextOf slot) (s.groupCeil slot) with
        | some v =>
          let up := fun (t : Tbl GroupCell) (j : Nat) => match t.get j with
            | some c => t.set j { c with ceiling := BitVec.ofNat 32 v }
            | none => t
          { s with hw := { s.hw with groupCell := (s.keyTwins slot).foldl up s.hw.groupCell } }
        | none => s
    | .join => match raised s.crypto.joinNext s.hw.joinCeil.toNat with
      | some v => { s with hw := { s.hw with joinCeil := BitVec.ofNat 32 v } }
      | none => s
    | .mailbox m =>
      let b := s.mb m.val
      if b.seq.toNat + 1024 < b.ceiling.toNat then s
      else { s.setMb m.val { b with ceiling := b.ceiling + 4096 } with hw := { s.hw with seqCeil := s.hw.seqCeil.set m.val (b.ceiling + 4096) } }

/-- FC_CEILING_WRITE (R377, R427). -/
def execFcCeilingWrite (dt : Nat) (k : CeilKind) (s : State) : Host.Outcome State Fault Refusal := .next ((s.tick dt).ceilingWrite k)

end Sys2Proof.Machine
end

