-- ==== Sys2Proof/Machine/Down.lean ====
section
/-! DEFINITION. What an M-core does with packets of Q387 and with Almanac packets: messages to the part, and classification, routing,
segmentation and protection of downstream packets (R11, R12, R15 to R17, R165, R216, R286, R287, R391, R407, R422). -/

namespace Sys2Proof.Machine

/-! ## Packets to the part (R391, R422) -/

/-- The mailbox a UDP datagram is for. -/
def State.mboxOfPort (s : State) (dst : BitVec 128) (port : BitVec 16) : Option Nat :=
  match s.life.mode with
  | .operate => if s.ownAddrs.contains dst.toNat then
      (List.range 8).find? fun m => m != 0 && (s.mb m).isOpen && s.cfgN 0x12 m 2 2 0 == port.toNat else none
  | .noConfig => if (s.mb 1).isOpen && dst.toNat == s.linkLocal && port.toNat == 50310 then some 1 else none
  | .stump => if dst.toNat == s.linkLocal && port.toNat == 50310 then some 1 else none
  | _ => none

/-- The router's address learnt from a Router Advertisement, where BACKHAUL.router_mac is zero. -/
def State.learnRouter (s : State) (mac : BitVec 48) : State :=
  if beNat (s.cfgO 0x15 0 22 6) = 0 then { s with back := { s.back with router := some mac } } else s

/-- Ticks of the time clock at which a frame that arrived at network time `ns` did so. -/
def State.clkOfNet (s : State) (ns : Nat) : Nat := s.clk - (s.netNs - ns) / 4

/-- A packet addressed to the part, its cells released. -/
def State.toPart (s : State) (port arrival : Nat) (src dst : BitVec 128) (udp : Option (BitVec 16 × BitVec 16)) (data : Octets) : State :=
  match udp with
  | some (sp, dp) =>
    match s.mboxOfPort dst dp with
    | some m => s.accept m { srcAddr := src, srcPort := sp, dstPort := dp, octets := data } (s.clkOfNet arrival)
    | none => if dp.toNat = 319 ∨ dp.toNat = 320 then s else s.count .rxEthFiltered (.port port)
  | none => s.count .rxEthFiltered (.port port)

/-! ## Worlds (R11, R407) -/

def isMulticast (a : BitVec 128) : Bool := a.toNat / 2 ^ 120 == 0xFF

/-- The world whose mesh prefix an address has. -/
def State.worldOfPrefix (s : State) (a : BitVec 128) : Option Nat :=
  [1, 2, 3, 4, 5, 6, 7].find? fun w => s.hasWorld w && s.meshPrefix w == a.toNat / 2 ^ 64

/-- The world that alone has a VID (log entry 40). -/
def State.worldOfVid (s : State) (vlan : Option (BitVec 12 × BitVec 3)) : Option Nat :=
  match vlan with
  | none => none
  | some (v, _) => match [1, 2, 3, 4, 5, 6, 7].filter fun w => s.hasWorld w && s.tagged w && s.worldVlan w % 4096 == v.toNat with
    | [w] => some w
    | _ => none

/-- The frame's VID is the world's (R407). -/
def State.vidOk (s : State) (w : Nat) (vlan : Option (BitVec 12 × BitVec 3)) : Bool :=
  match vlan with
  | none => !s.tagged w
  | some (v, _) => s.tagged w && v.toNat == s.worldVlan w % 4096

/-- The node an address's interface identifier names: its EUI-64 with the universal bit inverted. -/
def euiOfAddr (a : BitVec 128) : BitVec 64 := a.truncate 64 ^^^ 0x0200000000000000

/-! ## Downstream packets -/

/-- A downstream packet as classified: its octets compressed under RFC 6282, those of its compressed headers, whether it is UDP. -/
structure DownPkt where
  compressed : Octets
  hdr : Nat
  udp : Bool
  deriving DecidableEq, Repr

/-- Payload octets behind the headers. -/
def DownPkt.payload (p : DownPkt) : Nat := p.compressed.length - p.hdr

/-- Segments and protects a packet for node i of world w (R17, R165, R216, R286, R287). -/
def State.downUnicast (s : State) (w i : Nat) (p : DownPkt) : Prot :=
  match s.walk i with
  | none => .done (s.count .dsNoRoute (.world w))
  | some path =>
    let hop := path.getLastD i
    match s.node hop with
    | none => .done (s.count .dsNoRoute (.world w))
    | some n =>
      let hu := 40 + (if p.udp then 8 else 0) + routeOctets path.length
      let k := s.mac.packets
      let s := { s with mac := { s.mac with packets := k + 1 } }
      let names := path.filterMap fun j => (s.node j).map fun m => (j, m.eui)
      match sawmillCuts (s.room (nodeFe n) n) p.compressed.length p.hdr hu p.payload with
      | none => .done (s.count .dsHdrTooBig (.world w))
      | some sizes =>
        let before := s.counter .dsQueueFull (.world w)
        match (s.takeTag sizes).sendUnicast hop n (plainsOf k false (sawmillFrames s.mac.fragTag.toNat p.compressed p.hdr hu sizes)) names with
        | .wait => .wait
        | .done t =>
          let sent := t.counter .dsQueueFull (.world w) == before && t.counter .txKeyAbsent (.world w) == s.counter .txKeyAbsent (.world w) &&
            t.counter .txFcExhausted (.world w) == s.counter .txFcExhausted (.world w)
          .done (if sent then { t with wake := { t.wake with
            paced := t.wake.paced ++ [{ packet := k, node := hop, world := w, air := 0, left := sizes.length }] } } else t)

/-- Segments and protects a multicast packet of world w into queue q. -/
def State.downCast (s : State) (w q : Nat) (p : DownPkt) : Prot :=
  let hu := 40 + (if p.udp then 8 else 0)
  let k := s.mac.packets
  let s := { s with mac := { s.mac with packets := k + 1 } }
  match sawmillCuts (s.castRoom w) p.compressed.length p.hdr hu p.payload with
  | none => .done (s.count .dsHdrTooBig (.world w))
  | some sizes => (s.takeTag sizes).sendCast w q (plainsOf k true (sawmillFrames s.mac.fragTag.toNat p.compressed p.hdr hu sizes))

/-- A packet from the backhaul that is not for the part. -/
def State.downstream (s : State) (hdr : EthHdr) (dst : BitVec 128) (tc : BitVec 8) (p : DownPkt) : Prot :=
  if isMulticast dst then
    match s.worldOfVid hdr.vlan with
    | some w => s.downCast w (448 + 8 * w + 7 - tc.toNat / 32) p
    | none => .done (s.count .dsNoWorld .device)
  else match s.worldOfPrefix dst with
    | none => .done (s.count .dsNoWorld .device)
    | some w =>
      if !s.vidOk w hdr.vlan then .done (s.count .dsVidMismatch (.world w))
      else match s.findEui (euiOfAddr dst) with
        | none => .done (s.count .dsNoNode (.world w))
        | some i => match s.node i with
          | none => .done (s.count .dsNoNode (.world w))
          | some n =>
            if !s.inTable n then .done (s.count .dsNoNode (.world w))
            else if n.world ≠ w then .done (s.count .dsWorldMismatch (.world w))
            else s.downUnicast w i p

/-- One packet of Q387, its cells released. -/
def State.classify (s : State) (port : Nat) (f : EthFrame) (arrival : Nat) (compressed : Octets) (hdrOct : Nat) : Prot :=
  match f.payload with
  | .ipv6 src dst tc udp _ data =>
    if s.addressedToPart dst then .done (s.toPart port arrival src dst udp data)
    else if s.operating then s.downstream f.hdr dst tc { compressed := compressed, hdr := hdrOct, udp := udp.isSome }
    else .done (s.count .dsNoWorld .device)
  | .routerAdvert => .done (s.learnRouter f.hdr.srcMac)
  | .neighbourSolicit => .done s
  | _ => .done (s.count .rxEthFiltered (.port port))

/-- Takes the head of an order and acts on it; it stays while a protection waits for its ceiling (R377). -/
def State.takeAct (s : State) (q : Nat) (act : State → Packet → Prot) : State :=
  let t := s.take (orderKey q 0)
  match t.1 with
  | none => t.2
  | some p => match act (t.2.releaseChain p.acct p.cells p.chain) p with
    | .done u => u
    | .wait => s.count .fcReserveWait .device

/-- The next task: an Almanac packet (R201) before the head of Q387. -/
def State.classifyNext (s : State) (compressed : Octets) (hdrOct : Nat) : State :=
  if !(s.order (orderKey almQueue 0)).isEmpty && s.operating then
    s.takeAct almQueue fun s p => match p.content with
      | .group w _ _ _ => s.downCast w (448 + 8 * w) { compressed := compressed, hdr := hdrOct, udp := true }
      | _ => .done s
  else s.takeAct 387 fun s p => match p.content with
    | .eth port f arrival => s.classify port f arrival compressed hdrOct
    | _ => .done s

/-- DOWNSTREAM_CLASSIFY (R11, R12, R16, R17, R165, R216, R286, R287, R391, R407, R422). -/
def execDownstreamClassify (dt : Nat) (core : Fin 4) (compressed : Octets) (hdrCompressed : Nat) (s : State) : Host.Outcome State Fault Refusal :=
  .next (let t := s.tick dt
    if t.portsRun && !t.inPause && !(t.isl.mcoreOut.getD core.val false) then t.classifyNext compressed hdrCompressed else t)

end Sys2Proof.Machine
end

