-- ==== Sys2Proof/Machine/ImageForm.lean ====
section
/-! DEFINITION. The form of a configuration image (R38 to R41, R43, R48): header, records, and the layout, reserved octets and ranges of
every record (checks 1 to 11 of Table 2.10). -/

namespace Sys2Proof.Machine

/-- A refusal: reason code, record type and instance, payload offset (R52). -/
structure ImgFail where
  reason : Nat
  typ : Nat := 0
  inst : Nat := 0
  off : Nat := 0
  deriving DecidableEq, Repr

/-- Octets a body may have at most (R38). -/
def bodyMax : Nat := 4194224

def padLen (n : Nat) : Nat := (8 - n % 8) % 8

/-- A record with its padding. -/
structure RawRec where
  r : CfgRec
  pad : Octets
  deriving DecidableEq, Repr

/-- What stands at the end of a body beside whole records: nothing, octets that make no record header, or a record that its header makes longer
than the body. -/
inductive BodyEnd where
  | filled
  | scrap
  | cut (r : CfgRec) (len : Nat)
  deriving DecidableEq, Repr

/-- The records of a body, and its end (R39). -/
def parseBody : Nat → Octets → List RawRec × BodyEnd
  | 0, o => ([], if o.isEmpty then .filled else .scrap)
  | n + 1, o =>
    if o.isEmpty then ([], .filled)
    else if o.length < 8 then ([], .scrap)
    else
      let len := leField o 4 4
      let whole := 8 + len + padLen len
      let r : CfgRec := { typ := leField o 0 2, inst := leField o 2 1, rflags := BitVec.ofNat 8 (leField o 3 1), payload := sliceOct o 8 len }
      if o.length < whole then ([], .cut r len)
      else
        let t := parseBody n (o.drop whole)
        ({ r := r, pad := sliceOct o (8 + len) (padLen len) } :: t.1, t.2)

/-! ## Lengths and instances (R39, R48) -/

/-- Payload octets of a record of a listed type; `none`: a type not listed. -/
def recLen (typ : Nat) (p : Octets) : Option Nat :=
  match typ with
  | 0x01 => some 164
  | 0x02 => some 72
  | 0x03 => some 32
  | 0x04 => some 112
  | 0x05 => some 32
  | 0x06 => some 8
  | 0x07 => some 32
  | 0x08 => some (8 + 128 * leField p 0 2)
  | 0x09 => some 24
  | 0x0A => some (8 + 8 * leField p 0 2)
  | 0x0B => some 24
  | 0x0C => some 16
  | 0x0D => some 2528
  | 0x0E => some 32
  | 0x0F => some 136
  | 0x10 => some 160
  | 0x11 => some 16
  | 0x12 => some 88
  | 0x13 => some 56
  | 0x14 => some 48
  | 0x15 => some 112
  | 0x16 => some 16
  | 0x17 => some 16
  | _ => none

def instOk (typ inst : Nat) : Bool :=
  if typ ∈ [0x02, 0x03, 0x06, 0x0A] then decide (inst ≤ 2)
  else if typ ∈ [0x11, 0x12] then decide (inst ≤ 7)
  else if typ = 0x13 then decide (32 ≤ inst) && decide (inst ≤ 167)
  else inst == 0

/-! ## Reserved octets and bits (check 8) -/

/-- Octets `off` to `off + n − 1` with the bits of a mask that must be zero. -/
def zeros (off n : Nat) : List (Nat × Nat) := (List.range n).map fun i => (off + i, 0xFF)

/-- Offsets and masks of a record's reserved bits. -/
def reservedBits (typ : Nat) (p : Octets) : List (Nat × Nat) :=
  match typ with
  | 0x01 => zeros 2 2 ++ (List.range 8).map fun i => (23 + 20 * i, 0xFF)
  | 0x02 => [(5, 0xFC), (22, 0xFE)] ++ zeros 23 1 ++ zeros 30 2 ++ (List.range 5).map (fun i => (32 + i, 0xF0)) ++ zeros 37 3
  | 0x03 => [(1, 0xFF), (0, 0x80)] ++ zeros 13 1 ++ zeros 28 4
  | 0x04 => (List.range 48).map (fun i => (2 * i + 1, 0xF8)) ++ [(102, 0xFE)] ++ zeros 103 1 ++ zeros 110 2
  | 0x05 => zeros 21 11
  | 0x07 => [(0, 0xFC), (21, 0xF8)] ++ zeros 26 6
  | 0x08 => zeros 2 6 ++ (List.range (leField p 0 2)).flatMap fun i => [(8 + 128 * i + 6, 0x80), (8 + 128 * i + 9, 0xFC)] ++
      zeros (8 + 128 * i + 11) 1 ++ zeros (8 + 128 * i + 116) 12
  | 0x09 => (List.range 8).map (fun i => (8 + i, 0xF8)) ++ zeros 20 4
  | 0x0A => zeros 2 6 ++ (List.range (leField p 0 2)).map fun i => (8 + 8 * i + 7, 0xE0)
  | 0x0B => zeros 18 6
  | 0x0C => [(11, 0xFE)] ++ zeros 12 4
  | 0x0E => [(22, 0xFE)] ++ zeros 23 9
  | 0x0F => [(3, 0xFE)] ++ zeros 6 2 ++ (List.range 8).flatMap fun i => zeros (14 + 16 * i) 10
  | 0x10 => zeros 70 2 ++ (List.range 3).flatMap (fun i => zeros (84 + 16 * i) 4) ++
      (List.range 8).flatMap (fun i => [(120 + 4 * i, 0xF8), (123 + 4 * i, 0xFE)]) ++ zeros 152 8
  | 0x11 => zeros 14 2
  | 0x12 => [(1, 0xF8)] ++ zeros 5 3 ++ zeros 42 6
  | 0x13 => [(1, 0x80)] ++ zeros 3 5 ++ zeros 40 16
  | 0x14 => zeros 9 7 ++ (List.range 8).flatMap fun i => [(18 + 4 * i, 0xFE), (19 + 4 * i, 0xFF)]
  | 0x15 => [(2, 0xF0), (7, 0xFC), (11, 0xFC)] ++ zeros 61 3 ++ zeros 76 4 ++ zeros 104 8
  | 0x16 => [(2, 0xFE)] ++ zeros 3 13
  | 0x17 => [(6, 0xFE)] ++ zeros 7 9
  | _ => []

/-- Least of a list of offsets. -/
def leastOff (l : List Nat) : Option Nat := l.foldl (fun (a : Option Nat) x => match a with
  | some b => some (min b x)
  | none => some x) none

/-- First octet that a reserved bit makes malformed; a MAILBOX key field that is not present is zero (R43). -/
def badReserved (typ : Nat) (p : Octets) : Option Nat :=
  let bad := ((reservedBits typ p).filter fun m => (leField p m.1 1) &&& m.2 != 0).map Prod.fst
  let key := typ == 0x12 && !(bitOf (leField p 1 1) 0 && !bitOf (leField p 1 1) 2)
  let more := if key then ((List.range 40).filter fun i => leField p (48 + i) 1 != 0).map fun i => 48 + i else []
  leastOff (bad ++ more)

/-! ## Ranges (check 11) -/

/-- A field with its range. -/
structure Fld where
  off : Nat
  len : Nat
  sgn : Bool
  lo : Int
  hi : Int
  deriving DecidableEq, Repr

def fu (off len : Nat) (lo hi : Int) : Fld := { off := off, len := len, sgn := false, lo := lo, hi := hi }
def fs (off len : Nat) (lo hi : Int) : Fld := { off := off, len := len, sgn := true, lo := lo, hi := hi }

def Fld.value (f : Fld) (p : Octets) : Int := if f.sgn then signed (8 * f.len) (leField p f.off f.len) else (leField p f.off f.len : Int)

def Fld.bad (f : Fld) (p : Octets) : Bool := decide (f.value p < f.lo) || decide (f.hi < f.value p)

/-- Fields whose range does not depend on others. -/
def recFlds (typ inst : Nat) : List Fld :=
  match typ with
  | 0x01 => [fu 0 1 0 5, fu 1 1 1 8]
  | 0x02 => [(if inst = 2 then fu 0 4 2412000000 2471500000 else fu 0 4 413200000 956800000), fu 4 1 0 5, fu 5 1 1 3, fu 6 1 0 1, fu 10 1 0 1,
      fu 11 1 0 60, fu 12 1 0 20, fu 15 1 5 30, fu 20 2 1000 20000, fu 24 2 1 65535, fu 26 2 0 60000, fu 28 2 0 4000]
  | 0x03 => [fu 0 2 1 127, fu 2 1 0 1, fu 3 1 0 1, fu 4 1 0 1, fu 5 1 4 255, fu 6 1 16 255, fu 7 1 0 2, fu 8 2 16 2047, fu 10 1 0 6, fu 11 1 0 2,
      fu 12 1 0 6, fu 14 2 127 2047, fu 16 2 127 2047, fu 18 2 127 2047, fu 20 2 127 127, fu 22 2 127 2047, fu 24 2 127 2047, fu 26 2 127 2047]
  | 0x04 => [fu 96 1 8 40, fu 98 1 0 2, fu 99 1 4 24, fu 100 2 64 4096]
  | 0x05 => [fu 0 2 0 0xFFFE, fu 2 2 0 0xFFFE, fu 4 1 3 8, fu 5 1 3 8, fu 6 1 0 5, fu 7 1 0 7, fu 8 2 40 2000, fs 10 1 (-100) (-60), fu 11 1 0 1,
      fu 12 2 20 2000, fu 14 1 4 255, fu 15 1 16 255, fu 16 2 500 30000, fu 18 1 2 200, fu 19 1 0 100, fu 20 1 5 200]
  | 0x06 => [fu 0 3 1 0xFFFFFF, fu 3 1 0 2, fu 4 2 1 0xFFFE, fu 7 1 0 32]
  | 0x07 => [fu 0 1 0 3, fu 1 1 0 127, fu 2 2 0 255, fu 4 4 1000 1000000000, fu 8 4 10 100000, fu 12 2 500 60000, fu 14 2 1 200, fu 16 2 100 60000,
      fu 18 1 1 168, fs 19 1 (-48) 56, fu 20 1 0 240, fu 22 2 1 500, fs 24 2 (-10000) 10000]
  | 0x08 => [fu 0 2 0 1024]
  | 0x09 => (List.range 8).map (fun w => fu w 1 0 7) ++ [fu 16 2 500 8000, fu 18 2 0 10000]
  | 0x0A => [fu 0 2 1 1024]
  | 0x0B => (List.range 8).map (fun w => fu (2 * w) 2 1 1000) ++ [fu 16 2 10 10000]
  | 0x0C => [fu 0 1 1 4, fu 1 1 1 2, fu 4 4 65536 1048576, fu 8 1 0 6, fu 9 1 0 6, fu 10 1 1 6]
  | 0x0E => [fu 16 2 16 4096, fu 18 2 10 3600, fu 20 2 0 10000]
  | 0x0F => [fu 0 2 1 65535, fu 2 1 1 255, fu 4 2 1 65535] ++
      (List.range 8).flatMap fun w => [fu (8 + 16 * w) 1 0 1, fu (9 + 16 * w) 1 0 127, fu (10 + 16 * w) 1 6 20, fu (11 + 16 * w) 1 0 20, fu (12 + 16 * w) 1 0 10]
  | 0x10 => [fu 0 2 1 600, fu 2 2 10 3600, fu 4 2 10 3600, fu 6 2 60 65535, fu 8 2 1 600, fu 10 2 60 65535, fu 12 4 0 2592000, fu 16 4 0 2592000,
      fu 26 2 0 1024, fu 28 2 1 4096, fu 30 2 0 4096, fu 32 1 0 48, fu 33 1 0 8, fu 34 1 2 8, fu 35 1 0 30, fu 36 2 60 65535, fu 38 1 0 30, fu 39 1 10 90,
      fu 40 1 1 40, fu 41 1 1 20, fu 42 2 1 1000, fu 44 2 0 1000, fu 46 2 0 1000, fu 48 2 0 1000, fu 50 2 0 1000, fu 52 2 1 65535, fu 54 2 1 10000,
      fu 56 2 1 65535, fu 58 2 1 1000, fu 60 2 0 1000, fu 62 2 0 1000, fu 64 2 0 1000, fu 66 2 1 65535, fu 68 2 0 1000] ++
      (List.range 3).flatMap fun f => [fu (80 + 16 * f) 1 0 64, fu (81 + 16 * f) 1 0 63, fu (82 + 16 * f) 1 1 32, fu (83 + 16 * f) 1 1 8]
  | 0x11 => [fu 8 2 0 1000, fu 10 2 0 1000, fu 12 2 0 1000]
  | 0x12 => [fu 0 1 0 (if inst = 0 then 0 else 7), (if inst = 0 then fu 2 2 0 0 else fu 2 2 1024 65535), fu 4 1 0 128]
  | 0x13 => [fu 0 1 0 7]
  | 0x14 => [fu 0 2 1 1000, fu 2 2 1 4096, fu 4 2 20 1000, fu 6 2 60 65535, fu 8 1 1 16] ++
      (List.range 8).flatMap fun w => [fu (16 + 4 * w) 1 5 7, fu (17 + 4 * w) 1 0 15]
  | 0x15 => [fu 0 1 0 2, fu 1 1 0 2, fu 4 1 0 15, fu 5 1 0 7, fu 6 1 0 15, fu 8 1 0 15, fu 9 1 0 7, fu 10 1 0 15, fu 14 2 1280 1500, fu 44 2 1 500,
      fu 46 2 10 10000, fu 48 2 50 500, fu 50 2 300 950, fu 52 2 1000 30000, fu 54 1 0 2, fu 55 1 1 100, fu 56 2 1 1000, fu 58 2 1 1000, fu 60 1 0 1,
      fs 72 4 (-1000000) 1000000]
  | 0x16 => [fu 0 2 10 3600]
  | 0x17 => [fu 0 1 100 120, fu 1 1 80 115, fu 2 1 101 123, fu 3 1 80 118, fu 4 2 10 3600]
  | _ => []

/-- Offsets a condition makes bad. -/
def badIf (c : Bool) (off : Nat) : List Nat := if c then [off] else []

/-- Sub-band entry i of REGION. -/
def badSub (p : Octets) (i : Nat) : List Nat :=
  let o := subOff i
  if i < subCount p then
    let off := subLbt p i == 0
    badIf (decide (subHigh p i ≤ subLow p i)) (o + 4) ++ badIf (subDuty p i == 0 || decide (subDuty p i > 10000)) (o + 8) ++
      badIf (if off then subSense p i != 0 else decide (subSense p i < 100) || decide (subSense p i > 20000)) (o + 12) ++
      badIf (decide (subMinOff p i > 10000)) (o + 14) ++ badIf (decide (subLbt p i > 1)) (o + 16) ++
      badIf (if off then leField p (o + 17) 1 != 0 else decide (subLbtThr p i < -100) || decide (subLbtThr p i > -60)) (o + 17) ++
      badIf (decide (subEirp p i > 72)) (o + 18)
  else badIf (!allZero (sliceOct p o 20)) o

/-- A gate entry (Tables 8.1 and 8.2). -/
def badGate (p : Octets) (i : Nat) : Bool :=
  let v := leField p (8 + 8 * i) 8
  let start := v % 2 ^ 21
  let len := v / 2 ^ 21 % 2 ^ 21
  let cls := v / 2 ^ 42 % 8
  let arg := v / 2 ^ 45 % 256
  let chan := v / 2 ^ 53 % 128
  decide (start > 2047999) || len == 0 || decide (start + len > 2048000) || decide (cls > 5) ||
    ((cls == 0 || cls == 2 || cls == 5) && arg != 0) || (cls == 4 && decide (arg > 7) && arg != 255) || (cls != 0 && cls != 4 && chan != 0)

/-- Profiles that require a spectral-mask transient limit (Table 6.1). -/
def transientLimit (profile : Nat) : Bool := profile == 1 || profile == 3 || profile == 4

/-- Offsets of fields whose range depends on another field, of the record or of another record of the image `l` (R70, R171).  A default_rate that is
not 0 with default_mode HS is outside Table 4.11's range and fails here, check 11, before R113's refusal at check 13 (DESIGN CHOICE, log entry 79). -/
def badMore (l : List CfgRec) (typ inst : Nat) (p : Octets) (pool : Nat) : List Nat :=
  let x := fun (off len : Nat) => leField p off len
  let y := fun (off : Nat) => signed 8 (leField p off 1)
  match typ with
  | 0x01 => (List.range 8).flatMap (badSub p)
  | 0x02 => badIf (!(x 7 1 ∈ [2, 4, 8, 16, 32]) || (x 7 1 == 2 && (match recFind l 0x01 0 with
      | some q => transientLimit (leField q 0 1)
      | none => false))) 7 ++ badIf (decide (y 9 > y 8)) 9 ++ badIf (x 10 1 == 0 && x 11 1 != 0) 11 ++
      badIf (x (16 + inst) 1 != 0) (16 + inst) ++ badIf (inst == 2 && x 19 1 != 0) 19 ++
      ((List.range 16).flatMap fun i => badIf (if x 10 1 = 0 then x (40 + 2 * i) 2 != 0 else decide (x (40 + 2 * i) 2 > 1200)) (40 + 2 * i))
  | 0x03 =>
    let m := x 0 2
    badIf (if inst = 2 then m &&& 7 != 0 else m &&& 8 != 0) 0 ++ badIf (x 11 1 != 0 && x 10 1 != 4 && x 10 1 != 5) 11
  | 0x04 => ((List.range 48).flatMap fun i =>
      let e := x (2 * i) 2
      badIf ((!bitOf e 9 && e != 0) || e / 128 % 4 == 3) (2 * i)) ++ badIf (x 97 1 != 0 && (decide (x 97 1 < 3) || decide (x 97 1 > 20))) 97
  | 0x05 => badIf (decide (x 5 1 < x 4 1)) 5 ++ badIf (x 11 1 == 0 && x 2 2 == 0xFFFE) 11
  | 0x06 => match recFind l 0x02 inst with
    | some q =>
      let lacks := fun (port : Nat) => !bitOf (leField q 5 1) port
      badIf (((x 3 1 == 0 || x 3 1 == 2) && lacks 0) || ((x 3 1 == 1 || x 3 1 == 2) && lacks 1)) 3 ++
        badIf (decide (y 6 < signed 8 (leField q 9 1)) || decide (signed 8 (leField q 8 1) < y 6)) 6
    | none => []
  | 0x08 => (List.range (x 0 2)).flatMap fun i =>
      let e := sliceOct p (8 + 128 * i) 128
      (match almBadRange e with
        | some o => [8 + 128 * i + o]
        | none => []) ++ badIf (almLast e != 2 ^ 64 - 1) (8 + 128 * i + 108)
  | 0x0A => (List.range (x 0 2)).flatMap fun i => badIf (badGate p i) (8 + 8 * i)
  | 0x0C => badIf (!(x 2 2 ∈ [1600, 2133, 2400, 3200, 3733, 4266])) 2 ++ badIf (x 4 4 % 4096 != 0) 4
  | 0x0D => ((List.range 8).flatMap fun w => badIf (decide (x (4 * w) 4 > pool)) (4 * w)) ++
      (List.range 208).flatMap fun a => badIf (decide (x (36 + 12 * a) 4 < x (32 + 12 * a) 4) || decide (x (36 + 12 * a) 4 > pool)) (36 + 12 * a)
  | 0x0E => badIf (x 8 4 != 0 && (decide (x 8 4 < 3600) || decide (x 8 4 > 31536000))) 8 ++
      badIf (decide (x 12 4 < 600) || decide (x 12 4 > 31536000) || (x 8 4 != 0 && decide (x 8 4 ≤ x 12 4))) 12
  | 0x10 => (List.range 8).flatMap fun w => badIf (decide (x (122 + 4 * w) 1 < x (121 + 4 * w) 1)) (122 + 4 * w)
  | 0x11 =>
    let z := allZero (sliceOct p 0 8)
    badIf (if inst = 0 then !z else z || x 0 1 == 0xFF) 0
  | 0x12 =>
    let plen := x 4 1
    let host := beNat (sliceOct p 8 16)
    let none_ := allZero (sliceOct p 24 16)
    badIf (decide (plen ≤ 128) && host % 2 ^ (128 - plen) != 0) 8 ++ badIf (inst == 0 && !none_) 24 ++
      badIf (if none_ then x 40 2 != 0 else x 40 2 == 0) 40
  | 0x13 => badIf (x 2 1 != 0xFF && (decide (x 2 1 < 40) || decide (x 2 1 > 167))) 2
  | 0x15 =>
    badIf (x 12 1 != 0xFF && decide (x 12 1 > 31)) 12 ++ badIf (x 13 1 != 0xFF && decide (x 13 1 > 31)) 13 ++
      badIf (allZero (sliceOct p 16 6) || bitOf (x 16 1) 0) 16 ++ badIf (bitOf (x 22 1) 0) 22 ++
      (List.range 8).flatMap fun w =>
        let v := x (80 + 2 * w) 2
        badIf (if bitOf v 15 then v % 4096 == 0 || v % 4096 == 4095 else v != 0) (80 + 2 * w)
  | _ => []

/-- First field of a record outside its range. -/
def badRange (l : List CfgRec) (r : CfgRec) (pool : Nat) : Option Nat :=
  leastOff (((recFlds r.typ r.inst).filter fun f => f.bad r.payload).map (fun f => f.off) ++ badMore l r.typ r.inst r.payload pool)

/-! ## Checks 8 to 11 over the records -/

/-- The header of a record of `len` octets is malformed: its order, its flags, its length or its instance (R39, R40, R48). -/
def badHead (prev : Option CfgRec) (r : CfgRec) (len : Nat) : Bool :=
  let order := match prev with
    | some q => decide (q.typ < r.typ) || (q.typ == r.typ && decide (q.inst < r.inst))
    | none => true
  !order || r.rflags.toNat / 2 != 0 || (match recLen r.typ r.payload with
    | none => false
    | some n => len != n || !instOk r.typ r.inst)

/-- Check 8 of one record after the record before it: the first offending octet, those of the padding counted on from the payload (R52). -/
def badForm (prev : Option CfgRec) (x : RawRec) : Option ImgFail :=
  let r := x.r
  let fail := fun (o : Nat) => ({ reason := 8, typ := r.typ, inst := r.inst, off := o } : ImgFail)
  let pad := (x.pad.findIdx? fun o => o != 0).map fun i => fail (r.payload.length + i)
  if badHead prev r r.payload.length then some (fail 0)
  else match recLen r.typ r.payload with
    | none => pad
    | some _ => match badReserved r.typ r.payload with
      | some o => some (fail o)
      | none => pad

/-- Check 8 over the records in order, and the body's end: one record's fault, or the fault of none (R52). -/
def badForms : Option CfgRec → List RawRec → BodyEnd → Option ImgFail
  | prev, [], e => match e with
    | .filled => none
    | .scrap => some { reason := 8 }
    | .cut r len => if badHead prev r len then some { reason := 8, typ := r.typ, inst := r.inst } else some { reason := 8 }
  | prev, x :: t, e => match badForm prev x with
    | some f => some f
    | none => badForms (some x.r) t e

/-- A record that holds a key field (R43). -/
def holdsKey (r : CfgRec) : Bool := r.typ == 0x13 || (r.typ == 0x12 && bitOf (leField r.payload 1 1) 0 && !bitOf (leField r.payload 1 1) 2)

/-- Check 9. -/
def badCritical (l : List CfgRec) : Option ImgFail :=
  (l.find? fun r => (recLen r.typ r.payload).isNone && bitOf r.rflags.toNat 0).map fun r => { reason := 9, typ := r.typ, inst := r.inst }

/-- Check 10 (R46). -/
def missing (l : List CfgRec) : Bool :=
  let has := fun (t i : Nat) => l.any fun r => r.typ == t && r.inst == i
  let fes := (List.range 3).filter fun i => has 0x02 i
  !(has 0x01 0 && !fes.isEmpty && fes.all (fun i => has 0x0A i) && has 0x05 0 && has 0x09 0 && has 0x0C 0 && has 0x15 0 && has 0x11 0)

/-- Check 11. -/
def badRanges (l : List CfgRec) : Option ImgFail :=
  let pool := match recFind l 0x0C 0 with
    | some p => leField p 4 4
    | none => 1048576
  l.findSome? fun r => (badRange l r pool).map fun o => { reason := 0x0B, typ := r.typ, inst := r.inst, off := o }

end Sys2Proof.Machine
end

