-- ==== Sys2Proof/Machine/ImageChecks.lean ====
section
/-! DEFINITION. Checks 12 to 14 of Table 2.10 (R2, R47 and the cross-checks of the chapters), and the check of a whole image (R38, R41).
A failing check names the least record and the least offset at which one of its tests fails (log entry 41). -/

namespace Sys2Proof.Machine

/-! ## Check 12 (R2) -/

def badVariant (r : CfgRec) : Option Nat :=
  let p := r.payload
  if r.typ ∈ [0x02, 0x03, 0x06, 0x0A] ∧ r.inst = 1 then some 0
  else match r.typ with
    | 0x04 =>
      let e := fun (i : Nat) => leField p (2 * i) 2
      leastOff (((List.range 48).filter fun i => (decide (24 ≤ i) && (bitOf (e i) 9 || bitOf (e i) 10)) || e i / 128 % 4 == 1).map (fun i => 2 * i) ++
        (List.range 3).flatMap fun i => badIf (leField p (107 + i) 1 != 0) (107 + i))
    | 0x09 => leastOff ((List.range 8).flatMap fun w => badIf (bitOf (leField p (8 + w) 1) 1) (8 + w))
    | 0x10 => leastOff ((List.range 8).flatMap fun w => badIf (bitOf (leField p (120 + 4 * w) 1) 1) (120 + 4 * w))
    | _ => none

/-! ## Check 13: the tests of each record, on a state that holds the candidate image -/

/-- A channel of a front end's initial slice meets R143. -/
def State.chanMeets (t : State) (f : Fe) (k : Nat) : Bool :=
  decide (k < t.channels f) && (subOf t.region (channelHz (t.cfgCentre f) (t.raster f) k) (t.raster f)).isSome

/-- A front end whose initial slice holds a channel of sub-band i. -/
def State.sliceHolds (t : State) (f : Fe) (i : Nat) : Bool :=
  t.hasFe f && (List.range (t.channels f)).any fun k => subOf t.region (channelHz (t.cfgCentre f) (t.raster f) k) (t.raster f) == some i

/-- Worlds of an image. -/
def State.worlds (t : State) : List Nat := (List.range 8).filter fun w => t.hasWorld w

/-- Octets of the longest beacon of a front end (R168). -/
def State.beaconLen (t : State) (f : Fe) (m : Nat) : Nat := 45 + 9 * t.beaconMaxGroups f + t.fcsOctets f m

def modesOf (t : State) (f : Fe) : List Nat := (List.range 7).filter fun m => t.modeOn f m

/-- The longest ACK, in µs, that may go out on a front end: 15 octets in each enabled mode at rate 1/2, N = 512 (R172). -/
def State.longestAck (t : State) (f : Fe) : Nat :=
  (modesOf t f).foldl (fun a m => max a (airTime
    { mode := m, rate := 0, cwlen := false, pilots := t.pilotMode f = 2, preamble := t.preambleOctets f, hsUnits := t.hsUnits f, onH := f = .h } 15)) 0

/-- Sub-GHz range of a regulatory profile (Table 6.1). -/
def profileRange (c : Nat) : Nat × Nat :=
  match c with
  | 0 => (410000000, 960000000)
  | 1 => (863000000, 870000000)
  | 2 => (902000000, 928000000)
  | 3 => (915900000, 929700000)
  | 4 => (865000000, 867000000)
  | _ => (470000000, 510000000)

/-- REGION (R144). -/
def crossRegion (p : Octets) : List Nat :=
  let c := leField p 0 1
  (List.range (subCount p)).flatMap fun i =>
    let o := subOff i
    let lo := subLow p i
    let hi := subHigh p i
    let rng := if lo ≥ 2400000000 then (2400000000, 2483500000) else profileRange c
    let sub := decide (lo < 2400000000)
    badIf (decide (lo < rng.1)) o ++ badIf (decide (hi > rng.2)) (o + 4) ++
      badIf ((List.range i).any fun j => decide (subLow p j < hi) && decide (lo < subHigh p j)) o ++
      badIf (sub && c == 1 && decide (subDuty p i ≥ 10000) && subLbt p i == 0) (o + 8) ++
      badIf (sub && c == 3 && decide (subSense p i < 5000)) (o + 12) ++ badIf (sub && c == 3 && subLbt p i == 0) (o + 16) ++
      badIf (sub && c == 3 && decide (subLbtThr p i > -80)) (o + 17)

/-- The det_curve of a record rises strictly. -/
def curveBad (p : Octets) : List Nat :=
  (List.range 15).flatMap fun i => badIf (decide (leField p (42 + 2 * i) 2 ≤ leField p (40 + 2 * i) 2)) (42 + 2 * i)

/-- RADIO_FE (R83, R47). -/
def crossRadio (t : State) (f : Fe) (p : Octets) : List Nat :=
  let loss : Int := leField p 12 1
  let gain : Int := leField p 11 1
  let top : Int := if f = .h then 20 else 40
  let low : Int := if f = .h then -40 else -20
  let ext := t.extPa f
  let cap := if ext then min 60 (top + gain - loss) else top - loss
  let near := f = .sb && t.hasFe .sa && decide (((t.cfgCentre .sb : Int) - t.cfgCentre .sa).natAbs < 6400000)
  badIf (near || !(List.range (t.channels f)).any (t.chanMeets f)) 0 ++ badIf (decide (f = .h) != decide (t.raster f = 5)) 4 ++
    badIf (decide (t.pMax f > cap)) 8 ++ badIf (decide (t.pMin f < low - loss)) 9 ++ (if ext then curveBad p else [])

/-- The mode needs a wider raster than the front end has (R85, Table 4.1). -/
def rasterShort (f : Fe) (raster m : Nat) : Bool :=
  match m with
  | 0 => decide (rasterHz raster < 100000)
  | 1 => decide (rasterHz raster < 200000)
  | 2 => decide (rasterHz raster < 400000)
  | 3 => decide (rasterHz raster < 5000000)
  | 5 => decide (rasterHz raster < if f = .h then 5000000 else 400000)
  | _ => decide (rasterHz raster < if f = .h then 5000000 else 200000)

/-- AIR_MODES (R47, R113, R388). -/
def crossModes (t : State) (f : Fe) : List Nat :=
  if !t.hasFe f then [0]
  else
    let joins := (t.worlds.filter fun w => bitOf (t.worldFes w) (feCode f)).isEmpty
    let resp := (if t.srcMode = 0 then 15 else 21) + 42
    badIf ((modesOf t f).any (rasterShort f (t.raster f))) 0 ++ badIf (!t.modeOn f (t.defaultMode f)) 10 ++
      badIf (t.defaultMode f == 6 && t.defaultRate f != 0) 11 ++ badIf (!t.modeOn f (t.beaconMode f)) 12 ++
      (modesOf t f).flatMap fun m =>
        badIf ((t.hasBeacon f && decide (t.txMaxPsdu f m < t.beaconLen f m)) || (!joins && decide (t.txMaxPsdu f m < resp + t.fcsOctets f m))) (14 + 2 * m)

/-- LANES (R47, R142). -/
def crossLanes (t : State) (p : Octets) : List Nat :=
  let e := fun (i : Nat) => leField p (2 * i) 2
  let on := fun (i : Nat) => bitOf (e i) 9
  let per := (List.range 48).flatMap fun i =>
    match feOf (e i / 128 % 4) with
    | some f =>
      badIf (on i && (!t.hasFe f || decide (e i % 128 ≥ t.channels f) || !bitOf (leField p 104 6) i ||
        (List.range i).any fun j => on j && e j % 512 == e i % 512)) (2 * i)
    | none => []
  let forced := t.diversity
  let used := feAll.filter fun f => (List.range 48).any fun i => on i && e i / 128 % 4 == feCode f
  per ++ badIf (forced != 0 && used.any fun f => !t.portFitted f (forced - 1)) 98

/-- MAC (R172): the share reserved for ACKs. -/
def crossMac (t : State) : List Nat :=
  let short := (List.range (subCount t.region)).any fun i =>
    let need := (feAll.filter fun f => t.sliceHolds f i).foldl (fun a f => max a (t.longestAck f)) 0
    decide (t.allowance i * t.ackReserve < need * 1000)
  badIf short 19

/-- BEACON (R172, Table 6.8). -/
def crossBeacon (t : State) (f : Fe) (p : Octets) : List Nat :=
  if !t.hasFe f then [0]
  else
    badIf (some (leField p 4 2) != t.routerId) 4 ++
      badIf (decide (t.beaconLen f (t.beaconMode f) > t.txMaxPsdu f (t.beaconMode f))) 7

/-- ALMANAC (R205). -/
def crossAlm (t : State) (p : Octets) : List Nat :=
  let e := fun (i : Nat) => sliceOct p (8 + 128 * i) 128
  (List.range (leField p 0 2)).flatMap fun i =>
    badIf (decide (0 < i) && decide (almId (e i) ≤ almId (e (i - 1)))) (8 + 128 * i) ++ badIf (!t.hasWorld (almWorld (e i))) (8 + 128 * i + 2) ++
      match almCross (e i) with
      | some o => [8 + 128 * i + o]
      | none => []

/-- Gate entries of a GATE_LIST record. -/
def gateEntries (p : Octets) : List (BitVec 64) := (List.range (leField p 0 2)).map fun i => BitVec.ofNat 64 (leField p (8 + 8 * i) 8)

/-- SCHEDULE (R230): every bulk mask names front ends whose lists open the world's bulk queues. -/
def crossSchedule (t : State) : List Nat :=
  let opens := fun (f : Fe) (w : Nat) => match t.cfg 0x0A (feCode f) with
    | some p => (gateEntries p).any fun e => geClass e == 4 && (geArg e == w || geArg e == 255)
    | none => false
  (List.range 8).flatMap fun w => badIf (feAll.any fun f => bitOf (t.bulkMask w) (feCode f) && (!t.hasFe f || !opens f w)) (8 + w)

/-- One gate entry against the one before it (R230). -/
def gateBad (t : State) (f : Fe) (l : List (BitVec 64)) (i : Nat) : Bool :=
  let e := l.getD i 0
  let early := decide (0 < i) && decide (geStart e < geStart (l.getD (i - 1) 0))
  let arg := geArg e
  early || (match geClass e with
    | 0 => ((l.take i).any fun d => geClass d == 0 && decide (geStart e < geEnd d) && decide (geStart d < geEnd e)) ||
        geStart e % phaseNs != 0 || !t.hasBeacon f || !t.chanMeets f (geChannel e)
    | 1 => decide (geStart e < arg * phaseNs) || decide (geEnd e > (arg + 1) * phaseNs)
    | 3 => !(decide (arg ≤ 63) || arg == 255)
    | 4 => (arg != 255 && !t.hasWorld arg) || !t.chanMeets f (geChannel e)
    | _ => false)

def crossGates (t : State) (f : Fe) (p : Octets) : List Nat :=
  if !t.hasFe f then [0]
  else
    let l := gateEntries p
    (List.range l.length).flatMap fun i => badIf (gateBad t f l i) (8 + 8 * i)

/-- World or mailbox of an account has its record (R257). -/
def acctServed (t : State) (a : Nat) : Bool :=
  if a < 16 then t.hasWorld (a % 8)
  else
    let q := queueOfAcct a
    if q ≤ 383 then t.hasWorld ((q - 320) / 8)
    else if q ≤ 387 then true
    else if q ≤ 403 then t.hasMbox ((q - 388) % 8)
    else if q ≤ 447 then true
    else t.hasWorld ((q - 448) / 8)

/-- QUEUE (R47, R247, R257). -/
def crossQueue (t : State) (p : Octets) : List Nat :=
  let res := fun (a : Nat) => leField p (32 + 12 * a) 4
  let lim := fun (a : Nat) => leField p (36 + 12 * a) 4
  let life := fun (a : Nat) => leField p (40 + 12 * a) 4
  let sum := (List.range 208).foldl (fun n a => n + res a) 0
  let pool := t.cfgN 0x0C 0 4 4 1048576
  badIf (decide (sum > pool)) 32 ++ (List.range 208).flatMap fun a =>
    let o := 32 + 12 * a
    let q := queueOfAcct a
    let rx := decide (16 ≤ a) && decide (384 ≤ q) && decide (q ≤ 386) && (match feOf (q - 384) with
      | some f => t.hasFe f
      | none => false)
    let need := if a < 16 then 0 else resMinimum t.recs a
    let pair := decide (1 ≤ a) && decide (a < 8) && t.hasWorld a && decide (res a + res (a + 8) < 64)
    badIf (decide (res a < need) || pair || (!acctServed t a && res a != 0)) o ++ badIf (rx && lim a != pool) (o + 4) ++
      badIf ((rx || (decide (16 ≤ a) && q == 387)) && life a != 0) (o + 8)

/-- RPL (R289). -/
def crossRpl (t : State) : List Nat :=
  (List.range 8).flatMap fun w =>
    if t.rplEnabled w then
      badIf (w == 0 || !t.hasWorld w || t.bulkMask w == 0) (8 + 16 * w) ++
        badIf ((List.range w).any fun v => t.rplEnabled v && t.rplInst v == t.rplInst w) (9 + 16 * w)
    else []

/-- CANOPY bounds of one front end (R325). -/
def canopyFeBad (t : State) (f : Fe) : List Nat :=
  let o := 72 + 16 * feCode f
  let r := rasterHz (t.raster f)
  let rng := if f = .h then (2412000000, 2471500000) else (413200000, 956800000)
  let c := t.cfgCentre f
  let out := fun (x : Nat) => decide (x < rng.1) || decide (x > rng.2) || ((x : Int) - c).natAbs % r != 0
  let clash := (feAll.filter fun g => decide (feCode g < feCode f) && t.hasFe g).any fun g =>
    (t.groupNumbers f).any fun n => (t.groupNumbers g).contains n
  badIf (out (t.sliceLo f) || decide (t.sliceLo f > c)) o ++ badIf (out (t.sliceHi f) || decide (t.sliceHi f < c)) (o + 4) ++
    badIf (clash || decide (t.groupBase f + t.groupCount f > 64)) (o + 9) ++
    badIf (t.hasBeacon f && decide (t.groupCount f > t.beaconMaxGroups f)) (o + 10)

/-- CANOPY (R325). -/
def crossCanopy (t : State) : List Nat :=
  let allowed := ((List.range 48).filter fun l => t.laneAllowed l).length
  badIf (decide (t.spareLanes > allowed)) 33 ++ (feAll.filter fun f => t.hasFe f).flatMap (canopyFeBad t) ++
    t.worlds.flatMap fun w =>
      let m := t.worldFes w
      badIf (m == 0 || feAll.any fun f => bitOf m (feCode f) && !t.hasFe f) (120 + 4 * w)

/-- WORLD (R47): prefixes and airtime shares. -/
def crossWorld (t : State) (w : Nat) : List Nat :=
  let before := t.worlds.filter fun v => decide (v < w)
  badIf (w != 0 && before.any fun v => v != 0 && t.meshPrefix v == t.meshPrefix w) 0 ++
    feAll.flatMap fun f => badIf (decide ((before ++ [w]).foldl (fun n v => n + t.airShare v f) 0 > 1000)) (8 + 2 * feCode f)

/-- MAILBOX (R47, R452). -/
def crossMbox (t : State) (m : Nat) (p : Octets) : List Nat :=
  let w := leField p 0 1
  let fl := leField p 1 1
  let port := leField p 2 2
  badIf (!t.hasWorld w) 0 ++
    badIf ((m != 0 && !bitOf fl 0) || (bitOf fl 1 && !bitOf fl 0) || (bitOf fl 2 && (w != 0 || (t.hw.mboxKeys.get m).isNone))) 1 ++
    badIf (m != 0 && (List.range m).any fun j => j != 0 && t.hasMbox j && t.cfgN 0x12 j 2 2 0 == port) 2

/-- KEY_WRAPPED (R47, R341). -/
def crossKey (t : State) (i : Nat) (p : Octets) : List Nat :=
  let w := leField p 0 1
  let use := leField p 1 1
  let fb := leField p 2 1
  badIf (slotWorld i != some w || !t.hasWorld w) 0 ++ badIf (use &&& (if i ≥ 40 then 0x7E else 0x77) != 0) 1 ++
    badIf (fb != 0xFF && (fb == i || !decide (40 + 16 * w ≤ fb) || !decide (fb ≤ 55 + 16 * w))) 2

/-- LINK_SECURITY (R388). -/
def crossLink (t : State) (p : Octets) : List Nat :=
  (List.range 8).flatMap fun w => badIf (bitOf (leField p (18 + 4 * w) 1) 0 && !t.hasWorld w) (18 + 4 * w)

/-- BACKHAUL (R420). -/
def crossBack (t : State) (p : Octets) : List Nat :=
  let b := fun (o : Nat) => leField p o 1
  let sg := b 0 == 0 || b 1 == 0
  let lat := fun (o : Nat) => decide (leField p o 2 + leField p (o + 2) 2 > 65535)
  let vlan := fun (w : Nat) => leField p (80 + 2 * w) 2
  badIf (bitOf (b 2) 3 && !sg) 2 ++ badIf (b 0 == 0 && b 12 == 0xFF) 12 ++ badIf ((b 1 == 0 && b 13 == 0xFF) || (b 12 != 0xFF && b 12 == b 13)) 13 ++
    badIf (decide (leField p 50 2 ≤ leField p 48 2)) 50 ++ badIf ((b 54 == 0 && !(b 0 == 2 && b 1 == 2)) || (b 54 == 2 && !sg)) 54 ++
    badIf (bitOf t.ptpPorts 0 && lat 64) 64 ++ badIf (bitOf t.ptpPorts 1 && lat 68) 68 ++
    (List.range 8).flatMap fun w =>
      badIf ((!t.hasWorld w && vlan w != 0) || (bitOf (vlan w) 15 &&
        (List.range w).any fun v => bitOf (vlan v) 15 && vlan v % 4096 == vlan w % 4096)) (80 + 2 * w) ++
      badIf (t.hasWorld w != (b (96 + w) != 0)) (96 + w)

/-- THERMAL (R505). -/
def crossThermal (p : Octets) : List Nat :=
  let b := fun (o : Nat) => leField p o 1
  badIf (decide (b 1 + 5 > b 0)) 1 ++ badIf (decide (b 2 ≤ b 0)) 2 ++ badIf (decide (b 3 + 5 > b 2)) 3

/-- Offsets at which check 13 fails in one record. -/
def crossRec (t : State) (r : CfgRec) : List Nat :=
  let f := (feOf r.inst).getD .sa
  match r.typ with
  | 0x01 => crossRegion r.payload
  | 0x02 => crossRadio t f r.payload
  | 0x03 => crossModes t f
  | 0x04 => crossLanes t r.payload
  | 0x05 => crossMac t
  | 0x06 => crossBeacon t f r.payload
  | 0x08 => crossAlm t r.payload
  | 0x09 => crossSchedule t
  | 0x0A => crossGates t f r.payload
  | 0x0D => crossQueue t r.payload
  | 0x0F => crossRpl t
  | 0x10 => crossCanopy t
  | 0x11 => crossWorld t r.inst
  | 0x12 => crossMbox t r.inst r.payload
  | 0x13 => crossKey t r.inst r.payload
  | 0x14 => crossLink t r.payload
  | 0x15 => crossBack t r.payload
  | 0x17 => crossThermal r.payload
  | _ => []

/-- No mailbox other than M0 is bound to W0 (R452). -/
def noW0Mbox (t : State) : Bool := !((List.range 7).any fun i => t.hasMbox (i + 1) && t.mboxWorld (i + 1) == 0)

/-- A record after those that come before it in the order of R40. -/
def insertRec (x : CfgRec × Bool) : List (CfgRec × Bool) → List (CfgRec × Bool)
  | [] => [x]
  | y :: t => if y.1.typ < x.1.typ ∨ (y.1.typ = x.1.typ ∧ y.1.inst < x.1.inst) then y :: insertRec x t else x :: y :: t

/-- The records of the image, and the absent ones whose defaults check 13 tests (R47, R85, R113): AIR_MODES of a front end, CANOPY. -/
def withAbsent (t : State) : List (CfgRec × Bool) :=
  let lacks := fun (typ inst : Nat) => (t.cfg typ inst).isNone
  let blank := fun (typ inst : Nat) => (({ typ := typ, inst := inst, rflags := 0, payload := [] } : CfgRec), false)
  let modes := (feAll.filter fun f => t.hasFe f && lacks 0x03 (feCode f)).map fun f => blank 0x03 (feCode f)
  let canopy := if lacks 0x10 0 then [blank 0x10 0] else []
  (modes ++ canopy).foldl (fun l x => insertRec x l) (t.recs.map fun r => (r, true))

/-- Check 13: the first record, in the order of the image, in which a test fails. -/
def badCross (t : State) : Option ImgFail :=
  let first := (withAbsent t).findSome? fun r => (leastOff (crossRec t r.1)).map fun o =>
    ({ reason := 0x0D, typ := r.1.typ, inst := r.1.inst, off := if r.2 then o else 0 } : ImgFail)
  if noW0Mbox t then
    match first with
    | some x => if x.typ < 0x12 then some x else some { reason := 0x0D, typ := 0x12 }
    | none => some { reason := 0x0D, typ := 0x12 }
  else first

/-! ## Check 14 (R43) -/

/-- The wrapped key a record carries. -/
def wrappedKey (r : CfgRec) : Octets := if r.typ = 0x13 then sliceOct r.payload 16 24 else sliceOct r.payload 48 40

def badKeys (s : State) (l : List CfgRec) : Bool := l.any fun r => holdsKey r && (s.unwrapBy 6 (wrappedKey r)).isNone

/-! ## The whole image (R41, R42) -/

def failOf (n : Nat) : Except ImgFail Image := .error { reason := n }

/-- K_cfg_mac of the part applied to octets. -/
def State.cfgMac (s : State) (o : Octets) : Octets := natOcts (cmac (s.slot 5).octets (octNats o))

/-- Checks 1 to 6, on the 64-octet header; device_eui64 is little-endian as every field of Table 2.8 is (log entry 42). -/
def State.checkHeader64 (s : State) (h : Octets) : Nat :=
  let id := match s.hw.kcfg with
    | some k => k.2
    | none => []
  let eui := leField h 32 8
  if leField h 0 4 ≠ 0x46435045 then 1
  else if leField h 4 2 ≠ 1 ∨ leField h 16 4 % 8 ≠ 0 ∨ leField h 16 4 > bodyMax then 2
  else if !s.kcfgHeld || sliceOct h 24 8 ≠ id || s.cfgMac (h.take 48) ≠ sliceOct h 48 16 then 3
  else if leField h 6 2 ≠ s.partCode then 4
  else if leField h 8 4 < s.hw.floor.toNat then 5
  else if eui ≠ s.id.eui64.toNat ∧ eui ≠ 2 ^ 64 - 1 then 6
  else 0

/-- Checks 8 to 14, on the records of an authentic image. -/
def State.checkRecs (s : State) (img : Image) (raw : List RawRec × BodyEnd) (count : Nat) : Except ImgFail Image :=
  let recs := raw.1.map fun x => x.r
  match badForms none raw.1 raw.2 with
  | some f => .error f
  | none =>
    if recs.length ≠ count ∨ img.flags.toNat ≥ 4 ∨ bitOf img.flags.toNat 1 ≠ recs.any holdsKey then failOf 8
    else match badCritical recs with
      | some f => .error f
      | none =>
        let img := { img with recs := recs }
        let t := { s with life := { s.life with image := some img } }
        if missing recs then failOf 0x0A
        else match badRanges recs with
          | some f => .error f
          | none => match (if s.full then none else recs.findSome? fun r => (badVariant r).map fun o =>
              ({ reason := 0x0C, typ := r.typ, inst := r.inst, off := o } : ImgFail)) with
            | some f => .error f
            | none => match badCross t with
              | some f => .error f
              | none => if badKeys s recs then failOf 0x0E else .ok img

/-- The check of configuration slot i. -/
def State.checkSlot (s : State) (i : Nat) : Except ImgFail Image :=
  let a := cfgSlotBase i
  let h := flashRange s.flash a 64
  let n := s.checkHeader64 h
  if n ≠ 0 then failOf n
  else
    let len := leField h 16 4
    let body := flashRange s.flash (a + 64) len
    let mac := flashRange s.flash (a + 64 + len) 16
    if s.cfgMac (h ++ body) ≠ mac then failOf 7
    else s.checkRecs { version := BitVec.ofNat 32 (leField h 8 4), flags := BitVec.ofNat 32 (leField h 12 4), mac := mac, recs := [] }
      (parseBody (len / 8) body) (leField h 20 4)

end Sys2Proof.Machine
end

