-- ==== Sys2Proof/Machine/LifeOps.lean ====
section
/-! DEFINITION. What start-up, update and life cycle share: the directory (R35 to R37), the check of a firmware image (R476 to R480), writes of
the boot flash (R439), SECURITY-ERROR (R349), zeroisation (R355 to R358), the self-tests (R34, R345) and the state a reset leaves. -/

namespace Sys2Proof.Machine

/-! ## The directory -/

/-- A directory record (Table 2.7). -/
structure DirRec where
  seq : BitVec 32
  fw : Nat
  cfg : Nat
  fwTrial : Bool
  cfgTrial : Bool
  deriving DecidableEq, Repr

def dirBase (i : Nat) : Nat := if i = 0 then 0 else 0x10000

/-- The first 28 octets of a record. -/
def DirRec.body (d : DirRec) : Octets :=
  toLe 4 0x52494445 ++ toLe 4 d.seq.toNat ++ toLe 1 d.fw ++ toLe 1 d.cfg ++ toLe 1 (if d.fwTrial then 1 else 0) ++
    toLe 1 (if d.cfgTrial then 1 else 0) ++ List.replicate 16 0

def DirRec.octets (d : DirRec) : Octets := d.body ++ toLe 4 (crc32 (octNats d.body))

/-- The valid record of a sector (R36). -/
def dirRead (m : List Host.Cell) (i : Nat) : Option DirRec :=
  let o := flashRange m (dirBase i) 32
  let b := fun (k : Nat) => leField o k 1
  if leField o 0 4 = 0x52494445 ∧ leField o 28 4 = crc32 (octNats (o.take 28)) ∧ b 8 ≤ 1 ∧ b 9 ≤ 1 ∧ b 10 ≤ 1 ∧ b 11 ≤ 1 ∧ allZero (sliceOct o 12 16) then
    some { seq := BitVec.ofNat 32 (leField o 4 4), fw := b 8, cfg := b 9, fwTrial := b 10 = 1, cfgTrial := b 11 = 1 }
  else none

/-- The sector and the record chosen (R36). -/
def dirChoose (m : List Host.Cell) : Option (Nat × DirRec) :=
  match dirRead m 0, dirRead m 1 with
  | some a, some b => let d := (b.seq - a.seq).toNat
    if 1 ≤ d ∧ d ≤ 2 ^ 31 - 1 then some (1, b) else some (0, a)
  | some a, none => some (0, a)
  | none, some b => some (1, b)
  | none, none => none

/-- The record in force, or slots 0 first where neither is valid. -/
def State.dir (s : State) : DirRec :=
  match dirChoose s.flash with
  | some p => p.2
  | none => { seq := 0, fw := 0, cfg := 0, fwTrial := false, cfgTrial := false }

/-- Writes a directory record into the sector that does not hold the chosen one, with the next sequence (R37). -/
def State.writeDir (s : State) (f : DirRec → DirRec) : State :=
  let sector := match dirChoose s.flash with
    | some p => 1 - p.1
    | none => 0
  let d := { f s.dir with seq := s.dir.seq + 1 }
  { s with flash := flashProgram (flashErase s.flash (dirBase sector) 0x10000) (dirBase sector) d.octets }

/-- A directory write that passes its greatest time leaves the sector invalid and the record before in force (Table 18.5, R37). -/
def State.failDir (s : State) : State :=
  let sector := match dirChoose s.flash with
    | some p => 1 - p.1
    | none => 0
  { s with flash := flashErase s.flash (dirBase sector) 0x10000 }

/-! ## Writes of slots (R439) -/

/-- What the octets of a region hold after an operation the device did not complete: an octet once programmed may hold anything. -/
def State.scramble (s : State) (a n : Nat) : State :=
  let l := s.flash.zip (List.range s.flash.length)
  let m := l.filterMap fun p =>
    let c : Host.Cell := p.1
    if a ≤ c.1 ∧ c.1 < a + n then (let b := Config.flashBad (s.rnd + p.2); if b = 0xFF then none else some (c.1, b)) else some c
  { s with flash := m, rnd := s.rnd + l.length }

/-- Octets of a write that the device did not complete: each may hold anything. -/
def State.badWrite (s : State) (a : Nat) : Nat → State
  | 0 => s
  | n + 1 => ({ s with flash := flashPut s.flash a (Config.flashBad s.rnd), rnd := s.rnd + 1 }).badWrite (a + 1) n

/-- Writes `data` at `off` of a slot; the read-back agrees. -/
def State.writeSlot (s : State) (base size off : Nat) (data : Octets) (late : Bool) : Bool × State :=
  let a := base + off
  if late then (false, (if off = 0 then s.scramble base size else s).badWrite a data.length)
  else
    let m := flashProgram (if off = 0 then flashErase s.flash base size else s.flash) a data
    (flashRange m a data.length == data, { s with flash := m })

/-! ## Firmware images (Tables 17.1 and 17.2) -/

def fwBodyMax : Nat := 8380416

/-- Checks 1 to 7, on the 8 192 octets of a header; 0: passed. -/
def State.fwHeaderCode (s : State) (h : Octets) : Nat :=
  let f := fun (off len : Nat) => leField h off len
  let len := f 16 4
  let chunks := f 20 2
  let key := f 22 1
  if f 0 4 ≠ 0x4D575045 then 1
  else if f 4 2 ≠ 1 ∨ len = 0 ∨ len > fwBodyMax ∨ chunks ≠ ceilDiv len 65536 ∨ !allZero (sliceOct h (128 + 32 * chunks) (32 * (128 - chunks))) ∨
      f 6 2 ≥ 4 ∨ f 23 1 ≥ 2 ∨ !allZero (sliceOct h 40 88) then 2
  else if !bitOf (f 6 2) (if s.full then 0 else 1) then 3
  else if f 24 4 > s.id.romVersion.toNat ∨ key > 1 then 4
  else if f 12 4 < s.hw.rollback.toNat then 5
  else if !lmsVerify (octNats (if key = 0 then s.id.romKey0 else s.id.romKey1)) (octNats (sliceOct h 4224 2668)) (octNats (h.take 4224)) then 6
  else if !allZero (sliceOct h 6892 1300) then 2
  else 0

/-- Chunk k of an image in slot i verifies (R478). -/
def State.chunkOk (s : State) (i : Nat) (h : Octets) (k : Nat) : Bool :=
  let len := leField h 16 4
  let n := min 65536 (len - 65536 * k)
  octNats (sliceOct h (128 + 32 * k) 32) == sha256 (octNats (flashRange s.flash (fwSlotBase i + 8192 + 65536 * k) n))

/-- The first chunk that does not verify. -/
def State.badChunk (s : State) (i : Nat) (h : Octets) : Option Nat := (List.range (leField h 20 2)).find? fun k => !s.chunkOk i h k

/-- FW-SLOT-CHECK of slot i: result and detail (R479). -/
def State.checkFw (s : State) (i : Nat) : Nat × Nat :=
  let h := flashRange s.flash (fwSlotBase i) 8192
  let c := s.fwHeaderCode h
  if c ≠ 0 then (c, 0)
  else match s.badChunk i h with
    | some k => (8, k)
    | none => (0, 0)

/-- The firmware of slot i becomes the running firmware. -/
def State.runFw (s : State) (i : Nat) : State :=
  let h := flashRange s.flash (fwSlotBase i) 4224
  { s with life := { s.life with fwSlot := some i, fwHeader := h, fwVersion := BitVec.ofNat 32 (leField h 8 4) } }

/-- The anti-rollback value is raised to the running image's where RAISE_ROLLBACK is set (R480). -/
def State.raiseRollback (s : State) : State :=
  let v := BitVec.ofNat 32 (leField s.life.fwHeader 12 4)
  if bitOf (leField s.life.fwHeader 23 1) 0 && decide (s.hw.rollback.toNat < v.toNat) then
    { s.lineWrite 0x2000 with hw := { (s.lineWrite 0x2000).hw with rollback := v } }
  else s

/-- The configuration floor is raised to the applied image's version where RAISE_FLOOR is set (R44). -/
def State.raiseFloor (s : State) : State :=
  match s.life.image with
  | some i =>
    if bitOf i.flags.toNat 0 && decide (s.hw.floor.toNat < i.version.toNat) then
      { s.lineWrite 0x2000 with hw := { (s.lineWrite 0x2000).hw with floor := i.version } }
    else s
  | none => s

/-- Counts once, in Heartwood's Tally as well, where a reset follows (R352, Table 17.4). -/
def State.countKept (s : State) (c : Ctr) (sc : Scope) : State :=
  let t := s.count c sc
  { t with hw := { t.hw with tally := Tally.add t.hw.tally { ctr := c, scope := sc } 1 } }

/-! ## What a reset leaves -/

/-- Every domain but AON loses its state: what fuses, flash, AON and Heartwood hold stays (R31). -/
def State.powerClear (s : State) : State :=
  { State.reset with
    clk := s.clk, rnd := s.rnd, id := s.id, pins := { s.pins with m0Busy := false }, flash := s.flash, rtc := s.rtc, hw := s.hw, pending := s.pending, parting := s.parting
    life := {
      lcs := s.life.lcs, provSlot := s.life.provSlot, firstOperate := s.life.firstOperate, restartCause := s.life.restartCause
      secCause := s.life.secCause, secSensor := s.life.secSensor, secEntry := s.life.secEntry, jtagDrives := s.life.jtagDrives, idReg := s.life.idReg }
    crypto := { tamperB := s.crypto.tamperB }, isl := { tj := s.isl.tj } }

/-- The part stands in a mode in which nothing runs. -/
def State.holdIn (s : State) (m : Mode) : State := { s.powerClear with life := { s.powerClear.life with mode := m } }

/-- The messages in Q396 to Q403 are sent: what a command that ends in a restart or in zeroisation does first (R436, R438). -/
def State.sendLast (s : State) : State :=
  { s with parting := (List.range 8).flatMap fun m => (s.order (orderKey (396 + m) 0)).filterMap fun p => match p.content with
      | .message g _ => some (m, g)
      | _ => none }

/-- The part is held in reset for a restart of its own accord: the cause is written first (R471). -/
def State.restartBy (s : State) (cause : Nat) : State :=
  let t := s.holdIn .reset
  { t with life := { t.life with restartCause := BitVec.ofNat 8 cause } }

/-! ## SECURITY-ERROR (R349, R350) -/

/-- Orders and cells of Q388 and Q396 alone: M0 goes on serving. -/
def Queues.onlyM0 (q : Queues) : Queues :=
  let keep : Tbl Nat := q.used.filter fun p => p.1 == 84 || p.1 == 92
  let orders : Tbl (List Packet) := q.orders.filter fun p => p.1 == 4 * 388 || p.1 == 4 * 396
  { used := keep, orders := orders, sharedUsed := keep.foldl (fun n p => n + excess p.2 16) 0 }

/-- M0 stands open in W0. -/
def State.openM0 (s : State) : State := s.setMb 0 { s.mb 0 with isOpen := true, world := 0 }

/-- Every slot erased; contexts, DRBG state and root register cleared; units and KDF engine halted (step 1 of R349 and of Table 12.12). -/
def State.haltCrypto (s : State) : State :=
  let s := s.eraseSlots s.readySlots
  { s with crypto := { s.crypto with
    rootReg := none, ctxs := [], cacheUse := [], cacheNode := [], drbgOn := false, unitJob := [], waiting := [], jobMem := [] } }

/-- Enters SECURITY-ERROR: the four acts of R349. -/
def State.secError (s : State) (cause sensor : Nat) : State :=
  let s := s.haltCrypto
  let s := feAll.foldl State.feOff s
  let s := { s with back := {}, queues := s.queues.onlyM0, held := [] }
  let s := { s with mbox := s.mbox.filter fun p => p.1 == 0 }.openM0
  { s with life := { s.life with
    mode := .secError, radioOn := false, approved := false, pause := none, image := none, secCause := BitVec.ofNat 8 cause
    secSensor := BitVec.ofNat 8 sensor, secEntry := s.time.sec } }

/-! ## Zeroisation (Table 12.12) -/

/-- Causes as ZEROISED carries them, in the order of R355 (log entry 44). -/
def ZeroCause.code : ZeroCause → Nat
  | .command => 0
  | .pin => 1
  | .tamperA _ => 2
  | .retire => 3

/-- Steps 1 and 2: keys erased, every domain but AON, CORE, SEC and HEARTWOOD down, the count advanced with the flag set. -/
def State.zeroise (s : State) (c : ZeroCause) : State :=
  let k := s.haltCrypto.crypto
  let t := (s.holdIn .zeroising).lineWrite 0x2000
  { t with
    life := { t.life with approved := s.life.approved, selfTestsPassed := s.life.selfTestsPassed }
    pins := { t.pins with zeroiseLatch := false }, crypto := { k with zeroising := some c }
    hw := { t.hw with zeroCount := t.hw.zeroCount + 1, zeroFlag := true, zeroised := some c.code } }

/-- A node-key record without its key. -/
def NodeKeyRec.blank (r : NodeKeyRec) : NodeKeyRec := { r with wrapped := List.replicate 24 0, sec := r.sec &&& 0xF7FF }

/-- Steps 3 and 4: what holds wrapped keys is overwritten, the flag cleared; ZEROISED, journalled with its cause, waits for delivery. -/
def State.zeroEnd (s : State) : State :=
  { s with hw := { s.hw with
    kcfg := none, mboxKeys := [], lastKeys := [], worldKeys := [], nodeKeys := s.hw.nodeKeys.map fun p => (p.1, p.2.blank)
    zeroFlag := false } }

/-! ## Self-tests (Tables 2.4 and 12.8) -/

/-- A cipher unit is mapped out: told, logged, and left to Canopy's next round (R345, R363, R500, Table 11.3). -/
def State.mapOutUnit (s : State) (u : Nat) : State :=
  let s := { s with crypto := { s.crypto with unitOut := s.crypto.unitOut.set u true }
                    canopy := { s.canopy with cipherOrder := s.canopy.cipherOrder.filter (· != u) } }
  let s := (s.count .cipherUnitMappedOut (.unit (4 + u))).count .unitMappedOut (.kind 1)
  ((s.raise 0x1202 none (toBe 1 1 ++ toBe 1 u ++ toBe 1 2)).canLog 0x10 1 0xFF 2 (0x300 + u) 1 0 0).owe 1

/-- The known-answer test of each unit (test 3); a unit that fails is mapped out. -/
def State.unitTests (s : State) (ok : List Bool) : State :=
  (List.range 4).foldl (fun s u => if s.crypto.unitOut.getD u false || ok.getD u true then s else s.mapOutUnit u) s

/-- No cipher unit serves. -/
def State.noUnit (s : State) : Bool := s.crypto.unitOut.all fun o => o

/-- An entropy collection, repeated once (R342): whether one passed. -/
def State.collect (s : State) (first second : Bool) : Bool × State :=
  if first then (true, s)
  else if second then (true, s.count .entropyHealthFail .device)
  else (false, (s.count .entropyHealthFail .device).count .entropyHealthFail .device)

/-- Tests 2 to 9 in order: the code of Table 12.10 of the failure, 0 for none. -/
def State.tests2to9 (s : State) (r : TestEnv) : Nat × State :=
  let c := s.collect r.entropy1 r.entropy2
  if !c.1 then (2, c.2)
  else
    let t := c.2.unitTests r.unitOk
    if t.noUnit then (3, t)
    else match r.firstFail with
      | some k => (4 + k.val, t)
      | none => (0, t)

/-- Test 1 (R328): a block that needed more than 16 corrections is reported once the test has passed. -/
def State.pufTest (s : State) (l : List Nat) : State :=
  let m := l.foldl max 0
  if m > 16 then
    ({ s with life := { s.life with pufMargin := true } }.count .pufMarginal .device).raise 0x0C01 none (toBe 1 m)
  else s

/-- The root from the information bits of the four blocks (R328). -/
def rootOf (secret : Octets) : BitVec 256 := BitVec.ofNat 256 (natOfBe (sha256 (1 :: octNats (ascii "EPNOR-ROOT") ++ octNats (padTo 58 secret))))

/-- The check value of a root (Table 12.1). -/
def rootCheck (root : BitVec 256) : BitVec 128 :=
  BitVec.ofNat 128 (natOfBe ((sha256 (2 :: octNats (ascii "EPNOR-PUF-CHK") ++ beOfNat 32 root.toNat)).take 16))

/-- Test 1 of Table 2.4: every block decodes and the helper data's check value matches; the root. -/
def State.pufRoot (s : State) (r : TestEnv) : Option (BitVec 256) :=
  (r.puf.map fun p => rootOf p.secret).filter fun k => rootCheck k == s.id.helper.check

/-- All the tests of Table 2.4 that the part repeats: code of the failure, 0 for none. -/
def State.allTests (s : State) (r : TestEnv) : Nat × State :=
  match s.pufRoot r with
  | none => (1, s)
  | some _ => (s.pufTest ((r.puf.map fun p => p.corrections).getD [])).tests2to9 r

/-- Steps 3 and 4 of Table 2.3: root, self-tests, start keys; the code of the failure. -/
def State.coldTests (s : State) (r : TestEnv) : Nat × State :=
  let s := { s with crypto := { s.crypto with rootReg := s.pufRoot r } }
  let q := s.allTests r
  if q.1 ≠ 0 then (q.1, { q.2 with crypto := { q.2.crypto with rootReg := none } })
  else
    let d := q.2.deriveStart.draw
    let t := d.2
    (0, { t with life := { t.life with approved := true, selfTestsPassed := true }
                 crypto := { t.crypto with
                   startTag := d.1.setWidth 32, drbgOn := true, drbgClk := t.clk, drbgReqs := 0, hwGenClk := t.clk, selfTestClk := t.clk } })

end Sys2Proof.Machine
end

