-- ==== Sys2Proof/Machine/Jobs.lean ====
section
/-! DEFINITION. Block jobs of the cipher engine (R333, R360 to R364). -/

namespace Sys2Proof.Machine

/-! ## The job word (Table 13.1) -/

def jobF (w : Word) (lo n : Nat) : Nat := (w.toNat >>> lo) % 2 ^ n
def jobSlot (w : Word) : Nat := jobF w 0 8
def jobGen (w : Word) : Nat := jobF w 8 16
def jobPrev (w : Word) : Bool := bitOf w.toNat 24
def jobInverse (w : Word) : Bool := bitOf w.toNat 25
def jobWorld (w : Word) : Nat := jobF w 26 3
def jobDevice (w : Word) : Bool := bitOf w.toNat 29
def jobPad (w : Word) : Nat := jobF w 30 2
def jobLength (w : Word) : Nat := if jobF w 32 12 = 0 then 4096 else jobF w 32 12
def jobCtx (w : Word) : Nat := jobF w 44 8
def jobSrc (w : Word) : Nat := jobF w 64 12
def jobDst (w : Word) : Nat := jobF w 76 12

/-- The word as posted: reserved fields zero, no status yet. -/
def jobClean (w : Word) : Word := BitVec.ofNat 128 (jobF w 0 52 + jobF w 64 32 * 2 ^ 64)

/-- The word as returned, with its status (Table 13.3). -/
def jobReturned (w : Word) (status : Nat) : Word := BitVec.ofNat 128 (jobF w 0 96 + status * 2 ^ 96)

/-- The padded input (Table 13.2); `none`: length and pad mode do not agree. -/
def jobPadded (pad : Nat) (o : Octets) : Option Octets :=
  let full := ceilDiv o.length 16 * 16
  match pad with
  | 0 => if o.length % 16 = 0 then some o else none
  | 1 => some (padTo full o)
  | 2 => some (padTo (o.length / 16 * 16 + 16) (o ++ [0x80]))
  | _ => none

/-! ## Job memory (R360): octet 0 of a block in bits [7:0] of its word (log entry 53) -/

def wordOctets (w : Word) : Octets := toLe 16 w.toNat

def octetsWord (o : Octets) : Word := BitVec.ofNat 128 (leNat o)

/-- Writes octets at a word address; a word partly covered keeps its other octets.  A word of zeros is not listed. -/
def memPut (t : Tbl Word) (a : Nat) : List Octets → Tbl Word
  | [] => t
  | o :: r =>
    let k := a % 4096
    let w := octetsWord (o ++ (wordOctets (Tbl.getD t k 0)).drop o.length)
    memPut (if w = 0 then Tbl.erase t k else Tbl.set t k w) (a + 1) r

def State.jobPut (s : State) (a : Nat) (o : Octets) : State :=
  { s with crypto := { s.crypto with jobMem := memPut s.crypto.jobMem a (chunksOf 16 257 o) } }

/-- The `n` octets of input that lie at a word address. -/
def State.jobIn (s : State) (a n : Nat) : Octets :=
  ((List.range (ceilDiv n 16)).flatMap fun i => wordOctets (s.crypto.jobMem.getD ((a + i) % 4096) 0)).take n

/-! ## Refusals (R333, R337) -/

/-- The slot a job is carried out on; `none`: its previous-key flag has no fallback to take. -/
def State.jobTarget (s : State) (w : Word) : Option Nat :=
  let k := s.slot (jobSlot w)
  if !jobPrev w then some (jobSlot w)
  else if k.fbValid && (s.slot k.fallback.toNat).state == SlotState.ready then some k.fallback.toNat else none

/-- Usage bits whose operation takes the forward, or the inverse, cipher (log entry 54). -/
def dirBits (inverse : Bool) : BitVec 7 := if inverse then useInv ||| useUnwrap else useFwd ||| useMac ||| useWrap ||| useAttest

/-- The present life-cycle state's bit of a slot's lcs. -/
def State.lcsAllows (s : State) (k : KeySlot) : Bool :=
  match s.life.lcs with
  | .provision => bitOf k.lcs.toNat 0
  | .operate => bitOf k.lcs.toNat 1
  | .retired => false

/-- The job passes R333 on slot i.  A job with the previous-key flag is bound to the fallback's generation. -/
def State.jobAllowed (s : State) (w : Word) (i : Nat) : Bool :=
  let k := s.slot i
  k.state == .ready && (jobPrev w || k.gen.toNat == jobGen w) && (k.usage &&& dirBits (jobInverse w)) != 0 && s.lcsAllows k &&
    (if k.device then jobDevice w else k.world.toNat == jobWorld w)

/-! ## Ends -/

/-- A job's word is returned with its status. -/
def State.jobEnds (s : State) (w : Word) (status : Nat) : State :=
  { s with crypto := { s.crypto with returned := jobReturned w status :: s.crypto.returned.take 255 } }

/-- A job made stale before a unit took it never begins (R335). -/
def State.dropStale (s : State) : State :=
  let l := s.crypto.waiting.filter fun j => j.stale.isSome
  let s := { s with crypto := { s.crypto with waiting := s.crypto.waiting.filter fun j => j.stale.isNone } }
  l.foldl (fun s j => s.jobEnds j.word 1) s

/-! ## Units (R362) -/

/-- The idle unit standing first in the cipher order. -/
def State.idleUnit (s : State) : Option Nat :=
  s.canopy.cipherOrder.find? fun u => !s.crypto.unitOut.getD u true && (s.crypto.unitJob.get u).isNone

/-- Waiting jobs go to idle units, at most `n`. -/
def State.offer (s : State) : Nat → State
  | 0 => s
  | n + 1 => match s.crypto.waiting, s.idleUnit with
    | j :: t, some u =>
      State.offer { s with crypto := { s.crypto with waiting := t, unitJob := s.crypto.unitJob.set u { j with start := s.clk } } } n
    | _, _ => s

def State.offerJobs (s : State) : State := s.dropStale.offer 4

/-- A context as a job first names it: bound to the job's slot, generation and world; what else firmware put into it the manual does
not say (log entry 55). -/
def State.freshCtx (s : State) (c : Nat) (w : Word) (i : Nat) : State :=
  let v := fun (n : Nat) => Config.unstated (s.rnd + n)
  let x : Ctx := {
    slot := BitVec.ofNat 8 i, purpose := BitVec.ofNat 8 ((v 0).toNat % 4), gen := (s.slot i).gen, startTag := s.crypto.startTag
    world := BitVec.ofNat 8 (jobWorld w), flags := if jobDevice w then 1 else 0, done := (v 1).setWidth 32, x := v 2 ++ v 3, ctr := v 4 ++ v 5 }
  { s with rnd := s.rnd + 6, crypto := { s.crypto with ctxs := s.crypto.ctxs.set c x } }

/-- The context a job names stands for the job's slot and generation (R364). -/
def State.bindCtx (s : State) (w : Word) (i : Nat) : State :=
  match s.crypto.ctxs.get (jobCtx w) with
  | some x => if x.slot.toNat = i ∧ x.gen = (s.slot i).gen then s else s.freshCtx (jobCtx w) w i
  | none => s.freshCtx (jobCtx w) w i

/-! ## Posting -/

/-- A parity fault of the slot's attributes (Table 12.8): the job is refused and the slot erased; the third in 24 h is SECURITY-ERROR. -/
def State.slotFault (s : State) (w : Word) (i : Nat) : State :=
  let world := (s.slot i).world.toNat
  let l := s.clk :: s.crypto.slotFaults.filter fun k => decide (s.clk < k + secTicks 86400)
  let s := ((s.eraseSlot i).countBoth .keySlotFault world).jobEnds w 2
  let s := { s with crypto := { s.crypto with slotFaults := l } }
  if l.length ≥ 3 then s.secError 0x0A 0 else s

/-- Firmware posts a job with its input. -/
def State.postJob (s : State) (job : Word) (input : Octets) (parityOk : Bool) : State :=
  let w := jobClean job
  let n := jobLength w
  let s := s.jobPut (jobSrc w) (input.take n)
  let refused := fun (s : State) => (if jobDevice w then s.count .keyUseRefused .device else s.countBoth .keyUseRefused (jobWorld w)).jobEnds w 2
  match s.jobTarget w with
  | none => refused s
  | some i =>
    if !parityOk then s.slotFault w i
    else if !s.jobAllowed w i then refused s
    else match jobPadded (jobPad w) (s.jobIn (jobSrc w) n) with
      | none => s.jobEnds w 3
      | some o =>
        let k := s.slot i
        let f := fun (b : List Nat) => if jobInverse w then aesDec k.octets b else aesEnc k.octets b
        let j : CJob := {
          word := w, slot := i, gen := k.gen, long := k.len256, repeated := false
          output := natOcts ((chunksOf 16 257 (octNats o)).flatMap f), start := s.clk, stale := none }
        let s := s.bindCtx w i
        State.offerJobs { s with crypto := { s.crypto with waiting := s.crypto.waiting ++ [j] } }

/-- Firmware acts for the engine: not in a pause, nor where no firmware runs. -/
def State.jobsRun (s : State) : Bool :=
  (s.life.mode == .operate || s.life.mode == .noConfig || s.life.mode == .provision) && !s.inPause

/-- CIPHER_JOB_POST (R333, R334, R361, R362). -/
def execCipherJobPost (dt : Nat) (job : Word) (input : Octets) (parityOk : Bool) (s : State) : Host.Outcome State Fault Refusal :=
  .next (let t := s.tick dt
    if t.jobsRun then t.postJob job input parityOk else t)

/-! ## The end of a job (R335, R363) -/

/-- Ticks from a job's beginning to the write of its k-th block, the first being 1: 20 ns and 24 or 32 ns a block. -/
def blockTicks (long : Bool) (k : Nat) : Nat := 5 + (if long then 8 else 6) * k

/-- Blocks of a stale job written at or before the erase. -/
def CJob.written (j : CJob) (erased : Nat) : Nat :=
  ((List.range (j.output.length / 16)).filter fun k => decide (j.start + blockTicks j.long (k + 1) ≤ erased)).length

/-- A unit fault: the unit is mapped out, and its job repeated once on another (R363, R500). -/
def State.jobFault (s : State) (u : Nat) (j : CJob) : State :=
  let s := s.mapOutUnit u
  let s := { s with crypto := { s.crypto with unitJob := s.crypto.unitJob.erase u } }
  if s.noUnit then (s.jobEnds j.word 4).secError 3 0
  else if j.stale.isSome then (s.jobEnds j.word 1).offerJobs
  else if j.repeated then (s.jobEnds j.word 4).offerJobs
  else
    let s := s.count .cipherJobRepeated .device
    State.offerJobs { s with crypto := { s.crypto with waiting := { j with repeated := true } :: s.crypto.waiting } }

/-- The job of unit u ends. -/
def State.endJob (s : State) (u : Nat) (fault : Bool) : State :=
  match s.crypto.unitJob.get u with
  | none => s
  | some j =>
    if fault then s.jobFault u j
    else
      let n := match j.stale with
        | some e => 16 * j.written e
        | none => j.output.length
      let s := { s with crypto := { s.crypto with unitJob := s.crypto.unitJob.erase u } }
      ((s.jobPut (jobDst j.word) (j.output.take n)).jobEnds j.word (if j.stale.isSome then 1 else 0)).offerJobs

/-- CIPHER_JOB_END (R335, R363). -/
def execCipherJobEnd (dt : Nat) (u : Fin 4) (fault : Bool) (s : State) : Host.Outcome State Fault Refusal :=
  .next ((s.tick dt).endJob u.val fault)

end Sys2Proof.Machine
end

