-- ==== Sys2Proof/Machine/Restore.lean ====
section
/-! DEFINITION. What a start, and a configuration activation, restore or replace: mailbox and world keys (R339, R449), the Almanac (R203),
duty-cycle bins (R148), the index and the node records (R278, R470), Canopy's placement clamped to the image (R322, R50). -/

namespace Sys2Proof.Machine

/-! ## Mailboxes (R421, R426, R427) -/

/-- Opens mailbox m in a world, with its window and its own seq as Heartwood holds them. -/
def State.openMbox (s : State) (m world : Nat) (addr : BitVec 128) (port : BitVec 16) : State :=
  let c := s.hw.seqCeil.getD m 0
  s.setMb m {
    isOpen := true, world := world, high := s.hw.replayHigh.getD m 0, bitmap := s.hw.replayMap.getD m 0
    seq := if c = 0 then 1 else c, ceiling := c, subAddr := addr, subPort := port }

/-- The replay window of a mailbox whose key has changed begins again (R426). -/
def State.freshWindow (s : State) (m : Nat) : State :=
  let s := { s with hw := { s.hw with replayHigh := s.hw.replayHigh.erase m, replayMap := s.hw.replayMap.erase m } }
  s.setMb m { s.mb m with high := 0, bitmap := 0 }

/-- Takes a mailbox key into use: derives its three slots, and begins a fresh window where the key is not the one last used. -/
def State.useMboxKey (s : State) (m world : Nat) (key : List Nat) : State :=
  let old := match s.hw.lastKeys.get m with
    | some o => s.unwrapBy 1 o
    | none => none
  let s := if old = some key then s else
    let t := s.freshWindow m
    { t with hw := { t.hw with lastKeys := t.hw.lastKeys.set m (t.wrapHw key) } }
  s.deriveMbox m world key

/-- The key MBOX-KEY-INSTALL left for a mailbox. -/
def State.installedKey (s : State) (m : Nat) : Option (List Nat) :=
  match s.hw.mboxKeys.get m with
  | some o => s.unwrapBy 1 o
  | none => none

/-- The key of mailbox m under the applied image: of its record, or of MBOX-KEY-INSTALL where flags bit 2 is set. -/
def State.imageMboxKey (s : State) (m : Nat) : Option (List Nat) :=
  let fl := s.mboxFlags m
  if !bitOf fl 0 then none
  else if bitOf fl 2 then s.installedKey m
  else s.unwrapBy 6 (s.cfgO 0x12 m 48 40)

/-- Opens the mailboxes of the applied image. -/
def State.openMboxes (s : State) : State :=
  let one := fun (s : State) (m : Nat) =>
    if m != 0 && !s.hasMbox m then s
    else
      let w := s.mboxWorld m
      let s := s.openMbox m w (BitVec.ofNat 128 (beNat (s.cfgO 0x12 m 24 16))) (BitVec.ofNat 16 (s.cfgN 0x12 m 40 2 0))
      match s.imageMboxKey m with
      | some k => s.useMboxKey m w k
      | none => s
  (List.range 8).foldl one s

/-- Opens M0, and M1 where it serves, without an image (R51). -/
def State.openBare (s : State) : State :=
  let one := fun (s : State) (m : Nat) => match s.installedKey m with
    | some k => (s.openMbox m 0 0 0).useMboxKey m 0 k
    | none => if m = 0 then s.openMbox 0 0 0 0 else s
  one (one s 0) 1

/-! ## World keys (R334, R338, R339) -/

/-- The keys of KEY_WRAPPED records are loaded. -/
def State.loadImageKeys (s : State) : State :=
  s.recs.foldl (fun s r =>
    if r.typ ≠ 0x13 then s
    else match s.unwrapBy 6 (wrappedKey r) with
      | some k => s.loadWorldKey r.inst
          (worldKeySlot (leField r.payload 0 1) (BitVec.ofNat 7 (leField r.payload 1 1)) (BitVec.ofNat 64 (leField r.payload 8 8))
            (BitVec.ofNat 8 (leField r.payload 2 1)) k)
      | none => s) s

/-- The journalled keys stand over the image's. -/
def State.loadKeptKeys (s : State) : State :=
  s.hw.worldKeys.foldl (fun s p =>
    let w := (slotWorld p.1).getD 0
    match s.unwrapBy 1 p.2.wrapped with
    | some k => s.loadWorldKey p.1 (worldKeySlot w p.2.usage p.2.keyId p.2.fallback k)
    | none => s.countBoth .keyUnwrapFail w) s

/-- Fallbacks are looked at again once every key is loaded. -/
def State.fixFallbacks (s : State) : State := ((List.range 128).map fun i => 40 + i).foldl (fun s i => if (s.slot i).state = .ready then s.fixFallback i else s) s

/-- World keys at a start or an activation; `same`: the config_version is the one last applied. -/
def State.loadKeys (s : State) (same : Bool) : State :=
  let s := if same then s else { s with hw := { s.hw with worldKeys := [] } }
  (s.loadImageKeys.loadKeptKeys).fixFallbacks

/-! ## The Almanac (R203) -/

/-- The entries of an image replace the kept ones; an identical entry keeps its last_fired and fate. -/
def State.replaceAlmanac (s : State) : State :=
  match s.cfg 0x08 0 with
  | none => s
  | some p =>
    let l : Tbl AlmEntry := (List.range (leField p 0 2)).foldl (fun t i =>
      let e := sliceOct p (8 + 128 * i) 128
      let k := almId e
      let n : AlmEntry := match s.hw.almanac.get k with
        | some o => if o.octets.take 108 = e.take 108 then o else { octets := e, fate := .standing }
        | none => { octets := e, fate := .standing }
      Tbl.set t k n) []
    { s with hw := { s.hw with almanac := l } }

/-! ## Duty-cycle bins (R148) -/

/-- A front end whose slice can reach a sub-band, within its CANOPY bounds. -/
def State.canReach (s : State) (f : Fe) (lo hi : Nat) : Bool :=
  s.hasFe f && decide (s.sliceLo f < hi + halfSlice f) && decide (lo < s.sliceHi f + halfSlice f)

/-- Sum of two lists of bins. -/
def mergeBins (a b : List (Nat × Nat)) : List (Nat × Nat) :=
  b.foldl (fun l x => if l.any (fun y => y.1 == x.1) then l.map (fun y => if y.1 = x.1 then (y.1, y.2 + x.2) else y) else l ++ [x]) a

/-- Restores the bins; `clean`: the superblock showed a clean power-down. -/
def State.restoreDuty (s : State) (same clean : Bool) : State :=
  let kept := s.hw.duty
  let newest := kept.foldl (fun n p => max n p.2.newest) 0
  let one := fun (i : Nat) =>
    let lo := subLow s.region i
    let hi := subHigh s.region i
    let equal := kept.find? fun p => p.2.lowHz == lo && p.2.highHz == hi
    let bins := if same then (match kept.get i with
        | some d => d.bins
        | none => [])
      else match equal with
        | some p => p.2.bins
        | none => (kept.filter fun p => decide (p.2.lowHz < hi) && decide (lo < p.2.highHz)).foldl (fun l p => mergeBins l p.2.bins) []
    let n := (feAll.filter fun f => s.canReach f lo hi).length
    let bins := if clean || newest == 0 || n == 0 then bins else mergeBins bins [(newest + 1, n * 1000000)]
    (i, ({ lowHz := lo, highHz := hi, bins := bins, lastEnd := none } : Duty))
  { s with mac := { s.mac with duty := (List.range (subCount s.region)).map one } }

/-! ## The index (R260, R263, R278) -/

/-- Places entries in order until one fits nowhere; how many were placed. -/
def buildIdx (seed : BitVec 64) : List (Nat × BitVec 64) → IdxCopy → Nat → IdxCopy × Nat
  | [], c, n => (c, n)
  | (i, e) :: t, c, n => match c.place (hashOf seed e) i with
    | some d => buildIdx seed t d (n + 1)
    | none => (c, n)

/-- Records that an index reaches. -/
def State.indexed (s : State) : List (Nat × BitVec 64) := (s.table.nodes.filter fun p => p.2.state != NodeState.clearing).map fun p => (p.1, p.2.eui)

/-- A seed is in force, journalled, with its index in both copies. -/
def State.adoptSeed (s : State) (seed : BitVec 64) (c : IdxCopy) : State :=
  let s := s.lineWrite 0x2000
  { s with table := { s.table with seed := seed, act := c, shadow := c }, hw := { s.hw with hashSeed := some seed } }

/-- Further seeds of the DRBG. -/
def State.drawSeeds : Nat → State → List (BitVec 64) × State
  | 0, s => ([], s)
  | n + 1, s =>
    let r := s.draw
    let q := State.drawSeeds n r.2
    (r.1.setWidth 64 :: q.1, q.2)

/-- The index under a chosen seed, or under one of up to four seeds more (R278). -/
def State.reindex (s : State) (seed : BitVec 64) : State :=
  let l := s.indexed
  let first := buildIdx seed l {} 0
  if first.2 = l.length then s.adoptSeed seed first.1
  else
    let q := State.drawSeeds 4 s
    let tries := (seed, first) :: q.1.map fun x => (x, buildIdx x l {} 0)
    match tries.find? fun t => t.2.2 == l.length with
    | some t => q.2.adoptSeed t.1 t.2.1
    | none =>
      let best := tries.foldl (fun b t => if b.2.2 < t.2.2 then t else b) (seed, first)
      let s := q.2.adoptSeed best.1 best.2.1
      let lost := l.drop best.2.2
      let s := lost.foldl (fun s p => match s.node p.1 with
        | some n => (s.putNode p.1 { n with state := .clearing, clearPass := s.table.sweepPass }).count .tableRestoreDropped .device
        | none => s) s
      s.raiseTableFull 3

/-! ## Node records (R470) -/

def stateOf (c : Nat) : NodeState :=
  match c with
  | 2 => .live
  | 3 => .quiet
  | 4 => .retiring
  | _ => .clearing

/-- A parent slot from Table 16.7; its preference is its number (R283). -/
def slotOf (k : Nat) (w : BitVec 18) : ParentSlot :=
  let v := w.toNat
  if v = 0x3FFFF then {} else if v = 0x20000 then { root := true, valid := true, pref := k } else { index := v, valid := true, pref := k }

/-- A record from what Heartwood holds of index i. -/
def State.rebuildNode (s : State) (i : Nat) (r : IdRec) : Node :=
  let key := s.hw.nodeKeys.getD i { wrapped := [], sec := 0, place := 0, crcOk := true }
  let sec := key.sec.toNat
  let pl := key.place.toNat
  let fc := s.hw.fc.getD i { fcIn := 0, ceiling := 0 }
  let par := s.hw.parents.get i
  let slots := match par with
    | some p => (List.range 3).map fun k => slotOf k (p.slots.getD k 0x3FFFF)
    | none => [{}, {}, {}]
  let base : Node := {
    eui := r.eui, world := r.world, state := if r.crcOk then stateOf r.state else .clearing, epoch := r.epoch, lastHeard := r.lastHeard
    seqOut := r.seqOut, keyGen := sec % 16, secLevel := sec / 16 % 8, wakeExp := sec / 128 % 8, listen := bitOf sec 10
    fe := pl / 16384 % 4, group := pl % 64, phase := pl / 64 % 256, aerial := pl / 65536 % 2, pathSel := pl / 131072 % 4
    pins := BitVec.ofNat 5 (pl / 2 ^ 19), txPower := signed 8 (pl / 2 ^ 24), parents := slots
    fcIn := fc.fcIn, fcOut := fc.ceiling, daoSeen := slots.any fun p => p.valid }
  let base := match par with
    | some p => { base with pathSeq := p.pathSeq, regExpiry := p.regExpiry }
    | none => base
  match s.hw.pendings.get i with
  | some p => { base with newGroup := p.group, newPhase := p.phase, effSec := p.effSec, pending := true }
  | none => base

/-- A record restored: JOINING records and those of an epoch past become CLEARING; losses are counted. -/
def State.restoreNode (s : State) (i : Nat) (r : IdRec) : State :=
  let n := s.rebuildNode i r
  let n := if (n.state == .live || n.state == .quiet || n.state == .retiring) && n.epoch != s.epochOf n.world then { n with state := .clearing } else n
  let lost := (if r.crcOk then 0 else 1) + (match s.hw.nodeKeys.get i with
    | some k => if k.crcOk then 0 else 1
    | none => 0)
  let s := if lost = 0 then s else s.countN .hwRecordLost .device lost
  let s := match s.hw.nodeKeys.get i with
    | some k => if k.crcOk then s else { s with hw := { s.hw with nodeKeys := s.hw.nodeKeys.set i { k.blank with crcOk := true } } }
    | none => s
  if n.state == .clearing then s.putNode i n else s.setNode i n

/-- Step 14: every record of Heartwood, then the index. -/
def State.restoreTable (s : State) (same : Bool) : State :=
  let s := { s with table := { epochs := s.hw.epochs } }
  let s := s.hw.ids.foldl (fun s p => s.restoreNode p.1 p.2) s
  let seed := if same then s.hw.hashSeed.getD (BitVec.ofNat 64 s.cfgSeed) else BitVec.ofNat 64 s.cfgSeed
  s.reindex seed

/-! ## Canopy's placement (R322, R50) -/

/-- The value of a list nearest to x, the lower of two as near. -/
def nearest (x : Nat) (l : List Nat) : Option Nat :=
  l.foldl (fun (b : Option Nat) y => match b with
    | none => some y
    | some z => let d := ((y : Int) - x).natAbs
                let e := ((z : Int) - x).natAbs
                if d < e ∨ (d = e ∧ y < z) then some y else b) none

/-- Centres a front end may stand at under the applied image (R314, R83). -/
def State.legalCentres (s : State) (f : Fe) (other : Option Nat) : List Nat :=
  let r := rasterHz (s.raster f)
  let lo := s.sliceLo f
  ((List.range ((s.sliceHi f - lo) / r + 1)).map fun j => lo + j * r).filter fun c =>
    (sliceFreqs c (s.raster f)).any (fun hz => (subOf s.region hz (s.raster f)).isSome) &&
    match other with
    | some o => decide (o + 6400000 ≤ c) || decide (c + 6400000 ≤ o)
    | none => true

/-- Logs a replacement (kind 0x13, cause restore). -/
def State.logClamp (s : State) (world subject old new : Nat) : State := if old = new then s else s.canLog 0x13 4 world 1 subject old new 0

/-- Restores a slice centre. -/
def State.restoreCentre (s : State) (keep : Option CanopyKeep) (f : Fe) : State :=
  if !s.hasFe f then s
  else
    let held := match keep with
      | some k => k.centres.getD (feCode f) (s.cfgCentre f)
      | none => s.cfgCentre f
    let other := if f = .sb ∧ s.hasFe .sa then some (s.centre .sa) else none
    let c := (nearest held (s.legalCentres f other)).getD (s.cfgCentre f)
    let s := s.setFe f { s.feSt f with centre := c }
    if keep.isSome then s.logClamp 0xFF (feCode f) (held / 1000) (c / 1000) else s

/-- A kept group within the bounds of the image: its front end's channels of the slice, at most as many as a group holds. -/
def State.clampGroup (s : State) (g fe : Nat) (freqs : List Nat) : Option Group :=
  match feOf fe with
  | some f =>
    let l := (freqs.filter fun hz => (sliceFreqs (s.centre f) (s.raster f)).contains hz).take (s.groupWidth f)
    if s.hasFe f && (s.groupNumbers f).contains g && !l.isEmpty then some { fe := fe, freqs := l } else none
  | none => none

/-- Restores the group layout: groups within the image's bounds stand, each with its channels that are, changes are logged, the rest is laid out
anew (R50, R297, R315, log entry 79). -/
def State.restoreGroups (s : State) (keep : Option CanopyKeep) : State :=
  let fes := feAll.filter fun f => s.hasFe f
  let old : List (Nat × Nat × List Nat) := match keep with
    | some k => k.groups
    | none => []
  let kept : Tbl Group := old.filterMap fun p => (s.clampGroup p.1 p.2.1 p.2.2).map fun g => (p.1, g)
  let s := old.foldl (fun s p =>
    let n := match s.clampGroup p.1 p.2.1 p.2.2 with
      | some g => g.freqs.length
      | none => 0
    s.logClamp 0xFF p.1 p.2.2.length n) s
  if kept.isEmpty then
    { s with canopy := { s.canopy with groups := fes.foldl (fun (t : Tbl Group) f => (s.defaultGroups f).foldl (fun t p => Tbl.set t p.1 p.2) t) [] } }
  else fes.foldl (fun s f => { s with canopy := { s.canopy with groups := s.regroup f (s.centre f) } }) { s with canopy := { s.canopy with groups := kept } }

/-- The map of a LANES record. -/
def lanesMap (p : Octets) : List (Nat × (Nat × Nat)) :=
  (List.range 48).filterMap fun i => let e := leField p (2 * i) 2
    if bitOf e 9 then some (i, (e / 128 % 4, e % 128)) else none

/-- SA channels and SB channels taken alternately, a front end that runs out being passed over (R120). -/
def alternate : Nat → List (Nat × Nat) → List (Nat × Nat) → List (Nat × Nat)
  | 0, _, _ => []
  | n + 1, a :: s, t => a :: alternate n t s
  | n + 1, [], a :: t => a :: alternate n [] t
  | _ + 1, [], [] => []

/-- The initial map where no LANES record is present (R120). -/
def State.defaultMap (s : State) : List (Nat × (Nat × Nat)) :=
  let chans := fun (f : Fe) => if s.hasFe f then (List.range (s.channels f)).map fun k => (feCode f, k) else []
  ((List.range s.laneCount).zip (chans .h ++ alternate 128 (chans .sa) (chans .sb)))

/-- Restores the watch map (R117): Heartwood's, or the image's; a change the image does not allow leaves the lane unassigned. -/
def State.restoreLanes (s : State) (keep : Option CanopyKeep) (same : Bool) : State :=
  let img := match s.cfg 0x04 0 with
    | some p => lanesMap p
    | none => s.defaultMap
  let pinned : Tbl (Nat × Nat) := match s.cfg 0x04 0 with
    | some p => (lanesMap p).filter fun e => bitOf (leField p (2 * e.1) 2) 10
    | none => []
  let held : Tbl (Nat × Nat) := match keep with
    | some k => k.watch
    | none => img
  let pins : Tbl (Nat × Nat) := match keep with
    | some k => if same then k.lanePins else pinned
    | none => pinned
  let want : Tbl (Nat × Nat) := pins.foldl (fun (t : Tbl (Nat × Nat)) p => Tbl.set (t.filter fun q => q.2 != p.2) p.1 p.2) held
  let ok := fun (l : Nat) (a : Nat × Nat) => s.laneAllowed l && match feOf a.1 with
    | some f => s.hasFe f && decide (a.2 < s.channels f)
    | none => false
  let s := { s with canopy := { s.canopy with lanePins := pins.filter fun p => ok p.1 p.2 } }
  want.foldl (fun s p =>
    let pin := (pins.get p.1).isSome
    if ok p.1 p.2 then s.setLane p.1 { (s.lane p.1).assign s.clk (some p.2) with pinned := pin }
    else s.logClamp 0xFF p.1 (laneEntry (some p.2) pin) (laneEntry none false)) s

/-- The channel kept for entry i of a front end's gate list, where the entry is placeable, and the nearest legal one (R50). -/
def State.gateKept (s : State) (keep : Option CanopyKeep) (f : Fe) (i : Nat) (e : BitVec 64) : Option (Nat × Nat) :=
  match keep.bind fun k => k.entries.get (1024 * feCode f + i) with
  | some c => if bitOf e.toNat 60 then
      (nearest c ((List.range (s.channels f)).filter fun k => (s.subBand f k).isSome)).map fun k => (c, k) else none
  | none => none

/-- A front end's gate list of the image, its placeable entries on the channels kept or the nearest legal ones (R322, R50). -/
def State.imageGates (s : State) (keep : Option CanopyKeep) (f : Fe) (p : Octets) : List (BitVec 64) :=
  (gateEntries p).mapIdx fun i e => match s.gateKept keep f i e with
    | some (_, k) => BitVec.ofNat 64 (e.toNat - geChannel e * 2 ^ 53 + k * 2 ^ 53)
    | none => e

/-- The entries whose kept channel was replaced enter the decision log (R50). -/
def State.logGates (s : State) (keep : Option CanopyKeep) (f : Fe) (p : Octets) : State :=
  let l := gateEntries p
  (List.range l.length).foldl (fun s i => match s.gateKept keep f i (l.getD i 0) with
    | some (c, k) => s.logClamp 0xFF (1024 * feCode f + i) c k
    | none => s) s

/-- Loads the gate lists at a start. -/
def State.restoreGates (s : State) (keep : Option CanopyKeep) : State :=
  feAll.foldl (fun s f => match s.cfg 0x0A (feCode f) with
    | none => s
    | some p => State.logGates { s with wake := { s.wake with gates := s.wake.gates.set f { active := s.imageGates keep f p } } } keep f p) s

/-- A node's placement, present and pending, and its power within the image's bounds, nearest to what was restored (R50). -/
def State.clampNode (s : State) (i : Nat) (n : Node) : State :=
  if !(n.state == .live || n.state == .quiet || n.state == .retiring) || n.fe = 3 then s
  else
    let open_ := (s.canopy.groups.filter fun p => bitOf (s.worldFes n.world) p.2.fe).map Prod.fst
    let g := (nearest n.group open_).getD n.group
    let inBand := fun (p : Nat) => if n.listen then p else max (s.phaseLo n.world) (min (s.phaseHi n.world) p)
    let f := (s.groupFe g).getD .sa
    let port := if s.portFitted f n.aerial then n.aerial else 1 - n.aerial
    let sub := ((s.group g).bind fun x => x.freqs.head?).bind fun hz => subOf s.region hz (s.raster f)
    let top := match sub with
      | some i => s.powerCap f port i
      | none => s.pMax f
    let m := { n with
      group := g, phase := inBand n.phase, fe := feCode f, aerial := port, txPower := max (s.pMin f) (min top n.txPower)
      newGroup := if n.pending then (nearest n.newGroup open_).getD n.newGroup else n.newGroup
      newPhase := if n.pending then inBand n.newPhase else n.newPhase }
    if m = n then s
    else
      let t := ((s.setNode i m).touch (.nodePlace i)).logClamp n.world i n.placeWord m.placeWord
      let word := fun (x : Node) => placeWord x.newGroup x.newPhase x.fe x.listen
      let t := if n.newGroup = m.newGroup ∧ n.newPhase = m.newPhase then t else t.logClamp n.world i (word n) (word m)
      t.logClamp n.world i (unsigned 32 n.txPower) (unsigned 32 m.txPower)

/-- Restores what Canopy keeps; a new config_version drops freezes and pins of lanes and slices (R322). -/
def State.restoreCanopy (s : State) (same : Bool) : State :=
  let keep := s.hw.canopy
  let s := feAll.foldl (fun s f => s.restoreCentre keep f) s
  let s := s.restoreGroups keep
  let s : State := match keep with
    | some k => if same then { s with canopy := { s.canopy with
        slicePins := (k.slicePins.filter fun (p : Nat × Nat) => (feOf p.1).any fun f => s.hasFe f).map fun (p : Nat × Nat) => match feOf p.1 with
          | some f => (p.1, s.centre f)
          | none => p
        freezes := k.freezes.map fun (f : Nat × Nat × Option Nat) => ({ kinds := f.1, world := f.2.1, endNs := f.2.2 } : Freeze) } } else s
    | none => s
  let s : State := s.table.nodes.foldl (fun (s : State) (p : Nat × Node) => s.clampNode p.1 p.2) s
  s.touch .canopy

end Sys2Proof.Machine
end

