-- ==== Sys2Proof/Machine/Start.lean ====
section
/-! DEFINITION. The order of start (Tables 2.3 and 2.5), entry to Stump, and the rows that begin a start.  Steps 1 to 16 are taken at the instant
the start begins; step 17 is RADIO_ON. -/

namespace Sys2Proof.Machine

/-! ## Stump (R489) -/

/-- Enters Stump with its target slot. -/
def State.enterStump (s : State) (target : Nat) : State :=
  let s := { s with life := { s.life with mode := .stump, approved := false, stump := some { target := target } }
                    pins := { s.pins with m0Busy := false } }
  let s := (s.setMb 0 { isOpen := true }).setMb 1 { isOpen := true }
  let s := s.beginPorts
  s.setPort .p1 {}

/-- The target by RECOVER: the slot that fails its checks, or else the slot the directory does not name first; slot 0 where both fail. -/
def State.recoverTarget (s : State) : Nat :=
  let bad := fun (i : Nat) => decide ((s.checkFw i).1 ≠ 0)
  if bad 0 then 0 else if bad 1 then 1 else 1 - s.dir.fw

/-! ## Step 9 (R469, R471) -/

/-- Events that waited for a start to deliver them (R350, R352, R358, R185, R191, R193). -/
def State.raiseHeld (s : State) : State :=
  let s := match s.hw.zeroised with
    | some c => { s.raise 0x0C04 none (toBe 1 c ++ toBe 16 s.hw.zeroCount.toNat) with
        hw := { (s.raise 0x0C04 none (toBe 1 c ++ toBe 16 s.hw.zeroCount.toNat)).hw with zeroised := none } }
    | none => s
  let s := if s.life.secCause = 0 then s else
    let t := s.raise 0x0C02 none (toBe 1 s.life.secCause.toNat ++ toBe 6 s.life.secEntry.toNat)
    { t with life := { t.life with secCause := 0, secSensor := 0, secEntry := 0 } }
  let s := s.hw.trips.foldl (fun s t => if t.delivered then s else s.raise 0x0C03 none (toBe 1 t.sensor ++ toBe 6 t.sec.toNat)) s
  let s := { s with hw := { s.hw with trips := s.hw.trips.map fun (t : Trip) => { t with delivered := true } } }
  let s := match s.rtc.cdEvent with
    | some c => (s.setRtc { s.rtc with cdEvent := none }).raise 0x0708 none (toBe 8 c)
    | none => s
  let s := if s.rtc.osfEvent then (s.setRtc { s.rtc with osfEvent := false }).raise 0x0707 none (toBe 8 s.rtcCount) else s
  let s := s.setRtc { s.rtc with trusted := !s.rtc.osf }
  if s.rtc.osf then s.raise 0x0706 none (toBe 8 s.rtcCount) else s

/-- POWER_LOST with the superblock found, after which the restart-cause register is cleared; a restart for want of M-cores is told (R501). -/
def State.raisePowerLost (s : State) (sup : Option Super) : State :=
  let clean := match sup with
    | some b => b.clean
    | none => false
  let last := match sup with
    | some b => b.lastSec.toNat
    | none => 0
  let cause := s.life.restartCause
  let s := s.raise 0x1001 none (toBe 1 (if clean then 1 else 0) ++ toBe 6 last ++ toBe 4 0 ++ toBe 1 cause.toNat)
  let s := { s with life := { s.life with restartCause := 0 } }
  if cause = 2 then (s.count .mcoreAllLost .device).raise 0x1202 none (toBe 1 2 ++ toBe 1 0xFF ++ toBe 1 0xFF) else s

/-- Opens Heartwood: its tally with what this start has counted (R34), the ring applied, an interrupted zeroisation completed (R357), K_hw and K_cfg derived, the superblock written. -/
def State.openHw (s : State) : State :=
  let sup := s.hw.super
  let s := { s with tally := s.tally.foldl (fun t (v : CtrVal) => Tally.add t v.key v.value) s.hw.tally, life := { s.life with hwOpen := true } }.homeAll
  let s := if s.hw.zeroFlag then s.zeroEnd else s
  let s := s.deriveHw
  let s := match s.hw.kcfg with
    | some (w, k) => match s.unwrapBy 1 w with
      | some key => s.deriveCfg key k
      | none => s.count .keyUnwrapFail .device
    | none => s
  let s := { s with crypto := { s.crypto with joinNext := s.hw.joinCeil.toNat } }
  ((s.writeSuper false).raisePowerLost sup).raiseHeld

/-! ## Steps 10 to 12 -/

/-- A configuration slot is refused (R52). -/
def State.cfgRejected (s : State) (slot : Nat) (f : ImgFail) : State :=
  (s.count .cfgReject .device).raise 0x0201 none (toBe 1 slot ++ toBe 1 f.reason ++ toBe 2 f.typ ++ toBe 1 f.inst ++ toBe 4 f.off)

/-- Tries a slot and then the other (R32): the slot and its image, or none.  cfg_slot_fallback counts only where the other slot passes (DESIGN
CHOICE, log entry 79). -/
def State.tryCfg (s : State) (first : Nat) : Option (Nat × Image) × State :=
  match s.checkSlot first with
  | .ok i => (some (first, i), s)
  | .error f =>
    let s := s.cfgRejected first f
    match s.checkSlot (1 - first) with
    | .ok i => (some (1 - first, i), s.count .cfgSlotFallback .device)
    | .error g => (none, s.cfgRejected (1 - first) g)

/-- The firmware trial is consumed: the directory names the other slot (R481). -/
def State.consumeFw (s : State) : State :=
  match s.life.fwSlot with
  | some i =>
    if s.life.fwTrial then
      ((s.writeDir fun d => { d with fw := 1 - i, fwTrial := false }).count .fwTrialConsumed .device).raise 0x1102 none (toBe 1 i ++ toBe 1 (1 - i))
    else s
  | none => s

/-- The configuration trial is consumed (R481). -/
def State.consumeCfg (s : State) : State :=
  match s.life.cfgSlot with
  | some i =>
    if s.life.cfgTrial then
      ((s.writeDir fun d => { d with cfg := 1 - i, cfgTrial := false }).count .cfgTrialConsumed .device).raise 0x1104 none (toBe 1 i ++ toBe 1 (1 - i))
    else s
  | none => s

/-- A record of a type not in Table 2.11. -/
def unknownType (t : Nat) : Bool := t == 0 || decide (t > 0x17)

/-- Records of unknown type, skipped, are counted as an image is applied (R45). -/
def State.countSkipped (s : State) (i : Image) : State :=
  let n := (i.recs.filter fun r => unknownType r.typ).length
  if n = 0 then s else s.countN .cfgRecordSkipped .device n

/-- The image of a slot is in force: skipped records are counted (R45), and the version last applied is Heartwood's from here (Table 16.8). -/
def State.takeImage (s : State) (slot : Nat) (i : Image) (trial : Bool) : State :=
  let s := s.lineWrite 0x2000
  State.countSkipped { s with
    life := { s.life with image := some i, cfgSlot := some slot, cfgTrial := trial, mode := .operate }
    hw := { s.hw with cfgVersion := some i.version } } i

/-- Local offset of an image whose version differs, or after the oscillator stood still (R197). -/
def State.takeLocal (s : State) (same : Bool) : State :=
  if same && !s.rtc.osf then s else s.setRtc { s.rtc with offset := BitVec.ofNat 8 s.localOffsetCfg }

/-- Wrapped keys, the Almanac, the local offset and the mailboxes of the image applied. -/
def State.applyRecords (s : State) (same : Bool) : State :=
  let s := (s.loadKeys same).takeLocal same
  let s := if same then s else s.replaceAlmanac
  s.openMboxes.releaseEarly

/-- M0 BUSY is released, and both ports begin their links (step 12, R537). -/
def State.bringUp (s : State) : State := ({ s with pins := { s.pins with m0Busy := false } }).beginPorts

/-- The condition of R51, or what a training failure leaves in its place (R252). -/
def State.bare (s : State) : State :=
  let s := { s with life := { s.life with mode := .noConfig, image := none, cfgSlot := none, cfgTrial := false }, mbox := [] }
  s.openBare.releaseEarly.bringUp.seedTime

/-! ## Steps 13 to 16 -/

/-- Front-end domains to STANDBY, each with its background pass before it (R63); one whose rails are out of range is faulty (R515). -/
def State.feUp (s : State) (e : StartEnv) (f : Fe) : State :=
  if !s.hasFe f then s
  else if !e.feRails.getD (feCode f) true then s.feFault f 4
  else s.setFe f { s.feSt f with mode := .standby, pass := List.range (s.channels f), idleSince := s.clk, temp := e.feTemps.getD (feCode f) 0 }

/-- The lane domains are powered, and lanes that fail their known-answer test are mapped out (R137). -/
def State.lanesUp (s : State) (kat : List Bool) : State :=
  let s := { s with domA := { powered := true }, domB := { powered := true } }
  (List.range s.laneCount).foldl (fun s l => if kat.getD l true then s else s.faultLane l .kat) s

/-- DRAM_TRAINING_FAILED, with the failing byte lane, which the manual gives no way to foretell. -/
def State.raiseTraining (s : State) : State :=
  { s with rnd := s.rnd + 1 }.raise 0x0903 none (toBe 1 (Config.unstated s.rnd).toNat)

/-- Steps 13 to 16 of a start in OPERATE with an image applied. -/
def State.upRadio (s : State) (e : StartEnv) (same clean : Bool) (keep : Option CanopyKeep) : State :=
  if !e.dramOk then ({ s with life := { s.life with dramFailed := true } }.bare).raiseTraining
  else
    let s := (s.restoreTable same).restoreDuty same clean
    let s := s.restoreCanopy same
    let s := s.seedTime
    let s := feAll.foldl (fun s f => s.feUp e f) s
    ((s.restoreLanes keep same).restoreGates keep).lanesUp e.laneKat

/-! ## The start -/

/-- Steps 10 to 16 in OPERATE. -/
def State.startOperate (s : State) (e : StartEnv) (clean : Bool) : State :=
  let d := s.dir
  let first := if s.life.firstOperate then s.life.provSlot.getD d.cfg else d.cfg
  let r := s.tryCfg first
  let t := { r.2 with life := { r.2.life with firstOperate := false } }
  let t := if s.life.firstOperate then t.writeDir fun d => { d with cfg := first, cfgTrial := false } else t
  match r.1 with
  | none => t.consumeFw.bare
  | some (slot, img) =>
    let same := decide (s.hw.cfgVersion = some img.version)
    let trial := d.cfgTrial && !s.life.firstOperate
    let keep := t.hw.canopy
    let t := (t.takeImage slot img (trial && slot == d.cfg)).applyRecords same
    let t := if trial then t else t.raiseFloor
    (t.consumeFw.consumeCfg.bringUp).upRadio e same clean keep

/-- Steps 9 to 16, the firmware of a slot running. -/
def State.startRun (s : State) (e : StartEnv) (slot : Nat) (fallback dirBad : Bool) : State :=
  let d := s.dir
  let s := s.runFw slot
  let s := { s with life := { s.life with cpuUp := true, fwTrial := d.fwTrial && !fallback } }
  let clean := match s.hw.super with
    | some b => b.clean
    | none => false
  let s := s.openHw
  let s := if dirBad then s.count .flashDirInvalid .device else s
  let s := if fallback then s.count .fwSlotFallback .device else s
  let s := if d.fwTrial then s else s.raiseRollback
  match s.life.lcs with
  | .operate => s.startOperate e clean
  | _ =>
    let s := match s.checkSlot d.cfg with
      | .ok _ => s
      | .error f => s.cfgRejected d.cfg f
    let s := { s with life := { s.life with mode := .provision }, pins := { s.pins with m0Busy := false } }
    (s.openMbox 0 0 0 0).releaseEarly.consumeFw

/-- Steps 5 to 16. -/
def State.startFlash (s : State) (e : StartEnv) : State :=
  let dirBad := (dirChoose s.flash).isNone
  let d := s.dir
  if (s.checkFw d.fw).1 = 0 then s.startRun e d.fw false dirBad
  else if (s.checkFw (1 - d.fw)).1 = 0 then s.startRun e (1 - d.fw) true dirBad
  else s.enterStump 0

/-- Steps 3 to 16. -/
def State.startCold (s : State) (e : StartEnv) : State :=
  let q := s.coldTests e.tests
  if q.1 ≠ 0 then { q.2 with pins := { q.2.pins with m0Busy := false } }.secError q.1 0
  else if e.recover then q.2.enterStump q.2.recoverTarget
  else q.2.startFlash e

/-- Step 2: the sampled pins, in the order of Table 2.5. -/
def State.startPins (s : State) (e : StartEnv) : State :=
  if !s.pins.zeroiseN || s.pins.zeroiseLatch then s.zeroise .pin
  else if s.life.lcs = .retired then
    { s with life := { s.life with mode := .retired }, pins := { s.pins with m0Busy := false } }.setMb 0 { isOpen := true }
  else if !s.pins.pfiN then { s with life := { s.life with mode := .pfiHold } }
  else s.startCold e

/-- A start from step 1, at which VBAT is measured (R184, log entry 78); the part stays in reset while RESET_N is low or a JTAG instruction drives balls (R526). -/
def State.start (s : State) (e : StartEnv) : State :=
  if !s.pins.resetN then s.holdIn .reset
  else if s.life.jtagDrives then s.holdIn .jtagHold
  else
    let s := s.powerClear
    let s := s.setRtc { s.rtc with vbatLow := decide (e.vbatMv < if s.rtc.vbatLow then 2050 else 2000) }
    { s with life := { s.life with startClk := s.clk }, pins := { s.pins with m0Busy := true } }.startPins e

/-! ## Rows -/

/-- RESET_N_RISE (R29, R514). -/
def execResetNRise (dt : Nat) (e : StartEnv) (s : State) : Host.Outcome State Fault Refusal :=
  let s := s.tick dt
  let t := { s with pins := { s.pins with resetN := true } }
  .next (if s.life.mode = .reset ∨ s.life.mode = .unpowered then t.start e else t)

/-- RESET_N falls: the part is reset; zeroisation and the sequence of Table 16.9 are completed first (R31, R357, R518). -/
def State.resetFall (s : State) : State :=
  let s := { s with pins := { s.pins with resetN := false } }
  match s.life.mode with
  | .zeroising | .pfHeld | .thermalHold | .jtagHold | .unpowered | .reset => s
  | _ => s.holdIn .reset

/-- RESET_N_FALL (R31). -/
def execResetNFall (dt : Nat) (s : State) : Host.Outcome State Fault Refusal := .next ((s.tick dt).resetFall)

/-- A front end comes up from STANDBY to RX: both synthesisers are calibrated at the die temperature read, the transmit one on the first channel
of its pass (R62, Table 3.3, log entry 74). -/
def State.feOn (s : State) (f : Fe) : State :=
  let x := s.feSt f
  if x.mode ≠ .standby then s
  else
    let k := x.pass.headD 0
    (s.setFe f { x with mode := .rx, idleSince := s.clk, rxTemp := x.temp, rxDue := none, parked := some k
                        table := calInsert x.table k x.temp, pass := x.pass.filter fun j => j != k }).countN .feCal (.fe (feCode f)) 2

/-- The present tick is the first at or after a phase boundary (R207). -/
def State.atPhase (s : State) : Bool :=
  decide ((s.netNs % phaseNs) * 4294967296 + s.time.frac.toNat < s.time.inc)

/-- The instant of radio on, taken at a phase boundary (R29, R207, R219, R281, R293, R297, R386). -/
def State.goRadio (s : State) : State :=
  if !s.operating || s.life.radioOn || !s.atPhase then s
  else
    let s := { s with
      life := { s.life with radioOn := true }
      canopy := { s.canopy with radioClk := s.clk }, wake := { s.wake with credit := [], creditClk := s.clk }
      table := { s.table with tokens := s.joinBurst * 1000, tokenClk := s.clk } }
    let s := feAll.foldl State.feOn s
    ((List.range 8).filter fun w => s.rplEnabled w).foldl (fun s w =>
      (s.setDodag w { s.dodag w with version := BitVec.ofNat 8 (s.rplVersion w) }).resetTrickle w) s

/-- RADIO_ON (R29). -/
def execRadioOn (dt : Nat) (s : State) : Host.Outcome State Fault Refusal := .next ((s.tick dt).goRadio)

end Sys2Proof.Machine
end

