-- ==== Sys2Proof/Machine/Memory.lean ====
section
/-! DEFINITION. Rows of the memories' upkeep: the sweep, the walker, a record beyond correction, the pool audit, the DRAM (chapters 9 and 10). -/

namespace Sys2Proof.Machine

/-- AGEING_SWEEP_VISIT (R267, R269, R284). -/
def execAgeingSweepVisit (dt : Nat) (s : State) : Host.Outcome State Fault Refusal :=
  .next (let t := s.tick dt
    if t.operating then t.sweepVisit else t)

/-- SHADOW_WALKER_VISIT (R279). -/
def execShadowWalkerVisit (dt : Nat) (s : State) : Host.Outcome State Fault Refusal :=
  .next (let t := s.tick dt
    if t.operating then t.walkVisit else t)

/-- A record is reloaded as Heartwood last held it; where it holds none, the record is made CLEARING (R280). -/
def State.reload (s : State) (i : Nat) : State :=
  match s.node i with
  | none => s
  | some n =>
    if n.state == NodeState.clearing then s
    else
      let lost := fun (s : State) => (s.clearNode i).count .tableIndexLost .device
      match s.hw.ids.get i with
      | none => lost s
      | some r =>
        if !r.crcOk || r.eui != n.eui then lost s
        else
          let m := { s.rebuildNode i r with created := n.created }
          let s := s.count .tableUeRestored .device
          if m.state == NodeState.clearing then s.clearNode i else s.setNode i m

/-- RECORD_UNCORRECTABLE (R280). -/
def execRecordUncorrectable (dt : Nat) (index : Nat) (s : State) : Host.Outcome State Fault Refusal :=
  .next (let t := s.tick dt
    if t.operating then t.reload index else t)

/-- Stray cells of an account return to the pool. -/
def State.reclaim (s : State) (a n : Nat) (chain : List Nat := []) : State :=
  let k := min n (s.used a)
  if k = 0 then s else (s.releaseChain a k chain).countN .cellReclaimed .device k

/-- POOL_AUDIT (R254): the cells of packets lost with their queue's descriptor, and those found stray besides, by account. -/
def execPoolAudit (dt : Nat) (stray : List (Nat × Nat)) (s : State) : Host.Outcome State Fault Refusal :=
  let t := s.tick dt
  let u := t.queues.strays.foldl (fun s x => s.reclaim x.1 x.2.1 x.2.2) { t with queues := { t.queues with strays := [] } }
  .next (stray.foldl (fun s p => s.reclaim p.1 p.2) u)

/-- A port without the frames it sends and receives. -/
def PortSt.bare (x : PortSt) : PortSt := { x with copies := [], rxCells := 0, rxChain := [] }

/-- The memory is lost while the part runs (R252): it goes on as in the no-configuration condition, with queues of its own (R535). -/
def State.dramLost (s : State) : State :=
  if !s.operating then s
  else
    let s := s.closeBuffer
    let s := feAll.foldl (fun s f => (s.macOff f).feOff f) s
    let s := { s with
      life := { s.life with
        mode := .noConfig, image := none, cfgSlot := none, cfgTrial := false, radioOn := false, pause := none, retirePrep := none, dramFailed := true }
      mbox := [], queues := {}, held := [], lanes := [], domA := {}, domB := {}, dec := { out := s.dec.out, order := s.dec.order }
      mac := {}, table := { epochs := s.table.epochs }, wake := {}, canopy := {}
      back := { s.back with sending := [], sends := [], port := { p0 := s.back.port.p0.bare, p1 := s.back.port.p1.bare } } }
    let s := s.eraseSlots (s.readySlots.filter fun k => decide (8 ≤ k))
    let s := { s with crypto := { s.crypto with cacheUse := [], cacheNode := [], ctxs := [] } }
    (s.openBare.releaseEarly).raiseTraining

/-- DRAM_RETRAIN (R252): done in the background while DRAM.flags bit 0 is set. -/
def execDramRetrain (dt : Nat) (ok : Bool) (s : State) : Host.Outcome State Fault Refusal :=
  .next (let t := s.tick dt
    if !ok && bitOf (t.cfgN 0x0C 0 11 1 1) 0 then t.dramLost else t)

end Sys2Proof.Machine
end

