-- ==== Sys2Proof/Machine/Ports.lean ====
section
/-! DEFINITION. Meanings of the commands and events of the backhaul (chapter 14), DOWNSTREAM_CLASSIFY apart. -/

namespace Sys2Proof.Machine

/-! ## Reception -/

/-- A port requests a cell (R391, R395): the filter before the first. -/
def State.cellRequest (s : State) (p : Port) (h : EthHdr) : State :=
  let x := s.port p
  if !s.portsRun || !x.up || x.rxIgnore then s
  else if x.rxCells = 0 ∧ !s.ethAccepted h then (s.rewindPort p true).count .rxEthFiltered (.port (portCode p))
  else s.portCells p 1

/-- BACKHAUL_CELL_REQUEST (R395). -/
def execBackhaulCellRequest (dt : Nat) (p : Port) (hdr : EthHdr) (s : State) : Host.Outcome State Fault Refusal :=
  .next ((s.tick dt).cellRequest p hdr)

/-- Octets of a frame stored after the descriptor (R394). -/
def storedOctets (f : EthFrame) (trailer : Bool) : Nat := f.size - 4 - (if trailer then 6 else 0)

/-- A frame that has passed size, FCS and trailer checks: committed to Q387 with its arrival timestamp (R394, R396). -/
def State.commitEth (s : State) (p : Port) (f : EthFrame) (trailer : Bool) (arrival : Nat) : State :=
  let x := s.port p
  let n := cellsOf (16 + storedOctets f trailer)
  let s := (s.setPort p { x with rxCells := 0, rxChain := [] }).releaseChain q387 (x.rxCells - n) (x.rxChain.drop n)
  ((s.leaveStaging (.port (portCode p)) x.rxCells).setOrder (orderKey 387 0) (s.order (orderKey 387 0) ++
    [{ acct := q387, cells := n, commit := arrival, content := .eth (portCode p) f arrival, chain := x.rxChain.take n }])).spill 387

/-- A frame whose size and FCS are good and whose cells are held. -/
def State.judgeEth (s : State) (p : Port) (f : EthFrame) : State :=
  let k := portCode p
  match f.payload with
  | .macControl op q =>
    let s := s.rewindPort p false
    if op = 1 then s.takePause p q.toNat else s.count .rxEthFiltered (.port k)
  | .ptp m =>
    let s := s.rewindPort p false
    if (s.port p).change.isSome || (f.hdr.ethertype == 0x86DD) != s.ptpUdp then s else s.takePtp p m (s.arrivalOf p f.size)
  | body =>
    let arrival := s.arrivalOf p f.size
    match f.trailer.filter (fun t => t.sizeOk) with
    | none => (s.count .prpNoRct (.port k)).commitEth p f false arrival
    | some t =>
      let right : BitVec 4 := if k = 0 then 0xA else 0xB
      let s := if t.lanId = right then s else s.count .prpWrongLan (.port k)
      let v := s.prpJudge p f.hdr.srcMac t.seq arrival
      if v.1 then v.2.rewindPort p false
      else match body with
        | .supervision src => (v.2.rewindPort p false).heardSource p src
        | _ => v.2.commitEth p f true arrival

/-- The end of a received frame (R392, R396); cells not yet requested are requested now. -/
def State.ethEnd (s : State) (p : Port) (f : EthFrame) : State :=
  let x := s.port p
  let k := portCode p
  if !s.portsRun || !x.up then s
  else if x.rxIgnore then s.setPort p { x with rxIgnore := false, rxCells := 0, rxChain := [] }
  else if !s.ethAccepted f.hdr then (s.rewindPort p false).count .rxEthFiltered (.port k)
  else
    let s := s.portCells p (cellsOf (16 + (f.size - 4)) - x.rxCells)
    if (s.port p).rxIgnore then s.setPort p { s.port p with rxIgnore := false }
    else if f.size ≤ 63 then (s.rewindPort p false).count .rxRunt (.port k)
    else if f.size ≥ 1529 then (s.rewindPort p false).count .rxOversize (.port k)
    else if !f.fcsOk then (s.rewindPort p false).count .rxFcsEth (.port k)
    else s.judgeEth p f

/-- BACKHAUL_FRAME_END (R392, R396, R399, R400, R401, R408, R409). -/
def execBackhaulFrameEnd (dt : Nat) (p : Port) (f : EthFrame) (s : State) : Host.Outcome State Fault Refusal :=
  .next ((s.tick dt).ethEnd p f)

/-- The 1529th octet of a frame arrives (R392). -/
def State.oversize (s : State) (p : Port) : State :=
  if !s.portsRun || !(s.port p).up || (s.port p).rxIgnore then s
  else (s.rewindPort p true).count .rxOversize (.port (portCode p))

/-- RX_OVERSIZE (R392). -/
def execRxOversize (dt : Nat) (p : Port) (s : State) : Host.Outcome State Fault Refusal := .next ((s.tick dt).oversize p)

/-! ## Pause -/

/-- The quanta of a pause run out (R409). -/
def State.pauseEnds (s : State) (p : Port) : State :=
  match (s.port p).pauseEnd with
  | some e => if e ≤ s.clk then (s.setPort p { s.port p with pauseEnd := none }).runPorts else s
  | none => s

/-- PAUSE_END (R409). -/
def execPauseEnd (dt : Nat) (p : Port) (s : State) : Host.Outcome State Fault Refusal := .next ((s.tick dt).pauseEnds p)

/-- The watchdog breaks a pause of pause_wd_ms (R409). -/
def State.pauseBreak (s : State) (p : Port) : State :=
  let x := s.port p
  if s.paused p && decide (x.pauseStart + msTicks s.pauseWdMs ≤ s.clk) then
    ((s.setPort p { x with pauseEnd := none, pauseIgnored := some s.clk }).count .pauseWatchdog (.port (portCode p))).raise 0x0E05 none
      (toBe 1 (portCode p))
  else s

/-- PAUSE_WATCHDOG (R409). -/
def execPauseWatchdog (dt : Nat) (p : Port) (s : State) : Host.Outcome State Fault Refusal := .next ((s.tick dt).pauseBreak p)

/-! ## Sending -/

/-- SAWMILL_SEND (R415, R416, R429). -/
def execSawmillSend (dt : Nat) (s : State) : Host.Outcome State Fault Refusal :=
  .next (let t := s.tick dt
    if t.portsRun then t.sawmill else t)

/-- EGRESS_SELECT (R402, R406). -/
def execEgressSelect (dt : Nat) (s : State) : Host.Outcome State Fault Refusal := .next ((s.tick dt).egress)

/-- A supervision frame every 2 s, with its own SupSequenceNumber (R401). -/
def State.supervision (s : State) : State :=
  if !s.portsRun || decide (s.clk < s.back.supClk + secTicks 2) then s
  else { s with back := { s.back with supSeq := s.back.supSeq + 1, supClk := s.clk } }.sendFrame none 70

/-- SUPERVISION_SEND (R401). -/
def execSupervisionSend (dt : Nat) (s : State) : Host.Outcome State Fault Refusal := .next ((s.tick dt).supervision)

/-- PATH_WINDOW (R404, R405). -/
def execPathWindow (dt : Nat) (s : State) : Host.Outcome State Fault Refusal :=
  .next (let t := s.tick dt
    if t.portsRun && decide (t.back.windowClk + msTicks 500 ≤ t.clk) then t.pathWindow else t)

/-! ## Links -/

/-- Ticks before which a port cannot be up after it begins (R537): 1 ms, 11 ms with clause 37. -/
def State.linkFloor (s : State) (p : Port) : Nat :=
  if s.portMode p = 1 ∧ bitOf s.bhFlags 0 then msTicks 11 else msTicks 1

/-- A port's link comes up (R389, R537). -/
def State.linkUp (s : State) (p : Port) (bad : Bool) : State :=
  let x := s.port p
  match x.beginClk with
  | none => s
  | some b =>
    if !s.portsRun || x.up || x.out || x.change.isSome || decide (s.clk < b + s.linkFloor p) then s
    else if s.portMode p = 0 ∧ bad then s.count .linkRefused (.port (portCode p))
    else
      (s.setPort p { x with up := true, settledClk := s.clk, idleClk := s.clk }).raise 0x0E01 none (toBe 1 (portCode p) ++ toBe 1 x.speed)

/-- LINK_UP (R537). -/
def execLinkUp (dt : Nat) (p : Port) (phy10OrHalf : Bool) (s : State) : Host.Outcome State Fault Refusal :=
  .next ((s.tick dt).linkUp p phy10OrHalf)

/-- A port's copies and the frame it receives are lost with its link. -/
def State.portLost (s : State) (p : Port) : State :=
  let s := s.rewindPort p false
  (s.setPort p { s.port p with up := false, copies := [], lpi := false, pauseEnd := none }).closeSends

/-- A port's link goes down (R404, R537).  During a speed change the link is down by the change itself (R412). -/
def State.linkDown (s : State) (p : Port) : State :=
  let x := s.port p
  if !s.portsRun || !x.up || x.change.isSome then s
  else ((s.portLost p).raise 0x0E02 none (toBe 1 (portCode p) ++ toBe 1 x.speed)).enterPathFault p 0

/-- LINK_DOWN (R404, R537). -/
def execLinkDown (dt : Nat) (p : Port) (s : State) : Host.Outcome State Fault Refusal := .next ((s.tick dt).linkDown p)

/-! ## Speeds -/

/-- LOAD_MEASURE (R411, R413): the octets each port received and sent in the last second. -/
def execLoadMeasure (dt : Nat) (rx tx rx1 tx1 : Nat) (s : State) : Host.Outcome State Fault Refusal :=
  .next (let t := s.tick dt
    if t.portsRun then ((((t.enterLoad .p0 rx tx).enterLoad .p1 rx1 tx1).decideStep .p0).decideStep .p1) else t)

/-- The final response of a BACKHAUL-SPEED command that changes port p gets its status (R413). -/
def State.speedOutcome (s : State) (p : Port) (status : Nat) : State :=
  (List.range 8).foldl (fun s m => match (s.mb m).busy with
    | some b =>
      if b.req.opcode = 0x0702 ∧ beField b.req.payload 0 1 = portCode p then s.setMb m { s.mb m with busy := some { b with status := status } } else s
    | none => s) s

/-- The link is up at the new speed (Table 14.5, steps 3 and 4). -/
def State.speedDone (s : State) (p : Port) : State :=
  let x := s.port p
  match x.change with
  | none => s
  | some c =>
    if s.clk < c.start + msTicks 1 then s
    else
      let s := s.setPort p { x with change := none, speed := c.target, settledClk := s.clk, changedClk := some s.clk, idleClk := s.clk, up := true }
      (if c.returning then s else s.speedOutcome p sOk).count .speedStep (.port (portCode p)) |>.raise 0x0E06 none
        (toBe 1 (portCode p) ++ toBe 1 c.target)

/-- SPEED_CHANGE_COMPLETE (R412). -/
def execSpeedChangeComplete (dt : Nat) (p : Port) (s : State) : Host.Outcome State Fault Refusal := .next ((s.tick dt).speedDone p)

/-- The link is not up by step_timeout_ms: the port returns to its former speed by the same steps (R412). -/
def State.speedTimeout (s : State) (p : Port) : State :=
  let x := s.port p
  match x.change with
  | none => s
  | some c =>
    if c.returning || decide (s.clk < c.start + msTicks s.stepTimeoutMs) then s
    else
      let s := s.setPort p { x with
        change := some { source := c.target, target := c.source, start := s.clk, returning := true }, noStepDown := true }
      (s.speedOutcome p sRefused).raise 0x0E07 none (toBe 1 (portCode p) ++ toBe 1 c.target)

/-- SPEED_STEP_TIMEOUT (R412). -/
def execSpeedStepTimeout (dt : Nat) (p : Port) (s : State) : Host.Outcome State Fault Refusal := .next ((s.tick dt).speedTimeout p)

/-- An idle transmitter signals low-power idle (R414). -/
def State.enterLpi (s : State) (p : Port) : State :=
  let x := s.port p
  if s.usable p && s.portMode p = 0 && bitOf s.bhFlags 3 && x.copies.isEmpty && decide (x.idleClk + usTicks s.lpiIdleUs ≤ s.clk) then
    s.setPort p { x with lpi := true }
  else s

/-- LPI_ENTRY (R414). -/
def execLpiEntry (dt : Nat) (p : Port) (s : State) : Host.Outcome State Fault Refusal := .next ((s.tick dt).enterLpi p)

/-! ## Commands -/

/-- One port of BACKHAUL-STATUS. -/
def State.portView (s : State) (p : Port) : Octets :=
  let x := s.port p
  let b := fun (v : Bool) => toBe 1 (if v then 1 else 0)
  toBe 1 (s.portMode p) ++ toBe 1 x.speed ++ b x.up ++ b (s.usable p) ++ b x.pathFault ++ b (s.paused p) ++
    toBe 2 (min 65535 (x.load / speedMb x.speed))

/-- Milliseconds since a supervision frame was heard on a port; all ones where none was. -/
def State.heardMs (s : State) (k : Option Nat) : Nat :=
  match k with
  | some c => min (2 ^ 32 - 1) ((s.clk - c) / 250000)
  | none => 2 ^ 32 - 1

/-- BACKHAUL_STATUS (R401, R439). -/
def execBackhaulStatus (dt : Nat) (m : Mbox) (s : State) : Host.Outcome State Fault Refusal :=
  .next ((s.tick dt).shortCmd m.val 0x0701 0 fun s r =>
    s.respond m.val r sOk (s.portView .p0 ++ s.portView .p1 ++ toBe 1 s.back.sources.length ++
      s.back.sources.flatMap fun x => toBe 6 x.source.toNat ++ toBe 4 (s.heardMs x.p0) ++ toBe 4 (s.heardMs x.p1)))

/-- The speed is one of the port's mode, and no slower than min_speed (R410). -/
def State.speedOffered (s : State) (p : Port) (v : Speed) : Bool :=
  v == modeSpeed (s.portMode p) || (stepDownSpeed (s.portMode p) == some v && decide (v ≤ s.minSpeed))

/-- BACKHAUL-SPEED (R413): its final response follows the change. -/
def State.backhaulSpeed (s : State) (m : Nat) (r : Request) : State :=
  let p : Port := if beField r.payload 0 1 = 0 then .p0 else .p1
  let v := beField r.payload 1 1
  if beField r.payload 0 1 > 1 ∨ !s.speedOffered p v then s.respond m r sRange []
  else if v = (s.port p).speed then s.begin m r [] sOk []
  else if !(s.port p).up || !s.mayChange p || (decide ((s.port p).speed < v) && (s.port p).noStepDown) then s.respond m r sRefused []
  else (s.begin m r [] sRefused []).beginChange p v

/-- BACKHAUL_SPEED (R413). -/
def execBackhaulSpeed (dt : Nat) (m : Mbox) (s : State) : Host.Outcome State Fault Refusal :=
  .next ((s.tick dt).shortCmd m.val 0x0702 2 fun s r => s.backhaulSpeed m.val r)

end Sys2Proof.Machine
end

