-- ==== Sys2Proof/Machine/Power.lean ====
section
/-! DEFINITION. Power failure (Table 16.9), the rows of Heartwood's upkeep (R459, R461), and the AON reset (R184). -/

namespace Sys2Proof.Machine

/-! ## The power-fail sequence (R464 to R467) -/

/-- Heartwood may be written: this start has opened it, and the part is not in SECURITY-ERROR, which leaves it as it is (R349). -/
def State.hwWrites (s : State) : Bool := s.life.hwOpen && s.life.mode != .secError

/-- Step 2 of Table 16.9: lanes halt with the frames they hold. -/
def State.haltLanes (s : State) : State := feAll.foldl (fun s f => s.blankFe f .rxCutPower) s

/-- Tally values are written. -/
def State.writeTally (s : State) : State :=
  let s := s.lineWrite 0x60000
  { s with hw := { s.hw with tally := s.tally } }

/-- Steps 2 to 6: lanes halt; then the coalescing buffer, Tally and a clean superblock are written. -/
def State.powerSequence (s : State) : State :=
  let s := s.haltLanes
  if s.hwWrites then (s.closeBuffer.writeTally).writeSuper true else s

/-- PFI_N counts: always but after step 12 of a start whose image clears HEARTWOOD.flags bit 0 (R463, Table 16.12). -/
def State.pfiWired (s : State) : Bool := !s.operating || bitOf (s.cfgN 0x16 0 2 1 1) 0

/-- The power-fail instant (R463): with the hold-up, or where the supplies stay, every step completes; otherwise only what was written
stands (R466).  A part already held in reset, or zeroising, has no sequence to run. -/
def State.powerFail (s : State) (cause : FailCause) (holdUp supplyLost : Bool) : State :=
  let s := if cause = .pfi then { s with pins := { s.pins with pfiN := false } } else s
  let rest := fun (s : State) (m : Mode) => s.holdIn (if supplyLost then .unpowered else m)
  match s.life.mode with
  | .unpowered => s
  | .reset | .zeroHold | .pfiHold | .pfHeld | .thermalHold | .jtagHold | .zeroising => if supplyLost then s.holdIn .unpowered else s
  | _ =>
    if cause = .pfi && !s.pfiWired && !supplyLost then s
    else if cause = .pfi && !s.pfiWired then rest s .unpowered
    else if holdUp || !supplyLost then rest s.powerSequence .pfHeld
    else rest s .unpowered

/-- POWER_FAIL (R463 to R466). -/
def execPowerFail (dt : Nat) (cause : FailCause) (holdUp supplyLost : Bool) (s : State) : Host.Outcome State Fault Refusal :=
  .next ((s.tick dt).powerFail cause holdUp supplyLost)

/-- PFI_N has been high for 10 ms: a start held at step 2 continues, and a part held after its sequence starts (R30, R467). -/
def State.pfiHigh (s : State) (e : StartEnv) : State :=
  let s := { s with pins := { s.pins with pfiN := true } }
  match s.life.mode with
  | .pfHeld | .pfiHold => s.start e
  | _ => s

/-- PFI_N_HIGH (R467, Table 2.5). -/
def execPfiNHigh (dt : Nat) (e : StartEnv) (s : State) : Host.Outcome State Fault Refusal := .next ((s.tick dt).pfiHigh e)

/-! ## Upkeep of Heartwood -/

/-- Firmware that journals runs: not in a forwarding pause (Table 1.5). -/
def State.journals (s : State) : Bool := s.hwWrites && s.life.cpuUp && !s.inPause

/-- Entries of the ring not yet homed. -/
def Heart.unhomed (h : Heart) : Nat := h.ring.foldl (fun n t => n + t.length) 0

/-- BUFFER_CLOSE (R459): the buffer waits while the ring's head would overtake an unhomed entry (R461). -/
def execBufferClose (dt : Nat) (s : State) : Host.Outcome State Fault Refusal :=
  .next (let t := s.tick dt
    if t.journals && decide (t.hw.unhomed + t.dirty.length + t.mac.duty.length < 262144) then t.closeBuffer else t)

/-- HOMING (R461). -/
def execHoming (dt : Nat) (s : State) : Host.Outcome State Fault Refusal :=
  .next (let t := s.tick dt
    if t.hwWrites then t.homeAll else t)

/-- TALLY_JOURNAL (R459). -/
def execTallyJournal (dt : Nat) (s : State) : Host.Outcome State Fault Refusal :=
  .next (let t := s.tick dt
    if t.journals then t.writeTally else t)

/-! ## The AON reset (R184) -/

/-- Main supply and VBAT are lost: every RTC field is zero but osf, and the AON registers are clear. -/
def State.aonReset (s : State) : State :=
  let s := s.holdIn .unpowered
  { s with
    rtc := { boundary := s.clk, osfEvent := true }
    life := { s.life with restartCause := 0, secCause := 0, secSensor := 0, secEntry := 0 }
    pins := { s.pins with zeroiseLatch := false }
    crypto := { s.crypto with tamperB := [] } }

/-- AON_RESET (R184). -/
def execAonReset (dt : Nat) (s : State) : Host.Outcome State Fault Refusal := .next ((s.tick dt).aonReset)

end Sys2Proof.Machine
end

