-- ==== Sys2Proof/Machine/RfTest.lean ====
section
/-! DEFINITION. RF tests (R443). -/

namespace Sys2Proof.Machine

/-- What the MAC attempts on a front end and has not on the air: its request is withdrawn and the frame returns to its place. -/
def State.clearAttempt (s : State) (f : Fe) : State :=
  let x := s.feSt f
  match x.attempt with
  | none => s
  | some a =>
    let sent : Bool := match x.cur with
      | some q => a.phase == .sending && q.cls != .ack
      | none => false
    if sent then s
    else
      let s := (s.withdraw f).giveBack f a
      let s := s.setFe f { s.feSt f with attempt := none }
      match a.body with
      | .frame r => s.putBack f r
      | .beacon _ => s.skipBeacon f
      | .test => s

/-- The arguments of RF-TEST-START lie in their ranges. -/
def State.testRange (s : State) (f : Fe) (p : Octets) : Bool :=
  let b := fun (i : Nat) => beField p i 1
  let power := signed 8 (b 6)
  decide (b 1 ≤ 2) && decide (b 2 < s.channels f) && decide (b 3 < 8) && s.modeOn f (b 3) && decide (b 4 ≤ 3) && decide (b 5 ≤ 1) &&
    s.portFitted f (b 5) && decide (1 ≤ beField p 9 2) && decide (beField p 9 2 ≤ 3600) && (b 1 == 2 || decide (1 ≤ beField p 7 2)) &&
    match s.subBand f (b 2) with
    | some i => !s.powerNone f (b 5) i && s.limitPower f (b 5) i power == power
    | none => false

/-- RF-TEST-START. -/
def State.rfTestStart (s : State) (m : Nat) (r : Request) : State :=
  let p := r.payload
  let b := fun (i : Nat) => beField p i 1
  match feOf (b 0) with
  | none => s.respond m r sRange []
  | some f =>
    if s.feMode f == .off || (s.feSt f).rfTest.isSome then s.respond m r sState []
    else if !s.testRange f p then s.respond m r sRange []
    else
      let t : RfTest := {
        mode := b 1, channel := b 2, airMode := b 3, rate := b 4, port := b 5, power := signed 8 (b 6), burst := beField p 7 2
        stopClk := s.clk + secTicks (beField p 9 2), bursts := 0, framesOk := 0, levelSum := 0 }
      let s := s.clearAttempt f
      (s.setFe f { s.feSt f with rfTest := some t }).respond m r sOk []

/-- RF_TEST_START (R443). -/
def execRfTestStart (dt : Nat) (m : Mbox) (s : State) : Host.Outcome State Fault Refusal :=
  .next ((s.tick dt).shortCmd m.val 0x0711 11 fun s r => s.rfTestStart m.val r)

/-- The front end leaves test. -/
def State.leaveTest (s : State) (f : Fe) : State :=
  let s := s.clearAttempt f
  s.setFe f { s.feSt f with rfTest := none }

/-- RF-TEST-STOP; the mean of no frames is 0. -/
def State.rfTestStop (s : State) (m : Nat) (r : Request) : State :=
  match feOf (beField r.payload 0 1) with
  | none => s.respond m r sRange []
  | some f => match (s.feSt f).rfTest with
    | none => s.respond m r sState []
    | some t => (s.leaveTest f).respond m r sOk (toBe 4 t.bursts ++ toBe 4 t.framesOk ++ toBe 2 (t.levelSum / t.framesOk))

/-- RF_TEST_STOP (R443). -/
def execRfTestStop (dt : Nat) (m : Mbox) (s : State) : Host.Outcome State Fault Refusal :=
  .next ((s.tick dt).shortCmd m.val 0x0712 1 fun s r => s.rfTestStop m.val r)

/-- The duration has passed. -/
def State.testEnd (s : State) (f : Fe) : State :=
  match (s.feSt f).rfTest with
  | some t => if t.stopClk ≤ s.clk then s.leaveTest f else s
  | none => s

/-- RF_TEST_END (R443). -/
def execRfTestEnd (dt : Nat) (f : Fe) (s : State) : Host.Outcome State Fault Refusal := .next ((s.tick dt).testEnd f)

end Sys2Proof.Machine
end

