-- ==== Sys2Proof/Machine/Faults.lean ====
section
/-! DEFINITION. Unit faults, reclaimed tags, faulty islands, updates of the time copies and thermal steps (chapter 18). -/

namespace Sys2Proof.Machine

/-- The part runs: its islands are powered and its faults watched. -/
def State.powered (s : State) : Bool := s.life.mode == .operate || s.life.mode == .noConfig || s.life.mode == .provision

/-! ## Single units (Table 18.6) -/

/-- A decoder core leaves the order; the codeword it holds is decoded again on the next idle core. -/
def State.takeDecoder (s : State) (c : Nat) : State :=
  let d := s.dec
  let back := (d.busy.get c).toList
  let s := { s with dec := { out := d.out.set c true, order := d.order.filter (· != c), busy := d.busy.erase c, ready := back ++ d.ready } }
  s.feed

/-- With no core left, every Helec frame past its header is abandoned (Table 18.7). -/
def State.dropHelec (s : State) : State :=
  if !s.noDecoder then s
  else (List.range 48).foldl (fun s l =>
    let x := s.laneNow l
    let gone := x.done.filter fun p => decide (4 ≤ p.2.mode)
    let s := gone.foldl (fun s p => (s.releaseChain (rxAcct p.1.fe) p.2.cells p.2.chain).count .rxNoDecoder .device) s
    let s := if gone.isEmpty then s else s.setLane l { x with done := x.done.filter fun p => !decide (4 ≤ p.2.mode) }
    match x.phase with
    | .frame _ h => if 4 ≤ h.mode then (s.rewindLane l).count .rxNoDecoder .device else s
    | _ => s) s

/-- A decoder core is mapped out. -/
def State.decoderFault (s : State) (c cause : Nat) : State :=
  let s := (s.takeDecoder c).dropHelec
  ((s.canLog 0x10 1 0xFF 2 (0x200 + c) 1 0 0).owe 1).unitLost 0 c cause

/-- A cipher unit is mapped out, and the job it holds repeated; with the last, SECURITY-ERROR. -/
def State.cipherFault (s : State) (u : Nat) : State :=
  match s.crypto.unitJob.get u with
  | some j => s.jobFault u j
  | none =>
    let s := s.mapOutUnit u
    if s.noUnit then s.secError 3 0 else s

/-- No M-core remains: the part restarts with cause 2 (R501). -/
def State.noCore (s : State) : Bool := s.isl.mcoreOut.all fun o => o

/-- An M-core is mapped out.  The work of a core is one step in the model, so none is in its hands (log entry 60). -/
def State.mcoreFault (s : State) (i cause : Nat) : State :=
  let s := { s with isl := { s.isl with mcoreOut := s.isl.mcoreOut.set i true } }
  if s.noCore then s.restartBy 2 else s.unitLost 2 i cause

/-- A port's SerDes is lost: its copies with it (Table 18.6). -/
def State.serdesFault (s : State) (p : Port) (cause : Nat) : State :=
  let s := s.portLost p
  ((s.setPort p { s.port p with out := true, change := none, beginClk := none }).unitLost 6 (portCode p) cause)

/-- Both copies of a queue's descriptor fail: the queue is emptied, and its cells wait for the audit. -/
def State.emptyQueue (s : State) (q : Nat) : State :=
  let lost := (queueOrders q).flatMap fun k => (s.order k).map fun p => (p.acct, p.cells, p.chain)
  let s := { s with queues := { s.queues with strays := s.queues.strays ++ lost } }
  (queueOrders q).foldl (fun s k => s.setOrder k []) s

/-! ## Islands (Tables 18.1, 18.5 and 18.6) -/

/-- An island the variant powers: LANES-B and FE-SB are never powered on the EPB7224 (Table 0.1). -/
def State.hasIsland (s : State) : Island → Bool
  | .lanesB | .feSb => s.full
  | _ => true

def islandCode : Island → Nat
  | .aon => 0
  | .core => 1
  | .sec => 2
  | .cpu => 3
  | .canopy => 4
  | .table => 5
  | .queue => 6
  | .heartwood => 7
  | .ldpc => 8
  | .lanesA => 9
  | .lanesB => 10
  | .feSa => 11
  | .feSb => 12
  | .feH => 13
  | .eth => 14
  | .ddr => 15

/-- The lanes of an island fault. -/
def State.lanesFault (s : State) (l : List Nat) : State :=
  l.foldl (fun s i => if s.laneLive i then s.faultLane i .stuck else s) s

/-- The units an island holds are mapped out with it (log entry 61). -/
def State.islandUnits (s : State) (i : Island) (cause : Nat) : State :=
  match i with
  | .sec => (List.range 4).foldl (fun s u => if s.crypto.unitOut.getD u true || s.life.mode == .secError then s else s.cipherFault u) s
  | .cpu => { s with isl := { s.isl with mcoreOut := s.isl.mcoreOut.map fun _ => true } }.restartBy 2
  | .ldpc => (List.range 4).foldl (fun s c => if s.dec.out.getD c true then s else s.decoderFault c cause) s
  | .lanesA => s.lanesFault (List.range 24)
  | .lanesB => s.lanesFault ((List.range 24).map (· + 24))
  | .feSa => if s.hasFe .sa then s.feFault .sa cause else s
  | .feSb => if s.hasFe .sb then s.feFault .sb cause else s
  | .feH => if s.hasFe .h then s.feFault .h cause else s
  | .eth => (s.serdesFault .p0 cause).serdesFault .p1 cause
  | .ddr => s.dramLost
  | .aon | .core | .canopy | .table | .queue | .heartwood => s

/-- An island is treated as faulty, once. -/
def State.islandFault (s : State) (i : Island) (cause : Nat) : State :=
  if s.isl.islandOut.contains i then s
  else { s with isl := { s.isl with islandOut := s.isl.islandOut ++ [i] } }.islandUnits i cause

/-- An island's time copy is faulty: it is reloaded from the bus, and the third fault within 1 s makes the island faulty. -/
def State.copyFault (s : State) (i : Island) : State :=
  let recent := (s.isl.copyFaults.filter fun p => decide (s.clk < p.2 + secTicks 1)) ++ [(i, s.clk)]
  let s := { s with isl := { s.isl with copyFaults := recent } }.unitLost 5 (islandCode i) 7
  if 3 ≤ (recent.filter fun p => p.1 == i).length then s.islandFault i 7 else s

/-! ## Words of the packet memory (R231, R233, R253) -/

/-- GUARANTEE_BREACH: the row of Table 18.5, and the holder or channel. -/
def State.breach (s : State) (row who : Nat) : State := s.raise 0x1203 none (toBe 1 row ++ toBe 1 who)

/-- Marks the DRAM block of a cell of the pool (R250, R253). -/
def State.markBlock (s : State) (cell : Nat) : State :=
  if s.queues.marked.contains (cell / 7) || decide (s.poolCells ≤ cell) then s
  else { s with queues := { s.queues with marked := s.queues.marked ++ [cell / 7] } }

/-- A word corrected at its read; the 16th of a block within 24 h marks it. -/
def State.wordCorrected (s : State) (staging : Bool) (cell : Nat) : State :=
  if staging then s.count .memCeStaging .device
  else if s.noDram then s
  else
    let l := (s.queues.corrected.filter fun p => decide (s.clk < p.2 + secTicks 86400)) ++ [(cell / 7, s.clk)]
    let s := { s with queues := { s.queues with corrected := l } }.count .memCeDram .device
    if 16 ≤ (l.filter fun p => p.1 == cell / 7).length then s.markBlock cell else s

/-- Discards a packet and releases its cells; of a downstream packet the rest goes too (R162). -/
def State.dropPacket (s : State) (p : Packet) : State :=
  let s := s.releaseChain p.acct p.cells p.chain
  match p.content with
  | .down d => s.abandonRest d
  | _ => s

/-- A frame read by the MAC, discarded. -/
def State.dropTaken (s : State) (f : Fe) (r : Retry) : State :=
  if r.bulk then s.bulkSentBy f r else (s.releaseChain r.acct r.cells r.chain).abandonRest r.frame

/-- What is read where a word is met: its queue, its cells, and the state without it. -/
structure Read where
  queue : Nat
  chain : List Nat
  after : State

/-- What is being read, where there is such a packet. -/
def State.readAt (s : State) : ReadAt → Option Read
  | .head q f => match s.take (orderKey q (feCode f)) with
    | (some p, t) => some { queue := q, chain := p.chain, after := t.dropPacket p }
    | (none, _) => none
  | .retry f n =>
    let x := s.feSt f
    x.retry[n]?.map fun r =>
      { queue := r.queue, chain := r.chain, after := (s.setFe f { x with retry := x.retry.eraseIdx n }).dropTaken f r }
  | .flow i => match s.flowOf i with
    | some w => match w.frames with
      | (q, p) :: l => some { queue := q, chain := p.chain, after := (s.setFlow { w with frames := l }).dropPacket p }
      | [] => none
    | none => none
  | .lane l => match (s.laneNow l.val).phase with
    | .frame i h => some { queue := 384 + i.fe, chain := h.chain, after := s.rewindLane l.val }
    | _ => none
  | .port p =>
    let x := s.port p
    if x.rxCells = 0 then none else some { queue := 387, chain := x.rxChain, after := s.rewindPort p true }

/-- A word beyond correction, or a DRAM wait beyond 2 µs, in the cell at place `pos` of a packet: the packet read is lost, counted and told.  From
DRAM only a cell that has left staging is read (R239). -/
def State.wordLost (s : State) (place : ReadAt) (staging late : Bool) (pos : Nat) : State :=
  match s.readAt place with
  | none => s
  | some r => match r.chain[pos]? with
    | none => s
    | some cell =>
      if !staging && (s.noDram || !s.queues.homed.contains cell) then s
      else
        let t := (r.after.count .memUe .device).raise 0x0901 none (toBe 2 r.queue ++ toBe 3 cell)
        if staging then t
        else
          let t := t.markBlock cell
          if late then (t.count .dramLate .device).breach 3 (islandCode .ddr) else t

/-! ## Rows of faults -/

/-- The unit of Table 18.6 is mapped out, where it serves. -/
def State.unitFault (s : State) (u : FaultUnit) : State :=
  match u with
  | .decoder c => if s.dec.out.getD c.val true then s else s.decoderFault c.val 1
  | .cipher c => if s.crypto.unitOut.getD c.val true then s else s.cipherFault c.val
  | .mcore c => if s.isl.mcoreOut.getD c.val true then s else s.mcoreFault c.val 3
  | .frontEnd f => if s.hasFe f then s.feFault f 4 else s
  | .staging b =>
    if s.isl.bankOut.getD b.val true then s else { s with isl := { s.isl with bankOut := s.isl.bankOut.set b.val true } }.unitLost 4 b.val 5
  | .queueDesc q oneGood => if oneGood then s else s.emptyQueue q
  | .islandTime i => match i with
    | .lanesA | .lanesB => s
    | _ => if s.hasIsland i then s.copyFault i else s
  | .serdes p => if (s.port p).out then s else s.serdesFault p 8
  | .corrected staging cell => s.wordCorrected staging cell
  | .uncorrectable place staging late cell => s.wordLost place staging late cell
  | .cellFree cell => if s.cellsHeld.contains cell then s else s.cellFreed cell
  | .heartPage l => s.retirePage l

/-- UNIT_FAULT (R500 to R502, R515; the last row of Table 18.6: R231, R233, R253, R472). -/
def execUnitFault (dt : Nat) (u : FaultUnit) (s : State) : Host.Outcome State Fault Refusal :=
  .next (let t := s.tick dt
    if t.powered then t.unitFault u else t)

/-- MERIDIAN_UPDATE (R181): a copy that differs by more than 16 ns is faulty; the lanes' copies fault by LANE_FAULT. -/
def execMeridianUpdate (dt : Nat) (copies : List (Island × Int)) (s : State) : Host.Outcome State Fault Refusal :=
  .next (let t := s.tick dt
    if t.powered then copies.foldl (fun s p =>
      if 16 < p.2.natAbs ∧ p.1 ≠ .lanesA ∧ p.1 ≠ .lanesB ∧ s.hasIsland p.1 ∧ s.powered then s.copyFault p.1 else s) t
    else t)

/-- CHANNEL_TIMEOUT (R498). -/
def execChannelTimeout (dt : Nat) (i : Island) (s : State) : Host.Outcome State Fault Refusal :=
  .next (let t := s.tick dt
    if t.powered && t.hasIsland i then ((t.count .channelTimeout .device).breach 2 (islandCode i)).islandFault i 12 else t)

/-! ## Tags (R495, R498) -/

/-- Holders in the order of Table 18.3, as GUARANTEE_BREACH names them (log entry 62). -/
def holderCode : TagHolder → Nat
  | .lane l => l.val
  | .tx f => 48 + feCode f
  | .mcore i => 51 + i.val
  | .sawmill => 55
  | .portRx p => 56 + portCode p
  | .prpTx => 58
  | .m0 => 59
  | .sweep => 60
  | .walker => 61
  | .audit => 62

/-- What a holder was doing is abandoned as its chapter abandons it. -/
def State.abandonTag (s : State) : TagHolder → State
  | .lane l => s.rewindLane l.val
  | .tx f => (match (s.feSt f).ackWait with
    | some w => s.ackMissing f w
    | none => s.clearAttempt f)
  | .sawmill => { s with back := { s.back with sends := s.back.sends.drop 1 } }
  | .portRx p => s.rewindPort p true
  | .prpTx =>
    let f := fun (x : PortSt) => { x with copies := x.copies.drop 1 }
    { s with back := { s.back with port := { p0 := f s.back.port.p0, p1 := f s.back.port.p1 } } }.closeSends
  | .mcore _ | .m0 | .sweep | .walker | .audit => s

/-- Three reclaims within 1 s: the holder is a faulty unit, where Table 18.6 knows it. -/
def State.holderFault (s : State) : TagHolder → State
  | .lane l => if s.laneLive l.val then s.faultLane l.val .stuck else s
  | .tx f => if s.hasFe f then s.feFault f 11 else s
  | .mcore i => if s.isl.mcoreOut.getD i.val true then s else s.mcoreFault i.val 11
  | .portRx p => if (s.port p).out then s else s.serdesFault p 11
  | .sawmill | .prpTx | .m0 | .sweep | .walker | .audit => s

/-- A tag is reclaimed. -/
def State.reclaimTag (s : State) (h : TagHolder) : State :=
  let recent := (s.isl.reclaims.filter fun p => decide (s.clk < p.2 + secTicks 1)) ++ [(h, s.clk)]
  let s := { s with isl := { s.isl with reclaims := recent } }
  let s := ((s.abandonTag h).count .tagReclaimed .device).breach 0 (holderCode h)
  if 3 ≤ (recent.filter fun p => p.1 == h).length then (s.breach 1 (holderCode h)).holderFault h else s

/-- TAG_HOLD_EXPIRY (R498). -/
def execTagHoldExpiry (dt : Nat) (h : TagHolder) (s : State) : Host.Outcome State Fault Refusal :=
  .next (let t := s.tick dt
    if t.powered && t.hasHolder h then t.reclaimTag h else t)

/-! ## Thermal steps (R503, R504, Table 18.8) -/

def State.stepOn (s : State) (k : Nat) : Int :=
  match k with
  | 1 => s.cfgN 0x17 0 0 1 120
  | 2 => s.cfgN 0x17 0 2 1 123
  | 3 => 127
  | _ => 132

def State.stepOff (s : State) (k : Nat) : Int :=
  match k with
  | 1 => s.cfgN 0x17 0 1 1 110
  | 2 => s.cfgN 0x17 0 3 1 113
  | 3 => 120
  | _ => 110

def State.minDwell (s : State) : Nat := s.cfgN 0x17 0 4 2 60

/-- Step 2 is enabled. -/
def State.step2On (s : State) : Bool := bitOf (s.cfgN 0x17 0 6 1 1) 0

/-- THERMAL_STEP: step, direction (0 entered, 1 left), Tj in °C as two's complement. -/
def State.tellStep (s : State) (k dir : Nat) : State :=
  (s.count .thermalStep (.kind k)).raise 0x1201 none (toBe 1 k ++ toBe 1 dir ++ toBe 2 (unsigned 16 s.isl.tj))

/-- Step 1: the second half of the lanes is powered down, or on the EPB7224 stopped in a domain that stays powered. -/
def State.enterStep1 (s : State) : State :=
  if s.domB.returning then s.setDom .b { powered := !s.full, stopped := !s.full } else s.stopDom .b

/-- Its lanes are commanded up again (Table 5.7). -/
def State.leaveStep1 (s : State) : State :=
  let s := if s.domB.stopping.isSome then (s.setDom .b { s.domB with stopping := some 0 }).domDown .b else s
  if s.domA.powered then s.setDom .b { powered := !s.full, returning := true } else s

/-- Cipher unit u is clock-gated; a job it holds goes to another. -/
def State.gateUnit (s : State) (u : Nat) : State :=
  let j := s.crypto.unitJob.get u
  let s := { s with
    crypto := { s.crypto with unitOut := s.crypto.unitOut.set u true, unitJob := s.crypto.unitJob.erase u, waiting := j.toList ++ s.crypto.waiting }
    canopy := { s.canopy with cipherOrder := s.canopy.cipherOrder.filter (· != u) } }
  s.offerJobs

/-- Step 2: D2, D3, C2 and C3 leave service, those that serve. -/
def State.enterStep2 (s : State) : State :=
  let ds := [2, 3].filter fun c => !s.dec.out.getD c true
  let us := [2, 3].filter fun u => !s.crypto.unitOut.getD u true
  let s := { s with isl := { s.isl with step2 := ds ++ us.map (· + 4) } }
  let s := (ds.foldl State.takeDecoder s).dropHelec
  let s := us.foldl State.gateUnit s
  if s.noUnit then s.secError 3 0 else s

/-- They return: cores to the end of their order, each unit after its known-answer test (R504). -/
def State.leaveStep2 (s : State) (unitOk : List Bool) : State :=
  let l := s.isl.step2
  let s := { s with isl := { s.isl with step2 := [] } }
  let s := l.foldl (fun (s : State) k =>
    if k < 4 then { s with dec := { s.dec with out := s.dec.out.set k false, order := s.dec.order ++ [k] } }
    else if unitOk.getD (k - 4) true then
      { s with crypto := { s.crypto with unitOut := s.crypto.unitOut.set (k - 4) false }
               canopy := { s.canopy with cipherOrder := s.canopy.cipherOrder ++ [k - 4] } }
    else s.mapOutUnit (k - 4)) s
  (s.feed).offerJobs

/-- Step 4: the power-fail sequence, and reset held until Tj has fallen (restart cause 3). -/
def State.enterStep4 (s : State) : State :=
  let t := s.powerSequence.holdIn .thermalHold
  { t with
    isl := { t.isl with step := 4, entered := s.isl.entered, coolSince := [none, none, none, none] }
    life := { t.life with restartCause := 3 } }

/-- A step is entered. -/
def State.enterStep (s : State) (k : Nat) : State :=
  let s := { s with isl := { s.isl with step := k, entered := s.isl.entered.set (k - 1) s.clk, coolSince := s.isl.coolSince.set (k - 1) none } }
  let s := s.tellStep k 0
  match k with
  | 1 => s.enterStep1
  | 2 => s.enterStep2
  | 3 => s
  | _ => s.enterStep4

/-- Steps whose entry value Tj has reached, in ascending order. -/
def State.enterSteps (s : State) : State :=
  [1, 2, 3, 4].foldl (fun s k =>
    if decide (s.isl.step < k) && decide (s.stepOn k ≤ s.isl.tj) && (k != 2 || s.step2On) then s.enterStep k else s) s

/-- Since when Tj has stood at or below each step's exit value. -/
def State.cool (s : State) : State :=
  let f := fun (k : Nat) => if s.isl.tj ≤ s.stepOff k then some ((s.isl.coolSince.getD (k - 1) none).getD s.clk) else none
  { s with isl := { s.isl with coolSince := [f 1, f 2, f 3, f 4] } }

/-- The step may be left: 1 s at or below its exit value, and the dwell since its entry. -/
def State.mayLeave (s : State) (k : Nat) : Bool :=
  (match s.isl.coolSince.getD (k - 1) none with
    | some c => decide (c + secTicks 1 ≤ s.clk)
    | none => false) && decide (s.isl.entered.getD (k - 1) 0 + secTicks s.minDwell ≤ s.clk)

/-- The step below k that is in force. -/
def State.stepBelow (s : State) (k : Nat) : Nat := if k = 3 ∧ !s.step2On then 1 else k - 1

/-- Steps 3 to 1 are left, the highest first. -/
def State.leaveSteps (s : State) (unitOk : List Bool) : State :=
  [3, 2, 1].foldl (fun s k =>
    if s.isl.step = k ∧ s.mayLeave k then
      let s := { s with isl := { s.isl with step := s.stepBelow k } }.tellStep k 1
      match k with
      | 1 => s.leaveStep1
      | 2 => s.leaveStep2 unitOk
      | _ => s
    else s) s

/-- The filtered Tj is read. -/
def State.thermal (s : State) (tj : Int) (e : StartEnv) : State :=
  let s := { s with isl := { s.isl with tj := tj } }
  match s.life.mode with
  | .thermalHold =>
    let s := s.cool
    if s.mayLeave 4 then
      let t := (s.countKept .thermalStep (.kind 4)).start e
      t.raise 0x1201 none (toBe 1 4 ++ toBe 1 1 ++ toBe 2 (unsigned 16 tj))
    else s
  | .operate | .noConfig | .provision | .stump | .retired | .secError =>
    let s := s.enterSteps
    if s.life.mode == .thermalHold then s else s.cool.leaveSteps e.tests.unitOk
  | _ => s

/-- THERMAL_STEP (R503, R504). -/
def execThermalStep (dt : Nat) (tj : Int) (e : StartEnv) (s : State) : Host.Outcome State Fault Refusal := .next ((s.tick dt).thermal tj e)

end Sys2Proof.Machine
end

