-- ==== Sys2Proof/Machine/Flags.lean ====
section
/-! DEFINITION. What the part shows of itself: SEC_STAT (R348), M0's BUSY, ATTN and STATUS octet (R430, R431), and the status octet of
IDENTITY-GET and ATTEST (Table 12.7). -/

namespace Sys2Proof.Machine

/-- Row of Table 12.9 in force, 0 to 4. -/
def State.secStat (s : State) : Nat :=
  match s.life.mode with
  | .zeroising | .zeroHold => 3
  | .secError => 4
  | .operate | .noConfig | .provision => if s.life.approved then 1 else 2
  | _ => 0

/-- M0's ATTN (R431). -/
def State.attn (s : State) : Bool := s.life.mode == .secError || !(s.order (orderKey 396 0)).isEmpty

/-- Life-cycle code of Table 15.3. -/
def State.m0State (s : State) : Nat :=
  match s.life.mode with
  | .secError => 3
  | .stump => 4
  | .noConfig => 5
  | _ => match s.life.lcs with
    | .provision => 0
    | .operate => 1
    | .retired => 2

/-- The STATUS octet of M0 (Table 15.3). -/
def State.m0StatusOctet (s : State) : Byte :=
  BitVec.ofNat 8 ((if s.pins.m0Busy then 1 else 0) + (if s.attn then 2 else 0) + 4 * s.m0State)

/-- Life-cycle state as Table 12.7 codes it; RETIRED takes the next code (log entry 12). -/
def lcsCode : Lcs → Nat
  | .provision => 1
  | .operate => 2
  | .retired => 3

/-- The status octet of Table 12.7. -/
def State.statusOctet (s : State) : Nat :=
  (if s.life.approved then 1 else 0) + (if s.kcfgHeld then 2 else 0) + (if s.life.pufMargin then 4 else 0)

/-- A slot number as IDENTITY-GET gives it; 0xFF for none (log entry 12). -/
def slotCode (o : Option Nat) : Nat := o.getD 0xFF

end Sys2Proof.Machine
end

