-- ==== Sys2Proof/Machine/Lifecycle.lean ====
section
/-! DEFINITION. Meanings of the rows of identity, life cycle, self-tests, zeroisation, tamper and JTAG (chapters 2, 12 and 19). -/

namespace Sys2Proof.Machine

/-! ## Identity and status -/

/-- The result of IDENTITY-GET (Table 15.4). -/
def State.identity (s : State) : Octets :=
  toBe 2 s.partCode ++ toBe 8 s.id.eui64.toNat ++ toBe 1 (lcsCode s.life.lcs) ++ toBe 1 s.statusOctet ++ toBe 4 s.id.romVersion.toNat ++
    toBe 4 s.life.fwVersion.toNat ++ toBe 1 (slotCode s.life.fwSlot) ++ toBe 1 (slotCode s.life.cfgSlot) ++
    toBe 4 (match s.life.image with
      | some i => i.version.toNat
      | none => 0)

/-- IDENTITY_GET (R439). -/
def execIdentityGet (dt : Nat) (m : Mbox) (s : State) : Host.Outcome State Fault Refusal :=
  .next ((s.tick dt).shortCmd m.val 0x0101 0 fun s r => s.respond m.val r sOk s.identity)

/-- The result of SECURITY-STATUS (R350). -/
def State.securityStatus (s : State) : Octets :=
  toBe 1 s.secStat ++ toBe 1 s.life.secCause.toNat ++ toBe 6 s.life.secEntry.toNat ++ toBe 16 s.hw.zeroCount.toNat

/-- SECURITY_STATUS (R350). -/
def execSecurityStatus (dt : Nat) (m : Mbox) (s : State) : Host.Outcome State Fault Refusal :=
  .next ((s.tick dt).shortCmd m.val 0x0102 0 fun s r => s.respond m.val r sOk s.securityStatus)

/-- Octets 0 to 119 of Table 12.7. -/
def State.report (s : State) (challenge : Octets) (key : Nat) : Octets :=
  let img := s.life.image
  toBe 2 s.partCode ++ toBe 8 s.id.eui64.toNat ++ toBe 1 (lcsCode s.life.lcs) ++ toBe 1 s.statusOctet ++ toBe 4 s.id.romVersion.toNat ++
    toBe 4 s.life.fwVersion.toNat ++ natOcts (sha256 (octNats s.life.fwHeader)) ++
    (match img with
      | some i => toBe 4 i.version.toNat ++ i.mac
      | none => List.replicate 20 0) ++
    toBe 4 s.hw.floor.toNat ++ toBe 16 s.hw.zeroCount.toNat ++
    (match s.kcfgHeld, s.hw.kcfg with
      | true, some (_, k) => k
      | _, _ => List.replicate 8 0) ++
    challenge ++ toBe 1 key ++ [0, 0, 0]

/-- ATTEST (R344). -/
def State.attest (s : State) (m : Nat) (r : Request) : State :=
  let key := beField r.payload 16 1
  if key > 1 then s.respond m r sRange []
  else if key = 1 && !s.kcfgHeld then s.respond m r sState []
  else
    let o := s.report (r.payload.take 16) key
    s.respond m r sOk (o ++ natOcts (cmac (s.slot (if key = 0 then 2 else 7)).octets (octNats o)))

/-- ATTEST (R344). -/
def execAttest (dt : Nat) (m : Mbox) (s : State) : Host.Outcome State Fault Refusal :=
  .next ((s.tick dt).shortCmd m.val 0x0103 17 fun s r => s.attest m.val r)

/-! ## Self-tests (R345, R346) -/

/-- SELFTEST-RUN repeats the tests of Table 2.4; one marked so enters SECURITY-ERROR, and no final response follows. -/
def State.selftestRun (s : State) (m : Nat) (r : Request) (e : TestEnv) : State :=
  let q := s.allTests e
  if q.1 ≠ 0 then (q.2.respond m r sAccepted []).secError q.1 0
  else
    let unit := (List.range 4).any fun u => !(s.crypto.unitOut.getD u false) && q.2.crypto.unitOut.getD u false
    q.2.begin m r [] sOk (if unit then toBe 1 0 ++ toBe 1 3 else toBe 1 1 ++ toBe 1 0)

/-- SELFTEST_RUN (R346). -/
def execSelftestRun (dt : Nat) (m : Mbox) (e : TestEnv) (s : State) : Host.Outcome State Fault Refusal :=
  .next ((s.tick dt).shortCmd m.val 0x0104 0 fun s r => s.selftestRun m.val r e)

/-- The part runs firmware with its slots in use: periodic tests and reseeding go on. -/
def State.tested (s : State) : Bool := s.life.mode == .operate || s.life.mode == .noConfig || s.life.mode == .provision

/-- The periodic tests of Table 12.8, every 24 h. -/
def State.periodicTest (s : State) (e : TestEnv) : State :=
  if !s.tested || decide (s.clk < s.crypto.selfTestClk + secTicks 86400) then s
  else
    let s := ({ s with crypto := { s.crypto with selfTestClk := s.clk } }.count .selftestPeriodic .device).unitTests e.unitOk
    if s.noUnit then s.secError 3 0
    else match e.firstFail with
      | some k => s.secError (4 + k.val) 0
      | none => s

/-- PERIODIC_SELFTEST (R345, R346). -/
def execPeriodicSelftest (dt : Nat) (e : TestEnv) (s : State) : Host.Outcome State Fault Refusal := .next ((s.tick dt).periodicTest e)

/-- The CTR_DRBG is reseeded (R342, R343). -/
def State.reseed (s : State) (first second : Bool) : State :=
  if !s.crypto.drbgOn || (decide (s.clk < s.crypto.drbgClk + secTicks 3600) && decide (s.crypto.drbgReqs < 2 ^ 20)) then s
  else
    let c := s.collect first second
    if c.1 then { c.2 with crypto := { c.2.crypto with drbgClk := s.clk, drbgReqs := 0, entropyFails := 0 } }
    else c.2.secError 2 0

/-- DRBG_RESEED (R343). -/
def execDrbgReseed (dt : Nat) (first second : Bool) (s : State) : Host.Outcome State Fault Refusal := .next ((s.tick dt).reseed first second)

/-! ## Provisioning (R340) -/

/-- CFG-KEY-INSTALL (R340). -/
def State.cfgKeyInstall (s : State) (m : Nat) (r : Request) : State :=
  if s.kcfgHeld then s.respond m r sRefused []
  else match s.unwrapBy 3 (r.payload.take 40) with
    | none => (s.count .keyUnwrapFail .device).respond m r sUnwrap []
    | some k =>
      let id := r.payload.drop 40
      let s := { s with
        hw := { s.hw with kcfg := some (s.wrapHw k, id) }, life := { s.life with cfgChecked := [false, false], provSlot := none } }
      (s.deriveCfg k id).begin m r [] sOk []

/-- CFG_KEY_INSTALL (R340). -/
def execCfgKeyInstall (dt : Nat) (m : Mbox) (s : State) : Host.Outcome State Fault Refusal :=
  .next ((s.tick dt).shortCmd m.val 0x0105 48 fun s r => s.cfgKeyInstall m.val r)

/-- A key installed in the no-configuration condition serves from then on (R51, R432). -/
def State.serveInstalled (s : State) (k : Nat) (key : List Nat) : State :=
  if s.life.mode ≠ .noConfig then s
  else (if (s.mb k).isOpen then s else s.openMbox k 0 0 0).useMboxKey k 0 key

/-- MBOX-KEY-INSTALL (R340, R426). -/
def State.mboxKeyInstall (s : State) (m : Nat) (r : Request) : State :=
  let k := beField r.payload 0 1
  if !s.kcfgHeld then s.respond m r sRefused []
  else if k > 1 then s.respond m r sRange []
  else match s.unwrapBy 6 (r.payload.drop 1) with
    | none => (s.count .keyUnwrapFail .device).respond m r sUnwrap []
    | some key =>
      let s := { s with hw := { s.hw with mboxKeys := s.hw.mboxKeys.set k (s.wrapHw key) } }
      (s.begin m r [] sOk []).serveInstalled k key

/-- MBOX_KEY_INSTALL (R340). -/
def execMboxKeyInstall (dt : Nat) (m : Mbox) (s : State) : Host.Outcome State Fault Refusal :=
  .next ((s.tick dt).shortCmd m.val 0x0106 41 fun s r => s.mboxKeyInstall m.val r)

/-! ## Transitions of Table 2.2 -/

/-- LIFECYCLE-OPERATE: transition 2 (R26, R55, R438).  The floor and the anti-rollback value are 0 on leaving PROVISION (R44, R480). -/
def State.lifecycleOperate (s : State) (m : Nat) (r : Request) : State :=
  if !s.kcfgHeld || s.hw.mboxKeys.isEmpty || !s.life.cfgChecked.any (fun b => b) || !s.life.selfTestsPassed then s.respond m r sRefused []
  else
    let s := (s.respond m r sAccepted []).sendLast
    { s with life := { s.life with lcs := .operate }, hw := { s.hw with floor := 0, rollback := 0 } }.restartBy 1

/-- LIFECYCLE_OPERATE (R26, R55). -/
def execLifecycleOperate (dt : Nat) (m : Mbox) (s : State) : Host.Outcome State Fault Refusal :=
  .next ((s.tick dt).shortCmd m.val 0x0107 0 fun s r => s.lifecycleOperate m.val r)

/-- RETIRE_PREPARE (R26): a window of 60 000 ms opens. -/
def execRetirePrepare (dt : Nat) (m : Mbox) (s : State) : Host.Outcome State Fault Refusal :=
  .next ((s.tick dt).shortCmd m.val 0x0108 0 fun s r =>
    { s with life := { s.life with retirePrep := some (m.val, s.clk) } }.respond m.val r sOk (toBe 4 60000))

/-- The window of RETIRE-PREPARE stands for this mailbox. -/
def State.mayRetire (s : State) (m : Nat) : Bool :=
  match s.life.retirePrep with
  | some (k, t) => k == m && decide (s.clk ≤ t + secTicks 60)
  | none => false

/-- RETIRE (R26): S_ACCEPTED, then zeroisation; the fuse pattern follows at its end. -/
def execRetire (dt : Nat) (m : Mbox) (s : State) : Host.Outcome State Fault Refusal :=
  .next ((s.tick dt).shortCmd m.val 0x0109 0 fun s r =>
    if s.mayRetire m.val then (s.respond m.val r sAccepted []).sendLast.zeroise .retire else s.respond m.val r sRefused [])

/-- ZEROISE-ALL ends every running operation with S_ABORTED and begins zeroisation (R355, R436). -/
def State.zeroiseAll (s : State) (m : Nat) (r : Request) : State :=
  let s := (List.range 8).foldl (fun s k => match (s.mb k).busy with
    | some b => s.finish k b sAborted []
    | none => s) s
  (s.respond m r sAccepted []).sendLast.zeroise .command

/-- ZEROISE_ALL (R355, R436). -/
def execZeroiseAll (dt : Nat) (m : Mbox) (s : State) : Host.Outcome State Fault Refusal :=
  .next ((s.tick dt).shortCmd m.val 0x010A 0 fun s r => s.zeroiseAll m.val r)

/-- RESTART (R438): in Stump a target that passed its check is named first in the directory (R492). -/
def State.restartCmd (s : State) (m : Nat) (r : Request) : State :=
  let s := (s.respond m r sAccepted []).sendLast
  let s := match s.life.stump with
    | some t => if t.checked then s.writeDir fun d => { d with fw := t.target, fwTrial := false } else s
    | none => s
  s.restartBy 1

/-- RESTART (R438, R492). -/
def execRestart (dt : Nat) (m : Mbox) (s : State) : Host.Outcome State Fault Refusal :=
  .next ((s.tick dt).shortCmd m.val 0x010B 0 fun s r => s.restartCmd m.val r)

/-! ## Zeroisation (Table 12.12, R356) -/

/-- ZEROISE_N goes low: zeroisation begins at once while the part runs, and is latched while the main supply is absent. -/
def State.zeroiseLow (s : State) : State :=
  let s := { s with pins := { s.pins with zeroiseN := false } }
  match s.life.mode with
  | .unpowered => { s with pins := { s.pins with zeroiseLatch := true } }
  | .zeroising | .zeroHold => s
  | _ => s.zeroise .pin

/-- ZEROISE_N_LOW (R356). -/
def execZeroiseNLow (dt : Nat) (s : State) : Host.Outcome State Fault Refusal := .next ((s.tick dt).zeroiseLow)

/-- Step 5 of Table 12.12: SECURITY-ERROR after a class A trip (R353), the RETIRED pattern after RETIRE, and a restart. -/
def State.zeroLast (s : State) (e : StartEnv) : State :=
  match s.crypto.zeroising with
  | none => s
  | some (.tamperA k) =>
    if s.life.lcs = .retired then (s.restartBy 6).start e
    else
      let t := (s.holdIn .reset).secError 0x10 k
      if !s.pins.resetN then t.holdIn .reset else if s.life.jtagDrives then t.holdIn .jtagHold else t
  | some .retire => ({ s with life := { s.life with lcs := .retired } }.restartBy 1).start e
  | some _ => (s.restartBy 6).start e

/-- Steps 3 to 5; the part waits at step 5 while ZEROISE_N stays low (Table 2.5). -/
def State.zeroisationEnd (s : State) (e : StartEnv) : State :=
  if s.life.mode ≠ .zeroising then s
  else
    let s := s.zeroEnd
    if s.pins.zeroiseN then s.zeroLast e else { s with life := { s.life with mode := .zeroHold } }

/-- ZEROISATION_END (R355). -/
def execZeroisationEnd (dt : Nat) (e : StartEnv) (s : State) : Host.Outcome State Fault Refusal := .next ((s.tick dt).zeroisationEnd e)

/-- ZEROISE_N returns high (R30). -/
def State.zeroiseHigh (s : State) (e : StartEnv) : State :=
  let s := { s with pins := { s.pins with zeroiseN := true } }
  if s.life.mode = .zeroHold then s.zeroLast e else s

/-- ZEROISE_N_HIGH (R30). -/
def execZeroiseNHigh (dt : Nat) (e : StartEnv) (s : State) : Host.Outcome State Fault Refusal := .next ((s.tick dt).zeroiseHigh e)

/-! ## Tamper (R351 to R354) -/

/-- Rows of Table 12.11. -/
def sensorA : SensorA → Nat
  | .shield => 0
  | .light => 1

def sensorB : SensorB → Nat
  | .supply => 2
  | .clock => 3
  | .temperature => 4

/-- A trip is counted by sensor, in Heartwood's Tally as well, and journalled with its time (R352). -/
def State.trip (s : State) (k : Nat) : State :=
  let t := s.countKept .tamperEvents (.sensor k)
  { t with hw := { t.hw with trips := t.hw.trips ++ [{ sensor := k, sec := s.time.sec, delivered := false }] } }

/-- A class A trip (R353); one during zeroisation leads to SECURITY-ERROR at its end. -/
def State.tripA (s : State) (k : Nat) : State :=
  match s.life.mode with
  | .unpowered => s
  | .zeroising | .zeroHold => let t := s.trip k
    { t with crypto := { t.crypto with zeroising := some (.tamperA k) } }
  | _ => (s.trip k).zeroise (.tamperA k)

/-- TAMPER_CLASS_A (R353). -/
def execTamperClassA (dt : Nat) (sensor : SensorA) (s : State) : Host.Outcome State Fault Refusal := .next ((s.tick dt).tripA (sensorA sensor))

/-- A class B trip (R354): a reset and a start, or SECURITY-ERROR at the third within 60 s; one during zeroisation, or while the part is
held in reset, is counted alone. -/
def State.tripB (s : State) (k : Nat) (e : StartEnv) : State :=
  match s.life.mode with
  | .unpowered => s
  | .zeroising | .zeroHold | .thermalHold | .jtagHold | .reset => s.trip k
  | .pfHeld => if k = 2 then s else s.trip k
  | _ =>
    let l := (s.crypto.tamperB.filter fun t => decide (s.clk ≤ t + secTicks 60)) ++ [s.clk]
    let s := s.trip k
    if l.length ≥ 3 ∧ s.life.lcs ≠ .retired then { s with crypto := { s.crypto with tamperB := [] } }.secError 0x11 k
    else ({ s with crypto := { s.crypto with tamperB := l } }.restartBy 4).start e

/-- TAMPER_CLASS_B (R354). -/
def execTamperClassB (dt : Nat) (sensor : SensorB) (e : StartEnv) (s : State) : Host.Outcome State Fault Refusal :=
  .next ((s.tick dt).tripB (sensorB sensor) e)

/-! ## JTAG (R526) -/

def drivesBalls : JtagInstr → Bool
  | .extest | .extestPulse | .extestTrain | .clamp | .highz => true
  | .bypass | .idcode | .samplePreload => false

/-- The JTAG identity code (R525): stepping, part code, manufacturer identity; bit 0 is 1 as IEEE 1149.1 has it (PRESUMED, log entry 82). -/
def State.idCode (s : State) : BitVec 32 := s.id.stepping ++ BitVec.ofNat 16 s.partCode ++ s.id.manufacturer ++ 1#1

/-- The TAP takes an instruction (R525, R526).  One that drives balls holds the part as in reset; during zeroisation, from its end. -/
def State.jtag (s : State) (i : JtagInstr) : State :=
  let s := { s with life := { s.life with idReg := if i = .idcode then some s.idCode else none } }
  if !drivesBalls i then s
  else match s.life.mode with
    | .reset | .unpowered | .pfHeld | .thermalHold | .jtagHold => s
    | .zeroising | .zeroHold => { s with life := { s.life with jtagDrives := true } }
    | _ =>
      let t := { s with life := { s.life with jtagDrives := true } }.holdIn .jtagHold
      { t with life := { t.life with restartCause := 5 } }

/-- JTAG_INSTRUCTION_UPDATE (R526). -/
def execJtagInstructionUpdate (dt : Nat) (i : JtagInstr) (s : State) : Host.Outcome State Fault Refusal := .next ((s.tick dt).jtag i)

/-- The TAP passes through Test-Logic-Reset: a held part starts at step 1. -/
def State.testLogicReset (s : State) (e : StartEnv) : State :=
  let s := { s with life := { s.life with jtagDrives := false } }
  if s.life.mode = .jtagHold then s.start e else s

/-- TEST_LOGIC_RESET (R526). -/
def execTestLogicReset (dt : Nat) (e : StartEnv) (s : State) : Host.Outcome State Fault Refusal := .next ((s.tick dt).testLogicReset e)

end Sys2Proof.Machine
end

