-- ==== Sys2Proof/Machine/TimeStep.lean ====
section
/-! DEFINITION. A step of network time (R176, R177, R215, R225) and the Meridian bus (R181). -/

namespace Sys2Proof.Machine

/-- An instant of network time moved by δ. -/
def shiftNs (d : Int) (x : Nat) : Nat := ((x : Int) + d).toNat

/-! ## What each holder keeps for later comparison with network time -/

def TxReq.shift (d ds : Int) (q : TxReq) : TxReq :=
  { q with target := shiftNs d q.target, latest := shiftNs d q.latest, start := shiftNs d q.start, charge := q.charge.map fun c => (c.1, shiftNs ds c.2)
           body := match q.body with
             | .beacon close elem => .beacon (shiftNs d close) elem
             | b => b }

def Retry.shift (d : Int) (r : Retry) : Retry := { r with commit := shiftNs d r.commit }

def Attempt.shift (d ds : Int) (a : Attempt) : Attempt :=
  { a with bound := a.bound.map (shiftNs d), senseStart := shiftNs d a.senseStart, admitted := a.admitted.map fun c => (c.1, shiftNs ds c.2)
           body := match a.body with
             | .frame r => .frame (r.shift d)
             | .beacon close => .beacon (shiftNs d close)
             | .test => .test }

def AckWait.shift (d : Int) (w : AckWait) : AckWait :=
  { w with retry := w.retry.shift d, deadline := shiftNs d w.deadline, arrived := w.arrived.map (shiftNs d) }

/-- `ds` moves the seconds of duty bins (R177), `d` everything else but the gate entry of the beacon due, whose instants the list gives (R215). -/
def FeSt.shift (d ds : Int) (x : FeSt) : FeSt :=
  { x with posted := x.posted.map (TxReq.shift d ds), held := x.held.map (TxReq.shift d ds), cur := x.cur.map (TxReq.shift d ds)
           lastEnd := shiftNs d x.lastEnd, attempt := x.attempt.map (Attempt.shift d ds), retry := x.retry.map (Retry.shift d)
           ackWait := x.ackWait.map (AckWait.shift d) }

def RxInfo.shift (d : Int) (i : RxInfo) : RxInfo := { i with cmpNs := shiftNs d i.cmpNs }

def LaneSt.shift (d : Int) (x : LaneSt) : LaneSt :=
  { x with done := x.done.map fun (p : RxInfo × RxHdr) => (p.1.shift d, { p.2 with endNs := shiftNs d p.2.endNs })
           phase := match x.phase with
             | .frame i h => .frame (i.shift d) { h with endNs := shiftNs d h.endNs }
             | .header i => .header (i.shift d)
             | p => p }

/-- The bin in progress is closed and later bins align to the new seconds (R177). -/
def Duty.shift (d ds : Int) (x : Duty) : Duty :=
  { x with bins := x.bins.map (fun b => (shiftNs ds b.1, b.2)), lastEnd := x.lastEnd.map (shiftNs d) }

def MacSt.shift (d ds : Int) (m : MacSt) : MacSt :=
  { m with duty := m.duty.map (fun p => (p.1, Duty.shift d ds p.2))
           dups := m.dups.map (fun (e : DupEntry) => { e with expiry := shiftNs d e.expiry })
           nbrs := m.nbrs.map (fun (n : Nbr) => { n with expected := n.expected.map (shiftNs d), sfdNs := shiftNs d n.sfdNs })
           conts := m.conts.map fun (c : Cont) => { c with endNs := shiftNs d c.endNs } }

/-- Whole seconds held modulo 2^w move by the change of the seconds count. -/
def shiftSec {w : Nat} (dsec : Int) (x : BitVec w) : BitVec w := BitVec.ofInt w ((x.toNat : Int) + dsec)

def Node.shift (d dsec : Int) (n : Node) : Node :=
  { n with paceNs := if n.paceNs = 0 then 0 else shiftNs d n.paceNs, refNs := if n.refNs = 0 then 0 else shiftNs d n.refNs
           lastHeard := shiftSec dsec n.lastHeard
           regExpiry := if n.regExpiry.toNat = 2 ^ 24 - 1 then n.regExpiry else shiftSec dsec n.regExpiry }

def LinkEntry.shift (d : Int) (e : LinkEntry) : LinkEntry := { e with sfdNs := shiftNs d e.sfdNs }

def TableSt.shift (d dsec : Int) (t : TableSt) : TableSt :=
  let l := fun (x : Tbl LinkEntry) => x.map fun p => (p.1, p.2.shift d)
  { t with nodes := t.nodes.map (fun p => (p.1, p.2.shift d dsec)), links := { sa := l t.links.sa, sb := l t.links.sb, h := l t.links.h }
           dodags := t.dodags.map fun p => (p.1, { p.2 with startNs := shiftNs d p.2.startNs }) }

/-- An arrival on a backhaul port is compared with network time later (R341); the timestamps of a receive descriptor stay. -/
def Content.shift (d : Int) (c : Content) : Content :=
  match c with
  | .eth port f arrivalNs => .eth port f (shiftNs d arrivalNs)
  | c => c

def Packet.shift (d : Int) (p : Packet) : Packet := { p with commit := shiftNs d p.commit, content := p.content.shift d }

def Queues.shift (d : Int) (q : Queues) : Queues :=
  { q with orders := q.orders.map (fun o => (o.1, o.2.map (Packet.shift d)))
           reasm := q.reasm.map fun (r : Reasm) => { r with frags := r.frags.map fun f => (f.1, f.2.1, f.2.2.shift d) } }

/-- Each flow keeps its remaining wait; the wheel is re-indexed (R225). -/
def Flow.shift (d : Int) (now : Nat) (f : Flow) : Flow :=
  let g := { f with frames := f.frames.map fun (p : Nat × Packet) => (p.1, p.2.shift d) }
  if f.released then { g with eligible := shiftNs d f.eligible } else g.place now (shiftNs d f.eligible)

def LinkEst.shift (d : Int) (e : LinkEst) : LinkEst := { e with usedNs := if e.usedNs = 0 then 0 else shiftNs d e.usedNs }

def Meas.shift (d : Int) (m : Meas) : Meas :=
  { m with est := { sa := m.est.sa.shift d, sb := m.est.sb.shift d, h := m.est.h.shift d }, uRef := m.uRef.map (shiftNs d) }

def CanopySt.shift (d : Int) (c : CanopySt) : CanopySt :=
  { c with meas := c.meas.map (fun p => (p.1, p.2.shift d)), taken := c.taken.map (fun (t : Taken) => { t with effNs := shiftNs d t.effNs })
           course := c.course.map (fun p => (p.1, { p.2 with decidedNs := shiftNs d p.2.decidedNs }))
           freezes := c.freezes.map fun (f : Freeze) => { f with endNs := f.endNs.map (shiftNs d) } }

/-- t2 and t3 of an exchange in course move with network time. -/
def PtpPort.shift (d : Int) (x : PtpPort) : PtpPort :=
  { x with sync := x.sync.map fun p => (p.1, p.2.1 + d, p.2.2)
           down := x.down.map fun p => (p.1, p.2 + d)
           up := x.up.map fun p => (p.1, p.2 + d) }

/-! ## The step -/

/-- BEACON entries that a forward step crosses wholly are skipped (R215): entries that start after the old instant and end before the new, under the
list in force in each cycle. -/
def State.crossed (s : State) (f : Fe) (old new : Nat) : Nat :=
  if new ≤ old then 0
  else
    let one := fun (c : Nat) => ((s.listAt f c).filter fun e =>
      geClass e == 0 && decide (old ≤ c * cycleNs + geStart e) && decide (c * cycleNs + geEnd e ≤ new)).length
    let c0 := cycleOf old
    let c1 := cycleOf new
    let all := fun (c : Nat) => ((s.listAt f c).filter fun e => geClass e == 0).length
    let turn := match (s.gates f).shadow with
      | some _ => min c1 (max (c0 + 1) (ceilTo (s.gates f).notBefore cycleNs / cycleNs))
      | none => c1
    if c1 = c0 then one c0
    else one c0 + (turn - (c0 + 1)) * all c0 + (c1 - turn) * all turn + one c1

/-- A change-over whose boundary lies between the old and the new time takes place at T (R215). -/
def State.stepGates (s : State) (f : Fe) (old new : Nat) : State :=
  let n := s.crossed f old new
  let s := if new < old then s.setFe f { s.feSt f with beaconFrom := 0 } else s
  let s := if s.radio && 0 < n then s.countN .gateSkippedStep (.fe (feCode f)) n else s
  let g := s.gates f
  match g.shadow with
  | some l =>
    let b := ceilTo g.notBefore cycleNs
    if old < b ∧ b ≤ new then (s.setGates f { g with active := l, shadow := none }).count .gateChangeover (.fe (feCode f)) else s
  | none => s

/-- A window of queue statistics closes with the samples it holds (R227). -/
def State.closeWindow (s : State) (sec : Nat) : State :=
  { s with wake := { s.wake with qlast := s.wake.qcur, qcur := [], qsec := sec } }

/-- Network time moves by δ, with every value held for later comparison with it (R176, R177); effective_sec stays (R307). -/
def State.moveTime (s : State) (d : Int) : State :=
  let new := shiftNs d s.netNs
  let dsec : Int := (new / 1000000000 : Nat) - (s.time.sec.toNat : Int)
  let ds : Int := dsec - 1
  { s with
    time := { s.time.ofNs new s.time.frac.toNat with pendStep := none, ppsIn := s.time.ppsIn.map (shiftNs d) }
    rtc := { s.rtc with boundaryNet := shiftNs d s.rtc.boundaryNet, windowNet := s.rtc.windowNet.map (· + d) }
    fe := { sa := s.fe.sa.shift d ds, sb := s.fe.sb.shift d ds, h := s.fe.h.shift d ds }
    lanes := s.lanes.map fun p => (p.1, p.2.shift d)
    mac := s.mac.shift d ds
    table := s.table.shift d dsec
    queues := s.queues.shift d
    wake := { s.wake with flows := s.wake.flows.map (Flow.shift d new) }
    canopy := s.canopy.shift d
    back := { s.back with
      dups := s.back.dups.map fun (e : PrpEntry) => { e with arrival := shiftNs d e.arrival }
      port := {
        p0 := { s.back.port.p0 with ptp := s.back.port.p0.ptp.shift d }
        p1 := { s.back.port.p1 with ptp := s.back.port.p1.ptp.shift d } } } }

/-- An attempt that waits in its back-off meets the gates of the new time: a beacon the close of its entry, a frame its close, or none where its gate
is shut; the bound of a request already posted has moved with it (R215). -/
def State.rebound (s : State) (f : Fe) : State :=
  match (s.feSt f).attempt with
  | none => s
  | some a =>
    if a.phase ≠ .backoff then s
    else
      let bound := match a.body with
        | .frame r => match r.frame.node with
          | some i => some (((s.node i).bind (s.termsFor f)).elim 0 Prod.snd)
          | none => some (if s.queueOpen f r.queue s.netNs then s.gateClose f r.queue s.netNs else 0)
        | .beacon _ => (s.feSt f).beacon
        | .test => a.bound
      let body := match a.body with
        | .beacon close => .beacon ((s.feSt f).beacon.getD close)
        | b => b
      s.setFe f { s.feSt f with attempt := some { a with bound := bound, body := body } }

/-- A posted step takes effect at its tick. -/
def State.timeStep (s : State) : State :=
  match s.time.pendStep with
  | none => s
  | some p =>
    if s.clk < p.atClk then s
    else
      let old := s.netNs
      let s := (s.moveTime p.delta).count .timeStep .device
      let s := feAll.foldl (fun s f => (s.stepGates f old s.netNs).rebound f) (s.closeWindow s.time.sec.toNat)
      s.raise 0x0701 none (toBe 8 (unsigned 64 (p.delta / 1000000000)) ++ toBe 4 (p.delta % 1000000000).toNat)

/-- TIME_STEP (R175, R176, R177, R215, R225). -/
def execTimeStep (dt : Nat) (s : State) : Host.Outcome State Fault Refusal := .next ((s.tick dt).timeStep)

end Sys2Proof.Machine
end

