-- ==== Sys2Proof/Machine/Wake.lean ====
section
/-! DEFINITION. The rows of the wake cycle (chapter 8): gate entries, change-overs, the calendar and queue statistics. -/

namespace Sys2Proof.Machine

/-! ## Gates -/

/-- A BEACON entry that has opened makes a beacon due (R166, R212); one still due from an earlier entry is skipped.  The open queue set
itself is computed from the lists and the time wherever it is asked for (R210). -/
def State.entryOpen (s : State) (f : Fe) : State :=
  if !s.radio then s
  else
    let s := match (s.feSt f).beacon with
      | some close => if close ≤ s.netNs then s.skipBeacon f else s
      | none => s
    match s.beaconEntry f s.netNs with
    | none => s
    | some (start, close, _) =>
      let x := s.feSt f
      if x.beaconFrom = start || !s.hasBeacon f then s
      else
        let s := if x.beacon.isSome then s.skipBeacon f else s
        let s := s.setFe f { s.feSt f with beacon := some close, beaconFrom := start }
        if s.feMode f == .off || x.rfTest.isSome then s.skipBeacon f else s

/-- GATE_ENTRY_OPEN (R166, R210, R212). -/
def execGateEntryOpen (dt : Nat) (f : Fe) (s : State) : Host.Outcome State Fault Refusal := .next ((s.tick dt).entryOpen f)

/-- The shadow list becomes active at its cycle boundary (R213). -/
def State.changeover (s : State) (f : Fe) : State :=
  let g := s.gates f
  match g.shadow with
  | some l =>
    if s.radio && decide (g.notBefore ≤ cycleOf s.netNs * cycleNs) then
      (s.setGates f { g with active := l, shadow := none }).count .gateChangeover (.fe (feCode f))
    else s
  | none => s

/-- GATE_CHANGEOVER (R213). -/
def execGateChangeover (dt : Nat) (f : Fe) (s : State) : Host.Outcome State Fault Refusal := .next ((s.tick dt).changeover f)

/-! ## The calendar -/

/-- A released flow is offered to its front end, or placed again (R222). -/
def State.releaseFlow (s : State) (i : Nat) : State :=
  match s.flowOf i with
  | none => s
  | some w =>
    let s := s.setFlow { w with released := true, far := false }
    match s.node i with
    | none => s.reviewFlow .sa i
    | some n => match feOf n.fe with
      | some f => s.reviewFlow f i
      | none => s.replace { w with released := false }

/-- Flows of the wheel whose slot has begun are released (R222). -/
def State.calendarSlot (s : State) : State :=
  if !s.radio then s
  else
    let due := (s.wake.flows.filter fun w => !w.far && !w.released && decide (ceilTo w.eligible slotNs ≤ s.netNs)).map fun w => w.node
    due.foldl State.releaseFlow s

/-- CALENDAR_SLOT (R222). -/
def execCalendarSlot (dt : Nat) (s : State) : Host.Outcome State Fault Refusal := .next ((s.tick dt).calendarSlot)

/-- Far-list flows within one cycle of the present cycle's boundary move into the wheel (R223). -/
def State.farListMove (s : State) : State :=
  if !s.radio then s
  else
    let b := cycleOf s.netNs * cycleNs
    let move := fun (w : Flow) => if w.far && decide (w.eligible < b + cycleNs) then
        { w with far := false, slot := offsetOf (ceilTo w.eligible slotNs) / slotNs } else w
    let passed := (s.wake.flows.filter fun w => w.far && decide (w.eligible < b + cycleNs) && decide (w.eligible ≤ s.netNs)).map fun w => w.node
    passed.foldl State.releaseFlow { s with wake := { s.wake with flows := s.wake.flows.map move } }

/-- FAR_LIST_MOVE (R223). -/
def execFarListMove (dt : Nat) (s : State) : Host.Outcome State Fault Refusal := .next ((s.tick dt).farListMove)

/-! ## Queue statistics (R227, R228) -/

/-- Key of the calendar's record, and of the number of samples of the window. -/
def calendarKey : Nat := 512

/-- Bin of a head delay in µs. -/
def delayBin (a : Nat) : Nat := if a < 1000 then 0 else min 15 (Nat.log2 (a / 1000) + 1)

/-- Cells a queue holds. -/
def State.depth (s : State) (q : Nat) : Nat := (queueOrders q).foldl (fun n k => (s.order k).foldl (fun n p => n + p.cells) n) 0

/-- Commit time of the head of a queue's oldest order. -/
def State.oldest (s : State) (q : Nat) : Option Nat :=
  (queueOrders q).foldl (fun (a : Option Nat) k => match s.order k with
    | p :: _ => match a with
      | some c => some (min c p.commit)
      | none => some p.commit
    | [] => a) none

/-- A queue that has been empty at every sample of a window of `n` samples. -/
def emptyStat (n sec : Nat) : QStat := { samples := n, empty := n, windowSec := sec }

/-- One sample of a queue with depth d and head delay a. -/
def QStat.sample (x : QStat) (d : Nat) (a : Option Nat) : QStat :=
  let y := { x with samples := x.samples + 1, depthMax := max x.depthMax d, depthSum := x.depthSum + d }
  match a with
  | none => { y with empty := y.empty + 1 }
  | some us => { y with delayMax := max y.delayMax us, hist := (y.hist.mapIdx fun i c => if i = delayBin us then c + 1 else c) }

/-- Queues that hold a packet or have held one in this window; the others are not listed. -/
def State.sampledQueues (s : State) : List Nat :=
  let held := s.queues.orders.map fun o => o.1 / 4
  let seen := (s.wake.qcur.map Prod.fst).filter fun q => q != calendarKey
  (List.range 512).filter fun q => held.contains q || seen.contains q

/-- Samples every queue and the calendar. -/
def State.sample (s : State) : State :=
  let sec := s.time.sec.toNat
  let s := if s.wake.qsec = sec then s else s.closeWindow sec
  let cal := s.wake.qcur.getD calendarKey { windowSec := sec }
  let n := cal.samples
  let one := fun (t : Tbl QStat) (q : Nat) =>
    let x := s.wake.qcur.getD q (emptyStat n sec)
    t.set q (x.sample (s.depth q) ((s.oldest q).map fun c => (s.netNs - c) / 1000))
  let wheel := (s.wake.flows.filter fun w => !w.far).length
  let far := (s.wake.flows.filter fun w => w.far).length
  let c := { cal with samples := n + 1, empty := if s.wake.flows.isEmpty then cal.empty + 1 else cal.empty, depthMax := max cal.depthMax wheel
                      delayMax := max cal.delayMax far, depthSum := cal.depthSum + wheel }
  { s with wake := { s.wake with qcur := (s.sampledQueues.foldl one s.wake.qcur).set calendarKey c, sampleMs := s.netNs / 1000000 } }

/-- Expired packets leave the head of an order, at most `n`, with the rest of a downstream packet (R248). -/
def State.expireDown (s : State) (k : Nat) : Nat → State
  | 0 => s
  | n + 1 =>
    match s.order k with
    | p :: t =>
      if s.expired p then
        let u := ((s.setOrder k t).releaseChain p.acct p.cells p.chain).countExpired p.acct
        (match downOf p with
          | some d => u.abandonRest d
          | none => u).expireDown k n
      else s
    | [] => s

/-- A sampling instant: once in each millisecond of network time. -/
def State.queueSample (s : State) : State :=
  if !s.operating || s.wake.sampleMs = s.netNs / 1000000 then s
  else (s.queues.orders.map Prod.fst).foldl (fun s k => s.expireDown k 64) s.sample

/-- QUEUE_SAMPLE (R227, R228, R248). -/
def execQueueSample (dt : Nat) (s : State) : Host.Outcome State Fault Refusal := .next ((s.tick dt).queueSample)

end Sys2Proof.Machine
end

