-- ==== Sys2Proof/Machine/Mailboxes.lean ====
section
/-! DEFINITION. Meanings of the rows by which hosts and the part exchange messages (chapter 15): datagrams, M0's transactions, events, Tally and
queue statistics. -/

namespace Sys2Proof.Machine

/-! ## Datagrams (R422, R425) -/

/-- Cells a datagram for a mailbox takes in Q387 (R395). -/
def datagramCells (o : Octets) : Nat := cellsOf (78 + o.length)

/-- A datagram reaches mailbox m: it is examined at once, or waits in Q387 through a forwarding pause (R22, R433). -/
def State.datagram (s : State) (m : Nat) (d : Datagram) : State :=
  if m = 0 ∨ !(s.mb m).isOpen then s
  else if s.inPause then
    match s.grant q387 (datagramCells d.octets) with
    | some t => { t.picked with held := t.held ++ [{ mbox := m, dgram := d, arrival := s.clk, chain := t.drawCells (datagramCells d.octets) [] }] }
    | none => s.count .cellsExhaustedEth (.port 0)
  else s.accept m d s.clk

/-- VERIELI_REQUEST (R425). -/
def execVerieliRequest (dt : Nat) (m : Mbox) (d : Datagram) (s : State) : Host.Outcome State Fault Refusal := .next ((s.tick dt).datagram m.val d)

/-- The datagrams that waited through a forwarding pause are examined in order of arrival (R22). -/
def State.releaseHeld (s : State) : State :=
  s.held.foldl (fun s h => (s.releaseChain q387 (datagramCells h.dgram.octets) h.chain).accept h.mbox h.dgram h.arrival) { s with held := [] }

/-! ## M0 (R430 to R432) -/

/-- A WRITE of `length` octets of which `o` arrived. -/
def State.m0Write (s : State) (length : Nat) (o : Octets) : State :=
  if s.pins.m0Busy || decide (o.length < length) then s.count .m0Overrun .device
  else if (s.mb 0).isOpen then s.accept 0 { srcAddr := 0, srcPort := 0, dstPort := 0, octets := o.take length } s.clk
  else s

/-- M0_WRITE (R430). -/
def execM0Write (dt : Nat) (length : Nat) (octets : Octets) (s : State) : Host.Outcome State Fault Refusal :=
  .next ((s.tick dt).m0Write length octets)

/-- Events whose seq is in `l` are delivered, and leave the ring (R446). -/
def State.delivered (s : State) (m : Nat) (l : List (BitVec 32)) : State :=
  let b := s.mb m
  if l.isEmpty then s else s.setMb m { b with ring := b.ring.filter fun r => !l.contains r.seq }

/-- A READ: the oldest message of Q396, which leaves it when wholly clocked out. -/
def State.m0Read (s : State) (wholly : Bool) : State :=
  match s.order (orderKey 396 0) with
  | [] => { s with m0Out := toBe 2 0 }
  | p :: t =>
    match p.content with
    | .message m ev =>
      let s := { s with m0Out := toBe 2 m.octets.length ++ m.octets }
      if wholly then ((s.setOrder (orderKey 396 0) t).releaseChain p.acct p.cells p.chain).delivered 0 ev else s
    | _ => s

/-- M0_READ (R430). -/
def execM0Read (dt : Nat) (wholly : Bool) (s : State) : Host.Outcome State Fault Refusal := .next ((s.tick dt).m0Read wholly)

/-- M0_STATUS (R430). -/
def execM0Status (dt : Nat) (s : State) : Host.Outcome State Fault Refusal :=
  let t := s.tick dt
  .next { t with m0Out := [t.m0StatusOctet] }

/-- M0_BAD_COMMAND (R430): a first octet that is not of Table 15.3. -/
def execM0BadCommand (dt : Nat) (first : Byte) (s : State) : Host.Outcome State Fault Refusal :=
  let t := s.tick dt
  .next (if first = 1 ∨ first = 2 ∨ first = 3 then t else t.count .m0BadCommand .device)

/-! ## Events (R446) -/

/-- Mailboxes act: firmware runs and no forwarding pause stands. -/
def State.mailboxesRun (s : State) : Bool := s.life.cpuUp && !s.inPause && s.life.mode != .secError

/-- Where mailbox m's event messages go: nowhere without an address; M0's go to Q396. -/
def State.subscribed (s : State) (m : Nat) : Bool := m == 0 || (s.mb m).subAddr != 0

/-- Sends the events of mailbox m that have not been sent. -/
def State.sendNew (s : State) (m : Nat) : State :=
  let b := s.mb m
  let l := b.ring.filter fun r => !r.sent
  if !b.isOpen || !s.mailboxesRun || !s.subscribed m || l.isEmpty then s else s.sendEvents m l b.subAddr b.subPort

/-- EVENT_MESSAGE_SEND (R446). -/
def execEventMessageSend (dt : Nat) (m : Mbox) (s : State) : Host.Outcome State Fault Refusal := .next ((s.tick dt).sendNew m.val)

/-- Sends the unacknowledged events of M1 to M7 again, 2 s after they were last sent. -/
def State.sendAgain (s : State) (m : Nat) : State :=
  let b := s.mb m
  let l := b.ring.filter fun r => r.sent
  if m == 0 || !b.isOpen || !s.mailboxesRun || !s.subscribed m || l.isEmpty || decide (s.clk < b.lastSend + secTicks 2) then s
  else s.sendEvents m l b.subAddr b.subPort

/-- EVENT_RESEND (R446). -/
def execEventResend (dt : Nat) (m : Mbox) (s : State) : Host.Outcome State Fault Refusal := .next ((s.tick dt).sendAgain m.val)

/-- EVENT-ACK: events up to a seq leave the ring, and up to 16 that follow are returned. -/
def State.eventAck (s : State) (m : Nat) (r : Request) : State :=
  let q := beField r.payload 0 4
  let b := s.mb m
  let rest := b.ring.filter fun e => decide (q < e.seq.toNat)
  let now := rest.take 16
  let shown := match now with
    | e :: t => { e with lost := e.lost || b.lostFlag } :: t
    | [] => []
  let s := s.setMb m { b with ring := rest, lostFlag := if now.isEmpty then b.lostFlag else false }
  s.respond m r sOk (toBe 1 shown.length ++ shown.flatMap eventRecord)

/-- EVENT_ACK (R446). -/
def execEventAck (dt : Nat) (m : Mbox) (s : State) : Host.Outcome State Fault Refusal :=
  .next ((s.tick dt).shortCmd m.val 0x0804 4 fun s r => s.eventAck m.val r)

/-- EVENT_SUBSCRIBE (R446). -/
def execEventSubscribe (dt : Nat) (m : Mbox) (s : State) : Host.Outcome State Fault Refusal :=
  .next ((s.tick dt).shortCmd m.val 0x0805 18 fun s r =>
    (s.setMb m.val { s.mb m.val with subAddr := BitVec.ofNat 128 (beField r.payload 0 16), subPort := BitVec.ofNat 16 (beField r.payload 16 2) }).respond
      m.val r sOk [])

/-! ## Tally (R448, R449) -/

/-- Scopes as the counter tables of the chapters name them. -/
inductive ScopeSort where
  | device | world | port | fe | pipe | lane | sensor | mbox | cipher | kind | step
  deriving DecidableEq, Repr

def ctrRows0 : List (String × Ctr × List ScopeSort) :=
  [("ack_duty_refused", .ackDutyRefused, [.fe]), ("ack_late", .ackLate, [.fe]),
   ("almanac_action_refused", .almanacActionRefused, [.device]), ("almanac_caught_up", .almanacCaughtUp, [.world]),
   ("almanac_fired", .almanacFired, [.world]), ("almanac_missed", .almanacMissed, [.world]),
   ("beacon_skipped", .beaconSkipped, [.fe]), ("bulk_sent", .bulkSent, [.world]),
   ("canopy_aerial_change", .canopyAerialChange, [.world]), ("canopy_assign_revert", .canopyAssignRevert, [.world]),
   ("canopy_assign_withdrawn", .canopyAssignWithdrawn, [.world]), ("canopy_lane_move", .canopyLaneMove, [.device]),
   ("canopy_path_change", .canopyPathChange, [.world]), ("canopy_place_move", .canopyPlaceMove, [.world]),
   ("canopy_power_change", .canopyPowerChange, [.world]), ("canopy_rehome", .canopyRehome, [.world]),
   ("canopy_round_late", .canopyRoundLate, [.device]), ("canopy_slice_move", .canopySliceMove, [.fe]),
   ("cell_reclaimed", .cellReclaimed, [.device]), ("cell_retired", .cellRetired, [.device]),
   ("cells_exhausted_air", .cellsExhaustedAir, [.pipe]), ("cells_exhausted_eth", .cellsExhaustedEth, [.port]),
   ("cfg_activate", .cfgActivate, [.device]), ("cfg_record_skipped", .cfgRecordSkipped, [.device]),
   ("cfg_reject", .cfgReject, [.device]), ("cfg_slot_fallback", .cfgSlotFallback, [.device]),
   ("cfg_trial_consumed", .cfgTrialConsumed, [.device]), ("channel_timeout", .channelTimeout, [.device]),
   ("cipher_job_repeated", .cipherJobRepeated, [.device]), ("cipher_unit_mapped_out", .cipherUnitMappedOut, [.cipher]),
   ("ctx_restore_refused", .ctxRestoreRefused, [.device]), ("ctx_save_refused", .ctxSaveRefused, [.device])]

def ctrRows1 : List (String × Ctr × List ScopeSort) :=
  [("dao_parent_refused", .daoParentRefused, [.world]), ("dao_parents_truncated", .daoParentsTruncated, [.world]),
   ("dao_refused", .daoRefused, [.world]), ("dao_stale", .daoStale, [.world]), ("dao_target_refused", .daoTargetRefused, [.world]),
   ("dram_late", .dramLate, [.device]), ("ds_frag_abandon", .dsFragAbandon, [.world]), ("ds_hdr_too_big", .dsHdrTooBig, [.world]),
   ("ds_no_gate", .dsNoGate, [.world]), ("ds_no_node", .dsNoNode, [.world]), ("ds_no_route", .dsNoRoute, [.world]),
   ("ds_no_world", .dsNoWorld, [.device]), ("ds_node_gone", .dsNodeGone, [.world]), ("ds_queue_full", .dsQueueFull, [.world]),
   ("ds_vid_mismatch", .dsVidMismatch, [.world]), ("ds_world_mismatch", .dsWorldMismatch, [.world]),
   ("dup_cache_evict", .dupCacheEvict, [.device, .world]), ("entropy_health_fail", .entropyHealthFail, [.device]),
   ("event_lost", .eventLost, [.mbox]), ("event_lost_early", .eventLostEarly, [.device]),
   ("fc_reserve_wait", .fcReserveWait, [.device]), ("fe_cal", .feCal, [.fe]), ("fe_cross_blank", .feCrossBlank, [.fe]),
   ("fe_det_fault", .feDetFault, [.fe]), ("fe_guard_expired", .feGuardExpired, [.fe]), ("fe_lock_lost", .feLockLost, [.fe]),
   ("fe_overpower_abort", .feOverpowerAbort, [.fe]), ("fe_tx_late", .feTxLate, [.fe]), ("fe_tx_refused", .feTxRefused, [.fe]),
   ("flash_dir_invalid", .flashDirInvalid, [.device]), ("fw_activate", .fwActivate, [.device]),
   ("fw_slot_fallback", .fwSlotFallback, [.device])]

def ctrRows2 : List (String × Ctr × List ScopeSort) :=
  [("fw_trial_consumed", .fwTrialConsumed, [.device]), ("gate_changeover", .gateChangeover, [.fe]),
   ("gate_skipped_step", .gateSkippedStep, [.fe]), ("hw_buffer_early", .hwBufferEarly, [.device]),
   ("hw_page_retired", .hwPageRetired, [.device]), ("hw_page_swap", .hwPageSwap, [.device]),
   ("hw_pending_full", .hwPendingFull, [.device]), ("hw_record_lost", .hwRecordLost, [.device]),
   ("hw_txn_rolled_back", .hwTxnRolledBack, [.device]), ("join_confirm_fail", .joinConfirmFail, [.world]),
   ("join_done", .joinDone, [.world]), ("join_mic_fail", .joinMicFail, [.world]), ("join_no_group", .joinNoGroup, [.device]),
   ("join_no_key", .joinNoKey, [.world]), ("join_no_place", .joinNoPlace, [.world]),
   ("join_rate_limited", .joinRateLimited, [.device]), ("join_table_busy", .joinTableBusy, [.device]),
   ("join_timeout", .joinTimeout, [.world]), ("join_world_mismatch", .joinWorldMismatch, [.world]),
   ("key_slot_fault", .keySlotFault, [.device, .world]), ("key_unwrap_fail", .keyUnwrapFail, [.device, .world]),
   ("key_use_refused", .keyUseRefused, [.device, .world]), ("lane_mapped_out", .laneMappedOut, [.device]),
   ("link_merge", .linkMerge, [.pipe]), ("link_refused", .linkRefused, [.port]), ("m0_bad_command", .m0BadCommand, [.device]),
   ("m0_overrun", .m0Overrun, [.device]), ("mcore_all_lost", .mcoreAllLost, [.device]), ("mcore_op_lost", .mcoreOpLost, [.device]),
   ("mem_ce_dram", .memCeDram, [.device]), ("mem_ce_staging", .memCeStaging, [.device]), ("mem_ue", .memUe, [.device])]

def ctrRows3 : List (String × Ctr × List ScopeSort) :=
  [("nbr_lapsed", .nbrLapsed, [.device]), ("nbr_table_full", .nbrTableFull, [.device]), ("path_miss", .pathMiss, [.port]),
   ("pause_watchdog", .pauseWatchdog, [.port]), ("pps_in_reject", .ppsInReject, [.device]),
   ("prp_copy_skipped", .prpCopySkipped, [.port]), ("prp_dup_discard", .prpDupDiscard, [.port]),
   ("prp_dup_evict", .prpDupEvict, [.port]), ("prp_no_rct", .prpNoRct, [.port]), ("prp_wrong_lan", .prpWrongLan, [.port]),
   ("ptp_master_lost", .ptpMasterLost, [.device]), ("puf_marginal", .pufMarginal, [.device]),
   ("q_expired", .qExpired, [.device, .world]), ("queue_wrong_producer", .queueWrongProducer, [.device]),
   ("rejoin_done", .rejoinDone, [.world]), ("rejoin_notice", .rejoinNotice, [.world]),
   ("rejoin_notice_held", .rejoinNoticeHeld, [.world]), ("route_lapsed", .routeLapsed, [.world]), ("rtc_step", .rtcStep, [.device]),
   ("rx_beacon_other", .rxBeaconOther, [.pipe]), ("rx_capture", .rxCapture, [.lane]), ("rx_cut_cal", .rxCutCal, [.lane]),
   ("rx_cut_fault", .rxCutFault, [.lane]), ("rx_cut_power", .rxCutPower, [.lane]), ("rx_cut_tx", .rxCutTx, [.lane]),
   ("rx_dup_discard", .rxDupDiscard, [.device, .world]), ("rx_eth_filtered", .rxEthFiltered, [.port]),
   ("rx_fc_stale", .rxFcStale, [.world, .pipe]), ("rx_fcs_bad", .rxFcsBad, [.pipe]), ("rx_fcs_eth", .rxFcsEth, [.port]),
   ("rx_frame_version", .rxFrameVersion, [.pipe]), ("rx_hdr_bad", .rxHdrBad, [.pipe])]

def ctrRows4 : List (String × Ctr × List ScopeSort) :=
  [("rx_join_no_record", .rxJoinNoRecord, [.pipe]), ("rx_key_index_bad", .rxKeyIndexBad, [.world, .pipe]),
   ("rx_keygen_stale", .rxKeygenStale, [.world, .pipe]), ("rx_ldpc_fail", .rxLdpcFail, [.pipe]), ("rx_len_long", .rxLenLong, [.pipe]),
   ("rx_len_short", .rxLenShort, [.pipe]), ("rx_mic_fail", .rxMicFail, [.world, .pipe]),
   ("rx_mode_disabled", .rxModeDisabled, [.pipe]), ("rx_mode_switch", .rxModeSwitch, [.pipe]),
   ("rx_no_decoder", .rxNoDecoder, [.device]), ("rx_node_gone", .rxNodeGone, [.world, .pipe]),
   ("rx_node_retiring", .rxNodeRetiring, [.pipe]), ("rx_not_for_us", .rxNotForUs, [.pipe]), ("rx_oversize", .rxOversize, [.port]),
   ("rx_runt", .rxRunt, [.port]), ("rx_sec_backlog_drop", .rxSecBacklogDrop, [.pipe]), ("rx_sec_level", .rxSecLevel, [.world, .pipe]),
   ("rx_sfd_timeout", .rxSfdTimeout, [.lane]), ("rx_src_unresolved", .rxSrcUnresolved, [.pipe]),
   ("selftest_periodic", .selftestPeriodic, [.device]), ("shape_deferred", .shapeDeferred, [.world]),
   ("shape_flow_full", .shapeFlowFull, [.world]), ("speed_step", .speedStep, [.port]), ("table_index_fix", .tableIndexFix, [.device]),
   ("table_index_lost", .tableIndexLost, [.device]), ("table_insert_fail", .tableInsertFail, [.device]),
   ("table_restore_dropped", .tableRestoreDropped, [.device]), ("table_ue_restored", .tableUeRestored, [.device]),
   ("tag_cap_refused", .tagCapRefused, [.device]), ("tag_reclaimed", .tagReclaimed, [.device]),
   ("tamper_events", .tamperEvents, [.sensor]), ("thermal_step", .thermalStep, [.step])]

def ctrRows5 : List (String × Ctr × List ScopeSort) :=
  [("time_inc_refused", .timeIncRefused, [.device]), ("time_step", .timeStep, [.device]), ("tx_cca_fail", .txCcaFail, [.world]),
   ("tx_duty_refused", .txDutyRefused, [.device]), ("tx_eirp_refused", .txEirpRefused, [.fe]),
   ("tx_fc_exhausted", .txFcExhausted, [.world]), ("tx_key_absent", .txKeyAbsent, [.world]), ("tx_len_refused", .txLenRefused, [.fe]),
   ("tx_no_ack", .txNoAck, [.world]), ("tx_no_subband", .txNoSubband, [.device]), ("tx_retry_set_full", .txRetrySetFull, [.world]),
   ("unit_mapped_out", .unitMappedOut, [.kind]), ("us_decomp_fail", .usDecompFail, [.world]),
   ("us_queue_full", .usQueueFull, [.world]), ("us_reasm_fail", .usReasmFail, [.world]),
   ("us_send_refused", .usSendRefused, [.device, .world]), ("us_too_big", .usTooBig, [.world]),
   ("verieli_addr_refused", .verieliAddrRefused, [.mbox]), ("verieli_auth_fail", .verieliAuthFail, [.mbox]),
   ("verieli_busy", .verieliBusy, [.mbox]), ("verieli_malformed", .verieliMalformed, [.mbox]),
   ("verieli_replay", .verieliReplay, [.mbox]), ("verieli_resent", .verieliResent, [.mbox]),
   ("verieli_seq_wait", .verieliSeqWait, [.mbox])]

/-- Every counter, in ascending name, with its scopes in ascending code. -/
def ctrRows : List (String × Ctr × List ScopeSort) := ctrRows0 ++ ctrRows1 ++ ctrRows2 ++ ctrRows3 ++ ctrRows4 ++ ctrRows5
/-- The scopes of a sort on this part; thermal steps have no code of their own and stand as kinds (log entry 45). -/
def State.scopesOf (s : State) : ScopeSort → List Scope
  | .device => [.device]
  | .world => (List.range 8).map .world
  | .port => [.port 0, .port 1]
  | .fe => ([0, 1, 2].filter fun f => s.full || f != 1).map .fe
  | .pipe => ([0, 1, 2].filter fun f => s.full || f != 1).map .pipe
  | .lane => (List.range s.laneCount).map .lane
  | .sensor => (List.range 5).map .sensor
  | .mbox => (List.range 8).map .mbox
  | .cipher => [.unit 4, .unit 5, .unit 6, .unit 7]
  | .kind => (List.range 7).map .kind
  | .step => [.kind 1, .kind 2, .kind 3, .kind 4]

/-- Scope code and instance (Table 15.8). -/
def scopeCode : Scope → Nat × Nat
  | .device => (0, 0)
  | .world w => (1, w)
  | .port p => (2, p)
  | .fe f => (3, f)
  | .pipe p => (4, p)
  | .lane l => (5, l)
  | .sensor r => (6, r)
  | .mbox m => (7, m)
  | .unit u => (8, u)
  | .kind k => (9, k)

/-- An entry a mailbox of world w may see (R448). -/
def scopeSeen (w : Nat) : Scope → Bool
  | .world v => v == w
  | _ => true

/-- The entries a mailbox of world w may see, in the order of R448. -/
def State.tallyView (s : State) (w : Nat) : List CtrVal :=
  ctrRows.flatMap fun r => ((r.2.2.flatMap s.scopesOf).filter (scopeSeen w)).map fun sc =>
    ({ key := { ctr := r.2.1, scope := sc }, value := s.counter r.2.1 sc } : CtrVal)

/-- The name of a counter. -/
def ctrName (c : Ctr) : String :=
  match ctrRows.find? fun r => r.2.1 == c with
  | some r => r.1
  | none => ""

/-- An entry of Table 15.8. -/
def tallyEntry (v : CtrVal) : Octets :=
  let c := scopeCode v.key.scope
  padTo 24 (ascii (ctrName v.key.ctr)) ++ toBe 1 c.1 ++ toBe 1 c.2 ++ List.replicate 6 0 ++ toBe 8 v.value.toNat

/-- TALLY-SNAPSHOT. -/
def State.tallySnapshot (s : State) (m : Nat) (r : Request) : State :=
  let l := s.tallyView (s.mb m).world
  (s.setMb m { s.mb m with snap := some { sec := s.time.sec, ns := s.time.ns, entries := l } }).respond m r sOk
    (toBe 6 s.time.sec.toNat ++ toBe 4 s.time.ns.toNat ++ toBe 2 l.length)

/-- TALLY_SNAPSHOT (R448). -/
def execTallySnapshot (dt : Nat) (m : Mbox) (s : State) : Host.Outcome State Fault Refusal :=
  .next ((s.tick dt).shortCmd m.val 0x0801 0 fun s r => s.tallySnapshot m.val r)

/-- TALLY-READ of the mailbox's own snapshot. -/
def State.tallyRead (s : State) (m : Nat) (r : Request) : State :=
  let n := beField r.payload 2 2
  match (s.mb m).snap with
  | none => s.respond m r sState []
  | some x =>
    if n = 0 ∨ n > 1024 then s.respond m r sRange []
    else
      let l := (x.entries.drop (beField r.payload 0 2)).take n
      s.respond m r sOk (toBe 2 l.length ++ l.flatMap tallyEntry)

/-- TALLY_READ (R448). -/
def execTallyRead (dt : Nat) (m : Mbox) (s : State) : Host.Outcome State Fault Refusal :=
  .next ((s.tick dt).shortCmd m.val 0x0802 4 fun s r => s.tallyRead m.val r)

/-! ## Queue statistics (R228, R450) -/

/-- A record of Table 8.3. -/
def qstatRecord (q : Nat) (x : QStat) : Octets :=
  toBe 2 q ++ toBe 2 x.samples ++ toBe 2 x.empty ++ [0, 0] ++ toBe 4 x.depthMax ++ toBe 4 x.delayMax ++ toBe 8 x.depthSum ++
    toBe 4 x.windowSec ++ [0, 0, 0, 0] ++ (x.hist.take 16).flatMap (toBe 2)

/-- Queue 512 is the calendar, whose record names it 0xFFFF. -/
def State.qstat (s : State) (q : Nat) : Octets :=
  let cal := s.wake.qlast.getD calendarKey {}
  if q = 512 then qstatRecord 0xFFFF cal
  else qstatRecord q (s.wake.qlast.getD q (emptyStat cal.samples cal.windowSec))

/-- A mailbox of world w sees the queue: its account is the world's; device queues, the downstream orders that worlds share, and the calendar
are W0's. -/
def State.qstatSeen (s : State) (w q : Nat) : Bool :=
  if q < 320 ∨ q = 512 then w == 0
  else match s.acctWorld (accountOf q 0) with
    | some v => v == w
    | none => w == 0

/-- QSTATS-READ. -/
def State.qstatsRead (s : State) (m : Nat) (r : Request) : State :=
  let first := beField r.payload 0 2
  let n := beField r.payload 2 2
  if n = 0 ∨ n > 513 ∨ first + n > 513 then s.respond m r sRange []
  else
    let l := ((List.range n).map fun i => first + i).filter fun q => s.qstatSeen (s.mb m).world q
    s.respond m r sOk (toBe 2 l.length ++ l.flatMap s.qstat)

/-- QSTATS_READ (R450). -/
def execQstatsRead (dt : Nat) (m : Mbox) (s : State) : Host.Outcome State Fault Refusal :=
  .next ((s.tick dt).shortCmd m.val 0x0803 4 fun s r => s.qstatsRead m.val r)

end Sys2Proof.Machine
end

