-- ==== Sys2Proof/Machine/NodeCmds.lean ====
section
/-! DEFINITION. The table commands and LINK-GET (Tables 10.9 and 15.4), and the end of TABLE-FLUSH-WORLD and REHASH. -/

namespace Sys2Proof.Machine

/-! ## Views (R258, R275) -/

/-- A bit at a place of a word. -/
def bitAt (b : Bool) (i : Nat) : Nat := if b then 2 ^ i else 0

/-- A parent slot (Table 10.6). -/
def ParentSlot.view (p : ParentSlot) : Nat := p.index + bitAt p.root 17 + bitAt p.valid 18 + p.pref % 4 * 2 ^ 19

/-- Word 0 (Table 10.1); `hide`: key_gen and sec_level are omitted. -/
def Node.word0 (n : Node) (hide : Bool) : Nat :=
  n.eui.toNat + n.world % 8 * 2 ^ 64 + stateCode n.state * 2 ^ 67 + n.epoch % 4 * 2 ^ 70 + n.lastHeard.toNat * 2 ^ 72 +
    n.seqOut.toNat * 2 ^ 104 + (if hide then 0 else n.keyGen % 16 * 2 ^ 112 + n.secLevel % 8 * 2 ^ 116) + bitAt n.listen 119 +
    n.wakeExp % 8 * 2 ^ 120

/-- Word 1 (Table 10.2). -/
def Node.word1 (n : Node) : Nat :=
  n.offset.toNat + n.offsetSec.toNat * 2 ^ 16 + bitAt n.offsetBand 48 + n.modeSub % 8 * 2 ^ 49 + n.rateSub % 4 * 2 ^ 52 + bitAt n.validSub 54 +
    n.modeH % 8 * 2 ^ 55 + n.rateH % 4 * 2 ^ 58 + bitAt n.validH 60 + n.fe % 4 * 2 ^ 61 + n.group % 64 * 2 ^ 63 + n.phase % 256 * 2 ^ 69 +
    n.aerial % 2 * 2 ^ 77 + unsigned 8 n.txPower * 2 ^ 78 + n.pathSel % 4 * 2 ^ 86 + n.pins.toNat * 2 ^ 88 + n.newGroup % 64 * 2 ^ 93 +
    n.newPhase % 256 * 2 ^ 99 + bitAt n.pending 107 + n.effSec.toNat * 2 ^ 108

/-- Word 2 (Table 10.3). -/
def Node.word2 (n : Node) : Nat :=
  let p := fun (k : Nat) => (n.parents.getD k {}).view
  p 0 + p 1 * 2 ^ 24 + p 2 * 2 ^ 48 + n.pathSeq.toNat * 2 ^ 72 + n.regExpiry.toNat * 2 ^ 80

/-- Word 3 (Table 10.4); `hide`: the counters are omitted. -/
def Node.word3 (n : Node) (hide : Bool) : Nat :=
  (if hide then 0 else n.fcIn.toNat + n.fcOut.toNat * 2 ^ 32) + n.paceNs / 1000 % 2 ^ 40 * 2 ^ 64

/-- The view of record i given to a mailbox of world w: its index and its four words. -/
def nodeView (w i : Nat) (n : Node) : Octets :=
  let hide := n.world != w
  toBe 4 i ++ toBe 16 (n.word0 hide) ++ toBe 16 n.word1 ++ toBe 16 n.word2 ++ toBe 16 (n.word3 hide)

/-- A mailbox of world w may see the record (Table 10.9). -/
def State.visible (s : State) (w : Nat) (n : Node) : Bool :=
  match n.state with
  | .live | .quiet | .retiring => s.current n && (w == 0 || n.world == w)
  | .joining => w == 0
  | _ => false

/-- The visible record of an EUI-64. -/
def State.seek (s : State) (w : Nat) (eui : BitVec 64) : Option (Nat × Node) :=
  match s.findEui eui with
  | some i => match s.node i with
    | some n => if s.visible w n then some (i, n) else none
    | none => none
  | none => none

/-- The EUI-64 a request's payload begins with. -/
def Request.eui (r : Request) : BitVec 64 := BitVec.ofNat 64 (beField r.payload 0 8)

/-- NODE-SEARCH. -/
def State.nodeSearch (s : State) (m : Nat) (r : Request) : State :=
  match s.seek (s.mb m).world r.eui with
  | some (i, n) => s.respond m r sOk (nodeView (s.mb m).world i n)
  | none => s.respond m r sNotFound []

/-- NODE_SEARCH (R275). -/
def execNodeSearch (dt : Nat) (m : Mbox) (s : State) : Host.Outcome State Fault Refusal :=
  .next ((s.tick dt).shortCmd m.val 0x0301 8 fun s r => s.nodeSearch m.val r)

/-- The records a walk returns from a cursor: those visible under the filter, in ascending index, at most `n`. -/
def State.nodesFrom (s : State) (w cursor filter n : Nat) : List (Nat × Node) :=
  (s.table.nodes.filter fun p => decide (cursor ≤ p.1) && s.visible w p.2 && (filter == 0xFF || p.2.world == filter)).take n

/-- NODE-NEXT (R276); the cursor after the last record is 131 072 (log entry 50). -/
def State.nodeNext (s : State) (m : Nat) (r : Request) : State :=
  let w := (s.mb m).world
  let filter := beField r.payload 4 1
  let n := beField r.payload 5 1
  if n = 0 ∨ n > 32 ∨ (filter > 7 ∧ filter ≠ 0xFF) then s.respond m r sRange []
  else
    let l := s.nodesFrom w (beField r.payload 0 4) filter n
    let next := match l.getLast? with
      | some p => if l.length = n then p.1 + 1 else 131072
      | none => 131072
    s.respond m r sOk (toBe 4 next ++ toBe 1 l.length ++ l.flatMap fun p => nodeView w p.1 p.2)

/-- NODE_NEXT (R276). -/
def execNodeNext (dt : Nat) (m : Mbox) (s : State) : Host.Outcome State Fault Refusal :=
  .next ((s.tick dt).shortCmd m.val 0x0302 6 fun s r => s.nodeNext m.val r)

/-- NODE-REMOVE. -/
def State.nodeRemove (s : State) (m : Nat) (r : Request) : State :=
  match s.seek (s.mb m).world r.eui with
  | some (i, _) => (s.clearNode i).respond m r sOk []
  | none => s.respond m r sNotFound []

/-- NODE_REMOVE (R275). -/
def execNodeRemove (dt : Nat) (m : Mbox) (s : State) : Host.Outcome State Fault Refusal :=
  .next ((s.tick dt).shortCmd m.val 0x0303 8 fun s r => s.nodeRemove m.val r)

/-! ## TABLE-FLUSH-WORLD (R277) -/

/-- The flush instant: the world's epoch advances, and is journalled (R460). -/
def State.advanceEpoch (s : State) (w : Nat) : State :=
  let e := s.table.epochs.set w ((s.epochOf w + 1) % 4)
  let s := s.lineWrite 0x2000
  { s with table := { s.table with epochs := e, flushing := some w }, hw := { s.hw with epochs := e } }

/-- TABLE-FLUSH-WORLD begins. -/
def State.tableFlush (s : State) (m : Nat) (r : Request) : State :=
  let w := beField r.payload 0 1
  if w > 7 then s.respond m r sRange [] else (s.begin m r [] sOk []).advanceEpoch w

/-- TABLE_FLUSH_WORLD (R277). -/
def execTableFlushWorld (dt : Nat) (m : Mbox) (s : State) : Host.Outcome State Fault Refusal :=
  .next ((s.tick dt).shortCmd m.val 0x0304 1 fun s r => s.tableFlush m.val r)

/-- The background work is done: records of the world with another epoch are CLEARING. -/
def State.flushEnd (s : State) (w : Nat) : State :=
  let l := (s.table.nodes.filter fun p => p.2.world == w && !s.current p.2).map Prod.fst
  let s := l.foldl State.clearNode s
  { s with table := { s.table with flushing := none } }

/-! ## REHASH (R278) -/

/-- REHASH begins; seed 0 asks for one of the DRBG. -/
def State.rehashBegin (s : State) (m : Nat) (r : Request) : State :=
  let v := BitVec.ofNat 64 (beField r.payload 0 8)
  let q := if v = 0 then (let d := s.draw; (d.1.setWidth 64, d.2)) else (v, s)
  let s := q.2.begin m r [] sOk []
  { s with table := { s.table with rehash := some q.1 } }

/-- REHASH (R278). -/
def execRehash (dt : Nat) (m : Mbox) (s : State) : Host.Outcome State Fault Refusal :=
  .next ((s.tick dt).shortCmd m.val 0x0305 8 fun s r => s.rehashBegin m.val r)

/-- REHASH ends: the new index is in force, or the old one stands where a record does not fit; status and result. -/
def State.rehashEnd (s : State) (seed : BitVec 64) : Nat × Octets × State :=
  let s := { s with table := { s.table with rehash := none } }
  let l := s.indexed
  let b := buildIdx seed l {} 0
  if b.2 = l.length then (sOk, toBe 8 seed.toNat, s.adoptSeed seed b.1) else (sFull, [], s)

/-! ## LINK-GET -/

/-- A link-table entry (Table 10.8). -/
def LinkEntry.word (e : LinkEntry) : Nat :=
  e.node + 2 ^ 17 + e.sfdNs % 1000000000 * 2 ^ 18 + e.sfdNs / 1000000000 % 2 ^ 20 * 2 ^ 48 + e.lane % 64 * 2 ^ 68 + e.channel % 128 * 2 ^ 74 +
    e.aerial % 2 * 2 ^ 81 + e.level.toNat * 2 ^ 82 + e.snr.toNat * 2 ^ 91 + unsigned 16 e.freqOffset * 2 ^ 99 + e.mode % 8 * 2 ^ 115 +
    bitAt e.direct 118 + min 511 e.heard * 2 ^ 119

/-- What LINK-GET returns of one front end: its link-table entry and its estimate. -/
def State.linkView (s : State) (i : Nat) (f : Fe) : Octets :=
  let x := (s.canopy.meas.getD i {}).est.get f
  (match linkOf (s.table.links.get f) i with
    | some (_, e) => toBe 1 1 ++ toBe 16 e.word
    | none => toBe 1 0 ++ toBe 16 0) ++
  toBe 2 x.level ++ toBe 1 x.snrA ++ toBe 1 x.snrB ++ toBe 1 x.hearings

/-- LINK-GET. -/
def State.linkGet (s : State) (m : Nat) (r : Request) : State :=
  match s.seek (s.mb m).world r.eui with
  | some (i, _) =>
    let x := s.canopy.meas.getD i {}
    s.respond m r sOk (feAll.flatMap (fun f => s.linkView i f) ++ toBe 4 x.u ++ toBe 2 x.ackPm)
  | none => s.respond m r sNotFound []

/-- LINK_GET (R439, Table 15.4). -/
def execLinkGet (dt : Nat) (m : Mbox) (s : State) : Host.Outcome State Fault Refusal :=
  .next ((s.tick dt).shortCmd m.val 0x0306 8 fun s r => s.linkGet m.val r)

end Sys2Proof.Machine
end

