-- ==== Sys2Proof/Machine/Update.lean ====
section
/-! DEFINITION. Meanings of the rows that write, check, activate and confirm images (chapters 15 and 17), Stump's download among them. -/

namespace Sys2Proof.Machine

/-! ## Writes -/

/-- Arguments of CONFIG-SLOT-WRITE and FW-SLOT-WRITE: slot, offset, 1 to 1 024 octets of data. -/
def writeForm (p : Octets) : Bool := decide (6 ≤ p.length) && decide (p.length ≤ 1029)

def boolFlash (ok : Bool) : Nat := if ok then sOk else sFlash

/-- A slot of configuration has changed: its check is stale (R483, R55); the slot that last passed in PROVISION is then the other, where its check
stands (R56). -/
def State.staleCfg (s : State) (i : Nat) : State :=
  let checked := s.life.cfgChecked.set i false
  let other := if checked.getD (1 - i) false then some (1 - i) else none
  { s with life := { s.life with cfgChecked := checked, provSlot := if s.life.provSlot = some i then other else s.life.provSlot } }

def State.staleFw (s : State) (i : Nat) : State := { s with life := { s.life with fwChecked := s.life.fwChecked.set i false } }

/-- CONFIG-SLOT-WRITE (R439, R475). -/
def State.cfgSlotWrite (s : State) (m : Nat) (r : Request) (late : Bool) : State :=
  let i := beField r.payload 0 1
  let off := beField r.payload 1 4
  let data := r.payload.drop 5
  if !writeForm r.payload then s.respond m r sMalformed []
  else if i > 1 ∨ off + data.length > cfgSlotSize then s.respond m r sRange []
  else if s.life.cfgSlot = some i then s.respond m r sState []
  else
    let w := s.writeSlot (cfgSlotBase i) cfgSlotSize off data late
    (w.2.staleCfg i).begin m r [] (boolFlash w.1) []

/-- CONFIG_SLOT_WRITE (R439). -/
def execConfigSlotWrite (dt : Nat) (m : Mbox) (flashLate : Bool) (s : State) : Host.Outcome State Fault Refusal :=
  .next ((s.tick dt).hostCmd m.val 0x0202 fun s r => s.cfgSlotWrite m.val r flashLate)

/-- Stump's download begins again at offset 0 (R491). -/
def State.stumpAgain (s : State) (t : StumpSt) : State :=
  { s with life := { s.life with stump := some { t with next := 0, held := [], headerOk := false, checked := false } } }

/-- Chunks of the image in a slot that become complete when octet `a` to `b − 1` of the slot have been written, in order. -/
def chunksDone (h : Octets) (a b : Nat) : List Nat :=
  let len := leField h 16 4
  (List.range (leField h 20 2)).filter fun k =>
    let e := 8192 + min len (65536 * (k + 1))
    decide (a < e) && decide (e ≤ b)

/-- The part of a Stump write that goes to flash, and the chunks it completes. -/
def State.stumpBody (s : State) (m : Nat) (r : Request) (t : StumpSt) (off : Nat) (data : Octets) : State :=
  let base := fwSlotBase t.target
  let s := { s with flash := flashProgram s.flash (base + off) data }
  if flashRange s.flash (base + off) data.length ≠ data then (s.stumpAgain t).begin m r [] sFlash []
  else
    let h := flashRange s.flash base 8192
    match (chunksDone h off (off + data.length)).find? fun k => !s.chunkOk t.target h k with
    | some k => (s.stumpAgain t).begin m r [] sCheck (toBe 1 8 ++ toBe 4 k)
    | none =>
      ({ s with life := { s.life with stump := some { t with next := off + data.length, checked := false } } }).begin m r [] sOk []

/-- FW-SLOT-WRITE in Stump (R490, R491). -/
def State.stumpWrite (s : State) (m : Nat) (r : Request) (t : StumpSt) (late : Bool) : State :=
  let i := beField r.payload 0 1
  let off := beField r.payload 1 4
  let data := r.payload.drop 5
  if !writeForm r.payload then s.respond m r sMalformed []
  else if i ≠ t.target then s.respond m r sState []
  else if off ≠ t.next then (s.stumpAgain t).respond m r sRange []
  else
    let s := s.staleFw i
    let base := fwSlotBase i
    if t.headerOk then
      if off + data.length > 8192 + leField (flashRange s.flash base 8192) 16 4 then (s.stumpAgain t).respond m r sRange []
      else if late then ((s.badWrite (base + off) data.length).stumpAgain t).begin m r [] sFlash []
      else s.stumpBody m r t off data
    else
      let held := t.held ++ data
      if held.length < 8192 then
        ({ s with life := { s.life with stump := some { t with next := off + data.length, held := held, checked := false } } }).begin m r [] sOk []
      else
        let h := held.take 8192
        let c := s.fwHeaderCode h
        let more := held.drop 8192
        if c ≠ 0 then (s.stumpAgain t).begin m r [] sCheck (toBe 1 c ++ toBe 4 0)
        else if more.length > leField h 16 4 then (s.stumpAgain t).respond m r sRange []
        else if late then (((s.scramble base fwSlotSize).badWrite base 8192).stumpAgain t).begin m r [] sFlash []
        else
          let s := { s with flash := flashProgram (flashErase s.flash base fwSlotSize) base h }
          s.stumpBody m r { t with held := [], headerOk := true } 8192 more

/-- FW-SLOT-WRITE (R439, R475). -/
def State.fwSlotWrite (s : State) (m : Nat) (r : Request) (late : Bool) : State :=
  match s.life.stump with
  | some t => s.stumpWrite m r t late
  | none =>
    let i := beField r.payload 0 1
    let off := beField r.payload 1 4
    let data := r.payload.drop 5
    if !writeForm r.payload then s.respond m r sMalformed []
    else if i > 1 ∨ off + data.length > fwSlotSize then s.respond m r sRange []
    else if s.life.fwSlot = some i then s.respond m r sState []
    else
      let w := s.writeSlot (fwSlotBase i) fwSlotSize off data late
      (w.2.staleFw i).begin m r [] (boolFlash w.1) []

/-- FW_SLOT_WRITE (R439, R491). -/
def execFwSlotWrite (dt : Nat) (m : Mbox) (flashLate : Bool) (s : State) : Host.Outcome State Fault Refusal :=
  .next ((s.tick dt).hostCmd m.val 0x0212 fun s r => s.fwSlotWrite m.val r flashLate)

/-! ## Checks -/

/-- Result of CONFIG-CHECK: reason, type, instance, offset. -/
def failOctets (f : ImgFail) : Octets := toBe 1 f.reason ++ toBe 2 f.typ ++ toBe 1 f.inst ++ toBe 4 f.off

/-- CONFIG-CHECK (R41, R55, R56).  A failure is answered; it refuses no slot in the sense of R52: CONFIG_REJECTED is not raised and
cfg_reject does not count (DESIGN CHOICE, log entry 79). -/
def State.cfgCheck (s : State) (m : Nat) (r : Request) : State :=
  let i := beField r.payload 0 1
  if i > 1 then s.respond m r sRange []
  else match s.checkSlot i with
    | .error f => (s.staleCfg i).begin m r [] sCheck (failOctets f)
    | .ok _ =>
      let s := { s with life := { s.life with
        cfgChecked := s.life.cfgChecked.set i true
        provSlot := if s.life.mode == Mode.provision then some i else s.life.provSlot } }
      s.begin m r [] sOk (List.replicate 8 0)

/-- CONFIG_CHECK (R41). -/
def execConfigCheck (dt : Nat) (m : Mbox) (s : State) : Host.Outcome State Fault Refusal :=
  .next ((s.tick dt).shortCmd m.val 0x0203 1 fun s r => s.cfgCheck m.val r)

/-- FW-SLOT-CHECK (R479); in Stump of the target slot alone (R490). -/
def State.fwCheck (s : State) (m : Nat) (r : Request) : State :=
  let i := beField r.payload 0 1
  let other := match s.life.stump with
    | some t => i != t.target
    | none => false
  if i > 1 then s.respond m r (if s.life.stump.isSome then sState else sRange) []
  else if other then s.respond m r sState []
  else
    let c := s.checkFw i
    let ok := c.1 == 0
    let stump := s.life.stump.map fun (t : StumpSt) => { t with checked := ok }
    let s := { s with life := { s.life with fwChecked := s.life.fwChecked.set i ok, stump := stump } }
    s.begin m r [] (if ok then sOk else sCheck) (toBe 1 c.1 ++ toBe 4 c.2)

/-- FW_SLOT_CHECK (R479). -/
def execFwSlotCheck (dt : Nat) (m : Mbox) (s : State) : Host.Outcome State Fault Refusal :=
  .next ((s.tick dt).shortCmd m.val 0x0213 1 fun s r => s.fwCheck m.val r)

/-! ## Activating firmware (R483 to R486) -/

/-- Hand-off formats allow a hitless activation (R484): the running firmware writes one the new image reads. -/
def handOff (running new : Octets) : Bool :=
  decide (leField new 30 2 ≤ leField running 28 2) && decide (leField running 28 2 ≤ leField new 28 2)

/-- Ticks from the start of execution to the pause, steps 1 to 3 of Table 17.3 within its bounds. -/
def prepTicks (prep : Nat) : Nat := min (msTicks 805) (max (usTicks 100) prep)

/-- A forwarding pause that begins in so many ticks: until then the beacon template stands that is in force now (R168, log entry 76). -/
def State.pauseIn (s : State) (n : Nat) : State :=
  feAll.foldl (fun s f => s.setFe f { s.feSt f with template := s.beaconTemplate f }) { s with life := { s.life with pause := some (s.clk + n) } }

/-- FW-ACTIVATE; `prep` ticks pass in steps 1 to 3, while the old firmware runs. -/
def State.fwActivate (s : State) (m : Nat) (r : Request) (late : Bool) (prep : Nat) : State :=
  let i := beField r.payload 0 1
  if i > 1 then s.respond m r sRange []
  else if s.life.fwSlot = some i ∨ !(s.life.fwChecked.getD i false) ∨ s.life.fwTrial then s.respond m r sRefused []
  else
    let h := flashRange s.flash (fwSlotBase i) 4224
    let hitless := handOff s.life.fwHeader h
    let mode := toBe 1 (if hitless then 0 else 1)
    let c := s.checkFw i
    if c.1 ≠ 0 then s.begin m r mode sCheck (toBe 1 c.1)
    else if late then s.failDir.begin m r mode sFlash []
    else
      let s := s.writeDir fun d => { d with fw := i, fwTrial := true }
      if hitless then
        (s.begin m r mode sOk (h.drop 8 |>.take 4 |>.reverse)).pauseIn (prepTicks prep)
      else ((s.respond m r sAccepted mode).sendLast.countKept .fwActivate .device).restartBy 1

/-- FW_ACTIVATE (R484, R485). -/
def execFwActivate (dt : Nat) (m : Mbox) (run : FwRun) (s : State) : Host.Outcome State Fault Refusal :=
  .next ((s.tick dt).shortCmd m.val 0x0214 1 fun s r => s.fwActivate m.val r run.late run.prep)

/-- Step 6 of Table 17.3: the new firmware runs, on trial. -/
def State.fwSwitched (s : State) (i start : Nat) : State :=
  let s := s.runFw i
  let s := { s with life := { s.life with fwTrial := true } }
  (s.count .fwActivate .device).raise 0x1101 none (toBe 1 i ++ toBe 4 s.life.fwVersion.toNat ++ toBe 3 ((s.clk - start) / 250))

/-! ## Activating configuration (R487, R488) -/

/-- Record types whose change a hitless activation takes. -/
def hitlessType (t : Nat) : Bool := t == 0x08 || t == 0x10 || t == 0x0A || t == 0x0B || t == 0x14 || t == 0x13 || t == 0x16

/-- Records other than those of the seven types are identical, octet for octet. -/
def hitlessImage (old new : Image) : Bool :=
  (old.recs.filter fun r => !hitlessType r.typ) == (new.recs.filter fun r => !hitlessType r.typ)

/-- World-key slots that neither the new image nor Heartwood gives a key are erased (R339). -/
def State.dropWorldKeys (s : State) (new : Image) : State :=
  s.eraseSlots (s.readySlots.filter fun k => decide (32 ≤ k) && decide (k ≤ 167) && !(new.recs.any fun r => r.typ == 0x13 && r.inst == k))

/-- Gate lists of the new image go to the shadow lists (R213). -/
def State.shadowGates (s : State) (keep : CanopyKeep) : State :=
  feAll.foldl (fun s f => match s.cfg 0x0A (feCode f) with
    | none => s
    | some p =>
      let g := s.wake.gates.get f
      let n : GateSt := { g with shadow := some (s.imageGates (some keep) f p), notBefore := s.netNs + s.changeoverMs * 1000000 }
      State.logGates { s with wake := { s.wake with gates := s.wake.gates.set f n } } (some keep) f p) s

/-- A slice centre outside the new bounds is to move to the nearest legal one, with the watch map that goes with it (R50, R116). -/
def State.clampCentre (s : State) (f : Fe) : State :=
  if !s.hasFe f then s
  else
    let old := s.centre f
    let other := if f = .sa then (if s.hasFe .sb then some (s.centre .sb) else none)
      else if f = .sb ∧ s.hasFe .sa then some (s.centre .sa) else none
    let c := (nearest old (s.legalCentres f other)).getD old
    if c = old then s
    else
      let wm := s.watchMap (fun g => if g = f then c else s.centre g) 0
      let watch := wm.map.filterMap fun p => if p.2.1 = feCode f then (chanIn c (s.raster f) p.2.2).map fun k => (p.1, k) else none
      (s.setFe f { s.feSt f with move := some { centre := c, clk := s.clk, watch := watch } }).logClamp 0xFF (feCode f) (old / 1000) (c / 1000)

/-- Lane and slice pins and freezes are dropped; pins of the LANES record stand (R322). -/
def State.dropPins (s : State) : State :=
  let img : Tbl (Nat × Nat) := match s.cfg 0x04 0 with
    | some p => (lanesMap p).filter fun e => bitOf (leField p (2 * e.1) 2) 10
    | none => []
  let s := { s with canopy := { s.canopy with freezes := [], slicePins := [], lanePins := img } }
  { s with lanes := s.lanes.map fun p => (p.1, { p.2 with pinned := (img.get p.1).isSome }) }

/-- Credits within the bounds of the new SHAPING record (R219). -/
def State.clampCredits (s : State) : State :=
  let s := s.settleCredits
  { s with wake := { s.wake with credit := s.wake.credit.map fun p => (p.1, max (-s.burst) (min s.burst p.2)) } }

/-- Applies an image without a restart (R488); its config_version counts as one that differs from the last applied, also where the two are equal
(DESIGN CHOICE, log entry 79: R534 and R488 differ there). -/
def State.applyHitless (s : State) (slot : Nat) (new : Image) : State :=
  let s := s.clampCredits
  let keep := s.canopyKeep
  let s := s.lineWrite 0x2000
  let s := State.countSkipped { s with
    life := { s.life with image := some new, cfgSlot := some slot, cfgTrial := true }, hw := { s.hw with cfgVersion := some new.version } } new
  let s := ((s.dropWorldKeys new).loadKeys false).takeLocal false
  let s := s.replaceAlmanac.clampCredits
  let s := (s.shadowGates keep).dropPins
  let s := feAll.foldl State.clampCentre s
  let s := s.restoreGroups (some keep)
  let s := s.table.nodes.foldl (fun (s : State) (p : Nat × Node) => s.clampNode p.1 p.2) s
  (s.reindex (BitVec.ofNat 64 s.cfgSeed)).touch .canopy

/-- CONFIG-ACTIVATE. -/
def State.cfgActivate (s : State) (m : Nat) (r : Request) (late : Bool) : State :=
  let i := beField r.payload 0 1
  match s.life.image with
  | none => s.respond m r sState []
  | some old =>
    if i > 1 then s.respond m r sRange []
    else if s.life.cfgSlot = some i ∨ !(s.life.cfgChecked.getD i false) ∨ s.life.cfgTrial then s.respond m r sRefused []
    else match s.checkSlot i with
      | .error f => s.begin m r (toBe 1 1) sCheck (toBe 1 f.reason)
      | .ok new =>
        let hitless := hitlessImage old new
        let mode := toBe 1 (if hitless then 0 else 1)
        if late then s.failDir.begin m r mode sFlash []
        else
          let s := s.writeDir fun d => { d with cfg := i, cfgTrial := true }
          if hitless then
            ((s.begin m r mode sOk []).pauseIn 0).applyHitless i new
          else
            let s := (s.respond m r sAccepted mode).sendLast.countKept .cfgActivate .device
            (s.raise 0x1103 none (toBe 1 i ++ toBe 4 new.version.toNat ++ toBe 1 1)).restartBy 1

/-- CONFIG_ACTIVATE (R487, R488). -/
def execConfigActivate (dt : Nat) (m : Mbox) (flashLate : Bool) (s : State) : Host.Outcome State Fault Refusal :=
  .next ((s.tick dt).shortCmd m.val 0x0204 1 fun s r => s.cfgActivate m.val r flashLate)

/-- The end of a hitless configuration activation. -/
def State.cfgSwitched (s : State) : State :=
  match s.life.image with
  | some i => (s.count .cfgActivate .device).raise 0x1103 none (toBe 1 (slotCode s.life.cfgSlot) ++ toBe 4 i.version.toNat ++ toBe 1 0)
  | none => s

/-! ## Confirming (R482) -/

/-- CONFIG-CONFIRM. -/
def State.cfgConfirm (s : State) (m : Nat) (r : Request) (late : Bool) : State :=
  match s.life.cfgSlot with
  | some i =>
    if !s.life.cfgTrial then s.respond m r sState []
    else if late then s.failDir.begin m r [] sFlash []
    else
      let s := s.writeDir fun d => { d with cfg := i, cfgTrial := false }
      ({ s with life := { s.life with cfgTrial := false } }.raiseFloor).begin m r [] sOk []
  | none => s.respond m r sState []

/-- CONFIG_CONFIRM (R482). -/
def execConfigConfirm (dt : Nat) (m : Mbox) (flashLate : Bool) (s : State) : Host.Outcome State Fault Refusal :=
  .next ((s.tick dt).shortCmd m.val 0x0205 0 fun s r => s.cfgConfirm m.val r flashLate)

/-- FW-CONFIRM. -/
def State.fwConfirm (s : State) (m : Nat) (r : Request) (late : Bool) : State :=
  match s.life.fwSlot with
  | some i =>
    if !s.life.fwTrial then s.respond m r sState []
    else if late then s.failDir.begin m r [] sFlash []
    else
      let s := s.writeDir fun d => { d with fw := i, fwTrial := false }
      ({ s with life := { s.life with fwTrial := false } }.raiseRollback).begin m r [] sOk []
  | none => s.respond m r sState []

/-- FW_CONFIRM (R482). -/
def execFwConfirm (dt : Nat) (m : Mbox) (flashLate : Bool) (s : State) : Host.Outcome State Fault Refusal :=
  .next ((s.tick dt).shortCmd m.val 0x0215 0 fun s r => s.fwConfirm m.val r flashLate)

end Sys2Proof.Machine
end

