-- ==== Sys2Proof/Machine/Final.lean ====
section
/-! DEFINITION. The end of long operations (R434), and with it of a forwarding pause (R20 to R22). -/

namespace Sys2Proof.Machine

/-- The forwarding pause ends: the Almanac evaluates what it held, and the datagrams that waited are taken (R21, R22, R433). -/
def State.resume (s : State) : State :=
  ({ s with life := { s.life with pause := none } }.almResume).releaseHeld

/-- The end of an activation whose pause began at `start`. -/
def State.endActivation (s : State) (m : Nat) (b : Busy) (start : Nat) (handOffOk : Bool) : State :=
  let s := { s with life := { s.life with pause := none } }
  if b.req.opcode = 0x0214 then
    if handOffOk then ((s.fwSwitched (beField b.req.payload 0 1) start).finish m b b.status b.result).resume
    else s.restartBy 1
  else (s.cfgSwitched.finish m b b.status b.result).resume

/-- The outcome of the operation that ends: its status and result, and the state after its last effect. -/
def State.outcome (s : State) (b : Busy) : Nat × Octets × State :=
  if b.req.opcode = 0x0304 then (match s.table.flushing with
    | some w => (b.status, b.result, s.flushEnd w)
    | none => (b.status, b.result, s))
  else if b.req.opcode = 0x0305 then (match s.table.rehash with
    | some seed => s.rehashEnd seed
    | none => (b.status, b.result, s))
  else (b.status, b.result, s)

/-- A BACKHAUL-SPEED whose port still changes speed has not ended (R412). -/
def State.changing (s : State) (b : Busy) : Bool :=
  b.req.opcode == 0x0702 && (s.port (if beField b.req.payload 0 1 = 0 then .p0 else .p1)).change.isSome

/-- The operation of mailbox m ends.  During a forwarding pause only the activation that made it does (R433). -/
def State.finalResponse (s : State) (m : Nat) (handOffOk : Bool) : State :=
  match (s.mb m).busy with
  | none => s
  | some b =>
    let ends := fun (_ : Unit) =>
      if s.changing b then s
      else
        let o := s.outcome b
        o.2.2.finish m b o.1 o.2.1
    match s.life.pause with
    | some start =>
      if b.req.opcode = 0x0214 ∨ b.req.opcode = 0x0204 then (if start ≤ s.clk then s.endActivation m b start handOffOk else s)
      else if s.inPause then s
      else ends ()
    | none => ends ()

/-- FINAL_RESPONSE (R434, R485, R486, R488). -/
def execFinalResponse (dt : Nat) (m : Mbox) (handOffOk : Bool) (s : State) : Host.Outcome State Fault Refusal :=
  .next ((s.tick dt).finalResponse m.val handOffOk)

end Sys2Proof.Machine
end

