-- ==== Sys2Proof/Machine/KeyCmds.lean ====
section
/-! DEFINITION. KEY-LOAD, KEY-ERASE and KEY-LIST (R334 to R339), CTX-SAVE and CTX-RESTORE (R364 to R366). -/

namespace Sys2Proof.Machine

/-! ## Key slots -/

/-- Slots of a world in the range of Table 12.5: its join slot and its group slots. -/
def worldSlots (w : Nat) : List Nat := (32 + w) :: groupSlots w

/-- The usage bits a slot may carry (R341): fwd for a group slot, kdf for a join slot. -/
def usageOk (i : Nat) (u : Nat) : Bool := if i < 40 then u == 0 || u == 8 else u == 0 || u == 1

/-- A fallback is none, or another group slot of the slot's world; a join slot has none. -/
def fallbackOk (i f : Nat) : Bool := f == 0xFF || (decide (40 ≤ i) && f != i && (groupSlots ((slotWorld i).getD 0)).contains f)

/-- The present key of slot i is copied into its fallback slot (step 1 of R337); a copy does not name itself. -/
def State.keepKey (s : State) (i f : Nat) : State :=
  let k := s.slot i
  let c := if k.fallback.toNat = f then { k with fallback := 0xFF, fbValid := false } else k
  ((s.loadSlot f c).groupCell f k.octets).journalKey f

/-- KEY-LOAD of an unwrapped key; a target with no key leaves nothing to keep (log entry 51). -/
def State.takeKey (s : State) (i usage f : Nat) (keyId : BitVec 64) (key : List Nat) : State :=
  let keep := f != 0xFF && (s.slot i).state == SlotState.ready
  let s := if keep then s.keepKey i f else s
  let fb : BitVec 8 := if keep then BitVec.ofNat 8 f else 0xFF
  (s.loadWorldKey i (worldKeySlot ((slotWorld i).getD 0) (BitVec.ofNat 7 usage) keyId fb key)).journalKey i

/-- KEY-LOAD. -/
def State.keyLoad (s : State) (m : Nat) (r : Request) : State :=
  let w := (s.mb m).world
  let i := beField r.payload 0 1
  let usage := beField r.payload 1 1
  let f := beField r.payload 2 1
  match slotWorld i with
  | none => s.respond m r sRange []
  | some v =>
    if v ≠ w then s.respond m r sNotPermitted []
    else if !usageOk i usage || !fallbackOk i f then s.respond m r sRange []
    else match s.unwrapBy (10 + 3 * m) (sliceOct r.payload 11 24) with
      | none => (s.countBoth .keyUnwrapFail w).respond m r sUnwrap []
      | some key =>
        let t := s.takeKey i usage f (BitVec.ofNat 64 (beField r.payload 3 8)) key
        t.respond m r sOk (toBe 2 (t.slot i).gen.toNat)

/-- KEY_LOAD (R334, R337 to R339). -/
def execKeyLoad (dt : Nat) (m : Mbox) (s : State) : Host.Outcome State Fault Refusal :=
  .next ((s.tick dt).shortCmd m.val 0x0401 35 fun s r => s.keyLoad m.val r)

/-- Erases a world key, and its journalled copy (log entry 52). -/
def State.dropKey (s : State) (i : Nat) : State :=
  let s := s.eraseSlot i
  { s with hw := { s.hw with worldKeys := s.hw.worldKeys.erase i } }

/-- KEY-ERASE. -/
def State.keyErase (s : State) (m : Nat) (r : Request) : State :=
  let w := (s.mb m).world
  let i := beField r.payload 0 1
  match slotWorld i with
  | none => s.respond m r sRange []
  | some v => if v ≠ w ∧ w ≠ 0 then s.respond m r sNotPermitted [] else (s.dropKey i).respond m r sOk []

/-- KEY_ERASE (R335). -/
def execKeyErase (dt : Nat) (m : Mbox) (s : State) : Host.Outcome State Fault Refusal :=
  .next ((s.tick dt).shortCmd m.val 0x0402 1 fun s r => s.keyErase m.val r)

/-- States of Table 12.4. -/
def slotStateCode : SlotState → Nat
  | .empty => 0
  | .ready => 1
  | .erasing => 2

/-- What KEY-LIST returns of a slot. -/
def State.slotView (s : State) (i : Nat) : Octets :=
  let k := s.slot i
  toBe 1 i ++ toBe 1 (slotStateCode k.state) ++ toBe 2 k.gen.toNat ++ toBe 1 k.usage.toNat ++ toBe 1 (if k.fbValid then k.fallback.toNat else 0xFF) ++
    toBe 8 k.keyId.toNat

/-- KEY_LIST (Table 15.4): the slots of the mailbox's world, in ascending order. -/
def execKeyList (dt : Nat) (m : Mbox) (s : State) : Host.Outcome State Fault Refusal :=
  .next ((s.tick dt).shortCmd m.val 0x0403 0 fun s r =>
    let l := worldSlots (s.mb m.val).world
    s.respond m.val r sOk (toBe 1 l.length ++ l.flatMap s.slotView))

/-! ## Chaining contexts (R365, R366) -/

/-- A context bound to a key slot of W0 that is not a device slot. -/
def Ctx.ofW0 (c : Ctx) : Bool := c.world == 0 && !bitOf c.flags.toNat 0 && decide (8 ≤ c.slot.toNat)

/-- A service of the clear form ends approved mode (R347, R348). -/
def State.endApproved (s : State) : State := { s with life := { s.life with approved := false } }

/-- CTX-SAVE. -/
def State.ctxSave (s : State) (m : Nat) (r : Request) : State :=
  let form := beField r.payload 1 1
  if form > 1 then s.respond m r sRange []
  else match s.crypto.ctxs.get (beField r.payload 0 1) with
    | none => s.respond m r sNotFound []
    | some c =>
      if !c.ofW0 then (s.count .ctxSaveRefused .device).respond m r sNotPermitted []
      else if form = 0 then s.respond m r sOk (s.wrapHw (octNats c.octets))
      else s.endApproved.respond m r sOk c.octets

/-- CTX_SAVE (R365). -/
def execCtxSave (dt : Nat) (m : Mbox) (s : State) : Host.Outcome State Fault Refusal :=
  .next ((s.tick dt).shortCmd m.val 0x0404 2 fun s r => s.ctxSave m.val r)

/-- The context's start and key slot are the present ones (R366). -/
def State.ctxStands (s : State) (c : Ctx) : Bool :=
  let k := s.slot c.slot.toNat
  c.startTag == s.crypto.startTag && k.state == .ready && k.gen == c.gen

/-- The 48 octets of a restore: unwrapped under K_hw, or as they came. -/
def State.ctxOctets (s : State) (form : Nat) (o : Octets) : Option Octets :=
  if form = 0 then (s.unwrapBy 1 o).map natOcts else some o

/-- CTX-RESTORE. -/
def State.ctxRestore (s : State) (m : Nat) (r : Request) : State :=
  let form := beField r.payload 1 1
  if r.payload.length ≠ 58 ∧ r.payload.length ≠ 50 then s.respond m r sMalformed []
  else if form > 1 then s.respond m r sRange []
  else if r.payload.length ≠ (if form = 0 then 58 else 50) then s.respond m r sMalformed []
  else match s.ctxOctets form (r.payload.drop 2) with
    | none => (s.count .ctxRestoreRefused .device).respond m r sUnwrap []
    | some o =>
      let c := ctxOf o
      if !c.ofW0 then (s.count .ctxSaveRefused .device).respond m r sNotPermitted []
      else if !s.ctxStands c then (s.count .ctxRestoreRefused .device).respond m r sRefused []
      else
        let s := if form = 1 then s.endApproved else s
        ({ s with crypto := { s.crypto with ctxs := s.crypto.ctxs.set (beField r.payload 0 1) c } }).respond m r sOk []

/-- CTX_RESTORE (R365, R366). -/
def execCtxRestore (dt : Nat) (m : Mbox) (s : State) : Host.Outcome State Fault Refusal :=
  .next ((s.tick dt).hostCmd m.val 0x0405 fun s r => s.ctxRestore m.val r)

end Sys2Proof.Machine
end

