-- ==== Sys2Proof/Machine/Dispatch.lean ====
section
/-! DEFINITION. The meaning of every command: one arm per constructor of Instr. -/

namespace Sys2Proof.Machine

def exec (i : Instr) (s : State) : Host.Outcome State Fault Refusal :=
  match i with
  | .identityGet dt m => Sys2Proof.Machine.execIdentityGet dt m s
  | .securityStatus dt m => Sys2Proof.Machine.execSecurityStatus dt m s
  | .attest dt m => Sys2Proof.Machine.execAttest dt m s
  | .selftestRun dt m r => Sys2Proof.Machine.execSelftestRun dt m r s
  | .cfgKeyInstall dt m => Sys2Proof.Machine.execCfgKeyInstall dt m s
  | .mboxKeyInstall dt m => Sys2Proof.Machine.execMboxKeyInstall dt m s
  | .lifecycleOperate dt m => Sys2Proof.Machine.execLifecycleOperate dt m s
  | .retirePrepare dt m => Sys2Proof.Machine.execRetirePrepare dt m s
  | .retire dt m => Sys2Proof.Machine.execRetire dt m s
  | .zeroiseAll dt m => Sys2Proof.Machine.execZeroiseAll dt m s
  | .restart dt m => Sys2Proof.Machine.execRestart dt m s
  | .configSlotWrite dt m flashLate => Sys2Proof.Machine.execConfigSlotWrite dt m flashLate s
  | .configCheck dt m => Sys2Proof.Machine.execConfigCheck dt m s
  | .configActivate dt m flashLate => Sys2Proof.Machine.execConfigActivate dt m flashLate s
  | .configConfirm dt m flashLate => Sys2Proof.Machine.execConfigConfirm dt m flashLate s
  | .fwSlotWrite dt m flashLate => Sys2Proof.Machine.execFwSlotWrite dt m flashLate s
  | .fwSlotCheck dt m => Sys2Proof.Machine.execFwSlotCheck dt m s
  | .fwActivate dt m run => Sys2Proof.Machine.execFwActivate dt m run s
  | .fwConfirm dt m flashLate => Sys2Proof.Machine.execFwConfirm dt m flashLate s
  | .nodeSearch dt m => Sys2Proof.Machine.execNodeSearch dt m s
  | .nodeNext dt m => Sys2Proof.Machine.execNodeNext dt m s
  | .nodeRemove dt m => Sys2Proof.Machine.execNodeRemove dt m s
  | .tableFlushWorld dt m => Sys2Proof.Machine.execTableFlushWorld dt m s
  | .rehash dt m => Sys2Proof.Machine.execRehash dt m s
  | .linkGet dt m => Sys2Proof.Machine.execLinkGet dt m s
  | .keyLoad dt m => Sys2Proof.Machine.execKeyLoad dt m s
  | .keyErase dt m => Sys2Proof.Machine.execKeyErase dt m s
  | .keyList dt m => Sys2Proof.Machine.execKeyList dt m s
  | .ctxSave dt m => Sys2Proof.Machine.execCtxSave dt m s
  | .ctxRestore dt m => Sys2Proof.Machine.execCtxRestore dt m s
  | .timeGet dt m => Sys2Proof.Machine.execTimeGet dt m s
  | .timeSet dt m => Sys2Proof.Machine.execTimeSet dt m s
  | .localOffsetSet dt m => Sys2Proof.Machine.execLocalOffsetSet dt m s
  | .addHour dt m => Sys2Proof.Machine.execAddHour dt m s
  | .subHour dt m => Sys2Proof.Machine.execSubHour dt m s
  | .countdownSet dt m => Sys2Proof.Machine.execCountdownSet dt m s
  | .almanacAdd dt m => Sys2Proof.Machine.execAlmanacAdd dt m s
  | .almanacRemove dt m => Sys2Proof.Machine.execAlmanacRemove dt m s
  | .almanacList dt m => Sys2Proof.Machine.execAlmanacList dt m s
  | .canopyPin dt m => Sys2Proof.Machine.execCanopyPin dt m s
  | .canopyUnpin dt m => Sys2Proof.Machine.execCanopyUnpin dt m s
  | .canopyFreeze dt m => Sys2Proof.Machine.execCanopyFreeze dt m s
  | .canopyThaw dt m => Sys2Proof.Machine.execCanopyThaw dt m s
  | .canopyLogRead dt m => Sys2Proof.Machine.execCanopyLogRead dt m s
  | .backhaulStatus dt m => Sys2Proof.Machine.execBackhaulStatus dt m s
  | .backhaulSpeed dt m => Sys2Proof.Machine.execBackhaulSpeed dt m s
  | .rfTestStart dt m => Sys2Proof.Machine.execRfTestStart dt m s
  | .rfTestStop dt m => Sys2Proof.Machine.execRfTestStop dt m s
  | .tallySnapshot dt m => Sys2Proof.Machine.execTallySnapshot dt m s
  | .tallyRead dt m => Sys2Proof.Machine.execTallyRead dt m s
  | .qstatsRead dt m => Sys2Proof.Machine.execQstatsRead dt m s
  | .eventAck dt m => Sys2Proof.Machine.execEventAck dt m s
  | .eventSubscribe dt m => Sys2Proof.Machine.execEventSubscribe dt m s
  | .m0Write dt length octets => Sys2Proof.Machine.execM0Write dt length octets s
  | .m0Read dt wholly => Sys2Proof.Machine.execM0Read dt wholly s
  | .m0Status dt => Sys2Proof.Machine.execM0Status dt s
  | .m0BadCommand dt first => Sys2Proof.Machine.execM0BadCommand dt first s
  | .verieliRequest dt m d => Sys2Proof.Machine.execVerieliRequest dt m d s
  | .resetNRise dt e => Sys2Proof.Machine.execResetNRise dt e s
  | .resetNFall dt => Sys2Proof.Machine.execResetNFall dt s
  | .radioOn dt => Sys2Proof.Machine.execRadioOn dt s
  | .powerFail dt cause holdUp supplyLost => Sys2Proof.Machine.execPowerFail dt cause holdUp supplyLost s
  | .pfiNHigh dt e => Sys2Proof.Machine.execPfiNHigh dt e s
  | .zeroiseNLow dt => Sys2Proof.Machine.execZeroiseNLow dt s
  | .zeroiseNHigh dt e => Sys2Proof.Machine.execZeroiseNHigh dt e s
  | .zeroisationEnd dt e => Sys2Proof.Machine.execZeroisationEnd dt e s
  | .tamperClassA dt sensor => Sys2Proof.Machine.execTamperClassA dt sensor s
  | .tamperClassB dt sensor e => Sys2Proof.Machine.execTamperClassB dt sensor e s
  | .periodicSelftest dt r => Sys2Proof.Machine.execPeriodicSelftest dt r s
  | .drbgReseed dt first second => Sys2Proof.Machine.execDrbgReseed dt first second s
  | .jtagInstructionUpdate dt x => Sys2Proof.Machine.execJtagInstructionUpdate dt x s
  | .preambleDetected dt l p corrA corrB level => Sys2Proof.Machine.execPreambleDetected dt l p corrA corrB level s
  | .sfdTimeout dt l => Sys2Proof.Machine.execSfdTimeout dt l s
  | .sfdFound dt l sync offset8 a b => Sys2Proof.Machine.execSfdFound dt l sync offset8 a b s
  | .phyHeaderEnd dt l hdr => Sys2Proof.Machine.execPhyHeaderEnd dt l hdr s
  | .ackOwed dt l fc => Sys2Proof.Machine.execAckOwed dt l fc s
  | .codewordReady dt l => Sys2Proof.Machine.execCodewordReady dt l s
  | .codewordDecoded dt core iterations zeroSyndrome => Sys2Proof.Machine.execCodewordDecoded dt core iterations zeroSyndrome s
  | .frameEnd dt l f => Sys2Proof.Machine.execFrameEnd dt l f s
  | .laneAssignmentEffect dt l => Sys2Proof.Machine.execLaneAssignmentEffect dt l s
  | .laneFault dt l cause => Sys2Proof.Machine.execLaneFault dt l cause s
  | .laneKat dt l pass => Sys2Proof.Machine.execLaneKat dt l pass s
  | .laneDomainPowerDown dt d => Sys2Proof.Machine.execLaneDomainPowerDown dt d s
  | .laneReturn dt d kat => Sys2Proof.Machine.execLaneReturn dt d kat s
  | .transmitRequest dt f temp => Sys2Proof.Machine.execTransmitRequest dt f temp s
  | .transmissionCommit dt f => Sys2Proof.Machine.execTransmissionCommit dt f s
  | .transmissionEnd dt f samples det => Sys2Proof.Machine.execTransmissionEnd dt f samples det s
  | .overpowerAbort dt f excessQdb => Sys2Proof.Machine.execOverpowerAbort dt f excessQdb s
  | .backgroundCalibration dt f temp => Sys2Proof.Machine.execBackgroundCalibration dt f temp s
  | .calibrationComplete dt f temp => Sys2Proof.Machine.execCalibrationComplete dt f temp s
  | .feLockLost dt f failed => Sys2Proof.Machine.execFeLockLost dt f failed s
  | .rxSynthCalibration dt f temp => Sys2Proof.Machine.execRxSynthCalibration dt f temp s
  | .feSleep dt f => Sys2Proof.Machine.execFeSleep dt f s
  | .feWake dt f => Sys2Proof.Machine.execFeWake dt f s
  | .backoffExpiry dt f => Sys2Proof.Machine.execBackoffExpiry dt f s
  | .sensingEnd dt f power blanked => Sys2Proof.Machine.execSensingEnd dt f power blanked s
  | .ackDeadline dt f => Sys2Proof.Machine.execAckDeadline dt f s
  | .continuationEnd dt eui => Sys2Proof.Machine.execContinuationEnd dt eui s
  | .neighbourWindow dt routerId => Sys2Proof.Machine.execNeighbourWindow dt routerId s
  | .frameSelect dt f => Sys2Proof.Machine.execFrameSelect dt f s
  | .gateEntryOpen dt f => Sys2Proof.Machine.execGateEntryOpen dt f s
  | .gateChangeover dt f => Sys2Proof.Machine.execGateChangeover dt f s
  | .calendarSlot dt => Sys2Proof.Machine.execCalendarSlot dt s
  | .farListMove dt => Sys2Proof.Machine.execFarListMove dt s
  | .queueSample dt => Sys2Proof.Machine.execQueueSample dt s
  | .timeStep dt => Sys2Proof.Machine.execTimeStep dt s
  | .incrementWrite dt incNs incFrac => Sys2Proof.Machine.execIncrementWrite dt incNs incFrac s
  | .meridianUpdate dt copies => Sys2Proof.Machine.execMeridianUpdate dt copies s
  | .ptpMeasurement dt p => Sys2Proof.Machine.execPtpMeasurement dt p s
  | .masterLoss dt => Sys2Proof.Machine.execMasterLoss dt s
  | .holdoverDegraded dt => Sys2Proof.Machine.execHoldoverDegraded dt s
  | .ppsInEdge dt => Sys2Proof.Machine.execPpsInEdge dt s
  | .rtcSecond dt => Sys2Proof.Machine.execRtcSecond dt s
  | .rtcAdjust dt stampErr => Sys2Proof.Machine.execRtcAdjust dt stampErr s
  | .rtcOscStopped dt => Sys2Proof.Machine.execRtcOscStopped dt s
  | .securityProcessing dt core p => Sys2Proof.Machine.execSecurityProcessing dt core p s
  | .joinTimeout dt index => Sys2Proof.Machine.execJoinTimeout dt index s
  | .reassemblyTimeout dt src tag size => Sys2Proof.Machine.execReassemblyTimeout dt src tag size s
  | .dioTrickle dt w => Sys2Proof.Machine.execDioTrickle dt w s
  | .cipherJobPost dt job input parityOk => Sys2Proof.Machine.execCipherJobPost dt job input parityOk s
  | .cipherJobEnd dt u fault => Sys2Proof.Machine.execCipherJobEnd dt u fault s
  | .fcCeilingWrite dt k => Sys2Proof.Machine.execFcCeilingWrite dt k s
  | .backhaulCellRequest dt p hdr => Sys2Proof.Machine.execBackhaulCellRequest dt p hdr s
  | .backhaulFrameEnd dt p f => Sys2Proof.Machine.execBackhaulFrameEnd dt p f s
  | .pauseEnd dt p => Sys2Proof.Machine.execPauseEnd dt p s
  | .pauseWatchdog dt p => Sys2Proof.Machine.execPauseWatchdog dt p s
  | .downstreamClassify dt core compressed hdrCompressed => Sys2Proof.Machine.execDownstreamClassify dt core compressed hdrCompressed s
  | .sawmillSend dt => Sys2Proof.Machine.execSawmillSend dt s
  | .egressSelect dt => Sys2Proof.Machine.execEgressSelect dt s
  | .supervisionSend dt => Sys2Proof.Machine.execSupervisionSend dt s
  | .pathWindow dt => Sys2Proof.Machine.execPathWindow dt s
  | .linkUp dt p phy10OrHalf => Sys2Proof.Machine.execLinkUp dt p phy10OrHalf s
  | .linkDown dt p => Sys2Proof.Machine.execLinkDown dt p s
  | .loadMeasure dt rx tx rx1 tx1 => Sys2Proof.Machine.execLoadMeasure dt rx tx rx1 tx1 s
  | .speedChangeComplete dt p => Sys2Proof.Machine.execSpeedChangeComplete dt p s
  | .speedStepTimeout dt p => Sys2Proof.Machine.execSpeedStepTimeout dt p s
  | .lpiEntry dt p => Sys2Proof.Machine.execLpiEntry dt p s
  | .eventMessageSend dt m => Sys2Proof.Machine.execEventMessageSend dt m s
  | .eventResend dt m => Sys2Proof.Machine.execEventResend dt m s
  | .ageingSweepVisit dt => Sys2Proof.Machine.execAgeingSweepVisit dt s
  | .shadowWalkerVisit dt => Sys2Proof.Machine.execShadowWalkerVisit dt s
  | .recordUncorrectable dt index => Sys2Proof.Machine.execRecordUncorrectable dt index s
  | .poolAudit dt stray => Sys2Proof.Machine.execPoolAudit dt stray s
  | .dramRetrain dt ok => Sys2Proof.Machine.execDramRetrain dt ok s
  | .canopyRound dt e => Sys2Proof.Machine.execCanopyRound dt e s
  | .sliceMove dt f => Sys2Proof.Machine.execSliceMove dt f s
  | .assignmentEffect dt index => Sys2Proof.Machine.execAssignmentEffect dt index s
  | .assignmentWithdrawal dt index => Sys2Proof.Machine.execAssignmentWithdrawal dt index s
  | .freezeEnd dt => Sys2Proof.Machine.execFreezeEnd dt s
  | .canopyUnwatched dt f channel => Sys2Proof.Machine.execCanopyUnwatched dt f channel s
  | .bufferClose dt => Sys2Proof.Machine.execBufferClose dt s
  | .homing dt => Sys2Proof.Machine.execHoming dt s
  | .tallyJournal dt => Sys2Proof.Machine.execTallyJournal dt s
  | .unitFault dt u => Sys2Proof.Machine.execUnitFault dt u s
  | .tagHoldExpiry dt h => Sys2Proof.Machine.execTagHoldExpiry dt h s
  | .channelTimeout dt x => Sys2Proof.Machine.execChannelTimeout dt x s
  | .thermalStep dt tj e => Sys2Proof.Machine.execThermalStep dt tj e s
  | .finalResponse dt m handOffOk => Sys2Proof.Machine.execFinalResponse dt m handOffOk s
  | .testLogicReset dt e => Sys2Proof.Machine.execTestLogicReset dt e s
  | .aonReset dt => Sys2Proof.Machine.execAonReset dt s
  | .crystalRestart dt => Sys2Proof.Machine.execCrystalRestart dt s
  | .destinationAddressReceived dt l dstPan dst => Sys2Proof.Machine.execDestinationAddressReceived dt l dstPan dst s
  | .rxOversize dt p => Sys2Proof.Machine.execRxOversize dt p s
  | .hardwareGeneratorReseed dt => Sys2Proof.Machine.execHardwareGeneratorReseed dt s
  | .rfTestEnd dt f => Sys2Proof.Machine.execRfTestEnd dt f s

end Sys2Proof.Machine
end

