-- ==== Sys2Proof/Frames.lean ====
section
/-! DEFINITION. What each command leaves as it is: the parts the state is made of, and for every command those it may write. -/

namespace Sys2Proof.Machine

/-- Parts the state is made of; the clock, the identity and the queue of commands are written by no command. -/
inductive Comp where
  /-- Values drawn from the free-value constants. -/
  | rnd
  /-- The fuse state. -/
  | lcs
  /-- The rest of the life-cycle state. -/
  | life
  /-- Pins. -/
  | pins
  /-- The boot flash. -/
  | flash
  /-- Key slots. -/
  | slots
  /-- The rest of the cipher units and the generator. -/
  | crypto
  /-- Network time. -/
  | time
  /-- The RTC. -/
  | rtc
  /-- Version floor, rollback counter, zeroisation count and flag in Heartwood. -/
  | marks
  /-- Counter ceilings in Heartwood. -/
  | ceilings
  /-- Wrapped keys in Heartwood. -/
  | storedKeys
  /-- The Almanac. -/
  | almanac
  /-- The rest of Heartwood. -/
  | heart
  /-- The coalescing buffer. -/
  | dirty
  /-- Tally. -/
  | tally
  /-- Events raised before step 8. -/
  | early
  /-- Mailboxes and event rings. -/
  | mbox
  /-- Datagrams held in a pause. -/
  | held
  /-- What M0 returned last. -/
  | m0Out
  /-- Cell accounts. -/
  | cells
  /-- The queues. -/
  | orders
  /-- Reassembly. -/
  | reasm
  /-- Which cells are homed, retired, astray or still staged, and which DRAM blocks are marked. -/
  | queues
  /-- Messages sent before a restart. -/
  | parting
  /-- Front ends. -/
  | fe
  /-- Lanes. -/
  | lanes
  /-- Lane domain A. -/
  | domA
  /-- Lane domain B. -/
  | domB
  /-- Decoders. -/
  | dec
  /-- The MAC. -/
  | mac
  /-- Node records. -/
  | nodes
  /-- The rest of the node table. -/
  | table
  /-- The wake cycle. -/
  | wake
  /-- Canopy. -/
  | canopy
  /-- The backhaul. -/
  | back
  /-- Islands, units, temperature. -/
  | isl
  deriving DecidableEq, Repr

/-- A part is the same in two states. -/
def Comp.same (s u : State) : Comp → Prop
  | .rnd => u.rnd = s.rnd
  | .lcs => u.life.lcs = s.life.lcs
  | .life => u.life = { s.life with lcs := u.life.lcs }
  | .pins => u.pins = s.pins
  | .flash => u.flash = s.flash
  | .slots => u.crypto.slots = s.crypto.slots
  | .crypto => u.crypto = { s.crypto with slots := u.crypto.slots }
  | .time => u.time = s.time
  | .rtc => u.rtc = s.rtc
  | .marks => u.hw.zeroCount = s.hw.zeroCount ∧ u.hw.zeroFlag = s.hw.zeroFlag ∧ u.hw.floor = s.hw.floor ∧ u.hw.rollback = s.hw.rollback
  | .ceilings => u.hw.fc = s.hw.fc ∧ u.hw.groupCell = s.hw.groupCell ∧ u.hw.joinCeil = s.hw.joinCeil ∧ u.hw.seqCeil = s.hw.seqCeil
  | .storedKeys => u.hw.kcfg = s.hw.kcfg ∧ u.hw.mboxKeys = s.hw.mboxKeys ∧ u.hw.lastKeys = s.hw.lastKeys ∧ u.hw.worldKeys = s.hw.worldKeys
  | .almanac => u.hw.almanac = s.hw.almanac
  | .heart => u.hw = { s.hw with
    zeroCount := u.hw.zeroCount, zeroFlag := u.hw.zeroFlag, floor := u.hw.floor, rollback := u.hw.rollback, fc := u.hw.fc, groupCell := u.hw.groupCell, joinCeil := u.hw.joinCeil, seqCeil := u.hw.seqCeil, kcfg := u.hw.kcfg, mboxKeys := u.hw.mboxKeys, lastKeys := u.hw.lastKeys, worldKeys := u.hw.worldKeys, almanac := u.hw.almanac }
  | .dirty => u.dirty = s.dirty
  | .tally => u.tally = s.tally
  | .early => u.early = s.early
  | .mbox => u.mbox = s.mbox
  | .held => u.held = s.held
  | .m0Out => u.m0Out = s.m0Out
  | .cells => u.queues.used = s.queues.used ∧ u.queues.sharedUsed = s.queues.sharedUsed ∧ u.queues.worldShared = s.queues.worldShared
  | .orders => u.queues.orders = s.queues.orders
  | .reasm => u.queues.reasm = s.queues.reasm
  | .queues => u.queues = { s.queues with
    used := u.queues.used, sharedUsed := u.queues.sharedUsed, worldShared := u.queues.worldShared, orders := u.queues.orders, reasm := u.queues.reasm }
  | .parting => u.parting = s.parting
  | .fe => u.fe = s.fe
  | .lanes => u.lanes = s.lanes
  | .domA => u.domA = s.domA
  | .domB => u.domB = s.domB
  | .dec => u.dec = s.dec
  | .mac => u.mac = s.mac
  | .nodes => u.table.nodes = s.table.nodes
  | .table => u.table = { s.table with nodes := u.table.nodes }
  | .wake => u.wake = s.wake
  | .canopy => u.canopy = s.canopy
  | .back => u.back = s.back
  | .isl => u.isl = s.isl

/-- Two states differ in these parts only. -/
def State.differsIn (s u : State) (l : List Comp) : Prop :=
  u.clk = s.clk ∧ u.id = s.id ∧ u.pending = s.pending ∧ ∀ c : Comp, c ∉ l → c.same s u

/-- All parts. -/
def Comp.all : List Comp := [
  .rnd, .lcs, .life, .pins, .flash, .slots, .crypto, .time, .rtc, .marks, .ceilings, .storedKeys,
  .almanac, .heart, .dirty, .tally, .early, .mbox, .held, .m0Out, .cells, .orders, .reasm, .queues,
  .parting, .fe, .lanes, .domA, .domB, .dec, .mac, .nodes, .table, .wake, .canopy, .back,
  .isl]

/-- All parts but these. -/
def Comp.but (l : List Comp) : List Comp := Comp.all.filter fun c => !l.contains c

/-- What a host command that answers writes, beside its own effect: the response takes cells, a sequence number and its place, and the
request's cells return. -/
def answering (l : List Comp) : List Comp := [.ceilings, .tally, .early, .mbox, .cells, .orders, .queues, .back] ++ l

/-- Ticks that pass before a command. -/
def ticksOf : Instr → Nat
  | .identityGet dt _ | .securityStatus dt _ | .attest dt _ | .selftestRun dt _ _ | .cfgKeyInstall dt _ | .mboxKeyInstall dt _
  | .lifecycleOperate dt _ | .retirePrepare dt _ | .retire dt _ | .zeroiseAll dt _ | .restart dt _ | .configSlotWrite dt _ _
  | .configCheck dt _ | .configActivate dt _ _ | .configConfirm dt _ _ | .fwSlotWrite dt _ _ | .fwSlotCheck dt _ | .fwActivate dt _ _
  | .fwConfirm dt _ _ | .nodeSearch dt _ | .nodeNext dt _ | .nodeRemove dt _ | .tableFlushWorld dt _ | .rehash dt _ | .linkGet dt _
  | .keyLoad dt _ | .keyErase dt _ | .keyList dt _ | .ctxSave dt _ | .ctxRestore dt _ | .timeGet dt _ | .timeSet dt _
  | .localOffsetSet dt _ | .addHour dt _ | .subHour dt _ | .countdownSet dt _ | .almanacAdd dt _ | .almanacRemove dt _ | .almanacList dt _
  | .canopyPin dt _ | .canopyUnpin dt _ | .canopyFreeze dt _ | .canopyThaw dt _ | .canopyLogRead dt _ | .backhaulStatus dt _
  | .backhaulSpeed dt _ | .rfTestStart dt _ | .rfTestStop dt _ | .tallySnapshot dt _ | .tallyRead dt _ | .qstatsRead dt _ | .eventAck dt _
  | .eventSubscribe dt _ | .m0Write dt _ _ | .m0Read dt _ | .m0Status dt | .m0BadCommand dt _ | .verieliRequest dt _ _ | .resetNRise dt _
  | .resetNFall dt | .radioOn dt | .powerFail dt _ _ _ | .pfiNHigh dt _ | .zeroiseNLow dt | .zeroiseNHigh dt _ | .zeroisationEnd dt _
  | .tamperClassA dt _ | .tamperClassB dt _ _ | .periodicSelftest dt _ | .drbgReseed dt _ _ | .jtagInstructionUpdate dt _
  | .preambleDetected dt _ _ _ _ _ | .sfdTimeout dt _ | .sfdFound dt _ _ _ _ _ | .phyHeaderEnd dt _ _ | .ackOwed dt _ _
  | .codewordReady dt _ | .codewordDecoded dt _ _ _ | .frameEnd dt _ _ | .laneAssignmentEffect dt _ | .laneFault dt _ _ | .laneKat dt _ _
  | .laneDomainPowerDown dt _ | .laneReturn dt _ _ | .transmitRequest dt _ _ | .transmissionCommit dt _ | .transmissionEnd dt _ _ _
  | .overpowerAbort dt _ _ | .backgroundCalibration dt _ _ | .calibrationComplete dt _ _ | .feLockLost dt _ _ | .rxSynthCalibration dt _ _
  | .feSleep dt _ | .feWake dt _ | .backoffExpiry dt _ | .sensingEnd dt _ _ _ | .ackDeadline dt _ | .continuationEnd dt _
  | .neighbourWindow dt _ | .frameSelect dt _ | .gateEntryOpen dt _ | .gateChangeover dt _ | .calendarSlot dt | .farListMove dt
  | .queueSample dt | .timeStep dt | .incrementWrite dt _ _ | .meridianUpdate dt _ | .ptpMeasurement dt _ | .masterLoss dt
  | .holdoverDegraded dt | .ppsInEdge dt | .rtcSecond dt | .rtcAdjust dt _ | .rtcOscStopped dt | .securityProcessing dt _ _
  | .joinTimeout dt _ | .reassemblyTimeout dt _ _ _ | .dioTrickle dt _ | .cipherJobPost dt _ _ _ | .cipherJobEnd dt _ _
  | .fcCeilingWrite dt _ | .backhaulCellRequest dt _ _ | .backhaulFrameEnd dt _ _ | .pauseEnd dt _ | .pauseWatchdog dt _
  | .downstreamClassify dt _ _ _ | .sawmillSend dt | .egressSelect dt | .supervisionSend dt | .pathWindow dt | .linkUp dt _ _
  | .linkDown dt _ | .loadMeasure dt _ _ _ _ | .speedChangeComplete dt _ | .speedStepTimeout dt _ | .lpiEntry dt _ | .eventMessageSend dt _
  | .eventResend dt _ | .ageingSweepVisit dt | .shadowWalkerVisit dt | .recordUncorrectable dt _ | .poolAudit dt _ | .dramRetrain dt _
  | .canopyRound dt _ | .sliceMove dt _ | .assignmentEffect dt _ | .assignmentWithdrawal dt _ | .freezeEnd dt | .canopyUnwatched dt _ _
  | .bufferClose dt | .homing dt | .tallyJournal dt | .unitFault dt _ | .tagHoldExpiry dt _ | .channelTimeout dt _ | .thermalStep dt _ _
  | .finalResponse dt _ _ | .testLogicReset dt _ | .aonReset dt | .crystalRestart dt | .destinationAddressReceived dt _ _ _
  | .rxOversize dt _ | .hardwareGeneratorReseed dt | .rfTestEnd dt _ => dt

/-- Parts that host commands, M0, requests, responses and event messages may write once the ticks have passed. -/
def hostWrites : Instr → Option (List Comp)
  | .identityGet _ _ | .securityStatus _ _ | .attest _ _ | .nodeSearch _ _ | .nodeNext _ _ | .linkGet _ _ | .keyList _ _ | .timeGet _ _
  | .almanacList _ _ | .canopyLogRead _ _ | .backhaulStatus _ _ | .backhaulSpeed _ _ | .tallySnapshot _ _ | .tallyRead _ _
  | .qstatsRead _ _ | .eventAck _ _ | .eventSubscribe _ _ => some (answering [])
  | .selftestRun _ _ _ => some (answering [.life, .slots, .crypto, .held, .reasm, .fe, .lanes, .dec, .canopy])
  | .cfgKeyInstall _ _ => some (answering [.life, .slots, .crypto, .storedKeys])
  | .mboxKeyInstall _ _ => some (answering [.slots, .crypto, .storedKeys, .heart])
  | .lifecycleOperate _ _ => some (Comp.but [.rnd, .flash, .rtc, .storedKeys, .almanac, .heart])
  | .retirePrepare _ _ | .configCheck _ _ | .fwSlotCheck _ _ | .ctxSave _ _ => some (answering [.life])
  | .retire _ _ | .zeroiseAll _ _ => some (Comp.but [.rnd, .lcs, .flash, .rtc, .storedKeys, .almanac])
  | .restart _ _ => some (Comp.but [.rnd, .lcs, .rtc, .marks, .storedKeys, .almanac, .heart])
  | .configSlotWrite _ _ _ | .fwSlotWrite _ _ _ => some (answering [.rnd, .life, .flash])
  | .configActivate _ _ _ => some (Comp.but [.lcs, .marks])
  | .configConfirm _ _ _ | .fwConfirm _ _ _ => some (answering [.life, .flash, .marks, .heart])
  | .fwActivate _ _ _ => some (Comp.but [.rnd, .lcs, .rtc, .marks, .storedKeys, .almanac])
  | .nodeRemove _ _ => some (answering [.slots, .crypto, .dirty, .nodes, .table, .canopy])
  | .tableFlushWorld _ _ => some (answering [.heart, .table])
  | .rehash _ _ => some (answering [.rnd, .crypto, .table])
  | .keyLoad _ _ | .keyErase _ _ => some (answering [.slots, .crypto, .storedKeys])
  | .ctxRestore _ _ => some (answering [.life, .crypto])
  | .timeSet _ _ => some (answering [.time, .rtc, .almanac, .dirty])
  | .localOffsetSet _ _ | .addHour _ _ | .subHour _ _ | .countdownSet _ _ => some (answering [.rtc])
  | .almanacAdd _ _ | .almanacRemove _ _ => some (answering [.almanac])
  | .canopyPin _ _ => some (answering [.dirty, .fe, .lanes, .nodes, .canopy])
  | .canopyUnpin _ _ => some (answering [.dirty, .lanes, .nodes, .canopy])
  | .canopyFreeze _ _ | .canopyThaw _ _ => some (answering [.dirty, .canopy])
  | .rfTestStart _ _ | .rfTestStop _ _ => some (answering [.fe, .mac, .nodes, .wake])
  | .m0Write _ _ _ => some [.ceilings, .heart, .tally, .mbox, .cells, .orders, .queues, .back]
  | .m0Read _ _ => some [.tally, .early, .mbox, .m0Out, .cells, .orders, .queues]
  | .m0Status _ => some [.m0Out]
  | .m0BadCommand _ _ => some [.tally]
  | .verieliRequest _ _ _ => some [.ceilings, .heart, .tally, .mbox, .held, .cells, .orders, .queues, .back]
  | .finalResponse _ _ _ => some (Comp.but [.rnd, .lcs, .flash, .marks, .storedKeys, .parting])
  | .eventMessageSend _ _ | .eventResend _ _ => some [.ceilings, .mbox, .cells, .orders, .queues, .back]
  | _ => none

/-- Parts that pins, starts, resets, zeroisation, tests and faults may write once the ticks have passed. -/
def powerWrites : Instr → Option (List Comp)
  | .resetNRise _ _ | .pfiNHigh _ _ | .tamperClassB _ _ _ | .testLogicReset _ _ | .thermalStep _ _ _ => some (Comp.but [.lcs, .parting])
  | .resetNFall _ | .jtagInstructionUpdate _ _ | .tagHoldExpiry _ _ =>
    some (Comp.but [.rnd, .lcs, .flash, .rtc, .marks, .ceilings, .storedKeys, .almanac, .heart, .parting])
  | .radioOn _ => some [.life, .tally, .fe, .table, .wake, .canopy]
  | .powerFail _ _ _ _ => some (Comp.but [.rnd, .lcs, .flash, .rtc, .marks, .ceilings, .storedKeys, .almanac, .parting])
  | .zeroiseNLow _ | .tamperClassA _ _ => some (Comp.but [.rnd, .lcs, .flash, .rtc, .ceilings, .storedKeys, .almanac, .parting])
  | .zeroiseNHigh _ _ | .zeroisationEnd _ _ => some (Comp.but [.parting])
  | .periodicSelftest _ _ =>
    some [.life, .slots, .crypto, .tally, .early, .mbox, .held, .cells, .orders, .reasm, .queues, .fe, .lanes, .dec, .canopy, .back]
  | .drbgReseed _ _ _ => some [.life, .slots, .crypto, .tally, .early, .mbox, .held, .cells, .orders, .reasm, .queues, .fe, .lanes, .dec, .back]
  | .aonReset _ => some (Comp.but [.rnd, .lcs, .flash, .marks, .ceilings, .storedKeys, .almanac, .heart, .parting])
  | .unitFault _ _ | .channelTimeout _ _ => some (Comp.but [.lcs, .flash, .rtc, .marks, .ceilings, .almanac, .parting])
  | .dramRetrain _ _ => some (Comp.but [.lcs, .pins, .flash, .time, .rtc, .marks, .ceilings, .almanac, .m0Out, .parting, .isl])
  | .hardwareGeneratorReseed _ => some [.rnd, .crypto]
  | _ => none

/-- Parts that lanes, front ends, the MAC and the wake cycle may write once the ticks have passed. -/
def radioWrites : Instr → Option (List Comp)
  | .preambleDetected _ _ _ _ _ _ | .laneAssignmentEffect _ _ => some [.tally, .fe, .lanes]
  | .sfdTimeout _ _ => some [.tally, .early, .mbox, .cells, .queues, .lanes, .dec]
  | .sfdFound _ _ _ _ _ _ | .destinationAddressReceived _ _ _ _ => some [.lanes]
  | .phyHeaderEnd _ _ _ | .rxSynthCalibration _ _ _ => some [.tally, .early, .mbox, .cells, .queues, .fe, .lanes, .dec]
  | .ackOwed _ _ _ | .transmitRequest _ _ _ => some [.rnd, .tally, .early, .mbox, .cells, .orders, .queues, .fe, .lanes, .mac, .nodes, .wake]
  | .codewordReady _ _ | .codewordDecoded _ _ _ _ => some [.lanes, .dec]
  | .frameEnd _ _ _ => some [.rnd, .dirty, .tally, .early, .mbox, .cells, .orders, .queues, .fe, .lanes, .mac, .nodes, .table, .wake, .canopy]
  | .laneFault _ _ _ | .laneKat _ _ _ | .transmissionCommit _ _ => some [.tally, .early, .mbox, .cells, .queues, .fe, .lanes, .dec, .canopy]
  | .laneDomainPowerDown _ _ | .laneReturn _ _ _ => some [.tally, .early, .mbox, .cells, .queues, .fe, .lanes, .domA, .domB, .dec, .canopy]
  | .transmissionEnd _ _ _ _ => some [.tally, .early, .mbox, .cells, .orders, .queues, .fe, .lanes, .mac, .nodes, .wake]
  | .overpowerAbort _ _ _ => some [.rnd, .tally, .early, .mbox, .cells, .orders, .queues, .fe, .lanes, .dec, .mac, .nodes, .wake, .canopy]
  | .backgroundCalibration _ _ _ | .calibrationComplete _ _ _ | .feWake _ _ | .gateEntryOpen _ _ => some [.tally, .fe]
  | .feLockLost _ _ _ => some [.tally, .early, .mbox, .cells, .orders, .queues, .fe, .lanes, .dec, .mac, .nodes, .wake, .canopy]
  | .feSleep _ _ => some [.fe]
  | .backoffExpiry _ _ | .rfTestEnd _ _ => some [.tally, .early, .mbox, .cells, .orders, .queues, .fe, .mac, .nodes, .wake]
  | .sensingEnd _ _ _ _ => some [.rnd, .tally, .early, .mbox, .cells, .orders, .queues, .fe, .mac, .nodes, .wake]
  | .ackDeadline _ _ => some [.tally, .early, .mbox, .cells, .orders, .queues, .fe, .nodes, .wake, .canopy]
  | .continuationEnd _ _ => some [.mac]
  | .neighbourWindow _ _ => some [.tally, .early, .mbox, .mac, .canopy]
  | .frameSelect _ _ => some [.rnd, .tally, .early, .mbox, .cells, .orders, .queues, .fe, .nodes, .wake]
  | .gateChangeover _ _ => some [.tally, .wake]
  | .calendarSlot _ | .farListMove _ | .queueSample _ => some [.tally, .early, .mbox, .cells, .orders, .queues, .fe, .nodes, .wake]
  | .sliceMove _ _ => some [.dirty, .tally, .early, .mbox, .cells, .orders, .queues, .fe, .lanes, .dec, .mac, .nodes, .wake, .canopy]
  | _ => none

/-- Parts that time, the link layer, the cipher units, the backhaul, the node table, Canopy and Heartwood may write. -/
def restWrites : Instr → Option (List Comp)
  | .timeStep _ => some [.time, .rtc, .tally, .early, .mbox, .orders, .reasm, .fe, .lanes, .mac, .nodes, .table, .wake, .canopy, .back]
  | .incrementWrite _ _ _ => some [.time, .dirty, .tally]
  | .meridianUpdate _ _ => some (Comp.but [.lcs, .flash, .rtc, .marks, .ceilings, .almanac, .parting])
  | .ptpMeasurement _ _ => some [.rnd, .time, .dirty, .tally, .early, .mbox, .back]
  | .masterLoss _ => some [.time, .dirty, .tally, .early, .mbox]
  | .holdoverDegraded _ => some [.time, .tally, .early, .mbox]
  | .ppsInEdge _ => some [.time, .tally]
  | .rtcSecond _ => some [.rnd, .time, .rtc, .almanac, .dirty, .tally, .early, .mbox, .cells, .orders, .queues]
  | .rtcAdjust _ _ => some [.rtc, .tally]
  | .rtcOscStopped _ => some [.rtc, .tally, .early, .mbox]
  | .securityProcessing _ _ _ =>
    some [.rnd, .slots, .crypto, .ceilings, .heart, .dirty, .tally, .early, .mbox, .cells, .orders, .reasm, .queues, .mac, .nodes, .table, .canopy]
  | .joinTimeout _ _ | .shadowWalkerVisit _ | .recordUncorrectable _ _ => some [.slots, .crypto, .dirty, .tally, .nodes, .table, .canopy]
  | .reassemblyTimeout _ _ _ _ => some [.tally, .early, .mbox, .cells, .reasm, .queues]
  | .dioTrickle _ _ => some [.rnd, .crypto, .tally, .early, .mbox, .cells, .orders, .queues, .table]
  | .cipherJobPost _ _ _ _ =>
    some [.rnd, .life, .slots, .crypto, .tally, .early, .mbox, .held, .cells, .orders, .reasm, .queues, .fe, .lanes, .dec, .back]
  | .cipherJobEnd _ _ _ =>
    some [.life, .slots, .crypto, .tally, .early, .mbox, .held, .cells, .orders, .reasm, .queues, .fe, .lanes, .dec, .canopy, .back]
  | .fcCeilingWrite _ _ => some [.ceilings, .heart, .tally, .mbox]
  | .backhaulCellRequest _ _ _ | .pauseEnd _ _ | .supervisionSend _ | .linkDown _ _ | .rxOversize _ _ =>
    some [.tally, .early, .mbox, .cells, .queues, .back]
  | .backhaulFrameEnd _ _ _ => some [.time, .dirty, .tally, .early, .mbox, .cells, .orders, .queues, .back]
  | .pauseWatchdog _ _ | .pathWindow _ | .linkUp _ _ _ | .speedChangeComplete _ _ | .speedStepTimeout _ _ => some [.tally, .early, .mbox, .back]
  | .downstreamClassify _ _ _ _ => some (answering [.rnd, .slots, .crypto, .heart, .mac, .nodes, .wake])
  | .sawmillSend _ => some [.tally, .cells, .orders, .queues, .back]
  | .egressSelect _ => some [.tally, .early, .mbox, .cells, .orders, .queues, .back]
  | .loadMeasure _ _ _ _ _ | .lpiEntry _ _ => some [.back]
  | .ageingSweepVisit _ => some [.slots, .crypto, .ceilings, .heart, .dirty, .tally, .nodes, .table, .canopy]
  | .poolAudit _ _ => some [.tally, .early, .mbox, .cells, .queues]
  | .canopyRound _ _ => some [.slots, .crypto, .heart, .dirty, .tally, .cells, .orders, .queues, .fe, .lanes, .dec, .nodes, .wake, .canopy]
  | .assignmentEffect _ _ => some [.heart, .dirty, .tally, .mac, .nodes, .canopy]
  | .assignmentWithdrawal _ _ => some [.heart, .tally, .early, .mbox, .cells, .orders, .queues, .fe, .mac, .nodes, .wake, .canopy]
  | .freezeEnd _ => some [.dirty, .canopy]
  | .canopyUnwatched _ _ _ => some [.tally, .early, .mbox, .canopy]
  | .bufferClose _ => some [.heart, .dirty, .tally]
  | .homing _ => some [.heart]
  | .tallyJournal _ => some [.heart, .tally]
  | .crystalRestart _ => some [.rtc]
  | _ => none

/-- Parts that the passage of time writes of itself. -/
def tickWrites : List Comp := [.time, .rtc, .almanac, .dirty, .tally, .early, .mbox, .cells, .orders, .queues, .back]

end Sys2Proof.Machine
end

