-- ==== Sys2Proof/Safety.lean ====
section
/-! DEFINITION. What statements about the part are said with: when a mailbox executes a command, when the canonical forms of the state
hold, and what a safe step is. -/

namespace Sys2Proof.Machine

/-! ## A command that a mailbox executes -/

/-- The oldest accepted request of mailbox m (R433). -/
def State.frontReq (s : State) (m : Nat) : Option Request := (s.nextRequest m).map fun p => p.1

/-- The state once that request's cells are released. -/
def State.afterReq (s : State) (m : Nat) : State :=
  match s.nextRequest m with
  | some p => p.2
  | none => s

/-- Mailbox m executes its oldest request `r`, which is command `op`: no forwarding pause stands (R20), the mailbox is not busy or the
command is one of R436, and state and mailbox permit it (R441, R439). -/
def State.runs (s : State) (m op : Nat) (r : Request) : Prop :=
  s.frontReq m = some r ∧ r.opcode = op ∧ s.inPause = false ∧ (alwaysRuns op = true ∨ (s.mb m).busy = none) ∧
    (s.afterReq m).stateTakes m op = true ∧ (s.afterReq m).permitted m op = true

/-- The same, with an argument of `len` octets (R440). -/
def State.runsLen (s : State) (m op len : Nat) (r : Request) : Prop := s.runs m op r ∧ r.payload.length = len

/-- Self-tests that pass, on every cipher unit, with the PUF giving the root of the part's helper data within its bound (Table 2.4). -/
def State.goodTests (s : State) (r : TestEnv) : Prop :=
  r.entropy1 = true ∧ r.unitOk = [true, true, true, true] ∧ r.firstFail = none ∧ (s.pufRoot r).isSome = true ∧
    ∃ p, r.puf = some p ∧ p.corrections.foldl max 0 ≤ 16

/-! ## Invariants -/

/-- The boot flash is in its canonical form. -/
def State.flashOk (s : State) : Prop := flashWf s.flash = true

/-- The mode agrees with the fuses (Table 2.1): a part that forwards, or stands in the no-configuration condition, is in OPERATE; one that
waits to be bound is in PROVISION; RETIRED behaviour is a RETIRED part's. -/
def State.lcsOk (s : State) : Prop :=
  match s.life.mode with
  | .operate | .noConfig => s.life.lcs = .operate
  | .provision => s.life.lcs = .provision
  | .retired => s.life.lcs = .retired
  | _ => True

/-- Order of the fuse states (R24). -/
def lcsRank : Lcs → Nat
  | .provision => 1
  | .operate => 2
  | .retired => 3

/-! ## Safe steps -/

/-- A step that neither faults nor is refused. -/
def stepSafe (s : State) : Prop := ∃ t, step s = .next t

end Sys2Proof.Machine
end

