-- ==== Sys2Proof/Certificates/Slice0/Obligations.lean ====
section
/-! DEFINITION. What is claimed of the model, for the provers.  `s.tick dt` is the state once the `dt` ticks before the command have passed
(R174); `runs` and `runsLen` (Safety.lean) say that a mailbox executes its oldest accepted request. -/

open Sys2Proof Sys2Proof.Machine

/-! ## The step -/

/-- The command at the front of the queue is executed on the state with the queue's rest. -/
def Obligations.StepRunsFrontCommand : Prop :=
  ∀ (c : Instr) (rest : List Instr) (s : State), s.pending = c :: rest → step s = exec c { s with pending := rest }

/-- With an empty queue the part idles: the model's choice, log entry 1.

Every command has an effect in every state: for every form and all its operands exec answers a next state, and so no step faults and none
is refused.  What that state is, the statements below say, form by form. -/
def Obligations.EveryStepCompletes : Prop :=
  (∀ s : State, s.pending = [] → step s = .next s) ∧
  (∀ (c : Instr) (s : State), ∃ t, exec c s = .next t) ∧
  (∀ s : State, stepSafe s)

/-! ## Host commands: identity, status, life cycle (chapters 2, 12, 15) -/

/-- IDENTITY-GET, SECURITY-STATUS and TIME-GET answer S_OK with the fields of Table 15.4, big-endian, in the order listed.

ATTEST answers the report of Table 12.7 for the challenge, with the AES-CMAC of its octets under the key selected: slot 2 for 0, and
slot 7 for 1 while the operator configuration key is held; without it S_STATE, and any other selection S_RANGE. -/
def Obligations.StatusAndAttestation : Prop :=
  (∀ (dt : Nat) (m : Mbox) (s : State) (r : Request),
     let t := (s.tick dt).afterReq m
     ((s.tick dt).runsLen m 0x0101 0 r → exec (.identityGet dt m) s = .next (t.respond m r sOk
       (toBe 2 (if t.id.variant = .epb7248 then 0x7248 else 0x7224) ++ toBe 8 t.id.eui64.toNat ++ toBe 1 (lcsCode t.life.lcs) ++
         toBe 1 t.statusOctet ++ toBe 4 t.id.romVersion.toNat ++ toBe 4 t.life.fwVersion.toNat ++ toBe 1 (t.life.fwSlot.getD 0xFF) ++
         toBe 1 (t.life.cfgSlot.getD 0xFF) ++ toBe 4 ((t.life.image.map fun i => i.version.toNat).getD 0)))) ∧
     ((s.tick dt).runsLen m 0x0102 0 r → exec (.securityStatus dt m) s = .next (t.respond m r sOk
       (toBe 1 t.secStat ++ toBe 1 t.life.secCause.toNat ++ toBe 6 t.life.secEntry.toNat ++ toBe 16 t.hw.zeroCount.toNat))) ∧
     ((s.tick dt).runsLen m 0x0501 0 r → exec (.timeGet dt m) s = .next (t.respond m r sOk
       (toBe 1 (match t.time.disc with
           | .free => 0
           | .locked => 1
           | .holdover => 2) ++
         toBe 1 ((if t.time.disc = .holdover ∧ t.time.degraded = true then 1 else 0) + (if t.rtc.trusted then 0 else 2) +
           (if t.rtc.summer then 4 else 0)) ++
         toBe 8 t.time.sec.toNat ++ toBe 4 t.time.ns.toNat ++ toBe 2 t.utcOffset ++ toBe 6 t.rtc.sec.toNat ++ toBe 2 t.rtcFrac ++
         toBe 1 t.rtc.offset.toNat ++ toBe 4 t.rtc.countdown.toNat)))) ∧
  (∀ (dt : Nat) (m : Mbox) (s : State) (r : Request),
     let t := (s.tick dt).afterReq m
     let key := beField r.payload 16 1
     ((s.tick dt).runsLen m 0x0103 17 r → 1 < key → exec (.attest dt m) s = .next (t.respond m r sRange [])) ∧
     ((s.tick dt).runsLen m 0x0103 17 r → key = 1 → t.kcfgHeld = false → exec (.attest dt m) s = .next (t.respond m r sState [])) ∧
     ((s.tick dt).runsLen m 0x0103 17 r → key = 0 ∨ key = 1 ∧ t.kcfgHeld = true →
       exec (.attest dt m) s = .next (t.respond m r sOk (t.report (r.payload.take 16) key ++
         natOcts (cmac (t.slot (if key = 0 then 2 else 7)).octets (octNats (t.report (r.payload.take 16) key)))))))

/-- LIFECYCLE-OPERATE answers S_ACCEPTED, writes the fuse pattern and leaves the part waiting for a start (transition 2 of Table 2.2), or
answers S_REFUSED with the fuses as they were where a precondition is unmet.

RETIRE-PREPARE opens a window of 60 s for its mailbox; RETIRE within it from the same mailbox answers S_ACCEPTED and begins
zeroisation; elsewhere it is refused.

RESTART answers S_ACCEPTED and the part is reset; ZEROISE-ALL ends every running operation with S_ABORTED, answers S_ACCEPTED and
begins zeroisation: the count advances with the in-progress flag set, every key slot is erased and the fuse state stays. -/
def Obligations.LifeCycleCommands : Prop :=
  (∀ (dt : Nat) (m : Mbox) (s : State) (r : Request),
     let t := (s.tick dt).afterReq m
     let met := t.kcfgHeld = true ∧ t.hw.mboxKeys.isEmpty = false ∧ t.life.cfgChecked.any (fun b => b) = true ∧ t.life.selfTestsPassed = true
     (s.tick dt).runsLen m 0x0107 0 r →
       (met → ∃ u : State, exec (.lifecycleOperate dt m) s = .next u ∧ u.life.lcs = .operate ∧ u.life.mode = .reset ∧ u.life.restartCause = 1 ∧
         u.hw.floor = 0 ∧ u.hw.rollback = 0 ∧ u.parting = (t.respond m r sAccepted []).sendLast.parting) ∧
       (¬ met → exec (.lifecycleOperate dt m) s = .next (t.respond m r sRefused []))) ∧
  (∀ (dt : Nat) (m : Mbox) (s : State) (r : Request),
     let t := (s.tick dt).afterReq m
     ((s.tick dt).runsLen m 0x0108 0 r → exec (.retirePrepare dt m) s =
       .next ({ t with life := { t.life with retirePrep := some (m.val, t.clk) } }.respond m r sOk (toBe 4 60000))) ∧
     ((s.tick dt).runsLen m 0x0109 0 r →
       ((∃ k, t.life.retirePrep = some (m.val, k) ∧ t.clk ≤ k + 15000000000) → ∃ u : State, exec (.retire dt m) s = .next u ∧
         u.life.mode = .zeroising ∧ u.life.lcs = t.life.lcs ∧ u.crypto.zeroising = some .retire ∧
         u.hw.zeroCount = t.hw.zeroCount + 1 ∧ u.hw.zeroFlag = true ∧ u.parting = (t.respond m r sAccepted []).sendLast.parting) ∧
       ((¬ ∃ k, t.life.retirePrep = some (m.val, k) ∧ t.clk ≤ k + 15000000000) →
         exec (.retire dt m) s = .next (t.respond m r sRefused [])))) ∧
  (∀ (dt : Nat) (m : Mbox) (s : State) (r : Request),
     let t := (s.tick dt).afterReq m
     ((s.tick dt).runsLen m 0x010B 0 r → ∃ u : State, exec (.restart dt m) s = .next u ∧ u.life.mode = .reset ∧ u.life.restartCause = 1 ∧
       u.life.lcs = t.life.lcs ∧ u.life.radioOn = false ∧ u.hw = (t.respond m r sAccepted []).hw ∧
       u.parting = (t.respond m r sAccepted []).sendLast.parting ∧
       (t.life.stump = none → u.flash = t.flash) ∧
       (∀ k, t.life.stump = some k → k.checked = false → u.flash = t.flash) ∧
       (∀ k, t.life.stump = some k → k.checked = true → u.flash = (t.writeDir fun d => { d with fw := k.target, fwTrial := false }).flash)) ∧
     ((s.tick dt).runsLen m 0x010A 0 r → ∃ u : State, exec (.zeroiseAll dt m) s = .next u ∧ u.life.mode = .zeroising ∧
       u.life.lcs = t.life.lcs ∧ u.crypto.zeroising = some .command ∧ u.crypto.rootReg = none ∧ u.crypto.ctxs = [] ∧
       u.crypto.drbgOn = false ∧ u.hw.zeroCount = t.hw.zeroCount + 1 ∧ u.hw.zeroFlag = true ∧ u.flash = t.flash ∧
       (∀ i, (u.slot i).state ≠ .ready)))

/-- CFG-KEY-INSTALL on a part that holds no operator configuration key, and MBOX-KEY-INSTALL on one that does: the key is unwrapped
(R340), kept wrapped in Heartwood, and the mailbox is answered S_ACCEPTED and stays busy until its final response S_OK; a key installed in the
no-configuration condition for a mailbox that serves stays so too.  Earlier passes of CONFIG-CHECK are stale after the first (R55).  A key that does not unwrap
is counted and answered S_UNWRAP; out of place either is refused, and a mailbox other than M0 and M1 is out of range. -/
def Obligations.KeyInstallation : Prop :=
  ∀ (dt : Nat) (m : Mbox) (s : State) (r : Request),
    let t := (s.tick dt).afterReq m
    let k := beField r.payload 0 1
    ((s.tick dt).runsLen m 0x0105 48 r →
      (t.kcfgHeld = true → exec (.cfgKeyInstall dt m) s = .next (t.respond m r sRefused [])) ∧
      (t.kcfgHeld = false → t.unwrapBy 3 (r.payload.take 40) = none →
        exec (.cfgKeyInstall dt m) s = .next ((t.count .keyUnwrapFail .device).respond m r sUnwrap [])) ∧
      (∀ key, t.kcfgHeld = false → t.unwrapBy 3 (r.payload.take 40) = some key →
        ∃ u : State, exec (.cfgKeyInstall dt m) s = .next u ∧ u.hw.kcfg = some (t.wrapHw key, r.payload.drop 40) ∧
          u.life.cfgChecked = [false, false] ∧ u.life.provSlot = none ∧
          (u.slot 4).state = .ready ∧ (u.slot 5).state = .ready ∧ (u.slot 6).state = .ready ∧ (u.slot 7).state = .ready ∧
          (∃ b, (u.mb m).busy = some b ∧ b.req = r ∧ b.status = sOk ∧ b.cls = .device))) ∧
    ((s.tick dt).runsLen m 0x0106 41 r →
      (t.kcfgHeld = false → exec (.mboxKeyInstall dt m) s = .next (t.respond m r sRefused [])) ∧
      (t.kcfgHeld = true → 1 < k → exec (.mboxKeyInstall dt m) s = .next (t.respond m r sRange [])) ∧
      (t.kcfgHeld = true → k ≤ 1 → t.unwrapBy 6 (r.payload.drop 1) = none →
        exec (.mboxKeyInstall dt m) s = .next ((t.count .keyUnwrapFail .device).respond m r sUnwrap [])) ∧
      (∀ key, t.kcfgHeld = true → k ≤ 1 → t.unwrapBy 6 (r.payload.drop 1) = some key →
        ∃ u : State, exec (.mboxKeyInstall dt m) s = .next u ∧ u.hw.mboxKeys = t.hw.mboxKeys.set k (t.wrapHw key) ∧
          (t.life.mode = .noConfig → (u.mb k).isOpen = true) ∧
          (t.life.mode ≠ .noConfig ∨ (t.mb m).isOpen = true → ∃ b, (u.mb m).busy = some b ∧ b.req = r ∧ b.status = sOk ∧ b.cls = .device)))

/-- SELFTEST-RUN whose tests pass answers S_ACCEPTED and keeps passed = 1 for its final response, or where a cipher unit is newly mapped out
and another serves passed = 0 and test 3; a failure marked so in Table 2.4 enters SECURITY-ERROR with its cause: the PUF, the entropy
source, no cipher unit, or one of tests 4 to 9.

The periodic self-test of a part that runs firmware, due every 24 h, is counted and maps out the units that fail, and enters
SECURITY-ERROR where none passes; a reseed of the DRBG that is due takes a collection, or at a second failure enters SECURITY-ERROR with
cause 2; the back-off generator is reseeded from the DRBG once 60 s have passed. -/
def Obligations.SelfTestsWhileRunning : Prop :=
  (∀ (dt : Nat) (m : Mbox) (s : State) (r : Request) (e : TestEnv),
     let t := (s.tick dt).afterReq m
     let v := t.unitTests e.unitOk
     let fails := fun (c : Nat) => ∃ u : State, exec (.selftestRun dt m e) s = .next u ∧ u.life.mode = .secError ∧ u.life.secCause.toNat = c ∧
       u.life.radioOn = false ∧ u.crypto.drbgOn = false ∧ (∀ i, (u.slot i).state ≠ .ready)
     (s.tick dt).runsLen m 0x0104 0 r →
       (t.goodTests e → t.noUnit = false → exec (.selftestRun dt m e) s = .next (t.begin m r [] sOk [1, 0])) ∧
       ((t.pufRoot e).isSome = true → (∃ p, e.puf = some p ∧ p.corrections.foldl max 0 ≤ 16) → e.entropy1 = true → v.noUnit = false →
         e.firstFail = none →
         exec (.selftestRun dt m e) s = .next (v.begin m r [] sOk (if v.crypto.unitOut = t.crypto.unitOut then [1, 0] else [0, 3]))) ∧
       (t.pufRoot e = none → fails 1) ∧
       ((t.pufRoot e).isSome = true → e.entropy1 = false → e.entropy2 = false → fails 2) ∧
       ((t.pufRoot e).isSome = true → e.entropy1 = true → e.unitOk = [false, false, false, false] → t.crypto.unitOut.length = 4 → fails 3) ∧
       (∀ c : Fin 6, (t.pufRoot e).isSome = true → e.entropy1 = true → e.unitOk = [true, true, true, true] → t.noUnit = false →
         e.firstFail = some c → fails (4 + c.val))) ∧
  (∀ (dt : Nat) (r : TestEnv) (s : State) (e2 : Bool),
     let t := s.tick dt
     (t.life.mode = .operate ∨ t.life.mode = .noConfig ∨ t.life.mode = .provision → t.crypto.selfTestClk + 21600000000000 ≤ t.clk →
       (r.unitOk = [true, true, true, true] → r.firstFail = none → t.noUnit = false → exec (.periodicSelftest dt r) s =
         .next (State.count { t with crypto := { t.crypto with selfTestClk := t.clk } } .selftestPeriodic .device)) ∧
       (r.unitOk = [false, false, false, false] → t.crypto.unitOut.length = 4 → ∃ u : State, exec (.periodicSelftest dt r) s = .next u ∧ u.life.mode = .secError ∧
         u.life.secCause = 3)) ∧
     (t.crypto.drbgOn = true → t.crypto.drbgClk + 900000000000 ≤ t.clk →
       exec (.drbgReseed dt true e2) s = .next { t with crypto := { t.crypto with drbgClk := t.clk, drbgReqs := 0, entropyFails := 0 } } ∧
       (∃ u : State, exec (.drbgReseed dt false false) s = .next u ∧ u.life.mode = .secError ∧ u.life.secCause = 2)) ∧
     (t.crypto.drbgOn = true → t.crypto.hwGenClk + 15000000000 ≤ t.clk → exec (.hardwareGeneratorReseed dt) s = .next { t with
       rnd := t.rnd + 1
       crypto := { t.crypto with hwGenClk := t.clk, drbgReqs := t.crypto.drbgReqs + 1 } }))

/-! ## Keys and contexts (chapters 12 and 13) -/

/-- KEY-LOAD into a slot of the mailbox's own world: the slot becomes READY with the key unwrapped, gen advances (once more where a key
stood, which is erased first), the key is journalled wrapped under K_hw, and the answer carries gen.  With a fallback named and a key standing,
that key moves into the fallback slot first and the slot names it.  A slot that is no world's, one of another world, attributes that Table 12.4
does not allow, and a key that does not unwrap are answered as R339 and Table 15.4 have it, and load nothing. -/
def Obligations.KeyLoadLoads : Prop :=
  ∀ (dt : Nat) (m : Mbox) (s : State) (r : Request) (k : List Nat),
    let t := (s.tick dt).afterReq m
    let i := beField r.payload 0 1
    let f := beField r.payload 2 1
    (s.tick dt).runsLen m 0x0401 35 r →
      (slotWorld i = none → exec (.keyLoad dt m) s = .next (t.respond m r sRange [])) ∧
      (∀ w, slotWorld i = some w → w ≠ (t.mb m).world → exec (.keyLoad dt m) s = .next (t.respond m r sNotPermitted [])) ∧
      (slotWorld i = some (t.mb m).world → usageOk i (beField r.payload 1 1) = false ∨ fallbackOk i f = false →
        exec (.keyLoad dt m) s = .next (t.respond m r sRange [])) ∧
      (slotWorld i = some (t.mb m).world → usageOk i (beField r.payload 1 1) = true → fallbackOk i f = true →
        (t.unwrapBy (10 + 3 * m) (sliceOct r.payload 11 24) = none →
          exec (.keyLoad dt m) s = .next ((t.countBoth .keyUnwrapFail (t.mb m).world).respond m r sUnwrap [])) ∧
        (t.unwrapBy (10 + 3 * m) (sliceOct r.payload 11 24) = some k →
          ∃ u : State, exec (.keyLoad dt m) s = .next (u.respond m r sOk (toBe 2 (u.slot i).gen.toNat)) ∧
            (u.slot i).state = .ready ∧ (u.slot i).key = keyOf k ∧ (u.slot i).keyId.toNat = beField r.payload 3 8 ∧
            (u.slot i).usage.toNat = beField r.payload 1 1 ∧
            (u.slot i).gen = (t.slot i).gen + (if (t.slot i).state = .ready then 2 else 1) ∧
            (u.hw.worldKeys.get i).map (fun w => w.wrapped) = some (u.wrapHw (u.slot i).octets) ∧
            (f = 0xFF ∨ (t.slot i).state ≠ .ready → (u.slot i).fbValid = false ∧
              ∀ j, j ≠ i → (u.slot j).key = (t.slot j).key ∧ (u.slot j).gen = (t.slot j).gen ∧ (u.slot j).state = (t.slot j).state) ∧
            (f ≠ 0xFF → (t.slot i).state = .ready → (u.slot i).fallback.toNat = f ∧ (u.slot i).fbValid = true ∧ (u.slot f).state = .ready ∧
              (u.slot f).key = (t.slot i).key ∧
              ∀ j, j ≠ i → j ≠ f → (u.slot j).key = (t.slot j).key ∧ (u.slot j).gen = (t.slot j).gen ∧ (u.slot j).state = (t.slot j).state)))

/-- KEY-ERASE of a slot of the mailbox's world, or by W0: the slot is EMPTY with its key overwritten and gen advanced, no slot that names
it as its fallback keeps fb_valid, its journalled copy is gone (log entry 52), and every other slot keeps key, gen and state.  KEY-LIST
shows the slots of the mailbox's world.

CTX-SAVE answers the context's 48 octets, wrapped under K_hw for form 0, in the clear for form 1, which ends approved mode; CTX-RESTORE
of a context whose start and key slot are the present ones enters it, wrapped or in the clear, and of any other is refused and counted. -/
def Obligations.KeyEraseListAndContexts : Prop :=
  (∀ (dt : Nat) (m : Mbox) (s : State) (r : Request) (w : Nat),
     let t := (s.tick dt).afterReq m
     let i := beField r.payload 0 1
     ((s.tick dt).runsLen m 0x0402 1 r → slotWorld i = none → exec (.keyErase dt m) s = .next (t.respond m r sRange [])) ∧
     ((s.tick dt).runsLen m 0x0402 1 r → slotWorld i = some w → w ≠ (t.mb m).world → (t.mb m).world ≠ 0 →
       exec (.keyErase dt m) s = .next (t.respond m r sNotPermitted [])) ∧
     ((s.tick dt).runsLen m 0x0402 1 r → slotWorld i = some w → w = (t.mb m).world ∨ (t.mb m).world = 0 →
       ∃ u : State, exec (.keyErase dt m) s = .next (u.respond m r sOk []) ∧ (u.slot i).state = .empty ∧ (u.slot i).key = 0 ∧
         (u.slot i).gen = (t.slot i).gen + 1 ∧ u.hw = { t.hw with worldKeys := t.hw.worldKeys.erase i } ∧
         (∀ j, j ≠ i → (u.slot j).key = (t.slot j).key ∧ (u.slot j).gen = (t.slot j).gen ∧ (u.slot j).state = (t.slot j).state ∧
           ((t.slot j).fallback.toNat = i → (u.slot j).fbValid = false))) ∧
     ((s.tick dt).runsLen m 0x0403 0 r → exec (.keyList dt m) s = .next (t.respond m r sOk
       (toBe 1 17 ++ ((32 + (t.mb m).world) :: (List.range 16).map fun g => 40 + 16 * (t.mb m).world + g).flatMap t.slotView)))) ∧
  (∀ (dt : Nat) (m : Mbox) (s : State) (r : Request) (c : Ctx) (o : Octets),
     let t := (s.tick dt).afterReq m
     ((s.tick dt).runsLen m 0x0404 2 r → t.crypto.ctxs.get (beField r.payload 0 1) = some c → c.ofW0 = true →
       (beField r.payload 1 1 = 0 → exec (.ctxSave dt m) s = .next (t.respond m r sOk (t.wrapHw (octNats c.octets)))) ∧
       (beField r.payload 1 1 = 1 → exec (.ctxSave dt m) s =
         .next ({ t with life := { t.life with approved := false } }.respond m r sOk c.octets))) ∧
     ((s.tick dt).runsLen m 0x0404 2 r → beField r.payload 1 1 ≤ 1 → t.crypto.ctxs.get (beField r.payload 0 1) = none →
       exec (.ctxSave dt m) s = .next (t.respond m r sNotFound [])) ∧
     ((s.tick dt).runsLen m 0x0404 2 r → beField r.payload 1 1 ≤ 1 → t.crypto.ctxs.get (beField r.payload 0 1) = some c → c.ofW0 = false →
       exec (.ctxSave dt m) s = .next ((t.count .ctxSaveRefused .device).respond m r sNotPermitted [])) ∧
     ((s.tick dt).runsLen m 0x0405 50 r → beField r.payload 1 1 = 1 → (ctxOf (r.payload.drop 2)).ofW0 = true →
       (t.ctxStands (ctxOf (r.payload.drop 2)) = true → exec (.ctxRestore dt m) s = .next ({ t with
         life := { t.life with approved := false }
         crypto := { t.crypto with ctxs := t.crypto.ctxs.set (beField r.payload 0 1) (ctxOf (r.payload.drop 2)) } }.respond m r sOk [])) ∧
       (t.ctxStands (ctxOf (r.payload.drop 2)) = false →
         exec (.ctxRestore dt m) s = .next ((t.count .ctxRestoreRefused .device).respond m r sRefused []))) ∧
     ((s.tick dt).runsLen m 0x0405 58 r → beField r.payload 1 1 = 0 → t.ctxOctets 0 (r.payload.drop 2) = some o →
       (ctxOf o).ofW0 = true → (ctxOf o).startTag = t.crypto.startTag → (t.slot (ctxOf o).slot.toNat).state = .ready →
       (t.slot (ctxOf o).slot.toNat).gen = (ctxOf o).gen →
       exec (.ctxRestore dt m) s = .next ({ t with
         crypto := { t.crypto with ctxs := t.crypto.ctxs.set (beField r.payload 0 1) (ctxOf o) } }.respond m r sOk [])))

/-! ## Time commands and the Almanac (chapter 7) -/

/-- TIME-SET of a count (form 0) or a date writes the seconds count with the prescaler at 0, clears osf and makes wall time trusted, unless wall time
is derived from a master.

LOCAL-OFFSET-SET, ADD-HOUR and SUB-HOUR change the local offset from the next second boundary on, within −48 to +56 quarter hours;
ADD-HOUR sets the summer flag and SUB-HOUR clears it.  COUNTDOWN-SET loads the countdown and clears its flag. -/
def Obligations.TimeCommands : Prop :=
  (∀ (dt : Nat) (m : Mbox) (s : State) (r : Request),
     let t := (s.tick dt).afterReq m
     (s.tick dt).runs m 0x0502 r →
       (timeSetArg r.payload = none → exec (.timeSet dt m) s = .next (t.respond m r sMalformed [])) ∧
       (∀ v, timeSetArg r.payload = some v → t.wallDerivable = true → exec (.timeSet dt m) s = .next (t.respond m r sState [])) ∧
       (timeSetArg r.payload = some none → t.wallDerivable = false → exec (.timeSet dt m) s = .next (t.respond m r sRange [])) ∧
       (∀ c, timeSetArg r.payload = some (some c) → t.wallDerivable = false →
         (beField r.payload 0 1 = 0 → r.payload.length = 7 → c = beField r.payload 1 6) ∧
         ∃ u : State, exec (.timeSet dt m) s = .next (u.respond m r sOk []) ∧
           u.rtc.sec = BitVec.ofNat 48 c ∧ u.rtc.osf = false ∧ u.rtc.trusted = true ∧ u.rtc.presc0 = 0 ∧ u.rtc.boundary = t.clk ∧
           u.rtc.countdown = t.rtc.countdown ∧ u.rtc.trim = t.rtc.trim ∧ (t.life.radioOn = false → u.time = t.time))) ∧
  (∀ (dt : Nat) (m : Mbox) (s : State) (r : Request),
     let t := (s.tick dt).afterReq m
     let waits := fun (o : Int) (b : Option Bool) =>
       State.respond { t with rtc := { t.rtc with pendLocal := t.rtc.pendLocal ++ [{ offset := o, summer := b }] } } m r sOk []
     let next := fun (o : Int) (b : Option Bool) => if -48 ≤ o ∧ o ≤ 56 then waits o b else t.respond m r sRange []
     ((s.tick dt).runsLen m 0x0503 1 r → exec (.localOffsetSet dt m) s = .next (next (signed 8 (beField r.payload 0 1)) none)) ∧
     ((s.tick dt).runsLen m 0x0504 0 r → exec (.addHour dt m) s = .next (next (t.offsetAhead + 4) (some true))) ∧
     ((s.tick dt).runsLen m 0x0505 0 r → exec (.subHour dt m) s = .next (next (t.offsetAhead - 4) (some false))) ∧
     ((s.tick dt).runsLen m 0x0506 4 r → exec (.countdownSet dt m) s = .next
       ({ t with rtc := { t.rtc with countdown := BitVec.ofNat 32 (beField r.payload 0 4), cdExpired := false } }.respond m r sOk [])))

/-- ALMANAC-ADD enters a well-formed entry of the mailbox's world under a free id, with last_fired all ones; ALMANAC-REMOVE takes out an
entry of the mailbox's world, or any for W0; ALMANAC-LIST answers up to 255 of the entries from the cursor on that the mailbox may see. -/
def Obligations.AlmanacCommands : Prop :=
  ∀ (dt : Nat) (m : Mbox) (s : State) (r : Request) (e : AlmEntry),
    let t := (s.tick dt).afterReq m
    let new := almSetLast r.payload (2 ^ 64 - 1)
    let k := beField r.payload 0 2
    ((s.tick dt).runsLen m 0x0511 128 r →
      (almMalformed new = none → almBadRange new = none → almWorld new = (t.mb m).world → almCross new = none →
        t.hw.almanac.length < 1024 → t.hw.almanac.get (almId new) = none →
        exec (.almanacAdd dt m) s = .next ({ t with hw := { t.hw with
          almanac := t.hw.almanac.set (almId new) { octets := new, fate := .standing } } }.respond m r sOk [])) ∧
      (almMalformed new = none → almBadRange new = none → almWorld new = (t.mb m).world → almCross new = none →
        1024 ≤ t.hw.almanac.length → exec (.almanacAdd dt m) s = .next (t.respond m r sFull [])) ∧
      (t.almAddStatus m new ≠ sOk → exec (.almanacAdd dt m) s = .next (t.respond m r (t.almAddStatus m new) []))) ∧
    ((s.tick dt).runsLen m 0x0512 2 r → 1023 < k → exec (.almanacRemove dt m) s = .next (t.respond m r sRange [])) ∧
    ((s.tick dt).runsLen m 0x0512 2 r → k ≤ 1023 → t.hw.almanac.get k = none ∨
        t.hw.almanac.get k = some e ∧ (t.mb m).world ≠ 0 ∧ almWorld e.octets ≠ (t.mb m).world → exec (.almanacRemove dt m) s = .next (t.respond m r sNotFound [])) ∧
    ((s.tick dt).runsLen m 0x0512 2 r → k ≤ 1023 → t.hw.almanac.get k = some e → (t.mb m).world = 0 ∨ almWorld e.octets = (t.mb m).world →
      exec (.almanacRemove dt m) s = .next ({ t with hw := { t.hw with almanac := t.hw.almanac.erase k } }.respond m r sOk [])) ∧
    ((s.tick dt).runsLen m 0x0513 2 r →
      let seen := t.hw.almanac.filter fun p => decide (k ≤ p.1) && ((t.mb m).world = 0 || almWorld p.2.octets = (t.mb m).world)
      let shown := seen.take 255
      exec (.almanacList dt m) s = .next (t.respond m r sOk (toBe 2 (((seen.drop 255).head?.map fun p => p.1).getD 0xFFFF) ++
        toBe 1 shown.length ++ shown.flatMap fun p => t.almView m p.2)))

/-! ## Images: writing, checking, activating, confirming (chapters 15 and 17) -/

/-- A write of a slot of the boot flash at another offset than 0 programs its octets over what stands there: each octet of the range ends as
the AND of the old and the new, every other octet of the flash stays, and the final response is S_OK exactly where what then stands is the
data sent; at offset 0 the slot is erased first.  A slot in use is not written, nor one beyond its end. -/
def Obligations.SlotWritePrograms : Prop :=
  ∀ (dt : Nat) (m : Mbox) (s : State) (r : Request),
    let t := (s.tick dt).afterReq m
    let i := beField r.payload 0 1
    let off := beField r.payload 1 4
    let data := r.payload.drop 5
    let outcome := fun (u : State) (a : Nat) =>
      (∀ k, a ≤ k → k < a + data.length → flashByte u.flash k = flashByte t.flash k &&& data.getD (k - a) 0) ∧
      (∀ k, k < a ∨ a + data.length ≤ k → flashByte u.flash k = flashByte t.flash k) ∧
      (∃ b, (u.mb m).busy = some b ∧ b.req = r ∧ b.cls = .flash ∧ b.result = [] ∧
        (b.status = sOk ↔ ∀ k, k < data.length → flashByte u.flash (a + k) = data.getD k 0) ∧ (b.status = sOk ∨ b.status = sFlash))
    let anew := fun (u : State) (a size : Nat) =>
      (∀ k, a ≤ k → k < a + size → flashByte u.flash k = if k < a + data.length then data.getD (k - a) 0 else 0xFF) ∧
      (∀ k, k < a ∨ a + size ≤ k → flashByte u.flash k = flashByte t.flash k) ∧
      (∃ b, (u.mb m).busy = some b ∧ b.req = r ∧ b.cls = .flash ∧ b.result = [] ∧ b.status = sOk)
    (6 ≤ r.payload.length → r.payload.length ≤ 1029 → i ≤ 1 → off + data.length ≤ 0x400000 →
      let late := fun (u : State) => ∃ b, (u.mb m).busy = some b ∧ b.req = r ∧ b.cls = .flash ∧ b.status = sFlash
      ((s.tick dt).runs m 0x0202 r → t.life.cfgSlot ≠ some i → ∃ u : State, exec (.configSlotWrite dt m true) s = .next u ∧ late u) ∧
      ((s.tick dt).runs m 0x0212 r → t.life.fwSlot ≠ some i → t.life.stump = none → ∃ u : State, exec (.fwSlotWrite dt m true) s = .next u ∧ late u)) ∧
    ((s.tick dt).flashOk → 6 ≤ r.payload.length → r.payload.length ≤ 1029 → i ≤ 1 → off = 0 →
      ((s.tick dt).runs m 0x0202 r → t.life.cfgSlot ≠ some i → ∃ u : State, exec (.configSlotWrite dt m false) s = .next u ∧
        anew u (if i = 0 then 0x1020000 else 0x1420000) 0x400000 ∧ u.life.cfgChecked = t.life.cfgChecked.set i false) ∧
      ((s.tick dt).runs m 0x0212 r → t.life.fwSlot ≠ some i → t.life.stump = none → ∃ u : State, exec (.fwSlotWrite dt m false) s = .next u ∧
        anew u (if i = 0 then 0x20000 else 0x820000) 0x800000 ∧ u.life.fwChecked = t.life.fwChecked.set i false)) ∧
    ((s.tick dt).flashOk → 6 ≤ r.payload.length → r.payload.length ≤ 1029 → i ≤ 1 → off ≠ 0 →
      ((s.tick dt).runs m 0x0202 r → off + data.length ≤ 0x400000 → t.life.cfgSlot ≠ some i →
        ∃ u : State, exec (.configSlotWrite dt m false) s = .next u ∧ outcome u (if i = 0 then 0x1020000 + off else 0x1420000 + off) ∧
          u.life.cfgChecked = t.life.cfgChecked.set i false) ∧
      ((s.tick dt).runs m 0x0202 r → off + data.length ≤ 0x400000 → t.life.cfgSlot = some i →
        exec (.configSlotWrite dt m false) s = .next (t.respond m r sState [])) ∧
      ((s.tick dt).runs m 0x0202 r → 0x400000 < off + data.length → exec (.configSlotWrite dt m false) s = .next (t.respond m r sRange [])) ∧
      ((s.tick dt).runs m 0x0212 r → off + data.length ≤ 0x800000 → t.life.fwSlot = some i → t.life.stump = none →
        exec (.fwSlotWrite dt m false) s = .next (t.respond m r sState [])) ∧
      ((s.tick dt).runs m 0x0212 r → off + data.length ≤ 0x800000 → t.life.fwSlot ≠ some i → t.life.stump = none →
        ∃ u : State, exec (.fwSlotWrite dt m false) s = .next u ∧ outcome u (if i = 0 then 0x20000 + off else 0x820000 + off) ∧
          u.life.fwChecked = t.life.fwChecked.set i false))

/-- CONFIG-CHECK of a slot whose image passes is answered S_OK at its end with eight zero octets, and marks the slot as checked; of one
that fails, S_CHECK with reason, type, instance and offset; neither touches the applied image or the flash.  FW-SLOT-CHECK likewise, with
result and detail. -/
def Obligations.SlotChecks : Prop :=
  ∀ (dt : Nat) (m : Mbox) (s : State) (r : Request),
    let t := (s.tick dt).afterReq m
    let i := beField r.payload 0 1
    let ends := fun (u : State) (st : Nat) (o : Octets) =>
      (∃ b, (u.mb m).busy = some b ∧ b.req = r ∧ b.cls = .long ∧ b.status = st ∧ b.result = o) ∧
        u.life.image = t.life.image ∧ u.life.cfgSlot = t.life.cfgSlot ∧ u.life.fwSlot = t.life.fwSlot ∧ u.flash = t.flash
    ((s.tick dt).runsLen m 0x0203 1 r → 1 < i → exec (.configCheck dt m) s = .next (t.respond m r sRange [])) ∧
    ((s.tick dt).runsLen m 0x0213 1 r → 1 < i → t.life.stump = none → exec (.fwSlotCheck dt m) s = .next (t.respond m r sRange [])) ∧
    ((s.tick dt).runsLen m 0x0203 1 r → i ≤ 1 →
      (∀ img, t.checkSlot i = .ok img → ∃ u : State, exec (.configCheck dt m) s = .next u ∧ ends u sOk [0, 0, 0, 0, 0, 0, 0, 0] ∧
        u.life.cfgChecked = t.life.cfgChecked.set i true ∧ (t.life.mode = .provision → u.life.provSlot = some i)) ∧
      (∀ f, t.checkSlot i = .error f → ∃ u : State, exec (.configCheck dt m) s = .next u ∧
        ends u sCheck (toBe 1 f.reason ++ toBe 2 f.typ ++ toBe 1 f.inst ++ toBe 4 f.off) ∧
        u.life.cfgChecked = t.life.cfgChecked.set i false)) ∧
    (∀ k, (s.tick dt).runsLen m 0x0213 1 r → t.life.stump = some k → i ≠ k.target → exec (.fwSlotCheck dt m) s = .next (t.respond m r sState [])) ∧
    (∀ k, (s.tick dt).runsLen m 0x0213 1 r → t.life.stump = some k → i = k.target → i ≤ 1 →
      ∃ u : State, exec (.fwSlotCheck dt m) s = .next u ∧
        ends u (if (t.checkFw i).1 = 0 then sOk else sCheck) (toBe 1 (t.checkFw i).1 ++ toBe 4 (t.checkFw i).2) ∧
        u.life.stump = some { k with checked := (t.checkFw i).1 == 0 }) ∧
    ((s.tick dt).runsLen m 0x0213 1 r → i ≤ 1 → t.life.stump = none →
      ∃ u : State, exec (.fwSlotCheck dt m) s = .next u ∧
        ends u (if (t.checkFw i).1 = 0 then sOk else sCheck) (toBe 1 (t.checkFw i).1 ++ toBe 4 (t.checkFw i).2) ∧
        u.life.fwChecked = t.life.fwChecked.set i ((t.checkFw i).1 == 0))

/-- FW-ACTIVATE of a slot that stands checked, with the running firmware confirmed: the directory names the slot on trial; where the
hand-off formats allow it a forwarding pause begins once the new firmware is ready, and elsewhere the part restarts.  CONFIG-ACTIVATE likewise, by what the images
differ in.  An activation of the slot in use, of one not checked, or during a trial, is refused; a slot that no longer passes ends so, and a flash that does not take the record in time leaves the part as it
was, with S_FLASH. -/
def Obligations.Activation : Prop :=
  ∀ (dt prep : Nat) (m : Mbox) (late : Bool) (s : State) (r : Request) (old new : Image),
    let t := (s.tick dt).afterReq m
    let i := beField r.payload 0 1
    let h := flashRange t.flash (fwSlotBase i) 4224
    let flashFails := fun (u : State) => u.life.mode = t.life.mode ∧ u.life.pause = t.life.pause ∧
      ∃ b, (u.mb m).busy = some b ∧ b.req = r ∧ b.status = sFlash
    ((s.tick dt).runsLen m 0x0214 1 r → 1 < i → exec (.fwActivate dt m ⟨late, prep⟩) s = .next (t.respond m r sRange [])) ∧
    ((s.tick dt).runsLen m 0x0204 1 r → t.life.image = none → exec (.configActivate dt m late) s = .next (t.respond m r sState [])) ∧
    ((s.tick dt).runsLen m 0x0204 1 r → 1 < i → t.life.image = some old → exec (.configActivate dt m late) s = .next (t.respond m r sRange [])) ∧
    ((s.tick dt).runsLen m 0x0214 1 r → i ≤ 1 →
      (t.life.fwSlot ≠ some i → t.life.fwChecked.getD i false = true → t.life.fwTrial = false → (t.checkFw i).1 = 0 →
        ∃ u : State, exec (.fwActivate dt m ⟨true, prep⟩) s = .next u ∧ flashFails u) ∧
      (t.life.fwSlot ≠ some i → t.life.fwChecked.getD i false = true → t.life.fwTrial = false → (t.checkFw i).1 = 0 →
        ∃ u : State, exec (.fwActivate dt m ⟨false, prep⟩) s = .next u ∧ u.flash = (t.writeDir fun d => { d with fw := i, fwTrial := true }).flash ∧
          (handOff t.life.fwHeader h = true → u.life.pause = some (t.clk + prepTicks prep) ∧ u.life.fwSlot = t.life.fwSlot ∧
            (∃ b, (u.mb m).busy = some b ∧ b.req = r ∧ b.status = sOk ∧ b.cls = .device)) ∧
          (handOff t.life.fwHeader h = false → u.life.mode = .reset ∧ u.life.restartCause = 1)) ∧
      (t.life.fwSlot ≠ some i → t.life.fwChecked.getD i false = true → t.life.fwTrial = false → (t.checkFw i).1 ≠ 0 →
        exec (.fwActivate dt m ⟨false, prep⟩) s =
          .next (t.begin m r (toBe 1 (if handOff t.life.fwHeader h then 0 else 1)) sCheck (toBe 1 (t.checkFw i).1))) ∧
      (t.life.fwSlot = some i ∨ t.life.fwChecked.getD i false = false ∨ t.life.fwTrial = true → exec (.fwActivate dt m ⟨false, prep⟩) s = .next (t.respond m r sRefused []))) ∧
    ((s.tick dt).runsLen m 0x0204 1 r → i ≤ 1 → t.life.image = some old →
      (t.life.cfgSlot ≠ some i → t.life.cfgChecked.getD i false = true → t.life.cfgTrial = false → t.checkSlot i = .ok new →
        ∃ u : State, exec (.configActivate dt m true) s = .next u ∧ flashFails u) ∧
      (t.life.cfgSlot ≠ some i → t.life.cfgChecked.getD i false = true → t.life.cfgTrial = false → t.checkSlot i = .ok new →
        ∃ u : State, exec (.configActivate dt m false) s = .next u ∧
          (hitlessImage old new = true → u.life.pause = some t.clk ∧ u.life.image = some new ∧ u.life.cfgSlot = some i ∧
            u.life.cfgTrial = true ∧ u.hw.cfgVersion = some new.version) ∧
          (hitlessImage old new = false → u.life.mode = .reset ∧ u.life.restartCause = 1 ∧
            u.flash = (t.writeDir fun d => { d with cfg := i, cfgTrial := true }).flash)) ∧
      (∀ f, t.life.cfgSlot ≠ some i → t.life.cfgChecked.getD i false = true → t.life.cfgTrial = false → t.checkSlot i = .error f →
        exec (.configActivate dt m false) s = .next (t.begin m r [1] sCheck (toBe 1 f.reason))) ∧
      (t.life.cfgSlot = some i ∨ t.life.cfgChecked.getD i false = false ∨ t.life.cfgTrial = true → exec (.configActivate dt m false) s = .next (t.respond m r sRefused [])))

/-- FW-CONFIRM and CONFIG-CONFIRM of a slot on trial write a directory record that names it confirmed, and end the trial, which a flash that
does not take it in time leaves standing; without a trial they answer S_STATE.

A directory record reads back as it was written: the sector that did not hold the chosen record now holds the new one, which is the
one chosen, with the next sequence, whatever two sectors held before, so long as the fields are slots and the flash is canonical. -/
def Obligations.ConfirmationAndDirectory : Prop :=
  (∀ (dt : Nat) (m : Mbox) (s : State) (r : Request) (i : Nat),
     let t := (s.tick dt).afterReq m
     ((s.tick dt).runsLen m 0x0215 0 r → t.life.fwSlot = some i →
       (t.life.fwTrial = true → ∃ u : State, exec (.fwConfirm dt m false) s = .next u ∧ u.life.fwTrial = false ∧ u.life.fwSlot = some i ∧
         u.flash = (t.writeDir fun d => { d with fw := i, fwTrial := false }).flash ∧ t.hw.rollback.toNat ≤ u.hw.rollback.toNat ∧
         (∃ b, (u.mb m).busy = some b ∧ b.req = r ∧ b.status = sOk)) ∧
       (t.life.fwTrial = true → ∃ u : State, exec (.fwConfirm dt m true) s = .next u ∧ u.life.fwTrial = true ∧
         (∃ b, (u.mb m).busy = some b ∧ b.req = r ∧ b.status = sFlash)) ∧
       (t.life.fwTrial = false → exec (.fwConfirm dt m false) s = .next (t.respond m r sState []))) ∧
     ((s.tick dt).runsLen m 0x0205 0 r → t.life.cfgSlot = some i →
       (t.life.cfgTrial = true → ∃ u : State, exec (.configConfirm dt m false) s = .next u ∧ u.life.cfgTrial = false ∧
         u.life.cfgSlot = some i ∧ u.flash = (t.writeDir fun d => { d with cfg := i, cfgTrial := false }).flash ∧
         t.hw.floor.toNat ≤ u.hw.floor.toNat ∧ (∃ b, (u.mb m).busy = some b ∧ b.req = r ∧ b.status = sOk)) ∧
       (t.life.cfgTrial = true → ∃ u : State, exec (.configConfirm dt m true) s = .next u ∧ u.life.cfgTrial = true ∧
         (∃ b, (u.mb m).busy = some b ∧ b.req = r ∧ b.status = sFlash)) ∧
       (t.life.cfgTrial = false → exec (.configConfirm dt m false) s = .next (t.respond m r sState [])))) ∧
  (∀ (s : State) (f : DirRec → DirRec), s.flashOk → (f s.dir).fw ≤ 1 → (f s.dir).cfg ≤ 1 →
     (s.writeDir f).dir = { f s.dir with seq := s.dir.seq + 1 } ∧ (s.writeDir f).flashOk ∧
       (∀ k, 0x20000 ≤ k → flashByte (s.writeDir f).flash k = flashByte s.flash k))

/-! ## The node table by command (chapter 10) -/

/-- A table command sees a record by its EUI-64 only where it is LIVE, QUIET or RETIRING of its world's present epoch and of the mailbox's
world, or any world for W0, which also sees JOINING records.

NODE-SEARCH answers a visible record's index and words, without key_gen, sec_level and counters for a mailbox of another world, and
S_NOT_FOUND where none is visible; NODE-REMOVE makes a visible record CLEARING; LINK-GET answers what each pipeline holds of it. -/
def Obligations.NodeCommandsSeeVisibleNodes : Prop :=
  (∀ (s : State) (w i : Nat) (eui : BitVec 64) (n : Node), s.seek w eui = some (i, n) →
     s.findEui eui = some i ∧ s.node i = some n ∧ n.eui = eui ∧ (w ≠ 0 → n.world = w) ∧
       (n.state = .joining ∧ w = 0 ∨ (n.state = .live ∨ n.state = .quiet ∨ n.state = .retiring) ∧ s.current n = true)) ∧
  (∀ (dt : Nat) (m : Mbox) (s : State) (r : Request),
     let t := (s.tick dt).afterReq m
     let eui := BitVec.ofNat 64 (beField r.payload 0 8)
     let w := (t.mb m).world
     ((s.tick dt).runsLen m 0x0301 8 r →
       (∀ i n, t.seek w eui = some (i, n) → exec (.nodeSearch dt m) s = .next (t.respond m r sOk
         (toBe 4 i ++ toBe 16 (n.word0 (n.world != w)) ++ toBe 16 n.word1 ++ toBe 16 n.word2 ++ toBe 16 (n.word3 (n.world != w))))) ∧
       (t.seek w eui = none → exec (.nodeSearch dt m) s = .next (t.respond m r sNotFound []))) ∧
     ((s.tick dt).runsLen m 0x0303 8 r →
       (∀ i n, t.seek w eui = some (i, n) → ∃ u : State, exec (.nodeRemove dt m) s = .next (u.respond m r sOk []) ∧
         (u.node i).map (fun x => x.state) = some .clearing ∧ (∀ k x, u.seek w eui = some (k, x) → k ≠ i)) ∧
       (t.seek w eui = none → exec (.nodeRemove dt m) s = .next (t.respond m r sNotFound []))) ∧
     ((s.tick dt).runsLen m 0x0306 8 r →
       (∀ i n, t.seek w eui = some (i, n) → exec (.linkGet dt m) s = .next (t.respond m r sOk
         (t.linkView i .sa ++ t.linkView i .sb ++ t.linkView i .h ++ toBe 4 (t.canopy.meas.getD i {}).u ++
           toBe 2 (t.canopy.meas.getD i {}).ackPm))) ∧
       (t.seek w eui = none → exec (.linkGet dt m) s = .next (t.respond m r sNotFound []))))

/-- NODE-NEXT answers at most the count asked for, each of an index at or after the cursor, visible, and of the world asked for; a full
answer's next cursor follows its last record; a count or a world out of range is answered S_RANGE.

TABLE-FLUSH-WORLD advances the world's epoch at once, in the table and in Heartwood, so that none of its records is of the present
epoch; REHASH is begun with the seed given, or where that is 0 with one of the part's own.  Both answer S_ACCEPTED and keep the mailbox busy as commands of class D. -/
def Obligations.NodeWalkFlushAndRehash : Prop :=
  (∀ (dt : Nat) (m : Mbox) (s : State) (r : Request),
     let t := (s.tick dt).afterReq m
     let w := (t.mb m).world
     let filter := beField r.payload 4 1
     let n := beField r.payload 5 1
     (s.tick dt).runsLen m 0x0302 6 r →
       (n = 0 ∨ 32 < n ∨ 7 < filter ∧ filter ≠ 0xFF → exec (.nodeNext dt m) s = .next (t.respond m r sRange [])) ∧
       (1 ≤ n → n ≤ 32 → filter ≤ 7 ∨ filter = 0xFF → ∃ (next : Nat) (l : List (Nat × Node)), exec (.nodeNext dt m) s = .next (t.respond m r sOk
           (toBe 4 next ++ toBe 1 l.length ++ l.flatMap fun p => nodeView w p.1 p.2)) ∧
         l.length ≤ n ∧ l.Sublist t.table.nodes ∧ (l.length < n → next = 131072) ∧ (∀ p, l.getLast? = some p → l.length = n → next = p.1 + 1) ∧
         (∀ p ∈ l, beField r.payload 0 4 ≤ p.1 ∧ t.visible w p.2 = true ∧ (filter ≠ 0xFF → p.2.world = filter)) ∧
         (l.length < n → ∀ p ∈ t.table.nodes, beField r.payload 0 4 ≤ p.1 → t.visible w p.2 = true → filter = 0xFF ∨ p.2.world = filter → p ∈ l))) ∧
  (∀ (dt : Nat) (m : Mbox) (s : State) (r : Request),
     let t := (s.tick dt).afterReq m
     let w := beField r.payload 0 1
     let begun := fun (u : State) => ∃ b, (u.mb m).busy = some b ∧ b.req = r ∧ b.cls = .device
     ((s.tick dt).runsLen m 0x0304 1 r → 7 < w → exec (.tableFlushWorld dt m) s = .next (t.respond m r sRange [])) ∧
     ((s.tick dt).runsLen m 0x0304 1 r → w ≤ 7 → t.table.epochs.length = 8 →
       ∃ u : State, exec (.tableFlushWorld dt m) s = .next u ∧ begun u ∧ u.table.epochs = t.table.epochs.set w ((t.epochOf w + 1) % 4) ∧
         u.hw.epochs = u.table.epochs ∧ u.table.nodes = t.table.nodes ∧
         (∀ n : Node, n.world = w → n.state ≠ .joining → t.current n = true → u.current n = false) ∧ (∀ n : Node, n.world ≠ w → u.current n = t.current n)) ∧
     ((s.tick dt).runsLen m 0x0305 8 r →
       ∃ u : State, exec (.rehash dt m) s = .next u ∧ begun u ∧ u.table.rehash.isSome = true ∧
         (beField r.payload 0 8 ≠ 0 → u.table.rehash.map (fun v => v.toNat) = some (beField r.payload 0 8)) ∧ u.table.seed = t.table.seed ∧ u.table.act = t.table.act))

/-! ## Canopy by command (chapter 11) -/

/-- CANOPY-PIN of a node's aerial, power or path with a value in range writes it at once and sets the pin's bit; of its group and phase or
its band it leaves a pin that waits for a round; of a lane or a slice centre it enters the pin.  CANOPY-UNPIN clears the pin and leaves the
value.  A subject that does not exist is answered S_NOT_FOUND, a lane that is mapped out and a front end that is OFF S_STATE, and a kind or
value out of range S_RANGE. -/
def Obligations.CanopyPinsNodes : Prop :=
  (∀ (dt : Nat) (m : Mbox) (s : State) (r : Request),
    let t := (s.tick dt).afterReq m
    let kind := beField r.payload 0 1
    let i := beField r.payload 1 4
    let value := beField r.payload 5 4
    let absent := (kind ≤ 4 ∧ t.pinSubject i = none) ∨ (kind = 5 ∧ t.laneCount ≤ i) ∨ (kind = 6 ∧ ∀ f, feOf i = some f → t.hasFe f = false)
    ((s.tick dt).runsLen m 0x0601 9 r →
      (absent → exec (.canopyPin dt m) s = .next (t.respond m r sNotFound [])) ∧
      (6 < kind → exec (.canopyPin dt m) s = .next (t.respond m r sRange [])) ∧
      (kind = 5 → i < t.laneCount →
        ((t.lane i).out = true → exec (.canopyPin dt m) s = .next (t.respond m r sState [])) ∧
        ((t.lane i).out = false → t.laneValue value = none ∨ t.laneAllowed i = false →
          exec (.canopyPin dt m) s = .next (t.respond m r sRange [])) ∧
        (∀ a, (t.lane i).out = false → t.laneValue value = some a → t.laneAllowed i = true → ∃ u : State,
          exec (.canopyPin dt m) s = .next (u.respond m r sOk []) ∧ u.canopy.lanePins.get i = some a ∧ u.table = t.table)) ∧
      (∀ f, kind = 6 → feOf i = some f → t.hasFe f = true →
        (t.feMode f = .off → exec (.canopyPin dt m) s = .next (t.respond m r sState [])) ∧
        (t.feMode f ≠ .off → t.sliceCand f value = false → exec (.canopyPin dt m) s = .next (t.respond m r sRange [])) ∧
        (t.feMode f ≠ .off → t.sliceCand f value = true → ∃ u : State, exec (.canopyPin dt m) s = .next (u.respond m r sOk []) ∧
          u.canopy.slicePins.get (feCode f) = some value ∧ (u.feSt f).move.map (fun v => v.centre) = if value = t.centre f then none else some value))) ∧
    ((s.tick dt).runsLen m 0x0602 5 r →
      (absent → exec (.canopyUnpin dt m) s = .next (t.respond m r sNotFound [])) ∧
      (6 < kind → exec (.canopyUnpin dt m) s = .next (t.respond m r sRange [])) ∧
      (kind = 5 → i < t.laneCount → ∃ u : State, exec (.canopyUnpin dt m) s = .next (u.respond m r sOk []) ∧
        u.canopy.lanePins = t.canopy.lanePins.erase i ∧ (u.lane i).pinned = false ∧ (u.lane i).assigned = (t.lane i).assigned) ∧
      (∀ f, kind = 6 → feOf i = some f → t.hasFe f = true → ∃ u : State, exec (.canopyUnpin dt m) s = .next (u.respond m r sOk []) ∧
        u.canopy.slicePins = t.canopy.slicePins.erase i ∧ u.fe = t.fe))) ∧
  (∀ (dt : Nat) (m : Mbox) (s : State) (r : Request) (n : Node),
    let t := (s.tick dt).afterReq m
    let kind := beField r.payload 0 1
    let i := beField r.payload 1 4
    let value := beField r.payload 5 4
    t.pinSubject i = some n → kind ≤ 4 →
      ((s.tick dt).runsLen m 0x0601 9 r → t.pinInRange n kind value = true →
        ∃ (u : State) (x : Node), exec (.canopyPin dt m) s = .next (u.respond m r sOk []) ∧ u.node i = some x ∧
          bitOf x.pins.toNat kind = true ∧ (∀ k, k ≤ 4 → k ≠ kind → bitOf x.pins.toNat k = bitOf n.pins.toNat k) ∧
          x.eui = n.eui ∧ x.group = n.group ∧ x.phase = n.phase ∧ x.fe = n.fe ∧
          x.aerial = (if kind = 2 then value else n.aerial) ∧ x.txPower = (if kind = 3 then signed 32 value else n.txPower) ∧
          x.pathSel = (if kind = 4 then value else n.pathSel) ∧ (∀ j, j ≠ i → u.node j = t.node j) ∧
          (kind ≤ 1 → ∃ p ∈ u.canopy.pinWait, p.node = i ∧ (kind = 1 → p.fe = some value) ∧
            (kind = 0 → p.place = some (value % 64, value / 64 % 256) ∧ p.listen = some (bitOf value 16)))) ∧
      ((s.tick dt).runsLen m 0x0601 9 r → t.pinInRange n kind value = false →
        exec (.canopyPin dt m) s = .next (t.respond m r sRange [])) ∧
      ((s.tick dt).runsLen m 0x0602 5 r →
        ∃ (u : State) (x : Node), exec (.canopyUnpin dt m) s = .next (u.respond m r sOk []) ∧ u.node i = some x ∧
          bitOf x.pins.toNat kind = false ∧ (∀ k, k ≤ 4 → k ≠ kind → bitOf x.pins.toNat k = bitOf n.pins.toNat k) ∧
          x = { n with pins := x.pins } ∧ (∀ j, j ≠ i → u.node j = t.node j)))

/-- CANOPY-FREEZE freezes the kinds named, for the world named or for all, until its end instant or until thawed for a duration of 0; a
kind that has no freeze, none at all or a world out of range is answered S_RANGE; CANOPY-THAW for all worlds leaves none of the kinds named frozen, and neither moves a node, a lane or a slice.

CANOPY-LOG-READ answers, from the seq given, at most the count asked for of the entries a mailbox may read, W0 every entry and the others
those of their own world, and marks a loss where the seq given was overwritten. -/
def Obligations.FreezesAndLog : Prop :=
  (∀ (dt : Nat) (m : Mbox) (s : State) (r : Request) (k w : Nat),
     let t := (s.tick dt).afterReq m
     let d := beField r.payload 3 4
     let still := fun (u : State) => u.table = t.table ∧ u.lanes = t.lanes ∧ u.fe = t.fe ∧ u.wake = t.wake
     (freezeArg r.payload = none →
       ((s.tick dt).runsLen m 0x0603 7 r → exec (.canopyFreeze dt m) s = .next (t.respond m r sRange [])) ∧
       ((s.tick dt).runsLen m 0x0604 3 r → exec (.canopyThaw dt m) s = .next (t.respond m r sRange []))) ∧
     (freezeArg r.payload = some (k, w) →
       ((s.tick dt).runsLen m 0x0603 7 r → d ≤ 604800 → ∃ u : State, exec (.canopyFreeze dt m) s = .next (u.respond m r sOk []) ∧ still u ∧
         { kinds := k, world := w, endNs := if d = 0 then none else some (t.netNs + d * 1000000000) } ∈ u.canopy.freezes ∧
         (∀ j v, 6 ≤ j → j ≤ 9 → bitOf k j = true → w = 8 ∨ w = v → u.frozen j v = true)) ∧
       ((s.tick dt).runsLen m 0x0603 7 r → 604800 < d → exec (.canopyFreeze dt m) s = .next (t.respond m r sRange [])) ∧
       ((s.tick dt).runsLen m 0x0604 3 r → ∃ u : State, exec (.canopyThaw dt m) s = .next (u.respond m r sOk []) ∧ still u ∧
         (w = 8 → ∀ j v, 3 ≤ j → j ≤ 10 → bitOf k j = true → u.frozen j v = false)))) ∧
  (∀ (dt : Nat) (m : Mbox) (s : State) (r : Request),
     let t := (s.tick dt).afterReq m
     let w := (t.mb m).world
     let from_ := beField r.payload 0 4
     let n := beField r.payload 4 1
     (s.tick dt).runsLen m 0x0605 5 r →
       (n = 0 ∨ 64 < n → exec (.canopyLogRead dt m) s = .next (t.respond m r sRange [])) ∧
       (1 ≤ n → n ≤ 64 → ∃ (lost : Nat) (l : List LogEntry), exec (.canopyLogRead dt m) s = .next (t.respond m r sOk
           (toBe 1 lost ++ toBe 1 l.length ++ l.flatMap LogEntry.octets)) ∧
         l.length ≤ n ∧ l.Sublist t.canopy.log ∧ (∀ e ∈ l, from_ ≤ e.seq.toNat ∧ (w = 0 ∨ e.world = w)) ∧
         (l.length < n → ∀ e ∈ t.canopy.log, from_ ≤ e.seq.toNat → w = 0 ∨ e.world = w → e ∈ l) ∧
         (lost = 1 ↔ ∃ e, t.canopy.log.head? = some e ∧ from_ < e.seq.toNat) ∧ lost ≤ 1))

/-! ## Verieli and Q-Streams (chapter 15) -/

/-- The replay window never takes a seq twice: 0 is never fresh, a seq accepted is not fresh afterwards, acceptance makes no seq fresh that
was not, and every seq above H is fresh.

A datagram for an open mailbox M1 to M7 is examined in the order of Table 15.2; the first check it fails discards it with one count and
no other change.

A request that passes every check, of a command of Table 15.4 at an idle mailbox, waits in Q388 + m as the last of its order, with its
seq spent in the mailbox's window and in Heartwood before it is executed. -/
def Obligations.RequestsReplayedCheckedAccepted : Prop :=
  (∀ (h b : BitVec 64) (q : Nat), q < 2 ^ 64 →
     freshSeq h b 0 = false ∧ (h.toNat < q → freshSeq h b q = true) ∧ (q + 64 ≤ h.toNat → freshSeq h b q = false) ∧
       (freshSeq h b q = true → freshSeq (acceptSeq h b q).1 (acceptSeq h b q).2 q = false ∧
         (acceptSeq h b q).1.toNat = max h.toNat q ∧
         ∀ p, p < 2 ^ 64 → p ≠ q → freshSeq (acceptSeq h b q).1 (acceptSeq h b q).2 p = true → freshSeq h b p = true)) ∧
  (∀ (dt : Nat) (m : Mbox) (d : Datagram) (s : State),
     let t := s.tick dt
     let o := d.octets
     m.val ≠ 0 → (t.mb m).isOpen = true → t.inPause = false → t.mboxAuth m = true →
       (t.addrOk m d.srcAddr = false → exec (.verieliRequest dt m d) s = .next (t.count .verieliAddrRefused (.mbox m))) ∧
       (t.addrOk m d.srcAddr = true → t.formOk m o = false →
         exec (.verieliRequest dt m d) s = .next (t.count .verieliMalformed (.mbox m))) ∧
       (t.addrOk m d.srcAddr = true → t.formOk m o = true → o.drop (o.length - 16) ≠ natOcts (cmac (t.vmac m) (octNats (o.take (o.length - 16)))) →
         exec (.verieliRequest dt m d) s = .next (t.count .verieliAuthFail (.mbox m))) ∧
       (t.addrOk m d.srcAddr = true → t.formOk m o = true → o.drop (o.length - 16) = natOcts (cmac (t.vmac m) (octNats (o.take (o.length - 16)))) →
         freshSeq (t.mb m).high (t.mb m).bitmap (beField o 8 8) = false → (∀ c ∈ (t.mb m).last8, c.seq.toNat ≠ beField o 8 8) →
         exec (.verieliRequest dt m d) s = .next (t.count .verieliReplay (.mbox m)))) ∧
  (∀ (dt : Nat) (m : Mbox) (d : Datagram) (s v : State) (c : CmdClass),
     let t := s.tick dt
     let o := d.octets
     let r := requestOf t m d
     let q := beField o 8 8
     m.val ≠ 0 → (t.mb m).isOpen = true → t.inPause = false → t.mboxAuth m = true → t.life.mode ≠ .stump → t.addrOk m d.srcAddr = true →
       t.formOk m o = true → o.drop (o.length - 16) = natOcts (cmac (t.vmac m) (octNats (o.take (o.length - 16)))) →
       freshSeq (t.mb m).high (t.mb m).bitmap q = true → cmdClass r.opcode = some c → (∀ j, j < 8 → (t.mb j).busy = none ∧
         (t.mb j).ended = none ∧ t.order (orderKey (388 + j) 0) = []) →
       (t.spend m q).post (388 + m) 0 0 (48 + r.payload.length) (.request r) = some v →
       exec (.verieliRequest dt m d) s = .next v ∧ v.frontReq m = some r ∧
         v.hw.replayHigh.get m = some (acceptSeq (t.mb m).high (t.mb m).bitmap q).1 ∧
         freshSeq (v.mb m).high (v.mb m).bitmap q = false)

/-- M0's transactions: a WRITE cut short or begun while BUSY is high is counted in m0_overrun and discarded; a READ of an empty Q396 gives
length 0; one that clocks its message out wholly takes it from Q396 and releases its cells, and one that does not leaves it; STATUS gives
the octet of Table 15.3 and any other first octet is counted in m0_bad_command. -/
def Obligations.M0Transactions : Prop :=
  ∀ (dt n : Nat) (o : Octets) (first : Byte) (wholly : Bool) (s : State) (p : Packet) (rest : List Packet) (g : Msg) (ev : List (BitVec 32)),
    let t := s.tick dt
    let key := orderKey 396 0
    (t.pins.m0Busy = true ∨ o.length < n → exec (.m0Write dt n o) s = .next (t.count .m0Overrun .device)) ∧
    (t.pins.m0Busy = false → n ≤ o.length → (t.mb 0).isOpen = true →
      exec (.m0Write dt n o) s = .next (t.accept 0 { srcAddr := 0, srcPort := 0, dstPort := 0, octets := o.take n } t.clk)) ∧
    (t.order key = [] → exec (.m0Read dt wholly) s = .next { t with m0Out := [0, 0] }) ∧
    (t.order key = p :: rest → p.content = .message g ev →
      (∃ u : State, exec (.m0Read dt true) s = .next u ∧ u.m0Out = toBe 2 g.octets.length ++ g.octets ∧ u.order key = rest ∧
        u.life = t.life ∧ u.hw = t.hw ∧ (t.queues.marked = [] → u.tally = t.tally) ∧ ∀ e ∈ (u.mb 0).ring, e.seq ∉ ev) ∧
      exec (.m0Read dt false) s = .next { t with m0Out := toBe 2 g.octets.length ++ g.octets }) ∧
    (exec (.m0Status dt) s = .next { t with m0Out := [BitVec.ofNat 8 ((if t.pins.m0Busy then 1 else 0) +
      (if t.life.mode = .secError ∨ t.order key ≠ [] then 2 else 0) + 4 * t.m0State)] }) ∧
    (first ≠ 1 → first ≠ 2 → first ≠ 3 → exec (.m0BadCommand dt first) s = .next (t.count .m0BadCommand .device))

/-- The new events of an open mailbox with a subscription go out in one event message of at most 16 records, and are marked as sent; they
stay in the ring.

EVENT-ACK takes the events up to the seq it names out of the ring and answers up to 16 of those that follow; EVENT-SUBSCRIBE sets the
address and port events are sent to. -/
def Obligations.EventsAndTheirCommands : Prop :=
  (∀ (dt : Nat) (m : Mbox) (s : State),
     let t := s.tick dt
     let b := t.mb m
     let news := b.ring.filter fun e => !e.sent
     let olds := b.ring.filter fun e => e.sent
     let sent := fun (u : State) (l : List RingEvent) =>
       (u.mb m).ring = b.ring.map (fun e => if (l.take 16).any (fun x => x.seq == e.seq) then { e with sent := true } else e) ∧
         (u.mb m).lastSend = t.clk ∧ (u.mb m).lostFlag = false ∧ (u.mb m).seq = b.seq + 1
     b.isOpen = true → t.mailboxesRun = true → t.subscribed m = true →
       (news ≠ [] → ∃ u : State, exec (.eventMessageSend dt m) s = .next u ∧ sent u news) ∧
       (news = [] → exec (.eventMessageSend dt m) s = .next t) ∧
       (m.val ≠ 0 → olds ≠ [] → b.lastSend + 500000000 ≤ t.clk → ∃ u : State, exec (.eventResend dt m) s = .next u ∧ sent u olds)) ∧
  (∀ (dt : Nat) (m : Mbox) (s : State) (r : Request),
     let t := (s.tick dt).afterReq m
     let q := beField r.payload 0 4
     ((s.tick dt).runsLen m 0x0804 4 r → ∃ (u : State) (l : List RingEvent), exec (.eventAck dt m) s = .next (u.respond m r sOk
         (toBe 1 l.length ++ l.flatMap eventRecord)) ∧ (u.mb m).ring = (t.mb m).ring.filter (fun e => decide (q < e.seq.toNat)) ∧
         l.length = min 16 (u.mb m).ring.length ∧ l.map (fun e => e.ev) = ((u.mb m).ring.take 16).map (fun e => e.ev) ∧ u.tally = t.tally) ∧
     ((s.tick dt).runsLen m 0x0805 18 r → exec (.eventSubscribe dt m) s = .next (State.respond (t.setMb m { t.mb m with
         subAddr := BitVec.ofNat 128 (beField r.payload 0 16), subPort := BitVec.ofNat 16 (beField r.payload 16 2) }) m r sOk [])))

/-- TALLY-SNAPSHOT latches the counters the mailbox may see, those of another world left out; TALLY-READ answers from that snapshot, whatever
the counters do meanwhile, and S_STATE where none was taken; QSTATS-READ answers the records of the queues named that it may see. -/
def Obligations.TallyAndQueueStatistics : Prop :=
  ∀ (dt : Nat) (m : Mbox) (s : State) (r : Request) (x : Snapshot),
    let t := (s.tick dt).afterReq m
    let a := beField r.payload 0 2
    let n := beField r.payload 2 2
    ((s.tick dt).runsLen m 0x0801 0 r → ∃ (u : State) (y : Snapshot), exec (.tallySnapshot dt m) s = .next (u.respond m r sOk
        (toBe 6 t.time.sec.toNat ++ toBe 4 t.time.ns.toNat ++ toBe 2 y.entries.length)) ∧ (u.mb m).snap = some y ∧
        (∀ e ∈ y.entries, e.value = Tally.read t.tally e.key ∧ ∀ w, e.key.scope = .world w → w = (t.mb m).world)) ∧
    ((s.tick dt).runsLen m 0x0802 4 r → (t.mb m).snap = some x → 1 ≤ n → n ≤ 1024 → exec (.tallyRead dt m) s = .next (t.respond m r sOk
        (toBe 2 ((x.entries.drop a).take n).length ++ ((x.entries.drop a).take n).flatMap tallyEntry))) ∧
    ((s.tick dt).runsLen m 0x0802 4 r → (t.mb m).snap = some x → n = 0 ∨ 1024 < n → exec (.tallyRead dt m) s = .next (t.respond m r sRange [])) ∧
    ((s.tick dt).runsLen m 0x0803 4 r → n = 0 ∨ 513 < a + n → exec (.qstatsRead dt m) s = .next (t.respond m r sRange [])) ∧
    ((s.tick dt).runsLen m 0x0802 4 r → (t.mb m).snap = none → exec (.tallyRead dt m) s = .next (t.respond m r sState [])) ∧
    ((s.tick dt).runsLen m 0x0803 4 r → 1 ≤ n → a + n ≤ 513 → ∃ l : List Nat, exec (.qstatsRead dt m) s = .next (t.respond m r sOk
        (toBe 2 l.length ++ l.flatMap t.qstat)) ∧ (∀ q, q ∈ l ↔ a ≤ q ∧ q < a + n ∧ t.qstatSeen (t.mb m).world q = true) ∧
        l.Pairwise (fun i j => i < j))

/-- FINAL_RESPONSE ends a mailbox's long operation: its kept status and result are answered and the mailbox is free; the end of a hitless
activation's pause lets forwarding go on. -/
def Obligations.FinalResponseEnds : Prop :=
  ∀ (dt : Nat) (m : Mbox) (s : State) (b : Busy),
    let t := s.tick dt
    (t.mb m).busy = some b →
      (t.life.pause = none ∨ t.inPause = false ∧ b.req.opcode ≠ 0x0214 ∧ b.req.opcode ≠ 0x0204 → b.req.opcode ∉ [0x0304, 0x0305, 0x0702] → exec (.finalResponse dt m true) s = .next (t.finish m b b.status b.result)) ∧
      (t.life.pause ≠ none → t.inPause = false → b.req.opcode = 0x0214 ∨ b.req.opcode = 0x0204 →
        exec (.finalResponse dt m true) s = .next t) ∧
      (t.inPause = true → b.req.opcode = 0x0214 ∨ b.req.opcode = 0x0204 → ∃ u : State, exec (.finalResponse dt m true) s = .next u ∧
        u.life.pause = none ∧ u.held = []) ∧
      (t.inPause = true → b.req.opcode = 0x0214 → ∃ u : State, exec (.finalResponse dt m false) s = .next u ∧ u.life.mode = .reset) ∧
      (t.inPause = true → b.req.opcode ≠ 0x0214 → b.req.opcode ≠ 0x0204 → exec (.finalResponse dt m true) s = .next t)

/-! ## Starts, resets and pins (chapters 2, 15 and 16) -/

/-- RESET_N low takes a part that runs to reset: what fuses, boot flash, the AON domain and Heartwood hold stays, radio, mailboxes, queues,
keys and network time are lost.  One that zeroises completes that first. -/
def Obligations.ResetKeepsWhatPersists : Prop :=
  ∀ (dt : Nat) (s : State),
    let t := s.tick dt
    (t.life.mode = .operate ∨ t.life.mode = .noConfig ∨ t.life.mode = .provision ∨ t.life.mode = .stump ∨ t.life.mode = .secError ∨
        t.life.mode = .retired →
      ∃ u : State, exec (.resetNFall dt) s = .next u ∧ u.life.mode = .reset ∧ u.pins.resetN = false ∧ u.life.lcs = t.life.lcs ∧
        u.flash = t.flash ∧ u.hw = t.hw ∧ u.rtc = t.rtc ∧ u.clk = t.clk ∧ u.life.secCause = t.life.secCause ∧
        u.life.radioOn = false ∧ u.life.image = none ∧ u.mbox = [] ∧ u.queues = {} ∧ u.crypto.slots = [] ∧ u.table = {} ∧ u.lanes = [] ∧
        u.tally = [] ∧ u.pins.m0Busy = false) ∧
    (t.life.mode = .zeroising → exec (.resetNFall dt) s = .next { t with pins := { t.pins with resetN := false } })

/-- The pins sampled at step 2, in the order of Table 2.5: ZEROISE_N low begins zeroisation in any fuse state; a RETIRED part's start ends
there with M0 open and no PUF reconstruction; PFI_N low holds the part with Heartwood unopened.

RADIO_ON at a phase boundary of a part in OPERATE with an image applied: front ends in STANDBY receive, credits start at 0 and the handshake tokens at
their burst. -/
def Obligations.StartPinsAndRadioOn : Prop :=
  (∀ (dt : Nat) (e : StartEnv) (s : State),
     let t := s.tick dt
     t.life.mode = .reset ∨ t.life.mode = .unpowered → t.life.jtagDrives = false →
       (t.pins.zeroiseN = false ∨ t.pins.zeroiseLatch = true → ∃ u : State, exec (.resetNRise dt e) s = .next u ∧ u.life.mode = .zeroising ∧
         u.crypto.zeroising = some .pin ∧ u.hw.zeroCount = t.hw.zeroCount + 1 ∧ u.hw.zeroFlag = true ∧ u.life.lcs = t.life.lcs) ∧
       (t.pins.zeroiseN = true → t.pins.zeroiseLatch = false → t.life.lcs = .retired → ∃ u : State, exec (.resetNRise dt e) s = .next u ∧
         u.life.mode = .retired ∧ (u.mb 0).isOpen = true ∧ u.crypto.rootReg = none ∧ u.crypto.slots = [] ∧ u.pins.m0Busy = false ∧
         u.hw = t.hw) ∧
       (t.pins.zeroiseN = true → t.pins.zeroiseLatch = false → t.life.lcs ≠ .retired → t.pins.pfiN = false → ∃ u : State,
         exec (.resetNRise dt e) s = .next u ∧ u.life.mode = .pfiHold ∧ u.life.hwOpen = false ∧ u.pins.m0Busy = true ∧ u.hw = t.hw)) ∧
  (∀ (dt : Nat) (s : State),
     let t := s.tick dt
     (t.atPhase = false → exec (.radioOn dt) s = .next t) ∧
     (t.life.mode = .operate → t.life.radioOn = false → t.atPhase = true → ∃ u : State, exec (.radioOn dt) s = .next u ∧ u.life.radioOn = true ∧
       (∀ f, (u.feSt f).mode = (if (t.feSt f).mode = .standby then .rx else (t.feSt f).mode)) ∧ u.wake.credit = [] ∧
       u.table.tokens = 1000 * t.joinBurst ∧ u.table.nodes = t.table.nodes ∧ u.queues = t.queues ∧ u.hw = t.hw))

/-- A start whose pins hold nothing back: a failed self-test enters SECURITY-ERROR with its code and trusts no flash; RECOVER leads to
Stump; where the firmware slot the directory names first passes its checks, a part in PROVISION ends its start with M0 open and applies no
image, and one in OPERATE ends it with an image applied or in the no-configuration condition. -/
def Obligations.StartOutcomes : Prop :=
  ∀ (dt : Nat) (e : StartEnv) (s : State),
    let t := s.tick dt
    t.life.mode = .reset ∨ t.life.mode = .unpowered → t.life.jtagDrives = false → t.pins.zeroiseN = true → t.pins.zeroiseLatch = false →
      t.pins.pfiN = true → t.life.lcs ≠ .retired →
      (t.pufRoot e.tests = none → ∃ u : State, exec (.resetNRise dt e) s = .next u ∧ u.life.mode = .secError ∧ u.life.secCause = 1 ∧
        u.life.hwOpen = false ∧ u.hw = t.hw ∧ u.flash = t.flash ∧ u.life.fwSlot = none) ∧
      (t.goodTests e.tests → e.recover = true → ∃ u : State, exec (.resetNRise dt e) s = .next u ∧ u.life.mode = .stump ∧
        u.life.approved = false ∧ (u.mb 0).isOpen = true ∧ (u.mb 1).isOpen = true ∧ u.flash = t.flash ∧ u.life.hwOpen = false ∧
        u.life.stump.isSome = true) ∧
      (t.goodTests e.tests → e.recover = false → (t.checkFw t.dir.fw).1 = 0 → ∃ u : State, exec (.resetNRise dt e) s = .next u ∧
        u.life.fwSlot = some t.dir.fw ∧ u.life.cpuUp = true ∧ u.life.hwOpen = true ∧ u.life.approved = true ∧ u.pins.m0Busy = false ∧
        (u.mb 0).isOpen = true ∧ u.life.radioOn = false ∧
        (t.life.lcs = .provision → u.life.mode = .provision ∧ u.life.image = none ∧ u.domA.powered = false ∧
          ∀ m, 1 ≤ m → (u.mb m).isOpen = false) ∧
        (t.life.lcs = .operate → u.life.mode = .operate ∧ u.life.image.isSome = true ∨ u.life.mode = .noConfig ∧ u.life.image = none))

/-- ZEROISE_N low begins zeroisation while the part runs, and is latched while the main supply is absent; the end of zeroisation leaves no
wrapped key in Heartwood, and the part waits while ZEROISE_N stays low.

After RETIRE the end of zeroisation writes the RETIRED pattern, and the start that follows ends with M0 open and nothing else; after a
class A trip it enters SECURITY-ERROR with cause 0x10 and the fuses as they were.

A class A trip is counted, journalled and starts zeroisation at once; a class B trip of a part that runs is counted and resets it, and
the third within 60 s enters SECURITY-ERROR with cause 0x11 without zeroisation. -/
def Obligations.ZeroisationAndTamper : Prop :=
  (∀ (dt : Nat) (e : StartEnv) (s : State),
     let t := s.tick dt
     (t.life.mode ≠ .unpowered → t.life.mode ≠ .zeroising → t.life.mode ≠ .zeroHold → ∃ u : State, exec (.zeroiseNLow dt) s = .next u ∧
       u.life.mode = .zeroising ∧ u.hw.zeroCount = t.hw.zeroCount + 1 ∧ u.hw.zeroFlag = true ∧ u.crypto.rootReg = none ∧
       u.life.lcs = t.life.lcs ∧ u.pins.zeroiseN = false ∧ ∀ i, (u.slot i).state ≠ .ready) ∧
     (t.life.mode = .unpowered → exec (.zeroiseNLow dt) s = .next { t with pins := { t.pins with zeroiseN := false, zeroiseLatch := true } }) ∧
     (t.life.mode = .zeroising → t.pins.zeroiseN = false → ∃ u : State, exec (.zeroisationEnd dt e) s = .next u ∧ u.life.mode = .zeroHold ∧
       u.hw.kcfg = none ∧ u.hw.mboxKeys = [] ∧ u.hw.worldKeys = [] ∧ u.hw.zeroFlag = false ∧ u.hw.zeroCount = t.hw.zeroCount ∧
       u.hw.floor = t.hw.floor ∧ u.hw.rollback = t.hw.rollback ∧ u.hw.seqCeil = t.hw.seqCeil ∧ u.hw.joinCeil = t.hw.joinCeil ∧
       ∀ p ∈ u.hw.nodeKeys, p.2.wrapped = List.replicate 24 0) ∧
     (t.life.mode ≠ .zeroHold → exec (.zeroiseNHigh dt e) s = .next { t with pins := { t.pins with zeroiseN := true } }) ∧
     (t.life.mode = .zeroHold → t.crypto.zeroising = some .pin → t.pins.resetN = false → ∃ u : State,
       exec (.zeroiseNHigh dt e) s = .next u ∧ u.life.mode = .reset ∧ u.life.restartCause = 6 ∧ u.hw = t.hw)) ∧
  (∀ (dt : Nat) (e : StartEnv) (s : State) (k : Nat),
     let t := s.tick dt
     t.life.mode = .zeroising → t.pins.zeroiseN = true → t.pins.resetN = true → t.life.jtagDrives = false → t.pins.zeroiseLatch = false →
       (t.crypto.zeroising = some .retire → ∃ u : State, exec (.zeroisationEnd dt e) s = .next u ∧ u.life.lcs = .retired ∧
         u.life.mode = .retired ∧ (u.mb 0).isOpen = true ∧ u.hw.kcfg = none) ∧
       (t.crypto.zeroising = some (.tamperA k) → t.life.lcs ≠ .retired → ∃ u : State, exec (.zeroisationEnd dt e) s = .next u ∧
         u.life.mode = .secError ∧ u.life.secCause = 0x10 ∧ u.life.lcs = t.life.lcs ∧ u.hw.kcfg = none ∧ (u.mb 0).isOpen = true)) ∧
  (∀ (dt : Nat) (a : SensorA) (b : SensorB) (e : StartEnv) (s : State) (k1 k2 : Nat),
     let t := s.tick dt
     t.life.mode = .operate ∨ t.life.mode = .noConfig ∨ t.life.mode = .provision →
       (∃ u : State, exec (.tamperClassA dt a) s = .next u ∧ u.life.mode = .zeroising ∧ u.crypto.zeroising = some (.tamperA (sensorA a)) ∧
         u.hw.zeroCount = t.hw.zeroCount + 1 ∧
         u.hw.trips = t.hw.trips ++ [{ sensor := sensorA a, sec := t.time.sec, delivered := false }]) ∧
       (t.crypto.tamperB = [] → t.pins.resetN = false → ∃ u : State, exec (.tamperClassB dt b e) s = .next u ∧ u.life.mode = .reset ∧
         u.life.restartCause = 4 ∧ u.crypto.tamperB = [t.clk] ∧ u.hw.zeroCount = t.hw.zeroCount ∧ u.hw.kcfg = t.hw.kcfg ∧
         u.hw.trips = t.hw.trips ++ [{ sensor := sensorB b, sec := t.time.sec, delivered := false }]) ∧
       (t.crypto.tamperB = [k1, k2] → t.clk ≤ k1 + 15000000000 → t.clk ≤ k2 + 15000000000 → t.life.lcs ≠ .retired → ∃ u : State,
         exec (.tamperClassB dt b e) s = .next u ∧ u.life.mode = .secError ∧ u.life.secCause = 0x11 ∧ u.hw.kcfg = t.hw.kcfg ∧
         u.hw.zeroCount = t.hw.zeroCount))

/-- The power-fail instant of a part that runs with Heartwood open, whose PFI_N counts: with the hold-up the coalescing buffer, Tally and a
clean superblock are written, and without it Heartwood stands as it was; either way the part is held, and starts again when PFI_N has been
high for 10 ms and power is good.  A part in zeroisation runs no sequence. -/
def Obligations.PowerFailSequence : Prop :=
  ∀ (dt : Nat) (e : StartEnv) (s : State) (c : FailCause),
    let t := s.tick dt
    (t.life.mode = .operate ∨ t.life.mode = .noConfig ∨ t.life.mode = .provision → t.life.hwOpen = true → t.pfiWired = true →
      (∃ u : State, exec (.powerFail dt c true false) s = .next u ∧ u.life.mode = .pfHeld ∧ u.hw.super.map (fun b => b.clean) = some true ∧
        u.flash = t.flash ∧ u.rtc = t.rtc ∧ u.life.lcs = t.life.lcs) ∧
      (∃ u : State, exec (.powerFail dt c false true) s = .next u ∧ u.life.mode = .unpowered ∧ u.hw = t.hw ∧ u.flash = t.flash)) ∧
    (t.life.mode = .pfHeld → exec (.pfiNHigh dt e) s = .next (State.start { t with pins := { t.pins with pfiN := true } } e)) ∧
    (t.life.mode = .operate → exec (.pfiNHigh dt e) s = .next { t with pins := { t.pins with pfiN := true } })

/-- Main supply and VBAT lost: every RTC field is zero but osf; flash, fuses and Heartwood stay.

A JTAG instruction that drives balls holds a part that runs as in reset, and the TAP's reset starts it; one that does not, changes
nothing but the register it selects, the identity code with the part code in bits 27 to 12 where the instruction is IDCODE. -/
def Obligations.AonResetAndJtag : Prop :=
  (∀ (dt : Nat) (s : State), ∃ u : State, exec (.aonReset dt) s = .next u ∧ u.rtc.sec = 0 ∧ u.rtc.osf = true ∧ u.rtc.countdown = 0 ∧
     u.rtc.offset = 0 ∧ u.rtc.trim = 0 ∧ u.rtc.vbatLow = false ∧ u.rtc.cdExpired = false ∧ u.rtc.summer = false ∧
     u.life.restartCause = 0 ∧ u.life.secCause = 0 ∧
     u.hw = (s.tick dt).hw ∧ u.flash = (s.tick dt).flash ∧ u.life.lcs = (s.tick dt).life.lcs ∧ u.life.mode = .unpowered) ∧
  (∀ (dt : Nat) (j : JtagInstr) (e : StartEnv) (s : State),
     let t := s.tick dt
     (j = .bypass ∨ j = .samplePreload → exec (.jtagInstructionUpdate dt j) s = .next { t with life := { t.life with idReg := none } }) ∧
     (exec (.jtagInstructionUpdate dt .idcode) s = .next { t with life := { t.life with idReg := some t.idCode } } ∧
       t.idCode.toNat / 4096 % 65536 = (if t.id.variant = .epb7248 then 0x7248 else 0x7224)) ∧
     (j ≠ .bypass → j ≠ .idcode → j ≠ .samplePreload → t.life.mode = .operate → ∃ u : State, exec (.jtagInstructionUpdate dt j) s = .next u ∧
       u.life.mode = .jtagHold ∧ u.life.jtagDrives = true ∧ u.hw = t.hw ∧ u.flash = t.flash) ∧
     (t.life.mode = .jtagHold → exec (.testLogicReset dt e) s =
       .next (State.start { t with life := { t.life with jtagDrives := false } } e)))

/-! ## The backhaul (chapter 14) -/

/-- BACKHAUL-STATUS answers both ports' state and the supervision sources; BACKHAUL-SPEED of a speed the port's mode offers begins a change of
the port where R411 lets it, is answered S_OK at its end where the port has that speed already, and is refused elsewhere. -/
def Obligations.BackhaulCommands : Prop :=
  ∀ (dt : Nat) (m : Mbox) (s : State) (r : Request),
    let t := (s.tick dt).afterReq m
    let p : Port := if beField r.payload 0 1 = 0 then .p0 else .p1
    let v := beField r.payload 1 1
    ((s.tick dt).runsLen m 0x0701 0 r → exec (.backhaulStatus dt m) s = .next (t.respond m r sOk (t.portView .p0 ++ t.portView .p1 ++
        toBe 1 t.back.sources.length ++ t.back.sources.flatMap fun x =>
          toBe 6 x.source.toNat ++ toBe 4 (t.heardMs x.p0) ++ toBe 4 (t.heardMs x.p1)))) ∧
    ((s.tick dt).runsLen m 0x0702 2 r → beField r.payload 0 1 ≤ 1 → t.speedOffered p v = true →
      (v = (t.port p).speed → exec (.backhaulSpeed dt m) s = .next (t.begin m r [] sOk [])) ∧
      (v ≠ (t.port p).speed → (t.port p).up = true → t.mayChange p = true → (t.port p).noStepDown = false ∨ v ≤ (t.port p).speed → ∃ u : State,
        exec (.backhaulSpeed dt m) s = .next u ∧ (u.port p).change = some { source := (t.port p).speed, target := v, start := t.clk, returning := false } ∧
          u.port (otherPort p) = t.port (otherPort p) ∧ (∃ b, (u.mb m).busy = some b ∧ b.req = r ∧ b.cls = .long)) ∧
      (v ≠ (t.port p).speed → (t.port p).up = false ∨ t.mayChange p = false ∨ (t.port p).speed < v ∧ (t.port p).noStepDown = true → exec (.backhaulSpeed dt m) s = .next (t.respond m r sRefused []))) ∧
    ((s.tick dt).runsLen m 0x0702 2 r → 1 < beField r.payload 0 1 ∨ t.speedOffered p v = false →
      exec (.backhaulSpeed dt m) s = .next (t.respond m r sRange []))

/-- A received frame: what the filter does not accept takes no cell; the frame whose cells are held is discarded and its cells returned, with
one count, where it is shorter than 64 octets, longer than 1 528 or has a bad FCS; the 1 529th octet discards at once; a cell asked for and
refused rewinds the frame.

A good IPv6 frame is committed to the tail of Q387 with its arrival timestamp; of two copies with one source and SequenceNr within the
hold the second is discarded and counted, on whichever port it comes, and no entry leaves the table but by age or by the table's limit. -/
def Obligations.EthernetReceptionAndDuplicates : Prop :=
  (∀ (dt : Nat) (p : Port) (f : EthFrame) (h : EthHdr) (s v : State),
     let t := s.tick dt
     let x := t.port p
     (t.portsRun = false ∨ x.up = false ∨ x.rxIgnore = true → exec (.backhaulCellRequest dt p h) s = .next t) ∧
     (t.portsRun = false ∨ x.up = false → exec (.backhaulFrameEnd dt p f) s = .next t) ∧
     (t.portsRun = true → x.up = true → x.rxIgnore = true → exec (.backhaulFrameEnd dt p f) s =
       .next (t.setPort p { x with rxIgnore := false, rxCells := 0, rxChain := [] })) ∧
     (t.portsRun = true → x.up = true → x.rxIgnore = false →
       (t.ethAccepted f.hdr = false → exec (.backhaulFrameEnd dt p f) s = .next ((t.rewindPort p false).count .rxEthFiltered (.port (portCode p)))) ∧
       (x.rxCells = 0 → t.ethAccepted h = false → exec (.backhaulCellRequest dt p h) s =
         .next ((t.rewindPort p true).count .rxEthFiltered (.port (portCode p)))) ∧
       (x.rxCells ≠ 0 ∨ t.ethAccepted h = true → t.grant q387 1 = some v → ∃ u : State, exec (.backhaulCellRequest dt p h) s = .next u ∧
         (u.port p).rxCells = (v.port p).rxCells + 1 ∧ (u.port p).rxChain = (v.port p).rxChain ++ v.drawCells 1 [] ∧ u.queues = v.picked.queues) ∧
       (x.rxCells ≠ 0 ∨ t.ethAccepted h = true → t.grant q387 1 = none → exec (.backhaulCellRequest dt p h) s =
         .next ((t.rewindPort p true).count .cellsExhaustedEth (.port (portCode p)))) ∧
       (exec (.rxOversize dt p) s = .next ((t.rewindPort p true).count .rxOversize (.port (portCode p)))) ∧
       (t.ethAccepted f.hdr = true → cellsOf (16 + (f.size - 4)) ≤ x.rxCells →
         (f.size ≤ 63 → exec (.backhaulFrameEnd dt p f) s = .next ((t.rewindPort p false).count .rxRunt (.port (portCode p)))) ∧
         (1529 ≤ f.size → exec (.backhaulFrameEnd dt p f) s = .next ((t.rewindPort p false).count .rxOversize (.port (portCode p)))) ∧
         (63 < f.size → f.size < 1529 → f.fcsOk = false →
           exec (.backhaulFrameEnd dt p f) s = .next ((t.rewindPort p false).count .rxFcsEth (.port (portCode p))))))) ∧
  (∀ (dt : Nat) (p : Port) (f : EthFrame) (s : State) (g : PrpTrailer) (src dst : BitVec 128) (tc : BitVec 8) (n : Nat) (o : Octets),
     let t := s.tick dt
     let x := t.port p
     let key := orderKey 387 0
     let arrival := t.arrivalOf p f.size
     let live := t.back.dups.filter fun e => !decide (e.arrival + 400000000 < arrival)
     let right : BitVec 4 := if p = .p0 then 0xA else 0xB
     t.portsRun = true → x.up = true → x.rxIgnore = false → t.ethAccepted f.hdr = true → 64 ≤ f.size → f.size ≤ 1528 → f.fcsOk = true →
       cellsOf (16 + (f.size - 4)) ≤ x.rxCells → f.payload = .ipv6 src dst tc none n o → f.trailer = some g → g.sizeOk = true →
       g.lanId = right →
       ((live.any fun e => e.source == f.hdr.srcMac && e.seq == g.seq) = false → live.length < 2048 → ∃ (u : State) (k : Packet),
         exec (.backhaulFrameEnd dt p f) s = .next u ∧ u.order key = t.order key ++ [k] ∧ k.commit = arrival ∧
           k.content = .eth (portCode p) f arrival ∧
           u.back.dups = live ++ [{ source := f.hdr.srcMac, seq := g.seq, port := portCode p, arrival := arrival, twin := false }]) ∧
       ((live.any fun e => e.source == f.hdr.srcMac && e.seq == g.seq) = true → ∃ u : State,
         exec (.backhaulFrameEnd dt p f) s = .next u ∧ u.order key = t.order key ∧ u.back.dups.length = live.length ∧
           u.counter .prpDupDiscard (.port (portCode p)) = t.counter .prpDupDiscard (.port (portCode p)) + 1))

/-- PAUSE frames, while they are honoured: a pause of q quanta of 512 bit times begins, or begins again without breaking an unbroken pause's
count; its end lets the port send; the watchdog breaks one of pause_wd_ms.

A load measurement notes each port's load and counts the seconds below the step-down threshold; a path window, once 500 ms have passed,
starts the counts of the next; an idle transmitter that may signal low-power idle does. -/
def Obligations.PauseLoadAndIdle : Prop :=
  (∀ (dt : Nat) (p : Port) (f : EthFrame) (s : State) (q : BitVec 16) (e : Nat),
     let t := s.tick dt
     let x := t.port p
     let wait := octetTicks x.speed (64 * q.toNat)
     (t.portsRun = true → x.up = true → x.rxIgnore = false → t.ethAccepted f.hdr = true → 64 ≤ f.size → f.size ≤ 1528 → f.fcsOk = true →
       cellsOf (16 + (f.size - 4)) ≤ x.rxCells → f.payload = .macControl 1 q → bitOf t.bhFlags 1 = true → x.pauseIgnored = none →
       ∃ u : State, exec (.backhaulFrameEnd dt p f) s = .next u ∧ u.order (orderKey 387 0) = t.order (orderKey 387 0) ∧
         (u.port p).rxCells = 0 ∧
         (q ≠ 0 → (u.port p).pauseEnd = some (t.clk + wait) ∧ (u.port p).pauseStart = (if t.paused p then x.pauseStart else t.clk)) ∧
         (q = 0 → (u.port p).pauseEnd = none)) ∧
     (x.pauseEnd = some e → e ≤ t.clk → ∃ u : State, exec (.pauseEnd dt p) s = .next u ∧ (u.port p).pauseEnd = none) ∧
     (x.pauseEnd = none ∨ x.pauseEnd = some e ∧ t.clk < e → exec (.pauseEnd dt p) s = .next t) ∧
     (t.paused p = false → exec (.pauseWatchdog dt p) s = .next t) ∧
     (x.pauseEnd = some e → e ≤ t.clk → t.back.sending = [] → exec (.pauseEnd dt p) s = .next (t.setPort p { x with pauseEnd := none })) ∧
     (t.paused p = true → x.pauseStart + 250000 * t.pauseWdMs ≤ t.clk → ∃ u : State, exec (.pauseWatchdog dt p) s = .next u ∧
       (u.port p).pauseEnd = none ∧ (u.port p).pauseIgnored = some t.clk ∧ u.paused p = false)) ∧
  (∀ (dt : Nat) (p : Port) (rx tx rx1 tx1 : Nat) (s : State),
     let t := s.tick dt
     (t.portsRun = true → ∃ u : State, exec (.loadMeasure dt rx tx rx1 tx1) s = .next u ∧ (u.port .p0).load = max rx tx * 8 / 1000 ∧
       (u.port .p1).load = max rx1 tx1 * 8 / 1000 ∧ u.queues = t.queues) ∧
     (t.portsRun = true → t.back.windowClk + 125000000 ≤ t.clk → ∃ u : State, exec (.pathWindow dt) s = .next u ∧ u.back.windowClk = t.clk ∧
       (∀ y, (u.port y).firsts = 0 ∧ (u.port y).missed = 0)) ∧
     (t.usable p = true → t.portMode p = 0 → bitOf t.bhFlags 3 = true → (t.port p).copies = [] → (t.port p).idleClk + 250 * t.lpiIdleUs ≤ t.clk →
       exec (.lpiEntry dt p) s = .next (t.setPort p { t.port p with lpi := true })))

/-- A port that establishes its link comes up no sooner than R537 gives; one that loses its
link loses its copies and the frame it receives and is in path fault.

A speed change ends at its target speed no sooner than 1 ms after its start; one that is not up by step_timeout_ms turns back to its former
speed, and the port takes no further step down. -/
def Obligations.LinksAndSpeeds : Prop :=
  (∀ (dt k : Nat) (p : Port) (bad : Bool) (s : State),
     let t := s.tick dt
     let x := t.port p
     (t.portsRun = false → exec (.linkUp dt p bad) s = .next t ∧ exec (.linkDown dt p) s = .next t) ∧
     (t.portsRun = true →
       (x.beginClk = some k → k + t.linkFloor p ≤ t.clk → x.up = false → x.out = false → x.change = none → t.portMode p = 0 → bad = true →
         exec (.linkUp dt p bad) s = .next (t.count .linkRefused (.port (portCode p)))) ∧
       (x.beginClk = some k → k + t.linkFloor p ≤ t.clk → x.up = false → x.out = false → x.change = none → t.portMode p ≠ 0 ∨ bad = false → ∃ u : State,
         exec (.linkUp dt p bad) s = .next u ∧ u.port p = { x with up := true, settledClk := t.clk, idleClk := t.clk } ∧
           u.port (otherPort p) = t.port (otherPort p)) ∧
       (x.beginClk = some k → t.clk < k + t.linkFloor p → exec (.linkUp dt p bad) s = .next t) ∧
       (x.up = true → x.change = none → ∃ u : State, exec (.linkDown dt p) s = .next u ∧ (u.port p).up = false ∧ (u.port p).copies = [] ∧
         (u.port p).rxCells = 0 ∧ (u.port p).pathFault = true ∧ (x.pathFault = false → (u.port p).faultCause = 0) ∧
         u.port (otherPort p) = t.port (otherPort p)))) ∧
  (∀ (dt : Nat) (p : Port) (s : State) (c : SpeedChange),
     let t := s.tick dt
     let x := t.port p
     x.change = some c →
       (c.start + 250000 ≤ t.clk → ∃ u : State, exec (.speedChangeComplete dt p) s = .next u ∧ (u.port p).speed = c.target ∧
         (u.port p).change = none ∧ (u.port p).up = true ∧ (u.port p).changedClk = some t.clk ∧
         u.counter .speedStep (.port (portCode p)) = t.counter .speedStep (.port (portCode p)) + 1) ∧
       (c.returning = false → c.start + 250000 * t.stepTimeoutMs ≤ t.clk → ∃ u : State, exec (.speedStepTimeout dt p) s = .next u ∧
         (u.port p).change = some { source := c.target, target := c.source, start := t.clk, returning := true } ∧
         (u.port p).noStepDown = true ∧ (u.port p).speed = x.speed) ∧
       (c.returning = true → exec (.speedStepTimeout dt p) s = .next t))

/-- Sending: every frame chosen takes the next SequenceNr and makes a copy for each usable port; a supervision frame goes every 2 s with its
own number; a Delay_Req that waits goes before every queue and takes no SequenceNr; a message queue goes before the upstream queues; Sawmill cuts a send into segments committed together, each within the mtu. -/
def Obligations.BackhaulSending : Prop :=
  ∀ (dt : Nat) (s : State) (g : Msg) (k : Packet) (rest : List Packet) (ev : List (BitVec 32)) (m : Mbox) (p : Port) (more : List (Nat × Msg × List (BitVec 32))),
    let t := s.tick dt
    (t.portsRun = true → t.back.supClk + 500000000 ≤ t.clk → ∃ u : State, exec (.supervisionSend dt) s = .next u ∧
      u.back.supSeq = t.back.supSeq + 1 ∧ u.back.prpSeq = t.back.prpSeq + 1 ∧ u.back.supClk = t.clk) ∧
    (t.portsRun = true → t.egressReady = true → t.expireEgress = t → t.delayReqPort = some p → ∃ u : State, exec (.egressSelect dt) s = .next u ∧
      (u.port p).ptp.due = false ∧ (u.port p).ptp.seq = (t.port p).ptp.seq + 1 ∧ u.queues = t.queues ∧ u.back.prpSeq = t.back.prpSeq) ∧
    (t.portsRun = true → t.egressReady = true → t.expireEgress = t → t.delayReqPort = none → t.msgHead = some (396 + m.val) → t.order (orderKey (396 + m) 0) = k :: rest →
      k.content = .message g ev → ∃ u : State, exec (.egressSelect dt) s = .next u ∧ u.order (orderKey (396 + m) 0) = rest ∧
        u.back.prpSeq = t.back.prpSeq + 1 ∧ u.back.deficit = t.back.deficit) ∧
    (t.portsRun = false ∨ t.egressReady = false → exec (.egressSelect dt) s = .next t) ∧
    (t.portsRun = false ∨ t.clk < t.back.supClk + 500000000 → exec (.supervisionSend dt) s = .next t) ∧
    (t.portsRun = false ∨ t.back.sends = [] → exec (.sawmillSend dt) s = .next t) ∧
    (t.portsRun = true → t.back.sends = (m.val, g, ev) :: more → 64 ≤ t.mtu → t.grant (accountOf (396 + m) 0)
        (((chunks (segmentOctets t.mtu 8) (ceilDiv g.octets.length (segmentOctets t.mtu 8)) g.octets).map fun o =>
          cellsOf (t.msgFrame m (o.length + 8))).foldl (· + ·) 0) = none →
      ∃ u : State, exec (.sawmillSend dt) s = .next u ∧ u.back.sends = more ∧ u.queues = t.queues ∧
        u.counter .usSendRefused .device = t.counter .usSendRefused .device + 1) ∧
    (t.portsRun = true → t.back.sends = (m.val, g, ev) :: more → 64 ≤ t.mtu → ∃ u : State, exec (.sawmillSend dt) s = .next u ∧
      u.back.sends = more ∧ u.back.sendId = t.back.sendId + 1)

/-! ## Time (chapter 7) -/

/-- The master counter: one tick adds the increment to the fraction, carries whole nanoseconds, and carries a second at 1 000 000 000 ns; so
many ticks at one increment are as many such ticks one after the other.  A write of an increment from 3.999 2 ns to 4.000 8 ns is taken at
a Meridian bus update; any other is refused and counted in time_inc_refused, and leaves the increment as it is.  The servo writes none in
HOLDOVER, nor one farther than max_slew_ppm from its frequency estimate. -/
def Obligations.MasterCounter : Prop :=
  (∀ (t : Time) (n : Nat), t.ns.toNat < 1000000000 →
    (let f := t.frac.toNat + t.incFrac.toNat
      let ns := t.ns.toNat + t.incNs.toNat + f / 4294967296
      let carry := decide (1000000000 ≤ ns)
      (t.run 1).frac = BitVec.ofNat 32 f ∧ (t.run 1).ns.toNat = (if carry then ns - 1000000000 else ns) ∧
        (t.run 1).sec = t.sec + (if carry then 1 else 0) ∧ (t.run 1).incNs = t.incNs ∧ (t.run 1).incFrac = t.incFrac) ∧
    t.run (n + 1) = (t.run n).run 1) ∧
  ∀ (dt : Nat) (s : State) (ns : BitVec 3) (frac : BitVec 32),
    let t := s.tick dt
    let v := (ns.toNat * 4294967296 + frac.toNat) * 10000
    let legal := 39992 * 4294967296 ≤ v ∧ v ≤ 40008 * 4294967296
    (t.servoRuns = false ∨ t.time.disc = .holdover ∨ t.slewOk ns frac = false → exec (.incrementWrite dt ns frac) s = .next t) ∧
    (t.servoRuns = true → t.time.disc ≠ .holdover → t.slewOk ns frac = true →
      (legal → ∃ (u : State) (k : Nat), exec (.incrementWrite dt ns frac) s = .next u ∧ u.time = { t.time with pendInc := some (k, ns, frac) } ∧
        k % 1024 = 0 ∧ t.clk < k ∧ k ≤ t.clk + 1024 ∧ u.hw = t.hw ∧ u.tally = t.tally) ∧
      (¬ legal → exec (.incrementWrite dt ns frac) s = .next (t.count .timeIncRefused .device)))

/-- A posted step moves network time by δ at its tick and not before, without touching the RTC's count or the increment; in HOLDOVER the
increment is held; a copy that agrees within 16 ns is no fault.

The discipline: the 16th measurement in a row within lock_ns leads from FREE to LOCKED, the 4th in a row at or above the step threshold
posts a step of −o at a Meridian bus update at least 8.192 µs off; master_loss_ms without a measurement leads from LOCKED to HOLDOVER, which
is told once as degraded after degraded_after_h; a PPS_IN edge within 100 ms of a whole second is taken and any other counted. -/
def Obligations.DisciplineAndSteps : Prop :=
  (∀ (dt : Nat) (s : State) (p : PendStep) (ns : BitVec 3) (frac : BitVec 32) (l : List (Island × Int)),
     let t := s.tick dt
     (t.time.pendStep = some p → p.atClk ≤ t.clk → 0 ≤ (t.netNs : Int) + p.delta → (t.netNs : Int) + p.delta < 2 ^ 64 * 1000000000 →
       ∃ u : State, exec (.timeStep dt) s = .next u ∧ (u.netNs : Int) = t.netNs + p.delta ∧ u.time.frac = t.time.frac ∧
         u.time.pendStep = none ∧ u.time.incNs = t.time.incNs ∧ u.time.incFrac = t.time.incFrac ∧ u.clk = t.clk ∧ u.rtc.sec = t.rtc.sec ∧
         u.hw = t.hw ∧ u.flash = t.flash ∧ u.counter .timeStep .device = t.counter .timeStep .device + 1) ∧
     (t.time.pendStep = some p → t.clk < p.atClk → exec (.timeStep dt) s = .next t) ∧
     (t.time.disc = .holdover → exec (.incrementWrite dt ns frac) s = .next t) ∧
     ((∀ c ∈ l, c.2.natAbs ≤ 16) → exec (.meridianUpdate dt l) s = .next t)) ∧
  (∀ (dt : Nat) (s : State) (p : Port) (o : Int) (m : PtpMaster),
     let t := s.tick dt
     let x := (t.port p).ptp
     let edge := ((t.netNs : Int) - t.ppsComp) - ((t.netNs : Int) - t.ppsComp) % 4
     let r := edge.toNat % 1000000000
     (t.servoRuns = true → t.servoPort = some p → t.usable p = true → x.offset t.asymNs = some o → x.master = some m →
       (t.time.disc = .free → 15 ≤ t.time.goodRun → o.natAbs ≤ t.lockNs → ∃ u : State, exec (.ptpMeasurement dt p) s = .next u ∧
         u.time.disc = .locked ∧ u.time.lastOffset = o ∧ u.time.lastMeas = t.clk ∧ u.time.master = some m.said ∧ u.time.sec = t.time.sec ∧
         u.time.ns = t.time.ns ∧ (u.port p).ptp.answer = none) ∧
       (t.time.disc = .holdover → t.time.bigRun ≠ 3 → ∃ u : State, exec (.ptpMeasurement dt p) s = .next u ∧ u.time.disc = .free ∧
         u.time.lastMeas = t.clk ∧ u.time.pendStep = t.time.pendStep) ∧
       (t.time.bigRun = 3 → t.stepThreshold ≤ (t.phased o).natAbs → ∃ (u : State) (k : Nat), exec (.ptpMeasurement dt p) s = .next u ∧
         u.time.pendStep = some { delta := -t.phased o, atClk := k } ∧ k % 1024 = 0 ∧ t.clk + 2048 ≤ k ∧ k < t.clk + 3072 ∧
         u.time.sec = t.time.sec ∧ u.time.ns = t.time.ns)) ∧
     (t.servoRuns = false ∨ t.servoPort ≠ some p ∨ t.usable p = false ∨ x.offset t.asymNs = none ∨ x.master = none →
       exec (.ptpMeasurement dt p) s = .next t) ∧
     (t.servoRuns = true → t.time.disc = .locked → t.time.lastMeas + 250000 * t.masterLossMs ≤ t.clk → ∃ u : State, exec (.masterLoss dt) s = .next u ∧
       u.time.disc = .holdover ∧ u.time.holdClk = t.clk ∧ u.time.degraded = false ∧ u.time.sec = t.time.sec ∧
       u.counter .ptpMasterLost .device = t.counter .ptpMasterLost .device + 1) ∧
     (t.time.disc ≠ .locked → exec (.masterLoss dt) s = .next t) ∧
     (t.servoRuns = true → t.time.disc = .holdover → t.time.degraded = false → t.time.holdClk + 900000000000 * t.degradedAfterH ≤ t.clk →
       ∃ u : State, exec (.holdoverDegraded dt) s = .next u ∧ u.time = { t.time with degraded := true }) ∧
     (t.time.degraded = true → exec (.holdoverDegraded dt) s = .next t) ∧
     (r ≤ 100000000 ∨ 900000000 ≤ r → exec (.ppsInEdge dt) s = .next { t with time := { t.time with ppsIn := some edge.toNat } }) ∧
     (100000000 < r → r < 900000000 → exec (.ppsInEdge dt) s = .next (t.count .ppsInReject .device)))

/-- The RTC: a second boundary counts one second, runs the countdown down and carries the trim with no rounding, 78 125 units of the
accumulator to one cycle; a leap61 holds the count and a leap59 advances it by 2, with u changed in the same instant; the crystal that
stops holds the count, and resumes from it; a correction from network time leaves the trim within ±2 000 or waits for a whole second. -/
def Obligations.RtcCounts : Prop :=
  ∀ (dt : Nat) (s : State) (m : Master) (began err : Int),
    let t := s.tick dt
    let last := t.rtc.leapHeld = false ∧ (t.rtc.sec.toNat + 1) % 86400 = 0 ∧ t.time.disc = .locked ∧ bitOf t.timeFlags 2 = true ∧ t.time.master = some m ∧ m.ptpTimescale = true
    (t.rtc.stopped = false →
      (t.time.disc ≠ .locked → ∃ u : State, exec (.rtcSecond dt) s = .next u ∧ u.rtc.sec = t.rtc.sec + 1 ∧
        u.rtc.countdown = (if t.rtc.countdown = 0 then 0 else t.rtc.countdown - 1) ∧ (t.rtc.countdown = 1 → u.rtc.cdExpired = true) ∧
        78125 * u.rtc.presc0 + u.rtc.acc = t.rtc.acc + 256 * t.rtc.trim.toInt ∧ u.rtc.acc.natAbs < 78125 ∧ u.rtc.boundary = t.clk ∧
        u.rtc.pendLocal = [] ∧ u.netNs = t.netNs ∧ (t.operating = false ∨ t.life.radioOn = false ∨ t.rtc.trusted = false → u.time = t.time ∧ u.hw = t.hw)) ∧
      (last → m.leap61 = true → ∃ u : State, exec (.rtcSecond dt) s = .next u ∧ u.rtc.sec = t.rtc.sec ∧ u.utcOffset = t.utcOffset + 1) ∧
      (last → m.leap61 = false → m.leap59 = true → 0 < t.utcOffset → ∃ u : State, exec (.rtcSecond dt) s = .next u ∧
        u.rtc.sec = t.rtc.sec + 2 ∧ u.utcOffset + 1 = t.utcOffset)) ∧
    (t.rtc.stopped = true → exec (.rtcSecond dt) s = .next t) ∧
    (t.servoRuns = true → t.wallDerivable = true → t.rtc.windowNet = some began → 1024 ≤ t.rtc.sinceAdj → t.rtc.stopped = false → ∃ u : State,
      exec (.rtcAdjust dt err) s = .next u ∧ u.rtc.sinceAdj = 0 ∧ u.rtc.sec = t.rtc.sec ∧ u.time = t.time ∧
        (u.rtc.trim = t.rtc.trim ∧ u.rtc.pendWrite.isSome = true ∧ u.counter .rtcStep .device = t.counter .rtcStep .device + 1 ∨
          u.rtc.pendWrite = t.rtc.pendWrite ∧ -2000 ≤ u.rtc.trim.toInt ∧ u.rtc.trim.toInt ≤ 2000)) ∧
    (t.servoRuns = false ∨ t.wallDerivable = false ∨ t.rtc.windowNet = none ∨ t.rtc.sinceAdj < 1024 ∨ t.rtc.stopped = true →
      exec (.rtcAdjust dt err) s = .next t) ∧
    (t.rtc.stopped = false → ∃ u : State, exec (.rtcOscStopped dt) s = .next u ∧ u.rtc.stopped = true ∧ u.rtc.osf = true ∧
      u.rtcCount = t.rtcCount ∧ (t.rtc.osf = false → u.rtc.trusted = false) ∧ u.time = t.time) ∧
    (t.rtc.stopped = true → t.rtc.frozen ≤ 32767 → ∃ u : State, exec (.crystalRestart dt) s = .next u ∧ u.rtc.stopped = false ∧
      u.rtcCount = t.rtcCount ∧ u.rtc.osf = t.rtc.osf ∧ u.rtc.boundary = t.clk)

/-! ## Receive (chapters 4 to 6 and 10) -/

/-- A lane that hunts takes a preamble above the threshold, and a stronger one displaces a weaker; it times out back to its hunt with one
count, fixes port, metric and the timestamp of the SFD in units of 8 ns, and at the PHY header is granted the cells of its whole PSDU or hunts
again with one count. -/
def Obligations.LaneHuntAndHeader : Prop :=
  ∀ (dt : Nat) (l : Lane) (s v : State) (f : Fe) (k d : Nat) (p : Preamble) (n ca cb lv l0 : Nat) (word : BitVec 32) (sync : Bool) (off : Int)
      (a b : PortMetric) (i : RxInfo) (hdr : PhyHeader),
    let t := s.tick dt
    let x := t.laneNow l
    let pipe : Scope := .pipe (feCode f)
    t.laneOn l = some (f, k) →
      (t.hears f = true → leastPreamble p ≤ n → t.portHears f 0 = true ∧ t.detectThr < ca ∨ t.portHears f 1 = true ∧ t.detectThr < cb →
        t.hunts f p false = true ∨ t.hunts f p true = true →
        (x.phase = .hunt → ∃ u : State, exec (.preambleDetected dt l ⟨p, n⟩ ca cb lv) s = .next u ∧
          u.lane l = { x with phase := .detect p lv t.clk } ∧ (∀ j, j ≠ l.val → u.lane j = t.lane j) ∧ u = { t with lanes := u.lanes, fe := u.fe }) ∧
        (x.phase = .detect p l0 d → t.captureDb ≠ 0 → l0 + t.captureDb ≤ lv → ∃ u : State,
          exec (.preambleDetected dt l ⟨p, n⟩ ca cb lv) s = .next u ∧ u.lane l = { x with phase := .detect p lv t.clk } ∧
          u.counter .rxCapture (.lane l) = t.counter .rxCapture (.lane l) + 1)) ∧
      (n < leastPreamble p ∨ t.hears f = false → exec (.preambleDetected dt l ⟨p, n⟩ ca cb lv) s = .next t) ∧
      (x.phase = .detect p lv d →
        (t.searchEnd f p d ≤ t.clk → ∃ u : State, exec (.sfdTimeout dt l) s = .next u ∧ (u.lane l).phase = .hunt ∧
          (u.lane l).assigned = x.assigned ∧ u.counter .rxSfdTimeout (.lane l) = t.counter .rxSfdTimeout (.lane l) + 1 ∧
          u = { t with lanes := u.lanes, dec := u.dec, tally := u.tally }) ∧
        (t.clk < t.searchEnd f p d → exec (.sfdTimeout dt l) s = .next t) ∧
        (t.hears f = true → t.delimiter f p word = some sync → t.hunts f p sync = true → pullsIn (t.freqOf f k) off = true →
          t.clk ≤ t.searchEnd f p d → ∃ (u : State) (y : RxInfo), exec (.sfdFound dt l word off a b) s = .next u ∧
            (u.lane l).phase = .header y ∧ y.fe = feCode f ∧ y.channel = k ∧ y.pre = p ∧ y.sync = sync ∧ y.offset8 = off ∧ y.sfdNs % 8 = 0 ∧
            y.sfdNs ≤ t.netNs ∧ t.netNs < y.sfdNs + 8 ∧ u = { t with lanes := u.lanes } ∧
            (t.portHears f 0 = true → t.portHears f 1 = true →
              y.port = (if portMetric b.s b.e ≤ portMetric a.s a.e then 0 else 1) ∧ y.snr = max (portMetric a.s a.e) (portMetric b.s b.e)) ∧
            (t.portHears f 0 = true → t.portHears f 1 = false → y.port = 0 ∧ y.snr = portMetric a.s a.e) ∧
            (t.portHears f 0 = false → y.port = 1 ∧ y.snr = portMetric b.s b.e)) ∧
        (t.delimiter f p word = none → exec (.sfdFound dt l word off a b) s = .next t)) ∧
      (∀ c, x.phase = .header i → t.checkHeader f i hdr = some (.reject c) → ∃ u : State, exec (.phyHeaderEnd dt l hdr) s = .next u ∧
        (u.lane l).phase = .hunt ∧ u.counter c pipe = t.counter c pipe + 1 ∧ u = { t with lanes := u.lanes, dec := u.dec, tally := u.tally }) ∧
      (∀ mode rate cw pil fcs dw len, x.phase = .header i → t.checkHeader f i hdr = some (.frame mode rate cw pil fcs dw len) →
        let e := t.netNs + afterSfd { mode := mode, rate := rate, cwlen := cw, pilots := pil, preamble := 0, hsUnits := 0, onH := f = .h } len * 1000 -
          (t.clk - i.sfdClk) * 4
        (4 ≤ mode → t.noDecoder = true → ∃ u : State, exec (.phyHeaderEnd dt l hdr) s = .next u ∧ (u.lane l).phase = .hunt ∧
          u.counter .rxNoDecoder pipe = t.counter .rxNoDecoder pipe + 1 ∧ u.queues = t.queues) ∧
        (mode < 4 ∨ t.noDecoder = false → t.grant (rxAcct (feCode f)) (cellsOf (16 + len)) = some v →
          ((∀ o, t.blankSoon f = some o → e ≤ o) → ∃ (u : State) (h : RxHdr), exec (.phyHeaderEnd dt l hdr) s = .next u ∧
            (u.lane l).phase = .frame i h ∧ h.mode = mode ∧ h.length = len ∧ h.whitening = dw ∧ h.cells = cellsOf (16 + len) ∧
            h.chain = v.drawCells h.cells [] ∧ h.endNs = e ∧ h.received = 0 ∧ h.decoded = 0 ∧ h.ldpcBad = false ∧
            u.queues = v.picked.queues ∧ u.tally = t.tally) ∧
          (∀ o, t.blankSoon f = some o → o < e → ∃ u : State, exec (.phyHeaderEnd dt l hdr) s = .next u ∧ (u.lane l).phase = .hunt ∧
            u.queues = t.queues ∧ u.counter .rxCutTx (.lane l) = t.counter .rxCutTx (.lane l) + 1)) ∧
        (mode < 4 ∨ t.noDecoder = false → t.grant (rxAcct (feCode f)) (cellsOf (16 + len)) = none → ∃ u : State,
          exec (.phyHeaderEnd dt l hdr) s = .next u ∧ (u.lane l).phase = .hunt ∧ u.queues = t.queues ∧
          u.counter .cellsExhaustedAir pipe = t.counter .cellsExhaustedAir pipe + 1))

/-- Codewords go to idle cores in the order they are ready, those of one tick in ascending lane order; a frame whose FCS fails, or one of whose
codewords does, returns its cells with one count; one for the part that is no duplicate is committed, with its cells, to the tail of its
pipeline's queue, and a duplicate is discarded and counted; an ACK is owed where the frame control asks for it, and no more once the
destination turns out to be another's. -/
def Obligations.CodewordsAndFrames : Prop :=
  ∀ (dt : Nat) (l : Lane) (s : State) (fe : Fe) (i : RxInfo) (h : RxHdr) (rest : List (RxInfo × RxHdr)) (core : Fin 4) (it : Nat)
      (word : BitVec 2048) (w : ReadyCw) (f : AirFrame) (fc : FrameCtl) (pan : Option (BitVec 16)) (dst : Addr) (c : Nat),
    let t := s.tick dt
    let x := t.laneNow l
    let pipe : Scope := .pipe (feCode fe)
    let acct := rxAcct (feCode fe)
    let key := orderKey (384 + feCode fe) 0
    let g := { f with psdu := rxPsdu h f }
    let zero := zeroSyndrome h.rate (helecN w.long / 64) (wordBlocks (helecN w.long / 64) word.toNat)
    (x.frames = [(i, h)] → h.received < h.codewords → ∃ u : State, exec (.codewordReady dt l) s = .next u ∧
      (u.lane l).frames = [(i, { h with received := h.received + 1 })] ∧ u = { t with lanes := u.lanes, dec := u.dec } ∧
      (t.dec.ready = [] → (∀ p ∈ t.dec.busy, p.2.clk ≠ t.clk) → t.dec.idle = some c →
        u.dec.busy.get c = some { clk := t.clk, lane := l, long := h.cwlen, index := h.received } ∧ u.dec.ready = []) ∧
      ((∀ p ∈ t.dec.busy, p.2.clk ≠ t.clk) → t.dec.idle = none → u.dec.busy = t.dec.busy ∧
        u.dec.ready = t.dec.ready ++ [{ clk := t.clk, lane := l, long := h.cwlen, index := h.received }])) ∧
    ((∀ p ∈ x.frames, p.2.codewords ≤ p.2.received) → exec (.codewordReady dt l) s = .next t) ∧
    (t.dec.busy.get core = some w → w.lane = l.val → x.frames = [(i, h)] → h.decoded < h.received → ∃ u : State,
      exec (.codewordDecoded dt core it word) s = .next u ∧
      (u.lane l).frames = [(i, { h with
        decoded := h.decoded + 1
        ldpcBad := h.ldpcBad || !zero
        iterations := max h.iterations (if zero then min it t.ldpcMaxIter else t.ldpcMaxIter)
        info := h.info ++ [(w.index, word.toNat % 2 ^ helecK h.rate h.cwlen)] })] ∧
      u = { t with lanes := u.lanes, dec := u.dec }) ∧
    (t.dec.busy.get core = none → exec (.codewordDecoded dt core it word) s = .next t) ∧
    (x.frames = (i, h) :: rest → feOf i.fe = some fe → h.endNs ≤ t.netNs → h.codewords ≤ h.decoded → (t.feSt fe).ackWait = none →
      (h.ldpcBad = true ∨ g.psdu.length ≠ h.length ∨ fcsGood h.fcs2 g.psdu = false → ∃ u : State, exec (.frameEnd dt l f) s = .next u ∧
        (u.lane l).frames = rest ∧ u.used acct = t.used acct - h.cells ∧ u.order key = t.order key ∧
        u.counter .rxFcsBad pipe = t.counter .rxFcsBad pipe + 1) ∧
      (h.ldpcBad = false → g.psdu.length = h.length → fcsGood h.fcs2 g.psdu = true → (t.feSt fe).rfTest = none → f.version = 2 → f.ftype ≠ 0 →
        f.ftype ≠ 2 →
        (t.forUs f = false → ∃ u : State, exec (.frameEnd dt l f) s = .next u ∧ (u.lane l).frames = rest ∧ u.order key = t.order key ∧
          u.counter .rxNotForUs pipe = t.counter .rxNotForUs pipe + 1) ∧
        (t.forUs f = true → f.ar = false ∨ (t.feSt fe).attempt = none →
          (t.dupFind f (fcsValue h.fcs2 g.psdu) h.length i.cmpNs = false → ∃ (u : State) (p : Packet) (d : RxDesc),
            exec (.frameEnd dt l f) s = .next u ∧ (u.lane l).frames = rest ∧ u.order key = t.order key ++ [p] ∧ p.acct = acct ∧
            p.cells = h.cells ∧ p.content = .rx d g ∧ d.sfdNs = i.sfdNs ∧ d.endNs = h.endNs ∧ d.length = h.length ∧ d.clk = t.clk) ∧
          (t.dupFind f (fcsValue h.fcs2 g.psdu) h.length i.cmpNs = true → ∃ u : State, exec (.frameEnd dt l f) s = .next u ∧
            (u.lane l).frames = rest ∧ u.order key = t.order key ∧ u.used acct = t.used acct - h.cells ∧ u.table.nodes = t.table.nodes ∧
            u.counter .rxDupDiscard .device = t.counter .rxDupDiscard .device + 1)))) ∧
    (x.frames = (i, h) :: rest → t.netNs < h.endNs ∨ h.decoded < h.codewords → exec (.frameEnd dt l f) s = .next t) ∧
    ((t.lane l).frames.getLast? = some (i, h) → feOf i.fe = some fe → fc.ar = true → fc.version = 2 → fc.ftype = 1 ∨ fc.ftype = 3 →
      h.mode < 4 ∨ 1 ≤ h.decoded ∧ h.ldpcBad = false → (t.feSt fe).rfTest = none →
      ∃ u : State, exec (.ackOwed dt l fc) s = .next u ∧ u.lane l = { t.lane l with ackOwed := true }) ∧
    (fc.ar = false ∨ fc.version ≠ 2 ∨ fc.ftype ≠ 1 ∧ fc.ftype ≠ 3 → exec (.ackOwed dt l fc) s = .next t) ∧
    ((t.lane l).ackOwed = true → t.ownDest pan dst = false →
      exec (.destinationAddressReceived dt l pan dst) s = .next (t.setLane l { t.lane l with ackOwed := false })) ∧
    ((t.lane l).ackOwed = false ∨ t.ownDest pan dst = true → exec (.destinationAddressReceived dt l pan dst) s = .next t)

/-- Lanes: a change of assignment takes effect on a lane that hunts and is under no test, and wakes a front end that sleeps; a faulty lane is
mapped out with its channel taken from it and one count; a known-answer test of an unassigned lane is noted, or maps the lane out; a domain
powers down once no lane of it holds a frame, and its lanes return as they were at the start, each that passes its test. -/
def Obligations.LanesAndDomains : Prop :=
  ∀ (dt : Nat) (l : Lane) (d : LaneDom) (s : State) (f : Fe) (k n : Nat) (cause : LaneFaultCause)
      (kat : List Bool),
    let t := s.tick dt
    let x := t.laneNow l
    (x.next = some (some (feCode f, k)) → x.phase = .hunt → t.laneTesting l = false →
      (∀ j, j < 48 → j ≠ l.val → (t.lane j).assigned ≠ some (feCode f, k)) →
      (t.laneUsable l = true → ∃ u : State, exec (.laneAssignmentEffect dt l) s = .next u ∧
        (u.lane l).assigned = some (feCode f, k) ∧ (u.lane l).next = none ∧ (u.lane l).phase = .hunt ∧ (u.lane l).done = x.done ∧
        (∀ j, j ≠ l.val → u.lane j = t.lane j) ∧ ((t.feSt f).mode = .sleep → (u.feSt f).mode = .rx) ∧ u.queues = t.queues) ∧
      (t.laneUsable l = false → exec (.laneAssignmentEffect dt l) s = .next (t.setLane l { x with next := none }))) ∧
    (x.next = some none → x.phase = .hunt → t.laneTesting l = false → ∃ u : State, exec (.laneAssignmentEffect dt l) s = .next u ∧
      (u.lane l).assigned = none ∧ (u.lane l).next = none ∧ (∀ j, j ≠ l.val → u.lane j = t.lane j) ∧ u.queues = t.queues) ∧
    (x.next = none ∨ x.phase ≠ .hunt ∨ t.laneTesting l = true → exec (.laneAssignmentEffect dt l) s = .next t) ∧
    (t.laneLive l = true → ∃ u : State, exec (.laneFault dt l cause) s = .next u ∧ (u.lane l).out = true ∧ (u.lane l).assigned = none ∧
      (u.lane l).phase = .hunt ∧ u.counter .laneMappedOut .device = t.counter .laneMappedOut .device + 1 ∧ u.canopy.lanePins.get l = none) ∧
    (t.laneLive l = false → exec (.laneFault dt l cause) s = .next t ∧ exec (.laneKat dt l true) s = .next t) ∧
    (t.laneLive l = true → (t.lane l).assigned = none →
      (∃ u : State, exec (.laneKat dt l true) s = .next u ∧ (u.lane l).katClk = t.clk ∧ (u.lane l).out = false ∧
        ((t.lane l).next = none → (u.lane l).assigned = none)) ∧
      ∃ u : State, exec (.laneKat dt l false) s = .next u ∧ (u.lane l).out = true) ∧
    ((t.dom d).stopping = some n →
      ((∀ j ∈ t.domLanes d, t.laneHolds j = false) ∨ n + 2500000 ≤ t.clk ∧ (∀ j ∈ t.domLanes d, (t.laneNow j).done = []) → ∃ u : State,
        exec (.laneDomainPowerDown dt d) s = .next u ∧ (u.dom d).powered = !t.full ∧ (u.dom d).stopping = none ∧
        ∀ j ∈ t.domLanes d, (u.lane j).assigned = none ∧ (u.lane j).phase = .hunt ∧ (u.lane j).out = (t.lane j).out) ∧
      ((∃ j ∈ t.domLanes d, t.laneHolds j = true) → t.clk < n + 2500000 → exec (.laneDomainPowerDown dt d) s = .next t)) ∧
    ((t.dom d).returning = true → ∃ u : State, exec (.laneReturn dt d kat) s = .next u ∧ u.dom d = { powered := true } ∧
      ∀ j ∈ t.domLanes d, (t.lane j).out = false → j < t.laneCount → (u.lane j).out = !kat.getD (j % t.halfLanes) true) ∧
    ((t.dom d).returning = false → exec (.laneReturn dt d kat) s = .next t) ∧
    ((t.dom d).returning = true → ∃ u : State, exec (.laneReturn dt d (List.replicate 24 true)) s = .next u ∧
      ∀ j ∈ t.domLanes d, (t.lane j).out = false → j < t.laneCount → u.lane j = { t.lane j with katClk := t.clk })

/-! ## Transmit (chapters 3 and 6) -/

/-- A transmit request is accepted where its start can be met, and refused with one count where it cannot or where one is held already; at its
commit what will stand on the air is fixed, and the frames that receive would end after its switch are cut; at its end the front end leaves TX
with the gain reached stored; an overpower abort
ends it at once, and the third within 1 s makes the front end faulty. -/
def Obligations.CourseOfATransmission : Prop :=
  ∀ (dt : Nat) (f : Fe) (s : State) (temp excess : Int) (samples : List Int) (det : DetReading) (q : TxReq) (rest : List TxReq) (a b : Nat),
    let t := s.tick dt
    let x := t.feSt f
    let v := t.setFe f { x with posted := rest, temp := temp }
    let sc : Scope := .fe (feCode f)
    let able := t.feMode f ≠ .off ∧ t.portFitted f q.port = true ∧ q.channel < t.channels f
    (t.radio = true → x.posted = q :: rest →
      (able → x.held = none → v.ready f q.channel ≤ q.latest → ∃ u : State, exec (.transmitRequest dt f temp) s = .next u ∧
        (u.feSt f).held = some { q with start := max q.target (v.ready f q.channel) } ∧ (u.feSt f).posted = rest ∧
        u.queues = t.queues ∧ u.mac = t.mac ∧ u.lanes = t.lanes) ∧
      (able → x.held = none → q.latest < v.ready f q.channel → ∃ u : State, exec (.transmitRequest dt f temp) s = .next u ∧
        (u.feSt f).held = none ∧ u.counter .feTxLate sc = t.counter .feTxLate sc + 1) ∧
      (¬ able ∨ x.held ≠ none → ∃ u : State, exec (.transmitRequest dt f temp) s = .next u ∧
        u.counter .feTxRefused sc = t.counter .feTxRefused sc + 1)) ∧
    (t.radio = false ∨ x.posted = [] → exec (.transmitRequest dt f temp) s = .next t) ∧
    (x.held = some q → x.cur = none → t.decided f q = true → t.commitOf f q.start ≤ t.netNs →
      (t.guardedStart f q = q.start → ∃ (u : State) (body : TxBody) (psdu : Octets), exec (.transmissionCommit dt f) s = .next u ∧
        (u.feSt f).cur = some { q with body := body, psdu := psdu } ∧ (u.feSt f).held = none ∧ (u.feSt f).mode = .tx ∧
        (u.feSt f).parked = some q.channel ∧ (u.feSt f).wave = some (t.waveFor f (t.atCommit f q)) ∧
        ((∀ c e, q.body ≠ .beacon c e) → body = q.body ∧ psdu = q.psdu) ∧
        (∀ l ∈ t.lanesOn f, ∀ e, t.frameEndOf l = some e → t.switchOff f q.start < e → (u.lane l).phase = .hunt) ∧
        (t.switchOff f q.start ≤ t.netNs → u.blanked f = true)) ∧
      (q.start < t.guardedStart f q → exec (.transmissionCommit dt f) s =
        .next (t.setFe f { x with held := some { q with start := t.guardedStart f q } }))) ∧
    (x.held = none ∨ x.cur ≠ none → exec (.transmissionCommit dt f) s = .next t) ∧
    (x.held = some q → t.decided f q = false ∨ t.netNs < t.commitOf f q.start → exec (.transmissionCommit dt f) s = .next t) ∧
    (x.cur = some q → q.start + q.air * 1000 ≤ t.netNs → ∃ u : State, exec (.transmissionEnd dt f samples det) s = .next u ∧
      (u.feSt f).cur = none ∧ (u.feSt f).wave = none ∧ (u.feSt f).mode = .leaving ∧ (u.feSt f).lastEnd = q.start + q.air * 1000 ∧
      (q.port, q.power, t.endGain f q samples) ∈ (u.feSt f).gains ∧ (∀ l dst n pend, q.body = .ack l dst n pend → (u.lane l).ackOwed = false)) ∧
    (x.cur = some q → t.netNs < q.start + q.air * 1000 → exec (.transmissionEnd dt f samples det) s = .next t) ∧
    (x.cur = some q → 12 < excess →
      ((x.overpowers.filter fun k => decide (t.clk < k + 250000000)).length < 2 → ∃ u : State, exec (.overpowerAbort dt f excess) s = .next u ∧
        (u.feSt f).cur = none ∧ (u.feSt f).mode = .leaving ∧ (u.feSt f).lastEnd = t.netNs ∧
        u.counter .feOverpowerAbort sc = t.counter .feOverpowerAbort sc + 1) ∧
      (x.overpowers = [a, b] → t.clk < a + 250000000 → t.clk < b + 250000000 → x.faulty = false → ∃ u : State,
        exec (.overpowerAbort dt f excess) s = .next u ∧ (u.feSt f).faulty = true ∧ (u.feSt f).mode = .off ∧ (u.feSt f).cur = none)) ∧
    (excess ≤ 12 ∨ x.cur = none → exec (.overpowerAbort dt f excess) s = .next t)

/-- Calibrations and sleep: a background calibration takes 36 µs and is counted, and its end enters the channel at the temperature read; lost
lock blanks receive for 46 µs a calibration and turns tracking on for 10 s, and three failures make the front end faulty; a temperature
change past temp_recal calibrates the receive synthesiser, at once where no lane holds a frame and after 50 ms regardless; a front end with
no lane on it sleeps, and wakes to RX with both synthesisers calibrated. -/
def Obligations.CalibrationsAndSleep : Prop :=
  ∀ (dt : Nat) (f : Fe) (s : State) (temp : Int) (k e failed : Nat) (rest : List Nat) (c : CalEntry),
    let t := s.tick dt
    let x := t.feSt f
    let sc : Scope := .fe (feCode f)
    let idle := (t.feMode f = .rx ∨ t.feMode f = .synthOn) ∧ x.posted = [] ∧ x.held = none ∧ x.cur = none ∧ x.cal = none
    (idle → x.pass = k :: rest →
      exec (.backgroundCalibration dt f temp) s = .next ((t.setFe f { x with temp := temp, cal := some (k, t.clk + 9000) }).count .feCal sc)) ∧
    (idle → x.pass = [] → staleEntry (x.table.filter fun y => decide (t.tempRecal f < tempDiff y.temp temp)) = some c →
      exec (.backgroundCalibration dt f temp) s = .next ((t.setFe f { x with temp := temp, cal := some (c.channel, t.clk + 9000) }).count .feCal sc)) ∧
    (idle → x.pass = [] → staleEntry (x.table.filter fun y => decide (t.tempRecal f < tempDiff y.temp temp)) = none →
      exec (.backgroundCalibration dt f temp) s = .next (t.setFe f { x with temp := temp })) ∧
    (¬ idle → exec (.backgroundCalibration dt f temp) s = .next t) ∧
    (x.cal = some (k, e) → e ≤ t.clk → k < t.channels f → ∃ u : State, exec (.calibrationComplete dt f temp) s = .next u ∧
      (∃ c ∈ (u.feSt f).table, c.channel = k ∧ c.temp = temp) ∧ k ∉ (u.feSt f).pass ∧
      (x.held = none → (u.feSt f).cal = none ∧ (u.feSt f).parked = some k)) ∧
    (x.cal = some (k, e) → e ≤ t.clk → t.channels f ≤ k → x.held = none → ∃ u : State, exec (.calibrationComplete dt f temp) s = .next u ∧
      (u.feSt f).table = x.table ∧ (u.feSt f).pass = x.pass ∧ (u.feSt f).cal = none ∧ (u.feSt f).parked = none) ∧
    (x.rxCal = some e → e ≤ t.clk → ∃ u : State, exec (.calibrationComplete dt f temp) s = .next u ∧ (u.feSt f).rxCal = none ∧
      (u.feSt f).rxTemp = temp) ∧
    (t.radio = true → t.feMode f ≠ .off → t.feMode f ≠ .sleep → t.feMode f ≠ .standby → ∃ u : State, exec (.feLockLost dt f failed) s = .next u ∧
      u.counter .feLockLost sc = t.counter .feLockLost sc + 1 ∧
      (failed ≤ 2 → (u.feSt f).rxCal = some (t.clk + (failed + 1) * 11500) ∧
        (u.feSt f).trackUntil = t.clk + (failed + 1) * 11500 + 2500000000) ∧
      (3 ≤ failed → (u.feSt f).faulty = true)) ∧
    (t.radio = false ∨ t.feMode f = .off ∨ t.feMode f = .sleep ∨ t.feMode f = .standby → exec (.feLockLost dt f failed) s = .next t) ∧
    (t.radio = true → t.feMode f = .rx ∨ t.feMode f = .tx ∨ t.feMode f = .leaving → x.rxCal = none →
      (t.tempRecal f < tempDiff x.rxTemp temp →
        (∀ l ∈ t.lanesOn f, t.frameEndOf l = none) ∨ x.rxDue = some e ∧ e + 12500000 ≤ t.clk → ∃ u : State,
          exec (.rxSynthCalibration dt f temp) s = .next u ∧ (u.feSt f).rxCal = some (t.clk + 11500) ∧
          u.counter .feCal sc = t.counter .feCal sc + 1 ∧ ∀ l ∈ t.lanesOn f, (u.lane l).phase = .hunt ∨ u.lane l = t.lane l) ∧
      (t.tempRecal f < tempDiff x.rxTemp temp → (∃ l ∈ t.lanesOn f, t.frameEndOf l ≠ none) → x.rxDue = none →
        exec (.rxSynthCalibration dt f temp) s = .next (t.setFe f { x with rxDue := some t.clk })) ∧
      (tempDiff x.rxTemp temp ≤ t.tempRecal f → exec (.rxSynthCalibration dt f temp) s = .next (t.setFe f { x with rxDue := none }))) ∧
    (t.radio = true → t.sleepAfterMs f ≠ 0 → t.feMode f = .rx → t.lanesOn f = [] → x.posted = [] → x.held = none → x.cal = none →
      x.idleSince + 250000 * t.sleepAfterMs f ≤ t.clk → exec (.feSleep dt f) s = .next (t.setFe f { x with mode := .sleep, parked := none })) ∧
    (t.sleepAfterMs f = 0 ∨ t.lanesOn f ≠ [] ∨ t.clk < x.idleSince + 250000 * t.sleepAfterMs f → exec (.feSleep dt f) s = .next t) ∧
    (t.radio = true → x.mode = .sleep → ∃ u : State, exec (.feWake dt f) s = .next u ∧ (u.feSt f).mode = .rx ∧ (u.feSt f).idleSince = t.clk ∧
      (u.feSt f).rxTemp = x.temp ∧ u.counter .feCal sc = t.counter .feCal sc + 2) ∧
    (t.radio = true → x.mode = .synthOn → x.held = none → x.cal = none →
      exec (.feWake dt f) s = .next (t.setFe f { x with mode := .rx, idleSince := t.clk })) ∧
    (t.radio = false ∨ x.mode ≠ .sleep ∧ x.mode ≠ .synthOn → exec (.feWake dt f) s = .next t)

/-- Channel access: the frame chosen begins an attempt with no back-off behind it; at the end of the back-off an admitted request is posted for
the end of sensing; sensing that ends clear lets it go, and busy sensing sends it back to a longer back-off with its request withdrawn; an
ACK that does not come by its deadline puts the frame in the retry set, or loses it with one count after the last attempt.

Continuations end at their instant and the others stay; a neighbour whose third expected window passes without a beacon, on a channel that
is watched through it, lapses with one count, and one heard within its window has missed none. -/
def Obligations.AccessAndNeighbours : Prop :=
  (∀ (dt : Nat) (f : Fe) (s : State) (c : Cand) (a : Attempt) (w : AckWait) (power : Int) (met : Bool),
     let t := s.tick dt
     let x := t.feSt f
     let target := t.netNs + t.senseUs a.sub * 1000
     (t.radio = true → t.feMode f ≠ .off → x.attempt = none → x.ackWait = none → x.rfTest = none → x.beacon = none → t.isl.step < 3 →
       t.contention f t.netNs = false → (t.prepare f).choose f = some c → (t.prepare f).refusal f c.retry.frame c.channel = none →
       ∃ (u : State) (b : Attempt), exec (.frameSelect dt f) s = .next u ∧ (u.feSt f).attempt = some b ∧ b.body = .frame c.retry ∧
         b.phase = .backoff ∧ b.nb = 0 ∧ c.channel = some b.channel ∧ b.bound = some c.bound ∧ b.admitted = none) ∧
     (x.attempt ≠ none ∨ x.ackWait ≠ none → exec (.frameSelect dt f) s = .next t) ∧
     (t.radio = true → t.feMode f ≠ .off → x.attempt = none → x.ackWait = none →
       (∀ y, x.rfTest = some y → y.mode = 2 ∨ 3 ≤ t.isl.step → exec (.frameSelect dt f) s = .next t) ∧
       (∀ y i, x.rfTest = some y → y.mode ≠ 2 → t.isl.step < 3 → t.subBand f y.channel = some i → ∃ (u : State) (b : Attempt),
         exec (.frameSelect dt f) s = .next u ∧ (u.feSt f).attempt = some b ∧ b.body = .test ∧ b.channel = y.channel ∧ b.phase = .backoff) ∧
       (∀ close z, x.rfTest = none → x.beacon = some close → t.beaconEntry f t.netNs = some z → ∃ u : State,
         exec (.frameSelect dt f) s = .next u ∧ ((u.feSt f).beacon = none ∨ ∃ b : Attempt, (u.feSt f).attempt = some b ∧ b.body = .beacon close ∧
           b.bound = some close ∧ (x.beaconTries = 0 → b.waitEnd = t.clk)))) ∧
     (x.attempt = some a → a.phase = .backoff → a.waitEnd ≤ t.clk → t.ackOwedOn f = false → t.blanked f = false → t.feMode f ≠ .off →
       (∀ b, a.bound = some b → t.netNs ≤ b) →
       ((∃ k, a.body = .beacon k) ∨ t.contention f t.netNs = false ∧ t.isl.step < 3 ∧ t.laneLacks f a = false → ∃ (u : State) (b : Attempt),
         exec (.backoffExpiry dt f) s = .next u ∧ (u.feSt f).attempt = some b ∧ b.phase = .sensing ∧ b.senseStart = t.netNs ∧ b.body = a.body ∧
         b.nb = a.nb) ∧
       (t.contention f t.netNs = false → t.isl.step < 3 → t.laneLacks f a = false → (∀ k, a.body ≠ .beacon k) →
         t.admits a.sub a.air .other = true → ∃ (u : State) (b : Attempt) (q : TxReq), exec (.backoffExpiry dt f) s = .next u ∧
           (u.feSt f).attempt = some b ∧ (u.feSt f).posted = x.posted ++ [q] ∧ q.target = target ∧
           q.channel = a.channel ∧ q.air = a.air ∧ q.latest ≤ target + 100000 ∧ (∀ b, a.bound = some b → q.latest ≤ b) ∧
           b.refused = t.channelBusy f a.channel)) ∧
     (x.attempt = some a → a.phase = .backoff → t.clk < a.waitEnd → exec (.backoffExpiry dt f) s = .next t) ∧
     (x.attempt = some a → a.phase = .sensing → a.senseStart + t.senseUs a.sub * 1000 ≤ t.netNs →
       (met = false → a.void = false → t.blanked f = false →
         (a.refused = false → power ≤ t.senseThr a.sub →
           exec (.sensingEnd dt f power met) s = .next (t.setFe f { x with attempt := some { a with phase := .sending } })) ∧
         (a.refused = true ∨ t.senseThr a.sub < power → a.nb + 1 ≤ t.maxBackoffs → ∃ (u : State) (b : Attempt),
           exec (.sensingEnd dt f power met) s = .next u ∧ (u.feSt f).attempt = some b ∧ b.body = a.body ∧ b.phase = .backoff ∧ b.nb = a.nb + 1 ∧
             b.be = min (a.be + 1) t.maxBe ∧ b.admitted = none ∧ ∀ q ∈ (u.feSt f).posted, q.cls = .ack) ∧
         (a.refused = true ∨ t.senseThr a.sub < power → t.maxBackoffs < a.nb + 1 → ∃ u : State,
           exec (.sensingEnd dt f power met) s = .next u ∧ (u.feSt f).attempt = none)) ∧
       (met = true ∨ a.void = true ∨ t.blanked f = true → ∃ (u : State) (b : Attempt), exec (.sensingEnd dt f power met) s = .next u ∧
         (u.feSt f).attempt = some b ∧ b.body = a.body ∧ b.phase = .backoff ∧ b.nb = a.nb ∧ b.be = a.be ∧ b.waitEnd = t.clk)) ∧
     (x.attempt = some a → t.netNs < a.senseStart + t.senseUs a.sub * 1000 → exec (.sensingEnd dt f power met) s = .next t) ∧
     (x.ackWait = some w → w.deadline ≤ t.netNs → t.ackInFlight f w = false → ∃ u : State, exec (.ackDeadline dt f) s = .next u ∧
       (u.feSt f).ackWait = none ∧
       (w.retry.attempts < t.maxRetries → x.retry.length < 64 → ∃ r ∈ (u.feSt f).retry, r.frame = w.retry.frame ∧ r.attempts = w.retry.attempts + 1) ∧
       (t.maxRetries ≤ w.retry.attempts → u.counter .txNoAck (.world w.retry.frame.world) = t.counter .txNoAck (.world w.retry.frame.world) + 1)) ∧
     (x.ackWait = some w → t.netNs < w.deadline → exec (.ackDeadline dt f) s = .next t)) ∧
  (∀ (dt : Nat) (eui : BitVec 64) (s : State) (n : Nbr) (e : Nat),
     let t := s.tick dt
     let tol := t.nbrTolMs * 1000000
     let from_ := fun (x : Nat) => t.clk - (t.netNs - (x - tol)) / 4
     (∃ u : State, exec (.continuationEnd dt eui) s = .next u ∧ u = { t with mac := { t.mac with conts := u.mac.conts } } ∧
       ∀ c, c ∈ u.mac.conts ↔ c ∈ t.mac.conts ∧ ¬ (c.eui = eui ∧ c.endNs ≤ t.netNs)) ∧
     (t.mac.nbrs = [n] → n.expected = some e → e + tol ≤ t.netNs →
       (n.sfdNs + tol < e → (∃ l, (t.lane l).assigned = some (n.fe, n.channel) ∧ (t.lane l).since ≤ from_ e) → n.misses = 2 → n.lapsed = false → ∃ u : State,
         exec (.neighbourWindow dt n.routerId) s = .next u ∧
           u.mac.nbrs = [{ n with misses := 3, lapsed := true, expected := some (e + n.interval * 8000000) }] ∧
           u.counter .nbrLapsed .device = t.counter .nbrLapsed .device + 1 ∧ 2 ∈ u.canopy.owed) ∧
       (e ≤ n.sfdNs + tol → n.sfdNs ≤ e + tol → ∃ u : State, exec (.neighbourWindow dt n.routerId) s = .next u ∧
         u.mac.nbrs = [{ n with misses := 0, expected := some (e + n.interval * 8000000) }] ∧ u.tally = t.tally)) ∧
     (t.mac.nbrs = [n] → n.expected = some e → t.netNs < e + tol → exec (.neighbourWindow dt n.routerId) s = .next t))

/-! ## The wake cycle (chapter 8) -/

/-- A BEACON entry that opens makes a beacon due once; a shadow list becomes active at its cycle boundary, counted; no flow of the wheel whose
slot has begun stays unreleased; far flows of the next cycle move into the wheel; a sample counts once in every millisecond, and the first
of a second closes the window before. -/
def Obligations.WakeCycle : Prop :=
  ∀ (dt : Nat) (f : Fe) (s : State) (start close ch : Nat) (l : List (BitVec 64)),
    let t := s.tick dt
    let x := t.feSt f
    let g := t.gates f
    let b := t.netNs / 2048000000 * 2048000000
    let sec := t.time.sec.toNat
    let skipped := fun (u : State) => u.counter .beaconSkipped (.fe (feCode f)) = t.counter .beaconSkipped (.fe (feCode f)) + 1
    (t.radio = true → t.beaconEntry f t.netNs = some (start, close, ch) → t.hasBeacon f = true →
      (x.beaconFrom ≠ start → t.feMode f ≠ .off → x.rfTest = none →
        (x.beacon = none → exec (.gateEntryOpen dt f) s = .next (t.setFe f { x with beacon := some close, beaconFrom := start })) ∧
        (x.beacon ≠ none → ∃ u : State, exec (.gateEntryOpen dt f) s = .next u ∧ (u.feSt f).beacon = some close ∧
          (u.feSt f).beaconFrom = start ∧ skipped u)) ∧
      (x.beaconFrom ≠ start → x.beacon = none → t.feMode f = .off ∨ x.rfTest ≠ none → ∃ u : State, exec (.gateEntryOpen dt f) s = .next u ∧
        (u.feSt f).beacon = none ∧ (u.feSt f).beaconFrom = start ∧ skipped u) ∧
      (x.beaconFrom = start → x.beacon = none → exec (.gateEntryOpen dt f) s = .next t)) ∧
    (t.radio = false ∨ x.beacon = none ∧ t.beaconEntry f t.netNs = none → exec (.gateEntryOpen dt f) s = .next t) ∧
    (t.radio = true → g.shadow = some l → g.notBefore ≤ b → exec (.gateChangeover dt f) s =
      .next ((t.setGates f { g with active := l, shadow := none }).count .gateChangeover (.fe (feCode f)))) ∧
    (g.shadow = none ∨ b < g.notBefore → exec (.gateChangeover dt f) s = .next t) ∧
    (t.radio = true → ∃ u : State, exec (.calendarSlot dt) s = .next u ∧ u.netNs = t.netNs ∧
      ∀ w ∈ u.wake.flows, w.far = true ∨ w.released = true ∨ t.netNs < ceilTo w.eligible 500000) ∧
    (t.radio = false → exec (.calendarSlot dt) s = .next t ∧ exec (.farListMove dt) s = .next t ∧ exec (.gateChangeover dt f) s = .next t) ∧
    (t.radio = true → (∀ w ∈ t.wake.flows, w.far = true → t.netNs < w.eligible) → ∃ u : State, exec (.farListMove dt) s = .next u ∧
      u.wake.flows.length = t.wake.flows.length ∧ (∀ w ∈ u.wake.flows, w.far = true → b + 2048000000 ≤ w.eligible) ∧
      u = { t with wake := { t.wake with flows := u.wake.flows } }) ∧
    (t.operating = true → t.wake.sampleMs ≠ t.netNs / 1000000 → ∃ u : State, exec (.queueSample dt) s = .next u ∧
      u.wake.sampleMs = t.netNs / 1000000 ∧
      (t.wake.qsec = sec → u.wake.qlast = t.wake.qlast ∧
        (u.wake.qcur.getD 512 {}).samples = (t.wake.qcur.getD 512 {}).samples + 1) ∧
      (t.wake.qsec ≠ sec → u.wake.qlast = t.wake.qcur ∧ u.wake.qsec = sec ∧ (u.wake.qcur.getD 512 {}).samples = 1)) ∧
    (t.wake.sampleMs = t.netNs / 1000000 → exec (.queueSample dt) s = .next t)

/-! ## Security and the link (chapters 12 and 13) -/

/-- A frame of a pending-security queue: one that verifies under its node's link key advances the record's inbound counter, written through to
Heartwood; one whose MIC fails, or that carries no security, is counted and changes no record; a join not confirmed in time ends, its
record CLEARING; a datagram not complete in 60 s is given up with one count. -/
def Obligations.SecurityOfReceivedFrames : Prop :=
  ∀ (dt : Nat) (core : Fin 4) (p : Fe) (s v w : State) (pkt : Packet) (d : RxDesc) (f : AirFrame) (i : Nat) (n : Node) (sec : AirSec) (k : Key)
      (ip : Octets) (tc : BitVec 8) (j : Join) (x : Reasm),
    let t := s.tick dt
    let pipe : Scope := .pipe (feCode p)
    let r : Rx := { pipe := feCode p, pkt := pkt, d := d, f := f }
    let freed := v.releaseChain pkt.acct pkt.cells pkt.chain
    (t.coreRuns core = false → exec (.securityProcessing dt core p) s = .next t) ∧
    (t.coreRuns core = true → t.take (orderKey (384 + feCode p) 0) = (none, v) → exec (.securityProcessing dt core p) s = .next v) ∧
    (t.coreRuns core = true → t.take (orderKey (384 + feCode p) 0) = (some pkt, v) → pkt.content = .rx d f →
      (d.found = .unresolved → exec (.securityProcessing dt core p) s = .next (freed.count .rxSrcUnresolved pipe)) ∧
      (d.found = .noRecord → exec (.securityProcessing dt core p) s = .next (freed.count .rxJoinNoRecord pipe)) ∧
      (d.found = .late ∨ d.found = .absent → exec (.securityProcessing dt core p) s = .next freed) ∧
      (d.found = .known i → v.stillStands i f.src = none → ∃ u : State, exec (.securityProcessing dt core p) s = .next u ∧
        u.counter .rxNodeGone pipe = v.counter .rxNodeGone pipe + 1 ∧ u.used pkt.acct = v.used pkt.acct - pkt.cells ∧ u.table = v.table) ∧
      (d.found = .known i → v.stillStands i f.src = some n → n.state = .live →
        (f.sec = none → ∃ u : State, exec (.securityProcessing dt core p) s = .next u ∧ u.node i = some n ∧
          u.counter .rxSecLevel pipe = v.counter .rxSecLevel pipe + 1 ∧ u.used pkt.acct = v.used pkt.acct - pkt.cells) ∧
        (f.sec = some sec → v.joinOf i = none → keyClass sec.keyIndex = .link n.world n.keyGen → sec.level = n.secLevel →
          n.fcIn.toNat ≤ sec.fc.toNat → sec.fc.toNat ≠ 0xFFFFFFFF → v.linkKey i n = some (k, w) →
          (r.opens sec k = true → f.payload = .data ip true tc none → ∃ (u : State) (m : Node) (e : FcEntry),
            exec (.securityProcessing dt core p) s = .next u ∧ u.node i = some m ∧ m.fcIn = sec.fc + 1 ∧ m.fcOut = n.fcOut ∧ m.stale = 0 ∧
              m.state = n.state ∧ m.group = n.group ∧ m.phase = n.phase ∧ u.hw.fc.get i = some e ∧ e.fcIn = sec.fc + 1) ∧
          (r.opens sec k = false → ∃ u : State, exec (.securityProcessing dt core p) s = .next u ∧ u.node i = some n ∧
            u.counter .rxMicFail pipe = v.counter .rxMicFail pipe + 1)))) ∧
    (t.firmware = true → t.joinOf i = some j → t.node i = some n → n.state = .joining → j.startClk + 250000000 * t.joinTimeoutS ≤ t.clk →
      ∃ u : State, exec (.joinTimeout dt i) s = .next u ∧ u.joinOf i = none ∧ (u.node i).map (fun m => m.state) = some .clearing ∧
        u.counter .joinTimeout (.world j.world) = t.counter .joinTimeout (.world j.world) + 1) ∧
    (t.firmware = false ∨ t.joinOf i = none → exec (.joinTimeout dt i) s = .next t) ∧
    (t.joinOf i = some j → t.clk < j.startClk + 250000000 * t.joinTimeoutS → exec (.joinTimeout dt i) s = .next t) ∧
    (t.queues.reasm = [x] → t.firmware = false ∨ t.clk < x.first + 15000000000 → exec (.reassemblyTimeout dt x.src x.tag x.size) s = .next t) ∧
    (t.firmware = true → t.queues.reasm = [x] → x.first + 15000000000 ≤ t.clk → ∃ u : State,
      exec (.reassemblyTimeout dt x.src x.tag x.size) s = .next u ∧ u.queues.reasm = [] ∧ u.queues.orders = t.queues.orders ∧
        u.counter .usReasmFail (.world x.world) = t.counter .usReasmFail (.world x.world) + 1)

/-- Downstream: a packet for no world's prefix is counted; one for a node that a single hop reaches is protected under the next value of the
node's outbound counter and committed to the tail of the queue its record names; a DIO goes out once in an interval, in its second half;
a ceiling that is near is written 4 096 on. -/
def Obligations.DownstreamAndCeilings : Prop :=
  ∀ (dt : Nat) (core : Fin 4) (cz : Octets) (hz : Nat) (s v : State) (pkt : Packet) (port arrival : Nat) (f : EthFrame) (src dst : BitVec 128) (tc : BitVec 8)
      (len : Nat) (o : Octets) (w i : Nat) (n : Node) (wd : World) (m : Mbox),
    let t := s.tick dt
    let x := v.releaseChain pkt.acct pkt.cells pkt.chain
    let fe := nodeFe n
    let psdu := x.overhead fe n + wornOctets n.worn n.pending + cz.length
    let dg := t.trickle wd
    (t.portsRun = false ∨ t.inPause = true ∨ t.isl.mcoreOut.getD core false = true → exec (.downstreamClassify dt core cz hz) s = .next t) ∧
    (t.portsRun = true → t.inPause = false → t.isl.mcoreOut.getD core false = false →
      t.order (orderKey 404 0) = [] → t.take (orderKey 387 0) = (none, v) → exec (.downstreamClassify dt core cz hz) s = .next v) ∧
    (t.portsRun = true → t.operating = true → t.inPause = false → t.isl.mcoreOut.getD core false = false →
      t.order (orderKey 404 0) = [] → t.take (orderKey 387 0) = (some pkt, v) → pkt.content = .eth port f arrival →
      f.payload = .ipv6 src dst tc none len o → x.addressedToPart dst = false → isMulticast dst = false →
      (x.worldOfPrefix dst = none → exec (.downstreamClassify dt core cz hz) s = .next (x.count .dsNoWorld .device)) ∧
      (x.worldOfPrefix dst = some w → x.vidOk w f.hdr.vlan = true → x.findEui (euiOfAddr dst) = some i → x.node i = some n →
        x.inTable n = true → n.world = w → x.walk i = some [i] → cz.length ≤ x.room fe n → (x.linkKey i n).isSome = true →
        n.fcOut.toNat + 1 ≤ x.nodeCeil i → n.fcOut.toNat + 1 ≤ 0xFFFFFFFF → (x.grant (accountOf n.queue w) (cellsOf psdu)).isSome = true →
        ∃ (u : State) (k : Packet) (d : DownFrame), exec (.downstreamClassify dt core cz hz) s = .next u ∧
          u.order (orderKey n.queue n.fe) = x.order (orderKey n.queue n.fe) ++ [k] ∧ k.cells = cellsOf psdu ∧ k.content = .down d ∧
          d.dst = .node i n.eui ∧ d.psdu = psdu ∧ d.octets.length = d.mpdu ∧ d.fc = n.fcOut ∧ d.ar = true ∧
          (u.node i).map (fun q => (q.fcOut, q.fcIn, q.group, q.phase)) = some (n.fcOut + 1, n.fcIn, n.group, n.phase))) ∧
    (t.firmware = true → t.life.radioOn = true → t.rplEnabled wd = true →
      (dg.sent = true ∨ t.netNs < dg.startNs + 2 ^ dg.interval * 500000 → exec (.dioTrickle dt wd) s = .next (t.setDodag wd dg)) ∧
      (dg.sent = false → dg.startNs + 2 ^ dg.interval * 500000 ≤ t.netNs → (t.slot (40 + 16 * wd.val + t.txGroup wd)).state ≠ .ready →
        ∃ u : State, exec (.dioTrickle dt wd) s = .next u ∧ (u.dodag wd).sent = true ∧ u.queues = t.queues ∧
          u.counter .txKeyAbsent (.world wd) = t.counter .txKeyAbsent (.world wd) + 1)) ∧
    (t.firmware = false → exec (.dioTrickle dt wd) s = .next t ∧ exec (.fcCeilingWrite dt .join) s = .next t ∧
      exec (.fcCeilingWrite dt (.node i)) s = .next t ∧ exec (.fcCeilingWrite dt (.mailbox m)) s = .next t) ∧
    (t.firmware = true → t.node i = some n → t.nodeCeil i ≤ n.fcOut.toNat + 1024 → ∃ u : State, exec (.fcCeilingWrite dt (.node i)) s = .next u ∧
      u.nodeCeil i = min (t.nodeCeil i + 4096) 0xFFFFFFFF ∧ u.node i = some n ∧ (∀ j, j ≠ i → u.hw.fc.get j = t.hw.fc.get j)) ∧
    (t.firmware = true → t.hw.joinCeil.toNat ≤ t.crypto.joinNext + 1024 → ∃ u : State, exec (.fcCeilingWrite dt .join) s = .next u ∧
      u.hw = { t.hw with joinCeil := BitVec.ofNat 32 (min (t.hw.joinCeil.toNat + 4096) 0xFFFFFFFF) }) ∧
    (t.firmware = true → (t.mb m).ceiling.toNat ≤ (t.mb m).seq.toNat + 1024 → ∃ u : State, exec (.fcCeilingWrite dt (.mailbox m)) s = .next u ∧
      (u.mb m).ceiling = (t.mb m).ceiling + 4096 ∧ u.hw.seqCeil.get m = some ((t.mb m).ceiling + 4096) ∧ (u.mb m).seq = (t.mb m).seq)

/-- Cipher jobs: a job refused by the usage, generation, life cycle or world of its slot returns at once with status 2 and one count; one
accepted while a unit is idle goes to the first in the order, its output the slot's cipher of its padded input; at its end the output stands
in job memory and the word returns with status 0. -/
def Obligations.CipherJobs : Prop :=
  ∀ (dt : Nat) (job : Word) (input pad : Octets) (u0 : Fin 4) (s : State) (i k : Nat) (j : CJob),
    let t := s.tick dt
    let w := jobClean job
    let x := t.jobPut (jobSrc w) (input.take (jobLength w))
    let sc : Scope := if jobDevice w then .device else .world (jobWorld w)
    (t.jobsRun = true → x.jobTarget w = some i →
      (x.jobAllowed w i = false → ∃ u : State, exec (.cipherJobPost dt job input true) s = .next u ∧
        u.crypto.returned.head? = some (jobReturned w 2) ∧ u.crypto.unitJob = t.crypto.unitJob ∧ u.crypto.waiting = t.crypto.waiting ∧
        u.counter .keyUseRefused sc = t.counter .keyUseRefused sc + 1) ∧
      (x.jobAllowed w i = true → jobPadded (jobPad w) (x.jobIn (jobSrc w) (jobLength w)) = none → ∃ u : State,
        exec (.cipherJobPost dt job input true) s = .next u ∧ u.crypto.returned.head? = some (jobReturned w 3) ∧ u.tally = t.tally) ∧
      (x.jobAllowed w i = true → jobPadded (jobPad w) (x.jobIn (jobSrc w) (jobLength w)) = some pad → t.crypto.waiting = [] → t.idleUnit = some k →
        ∃ (u : State) (y : CJob), exec (.cipherJobPost dt job input true) s = .next u ∧ u.crypto.unitJob.get k = some y ∧ y.slot = i ∧
          y.gen = (t.slot i).gen ∧ y.start = t.clk ∧ y.stale = none ∧ y.output = natOcts ((chunksOf 16 257 (octNats pad)).flatMap fun b =>
            if jobInverse w then aesDec (t.slot i).octets b else aesEnc (t.slot i).octets b) ∧ u.crypto.waiting = [])) ∧
    (t.crypto.unitJob.get u0 = some j → j.stale = none → t.crypto.waiting = [] → j.output.length % 16 = 0 → j.output.length ≤ 4096 →
      ∃ u : State, exec (.cipherJobEnd dt u0 false) s = .next u ∧ u.crypto.unitJob.get u0 = none ∧
        u.crypto.returned.head? = some (jobReturned j.word 0) ∧ u.jobIn (jobDst j.word) j.output.length = j.output ∧
        u.crypto.slots = t.crypto.slots ∧ u.tally = t.tally)

/-! ## The node table's and Heartwood's upkeep (chapters 9, 10 and 16) -/

/-- One visit of the sweep, of the walker; a record beyond correction; an audit; a training that fails; the writes of the coalescing buffer, of
the ring's homes and of Tally.

Words beyond correction lose the packet read, and nothing behind it; corrected words are counted, and the 16th of a block within 24 h marks
it; a marked block's cells are retired as they become free, while at most 1 in 100 is; a Heartwood page beyond correction is retired. -/
def Obligations.MemoryUpkeep : Prop :=
  (∀ (dt : Nat) (s : State) (n : Node) (i a k : Nat),
     let t := s.tick dt
     let pos := t.table.sweepPos
     (t.operating = true → ∃ u : State, exec (.ageingSweepVisit dt) s = .next u ∧
       (pos < 131071 → u.table.sweepPos = pos + 1 ∧ u.table.sweepPass = t.table.sweepPass) ∧
       (131071 ≤ pos → u.table.sweepPos = 0 ∧ u.table.sweepPass = t.table.sweepPass + 1) ∧
       (t.node pos = some n →
         (n.state = .clearing → n.clearPass + 2 ≤ t.table.sweepPass → u.node pos = none ∧ u.hw.ids.get pos = none ∧ u.hw.nodeKeys.get pos = none ∧
           u.hw.fc.get pos = none) ∧
         (n.state = .live ∨ n.state = .quiet → ∀ d, t.ageDeadline n = some d → d * 1000000000 < t.netNs →
           (u.node pos).map (fun m => m.state) = some .retiring))) ∧
     (t.operating = true → t.table.rehash = none → ∃ u : State, exec (.shadowWalkerVisit dt) s = .next u ∧
       u.table.walkPos = (t.table.walkPos + 1) % 65536 ∧ u.table.seed = t.table.seed) ∧
     (t.operating = true → t.node i = some n → n.state ≠ .clearing → t.hw.ids.get i = none → ∃ u : State,
       exec (.recordUncorrectable dt i) s = .next u ∧ (u.node i).map (fun m => m.state) = some .clearing ∧
         u.counter .tableIndexLost .device = t.counter .tableIndexLost .device + 1) ∧
     (∀ l, ∃ u : State, exec (.poolAudit dt l) s = .next u ∧ u.queues.strays = [] ∧ u.queues.orders = t.queues.orders) ∧
     (0 < k → k ≤ t.used a → t.queues.strays = [] → ∃ u : State, exec (.poolAudit dt [(a, k)]) s = .next u ∧ u.used a = t.used a - k ∧
       u.queues.orders = t.queues.orders ∧ u.counter .cellReclaimed .device = t.counter .cellReclaimed .device + BitVec.ofNat 64 k) ∧
     (exec (.dramRetrain dt true) s = .next t ∧ (t.operating = true → bitOf (t.cfgN 0x0C 0 11 1 1) 0 = true → ∃ u : State,
       exec (.dramRetrain dt false) s = .next u ∧ u.life.mode = .noConfig ∧ u.life.image = none ∧ u.life.radioOn = false ∧
         u.table.nodes = [] ∧ u.life.lcs = t.life.lcs ∧ u.flash = t.flash)) ∧
     (t.journals = true → t.hw.unhomed + t.dirty.length + t.mac.duty.length < 262144 → ∃ u : State, exec (.bufferClose dt) s = .next u ∧
       u.dirty = [] ∧ u = { t with dirty := [], hw := u.hw, tally := u.tally } ∧ u.hw.floor = t.hw.floor ∧ u.hw.zeroCount = t.hw.zeroCount ∧
       (.increment ∈ t.dirty → t.time.pendInc = none → u.hw.increment = some (t.time.incNs, t.time.incFrac)) ∧
       (.discipline ∈ t.dirty → u.hw.disc = t.time.disc)) ∧
     (t.hwWrites = true → ∃ u : State, exec (.homing dt) s = .next u ∧ u = { t with hw := u.hw } ∧ u.hw.ring = [] ∧ u.hw.tail = u.hw.head ∧
       u.hw.head = t.hw.head ∧ u.hw.fc = t.hw.fc ∧ u.hw.nodeKeys = t.hw.nodeKeys) ∧
     (t.journals = true → ∃ u : State, exec (.tallyJournal dt) s = .next u ∧ u.hw.tally = u.tally ∧ u = { t with hw := u.hw, tally := u.tally })) ∧
  (∀ (dt : Nat) (s : State) (q c l : Nat) (late : Bool) (f : Fe) (p : Packet) (rest : List Packet),
     let t := s.tick dt
     let n := t.queues.retired.length + 1
     t.powered = true →
       (t.order (orderKey q (feCode f)) = p :: rest → t.expired p = false →
         (p.chain[l]? = some c → ∃ u : State, exec (.unitFault dt (.uncorrectable (.head q f) true false l)) s = .next u ∧
           u.counter .memUe .device = t.counter .memUe .device + 1 ∧ u.lanes = t.lanes ∧
           (downOf p = none → u.order (orderKey q (feCode f)) = rest ∧ u.used p.acct = t.used p.acct - p.cells)) ∧
         (p.chain[l]? = some c → t.noDram = false → c ∈ t.queues.homed → c < t.poolCells → ∃ u : State,
           exec (.unitFault dt (.uncorrectable (.head q f) false late l)) s = .next u ∧ c / 7 ∈ u.queues.marked ∧
           u.counter .memUe .device = t.counter .memUe .device + 1 ∧
           u.counter .dramLate .device = t.counter .dramLate .device + (if late then 1 else 0)) ∧
         (p.chain[l]? = none → exec (.unitFault dt (.uncorrectable (.head q f) true false l)) s = .next t)) ∧
       (exec (.unitFault dt (.corrected true c)) s = .next (t.count .memCeStaging .device)) ∧
       (t.noDram = false → ∃ u : State, exec (.unitFault dt (.corrected false c)) s = .next u ∧
         u = { t with queues := u.queues, tally := u.tally } ∧ u.queues.orders = t.queues.orders ∧ u.queues.used = t.queues.used ∧
           u.counter .memCeDram .device = t.counter .memCeDram .device + 1 ∧
           (c < t.poolCells → 15 ≤ (t.queues.corrected.filter fun x => decide (t.clk < x.2 + secTicks 86400) && x.1 == c / 7).length →
             c / 7 ∈ u.queues.marked)) ∧
       (c ∈ t.cellsHeld ∨ c ∈ t.queues.retired → exec (.unitFault dt (.cellFree c)) s = .next t) ∧
       (c / 7 ∈ t.queues.marked → c < t.poolCells → c ∉ t.queues.retired → c ∉ t.cellsHeld →
         (100 * n ≤ t.poolCells → n + t.resSum ≤ t.poolCells → ∃ u : State, exec (.unitFault dt (.cellFree c)) s = .next u ∧
           u.queues.retired = t.queues.retired ++ [c] ∧ u.sharedSize + 1 = t.sharedSize ∧
             u.counter .cellRetired .device = t.counter .cellRetired .device + 1) ∧
         (t.poolCells < 100 * n → ∃ u : State, exec (.unitFault dt (.cellFree c)) s = .next u ∧ u.queues.degradedRaised = true ∧
           u.sharedSize = t.sharedSize ∧ u.queues.retired = t.queues.retired)) ∧
       (l < 2944 → t.hw.outPages.length < 1152 → ∃ u : State, exec (.unitFault dt (.heartPage l)) s = .next u ∧
         u.hw = { t.hw with outPages := t.hw.outPages ++ [t.hw.pageMap.getD l l], pageMap := u.hw.pageMap } ∧
           u.hw.freePages + 1 = t.hw.freePages ∧ u.counter .hwPageRetired .device = t.counter .hwPageRetired .device + 1))

/-! ## Canopy's rows (chapter 11) -/

/-- A round that comes late is omitted with one count and its kinds are owed to the next; an assignment takes effect in one write at its second,
and one that no begun frame carries is withdrawn at its instant; a slice moves only while nothing is received or sent, with the receive
synthesiser calibrated; a freeze ends at its instant; a channel unwatched for 60 s is told of. -/
def Obligations.CanopyRows : Prop :=
  ∀ (dt : Nat) (s : State) (e : CanopyEnv) (f : Fe) (i ch : Nat) (n : Node) (c : Course) (mv : SliceMove) (x : Unwatched),
    let t := s.tick dt
    let k := (t.clk - t.canopy.radioClk) / 250000000
    let y := t.feSt f
    (t.firmware = true → t.life.radioOn = true → t.canopy.round ≤ k →
      (e.late = true → exec (.canopyRound dt e) s = .next (State.count { t with
        canopy := { t.canopy with round := k + 1, owed := t.dueKinds t.canopy.round k } } .canopyRoundLate .device)) ∧
      (e.late = false → ∃ u : State, exec (.canopyRound dt e) s = .next u ∧ u.canopy.round = k + 1 ∧ u.life = t.life ∧
        u.flash = t.flash)) ∧
    (k < t.canopy.round ∨ t.firmware = false ∨ t.life.radioOn = false → exec (.canopyRound dt e) s = .next t) ∧
    (t.node i = none ∨ t.node i = some n ∧ n.pending = false → exec (.assignmentEffect dt i) s = .next t ∧ exec (.assignmentWithdrawal dt i) s = .next t) ∧
    (t.firmware = false ∨ t.life.radioOn = false → exec (.canopyUnwatched dt f ch) s = .next t) ∧
    (y.move = some mv → y.cur = none → y.held = none → y.posted = [] → t.feMode f = .rx →
      (∀ l ∈ t.lanesOn f, t.frameEndOf l = none) ∨ mv.clk + 12500000 ≤ t.clk → ∃ u : State, exec (.sliceMove dt f) s = .next u ∧ (u.feSt f).centre = mv.centre ∧ (u.feSt f).move = none ∧ (u.feSt f).table = [] ∧
        (u.feSt f).rxCal = some (t.clk + 11500) ∧ ∀ p ∈ u.canopy.groups, p.2.fe = feCode f → ∀ z ∈ p.2.freqs, z ∈ sliceFreqs mv.centre (t.raster f)) ∧
    (y.move = none ∨ y.cur ≠ none ∨ y.held ≠ none ∨ y.posted ≠ [] ∨ t.feMode f ≠ .rx → exec (.sliceMove dt f) s = .next t) ∧
    (y.move = some mv → (∃ l ∈ t.lanesOn f, t.frameEndOf l ≠ none) → t.clk < mv.clk + 12500000 → exec (.sliceMove dt f) s = .next t) ∧
    (t.node i = some n → n.pending = true →
      (t.effSecond n * 1000000000 ≤ t.netNs → ∃ u : State, exec (.assignmentEffect dt i) s = .next u ∧
        u.node i = some { n with group := n.newGroup, phase := n.newPhase, fe := t.toFe n, pending := false } ∧ u.hw.pendings.get i = none ∧
        (∀ z ∈ u.mac.conts, z.eui ≠ n.eui) ∧ u.canopy.course.get i = none ∧ ∀ j, j ≠ i → u.node j = t.node j) ∧
      (t.netNs < t.effSecond n * 1000000000 → exec (.assignmentEffect dt i) s = .next t) ∧
      (t.canopy.course.get i = some c → c.begun = false → c.effNs ≤ t.netNs + 2 ^ n.moveExp * 2048000000 → ∃ (u : State) (m : Node),
        exec (.assignmentWithdrawal dt i) s = .next u ∧ u.node i = some m ∧ m.pending = false ∧ m.group = n.group ∧ m.phase = n.phase ∧
          m.fe = n.fe ∧ u.hw.pendings.get i = none ∧ u.canopy.course.get i = none ∧
          u.counter .canopyAssignWithdrawn (.world n.world) = t.counter .canopyAssignWithdrawn (.world n.world) + 1) ∧
      (t.canopy.course.get i = some c → c.begun = true → exec (.assignmentWithdrawal dt i) s = .next t)) ∧
    (∃ u : State, exec (.freezeEnd dt) s = .next u ∧ u.lanes = t.lanes ∧ u.table = t.table ∧
      ∀ z, z ∈ u.canopy.freezes ↔ z ∈ t.canopy.freezes ∧ ∀ g, z.endNs = some g → t.netNs < g) ∧
    (t.firmware = true → t.life.radioOn = true →
      t.noteUnwatched.canopy.unwatched.find? (fun z => z.fe == feCode f && z.hz == t.freqOf f ch) = some x → x.raised = none →
      x.since + 15000000000 ≤ t.clk → ∃ u : State, exec (.canopyUnwatched dt f ch) s = .next u ∧
        (∃ z ∈ u.canopy.unwatched, z.fe = x.fe ∧ z.hz = x.hz ∧ z.raised = some t.clk) ∧ u.lanes = t.lanes)

/-! ## Faults and tests (chapters 15 and 18) -/

/-- A unit that faults is mapped out for good: a decoder core leaves the order, a front end goes OFF, and the last M-core resets the part; a
tag past its hold is reclaimed, counted and told, and its lane hunts again; a channel that times out is counted.

Thermal steps of a part that runs: below the first entry value nothing is entered; between the first two, step 1 stops the second half of
the lanes; at 132 °C the power-fail sequence runs and the part is held until it has cooled. -/
def Obligations.FaultsAndThermalSteps : Prop :=
  (∀ (dt : Nat) (s : State) (c : Fin 4) (f : Fe) (p : Port) (h : TagHolder) (l : Lane) (i : Island),
     let t := s.tick dt
     let kind := fun (u : State) (n : Nat) => u.counter .unitMappedOut (.kind n) = t.counter .unitMappedOut (.kind n) + 1
     (t.powered = false → ∀ v, exec (.unitFault dt v) s = .next t ∧ exec (.tagHoldExpiry dt h) s = .next t ∧ exec (.channelTimeout dt i) s = .next t) ∧
     (t.powered = true →
       (t.dec.out.getD c true = false → ∃ u : State, exec (.unitFault dt (.decoder c)) s = .next u ∧ u.dec.out.getD c true = true ∧
         c.val ∉ u.dec.order ∧ u.dec.busy.get c = none ∧ kind u 0) ∧
       (t.isl.mcoreOut.getD c true = false → ∃ u : State, exec (.unitFault dt (.mcore c)) s = .next u ∧
         ((t.isl.mcoreOut.set c true).all (fun o => o) = true → u.life.mode = .reset ∧ u.life.restartCause = 2) ∧
         ((t.isl.mcoreOut.set c true).all (fun o => o) = false → u.isl.mcoreOut = t.isl.mcoreOut.set c true ∧ u.life = t.life ∧ kind u 2)) ∧
       (t.hasFe f = true → (t.feSt f).faulty = false → ∃ u : State, exec (.unitFault dt (.frontEnd f)) s = .next u ∧ (u.feSt f).faulty = true ∧
         (u.feSt f).mode = .off ∧ (u.feSt f).cur = none ∧ (u.feSt f).held = none ∧ kind u 3) ∧
       ((t.port p).out = false → ∃ u : State, exec (.unitFault dt (.serdes p)) s = .next u ∧ (u.port p).out = true ∧ (u.port p).up = false ∧
         (u.port p).copies = [] ∧ kind u 6) ∧
       (∀ b : Fin 5, t.isl.bankOut.getD b true = false → ∃ u : State, exec (.unitFault dt (.staging b)) s = .next u ∧
         u.isl.bankOut = t.isl.bankOut.set b true ∧ kind u 4) ∧
       (t.crypto.unitOut.getD c true = false → t.crypto.unitJob.get c = none → ∃ u : State, exec (.unitFault dt (.cipher c)) s = .next u ∧
         ((t.crypto.unitOut.set c true).all (fun o => o) = false → u.crypto.unitOut = t.crypto.unitOut.set c true ∧ u.life = t.life ∧ kind u 1)) ∧
       (∀ q, exec (.unitFault dt (.queueDesc q true)) s = .next t ∧ ∃ u : State, exec (.unitFault dt (.queueDesc q false)) s = .next u ∧
         (∀ k ∈ queueOrders q, u.order k = []) ∧ u.queues.used = t.queues.used) ∧
       (t.hasHolder h = false → exec (.tagHoldExpiry dt h) s = .next t) ∧ (t.hasIsland i = false → exec (.channelTimeout dt i) s = .next t) ∧
       (t.isl.reclaims = [] → t.hasHolder h = true → ∃ u : State, exec (.tagHoldExpiry dt h) s = .next u ∧ u.isl.reclaims = [(h, t.clk)] ∧
         u.counter .tagReclaimed .device = t.counter .tagReclaimed .device + 1 ∧ (h = .lane l → (u.lane l).phase = .hunt)) ∧
       (t.hasIsland i = true → i ∈ t.isl.islandOut → ∃ u : State, exec (.channelTimeout dt i) s = .next u ∧ u.isl = t.isl ∧ u.life = t.life ∧
         u.counter .channelTimeout .device = t.counter .channelTimeout .device + 1) ∧
       (.cpu ∉ t.isl.islandOut → ∃ u : State, exec (.channelTimeout dt .cpu) s = .next u ∧ u.life.mode = .reset ∧ u.life.restartCause = 2))) ∧
  (∀ (dt : Nat) (s : State) (tj : Int) (e : StartEnv),
     let t := s.tick dt
     t.life.mode = .operate → t.isl.step = 0 →
       (tj < t.stepOn 1 → tj < t.stepOn 2 → tj < 127 → ∃ u : State, exec (.thermalStep dt tj e) s = .next u ∧ u.isl.step = 0 ∧ u.isl.tj = tj ∧
         u = { t with isl := u.isl }) ∧
       (t.stepOn 1 ≤ tj → tj < t.stepOn 2 → tj < 127 → ∃ u : State, exec (.thermalStep dt tj e) s = .next u ∧ u.isl.step = 1 ∧
         u.counter .thermalStep (.kind 1) = t.counter .thermalStep (.kind 1) + 1 ∧ u.life = t.life ∧
         (t.domB.powered = true → t.domB.returning = false → t.domB.stopping = none → u.domB.stopping = some t.clk ∧ u.domA = t.domA)) ∧
       (132 ≤ tj → ∃ u : State, exec (.thermalStep dt tj e) s = .next u ∧ u.life.mode = .thermalHold ∧ u.isl.step = 4 ∧
         u.life.restartCause = 3 ∧ u.life.radioOn = false ∧ u.flash = t.flash))

/-- RF tests: a start whose arguments lie in their ranges puts the front end in test for its duration, which ends it; a stop answers what was
counted; a front end that is OFF or in test takes no start. -/
def Obligations.RfTests : Prop :=
  ∀ (dt : Nat) (m : Mbox) (s : State) (r : Request) (f : Fe) (x : RfTest),
    let t := (s.tick dt).afterReq m
    let v := s.tick dt
    (feOf (beField r.payload 0 1) = none →
      ((s.tick dt).runsLen m 0x0711 11 r → exec (.rfTestStart dt m) s = .next (t.respond m r sRange [])) ∧
      ((s.tick dt).runsLen m 0x0712 1 r → exec (.rfTestStop dt m) s = .next (t.respond m r sRange []))) ∧
    ((s.tick dt).runsLen m 0x0711 11 r → feOf (beField r.payload 0 1) = some f →
      (t.feMode f ≠ .off → (t.feSt f).rfTest = none → t.testRange f r.payload = false → exec (.rfTestStart dt m) s = .next (t.respond m r sRange [])) ∧
      (t.feMode f ≠ .off → (t.feSt f).rfTest = none → t.testRange f r.payload = true → ∃ (u : State) (y : RfTest),
        exec (.rfTestStart dt m) s = .next (u.respond m r sOk []) ∧ (u.feSt f).rfTest = some y ∧ y.mode = beField r.payload 1 1 ∧
          y.channel = beField r.payload 2 1 ∧ y.power = signed 8 (beField r.payload 6 1) ∧
          y.stopClk = t.clk + 250000000 * beField r.payload 9 2 ∧ y.bursts = 0 ∧ y.framesOk = 0) ∧
      (t.feMode f = .off ∨ (t.feSt f).rfTest ≠ none → exec (.rfTestStart dt m) s = .next (t.respond m r sState []))) ∧
    ((s.tick dt).runsLen m 0x0712 1 r → feOf (beField r.payload 0 1) = some f →
      ((t.feSt f).rfTest = some x → ∃ u : State, exec (.rfTestStop dt m) s =
        .next (u.respond m r sOk (toBe 4 x.bursts ++ toBe 4 x.framesOk ++ toBe 2 (x.levelSum / x.framesOk))) ∧ (u.feSt f).rfTest = none) ∧
      ((t.feSt f).rfTest = none → exec (.rfTestStop dt m) s = .next (t.respond m r sState []))) ∧
    ((v.feSt f).rfTest = some x → x.stopClk ≤ v.clk → ∃ u : State, exec (.rfTestEnd dt f) s = .next u ∧ (u.feSt f).rfTest = none) ∧
    ((v.feSt f).rfTest = some x → v.clk < x.stopClk → exec (.rfTestEnd dt f) s = .next v)

/-! ## The whole machine -/

/-- No command changes the queue of commands or the identity of the part, and the clock advances by the ticks before the command; the passage
of time of itself writes what `tickWrites` lists and nothing else. -/
def Obligations.QueueIdentityAndClock : Prop :=
  (∀ (c : Instr) (s u : State), exec c s = .next u → u.pending = s.pending ∧ u.id = s.id ∧ u.clk = s.clk + ticksOf c) ∧
    ∀ (s : State) (n : Nat), (s.tick n).clk = s.clk + n ∧ (s.tick n).id = s.id ∧ (s.tick n).pending = s.pending ∧
      ∀ p : Comp, p ∉ tickWrites → p.same s (s.tick n)

/-- Frame of the host commands, of M0, requests, responses and event messages: once the ticks have passed, each writes the parts
`hostWrites` lists for it and nothing else. -/
def Obligations.FramesOfHostCommands : Prop :=
  ∀ (c : Instr) (l : List Comp) (s u : State), hostWrites c = some l → exec c s = .next u → (s.tick (ticksOf c)).differsIn u l

/-- Frame of pins, starts, resets, zeroisation, tests and faults. -/
def Obligations.FramesOfPowerAndPins : Prop :=
  ∀ (c : Instr) (l : List Comp) (s u : State), powerWrites c = some l → exec c s = .next u → (s.tick (ticksOf c)).differsIn u l

/-- Frame of lanes, front ends, the MAC and the wake cycle. -/
def Obligations.FramesOfTheRadio : Prop :=
  ∀ (c : Instr) (l : List Comp) (s u : State), radioWrites c = some l → exec c s = .next u → (s.tick (ticksOf c)).differsIn u l

/-- Frame of time, the link layer, the cipher units, the backhaul, the node table, Canopy and Heartwood. -/
def Obligations.FramesOfTheRest : Prop :=
  ∀ (c : Instr) (l : List Comp) (s u : State), restWrites c = some l → exec c s = .next u → (s.tick (ticksOf c)).differsIn u l

/-- No step returns the part to an earlier fuse state: the fuses change only by LIFECYCLE-OPERATE, from PROVISION to OPERATE, and at the end of
zeroisation after RETIRE, to RETIRED. -/
def Obligations.FuseStateOnlyAdvances : Prop :=
  ∀ s u : State, s.lcsOk → step s = .next u → lcsRank s.life.lcs ≤ lcsRank u.life.lcs ∧
    (u.life.lcs ≠ s.life.lcs →
      (s.life.lcs = .provision ∧ u.life.lcs = .operate ∧ ∃ dt m, s.pending.head? = some (.lifecycleOperate dt m)) ∨
      (u.life.lcs = .retired ∧ ∃ dt e, s.pending.head? = some (.zeroisationEnd dt e) ∨ s.pending.head? = some (.zeroiseNHigh dt e)))

/-- The radio comes on by RADIO_ON alone, and only in OPERATE. -/
def Obligations.OnlyRadioOnStartsTheRadio : Prop :=
  ∀ s u : State, step s = .next u → s.life.radioOn = false → u.life.radioOn = true →
    s.life.mode = .operate ∧ ∃ dt, s.pending.head? = some (.radioOn dt)

/-- Every step keeps the boot flash in its canonical form, and the mode in agreement with the fuses. -/
def Obligations.StepKeepsTheInvariant : Prop :=
  ∀ s u : State, step s = .next u → (s.flashOk → u.flashOk) ∧ (s.lcsOk → u.lcsOk)

/-- The state before the first start: RESET_N low, the fuses in PROVISION, nothing powered or open, an empty queue, and the invariant holds. -/
def Obligations.ResetState : Prop :=
  State.reset.flashOk ∧ State.reset.lcsOk ∧ State.reset.life.lcs = .provision ∧ State.reset.life.mode = .reset ∧ State.reset.pins.resetN = false ∧
    State.reset.pending = [] ∧ State.reset.life.radioOn = false ∧ State.reset.mbox = [] ∧ State.reset.time.sec = 0 ∧
    State.reset.time.incNs = 4 ∧ State.reset.rtc.osf = true
end

