-- ==== Sys2Proof/Laws/State.lean ====
section
/-! SUPPORT. What each named update of a part of the state does to every field, so that no proof unfolds it: one fact per field. -/

namespace Sys2Proof.Machine

/-- Fields after `setFe`. -/
@[simp] theorem State.setFe_fields (s : State) (f : Fe) (x : FeSt) :
    (s.setFe f x).fe = s.fe.set f x ∧ (s.setFe f x).clk = s.clk ∧ (s.setFe f x).rnd = s.rnd ∧ (s.setFe f x).id = s.id ∧
    (s.setFe f x).life = s.life ∧ (s.setFe f x).pins = s.pins ∧ (s.setFe f x).flash = s.flash ∧ (s.setFe f x).crypto = s.crypto ∧
    (s.setFe f x).time = s.time ∧ (s.setFe f x).rtc = s.rtc ∧ (s.setFe f x).hw = s.hw ∧ (s.setFe f x).dirty = s.dirty ∧
    (s.setFe f x).tally = s.tally ∧ (s.setFe f x).early = s.early ∧ (s.setFe f x).mbox = s.mbox ∧ (s.setFe f x).held = s.held ∧
    (s.setFe f x).m0Out = s.m0Out ∧ (s.setFe f x).queues = s.queues ∧ (s.setFe f x).parting = s.parting ∧ (s.setFe f x).lanes = s.lanes ∧
    (s.setFe f x).domA = s.domA ∧ (s.setFe f x).domB = s.domB ∧ (s.setFe f x).dec = s.dec ∧ (s.setFe f x).mac = s.mac ∧
    (s.setFe f x).table = s.table ∧ (s.setFe f x).wake = s.wake ∧ (s.setFe f x).canopy = s.canopy ∧ (s.setFe f x).back = s.back ∧
    (s.setFe f x).isl = s.isl ∧ (s.setFe f x).pending = s.pending := by
  repeat' apply And.intro
  all_goals rfl

/-- Fields after `setLane`. -/
@[simp] theorem State.setLane_fields (s : State) (l : Nat) (x : LaneSt) :
    (s.setLane l x).lanes = s.lanes.set l x ∧ (s.setLane l x).clk = s.clk ∧ (s.setLane l x).rnd = s.rnd ∧ (s.setLane l x).id = s.id ∧
    (s.setLane l x).life = s.life ∧ (s.setLane l x).pins = s.pins ∧ (s.setLane l x).flash = s.flash ∧ (s.setLane l x).crypto = s.crypto ∧
    (s.setLane l x).time = s.time ∧ (s.setLane l x).rtc = s.rtc ∧ (s.setLane l x).hw = s.hw ∧ (s.setLane l x).dirty = s.dirty ∧
    (s.setLane l x).tally = s.tally ∧ (s.setLane l x).early = s.early ∧ (s.setLane l x).mbox = s.mbox ∧ (s.setLane l x).held = s.held ∧
    (s.setLane l x).m0Out = s.m0Out ∧ (s.setLane l x).queues = s.queues ∧ (s.setLane l x).parting = s.parting ∧ (s.setLane l x).fe = s.fe ∧
    (s.setLane l x).domA = s.domA ∧ (s.setLane l x).domB = s.domB ∧ (s.setLane l x).dec = s.dec ∧ (s.setLane l x).mac = s.mac ∧
    (s.setLane l x).table = s.table ∧ (s.setLane l x).wake = s.wake ∧ (s.setLane l x).canopy = s.canopy ∧ (s.setLane l x).back = s.back ∧
    (s.setLane l x).isl = s.isl ∧ (s.setLane l x).pending = s.pending := by
  repeat' apply And.intro
  all_goals rfl

/-- Fields after `setDuty`. -/
@[simp] theorem State.setDuty_fields (s : State) (i : Nat) (d : Duty) :
    (s.setDuty i d).mac = { s.mac with duty := s.mac.duty.set i d } ∧ (s.setDuty i d).clk = s.clk ∧ (s.setDuty i d).rnd = s.rnd ∧
    (s.setDuty i d).id = s.id ∧ (s.setDuty i d).life = s.life ∧ (s.setDuty i d).pins = s.pins ∧ (s.setDuty i d).flash = s.flash ∧
    (s.setDuty i d).crypto = s.crypto ∧ (s.setDuty i d).time = s.time ∧ (s.setDuty i d).rtc = s.rtc ∧ (s.setDuty i d).hw = s.hw ∧
    (s.setDuty i d).dirty = s.dirty ∧ (s.setDuty i d).tally = s.tally ∧ (s.setDuty i d).early = s.early ∧ (s.setDuty i d).mbox = s.mbox ∧
    (s.setDuty i d).held = s.held ∧ (s.setDuty i d).m0Out = s.m0Out ∧ (s.setDuty i d).queues = s.queues ∧ (s.setDuty i d).parting = s.parting ∧
    (s.setDuty i d).fe = s.fe ∧ (s.setDuty i d).lanes = s.lanes ∧ (s.setDuty i d).domA = s.domA ∧ (s.setDuty i d).domB = s.domB ∧
    (s.setDuty i d).dec = s.dec ∧ (s.setDuty i d).table = s.table ∧ (s.setDuty i d).wake = s.wake ∧ (s.setDuty i d).canopy = s.canopy ∧
    (s.setDuty i d).back = s.back ∧ (s.setDuty i d).isl = s.isl ∧ (s.setDuty i d).pending = s.pending := by
  repeat' apply And.intro
  all_goals rfl

/-- Fields after `setMeas`. -/
@[simp] theorem State.setMeas_fields (s : State) (i : Nat) (m : Meas) :
    (s.setMeas i m).canopy = { s.canopy with meas := s.canopy.meas.set i m } ∧ (s.setMeas i m).clk = s.clk ∧ (s.setMeas i m).rnd = s.rnd ∧
    (s.setMeas i m).id = s.id ∧ (s.setMeas i m).life = s.life ∧ (s.setMeas i m).pins = s.pins ∧ (s.setMeas i m).flash = s.flash ∧
    (s.setMeas i m).crypto = s.crypto ∧ (s.setMeas i m).time = s.time ∧ (s.setMeas i m).rtc = s.rtc ∧ (s.setMeas i m).hw = s.hw ∧
    (s.setMeas i m).dirty = s.dirty ∧ (s.setMeas i m).tally = s.tally ∧ (s.setMeas i m).early = s.early ∧ (s.setMeas i m).mbox = s.mbox ∧
    (s.setMeas i m).held = s.held ∧ (s.setMeas i m).m0Out = s.m0Out ∧ (s.setMeas i m).queues = s.queues ∧ (s.setMeas i m).parting = s.parting ∧
    (s.setMeas i m).fe = s.fe ∧ (s.setMeas i m).lanes = s.lanes ∧ (s.setMeas i m).domA = s.domA ∧ (s.setMeas i m).domB = s.domB ∧
    (s.setMeas i m).dec = s.dec ∧ (s.setMeas i m).mac = s.mac ∧ (s.setMeas i m).table = s.table ∧ (s.setMeas i m).wake = s.wake ∧
    (s.setMeas i m).back = s.back ∧ (s.setMeas i m).isl = s.isl ∧ (s.setMeas i m).pending = s.pending := by
  repeat' apply And.intro
  all_goals rfl

/-- Fields after `setPort`. -/
@[simp] theorem State.setPort_fields (s : State) (p : Port) (x : PortSt) :
    (s.setPort p x).back = { s.back with port := s.back.port.set p x } ∧ (s.setPort p x).clk = s.clk ∧ (s.setPort p x).rnd = s.rnd ∧
    (s.setPort p x).id = s.id ∧ (s.setPort p x).life = s.life ∧ (s.setPort p x).pins = s.pins ∧ (s.setPort p x).flash = s.flash ∧
    (s.setPort p x).crypto = s.crypto ∧ (s.setPort p x).time = s.time ∧ (s.setPort p x).rtc = s.rtc ∧ (s.setPort p x).hw = s.hw ∧
    (s.setPort p x).dirty = s.dirty ∧ (s.setPort p x).tally = s.tally ∧ (s.setPort p x).early = s.early ∧ (s.setPort p x).mbox = s.mbox ∧
    (s.setPort p x).held = s.held ∧ (s.setPort p x).m0Out = s.m0Out ∧ (s.setPort p x).queues = s.queues ∧ (s.setPort p x).parting = s.parting ∧
    (s.setPort p x).fe = s.fe ∧ (s.setPort p x).lanes = s.lanes ∧ (s.setPort p x).domA = s.domA ∧ (s.setPort p x).domB = s.domB ∧
    (s.setPort p x).dec = s.dec ∧ (s.setPort p x).mac = s.mac ∧ (s.setPort p x).table = s.table ∧ (s.setPort p x).wake = s.wake ∧
    (s.setPort p x).canopy = s.canopy ∧ (s.setPort p x).isl = s.isl ∧ (s.setPort p x).pending = s.pending := by
  repeat' apply And.intro
  all_goals rfl

/-- Fields after `setDeficit`. -/
@[simp] theorem State.setDeficit_fields (s : State) (w n : Nat) :
    (s.setDeficit w n).back = { s.back with deficit := s.back.deficit.set w n } ∧ (s.setDeficit w n).clk = s.clk ∧
    (s.setDeficit w n).rnd = s.rnd ∧ (s.setDeficit w n).id = s.id ∧ (s.setDeficit w n).life = s.life ∧ (s.setDeficit w n).pins = s.pins ∧
    (s.setDeficit w n).flash = s.flash ∧ (s.setDeficit w n).crypto = s.crypto ∧ (s.setDeficit w n).time = s.time ∧
    (s.setDeficit w n).rtc = s.rtc ∧ (s.setDeficit w n).hw = s.hw ∧ (s.setDeficit w n).dirty = s.dirty ∧ (s.setDeficit w n).tally = s.tally ∧
    (s.setDeficit w n).early = s.early ∧ (s.setDeficit w n).mbox = s.mbox ∧ (s.setDeficit w n).held = s.held ∧
    (s.setDeficit w n).m0Out = s.m0Out ∧ (s.setDeficit w n).queues = s.queues ∧ (s.setDeficit w n).parting = s.parting ∧
    (s.setDeficit w n).fe = s.fe ∧ (s.setDeficit w n).lanes = s.lanes ∧ (s.setDeficit w n).domA = s.domA ∧ (s.setDeficit w n).domB = s.domB ∧
    (s.setDeficit w n).dec = s.dec ∧ (s.setDeficit w n).mac = s.mac ∧ (s.setDeficit w n).table = s.table ∧ (s.setDeficit w n).wake = s.wake ∧
    (s.setDeficit w n).canopy = s.canopy ∧ (s.setDeficit w n).isl = s.isl ∧ (s.setDeficit w n).pending = s.pending := by
  repeat' apply And.intro
  all_goals rfl

/-- Fields after `setDodag`. -/
@[simp] theorem State.setDodag_fields (s : State) (w : Nat) (d : Dodag) :
    (s.setDodag w d).table = { s.table with dodags := s.table.dodags.set w d } ∧ (s.setDodag w d).clk = s.clk ∧ (s.setDodag w d).rnd = s.rnd ∧
    (s.setDodag w d).id = s.id ∧ (s.setDodag w d).life = s.life ∧ (s.setDodag w d).pins = s.pins ∧ (s.setDodag w d).flash = s.flash ∧
    (s.setDodag w d).crypto = s.crypto ∧ (s.setDodag w d).time = s.time ∧ (s.setDodag w d).rtc = s.rtc ∧ (s.setDodag w d).hw = s.hw ∧
    (s.setDodag w d).dirty = s.dirty ∧ (s.setDodag w d).tally = s.tally ∧ (s.setDodag w d).early = s.early ∧ (s.setDodag w d).mbox = s.mbox ∧
    (s.setDodag w d).held = s.held ∧ (s.setDodag w d).m0Out = s.m0Out ∧ (s.setDodag w d).queues = s.queues ∧
    (s.setDodag w d).parting = s.parting ∧ (s.setDodag w d).fe = s.fe ∧ (s.setDodag w d).lanes = s.lanes ∧ (s.setDodag w d).domA = s.domA ∧
    (s.setDodag w d).domB = s.domB ∧ (s.setDodag w d).dec = s.dec ∧ (s.setDodag w d).mac = s.mac ∧ (s.setDodag w d).wake = s.wake ∧
    (s.setDodag w d).canopy = s.canopy ∧ (s.setDodag w d).back = s.back ∧ (s.setDodag w d).isl = s.isl ∧ (s.setDodag w d).pending = s.pending := by
  repeat' apply And.intro
  all_goals rfl

/-- Fields after `setNode`. -/
@[simp] theorem State.setNode_fields (s : State) (i : Nat) (n : Node) :
    (s.setNode i n).table = { s.table with nodes := s.table.nodes.set i n } ∧ (s.setNode i n).clk = s.clk ∧ (s.setNode i n).rnd = s.rnd ∧
    (s.setNode i n).id = s.id ∧ (s.setNode i n).life = s.life ∧ (s.setNode i n).pins = s.pins ∧ (s.setNode i n).flash = s.flash ∧
    (s.setNode i n).crypto = s.crypto ∧ (s.setNode i n).time = s.time ∧ (s.setNode i n).rtc = s.rtc ∧ (s.setNode i n).hw = s.hw ∧
    (s.setNode i n).dirty = s.dirty ∧ (s.setNode i n).tally = s.tally ∧ (s.setNode i n).early = s.early ∧ (s.setNode i n).mbox = s.mbox ∧
    (s.setNode i n).held = s.held ∧ (s.setNode i n).m0Out = s.m0Out ∧ (s.setNode i n).queues = s.queues ∧ (s.setNode i n).parting = s.parting ∧
    (s.setNode i n).fe = s.fe ∧ (s.setNode i n).lanes = s.lanes ∧ (s.setNode i n).domA = s.domA ∧ (s.setNode i n).domB = s.domB ∧
    (s.setNode i n).dec = s.dec ∧ (s.setNode i n).mac = s.mac ∧ (s.setNode i n).wake = s.wake ∧ (s.setNode i n).canopy = s.canopy ∧
    (s.setNode i n).back = s.back ∧ (s.setNode i n).isl = s.isl ∧ (s.setNode i n).pending = s.pending := by
  repeat' apply And.intro
  all_goals rfl

/-- Fields after `setRtc`. -/
@[simp] theorem State.setRtc_fields (s : State) (r : Rtc) :
    (s.setRtc r).rtc = r ∧ (s.setRtc r).clk = s.clk ∧ (s.setRtc r).rnd = s.rnd ∧ (s.setRtc r).id = s.id ∧ (s.setRtc r).life = s.life ∧
    (s.setRtc r).pins = s.pins ∧ (s.setRtc r).flash = s.flash ∧ (s.setRtc r).crypto = s.crypto ∧ (s.setRtc r).time = s.time ∧
    (s.setRtc r).hw = s.hw ∧ (s.setRtc r).dirty = s.dirty ∧ (s.setRtc r).tally = s.tally ∧ (s.setRtc r).early = s.early ∧
    (s.setRtc r).mbox = s.mbox ∧ (s.setRtc r).held = s.held ∧ (s.setRtc r).m0Out = s.m0Out ∧ (s.setRtc r).queues = s.queues ∧
    (s.setRtc r).parting = s.parting ∧ (s.setRtc r).fe = s.fe ∧ (s.setRtc r).lanes = s.lanes ∧ (s.setRtc r).domA = s.domA ∧
    (s.setRtc r).domB = s.domB ∧ (s.setRtc r).dec = s.dec ∧ (s.setRtc r).mac = s.mac ∧ (s.setRtc r).table = s.table ∧
    (s.setRtc r).wake = s.wake ∧ (s.setRtc r).canopy = s.canopy ∧ (s.setRtc r).back = s.back ∧ (s.setRtc r).isl = s.isl ∧
    (s.setRtc r).pending = s.pending := by
  repeat' apply And.intro
  all_goals rfl

/-- Fields after `setAlm`. -/
@[simp] theorem State.setAlm_fields (s : State) (k : Nat) (e : AlmEntry) :
    (s.setAlm k e).hw = { s.hw with almanac := s.hw.almanac.set k e } ∧ (s.setAlm k e).clk = s.clk ∧ (s.setAlm k e).rnd = s.rnd ∧
    (s.setAlm k e).id = s.id ∧ (s.setAlm k e).life = s.life ∧ (s.setAlm k e).pins = s.pins ∧ (s.setAlm k e).flash = s.flash ∧
    (s.setAlm k e).crypto = s.crypto ∧ (s.setAlm k e).time = s.time ∧ (s.setAlm k e).rtc = s.rtc ∧ (s.setAlm k e).dirty = s.dirty ∧
    (s.setAlm k e).tally = s.tally ∧ (s.setAlm k e).early = s.early ∧ (s.setAlm k e).mbox = s.mbox ∧ (s.setAlm k e).held = s.held ∧
    (s.setAlm k e).m0Out = s.m0Out ∧ (s.setAlm k e).queues = s.queues ∧ (s.setAlm k e).parting = s.parting ∧ (s.setAlm k e).fe = s.fe ∧
    (s.setAlm k e).lanes = s.lanes ∧ (s.setAlm k e).domA = s.domA ∧ (s.setAlm k e).domB = s.domB ∧ (s.setAlm k e).dec = s.dec ∧
    (s.setAlm k e).mac = s.mac ∧ (s.setAlm k e).table = s.table ∧ (s.setAlm k e).wake = s.wake ∧ (s.setAlm k e).canopy = s.canopy ∧
    (s.setAlm k e).back = s.back ∧ (s.setAlm k e).isl = s.isl ∧ (s.setAlm k e).pending = s.pending := by
  repeat' apply And.intro
  all_goals rfl

/-- Fields after `setMb`. -/
@[simp] theorem State.setMb_fields (s : State) (m : Nat) (b : MboxSt) :
    (s.setMb m b).mbox = s.mbox.set m b ∧ (s.setMb m b).clk = s.clk ∧ (s.setMb m b).rnd = s.rnd ∧ (s.setMb m b).id = s.id ∧
    (s.setMb m b).life = s.life ∧ (s.setMb m b).pins = s.pins ∧ (s.setMb m b).flash = s.flash ∧ (s.setMb m b).crypto = s.crypto ∧
    (s.setMb m b).time = s.time ∧ (s.setMb m b).rtc = s.rtc ∧ (s.setMb m b).hw = s.hw ∧ (s.setMb m b).dirty = s.dirty ∧
    (s.setMb m b).tally = s.tally ∧ (s.setMb m b).early = s.early ∧ (s.setMb m b).held = s.held ∧ (s.setMb m b).m0Out = s.m0Out ∧
    (s.setMb m b).queues = s.queues ∧ (s.setMb m b).parting = s.parting ∧ (s.setMb m b).fe = s.fe ∧ (s.setMb m b).lanes = s.lanes ∧
    (s.setMb m b).domA = s.domA ∧ (s.setMb m b).domB = s.domB ∧ (s.setMb m b).dec = s.dec ∧ (s.setMb m b).mac = s.mac ∧
    (s.setMb m b).table = s.table ∧ (s.setMb m b).wake = s.wake ∧ (s.setMb m b).canopy = s.canopy ∧ (s.setMb m b).back = s.back ∧
    (s.setMb m b).isl = s.isl ∧ (s.setMb m b).pending = s.pending := by
  repeat' apply And.intro
  all_goals rfl

/-- Fields after `setGates`. -/
@[simp] theorem State.setGates_fields (s : State) (f : Fe) (g : GateSt) :
    (s.setGates f g).wake = { s.wake with gates := s.wake.gates.set f g } ∧ (s.setGates f g).clk = s.clk ∧ (s.setGates f g).rnd = s.rnd ∧
    (s.setGates f g).id = s.id ∧ (s.setGates f g).life = s.life ∧ (s.setGates f g).pins = s.pins ∧ (s.setGates f g).flash = s.flash ∧
    (s.setGates f g).crypto = s.crypto ∧ (s.setGates f g).time = s.time ∧ (s.setGates f g).rtc = s.rtc ∧ (s.setGates f g).hw = s.hw ∧
    (s.setGates f g).dirty = s.dirty ∧ (s.setGates f g).tally = s.tally ∧ (s.setGates f g).early = s.early ∧ (s.setGates f g).mbox = s.mbox ∧
    (s.setGates f g).held = s.held ∧ (s.setGates f g).m0Out = s.m0Out ∧ (s.setGates f g).queues = s.queues ∧
    (s.setGates f g).parting = s.parting ∧ (s.setGates f g).fe = s.fe ∧ (s.setGates f g).lanes = s.lanes ∧ (s.setGates f g).domA = s.domA ∧
    (s.setGates f g).domB = s.domB ∧ (s.setGates f g).dec = s.dec ∧ (s.setGates f g).mac = s.mac ∧ (s.setGates f g).table = s.table ∧
    (s.setGates f g).canopy = s.canopy ∧ (s.setGates f g).back = s.back ∧ (s.setGates f g).isl = s.isl ∧ (s.setGates f g).pending = s.pending := by
  repeat' apply And.intro
  all_goals rfl

/-- Fields after `setOrder`. -/
@[simp] theorem State.setOrder_fields (s : State) (k : Nat) (l : List Packet) :
    (s.setOrder k l).clk = s.clk ∧ (s.setOrder k l).rnd = s.rnd ∧ (s.setOrder k l).id = s.id ∧ (s.setOrder k l).life = s.life ∧
    (s.setOrder k l).pins = s.pins ∧ (s.setOrder k l).flash = s.flash ∧ (s.setOrder k l).crypto = s.crypto ∧ (s.setOrder k l).time = s.time ∧
    (s.setOrder k l).rtc = s.rtc ∧ (s.setOrder k l).hw = s.hw ∧ (s.setOrder k l).dirty = s.dirty ∧ (s.setOrder k l).tally = s.tally ∧
    (s.setOrder k l).early = s.early ∧ (s.setOrder k l).mbox = s.mbox ∧ (s.setOrder k l).held = s.held ∧ (s.setOrder k l).m0Out = s.m0Out ∧
    (s.setOrder k l).parting = s.parting ∧ (s.setOrder k l).fe = s.fe ∧ (s.setOrder k l).lanes = s.lanes ∧ (s.setOrder k l).domA = s.domA ∧
    (s.setOrder k l).domB = s.domB ∧ (s.setOrder k l).dec = s.dec ∧ (s.setOrder k l).mac = s.mac ∧ (s.setOrder k l).table = s.table ∧
    (s.setOrder k l).wake = s.wake ∧ (s.setOrder k l).canopy = s.canopy ∧ (s.setOrder k l).back = s.back ∧ (s.setOrder k l).isl = s.isl ∧
    (s.setOrder k l).pending = s.pending := by
  repeat' apply And.intro
  all_goals rfl

/-- Fields after `count`. -/
@[simp] theorem State.count_fields (s : State) (c : Ctr) (x : Scope) :
    (s.count c x).tally = Tally.add s.tally { ctr := c, scope := x } 1 ∧ (s.count c x).clk = s.clk ∧ (s.count c x).rnd = s.rnd ∧
    (s.count c x).id = s.id ∧ (s.count c x).life = s.life ∧ (s.count c x).pins = s.pins ∧ (s.count c x).flash = s.flash ∧
    (s.count c x).crypto = s.crypto ∧ (s.count c x).time = s.time ∧ (s.count c x).rtc = s.rtc ∧ (s.count c x).hw = s.hw ∧
    (s.count c x).dirty = s.dirty ∧ (s.count c x).early = s.early ∧ (s.count c x).mbox = s.mbox ∧ (s.count c x).held = s.held ∧
    (s.count c x).m0Out = s.m0Out ∧ (s.count c x).queues = s.queues ∧ (s.count c x).parting = s.parting ∧ (s.count c x).fe = s.fe ∧
    (s.count c x).lanes = s.lanes ∧ (s.count c x).domA = s.domA ∧ (s.count c x).domB = s.domB ∧ (s.count c x).dec = s.dec ∧
    (s.count c x).mac = s.mac ∧ (s.count c x).table = s.table ∧ (s.count c x).wake = s.wake ∧ (s.count c x).canopy = s.canopy ∧
    (s.count c x).back = s.back ∧ (s.count c x).isl = s.isl ∧ (s.count c x).pending = s.pending := by
  repeat' apply And.intro
  all_goals rfl

/-- Fields after `countN`. -/
@[simp] theorem State.countN_fields (s : State) (c : Ctr) (x : Scope) (n : Nat) :
    (s.countN c x n).tally = Tally.add s.tally { ctr := c, scope := x } (BitVec.ofNat 64 n) ∧ (s.countN c x n).clk = s.clk ∧
    (s.countN c x n).rnd = s.rnd ∧ (s.countN c x n).id = s.id ∧ (s.countN c x n).life = s.life ∧ (s.countN c x n).pins = s.pins ∧
    (s.countN c x n).flash = s.flash ∧ (s.countN c x n).crypto = s.crypto ∧ (s.countN c x n).time = s.time ∧ (s.countN c x n).rtc = s.rtc ∧
    (s.countN c x n).hw = s.hw ∧ (s.countN c x n).dirty = s.dirty ∧ (s.countN c x n).early = s.early ∧ (s.countN c x n).mbox = s.mbox ∧
    (s.countN c x n).held = s.held ∧ (s.countN c x n).m0Out = s.m0Out ∧ (s.countN c x n).queues = s.queues ∧
    (s.countN c x n).parting = s.parting ∧ (s.countN c x n).fe = s.fe ∧ (s.countN c x n).lanes = s.lanes ∧ (s.countN c x n).domA = s.domA ∧
    (s.countN c x n).domB = s.domB ∧ (s.countN c x n).dec = s.dec ∧ (s.countN c x n).mac = s.mac ∧ (s.countN c x n).table = s.table ∧
    (s.countN c x n).wake = s.wake ∧ (s.countN c x n).canopy = s.canopy ∧ (s.countN c x n).back = s.back ∧ (s.countN c x n).isl = s.isl ∧
    (s.countN c x n).pending = s.pending := by
  repeat' apply And.intro
  all_goals rfl

/-- Fields after `jobPut`. -/
@[simp] theorem State.jobPut_fields (s : State) (a : Nat) (o : Octets) :
    (s.jobPut a o).clk = s.clk ∧ (s.jobPut a o).rnd = s.rnd ∧ (s.jobPut a o).id = s.id ∧ (s.jobPut a o).life = s.life ∧
    (s.jobPut a o).pins = s.pins ∧ (s.jobPut a o).flash = s.flash ∧ (s.jobPut a o).time = s.time ∧ (s.jobPut a o).rtc = s.rtc ∧
    (s.jobPut a o).hw = s.hw ∧ (s.jobPut a o).dirty = s.dirty ∧ (s.jobPut a o).tally = s.tally ∧ (s.jobPut a o).early = s.early ∧
    (s.jobPut a o).mbox = s.mbox ∧ (s.jobPut a o).held = s.held ∧ (s.jobPut a o).m0Out = s.m0Out ∧ (s.jobPut a o).queues = s.queues ∧
    (s.jobPut a o).parting = s.parting ∧ (s.jobPut a o).fe = s.fe ∧ (s.jobPut a o).lanes = s.lanes ∧ (s.jobPut a o).domA = s.domA ∧
    (s.jobPut a o).domB = s.domB ∧ (s.jobPut a o).dec = s.dec ∧ (s.jobPut a o).mac = s.mac ∧ (s.jobPut a o).table = s.table ∧
    (s.jobPut a o).wake = s.wake ∧ (s.jobPut a o).canopy = s.canopy ∧ (s.jobPut a o).back = s.back ∧ (s.jobPut a o).isl = s.isl ∧
    (s.jobPut a o).pending = s.pending := by
  repeat' apply And.intro
  all_goals rfl

/-- Fields after `jobEnds`. -/
@[simp] theorem State.jobEnds_fields (s : State) (w : Word) (status : Nat) :
    (s.jobEnds w status).clk = s.clk ∧ (s.jobEnds w status).rnd = s.rnd ∧ (s.jobEnds w status).id = s.id ∧ (s.jobEnds w status).life = s.life ∧
    (s.jobEnds w status).pins = s.pins ∧ (s.jobEnds w status).flash = s.flash ∧ (s.jobEnds w status).time = s.time ∧
    (s.jobEnds w status).rtc = s.rtc ∧ (s.jobEnds w status).hw = s.hw ∧ (s.jobEnds w status).dirty = s.dirty ∧
    (s.jobEnds w status).tally = s.tally ∧ (s.jobEnds w status).early = s.early ∧ (s.jobEnds w status).mbox = s.mbox ∧
    (s.jobEnds w status).held = s.held ∧ (s.jobEnds w status).m0Out = s.m0Out ∧ (s.jobEnds w status).queues = s.queues ∧
    (s.jobEnds w status).parting = s.parting ∧ (s.jobEnds w status).fe = s.fe ∧ (s.jobEnds w status).lanes = s.lanes ∧
    (s.jobEnds w status).domA = s.domA ∧ (s.jobEnds w status).domB = s.domB ∧ (s.jobEnds w status).dec = s.dec ∧
    (s.jobEnds w status).mac = s.mac ∧ (s.jobEnds w status).table = s.table ∧ (s.jobEnds w status).wake = s.wake ∧
    (s.jobEnds w status).canopy = s.canopy ∧ (s.jobEnds w status).back = s.back ∧ (s.jobEnds w status).isl = s.isl ∧
    (s.jobEnds w status).pending = s.pending := by
  repeat' apply And.intro
  all_goals rfl

/-- Fields after `picked`. -/
@[simp] theorem State.picked_fields (s : State) :
    s.picked.queues = { s.queues with picks := s.queues.picks + 1 } ∧ s.picked.clk = s.clk ∧ s.picked.rnd = s.rnd ∧ s.picked.id = s.id ∧
    s.picked.life = s.life ∧ s.picked.pins = s.pins ∧ s.picked.flash = s.flash ∧ s.picked.crypto = s.crypto ∧ s.picked.time = s.time ∧
    s.picked.rtc = s.rtc ∧ s.picked.hw = s.hw ∧ s.picked.dirty = s.dirty ∧ s.picked.tally = s.tally ∧ s.picked.early = s.early ∧
    s.picked.mbox = s.mbox ∧ s.picked.held = s.held ∧ s.picked.m0Out = s.m0Out ∧ s.picked.parting = s.parting ∧ s.picked.fe = s.fe ∧
    s.picked.lanes = s.lanes ∧ s.picked.domA = s.domA ∧ s.picked.domB = s.domB ∧ s.picked.dec = s.dec ∧ s.picked.mac = s.mac ∧
    s.picked.table = s.table ∧ s.picked.wake = s.wake ∧ s.picked.canopy = s.canopy ∧ s.picked.back = s.back ∧ s.picked.isl = s.isl ∧
    s.picked.pending = s.pending := by
  repeat' apply And.intro
  all_goals rfl

/-- Fields after `homeAll`. -/
@[simp] theorem State.homeAll_fields (s : State) :
    s.homeAll.hw = { s.hw with ring := [], tail := s.hw.head } ∧ s.homeAll.clk = s.clk ∧ s.homeAll.rnd = s.rnd ∧ s.homeAll.id = s.id ∧
    s.homeAll.life = s.life ∧ s.homeAll.pins = s.pins ∧ s.homeAll.flash = s.flash ∧ s.homeAll.crypto = s.crypto ∧ s.homeAll.time = s.time ∧
    s.homeAll.rtc = s.rtc ∧ s.homeAll.dirty = s.dirty ∧ s.homeAll.tally = s.tally ∧ s.homeAll.early = s.early ∧ s.homeAll.mbox = s.mbox ∧
    s.homeAll.held = s.held ∧ s.homeAll.m0Out = s.m0Out ∧ s.homeAll.queues = s.queues ∧ s.homeAll.parting = s.parting ∧ s.homeAll.fe = s.fe ∧
    s.homeAll.lanes = s.lanes ∧ s.homeAll.domA = s.domA ∧ s.homeAll.domB = s.domB ∧ s.homeAll.dec = s.dec ∧ s.homeAll.mac = s.mac ∧
    s.homeAll.table = s.table ∧ s.homeAll.wake = s.wake ∧ s.homeAll.canopy = s.canopy ∧ s.homeAll.back = s.back ∧ s.homeAll.isl = s.isl ∧
    s.homeAll.pending = s.pending := by
  repeat' apply And.intro
  all_goals rfl

/-- Fields after `advance`. -/
@[simp] theorem State.advance_fields (s : State) (dt : Nat) :
    (s.advance dt).clk = s.clk + dt ∧ (s.advance dt).time = s.time.advance s.clk dt ∧ (s.advance dt).rnd = s.rnd ∧ (s.advance dt).id = s.id ∧
    (s.advance dt).life = s.life ∧ (s.advance dt).pins = s.pins ∧ (s.advance dt).flash = s.flash ∧ (s.advance dt).crypto = s.crypto ∧
    (s.advance dt).rtc = s.rtc ∧ (s.advance dt).hw = s.hw ∧ (s.advance dt).dirty = s.dirty ∧ (s.advance dt).tally = s.tally ∧
    (s.advance dt).early = s.early ∧ (s.advance dt).mbox = s.mbox ∧ (s.advance dt).held = s.held ∧ (s.advance dt).m0Out = s.m0Out ∧
    (s.advance dt).queues = s.queues ∧ (s.advance dt).parting = s.parting ∧ (s.advance dt).fe = s.fe ∧ (s.advance dt).lanes = s.lanes ∧
    (s.advance dt).domA = s.domA ∧ (s.advance dt).domB = s.domB ∧ (s.advance dt).dec = s.dec ∧ (s.advance dt).mac = s.mac ∧
    (s.advance dt).table = s.table ∧ (s.advance dt).wake = s.wake ∧ (s.advance dt).canopy = s.canopy ∧ (s.advance dt).back = s.back ∧
    (s.advance dt).isl = s.isl ∧ (s.advance dt).pending = s.pending := by
  repeat' apply And.intro
  all_goals rfl

end Sys2Proof.Machine
end

