-- ==== Sys2Proof/Laws/Flash.lean ====
section
/-! SUPPORT. The boot flash: every operation on it keeps its canonical form, and what an octet reads as after one. -/

namespace Sys2Proof.Machine

/-- Every listed address lies above `a`. -/
def flashAbove (a : Nat) : List Host.Cell → Prop
  | [] => True
  | c :: _ => a < c.1

theorem flashWf_cons {c : Host.Cell} {t : List Host.Cell} :
    flashWf (c :: t) = true ↔ c.2 ≠ 0xFF ∧ flashAbove c.1 t ∧ flashWf t = true := by
  cases t with
  | nil => simp [flashWf, flashAbove]
  | cons d t => simp [flashWf, flashAbove, Bool.and_eq_true, and_assoc]

theorem flashByte_above {m : List Host.Cell} {a b : Nat} (h : flashAbove a m) (hb : b ≤ a) : flashByte m b = 0xFF := by
  cases m with
  | nil => rfl
  | cons c t =>
    simp only [flashAbove] at h
    have h1 : ¬ b = c.1 := by omega
    have h2 : b < c.1 := by omega
    simp [flashByte, h1, h2]

theorem flashAbove_put {m : List Host.Cell} {a k : Nat} {b : Byte} (h : flashAbove k m) (hw : flashWf m = true) (ha : k < a) :
    flashAbove k (flashPut m a b) := by
  cases m with
  | nil =>
    simp only [flashPut]
    split <;> simp [flashAbove, ha]
  | cons c t =>
    simp only [flashAbove] at h
    have h2 := (flashWf_cons.mp hw).2.1
    simp only [flashPut]
    split
    · split <;> simp [flashAbove, h, ha]
    · split
      · split
        · cases t with
          | nil => simp [flashAbove]
          | cons d t =>
            simp only [flashAbove] at h2 ⊢
            omega
        · simp [flashAbove, ha]
      · simp [flashAbove, h]

/-- Programming one octet keeps the canonical form. -/
theorem flashWf_put {m : List Host.Cell} {a : Nat} {b : Byte} (hw : flashWf m = true) : flashWf (flashPut m a b) = true := by
  induction m with
  | nil =>
    simp only [flashPut]
    split
    · rfl
    · rename_i hb
      simpa [flashWf] using hb
  | cons c t ih =>
    obtain ⟨hc, hab, ht⟩ := flashWf_cons.mp hw
    simp only [flashPut]
    split
    · rename_i hlt
      split
      · exact hw
      · rename_i hb
        exact flashWf_cons.mpr ⟨hb, hlt, hw⟩
    · split
      · rename_i heq
        split
        · exact ht
        · rename_i hb
          exact flashWf_cons.mpr ⟨hb, by simpa [heq] using hab, ht⟩
      · rename_i hlt hne
        exact flashWf_cons.mpr ⟨hc, flashAbove_put hab ht (by omega), ih ht⟩

/-- What an octet reads as after one octet is written. -/
theorem flashByte_put {m : List Host.Cell} {a k : Nat} {b : Byte} (hw : flashWf m = true) :
    flashByte (flashPut m a b) k = if k = a then b else flashByte m k := by
  induction m with
  | nil =>
    simp only [flashPut]
    split
    · rename_i hb
      by_cases h : k = a <;> simp [flashByte, h, hb]
    · by_cases h : k = a <;> simp [flashByte, h]
  | cons c t ih =>
    obtain ⟨hc, hab, ht⟩ := flashWf_cons.mp hw
    simp only [flashPut]
    split
    · rename_i hlt
      split
      · rename_i hb
        by_cases h : k = a
        · have h1 : ¬ a = c.1 := by omega
          simp [flashByte, h, hb, h1, hlt]
        · simp [h]
      · by_cases h : k = a
        · simp [flashByte, h]
        · simp only [flashByte, h, if_false]
          by_cases hka : k < a
          · have h1 : ¬ k = c.1 := by omega
            have h2 : k < c.1 := by omega
            simp [hka, h1, h2]
          · simp [hka]
    · split
      · rename_i heq
        split
        · rename_i hb
          by_cases h : k = a
          · subst h
            simp [hb, flashByte_above hab (Nat.le_of_eq heq)]
          · simp only [flashByte, h, if_false]
            by_cases hkc : k = c.1
            · omega
            · simp only [hkc, if_false]
              by_cases hlt : k < c.1
              · simp [hlt, flashByte_above hab (Nat.le_of_lt hlt)]
              · simp [hlt]
        · by_cases h : k = a
          · simp [flashByte, h]
          · have h1 : ¬ k = c.1 := by omega
            simp only [flashByte, h, h1, if_false]
            rw [heq]
      · rename_i hlt hne
        simp only [flashByte, ih ht]
        by_cases hkc : k = c.1
        · have : ¬ k = a := by omega
          simp [hkc, show ¬ c.1 = a by omega]
        · by_cases hklt : k < c.1
          · simp [hkc, hklt, show ¬ k = a by omega]
          · simp [hkc, hklt]

/-- Programming octets keeps the canonical form. -/
theorem flashWf_program {o : Octets} {m : List Host.Cell} {a : Nat} (hw : flashWf m = true) : flashWf (flashProgram m a o) = true := by
  induction o generalizing m a with
  | nil => exact hw
  | cons b t ih => exact ih (flashWf_put hw)

/-- What an octet reads as after octets are programmed: the AND of the old and the new, within their range. -/
theorem flashByte_program {o : Octets} {m : List Host.Cell} {a k : Nat} (hw : flashWf m = true) :
    flashByte (flashProgram m a o) k =
      if a ≤ k ∧ k < a + o.length then flashByte m k &&& o.getD (k - a) 0 else flashByte m k := by
  induction o generalizing m a with
  | nil => simp [flashProgram, show ¬ (a ≤ k ∧ k < a) by omega]
  | cons b t ih =>
    simp only [flashProgram, ih (flashWf_put hw), flashByte_put hw, List.length_cons]
    by_cases hk : k = a
    · subst hk
      simp [show ¬ (k + 1 ≤ k) by omega]
    · by_cases h : a + 1 ≤ k ∧ k < a + 1 + t.length
      · have h' : a ≤ k ∧ k < a + (t.length + 1) := by omega
        have e : k - a = (k - (a + 1)) + 1 := by omega
        simp [hk, h, h', e]
      · have h' : ¬ (a ≤ k ∧ k < a + (t.length + 1)) := by omega
        simp only [h, h', hk, if_false]

theorem flashAbove_filter {m : List Host.Cell} {k : Nat} (p : Host.Cell → Bool) (h : flashAbove k m) (hw : flashWf m = true) :
    flashAbove k (m.filter p) := by
  induction m generalizing k with
  | nil => trivial
  | cons c t ih =>
    obtain ⟨_, hab, ht⟩ := flashWf_cons.mp hw
    simp only [flashAbove] at h
    simp only [List.filter_cons]
    split
    · exact h
    · refine ih ?_ ht
      cases t with
      | nil => trivial
      | cons d t =>
        simp only [flashAbove] at hab ⊢
        omega

/-- Any choice of cells keeps the canonical form. -/
theorem flashWf_filter {m : List Host.Cell} (p : Host.Cell → Bool) (hw : flashWf m = true) : flashWf (m.filter p) = true := by
  induction m with
  | nil => rfl
  | cons c t ih =>
    obtain ⟨hc, hab, ht⟩ := flashWf_cons.mp hw
    simp only [List.filter_cons]
    split
    · exact flashWf_cons.mpr ⟨hc, flashAbove_filter p hab ht, ih ht⟩
    · exact ih ht

/-- Erasing keeps the canonical form. -/
theorem flashWf_erase {m : List Host.Cell} {a n : Nat} (hw : flashWf m = true) : flashWf (flashErase m a n) = true :=
  flashWf_filter _ hw

/-- What an octet reads as after an erase. -/
theorem flashByte_erase {m : List Host.Cell} {a n k : Nat} (hw : flashWf m = true) :
    flashByte (flashErase m a n) k = if a ≤ k ∧ k < a + n then 0xFF else flashByte m k := by
  induction m with
  | nil => simp [flashErase, flashByte]
  | cons c t ih =>
    obtain ⟨hc, hab, ht⟩ := flashWf_cons.mp hw
    have hf := flashAbove_filter (fun c => !(decide (a ≤ c.1) && decide (c.1 < a + n))) hab ht
    simp only [flashErase] at ih
    simp only [flashErase, List.filter_cons]
    split
    · rename_i hp
      simp only [flashByte, ih ht]
      by_cases hk : k = c.1
      · have : ¬ (a ≤ k ∧ k < a + n) := by
          simp only [Bool.not_eq_true', Bool.and_eq_false_iff, decide_eq_false_iff_not] at hp
          omega
        simp only [hk] at this ⊢
        simp [this]
      · by_cases hl : k < c.1
        · simp [hk, hl]
        · simp [hk, hl]
    · rename_i hp
      simp only [Bool.not_eq_true, Bool.not_eq_false', Bool.and_eq_true, decide_eq_true_eq] at hp
      rw [ih ht]
      simp only [flashByte]
      by_cases hk : k = c.1
      · have : a ≤ k ∧ k < a + n := by omega
        simp [this]
      · by_cases hl : k < c.1
        · simp [hk, hl, flashByte_above hab (Nat.le_of_lt hl)]
        · simp [hk, hl]

/-! ## Ranges -/

theorem flashRead_eq {n a : Nat} {m : List Host.Cell} (hw : flashWf m = true) (h : ∀ c ∈ m, a ≤ c.1) :
    flashRead n m a = (List.range n).map fun i => flashByte m (a + i) := by
  induction n generalizing m a with
  | zero => cases m <;> rfl
  | succ n ih =>
    rw [List.range_succ_eq_map, List.map_cons, List.map_map]
    cases m with
    | nil =>
      simp only [flashRead, ih (m := []) rfl (by simp), flashByte]
      rfl
    | cons c t =>
      obtain ⟨hc, hab, ht⟩ := flashWf_cons.mp hw
      have htail : ∀ d ∈ t, c.1 < d.1 := by
        intro d hd
        induction t generalizing c with
        | nil => simp at hd
        | cons e t ih2 =>
          simp only [flashAbove] at hab
          obtain ⟨he, hab2, ht2⟩ := flashWf_cons.mp ht
          rcases List.mem_cons.mp hd with rfl | hd
          · exact hab
          · have := ih2 (c := e) ht (fun x hx => h x (List.mem_cons_of_mem _ hx)) he hab2 ht2 hd
            omega
      simp only [flashRead]
      by_cases hk : a = c.1
      · subst hk
        simp only [if_true, ih ht (fun d hd => htail d hd)]
        refine congrArg₂ _ (by simp [flashByte]) (List.map_congr_left fun i _ => ?_)
        have h1 : ¬ c.1 + 1 + i = c.1 := by omega
        have h2 : ¬ c.1 + 1 + i < c.1 := by omega
        simp only [Function.comp, flashByte, show c.1 + (i + 1) = c.1 + 1 + i by omega, h1, h2, if_false]
      · have hlt : a < c.1 := Nat.lt_of_le_of_ne (h c (List.mem_cons_self ..)) hk
        simp only [hk, if_false]
        rw [ih hw (fun d hd => by
          rcases List.mem_cons.mp hd with rfl | hd
          · exact hlt
          · have := htail d hd
            omega)]
        refine congrArg₂ _ (by simp [flashByte, hk, hlt]) (List.map_congr_left fun i _ => ?_)
        simp only [Function.comp, show a + (i + 1) = a + 1 + i by omega]

theorem flashByte_filter_ge {m : List Host.Cell} {a k : Nat} (hw : flashWf m = true) (hk : a ≤ k) :
    flashByte (m.filter fun c => a ≤ c.1) k = flashByte m k := by
  induction m with
  | nil => rfl
  | cons c t ih =>
    obtain ⟨hc, hab, ht⟩ := flashWf_cons.mp hw
    simp only [List.filter_cons]
    split
    · simp only [flashByte, ih ht]
    · rename_i hp
      simp only [decide_eq_true_eq] at hp
      have h1 : ¬ k = c.1 := by omega
      have h2 : ¬ k < c.1 := by omega
      simp only [flashByte, h1, h2, if_false, ih ht]

/-- A range reads as its octets, one by one. -/
theorem flashRange_eq {m : List Host.Cell} {a n : Nat} (hw : flashWf m = true) :
    flashRange m a n = (List.range n).map fun i => flashByte m (a + i) := by
  rw [flashRange, flashRead_eq (flashWf_filter _ hw) (by simp)]
  exact List.map_congr_left fun i _ => flashByte_filter_ge hw (by omega)

/-! ## The operations of the state -/

theorem State.flashWf_writeDir {s : State} {f : DirRec → DirRec} (hw : flashWf s.flash = true) : flashWf (s.writeDir f).flash = true := by
  simp only [State.writeDir]
  apply flashWf_program
  exact flashWf_erase hw

theorem State.flashWf_failDir {s : State} (hw : flashWf s.flash = true) : flashWf s.failDir.flash = true := by
  simp only [State.failDir]
  exact flashWf_erase hw

theorem State.flashWf_badWrite {n : Nat} {s : State} {a : Nat} (hw : flashWf s.flash = true) : flashWf (s.badWrite a n).flash = true := by
  induction n generalizing s a with
  | zero => exact hw
  | succ n ih => exact ih (flashWf_put hw)

theorem flashAbove_filterMap {l : List (Host.Cell × Nat)} {k : Nat} (g : Host.Cell × Nat → Option Host.Cell)
    (hg : ∀ p ∈ l, ∀ c, g p = some c → c.1 = p.1.1) (hk : ∀ p ∈ l, k < p.1.1) : flashAbove k (l.filterMap g) := by
  cases h : l.filterMap g with
  | nil => trivial
  | cons c t =>
    have hc : c ∈ l.filterMap g := by simp [h]
    obtain ⟨p, hp, hpc⟩ := List.mem_filterMap.mp hc
    simp only [flashAbove, hg p hp c hpc]
    exact hk p hp

theorem flashWf_filterMap {l : List (Host.Cell × Nat)} (g : Host.Cell × Nat → Option Host.Cell)
    (hg : ∀ p ∈ l, ∀ c, g p = some c → c.1 = p.1.1 ∧ c.2 ≠ 0xFF) (hs : (l.map fun p => p.1.1).Pairwise (· < ·)) :
    flashWf (l.filterMap g) = true := by
  induction l with
  | nil => rfl
  | cons p t ih =>
    simp only [List.map_cons, List.pairwise_cons] at hs
    have ht : ∀ q ∈ t, ∀ c, g q = some c → c.1 = q.1.1 ∧ c.2 ≠ 0xFF := fun q hq => hg q (List.mem_cons_of_mem _ hq)
    simp only [List.filterMap_cons]
    split
    · exact ih ht hs.2
    · rename_i c hc
      have hp := hg p (List.mem_cons_self ..) c hc
      refine flashWf_cons.mpr ⟨hp.2, ?_, ih ht hs.2⟩
      rw [hp.1]
      exact flashAbove_filterMap g (fun q hq d hd => (ht q hq d hd).1) fun q hq => hs.1 _ (List.mem_map.mpr ⟨q, hq, rfl⟩)

theorem flashWf_pairwise {m : List Host.Cell} (hw : flashWf m = true) : (m.map fun c => c.1).Pairwise (· < ·) := by
  induction m with
  | nil => simp
  | cons c t ih =>
    obtain ⟨_, hab, ht⟩ := flashWf_cons.mp hw
    have := ih ht
    simp only [List.map_cons, List.pairwise_cons]
    refine ⟨?_, this⟩
    cases t with
    | nil => simp
    | cons d t =>
      simp only [flashAbove] at hab
      simp only [List.map_cons, List.pairwise_cons] at this
      intro x hx
      rcases List.mem_cons.mp hx with rfl | hx
      · exact hab
      · exact Nat.lt_trans hab (this.1 x hx)

theorem flashWf_mem {m : List Host.Cell} (hw : flashWf m = true) : ∀ c ∈ m, c.2 ≠ 0xFF := by
  induction m with
  | nil => simp
  | cons c t ih =>
    obtain ⟨hc, _, ht⟩ := flashWf_cons.mp hw
    intro d hd
    rcases List.mem_cons.mp hd with rfl | hd
    · exact hc
    · exact ih ht d hd

theorem State.flashWf_scramble {s : State} {a n : Nat} (hw : flashWf s.flash = true) : flashWf (s.scramble a n).flash = true := by
  have hm := flashWf_mem hw
  simp only [State.scramble]
  refine flashWf_filterMap _ (fun p hp c hc => ?_) ?_
  · have hne := hm _ (List.of_mem_zip hp).1
    split at hc
    · split at hc
      · cases hc
      · rename_i hb
        cases hc
        exact ⟨rfl, hb⟩
    · cases hc
      exact ⟨rfl, hne⟩
  · have e : (s.flash.zip (List.range s.flash.length)).map (fun p => p.1.1) = s.flash.map fun c => c.1 := by
      have h := congrArg (List.map fun c : Host.Cell => c.1) (List.map_fst_zip (l₁ := s.flash) (l₂ := List.range s.flash.length) (by simp))
      rw [List.map_map] at h
      exact h
    rw [e]
    exact flashWf_pairwise hw

theorem State.flashWf_writeSlot {s : State} {base size off : Nat} {data : Octets} {late : Bool} (hw : flashWf s.flash = true) :
    flashWf (s.writeSlot base size off data late).2.flash = true := by
  simp only [State.writeSlot]
  split
  · apply State.flashWf_badWrite
    split
    · exact State.flashWf_scramble hw
    · exact hw
  · apply flashWf_program
    split
    · exact flashWf_erase hw
    · exact hw

end Sys2Proof.Machine
end

