-- ==== Sys2Proof/Laws/Hash.lean ====
section
/-! SUPPORT. Facts of SHA-256 and of LMS verification: lengths, and that a signature verifies under the public key whose root it leads to. -/

namespace Sys2Proof.Machine

theorem length_beOfNat (n v : Nat) : (beOfNat n v).length = n := by
  induction n generalizing v with
  | zero => rfl
  | succ k ih => simp [beOfNat, ih]

theorem beOfNat_lt {n v x : Nat} (h : x ∈ beOfNat n v) : x < 256 := by
  induction n generalizing v with
  | zero => simp [beOfNat] at h
  | succ k ih =>
    simp only [beOfNat, List.mem_append, List.mem_singleton] at h
    rcases h with h | rfl
    · exact ih h
    · exact Nat.mod_lt _ (by decide)

/-- A round keeps four words of each sequence. -/
theorem ShaRun.round_length {r : ShaRun} (t : Nat) (h : r.fast.length = 4 ∧ r.slow.length = 4) :
    (r.round t).fast.length = 4 ∧ (r.round t).slow.length = 4 := by
  simp [ShaRun.round, h]

theorem ShaRun.rounds_length (l : List Nat) {r : ShaRun} (h : r.fast.length = 4 ∧ r.slow.length = 4) :
    (l.foldl (fun r t => ShaRun.round t r) r).fast.length = 4 ∧ (l.foldl (fun r t => ShaRun.round t r) r).slow.length = 4 := by
  induction l generalizing r with
  | nil => exact h
  | cons t l ih => exact ih (r.round_length t h)

theorem length_shaBlock {s blk : List Nat} (h : s.length = 8) : (shaBlock s blk).length = 8 := by
  have r := ShaRun.rounds_length (List.range 64) (r := { fast := s.take 4, slow := s.drop 4, sched := (chunksOf 4 16 blk).map natOfBe })
    (by simp [h])
  simp only [shaBlock, List.length_map, List.length_zip, List.length_append, r.1, r.2, h]
  rfl

/-- A digest has 32 octets. -/
theorem length_sha256 (m : List Nat) : (sha256 m).length = 32 := by
  have fold : ∀ (l : List (List Nat)) (s : List Nat), s.length = 8 → (l.foldl shaBlock s).length = 8 := by
    intro l
    induction l with
    | nil => exact fun s h => h
    | cons b l ih => exact fun s h => ih _ (length_shaBlock h)
  have flat : ∀ l : List Nat, (l.flatMap (beOfNat 4)).length = 4 * l.length := by
    intro l
    induction l with
    | nil => rfl
    | cons x l ih => simp only [List.flatMap_cons, List.length_append, length_beOfNat, ih, List.length_cons]; omega
  simp only [sha256, flat, fold _ _ (show ((List.range 8).map (word32 shaStart)).length = 8 from rfl)]

theorem sha256_lt {m : List Nat} {x : Nat} (h : x ∈ sha256 m) : x < 256 := by
  simp only [sha256, List.mem_flatMap] at h
  obtain ⟨y, -, hy⟩ := h
  exact beOfNat_lt hy

theorem octNats_natOcts {l : List Nat} (h : ∀ x ∈ l, x < 256) : octNats (natOcts l) = l := by
  induction l with
  | nil => rfl
  | cons x l ih =>
    simp only [octNats, natOcts, List.map_cons, List.cons.injEq, BitVec.toNat_ofNat]
    exact ⟨Nat.mod_eq_of_lt (h x (by simp)), ih fun y hy => h y (by simp [hy])⟩

/-- The tree root that a signature over `msg` leads to, for the key identifier `id`. -/
def lmsRoot (id sig msg : List Nat) : List Nat :=
  let q := sig.take 4
  let ots := (sig.drop 4).take 2180
  let qh := sha256 (id ++ q ++ [0x81, 0x81] ++ (ots.drop 4).take 32 ++ msg)
  let kc := sha256 (id ++ q ++ [0x80, 0x80] ++ (otsCandidates id q 0 (otsDigits qh) (chunksOf 32 67 (ots.drop 36))).flatten)
  lmsPath id (32768 + natOfBe q) (chunksOf 32 15 (sig.drop 2188)) (sha256 (id ++ beOfNat 4 (32768 + natOfBe q) ++ [0x82, 0x82] ++ kc))

theorem lmsPath_sha {id : List Nat} {ps : List (List Nat)} {n : Nat} {m : List Nat} : ∃ k, lmsPath id n ps (sha256 m) = sha256 k := by
  induction ps generalizing n m with
  | nil => exact ⟨m, rfl⟩
  | cons p ps ih => exact ih

theorem lmsRoot_sha (id sig msg : List Nat) : ∃ k, lmsRoot id sig msg = sha256 k := lmsPath_sha

/-- The public key of a root. -/
def lmsKey (id sig msg : List Nat) : List Nat := [0, 0, 0, 7, 0, 0, 0, 3] ++ id ++ lmsRoot id sig msg

theorem lmsVerify_lmsKey {id sig msg : List Nat} (hi : id.length = 16) (hs : sig.length = 2668)
    (ht : natOfBe (((sig.drop 4).take 2180).take 4) = 3) (hl : natOfBe ((sig.drop 2184).take 4) = 7) (hq : natOfBe (sig.take 4) < 32768) :
    lmsVerify (lmsKey id sig msg) sig msg = true := by
  obtain ⟨k, hk⟩ := lmsRoot_sha id sig msg
  have len : (lmsRoot id sig msg).length = 32 := by rw [hk, length_sha256]
  have mid : ((lmsKey id sig msg).drop 8).take 16 = id := by
    simp [lmsKey, ← hi]
  have root : (lmsKey id sig msg).drop 24 = lmsRoot id sig msg := by
    simp [lmsKey, hi]
  simp only [lmsVerify, mid, root, hs, ht, hl, hq, Bool.and_eq_true, decide_eq_true_eq]
  refine ⟨⟨⟨⟨⟨⟨⟨?_, trivial⟩, ?_⟩, ?_⟩, trivial⟩, trivial⟩, trivial⟩, rfl⟩
  · simp [lmsKey, hi, len]
  · simp [lmsKey, natOfBe]
  · simp [lmsKey, natOfBe]

/-- Octets programmed over an erased flash read back. -/
theorem flashRange_program (a : Nat) (o : Octets) : flashRange (flashProgram [] a o) a o.length = o := by
  have hw : flashWf ([] : List Host.Cell) = true := rfl
  rw [flashRange_eq (flashWf_program hw)]
  apply List.ext_getElem
  · simp
  · intro i h1 h2
    have hi : i < o.length := by simpa using h1
    have e : (0xFF : Byte) &&& o[i] = o[i] := BitVec.allOnes_and
    simp only [List.getElem_map, List.getElem_range, flashByte_program hw, flashByte, Nat.le_add_right, Nat.add_lt_add_iff_left, hi, and_self,
      if_true, Nat.add_sub_cancel_left, List.getD_eq_getElem _ _ hi]
    exact e

end Sys2Proof.Machine
end

