-- ==== Sys2Proof/Laws/Tables.lean ====
section
/-! SUPPORT. Reading after writing: sparse tables, values per front end and port, Tally. -/

namespace Sys2Proof.Machine

/-! ## Sparse tables, on any list of entries -/

@[simp] theorem Tbl.get_nil {α : Type} (i : Nat) : Tbl.get ([] : Tbl α) i = none := rfl

theorem Tbl.get_set {α : Type} (t : Tbl α) (i j : Nat) (a : α) :
    (Tbl.set t i a).get j = if j = i then some a else t.get j := by
  induction t with
  | nil => rfl
  | cons p t ih =>
    obtain ⟨k, v⟩ := p
    simp only [Tbl.set]
    split
    · rfl
    · split
      · subst_vars
        simp only [Tbl.get]
        split <;> rfl
      · simp only [Tbl.get, ih]
        by_cases hj : j = k <;> by_cases hi : j = i <;> simp_all

@[simp] theorem Tbl.get_set_self {α : Type} (t : Tbl α) (i : Nat) (a : α) : (Tbl.set t i a).get i = some a := by
  simp [Tbl.get_set]

theorem Tbl.get_set_ne {α : Type} (t : Tbl α) {i j : Nat} (a : α) (h : j ≠ i) : (Tbl.set t i a).get j = t.get j := by
  simp [Tbl.get_set, h]

theorem Tbl.get_erase {α : Type} (t : Tbl α) (i j : Nat) : (Tbl.erase t i).get j = if j = i then none else t.get j := by
  induction t with
  | nil => simp [Tbl.erase]
  | cons p t ih =>
    obtain ⟨k, v⟩ := p
    simp only [Tbl.erase] at ih
    by_cases hk : k = i
    · simp only [Tbl.erase, List.filter_cons, hk, bne_self_eq_false, Bool.false_eq_true, if_false, ih, Tbl.get]
      by_cases hj : j = i <;> simp [hj]
    · have : (k != i) = true := by simpa using hk
      simp only [Tbl.erase, List.filter_cons, this, if_true, Tbl.get, ih]
      by_cases hj : j = k <;> by_cases hi : j = i <;> simp_all

@[simp] theorem Tbl.get_erase_self {α : Type} (t : Tbl α) (i : Nat) : (Tbl.erase t i).get i = none := by simp [Tbl.get_erase]

theorem Tbl.get_erase_ne {α : Type} (t : Tbl α) {i j : Nat} (h : j ≠ i) : (Tbl.erase t i).get j = t.get j := by
  simp [Tbl.get_erase, h]

theorem Tbl.getD_set {α : Type} (t : Tbl α) (i j : Nat) (a d : α) :
    (Tbl.set t i a).getD j d = if j = i then a else t.getD j d := by
  simp only [Tbl.getD, Tbl.get_set]
  split <;> rfl

/-! ## Front ends and ports -/

theorem PerFe.get_set {α : Type} (p : PerFe α) (f g : Fe) (a : α) : (p.set f a).get g = if g = f then a else p.get g := by
  cases f <;> cases g <;> rfl

@[simp] theorem PerFe.get_set_self {α : Type} (p : PerFe α) (f : Fe) (a : α) : (p.set f a).get f = a := by simp [PerFe.get_set]

theorem PerPort.get_set {α : Type} (p : PerPort α) (f g : Port) (a : α) : (p.set f a).get g = if g = f then a else p.get g := by
  cases f <;> cases g <;> rfl

@[simp] theorem PerPort.get_set_self {α : Type} (p : PerPort α) (f : Port) (a : α) : (p.set f a).get f = a := by
  simp [PerPort.get_set]

/-! ## Tally -/

theorem Tally.read_add (t : Tally) (k j : CtrKey) (n : BitVec 64) :
    Tally.read (Tally.add t k n) j = Tally.read t j + if j = k then n else 0 := by
  induction t with
  | nil =>
    by_cases h : j = k
    · simp [Tally.add, Tally.read, h]
    · simp [Tally.add, Tally.read, h, Ne.symm h]
  | cons v t ih =>
    simp only [Tally.add]
    split
    · rename_i hv
      simp only [Tally.read]
      by_cases h : j = k
      · simp [hv, h]
      · have : ¬ k = j := fun e => h e.symm
        simp [hv, h, this]
    · rename_i hv
      simp only [Tally.read]
      split
      · rename_i hj
        have : ¬ j = k := fun e => hv (hj.trans e)
        simp [this]
      · exact ih

theorem State.counter_count (s : State) (c d : Ctr) (x y : Scope) :
    (s.count c x).counter d y = s.counter d y + if (d = c ∧ y = x) then 1 else 0 := by
  simp only [State.counter, State.count, Tally.read_add, CtrKey.mk.injEq]

@[simp] theorem State.counter_count_self (s : State) (c : Ctr) (x : Scope) : (s.count c x).counter c x = s.counter c x + 1 := by
  simp [State.counter_count]

end Sys2Proof.Machine
end

