-- ==== Sys2Proof/Laws/Ops.lean ====
section
/-! SUPPORT. What the shared operations can do: which parts of the state they leave, and what their parts hold after them.  A frame is
said as an equality of states from which the written parts are erased; `congrArg` takes any other field out of it. -/

namespace Sys2Proof.Machine

/-! ## Erasures -/

/-- Without Tally, the mailboxes and the events held. -/
def State.sansMail (s : State) : State := { s with tally := [], early := [], mbox := [] }

/-- Without the cells, the orders and reassembly. -/
def State.sansQueues (s : State) : State := { s with queues := {} }

/-- Without what an answer writes: Tally, mailboxes, sequence ceilings, queues, sends waiting for Sawmill. -/
def State.sansAnswer (s : State) : State :=
  { s with tally := [], mbox := [], queues := {}, hw := { s.hw with seqCeil := [] }, back := { s.back with sends := [] } }

/-- A fold keeps what each of its steps keeps. -/
theorem foldl_keeps {α β γ : Type} (f : α → β → α) (p : α → γ) (h : ∀ a b, p (f a b) = p a) (l : List β) (a : α) :
    p (l.foldl f a) = p a := by
  induction l generalizing a with
  | nil => rfl
  | cons b t ih => exact (ih (f a b)).trans (h a b)

/-! ## Events -/

theorem State.sansMail_deliverTo (s : State) (e : Event) (lost : Bool) (m : Nat) : (s.deliverTo e lost m).sansMail = s.sansMail := by
  unfold State.deliverTo
  split
  · dsimp only
    split <;> rfl
  · rfl

theorem State.sansMail_deliver (s : State) (e : Event) (lost : Bool) : (s.deliver e lost).sansMail = s.sansMail := by
  unfold State.deliver
  exact foldl_keeps _ State.sansMail (fun s m => s.sansMail_deliverTo e lost m) _ s

theorem State.sansMail_hold (s : State) (e : Event) : (s.hold e).sansMail = s.sansMail := by
  unfold State.hold
  split <;> rfl

/-- Raising an event writes the rings, the events held and the counters of lost events only. -/
theorem State.sansMail_raise (s : State) (code : Nat) (w : Option Nat) (data : Octets) : (s.raise code w data).sansMail = s.sansMail := by
  unfold State.raise
  dsimp only
  split
  · exact s.sansMail_deliver _ _
  · exact s.sansMail_hold _

/-- Fields after `raise`. -/
@[simp] theorem State.raise_fields (s : State) (code : Nat) (w : Option Nat) (data : Octets) :
    (s.raise code w data).clk = s.clk ∧ (s.raise code w data).rnd = s.rnd ∧ (s.raise code w data).id = s.id ∧
    (s.raise code w data).life = s.life ∧ (s.raise code w data).pins = s.pins ∧ (s.raise code w data).flash = s.flash ∧
    (s.raise code w data).crypto = s.crypto ∧ (s.raise code w data).time = s.time ∧ (s.raise code w data).rtc = s.rtc ∧
    (s.raise code w data).hw = s.hw ∧ (s.raise code w data).dirty = s.dirty ∧ (s.raise code w data).held = s.held ∧
    (s.raise code w data).m0Out = s.m0Out ∧ (s.raise code w data).queues = s.queues ∧ (s.raise code w data).parting = s.parting ∧
    (s.raise code w data).fe = s.fe ∧ (s.raise code w data).lanes = s.lanes ∧ (s.raise code w data).domA = s.domA ∧
    (s.raise code w data).domB = s.domB ∧ (s.raise code w data).dec = s.dec ∧ (s.raise code w data).mac = s.mac ∧
    (s.raise code w data).table = s.table ∧ (s.raise code w data).wake = s.wake ∧ (s.raise code w data).canopy = s.canopy ∧
    (s.raise code w data).back = s.back ∧ (s.raise code w data).isl = s.isl ∧ (s.raise code w data).pending = s.pending := by
  have h := s.sansMail_raise code w data
  repeat' apply And.intro
  · exact (congrArg State.clk h :)
  · exact (congrArg State.rnd h :)
  · exact (congrArg State.id h :)
  · exact (congrArg State.life h :)
  · exact (congrArg State.pins h :)
  · exact (congrArg State.flash h :)
  · exact (congrArg State.crypto h :)
  · exact (congrArg State.time h :)
  · exact (congrArg State.rtc h :)
  · exact (congrArg State.hw h :)
  · exact (congrArg State.dirty h :)
  · exact (congrArg State.held h :)
  · exact (congrArg State.m0Out h :)
  · exact (congrArg State.queues h :)
  · exact (congrArg State.parting h :)
  · exact (congrArg State.fe h :)
  · exact (congrArg State.lanes h :)
  · exact (congrArg State.domA h :)
  · exact (congrArg State.domB h :)
  · exact (congrArg State.dec h :)
  · exact (congrArg State.mac h :)
  · exact (congrArg State.table h :)
  · exact (congrArg State.wake h :)
  · exact (congrArg State.canopy h :)
  · exact (congrArg State.back h :)
  · exact (congrArg State.isl h :)
  · exact (congrArg State.pending h :)

/-- Marking an item for the coalescing buffer changes that list only, and puts the item into it. -/
theorem State.touch_eq (s : State) (d : HwDirty) : s.touch d = { s with dirty := (s.touch d).dirty } ∧ d ∈ (s.touch d).dirty := by
  unfold State.touch
  split
  · rename_i h
    exact ⟨rfl, by simpa using h⟩
  · exact ⟨rfl, by simp⟩

/-! ## Cells and queues -/

/-- A grant that is given changes the cell accounts only, by the cells asked for. -/
theorem State.grant_some {s t : State} {a n : Nat} (h : s.grant a n = some t) :
    t = { s with queues := { s.queues with
      used := t.queues.used, sharedUsed := t.queues.sharedUsed, worldShared := t.queues.worldShared } } ∧
      t.queues.used = s.queues.used.setNat a (s.used a + n) ∧ s.used a + n ≤ s.acctLim a := by
  unfold State.grant at h
  cases hw : s.acctWorld a <;>
  · simp only [hw] at h
    split at h
    · cases h
    · rename_i hc
      cases h
      refine ⟨rfl, rfl, ?_⟩
      simp only [Bool.or_eq_true, decide_eq_true_eq, not_or, Nat.not_lt] at hc
      exact hc.1.1

/-- A release changes the cell accounts only. -/
theorem State.sansQueues_release (s : State) (a n : Nat) : (s.release a n).sansQueues = s.sansQueues := rfl

@[simp] theorem State.order_release (s : State) (a n k : Nat) : (s.release a n).order k = s.order k := rfl

theorem Tbl.getD_setNat (t : Tbl Nat) (i j n : Nat) : (Tbl.setNat t i n).getD j 0 = if j = i then n else t.getD j 0 := by
  unfold Tbl.setNat
  split
  · rename_i h
    simp only [Tbl.getD, Tbl.get_erase]
    split <;> simp [h]
  · exact Tbl.getD_set t i j n 0

theorem State.used_release (s : State) (a n b : Nat) : (s.release a n).used b = if b = a then s.used a - n else s.used b := by
  simp only [State.used, State.release, Tbl.getD_setNat]

theorem State.order_setOrder (s : State) (k j : Nat) (l : List Packet) : (s.setOrder k l).order j = if j = k then l else s.order j := by
  simp only [State.order, State.setOrder]
  split
  · rename_i h
    simp only [Tbl.getD, Tbl.get_erase]
    split
    · simp only [List.isEmpty_iff] at h
      simp [h]
    · rfl
  · exact Tbl.getD_set _ _ _ _ _

@[simp] theorem State.order_setOrder_self (s : State) (k : Nat) (l : List Packet) : (s.setOrder k l).order k = l := by
  simp [State.order_setOrder]

@[simp] theorem State.used_setOrder (s : State) (k a : Nat) (l : List Packet) : (s.setOrder k l).used a = s.used a := rfl

theorem State.sansQueues_setOrder (s : State) (k : Nat) (l : List Packet) : (s.setOrder k l).sansQueues = s.sansQueues := rfl

/-- Which packet leaves construction writes neither orders nor accounts. -/
theorem State.unstage_frame (s : State) (p : Packet) (keep : List Nat) :
    (s.unstage p keep).sansQueues = s.sansQueues ∧ (s.unstage p keep).queues.orders = s.queues.orders ∧
      (s.unstage p keep).queues.used = s.queues.used := by
  unfold State.unstage
  cases p.content.producer with
  | none => exact ⟨rfl, rfl, rfl⟩
  | some w =>
    dsimp only
    split <;> exact ⟨rfl, rfl, rfl⟩

@[simp] theorem State.order_spill (s : State) (q k : Nat) : (s.spill q).order k = s.order k := rfl

@[simp] theorem State.used_spill (s : State) (q a : Nat) : (s.spill q).used a = s.used a := rfl

/-- A commit appends one packet to the tail of its order. -/
theorem State.order_commitTo (s : State) (k j acct cells : Nat) (c : Content) (keep : List Nat) :
    (s.commitTo k acct cells c keep).order j = if j = k then s.order k ++ [s.newPacket acct cells c keep] else s.order j := by
  simp only [State.commitTo, State.order_spill, State.order_setOrder]
  split
  · rfl
  · simp only [State.order, (s.unstage_frame _ _).2.1]

/-- It charges nothing. -/
@[simp] theorem State.used_commitTo (s : State) (k a acct cells : Nat) (c : Content) (keep : List Nat) :
    (s.commitTo k acct cells c keep).used a = s.used a := by
  rw [State.commitTo, State.used_spill, State.used_setOrder]
  simp only [State.used, (s.unstage_frame _ _).2.2]

theorem State.sansQueues_commitTo (s : State) (k acct cells : Nat) (c : Content) (keep : List Nat) :
    (s.commitTo k acct cells c keep).sansQueues = s.sansQueues := by
  have h := (s.unstage_frame (s.newPacket acct cells c keep) keep).1
  exact h

/-- A cell that becomes free is retired or not: accounts and orders stand. -/
theorem State.cellFreed_frame (s : State) (c : Nat) :
    (s.cellFreed c).queues.used = s.queues.used ∧ (s.cellFreed c).queues.orders = s.queues.orders ∧
      (s.cellFreed c).sansMail.sansQueues = s.sansMail.sansQueues := by
  unfold State.cellFreed
  dsimp only
  split
  · exact ⟨rfl, rfl, rfl⟩
  · split
    · split
      · exact ⟨rfl, rfl, rfl⟩
      · refine ⟨?_, ?_, ?_⟩
        · rw [(State.raise_fields _ _ _ _).2.2.2.2.2.2.2.2.2.2.2.2.2.1]
        · rw [(State.raise_fields _ _ _ _).2.2.2.2.2.2.2.2.2.2.2.2.2.1]
        · rw [State.sansMail_raise]
          rfl
    · exact ⟨rfl, rfl, rfl⟩

/-- Cells released take from their account, and retire those of marked blocks; orders stand. -/
theorem State.releaseChain_frame (s : State) (a n : Nat) (l : List Nat) :
    (s.releaseChain a n l).queues.used = (s.release a n).queues.used ∧ (s.releaseChain a n l).queues.orders = s.queues.orders ∧
      (s.releaseChain a n l).sansMail.sansQueues = s.sansMail.sansQueues := by
  refine ⟨?_, ?_, ?_⟩
  · exact foldl_keeps State.cellFreed (fun s => s.queues.used) (fun s c => (s.cellFreed_frame c).1) l _
  · exact foldl_keeps State.cellFreed (fun s => s.queues.orders) (fun s c => (s.cellFreed_frame c).2.1) l _
  · exact foldl_keeps State.cellFreed (fun s => s.sansMail.sansQueues) (fun s c => (s.cellFreed_frame c).2.2) l _

@[simp] theorem State.order_releaseChain (s : State) (a n k : Nat) (l : List Nat) : (s.releaseChain a n l).order k = s.order k := by
  simp only [State.order, (s.releaseChain_frame a n l).2.1]

theorem State.used_releaseChain (s : State) (a n b : Nat) (l : List Nat) :
    (s.releaseChain a n l).used b = if b = a then s.used a - n else s.used b := by
  simp only [State.used, (s.releaseChain_frame a n l).1]
  exact s.used_release a n b

/-- The oldest request of a mailbox is taken: its packet leaves the queue and its cells are released, and nothing else changes. -/
theorem State.nextRequest_some {s t : State} {m : Nat} {r : Request} (h : s.nextRequest m = some (r, t)) :
    t.sansMail.sansQueues = s.sansMail.sansQueues ∧ ∃ p rest, s.order (orderKey (388 + m) 0) = p :: rest ∧ p.content = .request r ∧
      t.order (orderKey (388 + m) 0) = rest := by
  unfold State.nextRequest at h
  split at h
  · rename_i p rest ho
    split at h
    · rename_i r' hr
      cases h
      exact ⟨State.releaseChain_frame _ _ _ _ |>.2.2, p, rest, ho, hr, by simp⟩
    · cases h
  · cases h

/-! ## Answers -/

theorem State.sansQueues_post {s t : State} {q f w n : Nat} {c : Content} {keep : List Nat} (h : s.post q f w n c keep = some t) :
    t.sansQueues = s.sansQueues := by
  unfold State.post at h
  dsimp only at h
  split at h
  · cases h
  · split at h
    · cases h
    · rename_i u hu
      cases h
      rw [State.sansQueues_commitTo, (State.grant_some hu).1]
      rfl

theorem State.sansAnswer_of_sansQueues {s t : State} (h : t.sansQueues = s.sansQueues) : t.sansAnswer = s.sansAnswer := by
  have e : t.sansQueues.sansAnswer = s.sansQueues.sansAnswer := by rw [h]
  exact e

theorem State.sansAnswer_commitMsg (s : State) (m : Nat) (g : Msg) (ev : List (BitVec 32)) : (s.commitMsg m g ev).sansAnswer = s.sansAnswer := by
  unfold State.commitMsg
  split
  · exact State.sansAnswer_of_sansQueues (s.sansQueues_commitTo _ _ _ _ _)
  · split
    · rfl
    · split
      · rename_i t ht
        exact State.sansAnswer_of_sansQueues (State.sansQueues_post ht)
      · rfl

theorem State.sansAnswer_setMb (s : State) (m : Nat) (b : MboxSt) : (s.setMb m b).sansAnswer = s.sansAnswer := rfl

theorem State.sansAnswer_takeSeq (s : State) (m : Nat) : (s.takeSeq m).2.sansAnswer = s.sansAnswer := by
  unfold State.takeSeq
  dsimp only
  split <;> rfl

/-- An answer writes what an answer writes, and nothing else. -/
theorem State.sansAnswer_respond (s : State) (m : Nat) (r : Request) (status : Nat) (o : Octets) :
    (s.respond m r status o).sansAnswer = s.sansAnswer := by
  unfold State.respond
  dsimp only
  rw [State.sansAnswer_commitMsg, State.sansAnswer_setMb, State.sansAnswer_takeSeq]

theorem State.sansAnswer_begin (s : State) (m : Nat) (r : Request) (first : Octets) (status : Nat) (o : Octets) :
    (s.begin m r first status o).sansAnswer = s.sansAnswer := by
  unfold State.begin
  dsimp only
  rw [State.sansAnswer_setMb, State.sansAnswer_respond]

theorem State.sansAnswer_finish (s : State) (m : Nat) (b : Busy) (status : Nat) (o : Octets) :
    (s.finish m b status o).sansAnswer = s.sansAnswer := by
  unfold State.finish
  dsimp only
  rw [State.sansAnswer_respond, State.sansAnswer_setMb]

/-- The kept outcome of a command that has begun. -/
theorem State.busy_begin (s : State) (m : Nat) (r : Request) (first : Octets) (status : Nat) (o : Octets) :
    ((s.begin m r first status o).mb m).busy = some { req := r, cls := (cmdClass r.opcode).getD .long, status := status, result := o } := by
  simp [State.begin, State.mb, State.setMb, Tbl.getD_set]

/-- A host command that is executed is its action, on the state in which its request has been taken. -/
theorem State.hostCmd_runs {s t : State} {m op : Nat} {r : Request} (act : State → Request → State) (hn : s.nextRequest m = some (r, t))
    (ho : r.opcode = op) (hp : s.inPause = false) (hb : alwaysRuns op = true ∨ (s.mb m).busy = none) (hs : t.stateTakes m op = true)
    (hm : t.permitted m op = true) : s.hostCmd m op act = act t r := by
  unfold State.hostCmd
  simp only [hn, ho, hp, hs, hm]
  rcases hb with hb | hb <;> simp [hb]

/-- A short command that is executed on an argument of its length is its action. -/
theorem State.shortCmd_runs {s t : State} {m op len : Nat} {r : Request} (act : State → Request → State) (hn : s.nextRequest m = some (r, t))
    (ho : r.opcode = op) (hp : s.inPause = false) (hb : alwaysRuns op = true ∨ (s.mb m).busy = none) (hs : t.stateTakes m op = true)
    (hm : t.permitted m op = true) (hl : r.payload.length = len) : s.shortCmd m op len act = act t r := by
  unfold State.shortCmd
  rw [State.hostCmd_runs _ hn ho hp hb hs hm]
  simp [hl]

end Sys2Proof.Machine
end

