-- ==== Sys2Proof/WellFormed.lean ====
section
/-! DEFINITION. Which commands are well formed: the lists an operand holds have one entry for each unit, and numbers lie within the
range their field has. -/

namespace Sys2Proof

/-- An answer for each cipher unit; corrections of the 16 PUF blocks at most, and a secret of the length the model takes it in. -/
def TestEnv.wf (r : TestEnv) : Bool :=
  r.unitOk.length == 4 &&
    match r.puf with
    | some p => decide (p.corrections.length ≤ 16) && p.secret.length == 58
    | none => true

def StartEnv.wf (e : StartEnv) : Bool := e.tests.wf && e.feRails.length == 3 && e.laneKat.length == 48

def PortMetric.wf (p : PortMetric) : Bool := decide (p.s < 2 ^ 64) && decide (p.e < 2 ^ 64)

def CanopyEnv.wf (e : CanopyEnv) : Bool :=
  e.unitPm.length == 8 && e.unitPm.all (fun x => decide (x ≤ 1000)) && e.busy.all (fun b => decide (b.perMille ≤ 1000) && decide (b.channel < 64))

def CeilKind.wf : CeilKind → Bool
  | .node i => decide (i < 131072)
  | .group i => decide (40 ≤ i) && decide (i ≤ 167)
  | .join => true
  | .mailbox _ => true

def ReadAt.wf : ReadAt → Bool
  | .head q _ => decide (q < 512)
  | .retry _ n => decide (n < 64)
  | .flow i => decide (i < 131072)
  | _ => true

def FaultUnit.wf : FaultUnit → Bool
  | .queueDesc q _ => decide (q < 512)
  | .corrected _ c | .cellFree c => decide (c < 1048576)
  | .uncorrectable p _ _ c => p.wf && decide (c < 1048576)
  | .heartPage p => decide (p < 2944)
  | _ => true

def FragHdr.wf (f : FragHdr) : Bool := decide (f.tag < 65536) && decide (f.size < 2048) && decide (f.offset < 2048)

def AirPayload.wf : AirPayload → Bool
  | .data ip _ _ (some f) => decide (ip.length < 65536) && f.wf
  | .data ip _ _ none => decide (ip.length < 65536)
  | _ => true

/-- A command's operands are in their ranges. -/
def Instr.wf : Instr → Bool
  | .selftestRun _ _ r => r.wf
  | .m0Write _ n o => decide (n < 65536) && decide (o.length < 65536)
  | .verieliRequest _ _ d => decide (d.octets.length < 65536)
  | .resetNRise _ e => e.wf
  | .pfiNHigh _ e => e.wf
  | .zeroiseNHigh _ e => e.wf
  | .zeroisationEnd _ e => e.wf
  | .tamperClassB _ _ e => e.wf
  | .periodicSelftest _ r => r.wf
  | .sfdFound _ _ _ _ a b => a.wf && b.wf
  | .codewordDecoded _ _ n _ => decide (n ≤ 50)
  | .frameEnd _ _ f => f.payload.wf
  | .laneReturn _ _ kat => kat.length == 24
  | .rtcAdjust _ e => decide (e.natAbs ≤ 31000)
  | .neighbourWindow _ r => decide (r < 65536)
  | .joinTimeout _ i => decide (i < 131072)
  | .reassemblyTimeout _ _ tag size => decide (tag < 65536) && decide (size < 2048)
  | .cipherJobPost _ _ input _ => input.length % 16 == 0
  | .fcCeilingWrite _ k => k.wf
  | .backhaulFrameEnd _ _ f => decide (1 ≤ f.size)
  | .recordUncorrectable _ i => decide (i < 131072)
  | .canopyRound _ e => e.wf
  | .canopyUnwatched _ _ k => decide (k < 64)
  | .unitFault _ u => u.wf
  | .thermalStep _ _ e => e.wf
  | .testLogicReset _ e => e.wf
  | _ => true

end Sys2Proof
end

