-- ==== Sys2Proof/Tests/Slice0.lean ====
section
/-! SUPPORT. Tests: ill-formed operands are refused by `Instr.wf`; worked examples and tables of the manual; and for every statement a state
and operands that meet its premises. -/

namespace Sys2Proof.Tests

open Sys2Proof Sys2Proof.Machine

/-! ## States to test on -/

/-- Records of a small image: regions, three front ends, a MAC, a beacon, worlds 0 and 1, mailboxes 1 and 2, the backhaul. -/
def recs : List CfgRec := [
  { typ := 1, inst := 0, rflags := 1, payload := toBe 164 0x20000801a701800703839102700000000000000003c0000180d8fe0330794102700000000000000002800000000000000000000000000000000000000000000000000000000000000000000000000000000000000000000000000000000000000000000000000000000000000000000000000000000000000000000000000000000000000000000000000000000000000000000000000000000000000000000000000 },
  { typ := 2, inst := 0, rflags := 1, payload := toBe 72 0x60b0a2330103010828ec00000000000a00000000d0070100100e0000e803000000080c090a0000000000000000000000000000000000000000000000000000000000000000000000 },
  { typ := 2, inst := 1, rflags := 1, payload := toBe 72 0xd99360103010828ec00000000000a00000000d0070100100e0000e803000000080c090a0000000000000000000000000000000000000000000000000000000000000000000000 },
  { typ := 2, inst := 2, rflags := 1, payload := toBe 72 0x800808920503010814d800000000000a00000000d0070100100e0000e803000000080c090a0000000000000000000000000000000000000000000000000000000000000000000000 },
  { typ := 5, inst := 0, rflags := 1, payload := toBe 32 0x100feff03050403a000ab01c8000840a00f1414140000000000000000000000 },
  { typ := 6, inst := 0, rflags := 1, payload := toBe 8 0x100000001002820 },
  { typ := 9, inst := 0, rflags := 1, payload := toBe 24 0x401f640000000000 },
  { typ := 10, inst := 0, rflags := 1, payload := toBe 24 0x20000000000000000000090d0ef1f0080841e7017002000 },
  { typ := 10, inst := 1, rflags := 1, payload := toBe 16 0x10000000000000000000000e80b0000 },
  { typ := 10, inst := 2, rflags := 1, payload := toBe 16 0x10000000000000000000000e80b0000 },
  { typ := 12, inst := 0, rflags := 1, payload := toBe 16 0x101aa10000010000404060100000000 },
  { typ := 17, inst := 0, rflags := 1, payload := toBe 16 0x0 },
  { typ := 17, inst := 1, rflags := 1, payload := toBe 16 0xfd000000000000010000000000000000 },
  { typ := 18, inst := 1, rflags := 1, payload := toBe 88 0x1017dc40000000000000000000000000000000000000000000000000000000000000000000000000000000000000000e97addfe781d9ba11b638373dd00bbfab16eb2818420a4a2d91cc37e68cd2dd9c0c8e64223592452 },
  { typ := 18, inst := 2, rflags := 1, payload := toBe 88 0x17ec4000000000000000000000000000000000000000000000000000000000000000000000000000000000000000080a6fd139c284ea2232fff5a846db244ca5ef162866595a7bb132fca92f1457d610c8e9b6cc29f66 },
  { typ := 19, inst := 33, rflags := 1, payload := toBe 56 0x108ff00000000000000000000000021bd0d03beb999f0f380091c2ff2f254905cf8ac0da8b4022a00000000000000000000000000000000 },
  { typ := 21, inst := 0, rflags := 1, payload := toBe 112 0x10107000802000008020000ffffdc05020000000001000000000000fd00000000000000000000000000000132006400fa00bc02881301143200100000000000000000000000000000000000000000000000000000000000000000000000000001010000000000000000000000000000 }]

/-- An image of those records. -/
def image : Image := { version := 1, flags := 0, mac := [], recs := recs }

/-- A part in OPERATE with that image, its mailboxes open, its radio on. -/
def up : State := { State.reset with
  life := { lcs := .operate, mode := .operate, image := some image, radioOn := true, hwOpen := true, cpuUp := true, fwSlot := some 0,
            cfgSlot := some 0, approved := true, selfTestsPassed := true }
  pins := { resetN := true }
  mbox := [(0, { isOpen := true, ceiling := 5000 }), (1, { isOpen := true, world := 1, ceiling := 5000 })]
  domA := { powered := true }, domB := { powered := true }
  fe := { sa := { mode := .rx, centre := 867348576 }, sb := { mode := .rx, centre := 909054208 }, h := { mode := .rx, centre := 2450000000 } }
  table := { seed := 1 }, crypto := { drbgOn := true }, clk := 1024
  time := { sec := 100, disc := .free } }

/-- A request of `op`. -/
def req (op : Nat) (o : Octets) : Request := { opcode := op, seq := 7, enc := false, srcAddr := 0, srcPort := 0, payload := o }

/-- The state with that request accepted at mailbox m. -/
def askAt (m : Nat) (s : State) (op : Nat) (o : Octets) : State :=
  s.commitTo (orderKey (388 + m) 0) (accountOf (388 + m) 0) 1 (.request (req op o))

def ask (s : State) (op : Nat) (o : Octets) : State := askAt 0 s op o

/-- A part in PROVISION. -/
def prov : State := { up with life := { up.life with lcs := .provision, mode := .provision, radioOn := false, image := none } }

/-! ## Well-formedness: an ill-formed operand for each check -/

def tests4 : TestEnv := { puf := some ⟨[1], List.replicate 58 0⟩, entropy1 := true, entropy2 := true, unitOk := [true, true, true, true], firstFail := none }
def env : StartEnv :=
  { recover := false, tests := tests4, dramOk := true, feRails := [true, true, true], laneKat := List.replicate 48 true }
def frame : AirFrame :=
  { psdu := [], version := 2, ftype := 1, ar := false, seq := some 1, dstPan := some 1, dst := .ext 0, srcPan := none,
    src := .ext 5, sec := none, payload := .other }
def hdr : EthHdr := { dstMac := 0x020000000001, srcMac := 0x0A, vlan := none, ethertype := 0x86DD }
def eth : EthFrame := { hdr := hdr, size := 100, fcsOk := true, trailer := none, payload := .routerAdvert }
def cenv : CanopyEnv := { busy := [], unitPm := [0, 0, 0, 0, 0, 0, 0, 0], late := false }
def dgram : Datagram := { srcAddr := 0, srcPort := 1, dstPort := 50310, octets := [] }

theorem test_wf_good : (Instr.resetNRise 0 env).wf = true ∧ (Instr.canopyRound 0 cenv).wf = true ∧
    (Instr.frameEnd 0 0 frame).wf = true ∧ (Instr.backhaulFrameEnd 0 .p0 eth).wf = true := by decide

theorem test_wf_units : (Instr.selftestRun 0 0 { tests4 with unitOk := [true] }).wf = false ∧
    (Instr.periodicSelftest 0 { tests4 with unitOk := [] }).wf = false := by decide

theorem test_wf_start : (Instr.resetNRise 0 { env with feRails := [] }).wf = false ∧
    (Instr.pfiNHigh 0 { env with laneKat := [] }).wf = false ∧
    (Instr.zeroiseNHigh 0 { env with tests := { tests4 with unitOk := [] } }).wf = false ∧
    (Instr.zeroisationEnd 0 { env with feRails := [] }).wf = false ∧ (Instr.tamperClassB 0 .clock { env with feRails := [] }).wf = false ∧
    (Instr.thermalStep 0 30 { env with feRails := [] }).wf = false ∧ (Instr.testLogicReset 0 { env with feRails := [] }).wf = false := by decide

theorem test_wf_m0 : (Instr.m0Write 0 65536 []).wf = false ∧ (Instr.m0Write 0 65535 []).wf = true := by decide

theorem test_wf_datagram : (Instr.verieliRequest 0 1 { dgram with octets := List.replicate 65536 0 }).wf = false := by
  simp only [Instr.wf, List.length_replicate]
  decide

theorem test_wf_metric : (Instr.sfdFound 0 0 0x4D3AF159 0 { s := 2 ^ 64, e := 0, level := 0 } { s := 0, e := 0, level := 0 }).wf = false ∧
    (Instr.sfdFound 0 0 0x4D3AF159 0 { s := 0, e := 0, level := 0 } { s := 0, e := 2 ^ 64, level := 0 }).wf = false := by decide

theorem test_wf_codeword : (Instr.codewordDecoded 0 0 51 0).wf = false ∧ (Instr.codewordDecoded 0 0 50 0).wf = true := by decide

theorem test_wf_payload : (Instr.frameEnd 0 0 { frame with payload := .data [] true 0 (some { tag := 65536, size := 0, offset := 0 }) }).wf = false ∧
    (Instr.frameEnd 0 0 { frame with payload := .data [] true 0 (some { tag := 0, size := 2048, offset := 0 }) }).wf = false ∧
    (Instr.frameEnd 0 0 { frame with payload := .data [] true 0 (some { tag := 0, size := 0, offset := 2048 }) }).wf = false := by decide

theorem test_wf_ip : (Instr.frameEnd 0 0 { frame with payload := .data (List.replicate 65536 0) true 0 none }).wf = false := by
  simp only [Instr.wf, AirPayload.wf, List.length_replicate]
  decide

theorem test_wf_puf : (Instr.periodicSelftest 0 { tests4 with puf := some ⟨[], []⟩ }).wf = false ∧
    (Instr.periodicSelftest 0 { tests4 with puf := some ⟨List.replicate 17 0, List.replicate 58 0⟩ }).wf = false := by decide

theorem test_wf_numbers : (Instr.laneReturn 0 .a []).wf = false ∧ (Instr.neighbourWindow 0 65536).wf = false ∧
    (Instr.joinTimeout 0 131072).wf = false ∧ (Instr.recordUncorrectable 0 131072).wf = false ∧
    (Instr.reassemblyTimeout 0 0 65536 0).wf = false ∧ (Instr.reassemblyTimeout 0 0 0 2048).wf = false ∧
    (Instr.cipherJobPost 0 0 [0] true).wf = false ∧ (Instr.backhaulFrameEnd 0 .p0 { eth with size := 0 }).wf = false ∧
    (Instr.canopyUnwatched 0 .sa 64).wf = false := by decide

theorem test_wf_ceilings : (Instr.fcCeilingWrite 0 (.node 131072)).wf = false ∧ (Instr.fcCeilingWrite 0 (.group 39)).wf = false ∧
    (Instr.fcCeilingWrite 0 (.group 168)).wf = false ∧ (Instr.unitFault 0 (.queueDesc 512 true)).wf = false := by decide

theorem test_wf_canopy : (Instr.canopyRound 0 { cenv with unitPm := [] }).wf = false ∧
    (Instr.canopyRound 0 { cenv with unitPm := [1001, 0, 0, 0, 0, 0, 0, 0] }).wf = false ∧
    (Instr.canopyRound 0 { cenv with busy := [{ fe := .sa, channel := 64, perMille := 0 }] }).wf = false ∧
    (Instr.canopyRound 0 { cenv with busy := [{ fe := .sa, channel := 0, perMille := 1001 }] }).wf = false := by decide


/-! ## States and operands for the statements: host commands -/

/-- Slot i READY with a 256-bit key. -/
def aSlot (usage : BitVec 7) : KeySlot := { state := .ready, usage := usage, lcs := 3, len256 := true, key := 5, fallback := 7 }
def keyed (s : State) (i : Nat) (usage : BitVec 7) : State :=
  { s with crypto := { s.crypto with slots := s.crypto.slots.set i (aSlot usage) } }

/-- A key of 16 octets, and it wrapped under a keyed slot. -/
def aKey : List Nat := List.replicate 16 9
def wrapped (k : List Nat) : Octets := natOcts (kwWrap (keyed up 0 0 |>.slot 0).octets k)

/-- K_cfg held. -/
def withKcfg (s : State) : State :=
  keyed (keyed (keyed (keyed s 1 16) 2 4) 4 4) 6 32 |> fun s => { s with hw := { s.hw with kcfg := some ([], [1, 2, 3, 4, 5, 6, 7, 8]) } }

def kAttest : State := keyed (withKcfg up) 7 4
def ready : State :=
  { withKcfg prov with hw := { (withKcfg prov).hw with mboxKeys := [(0, [])] }, life := { prov.life with cfgChecked := [true, false], provSlot := some 0 } }
def preparing : State := { up with life := { up.life with retirePrep := some (0, 0) } }
def prepared : State := { preparing with clk := 15000000000 }
def preparedLong : State := { preparing with clk := 15000000001 }
def mboxKeyReq : Octets := [1] ++ wrapped (List.replicate 32 9)
def cfgKeyReq : Octets := wrapped (List.replicate 32 9) ++ [0, 0, 0, 0, 0, 0, 0, 1]
/-- A slot's KEY-LOAD: slot 47, usage 1, no fallback. -/
def keyLoadReq : Octets := [47, 1, 0xFF, 0, 0, 0, 0, 0, 0, 0, 1] ++ wrapped aKey
def aCtx : Ctx := { slot := 47, purpose := 1, gen := 0, startTag := 0, world := 0, flags := 0, done := 3, x := 4, ctr := 5 }
def withCtx (s : State) : State := { s with crypto := { s.crypto with ctxs := [(3, aCtx)] } }
def noUnits : TestEnv := { tests4 with unitOk := [false, false, false, false] }
def queued : State := { up with pending := [.m0Status 0] }
def due : State := { up with clk := 21600000000000, crypto := { up.crypto with unitOut := [false, false, false, false] } }
def oneUnit : TestEnv := { tests4 with unitOk := [true, false, true, true] }
def noPuf : TestEnv := { tests4 with puf := none }
def noEntropy : TestEnv := { tests4 with entropy1 := false, entropy2 := false }
def failFive : TestEnv := { tests4 with firstFail := some 5 }
def unconfigured : State :=
  { withKcfg up with life := { up.life with mode := .noConfig, radioOn := false, image := none }, mbox := [(0, { isOpen := true, ceiling := 5000 })] }
def otherCtx : Ctx := { aCtx with world := 1 }
def withOtherCtx (s : State) : State := { s with crypto := { s.crypto with ctxs := [(3, otherCtx)] } }
def clearCtxReq : Octets := [3, 1] ++ aCtx.octets

def ctxReq : Octets := [3, 0] ++ (keyed up 1 16).wrapHw (octNats aCtx.octets)

/-- A LIVE node of world 1 on SA, at index 0. -/
def aNode : Node :=
  { eui := 0x0A0B, world := 1, state := .live, keyGen := 2, secLevel := 5, fe := 0, group := 0, phase := 70, fcIn := 9, fcOut := 4,
    lastHeard := 100, validSub := true }
def peopled : State := (up.insertNode aNode).2
def crowded : State := (peopled.insertNode { aNode with eui := 0x0C0D, world := 0 }).2
def aNodeEui : Octets := [0, 0, 0, 0, 0, 0, 0x0A, 0x0B]

/-- The RTC running, network time not derived from a master. -/
def clocked : State := { up with rtc := { up.rtc with osf := false, trusted := true, sec := 1000, countdown := 1 } }
def mastered : State :=
  { clocked with time := { clocked.time with disc := .locked, master := some { port := 0, ptpTimescale := true, utcOffset := 37,
                                                                               utcValid := true, leap61 := false, leap59 := false } } }
def quiet : State := { up with life := { up.life with radioOn := false } }

/-- An Almanac entry of world 1: a multicast every day at second 5. -/
def almOf (id world : Nat) : Octets :=
  toLe 2 id ++ toLe 1 world ++ [1, 1, 0, 0, 0, 0, 0, 0, 0] ++ toLe 4 5 ++ toLe 8 0 ++ 0xFF :: List.replicate 15 0 ++ toLe 2 4000 ++ toLe 2 1 ++
    7 :: List.replicate 63 0 ++ toLe 8 5 ++ List.replicate 12 0
def almanacked : State := { up with hw := { up.hw with almanac := [(3, { octets := almOf 3 1, fate := .standing })] } }
def almForeign : State := { up with hw := { up.hw with almanac := [(3, { octets := almOf 3 0, fate := .standing })] } }
def almFull : State :=
  { up with hw := { up.hw with almanac := (List.range 1024).map fun i => (i, { octets := almOf i 1, fate := .standing }) } }

/-- Events in a ring. -/
def anEvent (k : BitVec 32) (sent : Bool) : RingEvent :=
  { seq := k, lost := false, sent := sent, ev := { code := 0x0701, world := some 1, sec := 9, ns := 3, data := [1, 2] } }
def ringing (sent : Bool) : State :=
  { up with
    clk := 500000000
    mbox := up.mbox.set 1 { isOpen := true, world := 1, ceiling := 5000, subAddr := 7, subPort := 9, ring := [anEvent 1 sent, anEvent 2 sent] } }

def counted : State :=
  { up with tally := [{ key := { ctr := .rxHdrBad, scope := .pipe 0 }, value := 3 }, { key := { ctr := .joinDone, scope := .world 1 }, value := 4 }] }
def aSnap : Snapshot := { sec := 5, ns := 6, entries := counted.tally }
def snapped : State := { counted with mbox := counted.mbox.set 1 { isOpen := true, world := 1, ceiling := 5000, snap := some aSnap } }
def aBusy (op : Nat) : Busy := { req := req op [], cls := .device, status := sOk, result := [1, 0] }
def busyWith (op : Nat) : State :=
  { up with mbox := up.mbox.set 0 { isOpen := true, ceiling := 5000, busy := some (aBusy op) } }
def pausing (op : Nat) : State := { busyWith op with life := { up.life with pause := some 0 } }
def pausing2 : State := { pausing 0x0203 with held := [] }
/-- A pause that has not begun yet. -/
def notPausing (op : Nat) : State := { busyWith op with life := { up.life with pause := some 2000 } }

def aMsg : Msg := { octets := [1, 2, 3], dstAddr := 0, dstPort := 0 }
def aLetter : Packet := { acct := accountOf 396 0, cells := 1, commit := 100000000000, content := .message aMsg [1], chain := [7] }
def mailed : State := up.setOrder (orderKey 396 0) [aLetter]
def mailedMarked : State := { mailed with queues := { mailed.queues with marked := [9999] } }
def aDgram (seq : Nat) (op : Nat) : Datagram :=
  let o : Octets := [0x56, 0x45, 1, 1, 0, 0] ++ toBe 2 op ++ toBe 8 seq ++ List.replicate 16 0
  { srcAddr := 0, srcPort := 1, dstPort := 50311, octets := o ++ natOcts (cmac (aSlot 4).octets (octNats o)) }
def shortDgram : Datagram := { aDgram 5 0x0101 with octets := [1] }
def keyedMbox : State := keyed up 11 4
def boundRecs : List CfgRec :=
  recs.map fun r => if r.typ = 0x12 then { r with payload := r.payload.take 4 ++ 128 :: r.payload.drop 5 } else r
def addrBound : State := { keyedMbox with life := { keyedMbox.life with image := some { image with recs := boundRecs } } }
def posted : State := ((keyedMbox.spend 1 5).post 389 0 0 48 (.request (requestOf keyedMbox 1 (aDgram 5 0x0101)))).getD up

def strangeDgram : Datagram := { aDgram 5 0x0101 with srcAddr := 0xFD00 }
def laneGone : State := { up with lanes := [(47, { out := true })] }
def saOff : State := { up with fe := { up.fe with sa := { up.fe.sa with mode := .off } } }
def saThere : State := { up with fe := { up.fe with sa := { up.fe.sa with centre := 866300000 } } }
/-- Sequence number 5 accepted long ago. -/
def replayed : State := { keyedMbox with mbox := keyedMbox.mbox.set 1 { isOpen := true, world := 1, ceiling := 5000, high := 100, bitmap := 1 } }

/-! ## Images -/

/-- A firmware image of one octet, its signature all zero but for its types; the ROM key is the one it verifies under. -/
def fwOctets : Octets :=
  toLe 4 0x4D575045 ++ toLe 2 1 ++ toLe 2 3 ++ toLe 4 9 ++ toLe 4 0 ++ toLe 4 1 ++ toLe 2 1 ++ [0, 0] ++ toLe 4 1 ++ toLe 2 1 ++ toLe 2 1 ++
    List.replicate 96 0 ++ toBe 32 0xa8100ae6aa1940d0b663bb31cd466142ebbdbd5187131b92d93818987832eb89 ++ List.replicate 4064 0 ++
    [0, 0, 0, 0] ++ toBe 4 3 ++ List.replicate 2176 0 ++ toBe 4 7 ++ List.replicate 480 0 ++ List.replicate 1300 0
def romKey : Octets :=
  natOcts (lmsKey (List.replicate 16 0) (octNats (sliceOct fwOctets 4224 2668)) (octNats (fwOctets.take 4224)))
def fwFlash : List Host.Cell := flashProgram [] 0x20000 fwOctets
def flashed (s : State) : State := { s with id := { s.id with romKey0 := romKey }, flash := fwFlash }

theorem length_fwOctets : fwOctets.length = 8192 := by decide +kernel

theorem test_firmware_verifies (s : State) (hf : s.flash = fwFlash) (hk : s.id.romKey0 = romKey)
    (hv : 1 ≤ s.id.romVersion.toNat) (hr : s.hw.rollback = 0) : (s.checkFw 0).1 = 0 := by
  have hb : flashRange s.flash (fwSlotBase 0) 8192 = fwOctets := by
    have h := flashRange_program 0x20000 fwOctets
    rw [length_fwOctets] at h
    rw [hf]
    exact h
  have key : octNats romKey = lmsKey (List.replicate 16 0) (octNats (sliceOct fwOctets 4224 2668)) (octNats (fwOctets.take 4224)) := by
    apply octNats_natOcts
    intro x hx
    obtain ⟨k, h⟩ := lmsRoot_sha (List.replicate 16 0) (octNats (sliceOct fwOctets 4224 2668)) (octNats (fwOctets.take 4224))
    simp only [lmsKey, h, List.mem_append, List.mem_cons, List.mem_replicate, List.not_mem_nil, or_false] at hx
    rcases hx with (hx | ⟨-, rfl⟩) | hx
    · omega
    · decide
    · exact sha256_lt hx
  have sig : lmsVerify (octNats romKey) (octNats (sliceOct fwOctets 4224 2668)) (octNats (fwOctets.take 4224)) = true := by
    rw [key]
    exact lmsVerify_lmsKey (by decide) (by decide +kernel) (by decide +kernel) (by decide +kernel) (by decide +kernel)
  have chunk : s.badChunk 0 fwOctets = none := by
    have hc : flashRange s.flash (fwSlotBase 0 + 8192 + 65536 * 0) 1 = [0xFF] := by
      rw [hf, fwFlash, flashRange_eq (flashWf_program rfl)]
      simp only [List.range_one, List.map_cons, List.map_nil, flashByte_program (rfl : flashWf ([] : List Host.Cell) = true), length_fwOctets]
      decide
    have e1 : leField fwOctets 20 2 = 1 := by decide +kernel
    have e2 : leField fwOctets 16 4 = 1 := by decide +kernel
    have e3 : octNats (sliceOct fwOctets (128 + 32 * 0) 32) = sha256 (octNats [0xFF]) := by decide +kernel
    simp only [State.badChunk, e1, List.range_one, List.find?_cons, State.chunkOk, e2, Nat.mul_zero, Nat.sub_zero,
      show min 65536 1 = 1 from rfl] at hc ⊢
    simp only [Nat.add_zero, Nat.mul_zero] at hc e3 ⊢
    simp [hc, e3]
  have code : s.fwHeaderCode fwOctets = 0 := by
    have a1 : leField fwOctets 0 4 = 0x4D575045 := by decide +kernel
    have a2 : leField fwOctets 4 2 = 1 := by decide +kernel
    have a3 : leField fwOctets 16 4 = 1 := by decide +kernel
    have a4 : leField fwOctets 20 2 = 1 := by decide +kernel
    have a5 : leField fwOctets 6 2 = 3 := by decide +kernel
    have a6 : leField fwOctets 23 1 = 0 := by decide +kernel
    have a7 : leField fwOctets 24 4 = 1 := by decide +kernel
    have a8 : leField fwOctets 22 1 = 0 := by decide +kernel
    have a9 : leField fwOctets 12 4 = 0 := by decide +kernel
    have b1 : allZero (sliceOct fwOctets (128 + 32 * 1) (32 * (128 - 1))) = true := by decide +kernel
    have b2 : allZero (sliceOct fwOctets 40 88) = true := by decide +kernel
    have b3 : allZero (sliceOct fwOctets 6892 1300) = true := by decide +kernel
    have b4 : bitOf 3 (if s.full then 0 else 1) = true := by split <;> decide
    simp only [State.fwHeaderCode, a1, a2, a3, a4, a5, a6, a7, a8, a9, b1, b2, b3, b4, hr, hk, sig, if_true]
    simp [fwBodyMax, ceilDiv, show ¬ s.id.romVersion.toNat < 1 by omega]
  simp [State.checkFw, hb, code, chunk]

/-- Configuration images of the required records alone, of versions 1 and 2, and one of version 3 with a record the others lack. -/
def cfgOctets1 : Octets :=
    toBe 60 0x4550434601004872010000000200000068020000090000000000000000000001ffffffffffffffff0000000000000000450c767bcc529a34db1d9da9 ++
    toBe 60 0xbefe563601000001a400000000020000801a701800703839102700000000000000003c0000180d8fe033079410270000000000000000280000000000 ++
    List.replicate 60 0 ++
    List.replicate 60 0 ++
    toBe 60 0x20000014800000060b0a2330103010828ec00000000000a00000000d0070100100e0000e803000000080c090a000000000000000000000000000000 ++
    toBe 60 0x5000001200000000100feff03050403a000ab01c8000840a00f1414140000000000000000000000 ++
    toBe 60 0x90000011800000000000000000000000000000000000000401f6400000000000a00000110000000010000000000000000000000e80b00000c000001 ++
    toBe 60 0x100000000101aa10000010000404060100000000110000011000000000000000000000000000000000000000120001015800000000017dc400000000 ++
    toBe 60 0xe97addfe781d9ba11b638373dd00bbfab16eb281 ++
    toBe 60 0x8420a4a2d91cc37e68cd2dd9c0c8e642235924521500000170000000010107000802000008020000ffffdc05020000000001000000000000fd000000 ++
    toBe 60 0x132006400fa00bc0288130114320010000000000000000000000000000000000000000000000000000000000000000000 ++
    toBe 36 0x100000000000000000000000000000053864c03bbae6f0759e81df50968329d
def cfgOctets2 : Octets :=
    toBe 60 0x4550434601004872020000000200000068020000090000000000000000000001ffffffffffffffff00000000000000009021111d4834fafaa76d6405 ++
    toBe 60 0x59c5b2301000001a400000000020000801a701800703839102700000000000000003c0000180d8fe033079410270000000000000000280000000000 ++
    List.replicate 60 0 ++
    List.replicate 60 0 ++
    toBe 60 0x20000014800000060b0a2330103010828ec00000000000a00000000d0070100100e0000e803000000080c090a000000000000000000000000000000 ++
    toBe 60 0x5000001200000000100feff03050403a000ab01c8000840a00f1414140000000000000000000000 ++
    toBe 60 0x90000011800000000000000000000000000000000000000401f6400000000000a00000110000000010000000000000000000000e80b00000c000001 ++
    toBe 60 0x100000000101aa10000010000404060100000000110000011000000000000000000000000000000000000000120001015800000000017dc400000000 ++
    toBe 60 0xe97addfe781d9ba11b638373dd00bbfab16eb281 ++
    toBe 60 0x8420a4a2d91cc37e68cd2dd9c0c8e642235924521500000170000000010107000802000008020000ffffdc05020000000001000000000000fd000000 ++
    toBe 60 0x132006400fa00bc0288130114320010000000000000000000000000000000000000000000000000000000000000000000 ++
    toBe 36 0x1000000000000000000000000000000336d9eafd417c6322d10b08276319030
def cfgOctets3 : Octets :=
    toBe 60 0x45504346010048720300000002000000900200000a0000000000000000000001ffffffffffffffff000000000000000026314cc27d4eebbdbac8fbeb ++
    toBe 60 0xddbc044d01000001a400000000020000801a701800703839102700000000000000003c0000180d8fe033079410270000000000000000280000000000 ++
    List.replicate 60 0 ++
    List.replicate 60 0 ++
    toBe 60 0x20000014800000060b0a2330103010828ec00000000000a00000000d0070100100e0000e803000000080c090a000000000000000000000000000000 ++
    toBe 60 0x5000001200000000100feff03050403a000ab01c8000840a00f1414140000000000000000000000 ++
    toBe 60 0x70000012000000003002500a0860100e8030000b80b6400e80318000f05640000000000000000000900000118000000000000000000000000000000 ++
    toBe 60 0x401f6400000000000a00000110000000010000000000000000000000e80b00000c000001100000000101aa10000010000404060100000000 ++
    toBe 60 0x110000011000000000000000000000000000000000000000120001015800000000017dc4000000000000000000000000000000000000000000000000 ++
    toBe 60 0xe97addfe781d9ba11b638373dd00bbfab16eb2818420a4a2d91cc37e68cd2dd9c0c8e64223592452 ++
    toBe 60 0x1500000170000000010107000802000008020000ffffdc05020000000001000000000000fd00000000000000000000000000000132006400fa00bc02 ++
    toBe 60 0x881301143200100000000000000000000000000000000000000000000000000000000000000000000000000001000000000000000000000000000000 ++
    toBe 16 0x5da61a2eb7fe14669c06f862cbfc3bdb

/-- The flash cells of octets from an address on. -/
def cells (a : Nat) : Octets → List Host.Cell
  | [] => []
  | b :: t => if b = 0xFF then cells (a + 1) t else (a, b) :: cells (a + 1) t

/-- The configuration keys those images were made under. -/
def cfgKeys (s : State) : State :=
  keyed (keyed s 4 8) 6 32 |> fun s => { s with
    crypto := { s.crypto with slots := (s.crypto.slots.set 5 { aSlot 4 with
      key := 0x54fd2777099bbfe4812bbeda4a09ed441a3d8f42beb1f4a59144ccd83b4fc78a }).set 6 { aSlot 32 with
      key := 0x23783107c430bb9c8490d4c89f139e4124d49de0596654f056d9d51bd54be7f2 } }
    hw := { s.hw with kcfg := some ([], [0, 0, 0, 0, 0, 0, 0, 1]) } }
def cfgFlash (o : Octets) : State := { cfgKeys up with flash := cells 0x1020000 o }

def slotWriteReq (off : Nat) : Octets := [1] ++ toBe 4 off ++ [0xF0, 0x0F]
def inSlots : State :=
  { up with
    life := { up.life with fwSlot := some 0, cfgSlot := some 0, fwChecked := [true, true], cfgChecked := [true, true] }
    flash := [(0x82FFFE, 0x3F), (0x1420001, 0x3F)] }
/-- The applied image and another in slot 0, checked, slot 1 being in use. -/
def update (o : Octets) : State :=
  { cfgFlash o with
    life := { up.life with image := some image, cfgSlot := some 1, cfgChecked := [true, false] } }
def oldImage : Image := ((cfgFlash cfgOctets1).checkSlot 0).toOption.getD image
def newImage (o : Octets) : Image := ((cfgFlash o).checkSlot 0).toOption.getD image
def updating (o : Octets) : State := { update o with life := { (update o).life with image := some oldImage } }
def fwUpdating : State :=
  { flashed up with life := { up.life with fwSlot := some 1, fwChecked := [true, false], fwHeader := fwOctets.take 4224 } }
def fwOther : State := { fwUpdating with life := { fwUpdating.life with fwHeader := [] } }
def onTrial : State := { up with life := { up.life with fwTrial := true, cfgTrial := true } }
def stumped (i : Nat) : State := { up with life := { up.life with mode := .stump, lcs := .provision, radioOn := false, stump := some { target := i } } }
def quietNone : State := { up with life := { up.life with radioOn := false, image := none } }
def unfitFw : State := { up with life := { up.life with fwSlot := some 1, fwChecked := [true, false] } }
def unfitCfg : State := { up with life := { up.life with cfgSlot := some 1, cfgChecked := [true, false] } }

/-! ## Starts, resets, pins -/

def held (m : Mode) : State := { up with life := { up.life with mode := m } }
def waiting : State := { State.reset with clk := 512, life := { lcs := .operate } }
def waitingProv : State := { waiting with life := { waiting.life with lcs := .provision } }
def waitingZ : State := { waiting with pins := { waiting.pins with zeroiseN := false } }
def waitingRetired : State := { waiting with life := { waiting.life with lcs := .retired } }
def waitingPfi : State := { waiting with pins := { waiting.pins with pfiN := false } }
def envRecover : StartEnv := { env with recover := true }
def envNoPuf : StartEnv := { env with tests := { tests4 with puf := none } }
def standby : State := { quiet with fe := { quiet.fe with sa := { quiet.fe.sa with mode := .standby } } }
def zeroing (c : ZeroCause) : State :=
  { held .zeroising with
    crypto := { up.crypto with zeroising := some c }
    hw := { up.hw with zeroFlag := true, zeroCount := 3, kcfg := some ([], []), nodeKeys := [(4, { wrapped := [1], sec := 0x800, place := 3,
                                                                                                   crcOk := true })] } }
def zeroingLow : State := { zeroing .pin with pins := { up.pins with zeroiseN := false } }
def zeroHeld : State := { held .zeroHold with crypto := { up.crypto with zeroising := some .pin }, pins := { up.pins with resetN := false } }
def tripped : State := { up with crypto := { up.crypto with tamperB := [5, 9] }, clk := 15000000005 }
def pinsLow : State := { up with pins := { up.pins with resetN := false } }
def wired : State := { up with hw := { up.hw with head := 3, tail := 3 } }
def offPhase : State := { standby with time := { standby.time with ns := standby.time.ns + 8 } }
def idHeld : State := { up with life := { up.life with idReg := some 5 } }

/-! ## The backhaul -/

def aMaster (l61 l59 : Bool) : Master := { port := 0, ptpTimescale := true, utcOffset := 37, utcValid := true, leap61 := l61, leap59 := l59 }
def aPtp : PtpMaster := { source := 1, rank := 0, heardClk := 0, said := aMaster false false }

/-- Both ports up and settled, cells granted to a frame in reception at P0. -/
def upPort : PortSt := { up := true, beginClk := some 0, speed := 0 }
def linked : State :=
  { up with
    clk := 1250000000
    back := { up.back with port := { p0 := upPort, p1 := upPort }, router := some 5 } }
def ownHdr : EthHdr := { dstMac := 0xFFFFFFFFFFFF, srcMac := 0x0A, vlan := none, ethertype := 0x86DD }
def receiving : State :=
  { linked with
    back := { linked.back with port := { p0 := { upPort with rxCells := 1 }, p1 := upPort } }
    queues := { linked.queues with used := [(accountOf 387 0, 1)] } }
def exhausted : State := { linked with queues := { linked.queues with used := [(accountOf 387 0, 1000000000)], sharedUsed := 1000000000 } }
def granted : State := (linked.grant q387 1).getD up
def exhaustedGrant : Option State := exhausted.grant q387 1
def foreignHdr : EthHdr := { ownHdr with dstMac := 0x0200DEADBEEF }
def runt : EthFrame := { hdr := ownHdr, size := 63, fcsOk := true, trailer := none, payload := .routerAdvert }
def oversize : EthFrame := { runt with size := 1529 }
def badFcs : EthFrame := { runt with size := 64, fcsOk := false }
def aTrailer : PrpTrailer := { seq := 9, lanId := 0xA, sizeOk := true }
def ipFrame : EthFrame := { hdr := ownHdr, size := 100, fcsOk := true, trailer := some aTrailer, payload := .ipv6 1 2 0 none 40 [] }
def seen : State :=
  { receiving with back := { receiving.back with dups := [{ source := 0x0A, seq := 9, port := 1, arrival := receiving.netNs, twin := false }] } }
def pauseFrame (q : BitVec 16) : EthFrame := { runt with size := 64, payload := .macControl 1 q }
def pausedPort (e k : Nat) : State :=
  { linked with back := { linked.back with port := { p0 := { upPort with pauseEnd := some e, pauseStart := k }, p1 := upPort } } }
def downLinked : State :=
  { linked with back := { linked.back with port := { p0 := { upPort with up := false, beginClk := some 1247250000 }, p1 := upPort } } }
def changing (back : Bool) (k : Nat) : State :=
  { linked with
    back := { linked.back with port := { p0 := { upPort with change := some { source := 0, target := 1, start := k, returning := back } }, p1 := upPort } } }
def letter1 : Packet := { acct := accountOf 397 0, cells := 1, commit := 99900000000, content := .message aMsg [1] }
def outgoing : State := { linked with queues := { linked.queues with orders := [(orderKey 397 0, [letter1])], used := [(accountOf 397 0, 1)] } }
def cutting : State := { linked with back := { linked.back with sends := [(1, aMsg, [1])] } }
def cuttingFull : State := { cutting with queues := { cutting.queues with used := [(accountOf 397 0, 1000000000)], sharedUsed := 1000000000 } }
def downLate : State :=
  { linked with back := { linked.back with port := { p0 := { upPort with up := false, beginClk := some 1250000000 }, p1 := upPort } } }
def idleRecs : List CfgRec := recs.map fun r => if r.typ = 0x15 then { r with payload := 0 :: 1 :: 0x0F :: r.payload.drop 3 } else r
def idling : State := { linked with life := { linked.life with image := some { image with recs := idleRecs } } }

def oneGig : State := { linked with back := { linked.back with port := { p0 := { upPort with speed := 1 }, p1 := upPort } } }
def oneLink : State := { linked with back := { linked.back with port := { p0 := upPort, p1 := { upPort with up := false } } } }
def receivingLong : State :=
  { linked with
    back := { linked.back with port := { p0 := { upPort with rxCells := 13 }, p1 := upPort } }
    queues := { linked.queues with used := [(accountOf 387 0, 13)] } }
def ignoring : State := { linked with back := { linked.back with port := { p0 := { upPort with rxIgnore := true, rxCells := 2 }, p1 := upPort } } }
def copperRecs : List CfgRec := recs.map fun r => if r.typ = 0x15 then { r with payload := 0 :: 1 :: r.payload.drop 2 } else r
def downAuto : State := { downLinked with life := { downLinked.life with image := some { image with recs := copperRecs } } }
def standing : State := held .stump
def delayDue : State :=
  { outgoing with back := { outgoing.back with
    port := { p0 := { upPort with ptp := { due := true, down := some (0, 0), master := some aPtp } }, p1 := upPort } } }
def supNot : State := { linked with back := { linked.back with supClk := 750000001 } }

/-! ## Time -/

def stepping (d : Int) (k : Nat) : State := { up with time := { up.time with pendStep := some { delta := d, atClk := k } } }
def locking : State := { linked with time := { linked.time with goodRun := 15, bigRun := 3 } }
def locked : State := { linked with clk := 1250000000, time := { linked.time with disc := .locked, lastMeas := 1249000000 } }
def lost : State := { locked with time := { locked.time with lastMeas := 0 } }
def holding : State := { locked with time := { locked.time with disc := .holdover } }
def holdingLong : State := { holding with clk := 900000000000 * 1000 }
def degradedLong : State := { holding with time := { holding.time with degraded := true } }
/-- A completed exchange on P0 whose offset is o. -/
def exchanged (s : State) (o : Int) : State :=
  let t := s.setPort .p0 { s.port .p0 with
    ptp := { master := some aPtp, down := some (0, 2 * o), up := some (0, 0), answer := some 0 } }
  { t with time := { t.time with p0Clk := some t.clk } }
def midSecond : State := { up with time := { up.time with ns := 500000000 } }
def dayEnd (l61 l59 : Bool) : State :=
  { mastered with
    rtc := { mastered.rtc with sec := 86399, trusted := false }
    time := { mastered.time with master := some { port := 0, ptpTimescale := true, utcOffset := 37, utcValid := true, leap61 := l61, leap59 := l59 } } }
def untrusted : State := { clocked with rtc := { clocked.rtc with trusted := false, trim := 5, acc := 78000 } }
def adjustable : State := { mastered with rtc := { mastered.rtc with sinceAdj := 1024 } }
def stoppedRtc : State := { clocked with rtc := { clocked.rtc with stopped := true, frozen := 32767 } }
/-- A TIME record whose max_slew_ppm is 500. -/
def slewRec : CfgRec :=
  { typ := 7, inst := 0, rflags := 1
    payload := [3, 0, 37, 0] ++ toLe 4 100000 ++ toLe 4 1000 ++ toLe 2 3000 ++ toLe 2 500 ++ toLe 2 1000 ++ [24, 0, 15, 5] ++ toLe 2 100 ++
      List.replicate 8 0 }
def slewRecs : List CfgRec := recs ++ [slewRec]
def wideSlew : State := { up with life := { up.life with image := some { image with recs := slewRecs } } }
def windowed : State := { adjustable with rtc := { adjustable.rtc with windowNet := some 100000000000 } }

/-! ## The radio -/

def onLane (p : LanePhase) : State := { up with lanes := [(0, { assigned := some (0, 3), phase := p })] }
def rxInfo : RxInfo :=
  { fe := 0, channel := 3, pre := .fskInner, sync := true, port := 0, snr := 40, level := 200, offset8 := 0, sfdNs := 99000000000, cmpNs := 99000000000, sfdClk := 0, tracked := true }
def rxInfoO : RxInfo := { rxInfo with pre := .oqpsk, sync := false }
def rxHdr : RxHdr :=
  { mode := 4, rate := 0, cwlen := false, pilots := false, fcs2 := false, whitening := false, length := 40, cells := 1, codewords := 1, received := 0,
    decoded := 0, iterations := 0, ldpcBad := false, endNs := 100000000000 }
def inFrame : State := onLane (.frame rxInfo rxHdr)
def rxDone : RxHdr := { rxHdr with received := 1, decoded := 1 }
/-- A SUN-FSK frame of 40 octets and a 2-octet FCS, ended. -/
def fskHdr : RxHdr := { rxHdr with mode := 1, fcs2 := true, codewords := 0 }
def fskEnded : State :=
  { onLane (.frame rxInfo fskHdr) with queues := { up.queues with used := [(rxAcct 0, 1)] } }
def helecBad : State :=
  { onLane (.frame rxInfo { rxDone with ldpcBad := true }) with queues := { up.queues with used := [(rxAcct 0, 1)] } }
/-- One codeword of two received, in the core. -/
def rxMid : RxHdr := { rxHdr with codewords := 2, received := 1 }
def aWord : ReadyCw := { clk := 0, lane := 0, long := false }
def decoding : State := { onLane (.frame rxInfo rxMid) with dec := { up.dec with busy := [(0, aWord)] } }
def noCore : State := { inFrame with dec := { inFrame.dec with busy := [7, 8, 9, 10].zipIdx.map fun p => (p.2, { clk := 0, lane := p.1, long := false }) } }
def ackOwing : State := { onLane (.frame rxInfo rxHdr) with lanes := [(0, { assigned := some (0, 3), phase := .frame rxInfo rxHdr, ackOwed := true })] }
/-- A SUN-FSK frame of 40 octets, its FCS right. -/
def ourFrame : AirFrame := { frame with psdu := withFcs true (List.replicate 38 7), dst := .short 0xFFFF, dstPan := none }
def foreignFrame : AirFrame := { ourFrame with dst := .ext 99 }
def dupEnded : State :=
  { fskEnded with mac := { fskEnded.mac with
    dups := [{ src := .ext 5, srcPan := none, seq := 1, length := 40, fcs := fcsValue true ourFrame.psdu, expiry := 99000000000 }] } }
def badFrame : AirFrame := { ourFrame with psdu := [] }
def aCtl : FrameCtl := { version := 2, ftype := 1, ar := true }
def changingLane : State :=
  { up with
    lanes := [(0, { assigned := none, next := some (some (0, 3)) })]
    fe := { up.fe with sa := { up.fe.sa with mode := .sleep } } }
def stoppingDom (n : Nat) (p : LanePhase) : State :=
  { up with
    clk := 2500000
    domA := { powered := true, stopping := some n }
    lanes := [(0, { assigned := some (0, 3), phase := p })] }
def returning : State := { up with domA := { returning := true } }
def domAOut : State := { returning with lanes := [(3, { out := true })] }
def atHeader : State := onLane (.header rxInfoO)
def headerCells : State := (atHeader.grant (rxAcct 0) 1).getD up
def headerFull : State := { atHeader with queues := { atHeader.queues with used := [(rxAcct 0, 1000000000)], sharedUsed := 1000000000 } }
def lowPm : PortMetric := { s := 9, e := 3, level := 5 }
def highPm : PortMetric := { s := 9, e := 2, level := 5 }
def deaf : State := { onLane (.detect .fskInner 9 1024) with fe := { up.fe with sa := { up.fe.sa with mode := .sleep } } }
/-- AIR_MODES of SA with modes 1 and 4. -/
def airRec : CfgRec :=
  { typ := 3, inst := 0, rflags := 1, payload := [0x12, 0, 0, 1, 1, 8, 64, 1] ++ toLe 2 128 ++ [1, 0, 1, 0] ++ (List.range 9).flatMap (fun _ => toLe 2 2047) }
def helecUp : State := { up with life := { up.life with image := some { image with recs := recs ++ [airRec] } } }
def helecHdr : PhyHeader := .helec (BitVec.ofNat 36 (helecHeader 0 0 0 false false false 40))
def helecNoDec : State :=
  { helecUp with lanes := [(0, { assigned := some (0, 3), phase := .header rxInfo })], dec := { up.dec with out := [true, true, true, true] } }
def changingOut : State := { changingLane with lanes := [(0, { assigned := none, out := true, next := some (some (0, 3)) })] }
def leavingLane : State := { up with lanes := [(0, { assigned := some (0, 3), next := some none })] }
def testingLane : State := { changingLane with clk := 15000000000 }

def aDown : DownFrame :=
  { world := 1, dst := .node 0 0x0A0B, fe := .sa, mpdu := 58, psdu := 60, octets := List.replicate 58 1, ar := true, seq := some 4, keyIndex := some 1, fc := 4, elem := false, worn := false,
    path := [(0, 0x0A0B)], kind := .data 0 0 true }
def aRetry (n : Nat) : Retry := { frame := aDown, acct := 1, cells := 1, commit := 99000000000, queue := 3, attempts := n, src := 0 }
def aReq (target latest start : Nat) : TxReq :=
  { channel := 3, port := 0, power := 20, mode := 1, rate := 0, cls := .other, precorr := 0, target := target, latest := latest, start := start,
    air := 5000, charge := none, body := .down aDown false }
def onSa (x : FeSt → FeSt) : State := { peopled with fe := { peopled.fe with sa := x peopled.fe.sa } }
def posting (latest : Nat) : State := onSa fun x => { x with posted := [aReq 100000000000 latest 0] }
def postingHeld : State := onSa fun x => { x with posted := [aReq 100000000000 100000200000 0], held := some (aReq 0 0 0) }
def holdingReq : State := onSa fun x => { x with held := some (aReq 0 0 100000000000) }
def sendingReq (start : Nat) : State := onSa fun x => { x with cur := some (aReq 0 0 start), mode := .tx }
def aborting : State := onSa fun x => { x with cur := some (aReq 0 0 99999999000), mode := .tx, overpowers := [5, 6] }
def passing : State := onSa fun x => { x with pass := [7, 8] }
def calibrating (e : Nat) : State := onSa fun x => { x with cal := some (7, e), pass := [7, 8] }
def warm : State := onSa fun x => { x with rxTemp := 0 }
def sleepRecs : List CfgRec :=
  recs.map fun r => if r.typ = 0x02 then { r with payload := r.payload.take 26 ++ toLe 2 2 ++ r.payload.drop 28 } else r
def drowsy : State :=
  { up with
    clk := 500000
    life := { up.life with image := some { image with recs := sleepRecs } } }
def asleep : State := onSa fun x => { x with mode := .sleep }
def eligible : State :=
  { onSa (fun x => { x with retry := [aRetry 1] }) with
    lanes := [(0, { assigned := some (0, 3) })]
    mac := { up.mac with conts := [{ eui := 0x0A0B, fe := 0, channel := 3, endNs := 101000000000 }] } }
def aCand : Cand := ((eligible.prepare .sa).choose .sa).getD { retry := aRetry 1, channel := none, bound := 0 }
def anAttempt (p : CsmaPhase) (bound : Option Nat) : Attempt :=
  { body := .frame (aRetry 0), phase := p, nb := 0, be := 3, sub := 0, channel := 3, port := 0, power := 20, mode := 1, rate := 0, air := 5000,
    bound := bound, admitted := none, senseStart := 99999000000, refused := false, credit := 0 }
def attempting (p : CsmaPhase) (bound : Option Nat) : State := onSa fun x => { x with attempt := some (anAttempt p bound) }
def refusedAttempt : Attempt := { anAttempt .sensing none with refused := true, admitted := some (0, 100) }
def sensingBusy : State := onSa fun x => { x with attempt := some refusedAttempt, posted := [aReq 100000000000 100000200000 0] }
def aWait (n d : Nat) : AckWait :=
  { retry := aRetry n, channel := 3, lane := none, deadline := d, arrived := none, pending := false, laneMoved := false }
def awaiting (n d : Nat) : State := onSa fun x => { x with ackWait := some (aWait n d) }
def aNbr (sfd e : Nat) : Nbr :=
  { routerId := 9, eui := 77, fe := 0, channel := 3, hz := 867000000, level := 100, sfdNs := sfd, interval := 1, expected := some e, misses := 2,
    lapsed := false, elem := { oui := 0, format := 1, routerId := 9, interval := 1, sliceCentre := 0, raster := 0, groups := [] } }
def neighboured (sfd e : Nat) : State :=
  { up with
    mac := { up.mac with nbrs := [aNbr sfd e], conts := [{ eui := 5, fe := 0, channel := 3, endNs := 100000000000 }] }
    lanes := [(0, { assigned := some (0, 3) })] }

/-! ## The wake cycle -/

/-- A BEACON entry open through the cycle; network time 100 s stands 1.696 s into its cycle. -/
def beaconGate : BitVec 64 := BitVec.ofNat 64 (1600000 + 100000 * 2 ^ 21 + 5 * 2 ^ 53)
def gated (shadow : Option (List (BitVec 64))) (nb : Nat) : State :=
  { up with wake := { up.wake with gates := { up.wake.gates with sa := { active := [beaconGate], shadow := shadow, notBefore := nb } } } }
def gatedOnce : State :=
  { gated none 0 with fe := { up.fe with sa := { up.fe.sa with beaconFrom := 99904000000 } } }
def gatedDue : State := { gated none 0 with fe := { up.fe with sa := { up.fe.sa with beacon := some 5 } } }
def gatedOff : State := { gated none 0 with fe := { up.fe with sa := { up.fe.sa with mode := .off } } }
def beaconDue : State := { gated none 0 with fe := { up.fe with sa := { up.fe.sa with beacon := some 100004000000 } } }
def aFlow (e : Nat) (far : Bool) : Flow := { node := 0, eligible := e, frames := [], far := far, slot := 0, released := false }
def flowing : State := { peopled with wake := { peopled.wake with flows := [aFlow 99000000000 false, aFlow 100500000000 true] } }
def farOnly : State := { peopled with wake := { peopled.wake with flows := [aFlow 110000000000 true] } }
def sampled : State := { up with wake := { up.wake with sampleMs := 99999, qsec := 100 } }
def sampledNow : State := { up with wake := { up.wake with sampleMs := 100000, qsec := 100 } }
def sampledOld : State := { up with wake := { up.wake with sampleMs := 99999, qsec := 99 } }
/-- A transmission committed whose switch leaves receive before the frame in reception ends. -/
def blankingSoon : State := { atHeader with fe := { atHeader.fe with sa := { atHeader.fe.sa with cur := some (aReq 0 0 100000100000) } } }
def blankingCells : State := (blankingSoon.grant (rxAcct 0) 1).getD up
def busyLane (e : Nat) : State := { holdingReq with lanes := [(0, { assigned := some (0, 3), phase := .frame rxInfo { rxHdr with endNs := e } })] }
def holdingBusy : State := busyLane 100000500000
def holdingGuarded : State :=
  { busyLane 100000010000 with fe := { peopled.fe with sa := { peopled.fe.sa with held := some (aReq 0 100050000000 100000000000) } } }
def undecided : State := onSa fun x => { x with held := some (aReq 0 0 100000000000), attempt := some (anAttempt .sensing none) }
def holdingEarly : State := onSa fun x => { x with held := some (aReq 0 0 100001000000) }
def staleTable : State := onSa fun x => { x with table := [{ channel := 7, temp := 0, used := 0 }] }
def calGone : State := onSa fun x => { x with cal := some (255, 1024), pass := [7, 8] }
def rxCalRuns : State := onSa fun x => { x with rxCal := some 1024 }
def warmHeld : State := { warm with lanes := [(0, { assigned := some (0, 3), phase := .frame rxInfo { rxHdr with endNs := 100000500000 } })] }
def warmLong : State :=
  { warmHeld with clk := 12501024, fe := { warmHeld.fe with sa := { warmHeld.fe.sa with rxDue := some 1024 } } }
def wakingSynth : State := onSa fun x => { x with mode := .synthOn }
def aTest : RfTest :=
  { mode := 2, channel := 3, airMode := 1, rate := 0, port := 0, power := 20, burst := 0, stopClk := 1024, bursts := 3, framesOk := 4, levelSum := 9 }
def sending (m : Nat) : State := onSa fun x => { x with rfTest := some { aTest with mode := m } }
def testingSend : State := sending 1
def testingListen : State := sending 2
def attemptingHeard (p : CsmaPhase) (bound : Option Nat) : State := { attempting p bound with lanes := [(0, { assigned := some (0, 3) })] }
def beaconAttempt : Attempt := { anAttempt .backoff (some 100004000000) with body := .beacon 511 }
def attemptingBeacon : State := onSa fun x => { x with attempt := some beaconAttempt }
def waitingBack : State := onSa fun x => { x with attempt := some { anAttempt .backoff none with waitEnd := 1025 } }
def sensingLast : State := onSa fun x => { x with attempt := some { refusedAttempt with nb := 9 } }
def sensingEarly : State := onSa fun x => { x with attempt := some { anAttempt .sensing none with senseStart := 99999999999 } }
def postingOff : State := onSa fun x => { x with mode := .off, posted := [aReq 100000000000 100100000000 0] }

/-! ## The link, keys and joins -/

def rxDesc (found : RxFound) : RxDesc :=
  { fe := .sa, lane := 0, channel := 3, port := 0, mode := 1, rate := 0, level := 100, snr := 30, freqOffset := 0, sfdNs := 99900000000,
    endNs := 99950000000, length := 40, fcsOk := true, capture := false, corrected := 0, word := 0, found := found }
def linkSec : AirSec := { level := 5, keyIndex := 0x92, fc := 12, hdr := 12 }
def nodeFrame (sec : Option AirSec) : AirFrame := { frame with src := .ext 0x0A0B, dst := .short 0xFFFF, dstPan := none, sec := sec, payload := .data (List.replicate 100 7) true 0 none }
def rxPkt (found : RxFound) (f : AirFrame) : Packet := { acct := rxAcct 0, cells := 1, commit := 99960000000, content := .rx (rxDesc found) f }
/-- The node's link key in the cache, and a frame of its pipeline waiting. -/
def keyCached : State :=
  { keyed peopled 168 1 with
    crypto := { (keyed peopled 168 1).crypto with cacheUse := [(168, 0)], cacheNode := [(168, 0)] }
    hw := { peopled.hw with fc := [(0, { fcIn := 9, ceiling := 4096 })] } }
def received (found : RxFound) (f : AirFrame) : State :=
  { keyCached with queues := { keyCached.queues with used := [(rxAcct 0, 1)], orders := [(orderKey 384 0, [rxPkt found f])] } }
def taken (found : RxFound) (f : AirFrame) : State := ((received found f).take (orderKey 384 0)).2
def takenKey (found : RxFound) (f : AirFrame) : State := (((taken found f).linkKey 0 aNode).getD (0, up)).2
/-- A frame of the node sealed under a key. -/
def sealedFrame (k : Key) : AirFrame :=
  { nodeFrame (some linkSec) with
    psdu := withFcs false (ccmSeal (beOfNat 16 k.toNat) (ccmNonce 0x0A0B 12 5) 5 (List.replicate 12 1) (List.replicate 30 2)) }
def goodNodeFrame : AirFrame := sealedFrame 5
def badNodeFrame : AirFrame := sealedFrame 6
def joiningNode : Node := { aNode with state := .joining, world := 1 }
def aJoin : Join :=
  { node := 0, world := 1, rejoin := false, nodeNonce := 1, partNonce := 2, keyGen := 2, level := 5, listen := true, wakeExp := 0, linkKey := 5,
    startClk := 0 }
def joining : State :=
  { (up.insertNode joiningNode).2 with
    clk := 30000000000
    table := { (up.insertNode joiningNode).2.table with joins := [aJoin] } }
def aReasm : Reasm := { src := 0x0A0B, tag := 3, size := 200, world := 1, first := 0, frags := [] }
def joiningEarly : State := { joining with clk := 1024 }
/-- The frame's record was freed and reused by another node since. -/
def gone (found : RxFound) : State :=
  { received found goodNodeFrame with table := { keyCached.table with nodes := [(0, { aNode with eui := 7 })] } }
def reassembling : State := { up with clk := 15000000000, queues := { up.queues with reasm := [aReasm] } }

/-! ## Downstream -/

def nodeAddr : BitVec 128 := BitVec.ofNat 128 (0xFD00000000000001 * 2 ^ 64 + 0x0200000000000A0B)
def downFrame (dst : BitVec 128) : EthFrame := { hdr := ownHdr, size := 100, fcsOk := true, trailer := none, payload := .ipv6 1 dst 0 none 40 [] }
def downPkt (dst : BitVec 128) : Packet := { acct := accountOf 387 0, cells := 1, commit := 99960000000, content := .eth 0 (downFrame dst) 99960000000 }
def rootedNode : Node := { aNode with parents := [{ index := 0, root := true, valid := true, pref := 0 }, {}, {}] }
def rooted : State :=
  { keyCached with
    clk := keyCached.clk
    table := { keyCached.table with nodes := [(0, rootedNode)] }
    back := linked.back }
def arriving (dst : BitVec 128) : State :=
  { rooted with queues := { rooted.queues with used := [(accountOf 387 0, 1)], orders := [(orderKey 387 0, [downPkt dst])] } }
def arrived (dst : BitVec 128) : State := ((arriving dst).take (orderKey 387 0)).2
def rplRec : CfgRec := { typ := 0x0F, inst := 0, rflags := 1, payload := List.replicate 24 0 ++ [1, 0, 15, 8, 0, 240] ++ List.replicate 106 0 }
def rpl (start : Nat) (sent : Bool) : State :=
  { up with
    life := { up.life with image := some { image with recs := recs ++ [rplRec] } }
    table := { up.table with dodags := [(1, { interval := 15, startNs := start, sent := sent })] } }
def nearCeiling : State :=
  { peopled with
    hw := { peopled.hw with fc := [(0, { fcIn := 9, ceiling := 1028 })], joinCeil := 1024 }
    mbox := [(0, { isOpen := true, ceiling := 1025 })] }

/-! ## Cipher jobs, memory, Canopy, faults, RF tests -/

def aJob (slot world pad len : Nat) : Word := BitVec.ofNat 128 (slot + world * 2 ^ 26 + pad * 2 ^ 30 + len * 2 ^ 32 + 16 * 2 ^ 76)
def jobbing : State := { keyed up 47 1 with crypto := { (keyed up 47 1).crypto with startTag := 0 } }
def aCJob : CJob :=
  { word := aJob 47 0 0 16, slot := 47, gen := 0, long := true, repeated := false, output := (List.range 16).map (BitVec.ofNat 8), start := 0,
    stale := none }
def jobRunning : State := { jobbing with crypto := { jobbing.crypto with unitJob := [(0, aCJob)] } }
def sweeping (pos pass : Nat) (n : Node) : State :=
  { up with table := { up.table with nodes := [(0, n)], sweepPos := pos, sweepPass := pass } }
def clearingNode : Node := { aNode with state := .clearing, clearPass := 5 }
def oldNode : Node := { aNode with lastHeard := 1 }
def aged : State := { sweeping 0 7 oldNode with time := { up.time with sec := 100000000 } }
def lastVisit : State := sweeping 131071 7 aNode
def audited : State := { up with queues := { up.queues with used := [(3, 5)] } }
def unhomed : State :=
  { up with dirty := [.increment, .discipline], hw := { up.hw with ring := [[]], head := 9, tail := 3 } }
def roundDue (k : Nat) : State := { up with canopy := { up.canopy with round := k } }
def lateEnv : CanopyEnv := { cenv with late := true }
def aMove : SliceMove := { centre := 867600000, clk := 0, watch := [] }
def moving (h : Option TxReq) : State := { up with fe := { up.fe with sa := { up.fe.sa with move := some aMove, held := h } } }
def pendingNode (eff : Nat) : Node :=
  { aNode with pending := true, newGroup := 1, newPhase := 72, effSec := BitVec.ofNat 20 eff }
def pendingAssign (eff : Nat) (c : List (Nat × Course)) : State :=
  { sweeping 0 0 (pendingNode eff) with canopy := { up.canopy with course := c } }
def aCourse (begun : Bool) (e : Nat) : Course := { decidedNs := 99000000000, effNs := e, begun := begun, confirmed := false }
def frozenSome : State :=
  { up with canopy := { up.canopy with freezes := [{ kinds := 64, world := 8, endNs := some 100000000000 }, { kinds := 64, world := 1, endNs := some 100000000001 },
                                                   { kinds := 64, world := 2, endNs := none }] } }
def anUnwatched : Unwatched := { fe := 0, hz := 864148576, since := 0, raised := none }
def unwatching : State :=
  { peopled with
    clk := 15000000000
    canopy := { peopled.canopy with unwatched := [anUnwatched], groups := [(0, { fe := 0, freqs := [864148576] })] } }
def threeOut : State := { up with isl := { up.isl with mcoreOut := [false, true, true, true] } }
def coreOutIsland : State := { up with isl := { up.isl with islandOut := [.core] } }
def rfReq (burst : Nat) : Octets := [0, 0, 3, 1, 0, 0, 20] ++ toBe 2 burst ++ toBe 2 60
def rfTesting : State := { up with fe := { up.fe with sa := { up.fe.sa with rfTest := some aTest } } }
def laterTest : RfTest := { aTest with stopClk := 1025 }
def rfTestingOn : State := { up with fe := { up.fe with sa := { up.fe.sa with rfTest := some laterTest } } }
def coreGone : State := { up with isl := { up.isl with mcoreOut := [true, false, false, false] } }
def chained : Packet := { letter1 with chain := [10] }
def chainHeld : State := { linked with queues := { linked.queues with orders := [(orderKey 397 0, [chained])], used := [(accountOf 397 0, 1)] } }
def chainHomed : State := { chainHeld with queues := { chainHeld.queues with homed := [10] } }
def worn15 : State := { linked with queues := { linked.queues with corrected := List.replicate 15 (1, 1250000000) } }
def marked10 : State := { linked with queues := { linked.queues with marked := [1] } }
def degraded10 : State := { marked10 with life := { marked10.life with mode := .noConfig }, queues := { marked10.queues with retired := List.range' 100 20 } }
def noRadio : State := { up with life := { up.life with radioOn := false } }
def movingBusy : State := { moving none with lanes := [(0, { assigned := some (0, 3), phase := .frame rxInfo { rxHdr with endNs := 100000500000 } })] }
def halved : State := { up with id := { up.id with variant := .epb7224 } }

/-- The state a command leaves. -/
def after (c : Instr) (s : State) : State :=
  match exec c s with
  | .next u => u
  | _ => s


/-! ## Worked examples of the manual, and published vectors of the algorithms it names -/

/-- FIPS 197, appendix C.1 and C.3. -/
theorem test_aes :
    aesEnc (List.range 16) ((List.range 16).map (· * 17)) =
      [0x69, 0xc4, 0xe0, 0xd8, 0x6a, 0x7b, 0x04, 0x30, 0xd8, 0xcd, 0xb7, 0x80, 0x70, 0xb4, 0xc5, 0x5a] ∧
    aesEnc (List.range 32) ((List.range 16).map (· * 17)) =
      [0x8e, 0xa2, 0xb7, 0xca, 0x51, 0x67, 0x45, 0xbf, 0xea, 0xfc, 0x49, 0x90, 0x4b, 0x49, 0x60, 0x89] ∧
    aesDec (List.range 16) [0x69, 0xc4, 0xe0, 0xd8, 0x6a, 0x7b, 0x04, 0x30, 0xd8, 0xcd, 0xb7, 0x80, 0x70, 0xb4, 0xc5, 0x5a] =
      (List.range 16).map (· * 17) := by decide +kernel

/-- RFC 4493, section 4, examples 1 and 2. -/
theorem test_cmac :
    cmac [0x2b, 0x7e, 0x15, 0x16, 0x28, 0xae, 0xd2, 0xa6, 0xab, 0xf7, 0x15, 0x88, 0x09, 0xcf, 0x4f, 0x3c] [] =
      [0xbb, 0x1d, 0x69, 0x29, 0xe9, 0x59, 0x37, 0x28, 0x7f, 0xa3, 0x7d, 0x12, 0x9b, 0x75, 0x67, 0x46] ∧
    cmac [0x2b, 0x7e, 0x15, 0x16, 0x28, 0xae, 0xd2, 0xa6, 0xab, 0xf7, 0x15, 0x88, 0x09, 0xcf, 0x4f, 0x3c]
      [0x6b, 0xc1, 0xbe, 0xe2, 0x2e, 0x40, 0x9f, 0x96, 0xe9, 0x3d, 0x7e, 0x11, 0x73, 0x93, 0x17, 0x2a] =
      [0x07, 0x0a, 0x16, 0xb4, 0x6b, 0x4d, 0x41, 0x44, 0xf7, 0x9b, 0xdd, 0x9d, 0xd0, 0x4a, 0x28, 0x7c] := by decide +kernel

/-- RFC 3394, section 4.1. -/
theorem test_key_wrap :
    kwWrap (List.range 16) ((List.range 16).map (· * 17)) =
      [0x1f, 0xa6, 0x8b, 0x0a, 0x81, 0x12, 0xb4, 0x47, 0xae, 0xf3, 0x4b, 0xd8, 0xfb, 0x5a, 0x7b, 0x82, 0x9d, 0x3e, 0x86, 0x23, 0x71, 0xd2,
        0xcf, 0xe5] := by decide +kernel

/-- FIPS 180-4, the message abc; and the CRC-32 of the digits 1 to 9. -/
theorem test_digests :
    sha256 [0x61, 0x62, 0x63] = octNats (toBe 32 0xba7816bf8f01cfea414140de5dae2223b00361a396177a9cb410ff61f20015ad) ∧
    crc32 [0x31, 0x32, 0x33, 0x34, 0x35, 0x36, 0x37, 0x38, 0x39] = 0xCBF43926 := by decide +kernel

/-- Chapter 4: a report of 96 octets in S-FSK-100, H2 at two rates and HS; codewords in each. -/
theorem test_time_on_air :
    airTime ⟨1, 0, false, false, 8, 64, false⟩ 96 = 8640 ∧ airTime ⟨4, 2, false, false, 8, 64, false⟩ 96 = 12640 ∧
    airTime ⟨4, 0, false, false, 8, 64, false⟩ 96 = 17760 ∧ airTime ⟨6, 0, false, false, 8, 64, false⟩ 96 = 147200 ∧
    helecCodewords 2 false 96 = 2 ∧ helecCodewords 0 false 96 = 3 := by decide

/-- Chapter 6: the schedule of 512 octets is cut into three fragments, of 255, 248 and 152 octets on the air. -/
theorem test_fragments :
    sawmillCuts 228 560 48 96 512 = some [228, 221, 125] ∧
    [255, 248, 152].map (airTime ⟨1, 0, false, false, 8, 64, false⟩) = [21360, 20800, 13120] := by decide

/-- Chapter 7: 29 February 2100 rolls over to 1 March. -/
theorem test_calendar :
    countOf 2100 2 29 0 0 0 = some 3160857600 ∧ (calView 3160857600).year = 2100 ∧ (calView 3160857600).month = 3 ∧
    (calView 3160857600).day = 1 ∧ (calView 3160857600).weekday = 0 := by decide

/-- Chapter 8: the cycle and phase of an instant, and the cycles in which the meter listens. -/
theorem test_wake :
    cycleOf 1000000123456000000 = 488281310 ∧ phaseOf 1000000123456000000 = 72 ∧
    nodeCycleOffset { aNode with eui := 0x3AC5, wakeExp := 3 } = 5 ∧ ({ aNode with eui := 0x3AC5, wakeExp := 3 } : Node).listens 488281310 = false ∧
    ({ aNode with eui := 0x3AC5, wakeExp := 3 } : Node).listens 488281317 = true := by decide

/-- Chapter 12: slot 58 at generation 6, loaded again with the previous key kept in slot 59. -/
def rolling : State := keyed up 13 48 |> fun s => { s with
  crypto := { s.crypto with slots := s.crypto.slots.set 58 { aSlot 1 with gen := 6, fallback := 0xFF } } }
def rollReq : Octets := [58, 1, 59, 0, 0, 0, 0, 0, 0, 0, 1] ++ wrapped aKey
def rolled : State := after (.keyLoad 0 1) (askAt 1 rolling 0x0401 rollReq)

theorem test_key_roll :
    (rolled.slot 58).state = .ready ∧ (rolled.slot 58).gen = 8 ∧ (rolled.slot 58).fallback = 59 ∧ (rolled.slot 58).fbValid = true ∧
    (rolled.slot 59).state = .ready ∧ (rolled.slot 59).gen = 1 ∧ (rolled.slot 59).key = 5 := by decide +kernel

/-! ## A state and operands that meet the premises of each clause of the statements -/

set_option maxRecDepth 100000
set_option Elab.async false

theorem witness_StepRunsFrontCommand :
    (∃ (c : Instr) (rest : List Instr) (s : State), s.pending = c :: rest) :=
  ⟨.m0Status 0, [], queued, by decide +kernel⟩

theorem witness_EveryStepCompletes :
    (∃ (s : State), s.pending = []) :=
  ⟨up, by decide +kernel⟩

theorem witness_StatusAndAttestation :
    (∃ (dt : Nat) (m : Mbox) (s : State) (r : Request), (s.tick dt).runsLen (↑m) 257 0 r) ∧
    (∃ (dt : Nat) (m : Mbox) (s : State) (r : Request), (s.tick dt).runsLen (↑m) 258 0 r) ∧
    (∃ (dt : Nat) (m : Mbox) (s : State) (r : Request), (s.tick dt).runsLen (↑m) 1281 0 r) ∧
    (∃ (dt : Nat) (m : Mbox) (s : State) (r : Request), (s.tick dt).runsLen (↑m) 259 17 r ∧
      (beField r.payload 16 1 = 0 ∨ beField r.payload 16 1 = 1 ∧ ((s.tick dt).afterReq ↑m).kcfgHeld = true)) ∧
    (∃ (dt : Nat) (m : Mbox) (s : State) (r : Request), (s.tick dt).runsLen (↑m) 259 17 r ∧ 1 < beField r.payload 16 1) ∧
    (∃ (dt : Nat) (m : Mbox) (s : State) (r : Request), (s.tick dt).runsLen (↑m) 259 17 r ∧ beField r.payload 16 1 = 1 ∧
      ((s.tick dt).afterReq ↑m).kcfgHeld = false) :=
  ⟨⟨0, 0, ask up 0x0101 [], req 0x0101 [], by unfold State.runsLen State.runs; decide +kernel⟩,
   ⟨0, 0, ask up 0x0102 [], req 0x0102 [], by unfold State.runsLen State.runs; decide +kernel⟩,
   ⟨0, 1, askAt 1 up 0x0501 [], req 0x0501 [], by unfold State.runsLen State.runs; decide +kernel⟩,
   ⟨0, 0, ask kAttest 0x0103 (List.replicate 16 3 ++ [1]), req 0x0103 (List.replicate 16 3 ++ [1]),
     by unfold State.runsLen State.runs; decide +kernel⟩,
   ⟨0, 0, ask kAttest 0x0103 (List.replicate 16 3 ++ [2]), req 0x0103 (List.replicate 16 3 ++ [2]),
     by unfold State.runsLen State.runs; decide +kernel⟩,
   ⟨0, 0, ask up 0x0103 (List.replicate 16 3 ++ [1]), req 0x0103 (List.replicate 16 3 ++ [1]),
     by unfold State.runsLen State.runs; decide +kernel⟩⟩

theorem witness_LifeCycleCommands :
    (∃ (dt : Nat) (m : Mbox) (s : State) (r : Request), (s.tick dt).runsLen (↑m) 263 0 r ∧ ((s.tick dt).afterReq ↑m).kcfgHeld = true ∧
      List.isEmpty ((s.tick dt).afterReq ↑m).hw.mboxKeys = false ∧ (((s.tick dt).afterReq ↑m).life.cfgChecked.any fun b => b) = true ∧
      ((s.tick dt).afterReq ↑m).life.selfTestsPassed = true) ∧
    (∃ (dt : Nat) (m : Mbox) (s : State) (r : Request), (s.tick dt).runsLen (↑m) 263 0 r ∧ (¬(((s.tick dt).afterReq ↑m).kcfgHeld = true ∧
      List.isEmpty ((s.tick dt).afterReq ↑m).hw.mboxKeys = false ∧ (((s.tick dt).afterReq ↑m).life.cfgChecked.any fun b => b) = true ∧
      ((s.tick dt).afterReq ↑m).life.selfTestsPassed = true))) ∧
    (∃ (dt : Nat) (m : Mbox) (s : State) (r : Request), (s.tick dt).runsLen (↑m) 264 0 r) ∧
    (∃ (dt : Nat) (m : Mbox) (s : State) (r : Request), (s.tick dt).runsLen (↑m) 265 0 r ∧
      (∃ k, ((s.tick dt).afterReq ↑m).life.retirePrep = some (↑m, k) ∧ ((s.tick dt).afterReq ↑m).clk ≤ k + 15000000000)) ∧
    (∃ (dt : Nat) (m : Mbox) (s : State) (r : Request), (s.tick dt).runsLen (↑m) 265 0 r ∧
      (¬∃ k, ((s.tick dt).afterReq ↑m).life.retirePrep = some (↑m, k) ∧ ((s.tick dt).afterReq ↑m).clk ≤ k + 15000000000)) ∧
    (∃ (dt : Nat) (m : Mbox) (s : State) (r : Request), (s.tick dt).runsLen (↑m) 267 0 r) ∧
    (∃ (dt : Nat) (m : Mbox) (s : State) (r : Request), (s.tick dt).runsLen (↑m) 266 0 r) :=
  ⟨⟨0, 0, ask ready 0x0107 [], req 0x0107 [], by unfold State.runsLen State.runs; decide +kernel⟩,
   ⟨0, 0, ask prov 0x0107 [], req 0x0107 [], by unfold State.runsLen State.runs; decide +kernel⟩,
   ⟨0, 0, ask up 0x0108 [], req 0x0108 [], by unfold State.runsLen State.runs; decide +kernel⟩,
   ⟨0, 0, ask prepared 0x0109 [], req 0x0109 [], by unfold State.runsLen State.runs; decide +kernel, ⟨0, by decide +kernel⟩⟩,
   ⟨0, 0, ask preparedLong 0x0109 [], req 0x0109 [], by unfold State.runsLen State.runs; decide +kernel, by
      rintro ⟨k, h1, h2⟩
      cases (Eq.trans (Eq.symm (by decide +kernel : (((ask preparedLong 0x0109 []).tick 0).afterReq 0).life.retirePrep = some (0, 0))) h1)
      revert h2
      decide +kernel⟩,
   ⟨0, 0, ask up 0x010B [], req 0x010B [], by unfold State.runsLen State.runs; decide +kernel⟩,
   ⟨0, 0, ask (withKcfg up) 0x010A [], req 0x010A [], by unfold State.runsLen State.runs; decide +kernel⟩⟩

theorem witness_KeyInstallation :
    (∃ (dt : Nat) (m : Mbox) (s : State) (r : Request), (s.tick dt).runsLen (↑m) 261 48 r ∧ ((s.tick dt).afterReq ↑m).kcfgHeld = false ∧
      (((s.tick dt).afterReq ↑m).unwrapBy 3 (List.take 40 r.payload)).isSome = true) ∧
    (∃ (dt : Nat) (m : Mbox) (s : State) (r : Request), (s.tick dt).runsLen (↑m) 262 41 r ∧ ((s.tick dt).afterReq ↑m).kcfgHeld = true ∧
      beField r.payload 0 1 ≤ 1 ∧ (((s.tick dt).afterReq ↑m).unwrapBy 6 (List.drop 1 r.payload)).isSome = true) ∧
    (∃ (dt : Nat) (m : Mbox) (s : State) (r : Request), (s.tick dt).runsLen (↑m) 261 48 r ∧ ((s.tick dt).afterReq ↑m).kcfgHeld = true) ∧
    (∃ (dt : Nat) (m : Mbox) (s : State) (r : Request), (s.tick dt).runsLen (↑m) 261 48 r ∧ ((s.tick dt).afterReq ↑m).kcfgHeld = false ∧
      ((s.tick dt).afterReq ↑m).unwrapBy 3 (List.take 40 r.payload) = none) ∧
    (∃ (dt : Nat) (m : Mbox) (s : State) (r : Request), (s.tick dt).runsLen (↑m) 262 41 r ∧ ((s.tick dt).afterReq ↑m).kcfgHeld = false) ∧
    (∃ (dt : Nat) (m : Mbox) (s : State) (r : Request), (s.tick dt).runsLen (↑m) 262 41 r ∧ ((s.tick dt).afterReq ↑m).kcfgHeld = true ∧
      1 < beField r.payload 0 1) ∧
    (∃ (dt : Nat) (m : Mbox) (s : State) (r : Request), (s.tick dt).runsLen (↑m) 262 41 r ∧ ((s.tick dt).afterReq ↑m).kcfgHeld = true ∧
      beField r.payload 0 1 ≤ 1 ∧ ((s.tick dt).afterReq ↑m).unwrapBy 6 (List.drop 1 r.payload) = none) :=
  ⟨⟨0, 0, ask (keyed prov 3 32) 0x0105 cfgKeyReq, req 0x0105 cfgKeyReq, by unfold State.runsLen State.runs; decide +kernel⟩,
   ⟨0, 0, ask (withKcfg prov) 0x0106 mboxKeyReq, req 0x0106 mboxKeyReq, by unfold State.runsLen State.runs; decide +kernel⟩,
   ⟨0, 0, ask (withKcfg prov) 0x0105 cfgKeyReq, req 0x0105 cfgKeyReq, by unfold State.runsLen State.runs; decide +kernel⟩,
   ⟨0, 0, ask prov 0x0105 cfgKeyReq, req 0x0105 cfgKeyReq, by unfold State.runsLen State.runs; decide +kernel⟩,
   ⟨0, 0, ask prov 0x0106 mboxKeyReq, req 0x0106 mboxKeyReq, by unfold State.runsLen State.runs; decide +kernel⟩,
   ⟨0, 0, ask (withKcfg prov) 0x0106 (2 :: mboxKeyReq.drop 1), req 0x0106 (2 :: mboxKeyReq.drop 1),
     by unfold State.runsLen State.runs; decide +kernel⟩,
   ⟨0, 0, ask (withKcfg prov) 0x0106 (1 :: List.replicate 40 0), req 0x0106 (1 :: List.replicate 40 0),
     by unfold State.runsLen State.runs; decide +kernel⟩⟩

theorem witness_SelfTestsWhileRunning :
    (∃ (dt : Nat) (m : Mbox) (s : State) (r : Request) (e : TestEnv), (s.tick dt).runsLen (↑m) 260 0 r ∧
      ((s.tick dt).afterReq ↑m).goodTests e ∧ ((s.tick dt).afterReq ↑m).noUnit = false ∧
      (((s.tick dt).afterReq ↑m).pufRoot e).isSome = true ∧ (∃ p, e.puf = some p ∧ List.foldl max 0 p.corrections ≤ 16) ∧
      e.entropy1 = true ∧ (((s.tick dt).afterReq ↑m).unitTests e.unitOk).noUnit = false ∧ e.firstFail = none) ∧
    (∃ (dt : Nat) (m : Mbox) (s : State) (r : Request) (e : TestEnv), (s.tick dt).runsLen (↑m) 260 0 r ∧
      (((s.tick dt).afterReq ↑m).pufRoot e).isSome = true ∧ (∃ p, e.puf = some p ∧ List.foldl max 0 p.corrections ≤ 16) ∧
      e.entropy1 = true ∧ (((s.tick dt).afterReq ↑m).unitTests e.unitOk).noUnit = false ∧ e.firstFail = none) ∧
    (∃ (dt : Nat) (m : Mbox) (s : State) (r : Request) (e : TestEnv), (s.tick dt).runsLen (↑m) 260 0 r ∧
      ((s.tick dt).afterReq ↑m).pufRoot e = none) ∧
    (∃ (dt : Nat) (m : Mbox) (s : State) (r : Request) (e : TestEnv), (s.tick dt).runsLen (↑m) 260 0 r ∧
      (((s.tick dt).afterReq ↑m).pufRoot e).isSome = true ∧ e.entropy1 = false ∧ e.entropy2 = false) ∧
    (∃ (dt : Nat) (m : Mbox) (s : State) (r : Request) (e : TestEnv), (s.tick dt).runsLen (↑m) 260 0 r ∧
      (((s.tick dt).afterReq ↑m).pufRoot e).isSome = true ∧ e.entropy1 = true ∧ e.unitOk = [false, false, false, false] ∧
      ((s.tick dt).afterReq ↑m).crypto.unitOut.length = 4) ∧
    (∃ (dt : Nat) (m : Mbox) (s : State) (r : Request) (e : TestEnv), (s.tick dt).runsLen (↑m) 260 0 r ∧
      (((s.tick dt).afterReq ↑m).pufRoot e).isSome = true ∧ e.entropy1 = true ∧ e.unitOk = [true, true, true, true] ∧
      ((s.tick dt).afterReq ↑m).noUnit = false ∧ (e.firstFail).isSome = true) ∧
    (∃ (dt : Nat) (r : TestEnv) (s : State), ((s.tick dt).life.mode = Mode.operate ∨ (s.tick dt).life.mode = Mode.noConfig ∨ (s.tick dt).life.mode = Mode.provision) ∧
      (s.tick dt).crypto.selfTestClk + 21600000000000 ≤ (s.tick dt).clk ∧ r.unitOk = [true, true, true, true] ∧ r.firstFail = none ∧
      (s.tick dt).noUnit = false ∧ (s.tick dt).crypto.drbgOn = true ∧ (s.tick dt).crypto.drbgClk + 900000000000 ≤ (s.tick dt).clk ∧
      (s.tick dt).crypto.hwGenClk + 15000000000 ≤ (s.tick dt).clk) ∧
    (∃ (dt : Nat) (r : TestEnv) (s : State), ((s.tick dt).life.mode = Mode.operate ∨ (s.tick dt).life.mode = Mode.noConfig ∨ (s.tick dt).life.mode = Mode.provision) ∧
      (s.tick dt).crypto.selfTestClk + 21600000000000 ≤ (s.tick dt).clk ∧ r.unitOk = [false, false, false, false] ∧
      (s.tick dt).crypto.unitOut.length = 4 ∧ (s.tick dt).crypto.drbgOn = true ∧
      (s.tick dt).crypto.drbgClk + 900000000000 ≤ (s.tick dt).clk ∧ (s.tick dt).crypto.hwGenClk + 15000000000 ≤ (s.tick dt).clk) :=
  ⟨⟨0, 0, ask up 0x0104 [], req 0x0104 [], tests4, by unfold State.runsLen State.runs State.goodTests; decide +kernel⟩,
   ⟨0, 0, ask up 0x0104 [], req 0x0104 [], oneUnit, by unfold State.runsLen State.runs; decide +kernel⟩,
   ⟨0, 0, ask up 0x0104 [], req 0x0104 [], noPuf, by unfold State.runsLen State.runs; decide +kernel⟩,
   ⟨0, 0, ask up 0x0104 [], req 0x0104 [], noEntropy, by unfold State.runsLen State.runs; decide +kernel⟩,
   ⟨0, 0, ask up 0x0104 [], req 0x0104 [], noUnits, by unfold State.runsLen State.runs; decide +kernel⟩,
   ⟨0, 0, ask up 0x0104 [], req 0x0104 [], failFive, by unfold State.runsLen State.runs; decide +kernel⟩,
   ⟨0, tests4, due, by decide +kernel⟩,
   ⟨0, noUnits, due, by decide +kernel⟩⟩

theorem witness_KeyLoadLoads :
    (∃ (dt : Nat) (m : Mbox) (s : State) (r : Request) (k : List Nat), (s.tick dt).runsLen (↑m) 1025 35 r ∧
      slotWorld (beField r.payload 0 1) = some (((s.tick dt).afterReq ↑m).mb ↑m).world ∧
      usageOk (beField r.payload 0 1) (beField r.payload 1 1) = true ∧
      fallbackOk (beField r.payload 0 1) (beField r.payload 2 1) = true ∧
      ((s.tick dt).afterReq ↑m).unwrapBy (10 + 3 * ↑m) (sliceOct r.payload 11 24) = some k) ∧
    (∃ (dt : Nat) (m : Mbox) (s : State) (r : Request) (k : List Nat), (s.tick dt).runsLen (↑m) 1025 35 r ∧
      slotWorld (beField r.payload 0 1) = some (((s.tick dt).afterReq ↑m).mb ↑m).world ∧
      usageOk (beField r.payload 0 1) (beField r.payload 1 1) = true ∧
      fallbackOk (beField r.payload 0 1) (beField r.payload 2 1) = true ∧
      ((s.tick dt).afterReq ↑m).unwrapBy (10 + 3 * ↑m) (sliceOct r.payload 11 24) = some k) ∧
    (∃ (dt : Nat) (m : Mbox) (s : State) (r : Request), (s.tick dt).runsLen (↑m) 1025 35 r ∧ slotWorld (beField r.payload 0 1) = none) ∧
    (∃ (dt : Nat) (m : Mbox) (s : State) (r : Request), (s.tick dt).runsLen (↑m) 1025 35 r ∧
      (slotWorld (beField r.payload 0 1)).isSome = true ∧
      slotWorld (beField r.payload 0 1) ≠ some (((s.tick dt).afterReq ↑m).mb ↑m).world) ∧
    (∃ (dt : Nat) (m : Mbox) (s : State) (r : Request), (s.tick dt).runsLen (↑m) 1025 35 r ∧
      slotWorld (beField r.payload 0 1) = some (((s.tick dt).afterReq ↑m).mb ↑m).world ∧
      (usageOk (beField r.payload 0 1) (beField r.payload 1 1) = false ∨ fallbackOk (beField r.payload 0 1) (beField r.payload 2 1) = false)) ∧
    (∃ (dt : Nat) (m : Mbox) (s : State) (r : Request), (s.tick dt).runsLen (↑m) 1025 35 r ∧
      slotWorld (beField r.payload 0 1) = some (((s.tick dt).afterReq ↑m).mb ↑m).world ∧
      (usageOk (beField r.payload 0 1) (beField r.payload 1 1) = false ∨ fallbackOk (beField r.payload 0 1) (beField r.payload 2 1) = false)) ∧
    (∃ (dt : Nat) (m : Mbox) (s : State) (r : Request), (s.tick dt).runsLen (↑m) 1025 35 r ∧
      slotWorld (beField r.payload 0 1) = some (((s.tick dt).afterReq ↑m).mb ↑m).world ∧
      usageOk (beField r.payload 0 1) (beField r.payload 1 1) = true ∧
      fallbackOk (beField r.payload 0 1) (beField r.payload 2 1) = true ∧
      ((s.tick dt).afterReq ↑m).unwrapBy (10 + 3 * ↑m) (sliceOct r.payload 11 24) = none) :=
  ⟨⟨0, 0, ask (keyed (keyed up 1 16) 10 48) 0x0401 keyLoadReq, req 0x0401 keyLoadReq, aKey,
    by unfold State.runsLen State.runs; decide +kernel⟩,
   ⟨0, 0, ask (keyed (keyed (keyed up 1 16) 10 48) 47 1) 0x0401 keyLoadReq, req 0x0401 keyLoadReq, aKey,
     by unfold State.runsLen State.runs; decide +kernel⟩,
   ⟨0, 0, ask up 0x0401 (31 :: keyLoadReq.drop 1), req 0x0401 (31 :: keyLoadReq.drop 1),
     by unfold State.runsLen State.runs; decide +kernel⟩,
   ⟨0, 1, askAt 1 up 0x0401 keyLoadReq, req 0x0401 keyLoadReq, by unfold State.runsLen State.runs; decide +kernel⟩,
   ⟨0, 0, ask up 0x0401 (47 :: 8 :: keyLoadReq.drop 2), req 0x0401 (47 :: 8 :: keyLoadReq.drop 2),
     by unfold State.runsLen State.runs; decide +kernel⟩,
   ⟨0, 0, ask up 0x0401 (47 :: 1 :: 47 :: keyLoadReq.drop 3), req 0x0401 (47 :: 1 :: 47 :: keyLoadReq.drop 3),
     by unfold State.runsLen State.runs; decide +kernel⟩,
   ⟨0, 0, ask up 0x0401 keyLoadReq, req 0x0401 keyLoadReq, by unfold State.runsLen State.runs; decide +kernel⟩⟩

theorem witness_KeyEraseListAndContexts :
    (∃ (dt : Nat) (m : Mbox) (s : State) (r : Request) (w : Nat), (s.tick dt).runsLen (↑m) 1026 1 r ∧
      slotWorld (beField r.payload 0 1) = some w ∧
      (w = (((s.tick dt).afterReq ↑m).mb ↑m).world ∨ (((s.tick dt).afterReq ↑m).mb ↑m).world = 0)) ∧
    (∃ (dt : Nat) (m : Mbox) (s : State) (r : Request), (s.tick dt).runsLen (↑m) 1027 0 r) ∧
    (∃ (dt : Nat) (m : Mbox) (s : State) (r : Request) (c : Ctx), (s.tick dt).runsLen (↑m) 1028 2 r ∧
      ((s.tick dt).afterReq ↑m).crypto.ctxs.get (beField r.payload 0 1) = some c ∧ c.ofW0 = true ∧ beField r.payload 1 1 = 0) ∧
    (∃ (dt : Nat) (m : Mbox) (s : State) (r : Request) (c : Ctx), (s.tick dt).runsLen (↑m) 1028 2 r ∧
      ((s.tick dt).afterReq ↑m).crypto.ctxs.get (beField r.payload 0 1) = some c ∧ c.ofW0 = true ∧ beField r.payload 1 1 = 1) ∧
    (∃ (dt : Nat) (m : Mbox) (s : State) (r : Request), (s.tick dt).runsLen (↑m) 1026 1 r ∧ slotWorld (beField r.payload 0 1) = none) ∧
    (∃ (dt : Nat) (m : Mbox) (s : State) (r : Request) (w : Nat), (s.tick dt).runsLen (↑m) 1026 1 r ∧
      slotWorld (beField r.payload 0 1) = some w ∧ w ≠ (((s.tick dt).afterReq ↑m).mb ↑m).world ∧
      (((s.tick dt).afterReq ↑m).mb ↑m).world ≠ 0) ∧
    (∃ (dt : Nat) (m : Mbox) (s : State) (r : Request), (s.tick dt).runsLen (↑m) 1028 2 r ∧ beField r.payload 1 1 ≤ 1 ∧
      ((s.tick dt).afterReq ↑m).crypto.ctxs.get (beField r.payload 0 1) = none) ∧
    (∃ (dt : Nat) (m : Mbox) (s : State) (r : Request) (c : Ctx), (s.tick dt).runsLen (↑m) 1028 2 r ∧ beField r.payload 1 1 ≤ 1 ∧
      ((s.tick dt).afterReq ↑m).crypto.ctxs.get (beField r.payload 0 1) = some c ∧ c.ofW0 = false) ∧
    (∃ (dt : Nat) (m : Mbox) (s : State) (r : Request), (s.tick dt).runsLen (↑m) 1029 50 r ∧ beField r.payload 1 1 = 1 ∧
      (ctxOf (List.drop 2 r.payload)).ofW0 = true ∧ ((s.tick dt).afterReq ↑m).ctxStands (ctxOf (List.drop 2 r.payload)) = true) ∧
    (∃ (dt : Nat) (m : Mbox) (s : State) (r : Request), (s.tick dt).runsLen (↑m) 1029 50 r ∧ beField r.payload 1 1 = 1 ∧
      (ctxOf (List.drop 2 r.payload)).ofW0 = true ∧ ((s.tick dt).afterReq ↑m).ctxStands (ctxOf (List.drop 2 r.payload)) = false) ∧
    (∃ (dt : Nat) (m : Mbox) (s : State) (r : Request) (o : Octets), (s.tick dt).runsLen (↑m) 1029 58 r ∧ beField r.payload 1 1 = 0 ∧
      ((s.tick dt).afterReq ↑m).ctxOctets 0 (List.drop 2 r.payload) = some o ∧ (ctxOf o).ofW0 = true ∧
      (ctxOf o).startTag = ((s.tick dt).afterReq ↑m).crypto.startTag ∧
      (((s.tick dt).afterReq ↑m).slot (ctxOf o).slot.toNat).state = SlotState.ready ∧
      (((s.tick dt).afterReq ↑m).slot (ctxOf o).slot.toNat).gen = (ctxOf o).gen) :=
  ⟨⟨0, 0, ask (keyed up 47 48) 0x0402 [47], req 0x0402 [47], 0, by unfold State.runsLen State.runs; decide +kernel⟩,
   ⟨0, 1, askAt 1 up 0x0403 [], req 0x0403 [], by unfold State.runsLen State.runs; decide +kernel⟩,
   ⟨0, 0, ask (withCtx (keyed up 1 16)) 0x0404 [3, 0], req 0x0404 [3, 0], aCtx, by unfold State.runsLen State.runs; decide +kernel⟩,
   ⟨0, 0, ask (withCtx up) 0x0404 [3, 1], req 0x0404 [3, 1], aCtx, by unfold State.runsLen State.runs; decide +kernel⟩,
   ⟨0, 0, ask up 0x0402 [168], req 0x0402 [168], by unfold State.runsLen State.runs; decide +kernel⟩,
   ⟨0, 1, askAt 1 up 0x0402 [47], req 0x0402 [47], 0, by unfold State.runsLen State.runs; decide +kernel⟩,
   ⟨0, 0, ask up 0x0404 [3, 1], req 0x0404 [3, 1], by unfold State.runsLen State.runs; decide +kernel⟩,
   ⟨0, 0, ask (withOtherCtx up) 0x0404 [3, 1], req 0x0404 [3, 1], otherCtx, by unfold State.runsLen State.runs; decide +kernel⟩,
   ⟨0, 0, ask (keyed up 47 1) 0x0405 clearCtxReq, req 0x0405 clearCtxReq, by unfold State.runsLen State.runs; decide +kernel⟩,
   ⟨0, 0, ask up 0x0405 clearCtxReq, req 0x0405 clearCtxReq, by unfold State.runsLen State.runs; decide +kernel⟩,
   ⟨0, 0, ask (keyed (keyed up 1 16) 47 1) 0x0405 ctxReq, req 0x0405 ctxReq, aCtx.octets,
     by unfold State.runsLen State.runs; decide +kernel⟩⟩

theorem witness_TimeCommands :
    (∃ (dt : Nat) (m : Mbox) (s : State) (r : Request), (s.tick dt).runs (↑m) 1282 r ∧ timeSetArg r.payload = none) ∧
    (∃ (dt : Nat) (m : Mbox) (s : State) (r : Request), (s.tick dt).runs (↑m) 1282 r ∧ timeSetArg r.payload = some none ∧
      ((s.tick dt).afterReq ↑m).wallDerivable = false) ∧
    (∃ (dt : Nat) (m : Mbox) (s : State) (r : Request), (s.tick dt).runs (↑m) 1282 r ∧ ((timeSetArg r.payload).bind id).isSome = true ∧
      ((s.tick dt).afterReq ↑m).wallDerivable = false ∧ beField r.payload 0 1 = 0 ∧ List.length r.payload = 7) ∧
    (∃ (dt : Nat) (m : Mbox) (s : State) (r : Request), (s.tick dt).runs (↑m) 1282 r ∧ (timeSetArg r.payload).isSome = true ∧
      ((s.tick dt).afterReq ↑m).wallDerivable = true) ∧
    (∃ (dt : Nat) (m : Mbox) (s : State) (r : Request), (s.tick dt).runsLen (↑m) 1283 1 r) ∧
    (∃ (dt : Nat) (m : Mbox) (s : State) (r : Request), (s.tick dt).runsLen (↑m) 1283 1 r) ∧
    (∃ (dt : Nat) (m : Mbox) (s : State) (r : Request), (s.tick dt).runsLen (↑m) 1284 0 r) ∧
    (∃ (dt : Nat) (m : Mbox) (s : State) (r : Request), (s.tick dt).runsLen (↑m) 1285 0 r) ∧
    (∃ (dt : Nat) (m : Mbox) (s : State) (r : Request), (s.tick dt).runsLen (↑m) 1286 4 r) :=
  ⟨⟨0, 0, ask quiet 0x0502 [0, 0], req 0x0502 [0, 0], by unfold State.runs; decide +kernel⟩,
   ⟨0, 0, ask quiet 0x0502 [1, 0, 0, 13, 1, 0, 0, 0], req 0x0502 [1, 0, 0, 13, 1, 0, 0, 0], by unfold State.runs; decide +kernel⟩,
   ⟨0, 0, ask quiet 0x0502 [0, 0, 0, 0, 0, 1, 2], req 0x0502 [0, 0, 0, 0, 0, 1, 2], by unfold State.runs; decide +kernel⟩,
   ⟨0, 0, ask mastered 0x0502 [0, 0, 0, 0, 0, 1, 2], req 0x0502 [0, 0, 0, 0, 0, 1, 2], by unfold State.runs; decide +kernel⟩,
   ⟨0, 0, ask up 0x0503 [208], req 0x0503 [208], by unfold State.runsLen State.runs; decide +kernel⟩,
   ⟨0, 0, ask up 0x0503 [207], req 0x0503 [207], by unfold State.runsLen State.runs; decide +kernel⟩,
   ⟨0, 0, ask up 0x0504 [], req 0x0504 [], by unfold State.runsLen State.runs; decide +kernel⟩,
   ⟨0, 0, ask up 0x0505 [], req 0x0505 [], by unfold State.runsLen State.runs; decide +kernel⟩,
   ⟨0, 0, ask up 0x0506 [0, 0, 1, 0], req 0x0506 [0, 0, 1, 0], by unfold State.runsLen State.runs; decide +kernel⟩⟩

theorem witness_AlmanacCommands :
    (∃ (dt : Nat) (m : Mbox) (s : State) (r : Request), (s.tick dt).runsLen (↑m) 1297 128 r ∧
      ((s.tick dt).afterReq ↑m).almAddStatus (↑m) (almSetLast r.payload (2 ^ 64 - 1)) ≠ sOk) ∧
    (∃ (dt : Nat) (m : Mbox) (s : State) (r : Request), (s.tick dt).runsLen (↑m) 1298 2 r ∧ 1023 < beField r.payload 0 2) ∧
    (∃ (dt : Nat) (m : Mbox) (s : State) (r : Request) (e : AlmEntry), (s.tick dt).runsLen (↑m) 1298 2 r ∧ beField r.payload 0 2 ≤ 1023 ∧
      (((s.tick dt).afterReq ↑m).hw.almanac.get (beField r.payload 0 2) = none ∨ ((s.tick dt).afterReq ↑m).hw.almanac.get (beField r.payload 0 2) = some e ∧
      (((s.tick dt).afterReq ↑m).mb ↑m).world ≠ 0 ∧ almWorld e.octets ≠ (((s.tick dt).afterReq ↑m).mb ↑m).world)) ∧
    (∃ (dt : Nat) (m : Mbox) (s : State) (r : Request) (e : AlmEntry), (s.tick dt).runsLen (↑m) 1298 2 r ∧ beField r.payload 0 2 ≤ 1023 ∧
      (((s.tick dt).afterReq ↑m).hw.almanac.get (beField r.payload 0 2) = none ∨ ((s.tick dt).afterReq ↑m).hw.almanac.get (beField r.payload 0 2) = some e ∧
      (((s.tick dt).afterReq ↑m).mb ↑m).world ≠ 0 ∧ almWorld e.octets ≠ (((s.tick dt).afterReq ↑m).mb ↑m).world)) ∧
    (∃ (dt : Nat) (m : Mbox) (s : State) (r : Request), (s.tick dt).runsLen (↑m) 1297 128 r ∧
      almMalformed (almSetLast r.payload (2 ^ 64 - 1)) = none ∧ almBadRange (almSetLast r.payload (2 ^ 64 - 1)) = none ∧
      almWorld (almSetLast r.payload (2 ^ 64 - 1)) = (((s.tick dt).afterReq ↑m).mb ↑m).world ∧
      almCross (almSetLast r.payload (2 ^ 64 - 1)) = none ∧ List.length ((s.tick dt).afterReq ↑m).hw.almanac < 1024 ∧
      ((s.tick dt).afterReq ↑m).hw.almanac.get (almId (almSetLast r.payload (2 ^ 64 - 1))) = none) ∧
    (∃ (dt : Nat) (m : Mbox) (s : State) (r : Request), (s.tick dt).runsLen (↑m) 1297 128 r ∧
      almMalformed (almSetLast r.payload (2 ^ 64 - 1)) = none ∧ almBadRange (almSetLast r.payload (2 ^ 64 - 1)) = none ∧
      almWorld (almSetLast r.payload (2 ^ 64 - 1)) = (((s.tick dt).afterReq ↑m).mb ↑m).world ∧
      almCross (almSetLast r.payload (2 ^ 64 - 1)) = none ∧ 1024 ≤ List.length ((s.tick dt).afterReq ↑m).hw.almanac ∧
      ((s.tick dt).afterReq ↑m).almAddStatus (↑m) (almSetLast r.payload (2 ^ 64 - 1)) ≠ sOk) ∧
    (∃ (dt : Nat) (m : Mbox) (s : State) (r : Request) (e : AlmEntry), (s.tick dt).runsLen (↑m) 1298 2 r ∧ beField r.payload 0 2 ≤ 1023 ∧
      ((s.tick dt).afterReq ↑m).hw.almanac.get (beField r.payload 0 2) = some e ∧
      ((((s.tick dt).afterReq ↑m).mb ↑m).world = 0 ∨ almWorld e.octets = (((s.tick dt).afterReq ↑m).mb ↑m).world)) ∧
    (∃ (dt : Nat) (m : Mbox) (s : State) (r : Request) (e : AlmEntry), (s.tick dt).runsLen (↑m) 1298 2 r ∧ beField r.payload 0 2 ≤ 1023 ∧
      ((s.tick dt).afterReq ↑m).hw.almanac.get (beField r.payload 0 2) = some e ∧
      ((((s.tick dt).afterReq ↑m).mb ↑m).world = 0 ∨ almWorld e.octets = (((s.tick dt).afterReq ↑m).mb ↑m).world)) ∧
    (∃ (dt : Nat) (m : Mbox) (s : State) (r : Request), (s.tick dt).runsLen (↑m) 1299 2 r) :=
  ⟨⟨0, 1, askAt 1 almanacked 0x0511 (almOf 3 1), req 0x0511 (almOf 3 1), by unfold State.runsLen State.runs; decide +kernel⟩,
   ⟨0, 1, askAt 1 almanacked 0x0512 [4, 0], req 0x0512 [4, 0], by unfold State.runsLen State.runs; decide +kernel⟩,
   ⟨0, 1, askAt 1 almanacked 0x0512 [3, 255], req 0x0512 [3, 255], { octets := almOf 3 1, fate := .standing },
     by unfold State.runsLen State.runs; decide +kernel⟩,
   ⟨0, 1, askAt 1 almForeign 0x0512 [0, 3], req 0x0512 [0, 3], { octets := almOf 3 0, fate := .standing },
     by unfold State.runsLen State.runs; decide +kernel⟩,
   ⟨0, 1, askAt 1 up 0x0511 (almOf 1023 1), req 0x0511 (almOf 1023 1), by unfold State.runsLen State.runs; decide +kernel⟩,
   ⟨0, 1, askAt 1 almFull 0x0511 (almOf 1023 1), req 0x0511 (almOf 1023 1), by unfold State.runsLen State.runs; decide +kernel⟩,
   ⟨0, 1, askAt 1 almanacked 0x0512 [0, 3], req 0x0512 [0, 3], { octets := almOf 3 1, fate := .standing },
     by unfold State.runsLen State.runs; decide +kernel⟩,
   ⟨0, 0, ask almanacked 0x0512 [0, 3], req 0x0512 [0, 3], { octets := almOf 3 1, fate := .standing },
     by unfold State.runsLen State.runs; decide +kernel⟩,
   ⟨0, 1, askAt 1 almanacked 0x0513 [0, 3], req 0x0513 [0, 3], by unfold State.runsLen State.runs; decide +kernel⟩⟩

theorem witness_NodeCommandsSeeVisibleNodes :
    (∃ (s : State) (w : Nat) (i : Nat) (eui : BitVec 64) (n : Node), s.seek w eui = some (i, n) ∧ w ≠ 0) ∧
    (∃ (dt : Nat) (m : Mbox) (s : State) (r : Request), (s.tick dt).runsLen (↑m) 769 8 r ∧
      (((s.tick dt).afterReq ↑m).seek (((s.tick dt).afterReq ↑m).mb ↑m).world (BitVec.ofNat 64 (beField r.payload 0 8))).isSome = true) ∧
    (∃ (dt : Nat) (m : Mbox) (s : State) (r : Request), (s.tick dt).runsLen (↑m) 769 8 r ∧
      ((s.tick dt).afterReq ↑m).seek (((s.tick dt).afterReq ↑m).mb ↑m).world (BitVec.ofNat 64 (beField r.payload 0 8)) = none) ∧
    (∃ (dt : Nat) (m : Mbox) (s : State) (r : Request), (s.tick dt).runsLen (↑m) 771 8 r ∧
      (((s.tick dt).afterReq ↑m).seek (((s.tick dt).afterReq ↑m).mb ↑m).world (BitVec.ofNat 64 (beField r.payload 0 8))).isSome = true) ∧
    (∃ (dt : Nat) (m : Mbox) (s : State) (r : Request), (s.tick dt).runsLen (↑m) 771 8 r ∧
      ((s.tick dt).afterReq ↑m).seek (((s.tick dt).afterReq ↑m).mb ↑m).world (BitVec.ofNat 64 (beField r.payload 0 8)) = none) ∧
    (∃ (dt : Nat) (m : Mbox) (s : State) (r : Request), (s.tick dt).runsLen (↑m) 774 8 r ∧
      (((s.tick dt).afterReq ↑m).seek (((s.tick dt).afterReq ↑m).mb ↑m).world (BitVec.ofNat 64 (beField r.payload 0 8))).isSome = true) ∧
    (∃ (dt : Nat) (m : Mbox) (s : State) (r : Request), (s.tick dt).runsLen (↑m) 774 8 r ∧
      ((s.tick dt).afterReq ↑m).seek (((s.tick dt).afterReq ↑m).mb ↑m).world (BitVec.ofNat 64 (beField r.payload 0 8)) = none) :=
  ⟨⟨peopled, 1, 0, 0x0A0B, aNode, by decide +kernel⟩,
   ⟨0, 1, askAt 1 peopled 0x0301 aNodeEui, req 0x0301 aNodeEui, by unfold State.runsLen State.runs; decide +kernel⟩,
   ⟨0, 1, askAt 1 up 0x0301 aNodeEui, req 0x0301 aNodeEui, by unfold State.runsLen State.runs; decide +kernel⟩,
   ⟨0, 1, askAt 1 peopled 0x0303 aNodeEui, req 0x0303 aNodeEui, by unfold State.runsLen State.runs; decide +kernel⟩,
   ⟨0, 1, askAt 1 up 0x0303 aNodeEui, req 0x0303 aNodeEui, by unfold State.runsLen State.runs; decide +kernel⟩,
   ⟨0, 1, askAt 1 peopled 0x0306 aNodeEui, req 0x0306 aNodeEui, by unfold State.runsLen State.runs; decide +kernel⟩,
   ⟨0, 1, askAt 1 up 0x0306 aNodeEui, req 0x0306 aNodeEui, by unfold State.runsLen State.runs; decide +kernel⟩⟩

theorem witness_NodeWalkFlushAndRehash :
    (∃ (dt : Nat) (m : Mbox) (s : State) (r : Request), (s.tick dt).runsLen (↑m) 770 6 r ∧ 1 ≤ beField r.payload 5 1 ∧
      beField r.payload 5 1 ≤ 32 ∧ (beField r.payload 4 1 ≤ 7 ∨ beField r.payload 4 1 = 255)) ∧
    (∃ (dt : Nat) (m : Mbox) (s : State) (r : Request), (s.tick dt).runsLen (↑m) 770 6 r ∧ 1 ≤ beField r.payload 5 1 ∧
      beField r.payload 5 1 ≤ 32 ∧ (beField r.payload 4 1 ≤ 7 ∨ beField r.payload 4 1 = 255)) ∧
    (∃ (dt : Nat) (m : Mbox) (s : State) (r : Request), (s.tick dt).runsLen (↑m) 772 1 r ∧ beField r.payload 0 1 ≤ 7 ∧
      ((s.tick dt).afterReq ↑m).table.epochs.length = 8) ∧
    (∃ (dt : Nat) (m : Mbox) (s : State) (r : Request), (s.tick dt).runsLen (↑m) 773 8 r) ∧
    (∃ (dt : Nat) (m : Mbox) (s : State) (r : Request), (s.tick dt).runsLen (↑m) 770 6 r ∧
      (beField r.payload 5 1 = 0 ∨ 32 < beField r.payload 5 1 ∨ 7 < beField r.payload 4 1 ∧ beField r.payload 4 1 ≠ 255)) ∧
    (∃ (dt : Nat) (m : Mbox) (s : State) (r : Request), (s.tick dt).runsLen (↑m) 770 6 r ∧
      (beField r.payload 5 1 = 0 ∨ 32 < beField r.payload 5 1 ∨ 7 < beField r.payload 4 1 ∧ beField r.payload 4 1 ≠ 255)) ∧
    (∃ (dt : Nat) (m : Mbox) (s : State) (r : Request), (s.tick dt).runsLen (↑m) 772 1 r ∧ 7 < beField r.payload 0 1) ∧
    (∃ (dt : Nat) (m : Mbox) (s : State) (r : Request), (s.tick dt).runsLen (↑m) 773 8 r) :=
  ⟨⟨0, 0, ask crowded 0x0302 [0, 0, 0, 0, 0xFF, 1], req 0x0302 [0, 0, 0, 0, 0xFF, 1], by unfold State.runsLen State.runs; decide +kernel⟩,
   ⟨0, 0, ask crowded 0x0302 [0, 0, 0, 0, 7, 32], req 0x0302 [0, 0, 0, 0, 7, 32], by unfold State.runsLen State.runs; decide +kernel⟩,
   ⟨0, 0, ask peopled 0x0304 [7], req 0x0304 [7], by unfold State.runsLen State.runs; decide +kernel⟩,
   ⟨0, 0, ask peopled 0x0305 [1, 0, 0, 0, 0, 0, 0, 0], req 0x0305 [1, 0, 0, 0, 0, 0, 0, 0],
     by unfold State.runsLen State.runs; decide +kernel⟩,
   ⟨0, 0, ask crowded 0x0302 [0, 0, 0, 0, 255, 0], req 0x0302 [0, 0, 0, 0, 255, 0], by unfold State.runsLen State.runs; decide +kernel⟩,
   ⟨0, 0, ask crowded 0x0302 [0, 0, 0, 0, 255, 33], req 0x0302 [0, 0, 0, 0, 255, 33], by unfold State.runsLen State.runs; decide +kernel⟩,
   ⟨0, 0, ask peopled 0x0304 [8], req 0x0304 [8], by unfold State.runsLen State.runs; decide +kernel⟩,
   ⟨0, 0, ask peopled 0x0305 [0, 0, 0, 0, 0, 0, 0, 0], req 0x0305 [0, 0, 0, 0, 0, 0, 0, 0],
     by unfold State.runsLen State.runs; decide +kernel⟩⟩

theorem witness_CanopyPinsNodes :
    (∃ (dt : Nat) (m : Mbox) (s : State) (r : Request) (n : Node), ((s.tick dt).afterReq ↑m).pinSubject (beField r.payload 1 4) = some n ∧
      beField r.payload 0 1 ≤ 4 ∧ (s.tick dt).runsLen (↑m) 1537 9 r ∧
      ((s.tick dt).afterReq ↑m).pinInRange n (beField r.payload 0 1) (beField r.payload 5 4) = true) ∧
    (∃ (dt : Nat) (m : Mbox) (s : State) (r : Request) (n : Node), ((s.tick dt).afterReq ↑m).pinSubject (beField r.payload 1 4) = some n ∧
      beField r.payload 0 1 ≤ 4 ∧ (s.tick dt).runsLen (↑m) 1537 9 r ∧
      ((s.tick dt).afterReq ↑m).pinInRange n (beField r.payload 0 1) (beField r.payload 5 4) = false) ∧
    (∃ (dt : Nat) (m : Mbox) (s : State) (r : Request) (n : Node), ((s.tick dt).afterReq ↑m).pinSubject (beField r.payload 1 4) = some n ∧
      beField r.payload 0 1 ≤ 4 ∧ (s.tick dt).runsLen (↑m) 1537 9 r ∧
      ((s.tick dt).afterReq ↑m).pinInRange n (beField r.payload 0 1) (beField r.payload 5 4) = true) ∧
    (∃ (dt : Nat) (m : Mbox) (s : State) (r : Request) (n : Node), ((s.tick dt).afterReq ↑m).pinSubject (beField r.payload 1 4) = some n ∧
      beField r.payload 0 1 ≤ 4 ∧ (s.tick dt).runsLen (↑m) 1538 5 r) ∧
    (∃ (dt : Nat) (m : Mbox) (s : State) (r : Request), (s.tick dt).runsLen (↑m) 1537 9 r ∧ (beField r.payload 0 1 ≤ 4 ∧
      ((s.tick dt).afterReq ↑m).pinSubject (beField r.payload 1 4) = none ∨ beField r.payload 0 1 = 5 ∧
      ((s.tick dt).afterReq ↑m).laneCount ≤ beField r.payload 1 4 ∨ beField r.payload 0 1 = 6 ∧
      ∀ (f : Fe), feOf (beField r.payload 1 4) = some f → ((s.tick dt).afterReq ↑m).hasFe f = false)) ∧
    (∃ (dt : Nat) (m : Mbox) (s : State) (r : Request), (s.tick dt).runsLen (↑m) 1537 9 r ∧ (beField r.payload 0 1 ≤ 4 ∧
      ((s.tick dt).afterReq ↑m).pinSubject (beField r.payload 1 4) = none ∨ beField r.payload 0 1 = 5 ∧
      ((s.tick dt).afterReq ↑m).laneCount ≤ beField r.payload 1 4 ∨ beField r.payload 0 1 = 6 ∧
      ∀ (f : Fe), feOf (beField r.payload 1 4) = some f → ((s.tick dt).afterReq ↑m).hasFe f = false)) ∧
    (∃ (dt : Nat) (m : Mbox) (s : State) (r : Request), (s.tick dt).runsLen (↑m) 1537 9 r ∧ 6 < beField r.payload 0 1) ∧
    (∃ (dt : Nat) (m : Mbox) (s : State) (r : Request), (s.tick dt).runsLen (↑m) 1537 9 r ∧ 6 < beField r.payload 0 1) ∧
    (∃ (dt : Nat) (m : Mbox) (s : State) (r : Request), (s.tick dt).runsLen (↑m) 1537 9 r ∧ beField r.payload 0 1 = 5 ∧
      beField r.payload 1 4 < ((s.tick dt).afterReq ↑m).laneCount ∧ (((s.tick dt).afterReq ↑m).lane (beField r.payload 1 4)).out = true) ∧
    (∃ (dt : Nat) (m : Mbox) (s : State) (r : Request), (s.tick dt).runsLen (↑m) 1537 9 r ∧ beField r.payload 0 1 = 5 ∧
      beField r.payload 1 4 < ((s.tick dt).afterReq ↑m).laneCount ∧
      (((s.tick dt).afterReq ↑m).lane (beField r.payload 1 4)).out = false ∧
      (((s.tick dt).afterReq ↑m).laneValue (beField r.payload 5 4) = none ∨ ((s.tick dt).afterReq ↑m).laneAllowed (beField r.payload 1 4) = false)) ∧
    (∃ (dt : Nat) (m : Mbox) (s : State) (r : Request), (s.tick dt).runsLen (↑m) 1537 9 r ∧ beField r.payload 0 1 = 5 ∧
      beField r.payload 1 4 < ((s.tick dt).afterReq ↑m).laneCount ∧
      (((s.tick dt).afterReq ↑m).lane (beField r.payload 1 4)).out = false ∧
      (((s.tick dt).afterReq ↑m).laneValue (beField r.payload 5 4) = none ∨ ((s.tick dt).afterReq ↑m).laneAllowed (beField r.payload 1 4) = false)) ∧
    (∃ (dt : Nat) (m : Mbox) (s : State) (r : Request), (s.tick dt).runsLen (↑m) 1537 9 r ∧ beField r.payload 0 1 = 5 ∧
      beField r.payload 1 4 < ((s.tick dt).afterReq ↑m).laneCount ∧
      (((s.tick dt).afterReq ↑m).lane (beField r.payload 1 4)).out = false ∧
      (((s.tick dt).afterReq ↑m).laneValue (beField r.payload 5 4)).isSome = true ∧
      ((s.tick dt).afterReq ↑m).laneAllowed (beField r.payload 1 4) = true) ∧
    (∃ (dt : Nat) (m : Mbox) (s : State) (r : Request), (s.tick dt).runsLen (↑m) 1537 9 r ∧ beField r.payload 0 1 = 5 ∧
      beField r.payload 1 4 < ((s.tick dt).afterReq ↑m).laneCount ∧
      (((s.tick dt).afterReq ↑m).lane (beField r.payload 1 4)).out = false ∧
      (((s.tick dt).afterReq ↑m).laneValue (beField r.payload 5 4)).isSome = true ∧
      ((s.tick dt).afterReq ↑m).laneAllowed (beField r.payload 1 4) = true) ∧
    (∃ (dt : Nat) (m : Mbox) (s : State) (r : Request), (s.tick dt).runsLen (↑m) 1537 9 r ∧ beField r.payload 0 1 = 6 ∧
      feOf (beField r.payload 1 4) = some Fe.sa ∧ ((s.tick dt).afterReq ↑m).hasFe Fe.sa = true ∧
      ((s.tick dt).afterReq ↑m).feMode Fe.sa = FeMode.off) ∧
    (∃ (dt : Nat) (m : Mbox) (s : State) (r : Request), (s.tick dt).runsLen (↑m) 1537 9 r ∧ beField r.payload 0 1 = 6 ∧
      feOf (beField r.payload 1 4) = some Fe.sa ∧ ((s.tick dt).afterReq ↑m).hasFe Fe.sa = true ∧
      ((s.tick dt).afterReq ↑m).feMode Fe.sa ≠ FeMode.off ∧ ((s.tick dt).afterReq ↑m).sliceCand Fe.sa (beField r.payload 5 4) = false) ∧
    (∃ (dt : Nat) (m : Mbox) (s : State) (r : Request), (s.tick dt).runsLen (↑m) 1538 5 r ∧ (beField r.payload 0 1 ≤ 4 ∧
      ((s.tick dt).afterReq ↑m).pinSubject (beField r.payload 1 4) = none ∨ beField r.payload 0 1 = 5 ∧
      ((s.tick dt).afterReq ↑m).laneCount ≤ beField r.payload 1 4 ∨ beField r.payload 0 1 = 6 ∧
      ∀ (f : Fe), feOf (beField r.payload 1 4) = some f → ((s.tick dt).afterReq ↑m).hasFe f = false)) ∧
    (∃ (dt : Nat) (m : Mbox) (s : State) (r : Request), (s.tick dt).runsLen (↑m) 1538 5 r ∧ (beField r.payload 0 1 ≤ 4 ∧
      ((s.tick dt).afterReq ↑m).pinSubject (beField r.payload 1 4) = none ∨ beField r.payload 0 1 = 5 ∧
      ((s.tick dt).afterReq ↑m).laneCount ≤ beField r.payload 1 4 ∨ beField r.payload 0 1 = 6 ∧
      ∀ (f : Fe), feOf (beField r.payload 1 4) = some f → ((s.tick dt).afterReq ↑m).hasFe f = false)) ∧
    (∃ (dt : Nat) (m : Mbox) (s : State) (r : Request), (s.tick dt).runsLen (↑m) 1538 5 r ∧ 6 < beField r.payload 0 1) ∧
    (∃ (dt : Nat) (m : Mbox) (s : State) (r : Request), (s.tick dt).runsLen (↑m) 1538 5 r ∧ beField r.payload 0 1 = 5 ∧
      beField r.payload 1 4 < ((s.tick dt).afterReq ↑m).laneCount) ∧
    (∃ (dt : Nat) (m : Mbox) (s : State) (r : Request), (s.tick dt).runsLen (↑m) 1538 5 r ∧ beField r.payload 0 1 = 6 ∧
      feOf (beField r.payload 1 4) = some Fe.h ∧ ((s.tick dt).afterReq ↑m).hasFe Fe.h = true) ∧
    (∃ (dt : Nat) (m : Mbox) (s : State) (r : Request), (s.tick dt).runsLen (↑m) 1537 9 r ∧ beField r.payload 0 1 = 6 ∧
      feOf (beField r.payload 1 4) = some Fe.sa ∧ ((s.tick dt).afterReq ↑m).hasFe Fe.sa = true ∧
      ((s.tick dt).afterReq ↑m).feMode Fe.sa ≠ FeMode.off ∧ ((s.tick dt).afterReq ↑m).sliceCand Fe.sa (beField r.payload 5 4) = true) ∧
    (∃ (dt : Nat) (m : Mbox) (s : State) (r : Request), (s.tick dt).runsLen (↑m) 1537 9 r ∧ beField r.payload 0 1 = 6 ∧
      feOf (beField r.payload 1 4) = some Fe.sa ∧ ((s.tick dt).afterReq ↑m).hasFe Fe.sa = true ∧
      ((s.tick dt).afterReq ↑m).feMode Fe.sa ≠ FeMode.off ∧ ((s.tick dt).afterReq ↑m).sliceCand Fe.sa (beField r.payload 5 4) = true) :=
  ⟨⟨0, 0, ask peopled 0x0601 [2, 0, 0, 0, 0, 0, 0, 0, 1], req 0x0601 [2, 0, 0, 0, 0, 0, 0, 0, 1], aNode,
    by unfold State.runsLen State.runs; decide +kernel⟩,
   ⟨0, 0, ask peopled 0x0601 [4, 0, 0, 0, 0, 0, 0, 0, 3], req 0x0601 [4, 0, 0, 0, 0, 0, 0, 0, 3], aNode,
     by unfold State.runsLen State.runs; decide +kernel⟩,
   ⟨0, 0, ask peopled 0x0601 [1, 0, 0, 0, 0, 0, 0, 0, 1], req 0x0601 [1, 0, 0, 0, 0, 0, 0, 0, 1], aNode,
     by unfold State.runsLen State.runs; decide +kernel⟩,
   ⟨0, 0, ask peopled 0x0602 [4, 0, 0, 0, 0], req 0x0602 [4, 0, 0, 0, 0], aNode, by unfold State.runsLen State.runs; decide +kernel⟩,
   ⟨0, 0, ask up 0x0601 [0, 0, 0, 0, 5, 0, 0, 0, 1], req 0x0601 [0, 0, 0, 0, 5, 0, 0, 0, 1],
     by unfold State.runsLen State.runs; decide +kernel⟩,
   ⟨0, 0, ask up 0x0601 [4, 0, 0, 0, 5, 0, 0, 0, 1], req 0x0601 [4, 0, 0, 0, 5, 0, 0, 0, 1],
     by unfold State.runsLen State.runs; decide +kernel⟩,
   ⟨0, 0, ask up 0x0601 [7, 0, 0, 0, 0, 0, 0, 0, 1], req 0x0601 [7, 0, 0, 0, 0, 0, 0, 0, 1],
     by unfold State.runsLen State.runs; decide +kernel⟩,
   ⟨0, 0, ask up 0x0601 [255, 0, 0, 0, 0, 0, 0, 0, 1], req 0x0601 [255, 0, 0, 0, 0, 0, 0, 0, 1],
     by unfold State.runsLen State.runs; decide +kernel⟩,
   ⟨0, 0, ask laneGone 0x0601 [5, 0, 0, 0, 47, 0, 0, 2, 3], req 0x0601 [5, 0, 0, 0, 47, 0, 0, 2, 3],
     by unfold State.runsLen State.runs; decide +kernel⟩,
   ⟨0, 0, ask up 0x0601 [5, 0, 0, 0, 0, 0, 0, 0, 3], req 0x0601 [5, 0, 0, 0, 0, 0, 0, 0, 3],
     by unfold State.runsLen State.runs; decide +kernel⟩,
   ⟨0, 0, ask up 0x0601 [5, 0, 0, 0, 0, 0, 0, 2, 127], req 0x0601 [5, 0, 0, 0, 0, 0, 0, 2, 127],
     by unfold State.runsLen State.runs; decide +kernel⟩,
   ⟨0, 0, ask up 0x0601 [5, 0, 0, 0, 0, 0, 0, 2, 3], req 0x0601 [5, 0, 0, 0, 0, 0, 0, 2, 3],
     by unfold State.runsLen State.runs; decide +kernel⟩,
   ⟨0, 0, ask up 0x0601 [5, 0, 0, 0, 47, 0, 0, 2, 3], req 0x0601 [5, 0, 0, 0, 47, 0, 0, 2, 3],
     by unfold State.runsLen State.runs; decide +kernel⟩,
   ⟨0, 0, ask saOff 0x0601 [6, 0, 0, 0, 0, 51, 178, 176, 96], req 0x0601 [6, 0, 0, 0, 0, 51, 178, 176, 96],
     by unfold State.runsLen State.runs; decide +kernel⟩,
   ⟨0, 0, ask up 0x0601 [6, 0, 0, 0, 0, 0, 0, 0, 1], req 0x0601 [6, 0, 0, 0, 0, 0, 0, 0, 1],
     by unfold State.runsLen State.runs; decide +kernel⟩,
   ⟨0, 0, ask up 0x0602 [2, 0, 0, 0, 5], req 0x0602 [2, 0, 0, 0, 5], by unfold State.runsLen State.runs; decide +kernel⟩,
   ⟨0, 0, ask up 0x0602 [5, 0, 0, 0, 48], req 0x0602 [5, 0, 0, 0, 48], by unfold State.runsLen State.runs; decide +kernel⟩,
   ⟨0, 0, ask up 0x0602 [7, 0, 0, 0, 0], req 0x0602 [7, 0, 0, 0, 0], by unfold State.runsLen State.runs; decide +kernel⟩,
   ⟨0, 0, ask up 0x0602 [5, 0, 0, 0, 47], req 0x0602 [5, 0, 0, 0, 47], by unfold State.runsLen State.runs; decide +kernel⟩,
   ⟨0, 0, ask up 0x0602 [6, 0, 0, 0, 2], req 0x0602 [6, 0, 0, 0, 2], by unfold State.runsLen State.runs; decide +kernel⟩,
   ⟨0, 0, ask up 0x0601 [6, 0, 0, 0, 0, 51, 162, 176, 96], req 0x0601 [6, 0, 0, 0, 0, 51, 162, 176, 96],
     by unfold State.runsLen State.runs; decide +kernel⟩,
   ⟨0, 0, ask saThere 0x0601 [6, 0, 0, 0, 0, 51, 162, 176, 96], req 0x0601 [6, 0, 0, 0, 0, 51, 162, 176, 96],
     by unfold State.runsLen State.runs; decide +kernel⟩⟩

theorem witness_FreezesAndLog :
    (∃ (dt : Nat) (m : Mbox) (s : State) (r : Request) (k : Nat) (w : Nat), freezeArg r.payload = some (k, w) ∧
      (s.tick dt).runsLen (↑m) 1539 7 r ∧ beField r.payload 3 4 ≤ 604800) ∧
    (∃ (dt : Nat) (m : Mbox) (s : State) (r : Request) (k : Nat) (w : Nat), freezeArg r.payload = some (k, w) ∧
      (s.tick dt).runsLen (↑m) 1539 7 r ∧ 604800 < beField r.payload 3 4) ∧
    (∃ (dt : Nat) (m : Mbox) (s : State) (r : Request) (k : Nat) (w : Nat), freezeArg r.payload = some (k, w) ∧
      (s.tick dt).runsLen (↑m) 1540 3 r) ∧
    (∃ (dt : Nat) (m : Mbox) (s : State) (r : Request), (s.tick dt).runsLen (↑m) 1541 5 r ∧ 1 ≤ beField r.payload 4 1 ∧
      beField r.payload 4 1 ≤ 64) ∧
    (∃ (dt : Nat) (m : Mbox) (s : State) (r : Request), freezeArg r.payload = none ∧ (s.tick dt).runsLen (↑m) 1539 7 r) ∧
    (∃ (dt : Nat) (m : Mbox) (s : State) (r : Request), freezeArg r.payload = none ∧ (s.tick dt).runsLen (↑m) 1539 7 r) ∧
    (∃ (dt : Nat) (m : Mbox) (s : State) (r : Request), freezeArg r.payload = none ∧ (s.tick dt).runsLen (↑m) 1540 3 r) ∧
    (∃ (dt : Nat) (m : Mbox) (s : State) (r : Request) (k : Nat) (w : Nat), freezeArg r.payload = some (k, w) ∧
      (s.tick dt).runsLen (↑m) 1539 7 r ∧ beField r.payload 3 4 ≤ 604800) ∧
    (∃ (dt : Nat) (m : Mbox) (s : State) (r : Request), (s.tick dt).runsLen (↑m) 1541 5 r ∧
      (beField r.payload 4 1 = 0 ∨ 64 < beField r.payload 4 1)) ∧
    (∃ (dt : Nat) (m : Mbox) (s : State) (r : Request), (s.tick dt).runsLen (↑m) 1541 5 r ∧
      (beField r.payload 4 1 = 0 ∨ 64 < beField r.payload 4 1)) :=
  ⟨⟨0, 0, ask up 0x0603 [0, 0x40, 0xFF, 0, 9, 0x3A, 0x80], req 0x0603 [0, 0x40, 0xFF, 0, 9, 0x3A, 0x80], 64, 8,
    by unfold State.runsLen State.runs; decide +kernel⟩,
   ⟨0, 0, ask up 0x0603 [0, 0x40, 7, 0, 9, 0x3A, 0x81], req 0x0603 [0, 0x40, 7, 0, 9, 0x3A, 0x81], 64, 7,
     by unfold State.runsLen State.runs; decide +kernel⟩,
   ⟨0, 0, ask up 0x0604 [0, 0x40, 0xFF], req 0x0604 [0, 0x40, 0xFF], 64, 8, by unfold State.runsLen State.runs; decide +kernel⟩,
   ⟨0, 0, ask up 0x0605 [0, 0, 0, 0, 64], req 0x0605 [0, 0, 0, 0, 64], by unfold State.runsLen State.runs; decide +kernel⟩,
   ⟨0, 0, ask up 0x0603 [0, 0, 0xFF, 0, 9, 0x3A, 0x80], req 0x0603 [0, 0, 0xFF, 0, 9, 0x3A, 0x80],
     by unfold State.runsLen State.runs; decide +kernel⟩,
   ⟨0, 0, ask up 0x0603 [0, 0x40, 8, 0, 9, 0x3A, 0x80], req 0x0603 [0, 0x40, 8, 0, 9, 0x3A, 0x80],
     by unfold State.runsLen State.runs; decide +kernel⟩,
   ⟨0, 0, ask up 0x0604 [0, 2, 0xFF], req 0x0604 [0, 2, 0xFF], by unfold State.runsLen State.runs; decide +kernel⟩,
   ⟨0, 0, ask up 0x0603 [0, 0x40, 7, 0, 0, 0, 0], req 0x0603 [0, 0x40, 7, 0, 0, 0, 0], 64, 7,
     by unfold State.runsLen State.runs; decide +kernel⟩,
   ⟨0, 0, ask up 0x0605 [0, 0, 0, 0, 0], req 0x0605 [0, 0, 0, 0, 0], by unfold State.runsLen State.runs; decide +kernel⟩,
   ⟨0, 0, ask up 0x0605 [0, 0, 0, 0, 65], req 0x0605 [0, 0, 0, 0, 65], by unfold State.runsLen State.runs; decide +kernel⟩⟩

theorem witness_RequestsReplayedCheckedAccepted :
    (∃ (q : Nat), q < 2 ^ 64) ∧
    (∃ (h : BitVec 64) (b : BitVec 64) (q : Nat), q < 2 ^ 64 ∧ h.toNat < q ∧ freshSeq h b q = true) ∧
    (∃ (h : BitVec 64) (q : Nat), q < 2 ^ 64 ∧ q + 64 ≤ h.toNat) ∧
    (∃ (h : BitVec 64) (b : BitVec 64) (q : Nat), q < 2 ^ 64 ∧ freshSeq h b q = true) ∧
    (∃ (h : BitVec 64) (b : BitVec 64) (q : Nat), q < 2 ^ 64 ∧ freshSeq h b q = true) ∧
    (∃ (dt : Nat) (m : Mbox) (d : Datagram) (s : State), ↑m ≠ 0 ∧ ((s.tick dt).mb ↑m).isOpen = true ∧ (s.tick dt).inPause = false ∧
      (s.tick dt).mboxAuth ↑m = true ∧ (s.tick dt).addrOk (↑m) d.srcAddr = false) ∧
    (∃ (dt : Nat) (m : Mbox) (d : Datagram) (s : State), ↑m ≠ 0 ∧ ((s.tick dt).mb ↑m).isOpen = true ∧ (s.tick dt).inPause = false ∧
      (s.tick dt).mboxAuth ↑m = true ∧ (s.tick dt).addrOk (↑m) d.srcAddr = true ∧ (s.tick dt).formOk (↑m) d.octets = false) ∧
    (∃ (dt : Nat) (m : Mbox) (d : Datagram) (s : State), ↑m ≠ 0 ∧ ((s.tick dt).mb ↑m).isOpen = true ∧ (s.tick dt).inPause = false ∧
      (s.tick dt).mboxAuth ↑m = true ∧ (s.tick dt).addrOk (↑m) d.srcAddr = true ∧ (s.tick dt).formOk (↑m) d.octets = true ∧
      List.drop (List.length d.octets - 16) d.octets ≠ natOcts (cmac ((s.tick dt).vmac ↑m) (octNats (List.take (List.length d.octets - 16) d.octets)))) ∧
    (∃ (dt : Nat) (m : Mbox) (d : Datagram) (s : State), ↑m ≠ 0 ∧ ((s.tick dt).mb ↑m).isOpen = true ∧ (s.tick dt).inPause = false ∧
      (s.tick dt).mboxAuth ↑m = true ∧ (s.tick dt).addrOk (↑m) d.srcAddr = true ∧ (s.tick dt).formOk (↑m) d.octets = true ∧
      List.drop (List.length d.octets - 16) d.octets = natOcts (cmac ((s.tick dt).vmac ↑m) (octNats (List.take (List.length d.octets - 16) d.octets))) ∧
      freshSeq ((s.tick dt).mb ↑m).high ((s.tick dt).mb ↑m).bitmap (beField d.octets 8 8) = false ∧
      (∀ c ∈ ((s.tick dt).mb ↑m).last8, c.seq.toNat ≠ beField d.octets 8 8)) ∧
    (∃ (dt : Nat) (m : Mbox) (d : Datagram) (s : State) (c : CmdClass), ↑m ≠ 0 ∧ ((s.tick dt).mb ↑m).isOpen = true ∧
      (s.tick dt).inPause = false ∧ (s.tick dt).mboxAuth ↑m = true ∧ (s.tick dt).life.mode ≠ Mode.stump ∧
      (s.tick dt).addrOk (↑m) d.srcAddr = true ∧ (s.tick dt).formOk (↑m) d.octets = true ∧
      List.drop (List.length d.octets - 16) d.octets = natOcts (cmac ((s.tick dt).vmac ↑m) (octNats (List.take (List.length d.octets - 16) d.octets))) ∧
      freshSeq ((s.tick dt).mb ↑m).high ((s.tick dt).mb ↑m).bitmap (beField d.octets 8 8) = true ∧
      cmdClass (requestOf (s.tick dt) (↑m) d).opcode = some c ∧ (∀ j < 8, ((s.tick dt).mb j).busy = none ∧
      ((s.tick dt).mb j).ended = none ∧ (s.tick dt).order (orderKey (388 + j) 0) = []) ∧
      (((s.tick dt).spend (↑m) (beField d.octets 8 8)).post (388 + ↑m) 0 0 (48 + List.length (requestOf (s.tick dt) (↑m) d).payload) (Content.request (requestOf (s.tick dt) (↑m) d))).isSome = true) ∧
    (∃ (dt : Nat) (m : Mbox) (d : Datagram) (s : State), ↑m ≠ 0 ∧ ((s.tick dt).mb ↑m).isOpen = true ∧ (s.tick dt).inPause = false ∧
      (s.tick dt).mboxAuth ↑m = true ∧ (s.tick dt).addrOk (↑m) d.srcAddr = true ∧ (s.tick dt).formOk (↑m) d.octets = true ∧
      List.drop (List.length d.octets - 16) d.octets = natOcts (cmac ((s.tick dt).vmac ↑m) (octNats (List.take (List.length d.octets - 16) d.octets))) ∧
      freshSeq ((s.tick dt).mb ↑m).high ((s.tick dt).mb ↑m).bitmap (beField d.octets 8 8) = false ∧
      (∀ c ∈ ((s.tick dt).mb ↑m).last8, c.seq.toNat ≠ beField d.octets 8 8)) :=
  ⟨⟨100, by decide +kernel⟩,
   ⟨100, 5, 101, by decide +kernel⟩,
   ⟨100, 36, by decide +kernel⟩,
   ⟨100, 5, 37, by decide +kernel⟩,
   ⟨18446744073709551615, 0, 18446744073709551615, by decide +kernel⟩,
   ⟨0, 1, strangeDgram, addrBound, by decide +kernel⟩,
   ⟨0, 1, shortDgram, keyedMbox, by decide +kernel⟩,
   ⟨0, 1, aDgram 5 0x0101, up, by decide +kernel⟩,
   ⟨0, 1, aDgram 0 0x0101, keyedMbox, by decide +kernel⟩,
   ⟨0, 1, aDgram 5 0x0101, keyedMbox, .short, by decide +kernel⟩,
   ⟨0, 1, aDgram 5 0x0101, replayed, by decide +kernel⟩⟩

theorem witness_M0Transactions :
    (∃ (dt : Nat) (n : Nat) (o : Octets) (first : Byte) (s : State), ((s.tick dt).pins.m0Busy = true ∨ List.length o < n) ∧
      (s.tick dt).order (orderKey 396 0) = [] ∧ first ≠ 1 ∧ first ≠ 2 ∧ first ≠ 3) ∧
    (∃ (dt : Nat) (n : Nat) (o : Octets) (first : Byte) (s : State), (s.tick dt).pins.m0Busy = false ∧ n ≤ List.length o ∧
      ((s.tick dt).mb 0).isOpen = true ∧ (s.tick dt).order (orderKey 396 0) = [] ∧ first ≠ 1 ∧ first ≠ 2 ∧ first ≠ 3) ∧
    (∃ (dt : Nat) (n : Nat) (o : Octets) (s : State) (p : Packet) (rest : List Packet) (g : Msg) (ev : List (BitVec 32)), (s.tick dt).pins.m0Busy = false ∧
      n ≤ List.length o ∧ ((s.tick dt).mb 0).isOpen = true ∧ (s.tick dt).order (orderKey 396 0) = p :: rest ∧
      p.content = Content.message g ev) ∧
    (∃ (dt : Nat) (n : Nat) (o : Octets) (s : State) (p : Packet) (rest : List Packet) (g : Msg) (ev : List (BitVec 32)), (s.tick dt).pins.m0Busy = false ∧
      n ≤ List.length o ∧ ((s.tick dt).mb 0).isOpen = true ∧ (s.tick dt).order (orderKey 396 0) = p :: rest ∧
      p.content = Content.message g ev) :=
  ⟨⟨0, 3, [1, 2], 4, up, by decide +kernel⟩,
   ⟨0, 3, [1, 2, 3], 0, up, by decide +kernel⟩,
   ⟨0, 3, [1, 2, 3], mailed, aLetter, [], aMsg, [1], by decide +kernel⟩,
   ⟨0, 3, [1, 2, 3], mailedMarked, aLetter, [], aMsg, [1], by decide +kernel⟩⟩

theorem witness_EventsAndTheirCommands :
    (∃ (dt : Nat) (m : Mbox) (s : State), ((s.tick dt).mb ↑m).isOpen = true ∧ (s.tick dt).mailboxesRun = true ∧
      (s.tick dt).subscribed ↑m = true ∧ List.filter (fun e => !e.sent) ((s.tick dt).mb ↑m).ring ≠ []) ∧
    (∃ (dt : Nat) (m : Mbox) (s : State), ((s.tick dt).mb ↑m).isOpen = true ∧ (s.tick dt).mailboxesRun = true ∧
      (s.tick dt).subscribed ↑m = true ∧ List.filter (fun e => !e.sent) ((s.tick dt).mb ↑m).ring = [] ∧ ↑m ≠ 0 ∧
      List.filter (fun e => e.sent) ((s.tick dt).mb ↑m).ring ≠ [] ∧ ((s.tick dt).mb ↑m).lastSend + 500000000 ≤ (s.tick dt).clk) ∧
    (∃ (dt : Nat) (m : Mbox) (s : State) (r : Request), (s.tick dt).runsLen (↑m) 2052 4 r) ∧
    (∃ (dt : Nat) (m : Mbox) (s : State) (r : Request), (s.tick dt).runsLen (↑m) 2053 18 r) :=
  ⟨⟨0, 1, ringing false, by decide +kernel⟩,
   ⟨0, 1, ringing true, by decide +kernel⟩,
   ⟨0, 1, askAt 1 (ringing true) 0x0804 [0, 0, 0, 1], req 0x0804 [0, 0, 0, 1], by unfold State.runsLen State.runs; decide +kernel⟩,
   ⟨0, 1, askAt 1 up 0x0805 (List.replicate 18 3), req 0x0805 (List.replicate 18 3), by unfold State.runsLen State.runs; decide +kernel⟩⟩

theorem witness_TallyAndQueueStatistics :
    (∃ (dt : Nat) (m : Mbox) (s : State) (r : Request), (s.tick dt).runsLen (↑m) 2049 0 r) ∧
    (∃ (dt : Nat) (m : Mbox) (s : State) (r : Request) (x : Snapshot), (s.tick dt).runsLen (↑m) 2050 4 r ∧
      (((s.tick dt).afterReq ↑m).mb ↑m).snap = some x ∧ 1 ≤ beField r.payload 2 2 ∧ beField r.payload 2 2 ≤ 1024) ∧
    (∃ (dt : Nat) (m : Mbox) (s : State) (r : Request), (s.tick dt).runsLen (↑m) 2050 4 r ∧ (((s.tick dt).afterReq ↑m).mb ↑m).snap = none) ∧
    (∃ (dt : Nat) (m : Mbox) (s : State) (r : Request), (s.tick dt).runsLen (↑m) 2051 4 r ∧ 1 ≤ beField r.payload 2 2 ∧
      beField r.payload 0 2 + beField r.payload 2 2 ≤ 513) ∧
    (∃ (dt : Nat) (m : Mbox) (s : State) (r : Request), (s.tick dt).runsLen (↑m) 2051 4 r ∧ 1 ≤ beField r.payload 2 2 ∧
      beField r.payload 0 2 + beField r.payload 2 2 ≤ 513) ∧
    (∃ (dt : Nat) (m : Mbox) (s : State) (r : Request) (x : Snapshot), (s.tick dt).runsLen (↑m) 2050 4 r ∧
      (((s.tick dt).afterReq ↑m).mb ↑m).snap = some x ∧ (beField r.payload 2 2 = 0 ∨ 1024 < beField r.payload 2 2)) ∧
    (∃ (dt : Nat) (m : Mbox) (s : State) (r : Request) (x : Snapshot), (s.tick dt).runsLen (↑m) 2050 4 r ∧
      (((s.tick dt).afterReq ↑m).mb ↑m).snap = some x ∧ (beField r.payload 2 2 = 0 ∨ 1024 < beField r.payload 2 2)) ∧
    (∃ (dt : Nat) (m : Mbox) (s : State) (r : Request), (s.tick dt).runsLen (↑m) 2051 4 r ∧
      (beField r.payload 2 2 = 0 ∨ 513 < beField r.payload 0 2 + beField r.payload 2 2)) ∧
    (∃ (dt : Nat) (m : Mbox) (s : State) (r : Request), (s.tick dt).runsLen (↑m) 2051 4 r ∧
      (beField r.payload 2 2 = 0 ∨ 513 < beField r.payload 0 2 + beField r.payload 2 2)) :=
  ⟨⟨0, 1, askAt 1 counted 0x0801 [], req 0x0801 [], by unfold State.runsLen State.runs; decide +kernel⟩,
   ⟨0, 1, askAt 1 snapped 0x0802 [0, 1, 4, 0], req 0x0802 [0, 1, 4, 0], aSnap, by unfold State.runsLen State.runs; decide +kernel⟩,
   ⟨0, 1, askAt 1 counted 0x0802 [0, 1, 4, 0], req 0x0802 [0, 1, 4, 0], by unfold State.runsLen State.runs; decide +kernel⟩,
   ⟨0, 0, ask up 0x0803 [2, 0, 0, 1], req 0x0803 [2, 0, 0, 1], by unfold State.runsLen State.runs; decide +kernel⟩,
   ⟨0, 1, askAt 1 up 0x0803 [0, 0, 0, 1], req 0x0803 [0, 0, 0, 1], by unfold State.runsLen State.runs; decide +kernel⟩,
   ⟨0, 1, askAt 1 snapped 0x0802 [0, 1, 4, 1], req 0x0802 [0, 1, 4, 1], aSnap, by unfold State.runsLen State.runs; decide +kernel⟩,
   ⟨0, 1, askAt 1 snapped 0x0802 [0, 1, 0, 0], req 0x0802 [0, 1, 0, 0], aSnap, by unfold State.runsLen State.runs; decide +kernel⟩,
   ⟨0, 1, askAt 1 up 0x0803 [2, 0, 0, 2], req 0x0803 [2, 0, 0, 2], by unfold State.runsLen State.runs; decide +kernel⟩,
   ⟨0, 1, askAt 1 up 0x0803 [2, 0, 0, 0], req 0x0803 [2, 0, 0, 0], by unfold State.runsLen State.runs; decide +kernel⟩⟩

theorem witness_FinalResponseEnds :
    (∃ (dt : Nat) (m : Mbox) (s : State) (b : Busy), ((s.tick dt).mb ↑m).busy = some b ∧
      ((s.tick dt).life.pause = none ∨ (s.tick dt).inPause = false ∧ b.req.opcode ≠ 532 ∧ b.req.opcode ≠ 516) ∧
      b.req.opcode ∉ [772, 773, 1794]) ∧
    (∃ (dt : Nat) (m : Mbox) (s : State) (b : Busy), ((s.tick dt).mb ↑m).busy = some b ∧ (s.tick dt).inPause = true ∧
      (b.req.opcode = 532 ∨ b.req.opcode = 516) ∧ b.req.opcode = 532) ∧
    (∃ (dt : Nat) (m : Mbox) (s : State) (b : Busy), ((s.tick dt).mb ↑m).busy = some b ∧ (s.tick dt).inPause = true ∧
      (b.req.opcode = 532 ∨ b.req.opcode = 516)) ∧
    (∃ (dt : Nat) (m : Mbox) (s : State) (b : Busy), ((s.tick dt).mb ↑m).busy = some b ∧ (s.tick dt).inPause = true ∧
      b.req.opcode ≠ 532 ∧ b.req.opcode ≠ 516) ∧
    (∃ (dt : Nat) (m : Mbox) (s : State) (b : Busy), ((s.tick dt).mb ↑m).busy = some b ∧ (s.tick dt).life.pause ≠ none ∧
      (s.tick dt).inPause = false ∧ (b.req.opcode = 532 ∨ b.req.opcode = 516)) ∧
    (∃ (dt : Nat) (m : Mbox) (s : State) (b : Busy), ((s.tick dt).mb ↑m).busy = some b ∧
      ((s.tick dt).life.pause = none ∨ (s.tick dt).inPause = false ∧ b.req.opcode ≠ 532 ∧ b.req.opcode ≠ 516) ∧
      b.req.opcode ∉ [772, 773, 1794]) :=
  ⟨⟨0, 0, busyWith 0x0203, aBusy 0x0203, by decide +kernel⟩,
   ⟨0, 0, pausing 0x0214, aBusy 0x0214, by decide +kernel⟩,
   ⟨0, 0, pausing 0x0204, aBusy 0x0204, by decide +kernel⟩,
   ⟨0, 0, pausing 0x0203, aBusy 0x0203, by decide +kernel⟩,
   ⟨0, 0, notPausing 0x0214, aBusy 0x0214, by decide +kernel⟩,
   ⟨0, 0, notPausing 0x0203, aBusy 0x0203, by decide +kernel⟩⟩

theorem witness_SlotWritePrograms :
    (∃ (dt : Nat) (m : Mbox) (s : State) (r : Request), 6 ≤ List.length r.payload ∧ List.length r.payload ≤ 1029 ∧
      beField r.payload 0 1 ≤ 1 ∧ beField r.payload 1 4 + (List.drop 5 r.payload).length ≤ 4194304 ∧ (s.tick dt).runs (↑m) 514 r ∧
      ((s.tick dt).afterReq ↑m).life.cfgSlot ≠ some (beField r.payload 0 1) ∧ (s.tick dt).flashOk ∧ beField r.payload 1 4 ≠ 0) ∧
    (∃ (dt : Nat) (m : Mbox) (s : State) (r : Request), 6 ≤ List.length r.payload ∧ List.length r.payload ≤ 1029 ∧
      beField r.payload 0 1 ≤ 1 ∧ beField r.payload 1 4 + (List.drop 5 r.payload).length ≤ 4194304 ∧ (s.tick dt).runs (↑m) 514 r ∧
      ((s.tick dt).afterReq ↑m).life.cfgSlot ≠ some (beField r.payload 0 1) ∧ (s.tick dt).flashOk ∧ beField r.payload 1 4 ≠ 0) ∧
    (∃ (dt : Nat) (m : Mbox) (s : State) (r : Request), (s.tick dt).flashOk ∧ 6 ≤ List.length r.payload ∧ List.length r.payload ≤ 1029 ∧
      beField r.payload 0 1 ≤ 1 ∧ beField r.payload 1 4 ≠ 0 ∧ (s.tick dt).runs (↑m) 514 r ∧
      beField r.payload 1 4 + (List.drop 5 r.payload).length ≤ 4194304 ∧
      ((s.tick dt).afterReq ↑m).life.cfgSlot = some (beField r.payload 0 1)) ∧
    (∃ (dt : Nat) (m : Mbox) (s : State) (r : Request), 6 ≤ List.length r.payload ∧ List.length r.payload ≤ 1029 ∧
      beField r.payload 0 1 ≤ 1 ∧ beField r.payload 1 4 + (List.drop 5 r.payload).length ≤ 4194304 ∧ (s.tick dt).runs (↑m) 530 r ∧
      ((s.tick dt).afterReq ↑m).life.fwSlot ≠ some (beField r.payload 0 1) ∧ ((s.tick dt).afterReq ↑m).life.stump = none ∧
      (s.tick dt).flashOk ∧ beField r.payload 1 4 ≠ 0 ∧ beField r.payload 1 4 + (List.drop 5 r.payload).length ≤ 8388608) ∧
    (∃ (dt : Nat) (m : Mbox) (s : State) (r : Request), (s.tick dt).flashOk ∧ 6 ≤ List.length r.payload ∧ List.length r.payload ≤ 1029 ∧
      beField r.payload 0 1 ≤ 1 ∧ beField r.payload 1 4 ≠ 0 ∧ (s.tick dt).runs (↑m) 514 r ∧
      4194304 < beField r.payload 1 4 + (List.drop 5 r.payload).length) ∧
    (∃ (dt : Nat) (m : Mbox) (s : State) (r : Request), (s.tick dt).flashOk ∧ 6 ≤ List.length r.payload ∧ List.length r.payload ≤ 1029 ∧
      beField r.payload 0 1 ≤ 1 ∧ beField r.payload 1 4 ≠ 0 ∧ (s.tick dt).runs (↑m) 530 r ∧
      beField r.payload 1 4 + (List.drop 5 r.payload).length ≤ 8388608 ∧
      ((s.tick dt).afterReq ↑m).life.fwSlot = some (beField r.payload 0 1) ∧ ((s.tick dt).afterReq ↑m).life.stump = none) ∧
    (∃ (dt : Nat) (m : Mbox) (s : State) (r : Request), (s.tick dt).flashOk ∧ 6 ≤ List.length r.payload ∧ List.length r.payload ≤ 1029 ∧
      beField r.payload 0 1 ≤ 1 ∧ beField r.payload 1 4 = 0 ∧ (s.tick dt).runs (↑m) 514 r ∧
      ((s.tick dt).afterReq ↑m).life.cfgSlot ≠ some (beField r.payload 0 1)) ∧
    (∃ (dt : Nat) (m : Mbox) (s : State) (r : Request), (s.tick dt).flashOk ∧ 6 ≤ List.length r.payload ∧ List.length r.payload ≤ 1029 ∧
      beField r.payload 0 1 ≤ 1 ∧ beField r.payload 1 4 = 0 ∧ (s.tick dt).runs (↑m) 530 r ∧
      ((s.tick dt).afterReq ↑m).life.fwSlot ≠ some (beField r.payload 0 1) ∧ ((s.tick dt).afterReq ↑m).life.stump = none) :=
  ⟨⟨0, 0, ask inSlots 0x0202 (slotWriteReq 1), req 0x0202 (slotWriteReq 1), by unfold State.runs State.flashOk; decide +kernel⟩,
   ⟨0, 0, ask inSlots 0x0202 (slotWriteReq 0x3FFFFE), req 0x0202 (slotWriteReq 0x3FFFFE),
     by unfold State.runs State.flashOk; decide +kernel⟩,
   ⟨0, 0, ask inSlots 0x0202 (0 :: (slotWriteReq 1).drop 1), req 0x0202 (0 :: (slotWriteReq 1).drop 1),
     by unfold State.runs State.flashOk; decide +kernel⟩,
   ⟨0, 0, ask inSlots 0x0212 (slotWriteReq 0xFFFD), req 0x0212 (slotWriteReq 0xFFFD), by unfold State.runs State.flashOk; decide +kernel⟩,
   ⟨0, 0, ask inSlots 0x0202 (slotWriteReq 0x3FFFFF), req 0x0202 (slotWriteReq 0x3FFFFF),
     by unfold State.runs State.flashOk; decide +kernel⟩,
   ⟨0, 0, ask inSlots 0x0212 (0 :: (slotWriteReq 1).drop 1), req 0x0212 (0 :: (slotWriteReq 1).drop 1),
     by unfold State.runs State.flashOk; decide +kernel⟩,
   ⟨0, 0, ask inSlots 514 (slotWriteReq 0), req 514 (slotWriteReq 0), by unfold State.runs State.flashOk; decide +kernel⟩,
   ⟨0, 0, ask inSlots 530 (slotWriteReq 0), req 530 (slotWriteReq 0), by unfold State.runs State.flashOk; decide +kernel⟩⟩

theorem witness_SlotChecks :
    (∃ (dt : Nat) (m : Mbox) (s : State) (r : Request), (s.tick dt).runsLen (↑m) 515 1 r ∧ beField r.payload 0 1 ≤ 1 ∧
      (((s.tick dt).afterReq ↑m).checkSlot (beField r.payload 0 1)).isOk = true) ∧
    (∃ (dt : Nat) (m : Mbox) (s : State) (r : Request), (s.tick dt).runsLen (↑m) 515 1 r ∧ beField r.payload 0 1 ≤ 1 ∧
      (((s.tick dt).afterReq ↑m).checkSlot (beField r.payload 0 1)).isOk = false) ∧
    (∃ (dt : Nat) (m : Mbox) (s : State) (r : Request), (s.tick dt).runsLen (↑m) 531 1 r ∧ beField r.payload 0 1 ≤ 1 ∧
      ((s.tick dt).afterReq ↑m).life.stump = none) ∧
    (∃ (dt : Nat) (m : Mbox) (s : State) (r : Request), (s.tick dt).runsLen (↑m) 531 1 r ∧ beField r.payload 0 1 ≤ 1 ∧
      ((s.tick dt).afterReq ↑m).life.stump = none) ∧
    (∃ (dt : Nat) (m : Mbox) (s : State) (r : Request), (s.tick dt).runsLen (↑m) 515 1 r ∧ 1 < beField r.payload 0 1) ∧
    (∃ (dt : Nat) (m : Mbox) (s : State) (r : Request), (s.tick dt).runsLen (↑m) 531 1 r ∧ 1 < beField r.payload 0 1 ∧
      ((s.tick dt).afterReq ↑m).life.stump = none) ∧
    (∃ (dt : Nat) (m : Mbox) (s : State) (r : Request), (s.tick dt).runsLen (↑m) 531 1 r ∧
      (((s.tick dt).afterReq ↑m).life.stump).isSome = true ∧
      ((s.tick dt).afterReq ↑m).life.stump.map (·.target) ≠ some (beField r.payload 0 1)) ∧
    (∃ (dt : Nat) (m : Mbox) (s : State) (r : Request), (s.tick dt).runsLen (↑m) 531 1 r ∧
      (((s.tick dt).afterReq ↑m).life.stump).isSome = true ∧
      ((s.tick dt).afterReq ↑m).life.stump.map (·.target) = some (beField r.payload 0 1) ∧ beField r.payload 0 1 ≤ 1) :=
  ⟨⟨0, 0, ask (cfgFlash cfgOctets1) 0x0203 [0], req 0x0203 [0], by unfold State.runsLen State.runs; decide +kernel⟩,
   ⟨0, 0, ask up 0x0203 [1], req 0x0203 [1], by unfold State.runsLen State.runs; decide +kernel⟩,
   ⟨0, 0, ask fwUpdating 0x0213 [0], req 0x0213 [0], by unfold State.runsLen State.runs; decide +kernel⟩,
   ⟨0, 0, ask up 0x0213 [1], req 0x0213 [1], by unfold State.runsLen State.runs; decide +kernel⟩,
   ⟨0, 0, ask up 0x0203 [2], req 0x0203 [2], by unfold State.runsLen State.runs; decide +kernel⟩,
   ⟨0, 0, ask up 0x0213 [2], req 0x0213 [2], by unfold State.runsLen State.runs; decide +kernel⟩,
   ⟨0, 0, ask (stumped 0) 0x0213 [1], req 0x0213 [1], by unfold State.runsLen State.runs; decide +kernel⟩,
   ⟨0, 0, ask (stumped 1) 0x0213 [1], req 0x0213 [1], by unfold State.runsLen State.runs; decide +kernel⟩⟩

theorem witness_ConfirmationAndDirectory :
    (∃ (dt : Nat) (m : Mbox) (s : State) (r : Request) (i : Nat), (s.tick dt).runsLen (↑m) 533 0 r ∧
      ((s.tick dt).afterReq ↑m).life.fwSlot = some i ∧ ((s.tick dt).afterReq ↑m).life.fwTrial = true) ∧
    (∃ (dt : Nat) (m : Mbox) (s : State) (r : Request) (i : Nat), (s.tick dt).runsLen (↑m) 533 0 r ∧
      ((s.tick dt).afterReq ↑m).life.fwSlot = some i ∧ ((s.tick dt).afterReq ↑m).life.fwTrial = false) ∧
    (∃ (dt : Nat) (m : Mbox) (s : State) (r : Request) (i : Nat), (s.tick dt).runsLen (↑m) 517 0 r ∧
      ((s.tick dt).afterReq ↑m).life.cfgSlot = some i ∧ ((s.tick dt).afterReq ↑m).life.cfgTrial = true) ∧
    (∃ (dt : Nat) (m : Mbox) (s : State) (r : Request) (i : Nat), (s.tick dt).runsLen (↑m) 517 0 r ∧
      ((s.tick dt).afterReq ↑m).life.cfgSlot = some i ∧ ((s.tick dt).afterReq ↑m).life.cfgTrial = false) ∧
    (∃ (s : State) (f : DirRec → DirRec), s.flashOk ∧ (f s.dir).fw ≤ 1 ∧ (f s.dir).cfg ≤ 1) :=
  ⟨⟨0, 0, ask onTrial 0x0215 [], req 0x0215 [], 0, by unfold State.runsLen State.runs; decide +kernel⟩,
   ⟨0, 0, ask up 0x0215 [], req 0x0215 [], 0, by unfold State.runsLen State.runs; decide +kernel⟩,
   ⟨0, 0, ask onTrial 0x0205 [], req 0x0205 [], 0, by unfold State.runsLen State.runs; decide +kernel⟩,
   ⟨0, 0, ask up 0x0205 [], req 0x0205 [], 0, by unfold State.runsLen State.runs; decide +kernel⟩,
   ⟨inSlots, fun d => { d with fw := 1, cfg := 1 }, by unfold State.flashOk; decide +kernel⟩⟩

theorem witness_ResetKeepsWhatPersists :
    (∃ (dt : Nat) (s : State), ((s.tick dt).life.mode = Mode.operate ∨ (s.tick dt).life.mode = Mode.noConfig ∨ (s.tick dt).life.mode = Mode.provision ∨ (s.tick dt).life.mode = Mode.stump ∨ (s.tick dt).life.mode = Mode.secError ∨ (s.tick dt).life.mode = Mode.retired)) ∧
    (∃ (dt : Nat) (s : State), (s.tick dt).life.mode = Mode.zeroising) :=
  ⟨⟨0, up, by decide +kernel⟩,
   ⟨0, zeroing .pin, by decide +kernel⟩⟩

theorem witness_StartPinsAndRadioOn :
    (∃ (dt : Nat) (s : State), ((s.tick dt).life.mode = Mode.reset ∨ (s.tick dt).life.mode = Mode.unpowered) ∧
      (s.tick dt).life.jtagDrives = false ∧ ((s.tick dt).pins.zeroiseN = false ∨ (s.tick dt).pins.zeroiseLatch = true)) ∧
    (∃ (dt : Nat) (s : State), ((s.tick dt).life.mode = Mode.reset ∨ (s.tick dt).life.mode = Mode.unpowered) ∧
      (s.tick dt).life.jtagDrives = false ∧ (s.tick dt).pins.zeroiseN = true ∧ (s.tick dt).pins.zeroiseLatch = false ∧
      (s.tick dt).life.lcs = Lcs.retired) ∧
    (∃ (dt : Nat) (s : State), ((s.tick dt).life.mode = Mode.reset ∨ (s.tick dt).life.mode = Mode.unpowered) ∧
      (s.tick dt).life.jtagDrives = false ∧ (s.tick dt).pins.zeroiseN = true ∧ (s.tick dt).pins.zeroiseLatch = false ∧
      (s.tick dt).life.lcs ≠ Lcs.retired ∧ (s.tick dt).pins.pfiN = false) ∧
    (∃ (dt : Nat) (s : State), (s.tick dt).life.mode = Mode.operate ∧ (s.tick dt).life.radioOn = false ∧ (s.tick dt).atPhase = true) ∧
    (∃ (dt : Nat) (s : State), (s.tick dt).atPhase = false) :=
  ⟨⟨0, waitingZ, by decide +kernel⟩,
   ⟨0, waitingRetired, by decide +kernel⟩,
   ⟨0, waitingPfi, by decide +kernel⟩,
   ⟨0, standby, by decide +kernel⟩,
   ⟨0, offPhase, by decide +kernel⟩⟩

theorem witness_StartOutcomes :
    (∃ (dt : Nat) (e : StartEnv) (s : State), ((s.tick dt).life.mode = Mode.reset ∨ (s.tick dt).life.mode = Mode.unpowered) ∧
      (s.tick dt).life.jtagDrives = false ∧ (s.tick dt).pins.zeroiseN = true ∧ (s.tick dt).pins.zeroiseLatch = false ∧
      (s.tick dt).pins.pfiN = true ∧ (s.tick dt).life.lcs ≠ Lcs.retired ∧ (s.tick dt).pufRoot e.tests = none) ∧
    (∃ (dt : Nat) (e : StartEnv) (s : State), ((s.tick dt).life.mode = Mode.reset ∨ (s.tick dt).life.mode = Mode.unpowered) ∧
      (s.tick dt).life.jtagDrives = false ∧ (s.tick dt).pins.zeroiseN = true ∧ (s.tick dt).pins.zeroiseLatch = false ∧
      (s.tick dt).pins.pfiN = true ∧ (s.tick dt).life.lcs ≠ Lcs.retired ∧ (s.tick dt).goodTests e.tests ∧ e.recover = true) ∧
    (∃ (dt : Nat) (e : StartEnv) (s : State), ((s.tick dt).life.mode = Mode.reset ∨ (s.tick dt).life.mode = Mode.unpowered) ∧
      (s.tick dt).life.jtagDrives = false ∧ (s.tick dt).pins.zeroiseN = true ∧ (s.tick dt).pins.zeroiseLatch = false ∧
      (s.tick dt).pins.pfiN = true ∧ (s.tick dt).life.lcs ≠ Lcs.retired ∧ (s.tick dt).goodTests e.tests ∧ e.recover = false ∧
      ((s.tick dt).checkFw (s.tick dt).dir.fw).1 = 0) ∧
    (∃ (dt : Nat) (e : StartEnv) (s : State), ((s.tick dt).life.mode = Mode.reset ∨ (s.tick dt).life.mode = Mode.unpowered) ∧
      (s.tick dt).life.jtagDrives = false ∧ (s.tick dt).pins.zeroiseN = true ∧ (s.tick dt).pins.zeroiseLatch = false ∧
      (s.tick dt).pins.pfiN = true ∧ (s.tick dt).life.lcs ≠ Lcs.retired ∧ (s.tick dt).goodTests e.tests ∧ e.recover = false ∧
      ((s.tick dt).checkFw (s.tick dt).dir.fw).1 = 0) :=
  ⟨⟨0, envNoPuf, waiting, by decide +kernel⟩,
   ⟨0, envRecover, waiting, by unfold State.goodTests; decide +kernel⟩,
   ⟨0, env, flashed waiting, by decide +kernel, by decide +kernel, by decide +kernel, by decide +kernel, by decide +kernel,
     by decide +kernel, by unfold State.goodTests; decide +kernel, by decide +kernel, test_firmware_verifies _ rfl rfl (by decide) rfl⟩,
   ⟨0, env, flashed waitingProv, by decide +kernel, by decide +kernel, by decide +kernel, by decide +kernel, by decide +kernel,
     by decide +kernel, by unfold State.goodTests; decide +kernel, by decide +kernel, test_firmware_verifies _ rfl rfl (by decide) rfl⟩⟩

theorem witness_ZeroisationAndTamper :
    (∃ (dt : Nat) (s : State), (s.tick dt).life.mode ≠ Mode.unpowered ∧ (s.tick dt).life.mode ≠ Mode.zeroising ∧
      (s.tick dt).life.mode ≠ Mode.zeroHold) ∧
    (∃ (dt : Nat) (s : State), (s.tick dt).life.mode = Mode.unpowered ∧ (s.tick dt).life.mode ≠ Mode.zeroHold) ∧
    (∃ (dt : Nat) (s : State), (s.tick dt).life.mode = Mode.zeroising ∧ (s.tick dt).pins.zeroiseN = false ∧
      (s.tick dt).life.mode ≠ Mode.zeroHold) ∧
    (∃ (dt : Nat) (s : State), (s.tick dt).life.mode = Mode.zeroHold ∧ (s.tick dt).crypto.zeroising = some ZeroCause.pin ∧
      (s.tick dt).pins.resetN = false) ∧
    (∃ (dt : Nat) (s : State), (s.tick dt).life.mode = Mode.zeroising ∧ (s.tick dt).pins.zeroiseN = true ∧
      (s.tick dt).pins.resetN = true ∧ (s.tick dt).life.jtagDrives = false ∧ (s.tick dt).pins.zeroiseLatch = false ∧
      (s.tick dt).crypto.zeroising = some ZeroCause.retire) ∧
    (∃ (dt : Nat) (s : State) (k : Nat), (s.tick dt).life.mode = Mode.zeroising ∧ (s.tick dt).pins.zeroiseN = true ∧
      (s.tick dt).pins.resetN = true ∧ (s.tick dt).life.jtagDrives = false ∧ (s.tick dt).pins.zeroiseLatch = false ∧
      (s.tick dt).crypto.zeroising = some (ZeroCause.tamperA k) ∧ (s.tick dt).life.lcs ≠ Lcs.retired) ∧
    (∃ (dt : Nat) (s : State), ((s.tick dt).life.mode = Mode.operate ∨ (s.tick dt).life.mode = Mode.noConfig ∨ (s.tick dt).life.mode = Mode.provision) ∧
      (s.tick dt).crypto.tamperB = [] ∧ (s.tick dt).pins.resetN = false) ∧
    (∃ (dt : Nat) (s : State) (k1 : Nat) (k2 : Nat), ((s.tick dt).life.mode = Mode.operate ∨ (s.tick dt).life.mode = Mode.noConfig ∨ (s.tick dt).life.mode = Mode.provision) ∧
      (s.tick dt).crypto.tamperB = [k1, k2] ∧ (s.tick dt).clk ≤ k1 + 15000000000 ∧ (s.tick dt).clk ≤ k2 + 15000000000 ∧
      (s.tick dt).life.lcs ≠ Lcs.retired) :=
  ⟨⟨0, up, by decide +kernel⟩,
   ⟨0, held .unpowered, by decide +kernel⟩,
   ⟨0, zeroingLow, by decide +kernel⟩,
   ⟨0, zeroHeld, by decide +kernel⟩,
   ⟨0, zeroing .retire, by decide +kernel⟩,
   ⟨0, zeroing (.tamperA 2), 2, by decide +kernel⟩,
   ⟨0, pinsLow, by decide +kernel⟩,
   ⟨0, tripped, 5, 9, by decide +kernel⟩⟩

theorem witness_PowerFailSequence :
    (∃ (dt : Nat) (s : State), ((s.tick dt).life.mode = Mode.operate ∨ (s.tick dt).life.mode = Mode.noConfig ∨ (s.tick dt).life.mode = Mode.provision) ∧
      (s.tick dt).life.hwOpen = true ∧ (s.tick dt).pfiWired = true ∧ (s.tick dt).life.mode = Mode.operate) ∧
    (∃ (dt : Nat) (s : State), (s.tick dt).life.mode = Mode.pfHeld) :=
  ⟨⟨0, up, by decide +kernel⟩,
   ⟨0, held .pfHeld, by decide +kernel⟩⟩

theorem witness_AonResetAndJtag :
    (∃ (dt : Nat) (j : JtagInstr) (s : State), j ≠ JtagInstr.bypass ∧ j ≠ JtagInstr.idcode ∧ j ≠ JtagInstr.samplePreload ∧
      (s.tick dt).life.mode = Mode.operate) ∧
    (∃ (dt : Nat) (s : State), (s.tick dt).life.mode = Mode.jtagHold) ∧
    (∃ (j : JtagInstr), (j = JtagInstr.bypass ∨ j = JtagInstr.samplePreload)) ∧
    (∃ (j : JtagInstr), (j = JtagInstr.bypass ∨ j = JtagInstr.samplePreload)) :=
  ⟨⟨0, .extest, up, by decide +kernel⟩,
   ⟨0, held .jtagHold, by decide +kernel⟩,
   ⟨.bypass, by decide +kernel⟩,
   ⟨.samplePreload, by decide +kernel⟩⟩

theorem witness_EthernetReceptionAndDuplicates :
    (∃ (dt : Nat) (p : Port) (s : State), ((s.tick dt).portsRun = false ∨ ((s.tick dt).port p).up = false ∨ ((s.tick dt).port p).rxIgnore = true) ∧
      ((s.tick dt).portsRun = false ∨ ((s.tick dt).port p).up = false)) ∧
    (∃ (dt : Nat) (p : Port) (s : State), ((s.tick dt).portsRun = false ∨ ((s.tick dt).port p).up = false ∨ ((s.tick dt).port p).rxIgnore = true) ∧
      (s.tick dt).portsRun = true ∧ ((s.tick dt).port p).up = true ∧ ((s.tick dt).port p).rxIgnore = true) ∧
    (∃ (dt : Nat) (p : Port) (h : EthHdr) (s : State), (s.tick dt).portsRun = true ∧ ((s.tick dt).port p).up = true ∧
      ((s.tick dt).port p).rxIgnore = false ∧ ((s.tick dt).port p).rxCells = 0 ∧ (s.tick dt).ethAccepted h = false) ∧
    (∃ (dt : Nat) (p : Port) (f : EthFrame) (h : EthHdr) (s : State) (v : State), (s.tick dt).portsRun = true ∧
      ((s.tick dt).port p).up = true ∧ ((s.tick dt).port p).rxIgnore = false ∧
      (((s.tick dt).port p).rxCells ≠ 0 ∨ (s.tick dt).ethAccepted h = true) ∧ (s.tick dt).grant q387 1 = some v ∧
      (s.tick dt).ethAccepted f.hdr = true ∧ cellsOf (16 + (f.size - 4)) ≤ ((s.tick dt).port p).rxCells ∧ f.size ≤ 63) ∧
    (∃ (dt : Nat) (p : Port) (h : EthHdr) (s : State), (s.tick dt).portsRun = true ∧ ((s.tick dt).port p).up = true ∧
      ((s.tick dt).port p).rxIgnore = false ∧ (((s.tick dt).port p).rxCells ≠ 0 ∨ (s.tick dt).ethAccepted h = true) ∧
      (s.tick dt).grant q387 1 = none) ∧
    (∃ (dt : Nat) (p : Port) (f : EthFrame) (s : State), (s.tick dt).portsRun = true ∧ ((s.tick dt).port p).up = true ∧
      ((s.tick dt).port p).rxIgnore = false ∧ (s.tick dt).ethAccepted f.hdr = true ∧
      cellsOf (16 + (f.size - 4)) ≤ ((s.tick dt).port p).rxCells ∧ 63 < f.size ∧ f.size < 1529 ∧ f.fcsOk = false) ∧
    (∃ (dt : Nat) (p : Port) (f : EthFrame) (s : State) (g : PrpTrailer) (src : BitVec 128) (dst : BitVec 128) (tc : BitVec 8) (n : Nat) (o : Octets), (s.tick dt).portsRun = true ∧
      ((s.tick dt).port p).up = true ∧ ((s.tick dt).port p).rxIgnore = false ∧ (s.tick dt).ethAccepted f.hdr = true ∧ 64 ≤ f.size ∧
      f.size ≤ 1528 ∧ f.fcsOk = true ∧ cellsOf (16 + (f.size - 4)) ≤ ((s.tick dt).port p).rxCells ∧
      f.payload = EthPayload.ipv6 src dst tc none n o ∧ f.trailer = some g ∧ g.sizeOk = true ∧
      (g.lanId = if p = Port.p0 then 10 else 11) ∧
      ((List.filter (fun e => !decide (e.arrival + 400000000 < (s.tick dt).arrivalOf p f.size)) (s.tick dt).back.dups).any fun e => e.source == f.hdr.srcMac && e.seq == g.seq) = false ∧
      (List.filter (fun e => !decide (e.arrival + 400000000 < (s.tick dt).arrivalOf p f.size)) (s.tick dt).back.dups).length < 2048) ∧
    (∃ (dt : Nat) (p : Port) (f : EthFrame) (s : State) (g : PrpTrailer) (src : BitVec 128) (dst : BitVec 128) (tc : BitVec 8) (n : Nat) (o : Octets), (s.tick dt).portsRun = true ∧
      ((s.tick dt).port p).up = true ∧ ((s.tick dt).port p).rxIgnore = false ∧ (s.tick dt).ethAccepted f.hdr = true ∧ 64 ≤ f.size ∧
      f.size ≤ 1528 ∧ f.fcsOk = true ∧ cellsOf (16 + (f.size - 4)) ≤ ((s.tick dt).port p).rxCells ∧
      f.payload = EthPayload.ipv6 src dst tc none n o ∧ f.trailer = some g ∧ g.sizeOk = true ∧
      (g.lanId = if p = Port.p0 then 10 else 11) ∧
      ((List.filter (fun e => !decide (e.arrival + 400000000 < (s.tick dt).arrivalOf p f.size)) (s.tick dt).back.dups).any fun e => e.source == f.hdr.srcMac && e.seq == g.seq) = true) ∧
    (∃ (dt : Nat) (p : Port) (f : EthFrame) (s : State), (s.tick dt).portsRun = true ∧ ((s.tick dt).port p).up = true ∧
      ((s.tick dt).port p).rxIgnore = false ∧ (s.tick dt).ethAccepted f.hdr = true ∧
      cellsOf (16 + (f.size - 4)) ≤ ((s.tick dt).port p).rxCells ∧ 1529 ≤ f.size) ∧
    (∃ (dt : Nat) (p : Port) (f : EthFrame) (s : State), (s.tick dt).portsRun = true ∧ ((s.tick dt).port p).up = true ∧
      ((s.tick dt).port p).rxIgnore = false ∧ (s.tick dt).ethAccepted f.hdr = false) :=
  ⟨⟨0, .p0, up, by decide +kernel⟩,
   ⟨0, .p0, ignoring, by decide +kernel⟩,
   ⟨0, .p0, foreignHdr, linked, by decide +kernel⟩,
   ⟨0, .p0, runt, ownHdr, receiving, (receiving.grant q387 1).getD up, by decide +kernel⟩,
   ⟨0, .p0, ownHdr, exhausted, by decide +kernel⟩,
   ⟨0, .p0, badFcs, receiving, by decide +kernel⟩,
   ⟨0, .p0, ipFrame, receiving, aTrailer, 1, 2, 0, 40, [], by decide +kernel⟩,
   ⟨0, .p0, ipFrame, seen, aTrailer, 1, 2, 0, 40, [], by decide +kernel⟩,
   ⟨0, .p0, oversize, receivingLong, by decide +kernel⟩,
   ⟨0, .p0, { ipFrame with hdr := foreignHdr }, linked, by decide +kernel⟩⟩

theorem witness_BackhaulCommands :
    (∃ (dt : Nat) (m : Mbox) (s : State) (r : Request), (s.tick dt).runsLen (↑m) 1793 0 r) ∧
    (∃ (dt : Nat) (m : Mbox) (s : State) (r : Request), (s.tick dt).runsLen (↑m) 1794 2 r ∧
      (1 < beField r.payload 0 1 ∨ ((s.tick dt).afterReq ↑m).speedOffered (if beField r.payload 0 1 = 0 then Port.p0 else Port.p1) (beField r.payload 1 1) = false)) ∧
    (∃ (dt : Nat) (m : Mbox) (s : State) (r : Request), (s.tick dt).runsLen (↑m) 1794 2 r ∧ beField r.payload 0 1 ≤ 1 ∧
      ((s.tick dt).afterReq ↑m).speedOffered (if beField r.payload 0 1 = 0 then Port.p0 else Port.p1) (beField r.payload 1 1) = true ∧
      beField r.payload 1 1 ≠ (((s.tick dt).afterReq ↑m).port (if beField r.payload 0 1 = 0 then Port.p0 else Port.p1)).speed ∧
      (((s.tick dt).afterReq ↑m).port (if beField r.payload 0 1 = 0 then Port.p0 else Port.p1)).up = true ∧
      ((s.tick dt).afterReq ↑m).mayChange (if beField r.payload 0 1 = 0 then Port.p0 else Port.p1) = true ∧
      ((((s.tick dt).afterReq ↑m).port (if beField r.payload 0 1 = 0 then Port.p0 else Port.p1)).noStepDown = false ∨ beField r.payload 1 1 ≤ (((s.tick dt).afterReq ↑m).port (if beField r.payload 0 1 = 0 then Port.p0 else Port.p1)).speed)) ∧
    (∃ (dt : Nat) (m : Mbox) (s : State) (r : Request), (s.tick dt).runsLen (↑m) 1794 2 r ∧
      (1 < beField r.payload 0 1 ∨ ((s.tick dt).afterReq ↑m).speedOffered (if beField r.payload 0 1 = 0 then Port.p0 else Port.p1) (beField r.payload 1 1) = false)) ∧
    (∃ (dt : Nat) (m : Mbox) (s : State) (r : Request), (s.tick dt).runsLen (↑m) 1794 2 r ∧ beField r.payload 0 1 ≤ 1 ∧
      ((s.tick dt).afterReq ↑m).speedOffered (if beField r.payload 0 1 = 0 then Port.p0 else Port.p1) (beField r.payload 1 1) = true ∧
      beField r.payload 1 1 = (((s.tick dt).afterReq ↑m).port (if beField r.payload 0 1 = 0 then Port.p0 else Port.p1)).speed) ∧
    (∃ (dt : Nat) (m : Mbox) (s : State) (r : Request), (s.tick dt).runsLen (↑m) 1794 2 r ∧ beField r.payload 0 1 ≤ 1 ∧
      ((s.tick dt).afterReq ↑m).speedOffered (if beField r.payload 0 1 = 0 then Port.p0 else Port.p1) (beField r.payload 1 1) = true ∧
      beField r.payload 1 1 ≠ (((s.tick dt).afterReq ↑m).port (if beField r.payload 0 1 = 0 then Port.p0 else Port.p1)).speed ∧
      ((((s.tick dt).afterReq ↑m).port (if beField r.payload 0 1 = 0 then Port.p0 else Port.p1)).up = false ∨ ((s.tick dt).afterReq ↑m).mayChange (if beField r.payload 0 1 = 0 then Port.p0 else Port.p1) = false ∨ (((s.tick dt).afterReq ↑m).port (if beField r.payload 0 1 = 0 then Port.p0 else Port.p1)).speed < beField r.payload 1 1 ∧
      (((s.tick dt).afterReq ↑m).port (if beField r.payload 0 1 = 0 then Port.p0 else Port.p1)).noStepDown = true)) :=
  ⟨⟨0, 0, ask linked 0x0701 [], req 0x0701 [], by unfold State.runsLen State.runs; decide +kernel⟩,
   ⟨0, 0, ask linked 0x0702 [0, 0], req 0x0702 [0, 0], by unfold State.runsLen State.runs; decide +kernel⟩,
   ⟨0, 0, ask linked 0x0702 [0, 1], req 0x0702 [0, 1], by unfold State.runsLen State.runs; decide +kernel⟩,
   ⟨0, 0, ask up 0x0702 [1, 0], req 0x0702 [1, 0], by unfold State.runsLen State.runs; decide +kernel⟩,
   ⟨0, 0, ask oneGig 0x0702 [0, 1], req 0x0702 [0, 1], by unfold State.runsLen State.runs; decide +kernel⟩,
   ⟨0, 0, ask oneLink 0x0702 [0, 1], req 0x0702 [0, 1], by unfold State.runsLen State.runs; decide +kernel⟩⟩

theorem witness_PauseLoadAndIdle :
    (∃ (dt : Nat) (p : Port) (f : EthFrame) (s : State) (q : BitVec 16) (e : Nat), (s.tick dt).portsRun = true ∧
      ((s.tick dt).port p).up = true ∧ ((s.tick dt).port p).rxIgnore = false ∧ (s.tick dt).ethAccepted f.hdr = true ∧ 64 ≤ f.size ∧
      f.size ≤ 1528 ∧ f.fcsOk = true ∧ cellsOf (16 + (f.size - 4)) ≤ ((s.tick dt).port p).rxCells ∧
      f.payload = EthPayload.macControl 1 q ∧ bitOf (s.tick dt).bhFlags 1 = true ∧ ((s.tick dt).port p).pauseIgnored = none ∧
      (((s.tick dt).port p).pauseEnd = none ∨ ((s.tick dt).port p).pauseEnd = some e ∧ (s.tick dt).clk < e) ∧
      (s.tick dt).paused p = false) ∧
    (∃ (dt : Nat) (p : Port) (f : EthFrame) (s : State) (q : BitVec 16) (e : Nat), (s.tick dt).portsRun = true ∧
      ((s.tick dt).port p).up = true ∧ ((s.tick dt).port p).rxIgnore = false ∧ (s.tick dt).ethAccepted f.hdr = true ∧ 64 ≤ f.size ∧
      f.size ≤ 1528 ∧ f.fcsOk = true ∧ cellsOf (16 + (f.size - 4)) ≤ ((s.tick dt).port p).rxCells ∧
      f.payload = EthPayload.macControl 1 q ∧ bitOf (s.tick dt).bhFlags 1 = true ∧ ((s.tick dt).port p).pauseIgnored = none ∧
      (((s.tick dt).port p).pauseEnd = none ∨ ((s.tick dt).port p).pauseEnd = some e ∧ (s.tick dt).clk < e) ∧
      (s.tick dt).paused p = false) ∧
    (∃ (dt : Nat) (p : Port) (s : State) (e : Nat), ((s.tick dt).port p).pauseEnd = some e ∧ e ≤ (s.tick dt).clk ∧
      (s.tick dt).paused p = false ∧ (s.tick dt).back.sending = []) ∧
    (∃ (dt : Nat) (p : Port) (s : State) (e : Nat), (((s.tick dt).port p).pauseEnd = none ∨ ((s.tick dt).port p).pauseEnd = some e ∧
      (s.tick dt).clk < e) ∧ (s.tick dt).paused p = true ∧
      ((s.tick dt).port p).pauseStart + 250000 * (s.tick dt).pauseWdMs ≤ (s.tick dt).clk) ∧
    (∃ (dt : Nat) (s : State), (s.tick dt).portsRun = true ∧ (s.tick dt).back.windowClk + 125000000 ≤ (s.tick dt).clk) ∧
    (∃ (dt : Nat) (p : Port) (s : State), (s.tick dt).portsRun = true ∧ (s.tick dt).back.windowClk + 125000000 ≤ (s.tick dt).clk ∧
      (s.tick dt).usable p = true ∧ (s.tick dt).portMode p = 0 ∧ bitOf (s.tick dt).bhFlags 3 = true ∧ ((s.tick dt).port p).copies = [] ∧
      ((s.tick dt).port p).idleClk + 250 * (s.tick dt).lpiIdleUs ≤ (s.tick dt).clk) ∧
    (∃ (dt : Nat) (p : Port) (s : State) (e : Nat), (((s.tick dt).port p).pauseEnd = none ∨ ((s.tick dt).port p).pauseEnd = some e ∧
      (s.tick dt).clk < e) ∧ (s.tick dt).paused p = true ∧
      ((s.tick dt).port p).pauseStart + 250000 * (s.tick dt).pauseWdMs ≤ (s.tick dt).clk) ∧
    (∃ (dt : Nat) (p : Port) (s : State) (e : Nat), ((s.tick dt).port p).pauseEnd = some e ∧ e ≤ (s.tick dt).clk ∧
      (s.tick dt).paused p = false ∧ (s.tick dt).back.sending = []) :=
  ⟨⟨0, .p0, pauseFrame 65535, receiving, 65535, 5, by decide +kernel⟩,
   ⟨0, .p0, pauseFrame 0, receiving, 0, 5, by decide +kernel⟩,
   ⟨0, .p0, pausedPort 1250000000 5, 1250000000, by decide +kernel⟩,
   ⟨0, .p0, pausedPort 1250000001 1237500000, 1250000001, by decide +kernel⟩,
   ⟨0, linked, by decide +kernel⟩,
   ⟨0, .p0, idling, by decide +kernel⟩,
   ⟨0, .p0, pausedPort 1250000001 5, 1250000001, by decide +kernel⟩,
   ⟨0, .p0, pausedPort 1249999999 5, 1249999999, by decide +kernel⟩⟩

theorem witness_LinksAndSpeeds :
    (∃ (dt : Nat) (k : Nat) (p : Port) (bad : Bool) (s : State), (s.tick dt).portsRun = true ∧ ((s.tick dt).port p).beginClk = some k ∧
      k + (s.tick dt).linkFloor p ≤ (s.tick dt).clk ∧ ((s.tick dt).port p).up = false ∧ ((s.tick dt).port p).out = false ∧
      ((s.tick dt).port p).change = none ∧ ((s.tick dt).portMode p ≠ 0 ∨ bad = false)) ∧
    (∃ (dt : Nat) (k : Nat) (p : Port) (bad : Bool) (s : State), (s.tick dt).portsRun = true ∧ ((s.tick dt).port p).beginClk = some k ∧
      k + (s.tick dt).linkFloor p ≤ (s.tick dt).clk ∧ ((s.tick dt).port p).up = false ∧ ((s.tick dt).port p).out = false ∧
      ((s.tick dt).port p).change = none ∧ ((s.tick dt).portMode p ≠ 0 ∨ bad = false)) ∧
    (∃ (dt : Nat) (k : Nat) (p : Port) (bad : Bool) (s : State), (s.tick dt).portsRun = true ∧ ((s.tick dt).port p).beginClk = some k ∧
      k + (s.tick dt).linkFloor p ≤ (s.tick dt).clk ∧ ((s.tick dt).port p).up = false ∧ ((s.tick dt).port p).out = false ∧
      ((s.tick dt).port p).change = none ∧ (s.tick dt).portMode p = 0 ∧ bad = true) ∧
    (∃ (dt : Nat) (s : State), (s.tick dt).portsRun = false) ∧
    (∃ (dt : Nat) (k : Nat) (p : Port) (s : State), (s.tick dt).portsRun = true ∧ ((s.tick dt).port p).beginClk = some k ∧
      (s.tick dt).clk < k + (s.tick dt).linkFloor p) ∧
    (∃ (dt : Nat) (p : Port) (s : State), (s.tick dt).portsRun = true ∧ ((s.tick dt).port p).up = true ∧
      ((s.tick dt).port p).change = none) ∧
    (∃ (dt : Nat) (p : Port) (s : State) (c : SpeedChange), ((s.tick dt).port p).change = some c ∧ c.start + 250000 ≤ (s.tick dt).clk ∧
      c.returning = false ∧ c.start + 250000 * (s.tick dt).stepTimeoutMs ≤ (s.tick dt).clk) ∧
    (∃ (dt : Nat) (p : Port) (s : State) (c : SpeedChange), ((s.tick dt).port p).change = some c ∧ c.start + 250000 ≤ (s.tick dt).clk) ∧
    (∃ (dt : Nat) (p : Port) (s : State) (c : SpeedChange), ((s.tick dt).port p).change = some c ∧ c.start + 250000 ≤ (s.tick dt).clk ∧
      c.returning = true) :=
  ⟨⟨0, 1247250000, .p0, false, downLinked, by decide +kernel⟩,
   ⟨0, 1247250000, .p0, true, downLinked, by decide +kernel⟩,
   ⟨0, 1247250000, .p0, true, downAuto, by decide +kernel⟩,
   ⟨0, held .secError, by decide +kernel⟩,
   ⟨0, 1250000000, .p0, downLate, by decide +kernel⟩,
   ⟨0, .p0, linked, by decide +kernel⟩,
   ⟨0, .p0, changing false 0, { source := 0, target := 1, start := 0, returning := false }, by decide +kernel⟩,
   ⟨0, .p0, changing false 1249750000, { source := 0, target := 1, start := 1249750000, returning := false }, by decide +kernel⟩,
   ⟨0, .p0, changing true 0, { source := 0, target := 1, start := 0, returning := true }, by decide +kernel⟩⟩

theorem witness_BackhaulSending :
    (∃ (dt : Nat) (s : State) (g : Msg) (k : Packet) (rest : List Packet) (ev : List (BitVec 32)) (m : Mbox), (s.tick dt).portsRun = true ∧
      (s.tick dt).back.supClk + 500000000 ≤ (s.tick dt).clk ∧ (s.tick dt).egressReady = true ∧ (s.tick dt).expireEgress = s.tick dt ∧
      (s.tick dt).delayReqPort = none ∧ (s.tick dt).msgHead = some (396 + m.val) ∧
      (s.tick dt).order (orderKey (396 + ↑m) 0) = k :: rest ∧ k.content = Content.message g ev ∧
      ((s.tick dt).portsRun = false ∨ (s.tick dt).back.sends = [])) ∧
    (∃ (dt : Nat) (s : State), ((s.tick dt).portsRun = false ∨ (s.tick dt).egressReady = false) ∧
      ((s.tick dt).portsRun = false ∨ (s.tick dt).clk < (s.tick dt).back.supClk + 500000000) ∧
      ((s.tick dt).portsRun = false ∨ (s.tick dt).back.sends = [])) ∧
    (∃ (dt : Nat) (s : State) (g : Msg) (ev : List (BitVec 32)) (m : Mbox) (more : List (Nat × Msg × List (BitVec 32))), (s.tick dt).portsRun = true ∧
      (s.tick dt).back.supClk + 500000000 ≤ (s.tick dt).clk ∧ (s.tick dt).back.sends = (↑m, g, ev) :: more ∧ 64 ≤ (s.tick dt).mtu) ∧
    (∃ (dt : Nat) (s : State) (g : Msg) (ev : List (BitVec 32)) (m : Mbox) (more : List (Nat × Msg × List (BitVec 32))), (s.tick dt).portsRun = true ∧
      (s.tick dt).back.supClk + 500000000 ≤ (s.tick dt).clk ∧ (s.tick dt).back.sends = (↑m, g, ev) :: more ∧ 64 ≤ (s.tick dt).mtu ∧
      (s.tick dt).grant (accountOf (396 + ↑m) 0) (List.foldl (fun x1 x2 => x1 + x2) 0 (List.map (fun o => cellsOf ((s.tick dt).msgFrame (↑m) (List.length o + 8))) (chunks (segmentOctets (s.tick dt).mtu 8) (ceilDiv (List.length g.octets) (segmentOctets (s.tick dt).mtu 8)) g.octets))) = none) ∧
    (∃ (dt : Nat) (s : State) (p : Port), (s.tick dt).portsRun = true ∧ (s.tick dt).back.supClk + 500000000 ≤ (s.tick dt).clk ∧
      (s.tick dt).egressReady = true ∧ (s.tick dt).expireEgress = s.tick dt ∧ (s.tick dt).delayReqPort = some p ∧
      ((s.tick dt).portsRun = false ∨ (s.tick dt).back.sends = [])) ∧
    (∃ (dt : Nat) (s : State), ((s.tick dt).portsRun = false ∨ (s.tick dt).clk < (s.tick dt).back.supClk + 500000000) ∧
      ((s.tick dt).portsRun = false ∨ (s.tick dt).back.sends = [])) ∧
    (∃ (dt : Nat) (s : State), ((s.tick dt).portsRun = false ∨ (s.tick dt).egressReady = false) ∧
      ((s.tick dt).portsRun = false ∨ (s.tick dt).clk < (s.tick dt).back.supClk + 500000000) ∧
      ((s.tick dt).portsRun = false ∨ (s.tick dt).back.sends = [])) :=
  ⟨⟨0, outgoing, aMsg, letter1, [], [1], 1, by decide +kernel⟩,
   ⟨0, up, by decide +kernel⟩,
   ⟨0, cutting, aMsg, [1], 1, [], by decide +kernel⟩,
   ⟨0, cuttingFull, aMsg, [1], 1, [], by decide +kernel⟩,
   ⟨0, delayDue, .p0, by decide +kernel⟩,
   ⟨0, supNot, by decide +kernel⟩,
   ⟨0, held .secError, by decide +kernel⟩⟩

theorem witness_MasterCounter :
    (∃ (t : Time), t.ns.toNat < 1000000000) ∧
    (∃ (dt : Nat) (s : State) (ns : BitVec 3) (frac : BitVec 32), ((s.tick dt).servoRuns = false ∨ (s.tick dt).time.disc = Discipline.holdover ∨ (s.tick dt).slewOk ns frac = false)) ∧
    (∃ (dt : Nat) (s : State) (ns : BitVec 3) (frac : BitVec 32), ((s.tick dt).servoRuns = false ∨ (s.tick dt).time.disc = Discipline.holdover ∨ (s.tick dt).slewOk ns frac = false)) ∧
    (∃ (dt : Nat) (s : State) (ns : BitVec 3) (frac : BitVec 32), (s.tick dt).servoRuns = true ∧
      (s.tick dt).time.disc ≠ Discipline.holdover ∧ (s.tick dt).slewOk ns frac = true ∧
      (¬(39992 * 4294967296 ≤ (ns.toNat * 4294967296 + frac.toNat) * 10000 ∧
      (ns.toNat * 4294967296 + frac.toNat) * 10000 ≤ 40008 * 4294967296))) ∧
    (∃ (dt : Nat) (s : State) (ns : BitVec 3) (frac : BitVec 32), (s.tick dt).servoRuns = true ∧
      (s.tick dt).time.disc ≠ Discipline.holdover ∧ (s.tick dt).slewOk ns frac = true ∧
      (¬(39992 * 4294967296 ≤ (ns.toNat * 4294967296 + frac.toNat) * 10000 ∧
      (ns.toNat * 4294967296 + frac.toNat) * 10000 ≤ 40008 * 4294967296))) ∧
    (∃ (dt : Nat) (s : State) (ns : BitVec 3) (frac : BitVec 32), (s.tick dt).servoRuns = true ∧
      (s.tick dt).time.disc ≠ Discipline.holdover ∧ (s.tick dt).slewOk ns frac = true ∧
      39992 * 4294967296 ≤ (ns.toNat * 4294967296 + frac.toNat) * 10000 ∧
      (ns.toNat * 4294967296 + frac.toNat) * 10000 ≤ 40008 * 4294967296) ∧
    (∃ (dt : Nat) (s : State) (ns : BitVec 3) (frac : BitVec 32), (s.tick dt).servoRuns = true ∧
      (s.tick dt).time.disc ≠ Discipline.holdover ∧ (s.tick dt).slewOk ns frac = true ∧
      39992 * 4294967296 ≤ (ns.toNat * 4294967296 + frac.toNat) * 10000 ∧
      (ns.toNat * 4294967296 + frac.toNat) * 10000 ≤ 40008 * 4294967296) :=
  ⟨⟨{ ns := 999999996, frac := 7, incFrac := 0xFFFFFFFF }, by decide +kernel⟩,
   ⟨0, up, 3, 4291531304, by decide +kernel⟩,
   ⟨0, up, 3, 4291531303, by decide +kernel⟩,
   ⟨0, wideSlew, 3, 4291531304, by decide +kernel⟩,
   ⟨0, wideSlew, 3, 4291531303, by decide +kernel⟩,
   ⟨0, wideSlew, 4, 3435973, by decide +kernel⟩,
   ⟨0, up, 4, 0, by decide +kernel⟩⟩

theorem witness_DisciplineAndSteps :
    (∃ (dt : Nat) (s : State) (p : PendStep) (l : List (Island × ℤ)), (s.tick dt).time.pendStep = some p ∧ p.atClk ≤ (s.tick dt).clk ∧
      0 ≤ ↑(s.tick dt).netNs + p.delta ∧ ↑(s.tick dt).netNs + p.delta < 2 ^ 64 * 1000000000 ∧ (∀ c ∈ l, c.2.natAbs ≤ 16)) ∧
    (∃ (dt : Nat) (s : State) (p : PendStep) (l : List (Island × ℤ)), (s.tick dt).time.pendStep = some p ∧ p.atClk ≤ (s.tick dt).clk ∧
      0 ≤ ↑(s.tick dt).netNs + p.delta ∧ ↑(s.tick dt).netNs + p.delta < 2 ^ 64 * 1000000000 ∧ (∀ c ∈ l, c.2.natAbs ≤ 16)) ∧
    (∃ (dt : Nat) (s : State) (p : PendStep) (l : List (Island × ℤ)), (s.tick dt).time.pendStep = some p ∧ (s.tick dt).clk < p.atClk ∧
      (∀ c ∈ l, c.2.natAbs ≤ 16)) ∧
    (∃ (dt : Nat) (s : State) (l : List (Island × ℤ)), (s.tick dt).time.disc = Discipline.holdover ∧ (∀ c ∈ l, c.2.natAbs ≤ 16)) ∧
    (∃ (dt : Nat) (s : State) (p : Port) (o : ℤ) (m : PtpMaster), (s.tick dt).servoRuns = true ∧ (s.tick dt).servoPort = some p ∧
      (s.tick dt).usable p = true ∧ ((s.tick dt).port p).ptp.offset (s.tick dt).asymNs = some o ∧
      ((s.tick dt).port p).ptp.master = some m ∧ (s.tick dt).time.disc = Discipline.free ∧ 15 ≤ (s.tick dt).time.goodRun ∧
      o.natAbs ≤ (s.tick dt).lockNs ∧ (s.tick dt).time.disc ≠ Discipline.locked ∧
      ((↑(s.tick dt).netNs - (s.tick dt).ppsComp - (↑(s.tick dt).netNs - (s.tick dt).ppsComp) % 4).toNat % 1000000000 ≤ 100000000 ∨ 900000000 ≤ (↑(s.tick dt).netNs - (s.tick dt).ppsComp - (↑(s.tick dt).netNs - (s.tick dt).ppsComp) % 4).toNat % 1000000000)) ∧
    (∃ (dt : Nat) (s : State) (p : Port) (o : ℤ) (m : PtpMaster), (s.tick dt).servoRuns = true ∧ (s.tick dt).servoPort = some p ∧
      (s.tick dt).usable p = true ∧ ((s.tick dt).port p).ptp.offset (s.tick dt).asymNs = some o ∧
      ((s.tick dt).port p).ptp.master = some m ∧ (s.tick dt).time.bigRun = 3 ∧
      (s.tick dt).stepThreshold ≤ ((s.tick dt).phased o).natAbs ∧ (s.tick dt).time.disc ≠ Discipline.locked ∧
      ((↑(s.tick dt).netNs - (s.tick dt).ppsComp - (↑(s.tick dt).netNs - (s.tick dt).ppsComp) % 4).toNat % 1000000000 ≤ 100000000 ∨ 900000000 ≤ (↑(s.tick dt).netNs - (s.tick dt).ppsComp - (↑(s.tick dt).netNs - (s.tick dt).ppsComp) % 4).toNat % 1000000000)) ∧
    (∃ (dt : Nat) (s : State), (s.tick dt).servoRuns = true ∧ (s.tick dt).time.disc = Discipline.locked ∧
      (s.tick dt).time.lastMeas + 250000 * (s.tick dt).masterLossMs ≤ (s.tick dt).clk ∧
      ((↑(s.tick dt).netNs - (s.tick dt).ppsComp - (↑(s.tick dt).netNs - (s.tick dt).ppsComp) % 4).toNat % 1000000000 ≤ 100000000 ∨ 900000000 ≤ (↑(s.tick dt).netNs - (s.tick dt).ppsComp - (↑(s.tick dt).netNs - (s.tick dt).ppsComp) % 4).toNat % 1000000000)) ∧
    (∃ (dt : Nat) (s : State) (p : Port) (o : ℤ) (m : PtpMaster), (s.tick dt).servoRuns = true ∧ (s.tick dt).servoPort = some p ∧
      (s.tick dt).usable p = true ∧ ((s.tick dt).port p).ptp.offset (s.tick dt).asymNs = some o ∧
      ((s.tick dt).port p).ptp.master = some m ∧ (s.tick dt).time.disc = Discipline.holdover ∧ (s.tick dt).time.bigRun ≠ 3 ∧
      (s.tick dt).time.disc ≠ Discipline.locked ∧ (s.tick dt).time.degraded = false ∧
      (s.tick dt).time.holdClk + 900000000000 * (s.tick dt).degradedAfterH ≤ (s.tick dt).clk ∧
      ((↑(s.tick dt).netNs - (s.tick dt).ppsComp - (↑(s.tick dt).netNs - (s.tick dt).ppsComp) % 4).toNat % 1000000000 ≤ 100000000 ∨ 900000000 ≤ (↑(s.tick dt).netNs - (s.tick dt).ppsComp - (↑(s.tick dt).netNs - (s.tick dt).ppsComp) % 4).toNat % 1000000000)) ∧
    (∃ (dt : Nat) (s : State) (p : Port) (o : ℤ) (m : PtpMaster), (s.tick dt).servoRuns = true ∧ (s.tick dt).servoPort = some p ∧
      (s.tick dt).usable p = true ∧ ((s.tick dt).port p).ptp.offset (s.tick dt).asymNs = some o ∧
      ((s.tick dt).port p).ptp.master = some m ∧ (s.tick dt).time.disc = Discipline.holdover ∧ (s.tick dt).time.bigRun ≠ 3 ∧
      (s.tick dt).time.disc ≠ Discipline.locked ∧ (s.tick dt).time.degraded = true ∧
      ((↑(s.tick dt).netNs - (s.tick dt).ppsComp - (↑(s.tick dt).netNs - (s.tick dt).ppsComp) % 4).toNat % 1000000000 ≤ 100000000 ∨ 900000000 ≤ (↑(s.tick dt).netNs - (s.tick dt).ppsComp - (↑(s.tick dt).netNs - (s.tick dt).ppsComp) % 4).toNat % 1000000000)) ∧
    (∃ (dt : Nat) (s : State) (p : Port), ((s.tick dt).servoRuns = false ∨ (s.tick dt).servoPort ≠ some p ∨ (s.tick dt).usable p = false ∨ ((s.tick dt).port p).ptp.offset (s.tick dt).asymNs = none ∨ ((s.tick dt).port p).ptp.master = none) ∧
      (s.tick dt).time.disc ≠ Discipline.locked ∧
      100000000 < (↑(s.tick dt).netNs - (s.tick dt).ppsComp - (↑(s.tick dt).netNs - (s.tick dt).ppsComp) % 4).toNat % 1000000000 ∧
      (↑(s.tick dt).netNs - (s.tick dt).ppsComp - (↑(s.tick dt).netNs - (s.tick dt).ppsComp) % 4).toNat % 1000000000 < 900000000) ∧
    (∃ (dt : Nat) (s : State) (p : Port) (o : ℤ) (m : PtpMaster), (s.tick dt).servoRuns = true ∧ (s.tick dt).servoPort = some p ∧
      (s.tick dt).usable p = true ∧ ((s.tick dt).port p).ptp.offset (s.tick dt).asymNs = some o ∧
      ((s.tick dt).port p).ptp.master = some m ∧ (s.tick dt).time.disc = Discipline.holdover ∧ (s.tick dt).time.bigRun ≠ 3 ∧
      (s.tick dt).time.disc ≠ Discipline.locked ∧
      ((↑(s.tick dt).netNs - (s.tick dt).ppsComp - (↑(s.tick dt).netNs - (s.tick dt).ppsComp) % 4).toNat % 1000000000 ≤ 100000000 ∨ 900000000 ≤ (↑(s.tick dt).netNs - (s.tick dt).ppsComp - (↑(s.tick dt).netNs - (s.tick dt).ppsComp) % 4).toNat % 1000000000)) ∧
    (∃ (dt : Nat) (s : State) (p : Port), ((s.tick dt).servoRuns = false ∨ (s.tick dt).servoPort ≠ some p ∨ (s.tick dt).usable p = false ∨ ((s.tick dt).port p).ptp.offset (s.tick dt).asymNs = none ∨ ((s.tick dt).port p).ptp.master = none) ∧
      (s.tick dt).time.disc ≠ Discipline.locked ∧
      ((↑(s.tick dt).netNs - (s.tick dt).ppsComp - (↑(s.tick dt).netNs - (s.tick dt).ppsComp) % 4).toNat % 1000000000 ≤ 100000000 ∨ 900000000 ≤ (↑(s.tick dt).netNs - (s.tick dt).ppsComp - (↑(s.tick dt).netNs - (s.tick dt).ppsComp) % 4).toNat % 1000000000)) :=
  ⟨⟨0, stepping 7 1024, { delta := 7, atClk := 1024 }, [(.core, 16), (.sec, -16)], by decide +kernel⟩,
   ⟨0, stepping (-100000000000) 1024, { delta := -100000000000, atClk := 1024 }, [], by decide +kernel⟩,
   ⟨0, stepping 7 1025, { delta := 7, atClk := 1025 }, [], by decide +kernel⟩,
   ⟨0, holding, [], by decide +kernel⟩,
   ⟨0, exchanged locking 1000, .p0, 1000, aPtp, by decide +kernel⟩,
   ⟨0, exchanged locking (-100000000000), .p0, (-100000000000), aPtp, by decide +kernel⟩,
   ⟨0, exchanged lost 0, by decide +kernel⟩,
   ⟨0, exchanged holdingLong 0, .p0, 0, aPtp, by decide +kernel⟩,
   ⟨0, exchanged degradedLong 0, .p0, 0, aPtp, by decide +kernel⟩,
   ⟨0, exchanged midSecond 0, .p0, by decide +kernel⟩,
   ⟨0, exchanged holding 5, .p0, 5, aPtp, by decide +kernel⟩,
   ⟨0, up, .p0, by decide +kernel⟩⟩

theorem witness_RtcCounts :
    (∃ (dt : Nat) (s : State), (s.tick dt).rtc.stopped = false ∧ (s.tick dt).time.disc ≠ Discipline.locked ∧
      ((s.tick dt).servoRuns = false ∨ (s.tick dt).wallDerivable = false ∨ (s.tick dt).rtc.windowNet = none ∨ (s.tick dt).rtc.sinceAdj < 1024 ∨ (s.tick dt).rtc.stopped = true)) ∧
    (∃ (dt : Nat) (s : State) (m : Master), (s.tick dt).rtc.stopped = false ∧ (s.tick dt).rtc.leapHeld = false ∧
      ((s.tick dt).rtc.sec.toNat + 1) % 86400 = 0 ∧ (s.tick dt).time.disc = Discipline.locked ∧ bitOf (s.tick dt).timeFlags 2 = true ∧
      (s.tick dt).time.master = some m ∧ m.ptpTimescale = true ∧ m.leap61 = true ∧
      ((s.tick dt).servoRuns = false ∨ (s.tick dt).wallDerivable = false ∨ (s.tick dt).rtc.windowNet = none ∨ (s.tick dt).rtc.sinceAdj < 1024 ∨ (s.tick dt).rtc.stopped = true)) ∧
    (∃ (dt : Nat) (s : State) (m : Master), (s.tick dt).rtc.stopped = false ∧ (s.tick dt).rtc.leapHeld = false ∧
      ((s.tick dt).rtc.sec.toNat + 1) % 86400 = 0 ∧ (s.tick dt).time.disc = Discipline.locked ∧ bitOf (s.tick dt).timeFlags 2 = true ∧
      (s.tick dt).time.master = some m ∧ m.ptpTimescale = true ∧ m.leap61 = false ∧ m.leap59 = true ∧ 0 < (s.tick dt).utcOffset ∧
      ((s.tick dt).servoRuns = false ∨ (s.tick dt).wallDerivable = false ∨ (s.tick dt).rtc.windowNet = none ∨ (s.tick dt).rtc.sinceAdj < 1024 ∨ (s.tick dt).rtc.stopped = true)) ∧
    (∃ (dt : Nat) (s : State), ((s.tick dt).servoRuns = false ∨ (s.tick dt).wallDerivable = false ∨ (s.tick dt).rtc.windowNet = none ∨ (s.tick dt).rtc.sinceAdj < 1024 ∨ (s.tick dt).rtc.stopped = true) ∧
      (s.tick dt).rtc.stopped = false) ∧
    (∃ (dt : Nat) (s : State), (s.tick dt).rtc.stopped = true ∧
      ((s.tick dt).servoRuns = false ∨ (s.tick dt).wallDerivable = false ∨ (s.tick dt).rtc.windowNet = none ∨ (s.tick dt).rtc.sinceAdj < 1024 ∨ (s.tick dt).rtc.stopped = true) ∧
      (s.tick dt).rtc.frozen ≤ 32767) ∧
    (∃ (dt : Nat) (s : State) (began : ℤ), (s.tick dt).servoRuns = true ∧ (s.tick dt).wallDerivable = true ∧
      (s.tick dt).rtc.windowNet = some began ∧ 1024 ≤ (s.tick dt).rtc.sinceAdj ∧ (s.tick dt).rtc.stopped = false) :=
  ⟨⟨0, untrusted, by decide +kernel⟩,
   ⟨0, dayEnd true false, aMaster true false, by decide +kernel⟩,
   ⟨0, dayEnd false true, aMaster false true, by decide +kernel⟩,
   ⟨0, adjustable, by decide +kernel⟩,
   ⟨0, stoppedRtc, by decide +kernel⟩,
   ⟨0, windowed, 100000000000, by decide +kernel⟩⟩

theorem witness_LaneHuntAndHeader :
    (∃ (dt : Nat) (l : Lane) (s : State) (f : Fe) (k : Nat) (p : Preamble) (n : Nat) (ca : Nat) (cb : Nat), (s.tick dt).laneOn ↑l = some (f, k) ∧
      (s.tick dt).hears f = true ∧ leastPreamble p ≤ n ∧ ((s.tick dt).portHears f 0 = true ∧
      (s.tick dt).detectThr < ca ∨ (s.tick dt).portHears f 1 = true ∧ (s.tick dt).detectThr < cb) ∧
      ((s.tick dt).hunts f p false = true ∨ (s.tick dt).hunts f p true = true) ∧ ((s.tick dt).laneNow ↑l).phase = LanePhase.hunt) ∧
    (∃ (dt : Nat) (l : Lane) (s : State) (f : Fe) (k : Nat) (p : Preamble) (n : Nat), (s.tick dt).laneOn ↑l = some (f, k) ∧
      (n < leastPreamble p ∨ (s.tick dt).hears f = false)) ∧
    (∃ (dt : Nat) (l : Lane) (s : State) (f : Fe) (k : Nat) (d : Nat) (p : Preamble) (n : Nat) (ca : Nat) (cb : Nat) (lv : Nat) (l0 : Nat), (s.tick dt).laneOn ↑l = some (f, k) ∧
      (s.tick dt).hears f = true ∧ leastPreamble p ≤ n ∧ ((s.tick dt).portHears f 0 = true ∧
      (s.tick dt).detectThr < ca ∨ (s.tick dt).portHears f 1 = true ∧ (s.tick dt).detectThr < cb) ∧
      ((s.tick dt).hunts f p false = true ∨ (s.tick dt).hunts f p true = true) ∧
      ((s.tick dt).laneNow ↑l).phase = LanePhase.detect p l0 d ∧ (s.tick dt).captureDb ≠ 0 ∧ l0 + (s.tick dt).captureDb ≤ lv) ∧
    (∃ (dt : Nat) (l : Lane) (s : State) (f : Fe) (k : Nat) (d : Nat) (p : Preamble) (lv : Nat), (s.tick dt).laneOn ↑l = some (f, k) ∧
      ((s.tick dt).laneNow ↑l).phase = LanePhase.detect p lv d ∧ (s.tick dt).clk < (s.tick dt).searchEnd f p d) ∧
    (∃ (dt : Nat) (l : Lane) (s : State) (f : Fe) (k : Nat) (d : Nat) (p : Preamble) (lv : Nat) (word : BitVec 32) (sync : Bool) (off : ℤ), (s.tick dt).laneOn ↑l = some (f, k) ∧
      ((s.tick dt).laneNow ↑l).phase = LanePhase.detect p lv d ∧ (s.tick dt).clk < (s.tick dt).searchEnd f p d ∧
      (s.tick dt).hears f = true ∧ (s.tick dt).delimiter f p word = some sync ∧ (s.tick dt).hunts f p sync = true ∧
      pullsIn ((s.tick dt).freqOf f k) off = true ∧ (s.tick dt).clk ≤ (s.tick dt).searchEnd f p d) ∧
    (∃ (dt : Nat) (l : Lane) (s : State) (f : Fe) (k : Nat) (d : Nat) (p : Preamble) (lv : Nat) (word : BitVec 32) (sync : Bool) (off : ℤ), (s.tick dt).laneOn ↑l = some (f, k) ∧
      ((s.tick dt).laneNow ↑l).phase = LanePhase.detect p lv d ∧ (s.tick dt).clk < (s.tick dt).searchEnd f p d ∧
      (s.tick dt).hears f = true ∧ (s.tick dt).delimiter f p word = some sync ∧ (s.tick dt).hunts f p sync = true ∧
      pullsIn ((s.tick dt).freqOf f k) off = true ∧ (s.tick dt).clk ≤ (s.tick dt).searchEnd f p d) ∧
    (∃ (dt : Nat) (l : Lane) (s : State) (f : Fe) (k : Nat) (d : Nat) (p : Preamble) (lv : Nat) (word : BitVec 32), (s.tick dt).laneOn ↑l = some (f, k) ∧
      ((s.tick dt).laneNow ↑l).phase = LanePhase.detect p lv d ∧ (s.tick dt).searchEnd f p d ≤ (s.tick dt).clk ∧
      (s.tick dt).delimiter f p word = none) ∧
    (∃ (dt : Nat) (l : Lane) (s : State) (f : Fe) (k : Nat) (d : Nat) (p : Preamble) (n : Nat) (lv : Nat) (word : BitVec 32), (s.tick dt).laneOn ↑l = some (f, k) ∧
      (n < leastPreamble p ∨ (s.tick dt).hears f = false) ∧ ((s.tick dt).laneNow ↑l).phase = LanePhase.detect p lv d ∧
      (s.tick dt).clk < (s.tick dt).searchEnd f p d ∧ (s.tick dt).delimiter f p word = none) ∧
    (∃ (dt : Nat) (l : Lane) (s : State) (f : Fe) (k : Nat) (i : RxInfo) (hdr : PhyHeader), (s.tick dt).laneOn ↑l = some (f, k) ∧
      ((s.tick dt).laneNow ↑l).phase = LanePhase.header i ∧ (s.tick dt).checkHeader f i hdr = some (HdrResult.reject .rxLenShort)) ∧
    (∃ (dt : Nat) (l : Lane) (s : State) (v : State) (f : Fe) (k : Nat) (i : RxInfo) (hdr : PhyHeader), (s.tick dt).laneOn ↑l = some (f, k) ∧
      ((s.tick dt).laneNow ↑l).phase = LanePhase.header i ∧
      (s.tick dt).checkHeader f i hdr = some (HdrResult.frame 3 0 false false true false 5) ∧ (3 < 4 ∨ (s.tick dt).noDecoder = false) ∧
      (s.tick dt).grant (rxAcct (feCode f)) (cellsOf (16 + 5)) = some v ∧
      (∀ (o : Nat), (s.tick dt).blankSoon f = some o → (s.tick dt).netNs + afterSfd { mode := 3, rate := 0, cwlen := false, pilots := false, preamble := 0, hsUnits := 0, onH := decide (f = Fe.h) } 5 * 1000 - ((s.tick dt).clk - i.sfdClk) * 4 ≤ o)) ∧
    (∃ (dt : Nat) (l : Lane) (s : State) (f : Fe) (k : Nat) (i : RxInfo) (hdr : PhyHeader), (s.tick dt).laneOn ↑l = some (f, k) ∧
      ((s.tick dt).laneNow ↑l).phase = LanePhase.header i ∧
      (s.tick dt).checkHeader f i hdr = some (HdrResult.frame 3 0 false false true false 5) ∧ (3 < 4 ∨ (s.tick dt).noDecoder = false) ∧
      (s.tick dt).grant (rxAcct (feCode f)) (cellsOf (16 + 5)) = none) ∧
    (∃ (dt : Nat) (l : Lane) (s : State) (v : State) (f : Fe) (k : Nat) (i : RxInfo) (hdr : PhyHeader), (s.tick dt).laneOn ↑l = some (f, k) ∧
      ((s.tick dt).laneNow ↑l).phase = LanePhase.header i ∧
      (s.tick dt).checkHeader f i hdr = some (HdrResult.frame 3 0 false false true false 5) ∧ (3 < 4 ∨ (s.tick dt).noDecoder = false) ∧
      (s.tick dt).grant (rxAcct (feCode f)) (cellsOf (16 + 5)) = some v ∧ (s.tick dt).blankSoon f = some 100000086000 ∧
      100000086000 < (s.tick dt).netNs + afterSfd { mode := 3, rate := 0, cwlen := false, pilots := false, preamble := 0, hsUnits := 0, onH := decide (f = Fe.h) } 5 * 1000 - ((s.tick dt).clk - i.sfdClk) * 4) ∧
    (∃ (dt : Nat) (l : Lane) (s : State) (f : Fe) (k : Nat) (i : RxInfo) (hdr : PhyHeader), (s.tick dt).laneOn ↑l = some (f, k) ∧
      ((s.tick dt).laneNow ↑l).phase = LanePhase.header i ∧
      (s.tick dt).checkHeader f i hdr = some (HdrResult.frame 4 0 false false false false 40) ∧ 4 ≤ 4 ∧ (s.tick dt).noDecoder = true) :=
  ⟨⟨0, 0, onLane .hunt, .sa, 3, .fskInner, 255, 255, 0, by decide +kernel⟩,
   ⟨0, 0, onLane .hunt, .sa, 3, .fskInner, 31, by decide +kernel⟩,
   ⟨0, 0, onLane (.detect .fskInner 9 1024), .sa, 3, 1024, .fskInner, 255, 255, 0, 15, 9, by decide +kernel⟩,
   ⟨0, 0, onLane (.detect .fskInner 9 1024), .sa, 3, 1024, .fskInner, 9, by decide +kernel⟩,
   ⟨0, 0, onLane (.detect .fskInner 9 1024), .sa, 3, 1024, .fskInner, 9, 0x904E, false, 0, by decide +kernel⟩,
   ⟨0, 0, onLane (.detect .fskInner 9 1024), .sa, 3, 1024, .fskInner, 9, 0x904E, false, 0, by decide +kernel⟩,
   ⟨0, 0, { onLane (.detect .fskInner 9 1024) with clk := 1024 + (onLane .hunt).sfdTimeoutSym * searchUnit .sa .fskInner }, .sa, 3, 1024, .fskInner, 9, 0,
     by decide +kernel⟩,
   ⟨0, 0, deaf, .sa, 3, 1024, .fskInner, 255, 9, 0, by decide +kernel⟩,
   ⟨0, 0, atHeader, .sa, 3, rxInfoO, (.oqpsk 4), by decide +kernel⟩,
   ⟨0, 0, atHeader, headerCells, .sa, 3, rxInfoO, (.oqpsk 5), by decide +kernel, by decide +kernel, by decide +kernel, by decide +kernel,
     by decide +kernel, (by intro o h; exact absurd (h.symm.trans (by decide +kernel : (atHeader.tick 0).blankSoon .sa = none)) (by simp))⟩,
   ⟨0, 0, headerFull, .sa, 3, rxInfoO, (.oqpsk 5), by decide +kernel⟩,
   ⟨0, 0, blankingSoon, blankingCells, .sa, 3, rxInfoO, (.oqpsk 5), by decide +kernel⟩,
   ⟨0, 0, helecNoDec, .sa, 3, rxInfo, helecHdr, by decide +kernel⟩⟩

theorem witness_CodewordsAndFrames :
    (∃ (dt : Nat) (l : Lane) (s : State) (i : RxInfo) (h : RxHdr) (rest : List (RxInfo × RxHdr)) (core : Fin 4) (pan : Option (BitVec 16)) (dst : Addr), ((s.tick dt).laneNow ↑l).frames = [(i, h)] ∧
      h.received < h.codewords ∧ (s.tick dt).dec.busy.get ↑core = none ∧ ((s.tick dt).laneNow ↑l).frames = (i, h) :: rest ∧
      ((s.tick dt).netNs < h.endNs ∨ h.decoded < h.codewords) ∧
      (((s.tick dt).lane ↑l).ackOwed = false ∨ (s.tick dt).ownDest pan dst = true)) ∧
    (∃ (dt : Nat) (l : Lane) (s : State) (i : RxInfo) (h : RxHdr) (rest : List (RxInfo × RxHdr)) (pan : Option (BitVec 16)) (dst : Addr), ((s.tick dt).laneNow ↑l).frames = [(i, h)] ∧
      h.received < h.codewords ∧ ((s.tick dt).laneNow ↑l).frames = (i, h) :: rest ∧
      ((s.tick dt).netNs < h.endNs ∨ h.decoded < h.codewords) ∧
      (((s.tick dt).lane ↑l).ackOwed = false ∨ (s.tick dt).ownDest pan dst = true)) ∧
    (∃ (dt : Nat) (l : Lane) (s : State) (core : Fin 4) (pan : Option (BitVec 16)) (dst : Addr), (s.tick dt).dec.busy.get ↑core = none ∧
      (((s.tick dt).lane ↑l).ackOwed = false ∨ (s.tick dt).ownDest pan dst = true)) ∧
    (∃ (dt : Nat) (l : Lane) (s : State) (fe : Fe) (i : RxInfo) (h : RxHdr) (rest : List (RxInfo × RxHdr)) (core : Fin 4) (f : AirFrame) (fc : FrameCtl) (pan : Option (BitVec 16)) (dst : Addr), (∀ p ∈ ((s.tick dt).laneNow ↑l).frames, p.2.codewords ≤ p.2.received) ∧
      (s.tick dt).dec.busy.get ↑core = none ∧ ((s.tick dt).laneNow ↑l).frames = (i, h) :: rest ∧ feOf i.fe = some fe ∧
      h.endNs ≤ (s.tick dt).netNs ∧ h.codewords ≤ h.decoded ∧ ((s.tick dt).feSt fe).ackWait = none ∧
      (h.ldpcBad = true ∨ List.length ({ f with psdu := rxPsdu h f } : AirFrame).psdu ≠ h.length ∨ fcsGood h.fcs2 ({ f with psdu := rxPsdu h f } : AirFrame).psdu = false) ∧
      ((s.tick dt).lane ↑l).frames.getLast? = some (i, h) ∧ fc.ar = true ∧ fc.version = 2 ∧ (fc.ftype = 1 ∨ fc.ftype = 3) ∧
      (h.mode < 4 ∨ 1 ≤ h.decoded ∧ h.ldpcBad = false) ∧ ((s.tick dt).feSt fe).rfTest = none ∧
      (((s.tick dt).lane ↑l).ackOwed = false ∨ (s.tick dt).ownDest pan dst = true)) ∧
    (∃ (dt : Nat) (l : Lane) (s : State) (i : RxInfo) (h : RxHdr) (rest : List (RxInfo × RxHdr)) (core : Fin 4) (w : ReadyCw) (pan : Option (BitVec 16)) (dst : Addr), ((s.tick dt).laneNow ↑l).frames = [(i, h)] ∧
      h.received < h.codewords ∧ (s.tick dt).dec.busy.get ↑core = some w ∧ w.lane = ↑l ∧ h.decoded < h.received ∧
      ((s.tick dt).laneNow ↑l).frames = (i, h) :: rest ∧ ((s.tick dt).netNs < h.endNs ∨ h.decoded < h.codewords) ∧
      (((s.tick dt).lane ↑l).ackOwed = false ∨ (s.tick dt).ownDest pan dst = true)) ∧
    (∃ (dt : Nat) (l : Lane) (s : State) (i : RxInfo) (h : RxHdr) (rest : List (RxInfo × RxHdr)) (core : Fin 4) (w : ReadyCw) (pan : Option (BitVec 16)) (dst : Addr), ((s.tick dt).laneNow ↑l).frames = [(i, h)] ∧
      h.received < h.codewords ∧ (s.tick dt).dec.busy.get ↑core = some w ∧ w.lane = ↑l ∧ h.decoded < h.received ∧
      ((s.tick dt).laneNow ↑l).frames = (i, h) :: rest ∧ ((s.tick dt).netNs < h.endNs ∨ h.decoded < h.codewords) ∧
      (((s.tick dt).lane ↑l).ackOwed = false ∨ (s.tick dt).ownDest pan dst = true)) ∧
    (∃ (dt : Nat) (l : Lane) (s : State) (fe : Fe) (i : RxInfo) (h : RxHdr) (rest : List (RxInfo × RxHdr)) (core : Fin 4) (f : AirFrame) (fc : FrameCtl) (pan : Option (BitVec 16)) (dst : Addr), (∀ p ∈ ((s.tick dt).laneNow ↑l).frames, p.2.codewords ≤ p.2.received) ∧
      (s.tick dt).dec.busy.get ↑core = none ∧ ((s.tick dt).laneNow ↑l).frames = (i, h) :: rest ∧ feOf i.fe = some fe ∧
      h.endNs ≤ (s.tick dt).netNs ∧ h.codewords ≤ h.decoded ∧ ((s.tick dt).feSt fe).ackWait = none ∧
      (h.ldpcBad = true ∨ List.length ({ f with psdu := rxPsdu h f } : AirFrame).psdu ≠ h.length ∨ fcsGood h.fcs2 ({ f with psdu := rxPsdu h f } : AirFrame).psdu = false) ∧
      ((s.tick dt).lane ↑l).frames.getLast? = some (i, h) ∧ fc.ar = true ∧ fc.version = 2 ∧ (fc.ftype = 1 ∨ fc.ftype = 3) ∧
      (h.mode < 4 ∨ 1 ≤ h.decoded ∧ h.ldpcBad = false) ∧ ((s.tick dt).feSt fe).rfTest = none ∧
      (((s.tick dt).lane ↑l).ackOwed = false ∨ (s.tick dt).ownDest pan dst = true)) ∧
    (∃ (dt : Nat) (l : Lane) (s : State) (fe : Fe) (i : RxInfo) (h : RxHdr) (rest : List (RxInfo × RxHdr)) (core : Fin 4) (f : AirFrame) (fc : FrameCtl) (pan : Option (BitVec 16)) (dst : Addr), (∀ p ∈ ((s.tick dt).laneNow ↑l).frames, p.2.codewords ≤ p.2.received) ∧
      (s.tick dt).dec.busy.get ↑core = none ∧ ((s.tick dt).laneNow ↑l).frames = (i, h) :: rest ∧ feOf i.fe = some fe ∧
      h.endNs ≤ (s.tick dt).netNs ∧ h.codewords ≤ h.decoded ∧ ((s.tick dt).feSt fe).ackWait = none ∧ h.ldpcBad = false ∧
      List.length ({ f with psdu := rxPsdu h f } : AirFrame).psdu = h.length ∧
      fcsGood h.fcs2 ({ f with psdu := rxPsdu h f } : AirFrame).psdu = true ∧ ((s.tick dt).feSt fe).rfTest = none ∧ f.version = 2 ∧
      f.ftype ≠ 0 ∧ f.ftype ≠ 2 ∧ (s.tick dt).forUs f = true ∧ (f.ar = false ∨ ((s.tick dt).feSt fe).attempt = none) ∧
      (s.tick dt).dupFind f (fcsValue h.fcs2 ({ f with psdu := rxPsdu h f } : AirFrame).psdu) h.length i.cmpNs = false ∧
      ((s.tick dt).lane ↑l).frames.getLast? = some (i, h) ∧ fc.ar = true ∧ fc.version = 2 ∧ (fc.ftype = 1 ∨ fc.ftype = 3) ∧
      (h.mode < 4 ∨ 1 ≤ h.decoded ∧ h.ldpcBad = false) ∧ (((s.tick dt).lane ↑l).ackOwed = false ∨ (s.tick dt).ownDest pan dst = true)) ∧
    (∃ (dt : Nat) (l : Lane) (s : State) (fe : Fe) (i : RxInfo) (h : RxHdr) (rest : List (RxInfo × RxHdr)) (core : Fin 4) (f : AirFrame) (fc : FrameCtl) (pan : Option (BitVec 16)) (dst : Addr), (∀ p ∈ ((s.tick dt).laneNow ↑l).frames, p.2.codewords ≤ p.2.received) ∧
      (s.tick dt).dec.busy.get ↑core = none ∧ ((s.tick dt).laneNow ↑l).frames = (i, h) :: rest ∧ feOf i.fe = some fe ∧
      h.endNs ≤ (s.tick dt).netNs ∧ h.codewords ≤ h.decoded ∧ ((s.tick dt).feSt fe).ackWait = none ∧ h.ldpcBad = false ∧
      List.length ({ f with psdu := rxPsdu h f } : AirFrame).psdu = h.length ∧
      fcsGood h.fcs2 ({ f with psdu := rxPsdu h f } : AirFrame).psdu = true ∧ ((s.tick dt).feSt fe).rfTest = none ∧ f.version = 2 ∧
      f.ftype ≠ 0 ∧ f.ftype ≠ 2 ∧ (s.tick dt).forUs f = false ∧ ((s.tick dt).lane ↑l).frames.getLast? = some (i, h) ∧ fc.ar = true ∧
      fc.version = 2 ∧ (fc.ftype = 1 ∨ fc.ftype = 3) ∧ (h.mode < 4 ∨ 1 ≤ h.decoded ∧ h.ldpcBad = false) ∧
      (((s.tick dt).lane ↑l).ackOwed = false ∨ (s.tick dt).ownDest pan dst = true)) ∧
    (∃ (dt : Nat) (l : Lane) (s : State) (fe : Fe) (i : RxInfo) (h : RxHdr) (rest : List (RxInfo × RxHdr)) (core : Fin 4) (f : AirFrame) (fc : FrameCtl) (pan : Option (BitVec 16)) (dst : Addr), (∀ p ∈ ((s.tick dt).laneNow ↑l).frames, p.2.codewords ≤ p.2.received) ∧
      (s.tick dt).dec.busy.get ↑core = none ∧ ((s.tick dt).laneNow ↑l).frames = (i, h) :: rest ∧ feOf i.fe = some fe ∧
      h.endNs ≤ (s.tick dt).netNs ∧ h.codewords ≤ h.decoded ∧ ((s.tick dt).feSt fe).ackWait = none ∧ h.ldpcBad = false ∧
      List.length ({ f with psdu := rxPsdu h f } : AirFrame).psdu = h.length ∧
      fcsGood h.fcs2 ({ f with psdu := rxPsdu h f } : AirFrame).psdu = true ∧ ((s.tick dt).feSt fe).rfTest = none ∧ f.version = 2 ∧
      f.ftype ≠ 0 ∧ f.ftype ≠ 2 ∧ (s.tick dt).forUs f = true ∧ (f.ar = false ∨ ((s.tick dt).feSt fe).attempt = none) ∧
      (s.tick dt).dupFind f (fcsValue h.fcs2 ({ f with psdu := rxPsdu h f } : AirFrame).psdu) h.length i.cmpNs = true ∧
      ((s.tick dt).lane ↑l).frames.getLast? = some (i, h) ∧ fc.ar = true ∧ fc.version = 2 ∧ (fc.ftype = 1 ∨ fc.ftype = 3) ∧
      (h.mode < 4 ∨ 1 ≤ h.decoded ∧ h.ldpcBad = false) ∧ (((s.tick dt).lane ↑l).ackOwed = false ∨ (s.tick dt).ownDest pan dst = true)) ∧
    (∃ (dt : Nat) (l : Lane) (s : State) (fe : Fe) (i : RxInfo) (h : RxHdr) (rest : List (RxInfo × RxHdr)) (core : Fin 4) (f : AirFrame) (pan : Option (BitVec 16)) (dst : Addr), (∀ p ∈ ((s.tick dt).laneNow ↑l).frames, p.2.codewords ≤ p.2.received) ∧
      (s.tick dt).dec.busy.get ↑core = none ∧ ((s.tick dt).laneNow ↑l).frames = (i, h) :: rest ∧ feOf i.fe = some fe ∧
      h.endNs ≤ (s.tick dt).netNs ∧ h.codewords ≤ h.decoded ∧ ((s.tick dt).feSt fe).ackWait = none ∧
      (h.ldpcBad = true ∨ List.length ({ f with psdu := rxPsdu h f } : AirFrame).psdu ≠ h.length ∨ fcsGood h.fcs2 ({ f with psdu := rxPsdu h f } : AirFrame).psdu = false) ∧
      (((s.tick dt).lane ↑l).ackOwed = false ∨ (s.tick dt).ownDest pan dst = true)) ∧
    (∃ (dt : Nat) (l : Lane) (s : State) (i : RxInfo) (h : RxHdr) (rest : List (RxInfo × RxHdr)) (core : Fin 4) (pan : Option (BitVec 16)) (dst : Addr), ((s.tick dt).laneNow ↑l).frames = [(i, h)] ∧
      h.received < h.codewords ∧ (s.tick dt).dec.busy.get ↑core = none ∧ ((s.tick dt).laneNow ↑l).frames = (i, h) :: rest ∧
      ((s.tick dt).netNs < h.endNs ∨ h.decoded < h.codewords) ∧
      (((s.tick dt).lane ↑l).ackOwed = false ∨ (s.tick dt).ownDest pan dst = true)) ∧
    (∃ (dt : Nat) (l : Lane) (s : State) (fe : Fe) (i : RxInfo) (h : RxHdr) (rest : List (RxInfo × RxHdr)) (core : Fin 4) (f : AirFrame) (fc : FrameCtl) (pan : Option (BitVec 16)) (dst : Addr), (∀ p ∈ ((s.tick dt).laneNow ↑l).frames, p.2.codewords ≤ p.2.received) ∧
      (s.tick dt).dec.busy.get ↑core = none ∧ ((s.tick dt).laneNow ↑l).frames = (i, h) :: rest ∧ feOf i.fe = some fe ∧
      h.endNs ≤ (s.tick dt).netNs ∧ h.codewords ≤ h.decoded ∧ ((s.tick dt).feSt fe).ackWait = none ∧ h.ldpcBad = false ∧
      List.length ({ f with psdu := rxPsdu h f } : AirFrame).psdu = h.length ∧
      fcsGood h.fcs2 ({ f with psdu := rxPsdu h f } : AirFrame).psdu = true ∧ ((s.tick dt).feSt fe).rfTest = none ∧ f.version = 2 ∧
      f.ftype ≠ 0 ∧ f.ftype ≠ 2 ∧ (s.tick dt).forUs f = true ∧ (f.ar = false ∨ ((s.tick dt).feSt fe).attempt = none) ∧
      (s.tick dt).dupFind f (fcsValue h.fcs2 ({ f with psdu := rxPsdu h f } : AirFrame).psdu) h.length i.cmpNs = false ∧
      ((s.tick dt).lane ↑l).frames.getLast? = some (i, h) ∧ fc.ar = true ∧ fc.version = 2 ∧ (fc.ftype = 1 ∨ fc.ftype = 3) ∧
      (h.mode < 4 ∨ 1 ≤ h.decoded ∧ h.ldpcBad = false) ∧ (((s.tick dt).lane ↑l).ackOwed = false ∨ (s.tick dt).ownDest pan dst = true)) ∧
    (∃ (dt : Nat) (l : Lane) (s : State) (i : RxInfo) (h : RxHdr) (rest : List (RxInfo × RxHdr)) (core : Fin 4) (pan : Option (BitVec 16)) (dst : Addr), ((s.tick dt).laneNow ↑l).frames = [(i, h)] ∧
      h.received < h.codewords ∧ (s.tick dt).dec.busy.get ↑core = none ∧ ((s.tick dt).laneNow ↑l).frames = (i, h) :: rest ∧
      ((s.tick dt).netNs < h.endNs ∨ h.decoded < h.codewords) ∧ ((s.tick dt).lane ↑l).ackOwed = true ∧
      (s.tick dt).ownDest pan dst = false) ∧
    (∃ (dt : Nat) (l : Lane) (s : State) (core : Fin 4) (fc : FrameCtl) (pan : Option (BitVec 16)) (dst : Addr), (∀ p ∈ ((s.tick dt).laneNow ↑l).frames, p.2.codewords ≤ p.2.received) ∧
      (s.tick dt).dec.busy.get ↑core = none ∧ (fc.ar = false ∨ fc.version ≠ 2 ∨ fc.ftype ≠ 1 ∧ fc.ftype ≠ 3) ∧
      (((s.tick dt).lane ↑l).ackOwed = false ∨ (s.tick dt).ownDest pan dst = true)) ∧
    (∃ (dt : Nat) (l : Lane) (s : State) (core : Fin 4) (fc : FrameCtl) (pan : Option (BitVec 16)) (dst : Addr), (∀ p ∈ ((s.tick dt).laneNow ↑l).frames, p.2.codewords ≤ p.2.received) ∧
      (s.tick dt).dec.busy.get ↑core = none ∧ (fc.ar = false ∨ fc.version ≠ 2 ∨ fc.ftype ≠ 1 ∧ fc.ftype ≠ 3) ∧
      (((s.tick dt).lane ↑l).ackOwed = false ∨ (s.tick dt).ownDest pan dst = true)) :=
  ⟨⟨0, 0, inFrame, rxInfo, rxHdr, [], 0, none, .none, by decide +kernel⟩,
   ⟨0, 0, noCore, rxInfo, rxHdr, [], none, .none, by decide +kernel⟩,
   ⟨0, 0, inFrame, 0, none, .none, by decide +kernel⟩,
   ⟨0, 0, onLane (.frame rxInfo rxDone), .sa, rxInfo, rxDone, [], 0, ourFrame, aCtl, none, .none, by decide +kernel⟩,
   ⟨0, 0, decoding, rxInfo, rxMid, [], 0, aWord, none, .none, by decide +kernel⟩,
   ⟨0, 0, decoding, rxInfo, rxMid, [], 0, aWord, none, .none, by decide +kernel⟩,
   ⟨0, 0, fskEnded, .sa, rxInfo, fskHdr, [], 0, badFrame, aCtl, none, .none, by decide +kernel⟩,
   ⟨0, 0, fskEnded, .sa, rxInfo, fskHdr, [], 0, ourFrame, aCtl, none, .none, by decide +kernel⟩,
   ⟨0, 0, fskEnded, .sa, rxInfo, fskHdr, [], 0, foreignFrame, aCtl, none, .none, by decide +kernel⟩,
   ⟨0, 0, dupEnded, .sa, rxInfo, fskHdr, [], 0, ourFrame, aCtl, none, .none, by decide +kernel⟩,
   ⟨0, 0, helecBad, .sa, rxInfo, { rxDone with ldpcBad := true }, [], 0, ourFrame, none, .none, by decide +kernel⟩,
   ⟨0, 0, inFrame, rxInfo, rxHdr, [], 0, none, .none, by decide +kernel⟩,
   ⟨0, 0, onLane (.frame rxInfo fskHdr), .sa, rxInfo, fskHdr, [], 0, ourFrame, aCtl, none, .none, by decide +kernel⟩,
   ⟨0, 0, ackOwing, rxInfo, rxHdr, [], 0, none, .short 7, by decide +kernel⟩,
   ⟨0, 0, up, 0, { aCtl with ar := false }, none, .none, by decide +kernel⟩,
   ⟨0, 0, up, 0, { aCtl with ftype := 2 }, none, .none, by decide +kernel⟩⟩

theorem witness_LanesAndDomains :
    (∃ (dt : Nat) (l : Lane) (d : LaneDom) (s : State) (f : Fe) (k : Nat), ((s.tick dt).laneNow ↑l).next = some (some (feCode f, k)) ∧
      ((s.tick dt).laneNow ↑l).phase = LanePhase.hunt ∧ (s.tick dt).laneTesting ↑l = false ∧
      (∀ j < 48, j ≠ ↑l → ((s.tick dt).lane j).assigned ≠ some (feCode f, k)) ∧ (s.tick dt).laneUsable ↑l = true ∧
      (s.tick dt).laneLive ↑l = true ∧ ((s.tick dt).lane ↑l).assigned = none ∧ ((s.tick dt).dom d).returning = false) ∧
    (∃ (dt : Nat) (l : Lane) (d : LaneDom) (s : State) (f : Fe) (k : Nat), ((s.tick dt).laneNow ↑l).next = some (some (feCode f, k)) ∧
      ((s.tick dt).laneNow ↑l).phase = LanePhase.hunt ∧ (s.tick dt).laneTesting ↑l = false ∧
      (∀ j < 48, j ≠ ↑l → ((s.tick dt).lane j).assigned ≠ some (feCode f, k)) ∧ (s.tick dt).laneUsable ↑l = false ∧
      (s.tick dt).laneLive ↑l = false ∧ ((s.tick dt).dom d).returning = false) ∧
    (∃ (dt : Nat) (l : Lane) (d : LaneDom) (s : State), ((s.tick dt).laneNow ↑l).next = some none ∧
      ((s.tick dt).laneNow ↑l).phase = LanePhase.hunt ∧ (s.tick dt).laneTesting ↑l = false ∧ (s.tick dt).laneLive ↑l = true ∧
      ((s.tick dt).dom d).returning = false) ∧
    (∃ (dt : Nat) (l : Lane) (d : LaneDom) (s : State), (((s.tick dt).laneNow ↑l).next = none ∨ ((s.tick dt).laneNow ↑l).phase ≠ LanePhase.hunt ∨ (s.tick dt).laneTesting ↑l = true) ∧
      (s.tick dt).laneLive ↑l = true ∧ ((s.tick dt).lane ↑l).assigned = none ∧ ((s.tick dt).dom d).returning = false) ∧
    (∃ (dt : Nat) (l : Lane) (d : LaneDom) (s : State), (((s.tick dt).laneNow ↑l).next = none ∨ ((s.tick dt).laneNow ↑l).phase ≠ LanePhase.hunt ∨ (s.tick dt).laneTesting ↑l = true) ∧
      (s.tick dt).laneLive ↑l = false ∧ ((s.tick dt).dom d).returning = true) ∧
    (∃ (dt : Nat) (l : Lane) (d : LaneDom) (s : State), (((s.tick dt).laneNow ↑l).next = none ∨ ((s.tick dt).laneNow ↑l).phase ≠ LanePhase.hunt ∨ (s.tick dt).laneTesting ↑l = true) ∧
      (s.tick dt).laneLive ↑l = false ∧ ((s.tick dt).dom d).returning = false) ∧
    (∃ (dt : Nat) (l : Lane) (d : LaneDom) (s : State) (n : Nat), (((s.tick dt).laneNow ↑l).next = none ∨ ((s.tick dt).laneNow ↑l).phase ≠ LanePhase.hunt ∨ (s.tick dt).laneTesting ↑l = true) ∧
      (s.tick dt).laneLive ↑l = true ∧ ((s.tick dt).dom d).stopping = some n ∧
      ((∀ j ∈ (s.tick dt).domLanes d, (s.tick dt).laneHolds j = false) ∨ n + 2500000 ≤ (s.tick dt).clk ∧
      ∀ j ∈ (s.tick dt).domLanes d, ((s.tick dt).laneNow j).done = []) ∧ ((s.tick dt).dom d).returning = false) ∧
    (∃ (dt : Nat) (l : Lane) (d : LaneDom) (s : State), (((s.tick dt).laneNow ↑l).next = none ∨ ((s.tick dt).laneNow ↑l).phase ≠ LanePhase.hunt ∨ (s.tick dt).laneTesting ↑l = true) ∧
      (s.tick dt).laneLive ↑l = true ∧ ((s.tick dt).dom d).returning = false) ∧
    (∃ (dt : Nat) (l : Lane) (d : LaneDom) (s : State) (n : Nat), (((s.tick dt).laneNow ↑l).next = none ∨ ((s.tick dt).laneNow ↑l).phase ≠ LanePhase.hunt ∨ (s.tick dt).laneTesting ↑l = true) ∧
      (s.tick dt).laneLive ↑l = true ∧ ((s.tick dt).dom d).stopping = some n ∧
      (∃ j ∈ (s.tick dt).domLanes d, (s.tick dt).laneHolds j = true) ∧ (s.tick dt).clk < n + 2500000 ∧
      ((s.tick dt).dom d).returning = false) ∧
    (∃ (dt : Nat) (l : Lane) (d : LaneDom) (s : State), (((s.tick dt).laneNow ↑l).next = none ∨ ((s.tick dt).laneNow ↑l).phase ≠ LanePhase.hunt ∨ (s.tick dt).laneTesting ↑l = true) ∧
      (s.tick dt).laneLive ↑l = false ∧ ((s.tick dt).dom d).returning = true) ∧
    (∃ (dt : Nat) (l : Lane) (d : LaneDom) (s : State), (((s.tick dt).laneNow ↑l).next = none ∨ ((s.tick dt).laneNow ↑l).phase ≠ LanePhase.hunt ∨ (s.tick dt).laneTesting ↑l = true) ∧
      (s.tick dt).laneLive ↑l = true ∧ ((s.tick dt).lane ↑l).assigned = none ∧ ((s.tick dt).dom d).returning = false) :=
  ⟨⟨0, 0, .a, changingLane, .sa, 3, by decide +kernel⟩,
   ⟨0, 0, .a, changingOut, .sa, 3, by decide +kernel⟩,
   ⟨0, 0, .a, leavingLane, by decide +kernel⟩,
   ⟨0, 47, .b, up, by decide +kernel⟩,
   ⟨0, 0, .a, domAOut, by decide +kernel⟩,
   ⟨0, 47, .a, laneGone, by decide +kernel⟩,
   ⟨0, 0, .a, stoppingDom 2500000 .hunt, 2500000, by decide +kernel⟩,
   ⟨0, 0, .a, stoppingDom 0 (.frame rxInfo rxHdr), by decide +kernel⟩,
   ⟨0, 0, .a, stoppingDom 1 (.frame rxInfo rxHdr), 1, by decide +kernel⟩,
   ⟨0, 0, .a, domAOut, by decide +kernel⟩,
   ⟨0, 0, .a, testingLane, by decide +kernel⟩⟩

theorem witness_CourseOfATransmission :
    (∃ (dt : Nat) (f : Fe) (s : State) (temp : ℤ) (excess : ℤ) (q : TxReq) (rest : List TxReq), (s.tick dt).radio = true ∧
      ((s.tick dt).feSt f).posted = q :: rest ∧ (s.tick dt).feMode f ≠ FeMode.off ∧ (s.tick dt).portFitted f q.port = true ∧
      q.channel < (s.tick dt).channels f ∧ ((s.tick dt).feSt f).held = none ∧
      ((s.tick dt).setFe f { (s.tick dt).feSt f with posted := rest, temp := temp }).ready f q.channel ≤ q.latest ∧
      (((s.tick dt).feSt f).held = none ∨ ((s.tick dt).feSt f).cur ≠ none) ∧ (excess ≤ 12 ∨ ((s.tick dt).feSt f).cur = none)) ∧
    (∃ (dt : Nat) (f : Fe) (s : State) (temp : ℤ) (excess : ℤ) (q : TxReq) (rest : List TxReq), (s.tick dt).radio = true ∧
      ((s.tick dt).feSt f).posted = q :: rest ∧ (s.tick dt).feMode f ≠ FeMode.off ∧ (s.tick dt).portFitted f q.port = true ∧
      q.channel < (s.tick dt).channels f ∧ ((s.tick dt).feSt f).held = none ∧
      q.latest < ((s.tick dt).setFe f { (s.tick dt).feSt f with posted := rest, temp := temp }).ready f q.channel ∧
      (((s.tick dt).feSt f).held = none ∨ ((s.tick dt).feSt f).cur ≠ none) ∧ (excess ≤ 12 ∨ ((s.tick dt).feSt f).cur = none)) ∧
    (∃ (dt : Nat) (f : Fe) (s : State) (excess : ℤ) (q : TxReq) (rest : List TxReq), (s.tick dt).radio = true ∧
      ((s.tick dt).feSt f).posted = q :: rest ∧ (¬((s.tick dt).feMode f ≠ FeMode.off ∧ (s.tick dt).portFitted f q.port = true ∧
      q.channel < (s.tick dt).channels f) ∨ ((s.tick dt).feSt f).held ≠ none) ∧ (excess ≤ 12 ∨ ((s.tick dt).feSt f).cur = none)) ∧
    (∃ (dt : Nat) (f : Fe) (s : State) (excess : ℤ) (q : TxReq) (rest : List TxReq), (s.tick dt).radio = true ∧
      ((s.tick dt).feSt f).posted = q :: rest ∧ (¬((s.tick dt).feMode f ≠ FeMode.off ∧ (s.tick dt).portFitted f q.port = true ∧
      q.channel < (s.tick dt).channels f) ∨ ((s.tick dt).feSt f).held ≠ none) ∧
      (((s.tick dt).feSt f).held = none ∨ ((s.tick dt).feSt f).cur ≠ none) ∧ (excess ≤ 12 ∨ ((s.tick dt).feSt f).cur = none)) ∧
    (∃ (dt : Nat) (f : Fe) (s : State) (excess : ℤ), ((s.tick dt).radio = false ∨ ((s.tick dt).feSt f).posted = []) ∧
      (((s.tick dt).feSt f).held = none ∨ ((s.tick dt).feSt f).cur ≠ none) ∧ (excess ≤ 12 ∨ ((s.tick dt).feSt f).cur = none)) ∧
    (∃ (dt : Nat) (f : Fe) (s : State) (excess : ℤ) (q : TxReq), ((s.tick dt).radio = false ∨ ((s.tick dt).feSt f).posted = []) ∧
      ((s.tick dt).feSt f).held = some q ∧ ((s.tick dt).feSt f).cur = none ∧ (s.tick dt).decided f q = true ∧
      (s.tick dt).commitOf f q.start ≤ (s.tick dt).netNs ∧ (s.tick dt).guardedStart f q = q.start ∧
      (excess ≤ 12 ∨ ((s.tick dt).feSt f).cur = none)) ∧
    (∃ (dt : Nat) (f : Fe) (s : State) (excess : ℤ) (q : TxReq), ((s.tick dt).radio = false ∨ ((s.tick dt).feSt f).posted = []) ∧
      ((s.tick dt).feSt f).held = some q ∧ ((s.tick dt).feSt f).cur = none ∧ (s.tick dt).decided f q = true ∧
      (s.tick dt).commitOf f q.start ≤ (s.tick dt).netNs ∧ (s.tick dt).guardedStart f q = q.start ∧
      (excess ≤ 12 ∨ ((s.tick dt).feSt f).cur = none)) ∧
    (∃ (dt : Nat) (f : Fe) (s : State) (excess : ℤ) (q : TxReq), ((s.tick dt).radio = false ∨ ((s.tick dt).feSt f).posted = []) ∧
      ((s.tick dt).feSt f).held = some q ∧ ((s.tick dt).feSt f).cur = none ∧ (s.tick dt).decided f q = true ∧
      (s.tick dt).commitOf f q.start ≤ (s.tick dt).netNs ∧ q.start < (s.tick dt).guardedStart f q ∧
      (excess ≤ 12 ∨ ((s.tick dt).feSt f).cur = none)) ∧
    (∃ (dt : Nat) (f : Fe) (s : State) (excess : ℤ) (q : TxReq), ((s.tick dt).radio = false ∨ ((s.tick dt).feSt f).posted = []) ∧
      ((s.tick dt).feSt f).held = some q ∧ ((s.tick dt).decided f q = false ∨ (s.tick dt).netNs < (s.tick dt).commitOf f q.start) ∧
      (excess ≤ 12 ∨ ((s.tick dt).feSt f).cur = none)) ∧
    (∃ (dt : Nat) (f : Fe) (s : State) (excess : ℤ) (q : TxReq), ((s.tick dt).radio = false ∨ ((s.tick dt).feSt f).posted = []) ∧
      ((s.tick dt).feSt f).held = some q ∧ ((s.tick dt).decided f q = false ∨ (s.tick dt).netNs < (s.tick dt).commitOf f q.start) ∧
      (excess ≤ 12 ∨ ((s.tick dt).feSt f).cur = none)) ∧
    (∃ (dt : Nat) (f : Fe) (s : State) (excess : ℤ) (q : TxReq), ((s.tick dt).radio = false ∨ ((s.tick dt).feSt f).posted = []) ∧
      (((s.tick dt).feSt f).held = none ∨ ((s.tick dt).feSt f).cur ≠ none) ∧ ((s.tick dt).feSt f).cur = some q ∧
      q.start + q.air * 1000 ≤ (s.tick dt).netNs ∧ (excess ≤ 12 ∨ ((s.tick dt).feSt f).cur = none)) ∧
    (∃ (dt : Nat) (f : Fe) (s : State) (excess : ℤ) (q : TxReq), ((s.tick dt).radio = false ∨ ((s.tick dt).feSt f).posted = []) ∧
      (((s.tick dt).feSt f).held = none ∨ ((s.tick dt).feSt f).cur ≠ none) ∧ ((s.tick dt).feSt f).cur = some q ∧
      (s.tick dt).netNs < q.start + q.air * 1000 ∧ 12 < excess ∧
      (List.filter (fun k => decide ((s.tick dt).clk < k + 250000000)) ((s.tick dt).feSt f).overpowers).length < 2) ∧
    (∃ (dt : Nat) (f : Fe) (s : State) (excess : ℤ) (q : TxReq) (a : Nat) (b : Nat), ((s.tick dt).radio = false ∨ ((s.tick dt).feSt f).posted = []) ∧
      (((s.tick dt).feSt f).held = none ∨ ((s.tick dt).feSt f).cur ≠ none) ∧ ((s.tick dt).feSt f).cur = some q ∧
      (s.tick dt).netNs < q.start + q.air * 1000 ∧ 12 < excess ∧ ((s.tick dt).feSt f).overpowers = [a, b] ∧
      (s.tick dt).clk < a + 250000000 ∧ (s.tick dt).clk < b + 250000000 ∧ ((s.tick dt).feSt f).faulty = false) ∧
    (∃ (dt : Nat) (f : Fe) (s : State) (excess : ℤ) (q : TxReq), ((s.tick dt).radio = false ∨ ((s.tick dt).feSt f).posted = []) ∧
      (((s.tick dt).feSt f).held = none ∨ ((s.tick dt).feSt f).cur ≠ none) ∧ ((s.tick dt).feSt f).cur = some q ∧
      (s.tick dt).netNs < q.start + q.air * 1000 ∧ (excess ≤ 12 ∨ ((s.tick dt).feSt f).cur = none)) :=
  ⟨⟨0, .sa, posting 100100000000, 5, 0, aReq 100000000000 100100000000 0, [], by decide +kernel⟩,
   ⟨0, .sa, posting 100000000000, 5, 0, aReq 100000000000 100000000000 0, [], by decide +kernel⟩,
   ⟨0, .sa, postingHeld, 0, aReq 100000000000 100000200000 0, [], by decide +kernel⟩,
   ⟨0, .sa, postingOff, 0, aReq 100000000000 100100000000 0, [], by decide +kernel⟩,
   ⟨0, .sa, quiet, 0, by decide +kernel⟩,
   ⟨0, .sa, holdingReq, 0, aReq 0 0 100000000000, by decide +kernel⟩,
   ⟨0, .sa, holdingBusy, 0, aReq 0 0 100000000000, by decide +kernel⟩,
   ⟨0, .sa, holdingGuarded, 0, aReq 0 100050000000 100000000000, by decide +kernel⟩,
   ⟨0, .sa, undecided, 0, aReq 0 0 100000000000, by decide +kernel⟩,
   ⟨0, .sa, holdingEarly, 0, aReq 0 0 100001000000, by decide +kernel⟩,
   ⟨0, .sa, sendingReq 99995000000, 0, aReq 0 0 99995000000, by decide +kernel⟩,
   ⟨0, .sa, sendingReq 99995000001, 13, aReq 0 0 99995000001, by decide +kernel⟩,
   ⟨0, .sa, aborting, 13, aReq 0 0 99999999000, 5, 6, by decide +kernel⟩,
   ⟨0, .sa, sendingReq 99995000001, 12, aReq 0 0 99995000001, by decide +kernel⟩⟩

theorem witness_CalibrationsAndSleep :
    (∃ (dt : Nat) (f : Fe) (s : State) (temp : ℤ) (k : Nat) (rest : List Nat), (((s.tick dt).feMode f = FeMode.rx ∨ (s.tick dt).feMode f = FeMode.synthOn) ∧
      ((s.tick dt).feSt f).posted = [] ∧ ((s.tick dt).feSt f).held = none ∧ ((s.tick dt).feSt f).cur = none ∧
      ((s.tick dt).feSt f).cal = none) ∧ ((s.tick dt).feSt f).pass = k :: rest ∧ (s.tick dt).radio = true ∧
      (s.tick dt).feMode f ≠ FeMode.off ∧ (s.tick dt).feMode f ≠ FeMode.sleep ∧ (s.tick dt).feMode f ≠ FeMode.standby ∧
      ((s.tick dt).feMode f = FeMode.rx ∨ (s.tick dt).feMode f = FeMode.tx ∨ (s.tick dt).feMode f = FeMode.leaving) ∧
      ((s.tick dt).feSt f).rxCal = none ∧ tempDiff ((s.tick dt).feSt f).rxTemp temp ≤ (s.tick dt).tempRecal f ∧
      ((s.tick dt).sleepAfterMs f = 0 ∨ (s.tick dt).lanesOn f ≠ [] ∨ (s.tick dt).clk < ((s.tick dt).feSt f).idleSince + 250000 * (s.tick dt).sleepAfterMs f) ∧
      ((s.tick dt).radio = false ∨ ((s.tick dt).feSt f).mode ≠ FeMode.sleep ∧ ((s.tick dt).feSt f).mode ≠ FeMode.synthOn)) ∧
    (∃ (dt : Nat) (f : Fe) (s : State) (temp : ℤ) (e : Nat) (c : CalEntry), (((s.tick dt).feMode f = FeMode.rx ∨ (s.tick dt).feMode f = FeMode.synthOn) ∧
      ((s.tick dt).feSt f).posted = [] ∧ ((s.tick dt).feSt f).held = none ∧ ((s.tick dt).feSt f).cur = none ∧
      ((s.tick dt).feSt f).cal = none) ∧ ((s.tick dt).feSt f).pass = [] ∧
      staleEntry (List.filter (fun y => decide ((s.tick dt).tempRecal f < tempDiff y.temp temp)) ((s.tick dt).feSt f).table) = some c ∧
      (s.tick dt).radio = true ∧ (s.tick dt).feMode f ≠ FeMode.off ∧ (s.tick dt).feMode f ≠ FeMode.sleep ∧
      (s.tick dt).feMode f ≠ FeMode.standby ∧
      ((s.tick dt).feMode f = FeMode.rx ∨ (s.tick dt).feMode f = FeMode.tx ∨ (s.tick dt).feMode f = FeMode.leaving) ∧
      ((s.tick dt).feSt f).rxCal = none ∧ (s.tick dt).tempRecal f < tempDiff ((s.tick dt).feSt f).rxTemp temp ∧
      ((∀ l ∈ (s.tick dt).lanesOn f, (s.tick dt).frameEndOf l = none) ∨ ((s.tick dt).feSt f).rxDue = some e ∧
      e + 12500000 ≤ (s.tick dt).clk) ∧
      ((s.tick dt).sleepAfterMs f = 0 ∨ (s.tick dt).lanesOn f ≠ [] ∨ (s.tick dt).clk < ((s.tick dt).feSt f).idleSince + 250000 * (s.tick dt).sleepAfterMs f) ∧
      ((s.tick dt).radio = false ∨ ((s.tick dt).feSt f).mode ≠ FeMode.sleep ∧ ((s.tick dt).feSt f).mode ≠ FeMode.synthOn)) ∧
    (∃ (dt : Nat) (f : Fe) (s : State) (temp : ℤ), (((s.tick dt).feMode f = FeMode.rx ∨ (s.tick dt).feMode f = FeMode.synthOn) ∧
      ((s.tick dt).feSt f).posted = [] ∧ ((s.tick dt).feSt f).held = none ∧ ((s.tick dt).feSt f).cur = none ∧
      ((s.tick dt).feSt f).cal = none) ∧ ((s.tick dt).feSt f).pass = [] ∧
      staleEntry (List.filter (fun y => decide ((s.tick dt).tempRecal f < tempDiff y.temp temp)) ((s.tick dt).feSt f).table) = none ∧
      (s.tick dt).radio = true ∧ (s.tick dt).feMode f ≠ FeMode.off ∧ (s.tick dt).feMode f ≠ FeMode.sleep ∧
      (s.tick dt).feMode f ≠ FeMode.standby ∧
      ((s.tick dt).feMode f = FeMode.rx ∨ (s.tick dt).feMode f = FeMode.tx ∨ (s.tick dt).feMode f = FeMode.leaving) ∧
      ((s.tick dt).feSt f).rxCal = none ∧ tempDiff ((s.tick dt).feSt f).rxTemp temp ≤ (s.tick dt).tempRecal f ∧
      ((s.tick dt).sleepAfterMs f = 0 ∨ (s.tick dt).lanesOn f ≠ [] ∨ (s.tick dt).clk < ((s.tick dt).feSt f).idleSince + 250000 * (s.tick dt).sleepAfterMs f) ∧
      ((s.tick dt).radio = false ∨ ((s.tick dt).feSt f).mode ≠ FeMode.sleep ∧ ((s.tick dt).feSt f).mode ≠ FeMode.synthOn)) ∧
    (∃ (dt : Nat) (f : Fe) (s : State) (temp : ℤ) (k : Nat) (e : Nat), (¬(((s.tick dt).feMode f = FeMode.rx ∨ (s.tick dt).feMode f = FeMode.synthOn) ∧
      ((s.tick dt).feSt f).posted = [] ∧ ((s.tick dt).feSt f).held = none ∧ ((s.tick dt).feSt f).cur = none ∧
      ((s.tick dt).feSt f).cal = none)) ∧ ((s.tick dt).feSt f).cal = some (k, e) ∧ e ≤ (s.tick dt).clk ∧ k < (s.tick dt).channels f ∧
      (s.tick dt).radio = true ∧ (s.tick dt).feMode f ≠ FeMode.off ∧ (s.tick dt).feMode f ≠ FeMode.sleep ∧
      (s.tick dt).feMode f ≠ FeMode.standby ∧
      ((s.tick dt).feMode f = FeMode.rx ∨ (s.tick dt).feMode f = FeMode.tx ∨ (s.tick dt).feMode f = FeMode.leaving) ∧
      ((s.tick dt).feSt f).rxCal = none ∧ tempDiff ((s.tick dt).feSt f).rxTemp temp ≤ (s.tick dt).tempRecal f ∧
      ((s.tick dt).sleepAfterMs f = 0 ∨ (s.tick dt).lanesOn f ≠ [] ∨ (s.tick dt).clk < ((s.tick dt).feSt f).idleSince + 250000 * (s.tick dt).sleepAfterMs f) ∧
      ((s.tick dt).radio = false ∨ ((s.tick dt).feSt f).mode ≠ FeMode.sleep ∧ ((s.tick dt).feSt f).mode ≠ FeMode.synthOn)) ∧
    (∃ (dt : Nat) (f : Fe) (s : State) (temp : ℤ) (k : Nat) (e : Nat), (¬(((s.tick dt).feMode f = FeMode.rx ∨ (s.tick dt).feMode f = FeMode.synthOn) ∧
      ((s.tick dt).feSt f).posted = [] ∧ ((s.tick dt).feSt f).held = none ∧ ((s.tick dt).feSt f).cur = none ∧
      ((s.tick dt).feSt f).cal = none)) ∧ ((s.tick dt).feSt f).cal = some (k, e) ∧ e ≤ (s.tick dt).clk ∧ (s.tick dt).channels f ≤ k ∧
      ((s.tick dt).feSt f).held = none ∧ (s.tick dt).radio = true ∧ (s.tick dt).feMode f ≠ FeMode.off ∧
      (s.tick dt).feMode f ≠ FeMode.sleep ∧ (s.tick dt).feMode f ≠ FeMode.standby ∧
      ((s.tick dt).feMode f = FeMode.rx ∨ (s.tick dt).feMode f = FeMode.tx ∨ (s.tick dt).feMode f = FeMode.leaving) ∧
      ((s.tick dt).feSt f).rxCal = none ∧ tempDiff ((s.tick dt).feSt f).rxTemp temp ≤ (s.tick dt).tempRecal f ∧
      ((s.tick dt).sleepAfterMs f = 0 ∨ (s.tick dt).lanesOn f ≠ [] ∨ (s.tick dt).clk < ((s.tick dt).feSt f).idleSince + 250000 * (s.tick dt).sleepAfterMs f) ∧
      ((s.tick dt).radio = false ∨ ((s.tick dt).feSt f).mode ≠ FeMode.sleep ∧ ((s.tick dt).feSt f).mode ≠ FeMode.synthOn)) ∧
    (∃ (dt : Nat) (f : Fe) (s : State) (temp : ℤ) (e : Nat), (((s.tick dt).feMode f = FeMode.rx ∨ (s.tick dt).feMode f = FeMode.synthOn) ∧
      ((s.tick dt).feSt f).posted = [] ∧ ((s.tick dt).feSt f).held = none ∧ ((s.tick dt).feSt f).cur = none ∧
      ((s.tick dt).feSt f).cal = none) ∧ ((s.tick dt).feSt f).pass = [] ∧
      staleEntry (List.filter (fun y => decide ((s.tick dt).tempRecal f < tempDiff y.temp temp)) ((s.tick dt).feSt f).table) = none ∧
      ((s.tick dt).feSt f).rxCal = some e ∧ e ≤ (s.tick dt).clk ∧ (s.tick dt).radio = true ∧ (s.tick dt).feMode f ≠ FeMode.off ∧
      (s.tick dt).feMode f ≠ FeMode.sleep ∧ (s.tick dt).feMode f ≠ FeMode.standby ∧
      ((s.tick dt).sleepAfterMs f = 0 ∨ (s.tick dt).lanesOn f ≠ [] ∨ (s.tick dt).clk < ((s.tick dt).feSt f).idleSince + 250000 * (s.tick dt).sleepAfterMs f) ∧
      ((s.tick dt).radio = false ∨ ((s.tick dt).feSt f).mode ≠ FeMode.sleep ∧ ((s.tick dt).feSt f).mode ≠ FeMode.synthOn)) ∧
    (∃ (dt : Nat) (f : Fe) (s : State) (temp : ℤ) (e : Nat), (((s.tick dt).feMode f = FeMode.rx ∨ (s.tick dt).feMode f = FeMode.synthOn) ∧
      ((s.tick dt).feSt f).posted = [] ∧ ((s.tick dt).feSt f).held = none ∧ ((s.tick dt).feSt f).cur = none ∧
      ((s.tick dt).feSt f).cal = none) ∧ ((s.tick dt).feSt f).pass = [] ∧
      staleEntry (List.filter (fun y => decide ((s.tick dt).tempRecal f < tempDiff y.temp temp)) ((s.tick dt).feSt f).table) = none ∧
      (s.tick dt).radio = true ∧ (s.tick dt).feMode f ≠ FeMode.off ∧ (s.tick dt).feMode f ≠ FeMode.sleep ∧
      (s.tick dt).feMode f ≠ FeMode.standby ∧
      ((s.tick dt).feMode f = FeMode.rx ∨ (s.tick dt).feMode f = FeMode.tx ∨ (s.tick dt).feMode f = FeMode.leaving) ∧
      ((s.tick dt).feSt f).rxCal = none ∧ (s.tick dt).tempRecal f < tempDiff ((s.tick dt).feSt f).rxTemp temp ∧
      ((∀ l ∈ (s.tick dt).lanesOn f, (s.tick dt).frameEndOf l = none) ∨ ((s.tick dt).feSt f).rxDue = some e ∧
      e + 12500000 ≤ (s.tick dt).clk) ∧
      ((s.tick dt).sleepAfterMs f = 0 ∨ (s.tick dt).lanesOn f ≠ [] ∨ (s.tick dt).clk < ((s.tick dt).feSt f).idleSince + 250000 * (s.tick dt).sleepAfterMs f) ∧
      ((s.tick dt).radio = false ∨ ((s.tick dt).feSt f).mode ≠ FeMode.sleep ∧ ((s.tick dt).feSt f).mode ≠ FeMode.synthOn)) ∧
    (∃ (dt : Nat) (f : Fe) (s : State) (temp : ℤ), (((s.tick dt).feMode f = FeMode.rx ∨ (s.tick dt).feMode f = FeMode.synthOn) ∧
      ((s.tick dt).feSt f).posted = [] ∧ ((s.tick dt).feSt f).held = none ∧ ((s.tick dt).feSt f).cur = none ∧
      ((s.tick dt).feSt f).cal = none) ∧ ((s.tick dt).feSt f).pass = [] ∧
      staleEntry (List.filter (fun y => decide ((s.tick dt).tempRecal f < tempDiff y.temp temp)) ((s.tick dt).feSt f).table) = none ∧
      (s.tick dt).radio = true ∧ (s.tick dt).feMode f ≠ FeMode.off ∧ (s.tick dt).feMode f ≠ FeMode.sleep ∧
      (s.tick dt).feMode f ≠ FeMode.standby ∧
      ((s.tick dt).feMode f = FeMode.rx ∨ (s.tick dt).feMode f = FeMode.tx ∨ (s.tick dt).feMode f = FeMode.leaving) ∧
      ((s.tick dt).feSt f).rxCal = none ∧ (s.tick dt).tempRecal f < tempDiff ((s.tick dt).feSt f).rxTemp temp ∧
      (∃ l ∈ (s.tick dt).lanesOn f, (s.tick dt).frameEndOf l ≠ none) ∧ ((s.tick dt).feSt f).rxDue = none ∧
      ((s.tick dt).sleepAfterMs f = 0 ∨ (s.tick dt).lanesOn f ≠ [] ∨ (s.tick dt).clk < ((s.tick dt).feSt f).idleSince + 250000 * (s.tick dt).sleepAfterMs f) ∧
      ((s.tick dt).radio = false ∨ ((s.tick dt).feSt f).mode ≠ FeMode.sleep ∧ ((s.tick dt).feSt f).mode ≠ FeMode.synthOn)) ∧
    (∃ (dt : Nat) (f : Fe) (s : State) (temp : ℤ) (e : Nat), (((s.tick dt).feMode f = FeMode.rx ∨ (s.tick dt).feMode f = FeMode.synthOn) ∧
      ((s.tick dt).feSt f).posted = [] ∧ ((s.tick dt).feSt f).held = none ∧ ((s.tick dt).feSt f).cur = none ∧
      ((s.tick dt).feSt f).cal = none) ∧ ((s.tick dt).feSt f).pass = [] ∧
      staleEntry (List.filter (fun y => decide ((s.tick dt).tempRecal f < tempDiff y.temp temp)) ((s.tick dt).feSt f).table) = none ∧
      (s.tick dt).radio = true ∧ (s.tick dt).feMode f ≠ FeMode.off ∧ (s.tick dt).feMode f ≠ FeMode.sleep ∧
      (s.tick dt).feMode f ≠ FeMode.standby ∧
      ((s.tick dt).feMode f = FeMode.rx ∨ (s.tick dt).feMode f = FeMode.tx ∨ (s.tick dt).feMode f = FeMode.leaving) ∧
      ((s.tick dt).feSt f).rxCal = none ∧ (s.tick dt).tempRecal f < tempDiff ((s.tick dt).feSt f).rxTemp temp ∧
      ((∀ l ∈ (s.tick dt).lanesOn f, (s.tick dt).frameEndOf l = none) ∨ ((s.tick dt).feSt f).rxDue = some e ∧
      e + 12500000 ≤ (s.tick dt).clk) ∧
      ((s.tick dt).sleepAfterMs f = 0 ∨ (s.tick dt).lanesOn f ≠ [] ∨ (s.tick dt).clk < ((s.tick dt).feSt f).idleSince + 250000 * (s.tick dt).sleepAfterMs f) ∧
      ((s.tick dt).radio = false ∨ ((s.tick dt).feSt f).mode ≠ FeMode.sleep ∧ ((s.tick dt).feSt f).mode ≠ FeMode.synthOn)) ∧
    (∃ (dt : Nat) (f : Fe) (s : State) (temp : ℤ), (((s.tick dt).feMode f = FeMode.rx ∨ (s.tick dt).feMode f = FeMode.synthOn) ∧
      ((s.tick dt).feSt f).posted = [] ∧ ((s.tick dt).feSt f).held = none ∧ ((s.tick dt).feSt f).cur = none ∧
      ((s.tick dt).feSt f).cal = none) ∧ ((s.tick dt).feSt f).pass = [] ∧
      staleEntry (List.filter (fun y => decide ((s.tick dt).tempRecal f < tempDiff y.temp temp)) ((s.tick dt).feSt f).table) = none ∧
      (s.tick dt).radio = true ∧ (s.tick dt).feMode f ≠ FeMode.off ∧ (s.tick dt).feMode f ≠ FeMode.sleep ∧
      (s.tick dt).feMode f ≠ FeMode.standby ∧
      ((s.tick dt).feMode f = FeMode.rx ∨ (s.tick dt).feMode f = FeMode.tx ∨ (s.tick dt).feMode f = FeMode.leaving) ∧
      ((s.tick dt).feSt f).rxCal = none ∧ tempDiff ((s.tick dt).feSt f).rxTemp temp ≤ (s.tick dt).tempRecal f ∧
      ((s.tick dt).sleepAfterMs f = 0 ∨ (s.tick dt).lanesOn f ≠ [] ∨ (s.tick dt).clk < ((s.tick dt).feSt f).idleSince + 250000 * (s.tick dt).sleepAfterMs f) ∧
      ((s.tick dt).radio = false ∨ ((s.tick dt).feSt f).mode ≠ FeMode.sleep ∧ ((s.tick dt).feSt f).mode ≠ FeMode.synthOn)) ∧
    (∃ (dt : Nat) (f : Fe) (s : State) (temp : ℤ) (e : Nat), (((s.tick dt).feMode f = FeMode.rx ∨ (s.tick dt).feMode f = FeMode.synthOn) ∧
      ((s.tick dt).feSt f).posted = [] ∧ ((s.tick dt).feSt f).held = none ∧ ((s.tick dt).feSt f).cur = none ∧
      ((s.tick dt).feSt f).cal = none) ∧ ((s.tick dt).feSt f).pass = [] ∧
      staleEntry (List.filter (fun y => decide ((s.tick dt).tempRecal f < tempDiff y.temp temp)) ((s.tick dt).feSt f).table) = none ∧
      (s.tick dt).radio = true ∧ (s.tick dt).feMode f ≠ FeMode.off ∧ (s.tick dt).feMode f ≠ FeMode.sleep ∧
      (s.tick dt).feMode f ≠ FeMode.standby ∧
      ((s.tick dt).feMode f = FeMode.rx ∨ (s.tick dt).feMode f = FeMode.tx ∨ (s.tick dt).feMode f = FeMode.leaving) ∧
      ((s.tick dt).feSt f).rxCal = none ∧ (s.tick dt).tempRecal f < tempDiff ((s.tick dt).feSt f).rxTemp temp ∧
      ((∀ l ∈ (s.tick dt).lanesOn f, (s.tick dt).frameEndOf l = none) ∨ ((s.tick dt).feSt f).rxDue = some e ∧
      e + 12500000 ≤ (s.tick dt).clk) ∧ (s.tick dt).sleepAfterMs f ≠ 0 ∧ (s.tick dt).feMode f = FeMode.rx ∧ (s.tick dt).lanesOn f = [] ∧
      ((s.tick dt).feSt f).posted = [] ∧ ((s.tick dt).feSt f).held = none ∧ ((s.tick dt).feSt f).cal = none ∧
      ((s.tick dt).feSt f).idleSince + 250000 * (s.tick dt).sleepAfterMs f ≤ (s.tick dt).clk ∧
      ((s.tick dt).radio = false ∨ ((s.tick dt).feSt f).mode ≠ FeMode.sleep ∧ ((s.tick dt).feSt f).mode ≠ FeMode.synthOn)) ∧
    (∃ (dt : Nat) (f : Fe) (s : State), (¬(((s.tick dt).feMode f = FeMode.rx ∨ (s.tick dt).feMode f = FeMode.synthOn) ∧
      ((s.tick dt).feSt f).posted = [] ∧ ((s.tick dt).feSt f).held = none ∧ ((s.tick dt).feSt f).cur = none ∧
      ((s.tick dt).feSt f).cal = none)) ∧
      ((s.tick dt).radio = false ∨ (s.tick dt).feMode f = FeMode.off ∨ (s.tick dt).feMode f = FeMode.sleep ∨ (s.tick dt).feMode f = FeMode.standby) ∧
      ((s.tick dt).sleepAfterMs f = 0 ∨ (s.tick dt).lanesOn f ≠ [] ∨ (s.tick dt).clk < ((s.tick dt).feSt f).idleSince + 250000 * (s.tick dt).sleepAfterMs f) ∧
      (s.tick dt).radio = true ∧ ((s.tick dt).feSt f).mode = FeMode.sleep) ∧
    (∃ (dt : Nat) (f : Fe) (s : State) (temp : ℤ), (((s.tick dt).feMode f = FeMode.rx ∨ (s.tick dt).feMode f = FeMode.synthOn) ∧
      ((s.tick dt).feSt f).posted = [] ∧ ((s.tick dt).feSt f).held = none ∧ ((s.tick dt).feSt f).cur = none ∧
      ((s.tick dt).feSt f).cal = none) ∧ ((s.tick dt).feSt f).pass = [] ∧
      staleEntry (List.filter (fun y => decide ((s.tick dt).tempRecal f < tempDiff y.temp temp)) ((s.tick dt).feSt f).table) = none ∧
      (s.tick dt).radio = true ∧ (s.tick dt).feMode f ≠ FeMode.off ∧ (s.tick dt).feMode f ≠ FeMode.sleep ∧
      (s.tick dt).feMode f ≠ FeMode.standby ∧
      ((s.tick dt).sleepAfterMs f = 0 ∨ (s.tick dt).lanesOn f ≠ [] ∨ (s.tick dt).clk < ((s.tick dt).feSt f).idleSince + 250000 * (s.tick dt).sleepAfterMs f) ∧
      ((s.tick dt).feSt f).mode = FeMode.synthOn ∧ ((s.tick dt).feSt f).held = none ∧ ((s.tick dt).feSt f).cal = none) ∧
    (∃ (dt : Nat) (f : Fe) (s : State) (temp : ℤ), (((s.tick dt).feMode f = FeMode.rx ∨ (s.tick dt).feMode f = FeMode.synthOn) ∧
      ((s.tick dt).feSt f).posted = [] ∧ ((s.tick dt).feSt f).held = none ∧ ((s.tick dt).feSt f).cur = none ∧
      ((s.tick dt).feSt f).cal = none) ∧ ((s.tick dt).feSt f).pass = [] ∧
      staleEntry (List.filter (fun y => decide ((s.tick dt).tempRecal f < tempDiff y.temp temp)) ((s.tick dt).feSt f).table) = none ∧
      ((s.tick dt).radio = false ∨ (s.tick dt).feMode f = FeMode.off ∨ (s.tick dt).feMode f = FeMode.sleep ∨ (s.tick dt).feMode f = FeMode.standby) ∧
      ((s.tick dt).sleepAfterMs f = 0 ∨ (s.tick dt).lanesOn f ≠ [] ∨ (s.tick dt).clk < ((s.tick dt).feSt f).idleSince + 250000 * (s.tick dt).sleepAfterMs f) ∧
      ((s.tick dt).radio = false ∨ ((s.tick dt).feSt f).mode ≠ FeMode.sleep ∧ ((s.tick dt).feSt f).mode ≠ FeMode.synthOn)) :=
  ⟨⟨0, .sa, passing, 5, 7, [8], by decide +kernel⟩,
   ⟨0, .sa, staleTable, 50, 0, { channel := 7, temp := 0, used := 0 }, by decide +kernel⟩,
   ⟨0, .sa, staleTable, 0, by decide +kernel⟩,
   ⟨0, .sa, calibrating 1024, 5, 7, 1024, by decide +kernel⟩,
   ⟨0, .sa, calGone, 5, 255, 1024, by decide +kernel⟩,
   ⟨0, .sa, rxCalRuns, 5, 1024, by decide +kernel⟩,
   ⟨0, .sa, warm, 11, 1024, by decide +kernel⟩,
   ⟨0, .sa, warmHeld, 11, by decide +kernel⟩,
   ⟨0, .sa, warmLong, 11, 1024, by decide +kernel⟩,
   ⟨0, .sa, warm, 0, by decide +kernel⟩,
   ⟨0, .sa, drowsy, 11, 1024, by decide +kernel⟩,
   ⟨0, .sa, asleep, by decide +kernel⟩,
   ⟨0, .sa, wakingSynth, 11, by decide +kernel⟩,
   ⟨0, .sa, quiet, 11, by decide +kernel⟩⟩

theorem witness_AccessAndNeighbours :
    (∃ (dt : Nat) (f : Fe) (s : State) (c : Cand), (s.tick dt).radio = true ∧ (s.tick dt).feMode f ≠ FeMode.off ∧
      ((s.tick dt).feSt f).attempt = none ∧ ((s.tick dt).feSt f).ackWait = none ∧ ((s.tick dt).feSt f).rfTest = none ∧
      ((s.tick dt).feSt f).beacon = none ∧ (s.tick dt).isl.step < 3 ∧ (s.tick dt).contention f (s.tick dt).netNs = false ∧
      ((s.tick dt).prepare f).choose f = some c ∧ ((s.tick dt).prepare f).refusal f c.retry.frame c.channel = none) ∧
    (∃ (dt : Nat) (f : Fe) (s : State), (s.tick dt).radio = true ∧ (s.tick dt).feMode f ≠ FeMode.off ∧
      ((s.tick dt).feSt f).attempt = none ∧ ((s.tick dt).feSt f).ackWait = none ∧ (((s.tick dt).feSt f).rfTest).isSome = true ∧
      ((s.tick dt).feSt f).rfTest.any (·.mode = 2) = false ∧ (s.tick dt).isl.step < 3 ∧
      (((s.tick dt).feSt f).rfTest.bind (fun t => (s.tick dt).subBand f t.channel)).isSome = true) ∧
    (∃ (dt : Nat) (f : Fe) (s : State), (s.tick dt).radio = true ∧ (s.tick dt).feMode f ≠ FeMode.off ∧
      ((s.tick dt).feSt f).attempt = none ∧ ((s.tick dt).feSt f).ackWait = none ∧ (((s.tick dt).feSt f).rfTest).isSome = true ∧
      (((s.tick dt).feSt f).rfTest.any (·.mode = 2) = true ∨ 3 ≤ (s.tick dt).isl.step)) ∧
    (∃ (dt : Nat) (f : Fe) (s : State), (s.tick dt).radio = true ∧ (s.tick dt).feMode f ≠ FeMode.off ∧
      ((s.tick dt).feSt f).attempt = none ∧ ((s.tick dt).feSt f).ackWait = none ∧ ((s.tick dt).feSt f).rfTest = none ∧
      (((s.tick dt).feSt f).beacon).isSome = true ∧ ((s.tick dt).beaconEntry f (s.tick dt).netNs).isSome = true) ∧
    (∃ (dt : Nat) (f : Fe) (s : State) (a : Attempt), (((s.tick dt).feSt f).attempt ≠ none ∨ ((s.tick dt).feSt f).ackWait ≠ none) ∧
      ((s.tick dt).feSt f).attempt = some a ∧ a.phase = CsmaPhase.backoff ∧ a.waitEnd ≤ (s.tick dt).clk ∧
      (s.tick dt).ackOwedOn f = false ∧ (s.tick dt).blanked f = false ∧ (s.tick dt).feMode f ≠ FeMode.off ∧
      (∀ (b : Nat), a.bound = some b → (s.tick dt).netNs ≤ b) ∧
      ((∃ k, a.body = CsmaBody.beacon k) ∨ (s.tick dt).contention f (s.tick dt).netNs = false ∧ (s.tick dt).isl.step < 3 ∧
      (s.tick dt).laneLacks f a = false) ∧ (s.tick dt).contention f (s.tick dt).netNs = false ∧ (s.tick dt).isl.step < 3 ∧
      (s.tick dt).laneLacks f a = false ∧ (∀ (k : Nat), a.body ≠ CsmaBody.beacon k) ∧
      (s.tick dt).admits a.sub a.air TxClass.other = true) ∧
    (∃ (dt : Nat) (f : Fe) (s : State) (a : Attempt), (((s.tick dt).feSt f).attempt ≠ none ∨ ((s.tick dt).feSt f).ackWait ≠ none) ∧
      ((s.tick dt).feSt f).attempt = some a ∧ a.phase = CsmaPhase.backoff ∧ a.waitEnd ≤ (s.tick dt).clk ∧
      (s.tick dt).ackOwedOn f = false ∧ (s.tick dt).blanked f = false ∧ (s.tick dt).feMode f ≠ FeMode.off ∧
      (∀ (b : Nat), a.bound = some b → (s.tick dt).netNs ≤ b) ∧
      ((∃ k, a.body = CsmaBody.beacon k) ∨ (s.tick dt).contention f (s.tick dt).netNs = false ∧ (s.tick dt).isl.step < 3 ∧
      (s.tick dt).laneLacks f a = false) ∧ (s.tick dt).contention f (s.tick dt).netNs = false ∧ (s.tick dt).isl.step < 3 ∧
      (s.tick dt).laneLacks f a = false ∧ (∀ (k : Nat), a.body ≠ CsmaBody.beacon k) ∧
      (s.tick dt).admits a.sub a.air TxClass.other = true) ∧
    (∃ (dt : Nat) (f : Fe) (s : State) (a : Attempt), (((s.tick dt).feSt f).attempt ≠ none ∨ ((s.tick dt).feSt f).ackWait ≠ none) ∧
      ((s.tick dt).feSt f).attempt = some a ∧ a.phase = CsmaPhase.backoff ∧ a.waitEnd ≤ (s.tick dt).clk ∧
      (s.tick dt).ackOwedOn f = false ∧ (s.tick dt).blanked f = false ∧ (s.tick dt).feMode f ≠ FeMode.off ∧
      (∀ (b : Nat), a.bound = some b → (s.tick dt).netNs ≤ b) ∧
      ((∃ k, a.body = CsmaBody.beacon k) ∨ (s.tick dt).contention f (s.tick dt).netNs = false ∧ (s.tick dt).isl.step < 3 ∧
      (s.tick dt).laneLacks f a = false)) ∧
    (∃ (dt : Nat) (f : Fe) (s : State) (a : Attempt), (((s.tick dt).feSt f).attempt ≠ none ∨ ((s.tick dt).feSt f).ackWait ≠ none) ∧
      ((s.tick dt).feSt f).attempt = some a ∧ a.phase = CsmaPhase.backoff ∧ (s.tick dt).clk < a.waitEnd) ∧
    (∃ (dt : Nat) (f : Fe) (s : State) (a : Attempt) (power : ℤ) (met : Bool), (((s.tick dt).feSt f).attempt ≠ none ∨ ((s.tick dt).feSt f).ackWait ≠ none) ∧
      ((s.tick dt).feSt f).attempt = some a ∧ a.phase = CsmaPhase.sensing ∧
      a.senseStart + (s.tick dt).senseUs a.sub * 1000 ≤ (s.tick dt).netNs ∧ met = false ∧ a.void = false ∧
      (s.tick dt).blanked f = false ∧ a.refused = false ∧ power ≤ (s.tick dt).senseThr a.sub) ∧
    (∃ (dt : Nat) (f : Fe) (s : State) (a : Attempt) (power : ℤ) (met : Bool), (((s.tick dt).feSt f).attempt ≠ none ∨ ((s.tick dt).feSt f).ackWait ≠ none) ∧
      ((s.tick dt).feSt f).attempt = some a ∧ a.phase = CsmaPhase.sensing ∧
      a.senseStart + (s.tick dt).senseUs a.sub * 1000 ≤ (s.tick dt).netNs ∧ met = false ∧ a.void = false ∧
      (s.tick dt).blanked f = false ∧ (a.refused = true ∨ (s.tick dt).senseThr a.sub < power) ∧ a.nb + 1 ≤ (s.tick dt).maxBackoffs) ∧
    (∃ (dt : Nat) (f : Fe) (s : State) (a : Attempt) (power : ℤ) (met : Bool), (((s.tick dt).feSt f).attempt ≠ none ∨ ((s.tick dt).feSt f).ackWait ≠ none) ∧
      ((s.tick dt).feSt f).attempt = some a ∧ a.phase = CsmaPhase.sensing ∧
      a.senseStart + (s.tick dt).senseUs a.sub * 1000 ≤ (s.tick dt).netNs ∧ met = false ∧ a.void = false ∧
      (s.tick dt).blanked f = false ∧ (a.refused = true ∨ (s.tick dt).senseThr a.sub < power) ∧ (s.tick dt).maxBackoffs < a.nb + 1) ∧
    (∃ (dt : Nat) (f : Fe) (s : State) (a : Attempt) (met : Bool), (((s.tick dt).feSt f).attempt ≠ none ∨ ((s.tick dt).feSt f).ackWait ≠ none) ∧
      ((s.tick dt).feSt f).attempt = some a ∧ a.phase = CsmaPhase.sensing ∧
      a.senseStart + (s.tick dt).senseUs a.sub * 1000 ≤ (s.tick dt).netNs ∧ (met = true ∨ a.void = true ∨ (s.tick dt).blanked f = true)) ∧
    (∃ (dt : Nat) (f : Fe) (s : State) (a : Attempt), (((s.tick dt).feSt f).attempt ≠ none ∨ ((s.tick dt).feSt f).ackWait ≠ none) ∧
      ((s.tick dt).feSt f).attempt = some a ∧ (s.tick dt).netNs < a.senseStart + (s.tick dt).senseUs a.sub * 1000) ∧
    (∃ (dt : Nat) (f : Fe) (s : State) (w : AckWait), (((s.tick dt).feSt f).attempt ≠ none ∨ ((s.tick dt).feSt f).ackWait ≠ none) ∧
      ((s.tick dt).feSt f).ackWait = some w ∧ w.deadline ≤ (s.tick dt).netNs ∧ (s.tick dt).ackInFlight f w = false) ∧
    (∃ (dt : Nat) (f : Fe) (s : State) (w : AckWait), (((s.tick dt).feSt f).attempt ≠ none ∨ ((s.tick dt).feSt f).ackWait ≠ none) ∧
      ((s.tick dt).feSt f).ackWait = some w ∧ w.deadline ≤ (s.tick dt).netNs ∧ (s.tick dt).ackInFlight f w = false) ∧
    (∃ (dt : Nat) (f : Fe) (s : State) (w : AckWait), (((s.tick dt).feSt f).attempt ≠ none ∨ ((s.tick dt).feSt f).ackWait ≠ none) ∧
      ((s.tick dt).feSt f).ackWait = some w ∧ (s.tick dt).netNs < w.deadline) ∧
    (∃ (dt : Nat) (s : State) (n : Nbr) (e : Nat), (s.tick dt).mac.nbrs = [n] ∧ n.expected = some e ∧
      e + (s.tick dt).nbrTolMs * 1000000 ≤ (s.tick dt).netNs ∧ n.sfdNs + (s.tick dt).nbrTolMs * 1000000 < e ∧
      (∃ l, ((s.tick dt).lane l).assigned = some (n.fe, n.channel) ∧
      ((s.tick dt).lane l).since ≤ (fun x => (s.tick dt).clk - ((s.tick dt).netNs - (x - (s.tick dt).nbrTolMs * 1000000)) / 4) e) ∧
      n.misses = 2 ∧ n.lapsed = false) ∧
    (∃ (dt : Nat) (s : State) (n : Nbr) (e : Nat), (s.tick dt).mac.nbrs = [n] ∧ n.expected = some e ∧
      e + (s.tick dt).nbrTolMs * 1000000 ≤ (s.tick dt).netNs ∧ e ≤ n.sfdNs + (s.tick dt).nbrTolMs * 1000000 ∧
      n.sfdNs ≤ e + (s.tick dt).nbrTolMs * 1000000) ∧
    (∃ (dt : Nat) (s : State) (n : Nbr) (e : Nat), (s.tick dt).mac.nbrs = [n] ∧ n.expected = some e ∧
      (s.tick dt).netNs < e + (s.tick dt).nbrTolMs * 1000000) :=
  ⟨⟨0, .sa, eligible, aCand, by decide +kernel⟩,
   ⟨0, .sa, testingSend, by decide +kernel⟩,
   ⟨0, .sa, testingListen, by decide +kernel⟩,
   ⟨0, .sa, beaconDue, by decide +kernel⟩,
   ⟨0, .sa, attemptingHeard .backoff (some 100000160000), anAttempt .backoff (some 100000160000), by decide +kernel, by decide +kernel,
     by decide +kernel, by decide +kernel, by decide +kernel, by decide +kernel,
     by decide +kernel, (by intro b h; cases h; decide +kernel), Or.inr (by decide +kernel), by decide +kernel, by decide +kernel,
     by decide +kernel, (by intro k h; cases h), by decide +kernel⟩,
   ⟨0, .sa, attemptingHeard .backoff none, anAttempt .backoff none, by decide +kernel, by decide +kernel, by decide +kernel,
     by decide +kernel, by decide +kernel, by decide +kernel, by decide +kernel, (by intro b h; cases h), Or.inr (by decide +kernel),
     by decide +kernel, by decide +kernel, by decide +kernel, (by intro k h; cases h), by decide +kernel⟩,
   ⟨0, .sa, attemptingBeacon, beaconAttempt, by decide +kernel, by decide +kernel, by decide +kernel, by decide +kernel,
     by decide +kernel, by decide +kernel, by decide +kernel, (by intro b h; cases h; decide +kernel), Or.inl ⟨511, rfl⟩⟩,
   ⟨0, .sa, waitingBack, { anAttempt .backoff none with waitEnd := 1025 }, by decide +kernel⟩,
   ⟨0, .sa, attempting .sensing none, anAttempt .sensing none, -120, false, by decide +kernel⟩,
   ⟨0, .sa, sensingBusy, refusedAttempt, 0, false, by decide +kernel⟩,
   ⟨0, .sa, sensingLast, { refusedAttempt with nb := 9 }, 0, false, by decide +kernel⟩,
   ⟨0, .sa, attempting .sensing none, anAttempt .sensing none, true, by decide +kernel⟩,
   ⟨0, .sa, sensingEarly, { anAttempt .sensing none with senseStart := 99999999999 }, by decide +kernel⟩,
   ⟨0, .sa, awaiting 0 100000000000, aWait 0 100000000000, by decide +kernel⟩,
   ⟨0, .sa, awaiting 3 100000000000, aWait 3 100000000000, by decide +kernel⟩,
   ⟨0, .sa, awaiting 0 100000000001, aWait 0 100000000001, by decide +kernel⟩,
   ⟨0, neighboured 0 99980000000, aNbr 0 99980000000, 99980000000, by decide +kernel, by decide +kernel, by decide +kernel,
     by decide +kernel, ⟨0, by decide +kernel⟩, by decide +kernel, by decide +kernel⟩,
   ⟨0, neighboured 99960000000 99980000000, aNbr 99960000000 99980000000, 99980000000, by decide +kernel⟩,
   ⟨0, neighboured 0 99980000001, aNbr 0 99980000001, 99980000001, by decide +kernel⟩⟩

theorem witness_WakeCycle :
    (∃ (dt : Nat) (f : Fe) (s : State) (start : Nat) (close : Nat) (ch : Nat), (s.tick dt).radio = true ∧
      (s.tick dt).beaconEntry f (s.tick dt).netNs = some (start, close, ch) ∧ (s.tick dt).hasBeacon f = true ∧
      ((s.tick dt).feSt f).beaconFrom ≠ start ∧ (s.tick dt).feMode f ≠ FeMode.off ∧ ((s.tick dt).feSt f).rfTest = none ∧
      ((s.tick dt).feSt f).beacon = none ∧
      (((s.tick dt).gates f).shadow = none ∨ (s.tick dt).netNs / 2048000000 * 2048000000 < ((s.tick dt).gates f).notBefore) ∧
      (∀ w ∈ (s.tick dt).wake.flows, w.far = true → (s.tick dt).netNs < w.eligible) ∧ (s.tick dt).operating = true ∧
      (s.tick dt).wake.sampleMs ≠ (s.tick dt).netNs / 1000000) ∧
    (∃ (dt : Nat) (f : Fe) (s : State) (start : Nat) (close : Nat) (ch : Nat), (s.tick dt).radio = true ∧
      (s.tick dt).beaconEntry f (s.tick dt).netNs = some (start, close, ch) ∧ (s.tick dt).hasBeacon f = true ∧
      ((s.tick dt).feSt f).beaconFrom ≠ start ∧ (s.tick dt).feMode f ≠ FeMode.off ∧ ((s.tick dt).feSt f).rfTest = none ∧
      ((s.tick dt).feSt f).beacon ≠ none ∧
      (((s.tick dt).gates f).shadow = none ∨ (s.tick dt).netNs / 2048000000 * 2048000000 < ((s.tick dt).gates f).notBefore) ∧
      (∀ w ∈ (s.tick dt).wake.flows, w.far = true → (s.tick dt).netNs < w.eligible) ∧ (s.tick dt).operating = true ∧
      (s.tick dt).wake.sampleMs ≠ (s.tick dt).netNs / 1000000) ∧
    (∃ (dt : Nat) (f : Fe) (s : State) (start : Nat) (close : Nat) (ch : Nat), (s.tick dt).radio = true ∧
      (s.tick dt).beaconEntry f (s.tick dt).netNs = some (start, close, ch) ∧ (s.tick dt).hasBeacon f = true ∧
      ((s.tick dt).feSt f).beaconFrom ≠ start ∧ ((s.tick dt).feSt f).beacon = none ∧
      ((s.tick dt).feMode f = FeMode.off ∨ ((s.tick dt).feSt f).rfTest ≠ none) ∧
      (((s.tick dt).gates f).shadow = none ∨ (s.tick dt).netNs / 2048000000 * 2048000000 < ((s.tick dt).gates f).notBefore) ∧
      (∀ w ∈ (s.tick dt).wake.flows, w.far = true → (s.tick dt).netNs < w.eligible) ∧ (s.tick dt).operating = true ∧
      (s.tick dt).wake.sampleMs ≠ (s.tick dt).netNs / 1000000) ∧
    (∃ (dt : Nat) (f : Fe) (s : State) (start : Nat) (close : Nat) (ch : Nat), (s.tick dt).radio = true ∧
      (s.tick dt).beaconEntry f (s.tick dt).netNs = some (start, close, ch) ∧ (s.tick dt).hasBeacon f = true ∧
      ((s.tick dt).feSt f).beaconFrom = start ∧ ((s.tick dt).feSt f).beacon = none ∧
      (((s.tick dt).gates f).shadow = none ∨ (s.tick dt).netNs / 2048000000 * 2048000000 < ((s.tick dt).gates f).notBefore) ∧
      (∀ w ∈ (s.tick dt).wake.flows, w.far = true → (s.tick dt).netNs < w.eligible) ∧ (s.tick dt).operating = true ∧
      (s.tick dt).wake.sampleMs ≠ (s.tick dt).netNs / 1000000) ∧
    (∃ (dt : Nat) (f : Fe) (s : State) (l : List (BitVec 64)), ((s.tick dt).radio = false ∨ ((s.tick dt).feSt f).beacon = none ∧
      (s.tick dt).beaconEntry f (s.tick dt).netNs = none) ∧ (s.tick dt).radio = true ∧ ((s.tick dt).gates f).shadow = some l ∧
      ((s.tick dt).gates f).notBefore ≤ (s.tick dt).netNs / 2048000000 * 2048000000 ∧
      (∀ w ∈ (s.tick dt).wake.flows, w.far = true → (s.tick dt).netNs < w.eligible) ∧ (s.tick dt).operating = true ∧
      (s.tick dt).wake.sampleMs ≠ (s.tick dt).netNs / 1000000) ∧
    (∃ (dt : Nat) (f : Fe) (s : State), (((s.tick dt).gates f).shadow = none ∨ (s.tick dt).netNs / 2048000000 * 2048000000 < ((s.tick dt).gates f).notBefore) ∧
      (s.tick dt).radio = true ∧ (∀ w ∈ (s.tick dt).wake.flows, w.far = true → (s.tick dt).netNs < w.eligible) ∧
      (s.tick dt).operating = true ∧ (s.tick dt).wake.sampleMs ≠ (s.tick dt).netNs / 1000000) ∧
    (∃ (dt : Nat) (f : Fe) (s : State), ((s.tick dt).radio = false ∨ ((s.tick dt).feSt f).beacon = none ∧
      (s.tick dt).beaconEntry f (s.tick dt).netNs = none) ∧
      (((s.tick dt).gates f).shadow = none ∨ (s.tick dt).netNs / 2048000000 * 2048000000 < ((s.tick dt).gates f).notBefore) ∧
      (s.tick dt).radio = true ∧ (∀ w ∈ (s.tick dt).wake.flows, w.far = true → (s.tick dt).netNs < w.eligible) ∧
      (s.tick dt).operating = true ∧ (s.tick dt).wake.sampleMs ≠ (s.tick dt).netNs / 1000000) ∧
    (∃ (dt : Nat) (f : Fe) (s : State), ((s.tick dt).radio = false ∨ ((s.tick dt).feSt f).beacon = none ∧
      (s.tick dt).beaconEntry f (s.tick dt).netNs = none) ∧
      (((s.tick dt).gates f).shadow = none ∨ (s.tick dt).netNs / 2048000000 * 2048000000 < ((s.tick dt).gates f).notBefore) ∧
      (s.tick dt).radio = false ∧ (s.tick dt).operating = true ∧ (s.tick dt).wake.sampleMs ≠ (s.tick dt).netNs / 1000000) ∧
    (∃ (dt : Nat) (f : Fe) (s : State), ((s.tick dt).radio = false ∨ ((s.tick dt).feSt f).beacon = none ∧
      (s.tick dt).beaconEntry f (s.tick dt).netNs = none) ∧
      (((s.tick dt).gates f).shadow = none ∨ (s.tick dt).netNs / 2048000000 * 2048000000 < ((s.tick dt).gates f).notBefore) ∧
      (s.tick dt).radio = true ∧ (∀ w ∈ (s.tick dt).wake.flows, w.far = true → (s.tick dt).netNs < w.eligible) ∧
      (s.tick dt).operating = true ∧ (s.tick dt).wake.sampleMs ≠ (s.tick dt).netNs / 1000000) ∧
    (∃ (dt : Nat) (f : Fe) (s : State), ((s.tick dt).radio = false ∨ ((s.tick dt).feSt f).beacon = none ∧
      (s.tick dt).beaconEntry f (s.tick dt).netNs = none) ∧
      (((s.tick dt).gates f).shadow = none ∨ (s.tick dt).netNs / 2048000000 * 2048000000 < ((s.tick dt).gates f).notBefore) ∧
      (s.tick dt).radio = true ∧ (∀ w ∈ (s.tick dt).wake.flows, w.far = true → (s.tick dt).netNs < w.eligible) ∧
      (s.tick dt).wake.sampleMs = (s.tick dt).netNs / 1000000) :=
  ⟨⟨0, .sa, gated none 0, 99904000000, 100004000000, 5, by decide +kernel⟩,
   ⟨0, .sa, gatedDue, 99904000000, 100004000000, 5, by decide +kernel⟩,
   ⟨0, .sa, gatedOff, 99904000000, 100004000000, 5, by decide +kernel⟩,
   ⟨0, .sa, gatedOnce, 99904000000, 100004000000, 5, by decide +kernel⟩,
   ⟨0, .sa, gated (some [5]) 0, [5], by decide +kernel⟩,
   ⟨0, .sa, gated (some [5]) 100000000000, by decide +kernel⟩,
   ⟨0, .sa, flowing, by decide +kernel⟩,
   ⟨0, .sa, quiet, by decide +kernel⟩,
   ⟨0, .sa, farOnly, by decide +kernel⟩,
   ⟨0, .sa, sampledNow, by decide +kernel⟩⟩

theorem witness_CipherJobs :
    (∃ (dt : Nat) (job : Word) (input : Octets) (pad : Octets) (s : State) (i : Nat) (k : Nat), (s.tick dt).jobsRun = true ∧
      ((s.tick dt).jobPut (jobSrc (jobClean job)) (List.take (jobLength (jobClean job)) input)).jobTarget (jobClean job) = some i ∧
      ((s.tick dt).jobPut (jobSrc (jobClean job)) (List.take (jobLength (jobClean job)) input)).jobAllowed (jobClean job) i = true ∧
      jobPadded (jobPad (jobClean job)) (((s.tick dt).jobPut (jobSrc (jobClean job)) (List.take (jobLength (jobClean job)) input)).jobIn (jobSrc (jobClean job)) (jobLength (jobClean job))) = some pad ∧
      (s.tick dt).crypto.waiting = [] ∧ (s.tick dt).idleUnit = some k) ∧
    (∃ (dt : Nat) (job : Word) (input : Octets) (s : State) (i : Nat), (s.tick dt).jobsRun = true ∧
      ((s.tick dt).jobPut (jobSrc (jobClean job)) (List.take (jobLength (jobClean job)) input)).jobTarget (jobClean job) = some i ∧
      ((s.tick dt).jobPut (jobSrc (jobClean job)) (List.take (jobLength (jobClean job)) input)).jobAllowed (jobClean job) i = true ∧
      jobPadded (jobPad (jobClean job)) (((s.tick dt).jobPut (jobSrc (jobClean job)) (List.take (jobLength (jobClean job)) input)).jobIn (jobSrc (jobClean job)) (jobLength (jobClean job))) = none) ∧
    (∃ (dt : Nat) (job : Word) (input : Octets) (s : State) (i : Nat), (s.tick dt).jobsRun = true ∧
      ((s.tick dt).jobPut (jobSrc (jobClean job)) (List.take (jobLength (jobClean job)) input)).jobTarget (jobClean job) = some i ∧
      ((s.tick dt).jobPut (jobSrc (jobClean job)) (List.take (jobLength (jobClean job)) input)).jobAllowed (jobClean job) i = false) ∧
    (∃ (dt : Nat) (job : Word) (input : Octets) (u0 : Fin 4) (s : State) (i : Nat) (j : CJob), (s.tick dt).jobsRun = true ∧
      ((s.tick dt).jobPut (jobSrc (jobClean job)) (List.take (jobLength (jobClean job)) input)).jobTarget (jobClean job) = some i ∧
      ((s.tick dt).jobPut (jobSrc (jobClean job)) (List.take (jobLength (jobClean job)) input)).jobAllowed (jobClean job) i = false ∧
      (s.tick dt).crypto.unitJob.get ↑u0 = some j ∧ j.stale = none ∧ (s.tick dt).crypto.waiting = [] ∧ List.length j.output % 16 = 0 ∧
      List.length j.output ≤ 4096) :=
  ⟨⟨0, aJob 47 0 0 16, (List.range 16).map (BitVec.ofNat 8), (List.range 16).map (BitVec.ofNat 8), jobbing, 47, 0, by decide +kernel⟩,
   ⟨0, aJob 47 0 0 15, (List.range 16).map (BitVec.ofNat 8), jobbing, 47, by decide +kernel⟩,
   ⟨0, aJob 47 1 0 16, (List.range 16).map (BitVec.ofNat 8), jobbing, 47, by decide +kernel⟩,
   ⟨0, aJob 47 1 0 16, [], 0, jobRunning, 47, aCJob, by decide +kernel⟩⟩

theorem witness_CanopyRows :
    (∃ (dt : Nat) (s : State) (e : CanopyEnv) (f : Fe) (i : Nat) (n : Node), (s.tick dt).firmware = true ∧
      (s.tick dt).life.radioOn = true ∧ (s.tick dt).canopy.round ≤ ((s.tick dt).clk - (s.tick dt).canopy.radioClk) / 250000000 ∧
      e.late = true ∧ ((s.tick dt).node i = none ∨ (s.tick dt).node i = some n ∧ n.pending = false) ∧
      (((s.tick dt).feSt f).move = none ∨ ((s.tick dt).feSt f).cur ≠ none ∨ ((s.tick dt).feSt f).held ≠ none ∨ ((s.tick dt).feSt f).posted ≠ [] ∨ (s.tick dt).feMode f ≠ FeMode.rx)) ∧
    (∃ (dt : Nat) (s : State) (e : CanopyEnv) (f : Fe) (i : Nat) (n : Node), (s.tick dt).firmware = true ∧
      (s.tick dt).life.radioOn = true ∧ (s.tick dt).canopy.round ≤ ((s.tick dt).clk - (s.tick dt).canopy.radioClk) / 250000000 ∧
      e.late = false ∧ ((s.tick dt).node i = none ∨ (s.tick dt).node i = some n ∧ n.pending = false) ∧
      (((s.tick dt).feSt f).move = none ∨ ((s.tick dt).feSt f).cur ≠ none ∨ ((s.tick dt).feSt f).held ≠ none ∨ ((s.tick dt).feSt f).posted ≠ [] ∨ (s.tick dt).feMode f ≠ FeMode.rx)) ∧
    (∃ (dt : Nat) (s : State) (f : Fe) (i : Nat) (n : Node), (((s.tick dt).clk - (s.tick dt).canopy.radioClk) / 250000000 < (s.tick dt).canopy.round ∨ (s.tick dt).firmware = false ∨ (s.tick dt).life.radioOn = false) ∧
      ((s.tick dt).node i = none ∨ (s.tick dt).node i = some n ∧ n.pending = false) ∧
      (((s.tick dt).feSt f).move = none ∨ ((s.tick dt).feSt f).cur ≠ none ∨ ((s.tick dt).feSt f).held ≠ none ∨ ((s.tick dt).feSt f).posted ≠ [] ∨ (s.tick dt).feMode f ≠ FeMode.rx)) ∧
    (∃ (dt : Nat) (s : State) (e : CanopyEnv) (f : Fe) (i : Nat) (n : Node) (mv : SliceMove), (s.tick dt).firmware = true ∧
      (s.tick dt).life.radioOn = true ∧ (s.tick dt).canopy.round ≤ ((s.tick dt).clk - (s.tick dt).canopy.radioClk) / 250000000 ∧
      e.late = false ∧ ((s.tick dt).node i = none ∨ (s.tick dt).node i = some n ∧ n.pending = false) ∧
      ((s.tick dt).feSt f).move = some mv ∧ ((s.tick dt).feSt f).cur = none ∧ ((s.tick dt).feSt f).held = none ∧
      ((s.tick dt).feSt f).posted = [] ∧ (s.tick dt).feMode f = FeMode.rx ∧
      ((∀ l ∈ (s.tick dt).lanesOn f, (s.tick dt).frameEndOf l = none) ∨ mv.clk + 12500000 ≤ (s.tick dt).clk)) ∧
    (∃ (dt : Nat) (s : State) (e : CanopyEnv) (f : Fe) (i : Nat) (n : Node), (s.tick dt).firmware = true ∧
      (s.tick dt).life.radioOn = true ∧ (s.tick dt).canopy.round ≤ ((s.tick dt).clk - (s.tick dt).canopy.radioClk) / 250000000 ∧
      e.late = false ∧ ((s.tick dt).node i = none ∨ (s.tick dt).node i = some n ∧ n.pending = false) ∧
      (((s.tick dt).feSt f).move = none ∨ ((s.tick dt).feSt f).cur ≠ none ∨ ((s.tick dt).feSt f).held ≠ none ∨ ((s.tick dt).feSt f).posted ≠ [] ∨ (s.tick dt).feMode f ≠ FeMode.rx)) ∧
    (∃ (dt : Nat) (s : State) (e : CanopyEnv) (f : Fe) (i : Nat) (n : Node), (s.tick dt).firmware = true ∧
      (s.tick dt).life.radioOn = true ∧ (s.tick dt).canopy.round ≤ ((s.tick dt).clk - (s.tick dt).canopy.radioClk) / 250000000 ∧
      e.late = false ∧
      (((s.tick dt).feSt f).move = none ∨ ((s.tick dt).feSt f).cur ≠ none ∨ ((s.tick dt).feSt f).held ≠ none ∨ ((s.tick dt).feSt f).posted ≠ [] ∨ (s.tick dt).feMode f ≠ FeMode.rx) ∧
      (s.tick dt).node i = some n ∧ n.pending = true ∧ (s.tick dt).effSecond n * 1000000000 ≤ (s.tick dt).netNs) ∧
    (∃ (dt : Nat) (s : State) (e : CanopyEnv) (f : Fe) (i : Nat) (n : Node) (c : Course), (s.tick dt).firmware = true ∧
      (s.tick dt).life.radioOn = true ∧ (s.tick dt).canopy.round ≤ ((s.tick dt).clk - (s.tick dt).canopy.radioClk) / 250000000 ∧
      e.late = false ∧
      (((s.tick dt).feSt f).move = none ∨ ((s.tick dt).feSt f).cur ≠ none ∨ ((s.tick dt).feSt f).held ≠ none ∨ ((s.tick dt).feSt f).posted ≠ [] ∨ (s.tick dt).feMode f ≠ FeMode.rx) ∧
      (s.tick dt).node i = some n ∧ n.pending = true ∧ (s.tick dt).netNs < (s.tick dt).effSecond n * 1000000000 ∧
      (s.tick dt).canopy.course.get i = some c ∧ c.begun = false ∧ c.effNs ≤ (s.tick dt).netNs + 2 ^ n.moveExp * 2048000000) ∧
    (∃ (dt : Nat) (s : State) (e : CanopyEnv) (f : Fe) (i : Nat) (n : Node) (c : Course), (s.tick dt).firmware = true ∧
      (s.tick dt).life.radioOn = true ∧ (s.tick dt).canopy.round ≤ ((s.tick dt).clk - (s.tick dt).canopy.radioClk) / 250000000 ∧
      e.late = false ∧
      (((s.tick dt).feSt f).move = none ∨ ((s.tick dt).feSt f).cur ≠ none ∨ ((s.tick dt).feSt f).held ≠ none ∨ ((s.tick dt).feSt f).posted ≠ [] ∨ (s.tick dt).feMode f ≠ FeMode.rx) ∧
      (s.tick dt).node i = some n ∧ n.pending = true ∧ (s.tick dt).netNs < (s.tick dt).effSecond n * 1000000000 ∧
      (s.tick dt).canopy.course.get i = some c ∧ c.begun = true) ∧
    (∃ (dt : Nat) (s : State) (e : CanopyEnv) (f : Fe) (ch : Nat) (x : Unwatched), (s.tick dt).firmware = true ∧
      (s.tick dt).life.radioOn = true ∧ (s.tick dt).canopy.round ≤ ((s.tick dt).clk - (s.tick dt).canopy.radioClk) / 250000000 ∧
      e.late = false ∧
      (((s.tick dt).feSt f).move = none ∨ ((s.tick dt).feSt f).cur ≠ none ∨ ((s.tick dt).feSt f).held ≠ none ∨ ((s.tick dt).feSt f).posted ≠ [] ∨ (s.tick dt).feMode f ≠ FeMode.rx) ∧
      List.find? (fun z => z.fe == feCode f && z.hz == (s.tick dt).freqOf f ch) (s.tick dt).noteUnwatched.canopy.unwatched = some x ∧
      x.raised = none ∧ x.since + 15000000000 ≤ (s.tick dt).clk) ∧
    (∃ (dt : Nat) (s : State) (f : Fe) (i : Nat) (n : Node), (((s.tick dt).clk - (s.tick dt).canopy.radioClk) / 250000000 < (s.tick dt).canopy.round ∨ (s.tick dt).firmware = false ∨ (s.tick dt).life.radioOn = false) ∧
      ((s.tick dt).node i = none ∨ (s.tick dt).node i = some n ∧ n.pending = false) ∧
      ((s.tick dt).firmware = false ∨ (s.tick dt).life.radioOn = false) ∧
      (((s.tick dt).feSt f).move = none ∨ ((s.tick dt).feSt f).cur ≠ none ∨ ((s.tick dt).feSt f).held ≠ none ∨ ((s.tick dt).feSt f).posted ≠ [] ∨ (s.tick dt).feMode f ≠ FeMode.rx)) ∧
    (∃ (dt : Nat) (s : State) (e : CanopyEnv) (f : Fe) (i : Nat) (n : Node) (mv : SliceMove), (s.tick dt).firmware = true ∧
      (s.tick dt).life.radioOn = true ∧ (s.tick dt).canopy.round ≤ ((s.tick dt).clk - (s.tick dt).canopy.radioClk) / 250000000 ∧
      e.late = false ∧ ((s.tick dt).node i = none ∨ (s.tick dt).node i = some n ∧ n.pending = false) ∧
      ((s.tick dt).feSt f).move = some mv ∧ (∃ l ∈ (s.tick dt).lanesOn f, (s.tick dt).frameEndOf l ≠ none) ∧
      (s.tick dt).clk < mv.clk + 12500000) :=
  ⟨⟨0, roundDue 0, lateEnv, .sa, 0, aNode, by decide +kernel⟩,
   ⟨0, roundDue 0, cenv, .sa, 0, aNode, by decide +kernel⟩,
   ⟨0, roundDue 1, .sa, 0, aNode, by decide +kernel⟩,
   ⟨0, moving none, cenv, .sa, 0, aNode, aMove, by decide +kernel⟩,
   ⟨0, moving (some (aReq 0 0 0)), cenv, .sa, 0, aNode, by decide +kernel⟩,
   ⟨0, pendingAssign 100 [], cenv, .sa, 0, pendingNode 100, by decide +kernel⟩,
   ⟨0, pendingAssign 101 [(0, aCourse false 102048000000)], cenv, .sa, 0, pendingNode 101, aCourse false 102048000000, by decide +kernel⟩,
   ⟨0, pendingAssign 101 [(0, aCourse true 102048000000)], cenv, .sa, 0, pendingNode 101, aCourse true 102048000000, by decide +kernel⟩,
   ⟨0, unwatching, cenv, .sa, 0, anUnwatched, by decide +kernel⟩,
   ⟨0, noRadio, .sa, 0, pendingNode 101, by decide +kernel⟩,
   ⟨0, movingBusy, cenv, .sa, 0, aNode, aMove, by decide +kernel⟩⟩

theorem witness_FaultsAndThermalSteps :
    (∃ (dt : Nat) (s : State) (c : Fin 4) (f : Fe) (p : Port) (h : TagHolder), (s.tick dt).powered = true ∧
      (s.tick dt).dec.out.getD (↑c) true = false ∧ (s.tick dt).isl.mcoreOut.getD (↑c) true = false ∧ (s.tick dt).hasFe f = true ∧
      ((s.tick dt).feSt f).faulty = false ∧ ((s.tick dt).port p).out = false ∧ (s.tick dt).crypto.unitOut.getD (↑c) true = false ∧
      (s.tick dt).crypto.unitJob.get ↑c = none ∧ (s.tick dt).isl.reclaims = [] ∧ (s.tick dt).hasHolder h = true ∧
      Island.cpu ∉ (s.tick dt).isl.islandOut) ∧
    (∃ (dt : Nat) (s : State) (c : Fin 4) (f : Fe) (p : Port) (h : TagHolder), (s.tick dt).powered = true ∧
      (s.tick dt).dec.out.getD (↑c) true = false ∧ (s.tick dt).isl.mcoreOut.getD (↑c) true = false ∧ (s.tick dt).hasFe f = true ∧
      ((s.tick dt).feSt f).faulty = false ∧ ((s.tick dt).port p).out = false ∧ (s.tick dt).crypto.unitOut.getD (↑c) true = false ∧
      (s.tick dt).crypto.unitJob.get ↑c = none ∧ (s.tick dt).isl.reclaims = [] ∧ (s.tick dt).hasHolder h = true ∧
      Island.cpu ∉ (s.tick dt).isl.islandOut) ∧
    (∃ (dt : Nat) (s : State) (c : Fin 4) (f : Fe) (p : Port) (h : TagHolder) (i : Island), (s.tick dt).powered = true ∧
      (s.tick dt).dec.out.getD (↑c) true = false ∧ (s.tick dt).isl.mcoreOut.getD (↑c) true = false ∧ (s.tick dt).hasFe f = true ∧
      ((s.tick dt).feSt f).faulty = false ∧ ((s.tick dt).port p).out = false ∧ (s.tick dt).crypto.unitOut.getD (↑c) true = false ∧
      (s.tick dt).crypto.unitJob.get ↑c = none ∧ (s.tick dt).isl.reclaims = [] ∧ (s.tick dt).hasHolder h = true ∧
      (s.tick dt).hasIsland i = true ∧ i ∈ (s.tick dt).isl.islandOut ∧ Island.cpu ∉ (s.tick dt).isl.islandOut) ∧
    (∃ (dt : Nat) (s : State) (tj : ℤ), (s.tick dt).life.mode = Mode.operate ∧ (s.tick dt).isl.step = 0 ∧ tj < (s.tick dt).stepOn 1 ∧
      tj < (s.tick dt).stepOn 2 ∧ tj < 127) ∧
    (∃ (dt : Nat) (s : State) (tj : ℤ), (s.tick dt).life.mode = Mode.operate ∧ (s.tick dt).isl.step = 0 ∧ (s.tick dt).stepOn 1 ≤ tj ∧
      tj < (s.tick dt).stepOn 2 ∧ tj < 127) ∧
    (∃ (dt : Nat) (s : State) (tj : ℤ), (s.tick dt).life.mode = Mode.operate ∧ (s.tick dt).isl.step = 0 ∧ 132 ≤ tj) ∧
    (∃ (dt : Nat) (s : State), (s.tick dt).powered = false) ∧
    (∃ (dt : Nat) (s : State) (c : Fin 4) (f : Fe) (p : Port) (h : TagHolder) (i : Island), (s.tick dt).powered = true ∧
      (s.tick dt).dec.out.getD (↑c) true = false ∧ (s.tick dt).isl.mcoreOut.getD (↑c) true = false ∧ (s.tick dt).hasFe f = true ∧
      ((s.tick dt).feSt f).faulty = false ∧ ((s.tick dt).port p).out = false ∧ (s.tick dt).crypto.unitOut.getD (↑c) true = false ∧
      (s.tick dt).crypto.unitJob.get ↑c = none ∧ (s.tick dt).hasHolder h = false ∧ (s.tick dt).hasIsland i = false ∧
      Island.cpu ∉ (s.tick dt).isl.islandOut) ∧
    (∃ (dt : Nat) (s : State) (c : Fin 4) (f : Fe) (p : Port) (h : TagHolder) (i : Island), (s.tick dt).powered = true ∧
      (s.tick dt).dec.out.getD (↑c) true = false ∧ (s.tick dt).isl.mcoreOut.getD (↑c) true = false ∧ (s.tick dt).hasFe f = true ∧
      ((s.tick dt).feSt f).faulty = false ∧ ((s.tick dt).port p).out = false ∧ (s.tick dt).isl.bankOut.getD (↑0) true = false ∧
      (s.tick dt).crypto.unitOut.getD (↑c) true = false ∧ (s.tick dt).crypto.unitJob.get ↑c = none ∧ (s.tick dt).isl.reclaims = [] ∧
      (s.tick dt).hasHolder h = true ∧ (s.tick dt).hasIsland i = true ∧ i ∈ (s.tick dt).isl.islandOut ∧
      Island.cpu ∉ (s.tick dt).isl.islandOut) :=
  ⟨⟨0, up, 0, .sa, .p0, .lane 0, by decide +kernel⟩,
   ⟨0, threeOut, 0, .sa, .p0, .lane 0, by decide +kernel⟩,
   ⟨0, coreOutIsland, 0, .sa, .p0, .lane 0, .core, by decide +kernel⟩,
   ⟨0, up, 25, by decide +kernel⟩,
   ⟨0, up, 122, by decide +kernel⟩,
   ⟨0, up, 132, by decide +kernel⟩,
   ⟨0, held .unpowered, by decide +kernel⟩,
   ⟨0, halved, 0, .sa, .p0, .lane 47, .lanesB, by decide +kernel⟩,
   ⟨0, coreOutIsland, 0, .sa, .p0, .lane 0, .core, by decide +kernel⟩⟩

theorem witness_RfTests :
    (∃ (dt : Nat) (m : Mbox) (s : State) (r : Request) (f : Fe), (s.tick dt).runsLen (↑m) 1809 11 r ∧
      feOf (beField r.payload 0 1) = some f ∧ ((s.tick dt).afterReq ↑m).feMode f ≠ FeMode.off ∧
      (((s.tick dt).afterReq ↑m).feSt f).rfTest = none ∧ ((s.tick dt).afterReq ↑m).testRange f r.payload = true) ∧
    (∃ (dt : Nat) (m : Mbox) (s : State) (r : Request) (f : Fe) (x : RfTest), (s.tick dt).runsLen (↑m) 1809 11 r ∧
      feOf (beField r.payload 0 1) = some f ∧
      (((s.tick dt).afterReq ↑m).feMode f = FeMode.off ∨ (((s.tick dt).afterReq ↑m).feSt f).rfTest ≠ none) ∧
      ((s.tick dt).feSt f).rfTest = some x ∧ x.stopClk ≤ (s.tick dt).clk) ∧
    (∃ (dt : Nat) (m : Mbox) (s : State) (r : Request) (f : Fe) (x : RfTest), (s.tick dt).runsLen (↑m) 1810 1 r ∧
      feOf (beField r.payload 0 1) = some f ∧ (((s.tick dt).afterReq ↑m).feSt f).rfTest = some x ∧ ((s.tick dt).feSt f).rfTest = some x ∧
      x.stopClk ≤ (s.tick dt).clk) ∧
    (∃ (dt : Nat) (m : Mbox) (s : State) (r : Request) (f : Fe), (s.tick dt).runsLen (↑m) 1810 1 r ∧
      feOf (beField r.payload 0 1) = some f ∧ (((s.tick dt).afterReq ↑m).feSt f).rfTest = none) ∧
    (∃ (dt : Nat) (s : State) (f : Fe) (x : RfTest), ((s.tick dt).feSt f).rfTest = some x ∧ (s.tick dt).clk < x.stopClk) ∧
    (∃ (dt : Nat) (m : Mbox) (s : State) (r : Request), feOf (beField r.payload 0 1) = none ∧ (s.tick dt).runsLen (↑m) 1809 11 r) ∧
    (∃ (dt : Nat) (m : Mbox) (s : State) (r : Request), feOf (beField r.payload 0 1) = none ∧ (s.tick dt).runsLen (↑m) 1810 1 r) ∧
    (∃ (dt : Nat) (m : Mbox) (s : State) (r : Request) (f : Fe), (s.tick dt).runsLen (↑m) 1809 11 r ∧
      feOf (beField r.payload 0 1) = some f ∧ ((s.tick dt).afterReq ↑m).feMode f ≠ FeMode.off ∧
      (((s.tick dt).afterReq ↑m).feSt f).rfTest = none ∧ ((s.tick dt).afterReq ↑m).testRange f r.payload = false) :=
  ⟨⟨0, 0, ask up 0x0711 (rfReq 1), req 0x0711 (rfReq 1), .sa, by unfold State.runsLen State.runs; decide +kernel⟩,
   ⟨0, 0, ask rfTesting 0x0711 (rfReq 1), req 0x0711 (rfReq 1), .sa, aTest, by unfold State.runsLen State.runs; decide +kernel⟩,
   ⟨0, 0, ask rfTesting 0x0712 [0], req 0x0712 [0], .sa, aTest, by unfold State.runsLen State.runs; decide +kernel⟩,
   ⟨0, 0, ask up 0x0712 [0], req 0x0712 [0], .sa, by unfold State.runsLen State.runs; decide +kernel⟩,
   ⟨0, rfTestingOn, .sa, laterTest, by decide +kernel⟩,
   ⟨0, 0, ask up 0x0711 (3 :: (rfReq 1).drop 1), req 0x0711 (3 :: (rfReq 1).drop 1), by unfold State.runsLen State.runs; decide +kernel⟩,
   ⟨0, 0, ask up 0x0712 [3], req 0x0712 [3], by unfold State.runsLen State.runs; decide +kernel⟩,
   ⟨0, 0, ask up 0x0711 (0 :: 3 :: (rfReq 1).drop 2), req 0x0711 (0 :: 3 :: (rfReq 1).drop 2), .sa,
     by unfold State.runsLen State.runs; decide +kernel⟩⟩

theorem witness_SecurityOfReceivedFrames :
    (∃ (dt : Nat) (core : Fin 4) (p : Fe) (s : State) (v : State) (pkt : Packet) (d : RxDesc) (f : AirFrame) (i : Nat), (s.tick dt).coreRuns ↑core = true ∧
      (s.tick dt).take (orderKey (384 + feCode p) 0) = (some pkt, v) ∧ pkt.content = Content.rx d f ∧ d.found = RxFound.unresolved ∧
      ((s.tick dt).firmware = false ∨ (s.tick dt).joinOf i = none)) ∧
    (∃ (dt : Nat) (core : Fin 4) (p : Fe) (s : State) (v : State) (pkt : Packet) (d : RxDesc) (f : AirFrame) (i : Nat), (s.tick dt).coreRuns ↑core = true ∧
      (s.tick dt).take (orderKey (384 + feCode p) 0) = (some pkt, v) ∧ pkt.content = Content.rx d f ∧ d.found = RxFound.noRecord ∧
      ((s.tick dt).firmware = false ∨ (s.tick dt).joinOf i = none)) ∧
    (∃ (dt : Nat) (core : Fin 4) (p : Fe) (s : State) (v : State) (pkt : Packet) (d : RxDesc) (f : AirFrame) (i : Nat), (s.tick dt).coreRuns ↑core = true ∧
      (s.tick dt).take (orderKey (384 + feCode p) 0) = (some pkt, v) ∧ pkt.content = Content.rx d f ∧
      (d.found = RxFound.late ∨ d.found = RxFound.absent) ∧ ((s.tick dt).firmware = false ∨ (s.tick dt).joinOf i = none)) ∧
    (∃ (dt : Nat) (core : Fin 4) (p : Fe) (s : State) (v : State) (pkt : Packet) (d : RxDesc) (f : AirFrame) (i : Nat), (s.tick dt).coreRuns ↑core = true ∧
      (s.tick dt).take (orderKey (384 + feCode p) 0) = (some pkt, v) ∧ pkt.content = Content.rx d f ∧
      (d.found = RxFound.late ∨ d.found = RxFound.absent) ∧ ((s.tick dt).firmware = false ∨ (s.tick dt).joinOf i = none)) ∧
    (∃ (dt : Nat) (core : Fin 4) (s : State) (i : Nat), (s.tick dt).coreRuns ↑core = false ∧
      ((s.tick dt).firmware = false ∨ (s.tick dt).joinOf i = none)) ∧
    (∃ (dt : Nat) (core : Fin 4) (p : Fe) (s : State) (v : State) (i : Nat), (s.tick dt).coreRuns ↑core = true ∧
      (s.tick dt).take (orderKey (384 + feCode p) 0) = (none, v) ∧ ((s.tick dt).firmware = false ∨ (s.tick dt).joinOf i = none)) ∧
    (∃ (dt : Nat) (core : Fin 4) (p : Fe) (s : State) (v : State) (pkt : Packet) (d : RxDesc) (f : AirFrame) (i : Nat), (s.tick dt).coreRuns ↑core = true ∧
      (s.tick dt).take (orderKey (384 + feCode p) 0) = (some pkt, v) ∧ pkt.content = Content.rx d f ∧ d.found = RxFound.known i ∧
      v.stillStands i f.src = none ∧ ((s.tick dt).firmware = false ∨ (s.tick dt).joinOf i = none)) ∧
    (∃ (dt : Nat) (core : Fin 4) (p : Fe) (s : State) (v : State) (pkt : Packet) (d : RxDesc) (f : AirFrame) (i : Nat) (n : Node), (s.tick dt).coreRuns ↑core = true ∧
      (s.tick dt).take (orderKey (384 + feCode p) 0) = (some pkt, v) ∧ pkt.content = Content.rx d f ∧ d.found = RxFound.known i ∧
      v.stillStands i f.src = some n ∧ n.state = NodeState.live ∧ f.sec = none ∧
      ((s.tick dt).firmware = false ∨ (s.tick dt).joinOf i = none)) ∧
    (∃ (dt : Nat) (core : Fin 4) (p : Fe) (s : State) (v : State) (w : State) (pkt : Packet) (d : RxDesc) (f : AirFrame) (i : Nat) (n : Node) (sec : AirSec) (k : Key) (ip : Octets) (tc : BitVec 8), (s.tick dt).coreRuns ↑core = true ∧
      (s.tick dt).take (orderKey (384 + feCode p) 0) = (some pkt, v) ∧ pkt.content = Content.rx d f ∧ d.found = RxFound.known i ∧
      v.stillStands i f.src = some n ∧ n.state = NodeState.live ∧ f.sec = some sec ∧ v.joinOf i = none ∧
      keyClass sec.keyIndex = KeyClass.link n.world n.keyGen ∧ sec.level = n.secLevel ∧ n.fcIn.toNat ≤ sec.fc.toNat ∧
      sec.fc.toNat ≠ 4294967295 ∧ v.linkKey i n = some (k, w) ∧
      ({ pipe := feCode p, pkt := pkt, d := d, f := f } : Rx).opens sec k = true ∧ f.payload = AirPayload.data ip true tc none ∧
      ((s.tick dt).firmware = false ∨ (s.tick dt).joinOf i = none)) ∧
    (∃ (dt : Nat) (core : Fin 4) (p : Fe) (s : State) (v : State) (w : State) (pkt : Packet) (d : RxDesc) (f : AirFrame) (i : Nat) (n : Node) (sec : AirSec) (k : Key), (s.tick dt).coreRuns ↑core = true ∧
      (s.tick dt).take (orderKey (384 + feCode p) 0) = (some pkt, v) ∧ pkt.content = Content.rx d f ∧ d.found = RxFound.known i ∧
      v.stillStands i f.src = some n ∧ n.state = NodeState.live ∧ f.sec = some sec ∧ v.joinOf i = none ∧
      keyClass sec.keyIndex = KeyClass.link n.world n.keyGen ∧ sec.level = n.secLevel ∧ n.fcIn.toNat ≤ sec.fc.toNat ∧
      sec.fc.toNat ≠ 4294967295 ∧ v.linkKey i n = some (k, w) ∧
      ({ pipe := feCode p, pkt := pkt, d := d, f := f } : Rx).opens sec k = false ∧
      ((s.tick dt).firmware = false ∨ (s.tick dt).joinOf i = none)) ∧
    (∃ (dt : Nat) (s : State) (i : Nat) (n : Node) (j : Join), (s.tick dt).firmware = true ∧ (s.tick dt).joinOf i = some j ∧
      (s.tick dt).node i = some n ∧ n.state = NodeState.joining ∧ j.startClk + 250000000 * (s.tick dt).joinTimeoutS ≤ (s.tick dt).clk) ∧
    (∃ (dt : Nat) (s : State) (i : Nat) (j : Join), (s.tick dt).joinOf i = some j ∧
      (s.tick dt).clk < j.startClk + 250000000 * (s.tick dt).joinTimeoutS) ∧
    (∃ (dt : Nat) (core : Fin 4) (p : Fe) (s : State) (v : State) (i : Nat), (s.tick dt).coreRuns ↑core = true ∧
      (s.tick dt).take (orderKey (384 + feCode p) 0) = (none, v) ∧ ((s.tick dt).firmware = false ∨ (s.tick dt).joinOf i = none)) ∧
    (∃ (dt : Nat) (s : State) (i : Nat) (n : Node) (j : Join), (s.tick dt).firmware = true ∧ (s.tick dt).joinOf i = some j ∧
      (s.tick dt).node i = some n ∧ n.state = NodeState.joining ∧ j.startClk + 250000000 * (s.tick dt).joinTimeoutS ≤ (s.tick dt).clk) ∧
    (∃ (dt : Nat) (s : State) (i : Nat) (x : Reasm), ((s.tick dt).firmware = false ∨ (s.tick dt).joinOf i = none) ∧
      (s.tick dt).firmware = true ∧ (s.tick dt).queues.reasm = [x] ∧ x.first + 15000000000 ≤ (s.tick dt).clk) ∧
    (∃ (dt : Nat) (s : State) (i : Nat) (x : Reasm), ((s.tick dt).firmware = false ∨ (s.tick dt).joinOf i = none) ∧
      (s.tick dt).queues.reasm = [x] ∧ ((s.tick dt).firmware = false ∨ (s.tick dt).clk < x.first + 15000000000)) :=
  ⟨⟨0, 0, .sa, received .unresolved goodNodeFrame, taken .unresolved goodNodeFrame, rxPkt .unresolved (goodNodeFrame), rxDesc .unresolved, goodNodeFrame, 0,
    by decide +kernel⟩,
   ⟨0, 0, .sa, received .noRecord goodNodeFrame, taken .noRecord goodNodeFrame, rxPkt .noRecord (goodNodeFrame), rxDesc .noRecord, goodNodeFrame, 0,
     by decide +kernel⟩,
   ⟨0, 0, .sa, received .late goodNodeFrame, taken .late goodNodeFrame, rxPkt .late (goodNodeFrame), rxDesc .late, goodNodeFrame, 0,
     by decide +kernel⟩,
   ⟨0, 0, .sa, received .absent goodNodeFrame, taken .absent goodNodeFrame, rxPkt .absent (goodNodeFrame), rxDesc .absent, goodNodeFrame, 0,
     by decide +kernel⟩,
   ⟨0, 0, coreGone, 0, by decide +kernel⟩,
   ⟨0, 0, .sa, keyCached, (keyCached.take (orderKey 384 0)).2, 0, by decide +kernel⟩,
   ⟨0, 0, .sa, gone (.known 0), ((gone (.known 0)).take (orderKey 384 0)).2, rxPkt (.known 0) (goodNodeFrame), rxDesc (.known 0), goodNodeFrame, 0,
     by decide +kernel⟩,
   ⟨0, 0, .sa, received (.known 0) (nodeFrame none), taken (.known 0) (nodeFrame none), rxPkt (.known 0) (nodeFrame none), rxDesc (.known 0), nodeFrame none, 0, aNode,
     by decide +kernel⟩,
   ⟨0, 0, .sa, received (.known 0) goodNodeFrame, taken (.known 0) goodNodeFrame, takenKey (.known 0) goodNodeFrame, rxPkt (.known 0) (goodNodeFrame), rxDesc (.known 0), goodNodeFrame, 0, aNode, linkSec, 5, List.replicate 100 7, 0,
     by decide +kernel⟩,
   ⟨0, 0, .sa, received (.known 0) badNodeFrame, taken (.known 0) badNodeFrame, takenKey (.known 0) badNodeFrame, rxPkt (.known 0) (badNodeFrame), rxDesc (.known 0), badNodeFrame, 0, aNode, linkSec, 5,
     by decide +kernel⟩,
   ⟨0, joining, 0, joiningNode, aJoin, by decide +kernel⟩,
   ⟨0, joiningEarly, 0, aJoin, by decide +kernel⟩,
   ⟨0, 0, .sa, up, up, 0, by decide +kernel⟩,
   ⟨0, { joining with life := { joining.life with cpuUp := false } }, 0, joiningNode, aJoin, by decide +kernel⟩,
   ⟨0, reassembling, 0, aReasm, by decide +kernel⟩,
   ⟨0, { reassembling with clk := 14999999999 }, 0, aReasm, by decide +kernel⟩⟩

theorem witness_DownstreamAndCeilings :
    (∃ (dt : Nat) (core : Fin 4) (s : State), ((s.tick dt).portsRun = false ∨ (s.tick dt).inPause = true ∨ (s.tick dt).isl.mcoreOut.getD (↑core) false = true) ∧
      (s.tick dt).firmware = true ∧ (s.tick dt).hw.joinCeil.toNat ≤ (s.tick dt).crypto.joinNext + 1024) ∧
    (∃ (dt : Nat) (core : Fin 4) (s : State) (v : State), (s.tick dt).portsRun = true ∧ (s.tick dt).inPause = false ∧
      (s.tick dt).isl.mcoreOut.getD (↑core) false = false ∧ (s.tick dt).order (orderKey 404 0) = [] ∧
      (s.tick dt).take (orderKey 387 0) = (none, v) ∧ (s.tick dt).firmware = true ∧
      (s.tick dt).hw.joinCeil.toNat ≤ (s.tick dt).crypto.joinNext + 1024) ∧
    (∃ (dt : Nat) (core : Fin 4) (s : State) (v : State) (pkt : Packet) (port : Nat) (arrival : Nat) (f : EthFrame) (src : BitVec 128) (dst : BitVec 128) (tc : BitVec 8) (len : Nat) (o : Octets), (s.tick dt).portsRun = true ∧
      (s.tick dt).operating = true ∧ (s.tick dt).inPause = false ∧ (s.tick dt).isl.mcoreOut.getD (↑core) false = false ∧
      (s.tick dt).order (orderKey 404 0) = [] ∧ (s.tick dt).take (orderKey 387 0) = (some pkt, v) ∧
      pkt.content = Content.eth port f arrival ∧ f.payload = EthPayload.ipv6 src dst tc none len o ∧
      (v.releaseChain pkt.acct pkt.cells pkt.chain).addressedToPart dst = false ∧ isMulticast dst = false ∧
      (v.releaseChain pkt.acct pkt.cells pkt.chain).worldOfPrefix dst = none ∧ (s.tick dt).firmware = true ∧
      (s.tick dt).hw.joinCeil.toNat ≤ (s.tick dt).crypto.joinNext + 1024) ∧
    (∃ (dt : Nat) (core : Fin 4) (cz : Octets) (s : State) (v : State) (pkt : Packet) (port : Nat) (arrival : Nat) (f : EthFrame) (src : BitVec 128) (dst : BitVec 128) (tc : BitVec 8) (len : Nat) (o : Octets) (w : Nat) (i : Nat) (n : Node), (s.tick dt).portsRun = true ∧
      (s.tick dt).operating = true ∧ (s.tick dt).inPause = false ∧ (s.tick dt).isl.mcoreOut.getD (↑core) false = false ∧
      (s.tick dt).order (orderKey 404 0) = [] ∧ (s.tick dt).take (orderKey 387 0) = (some pkt, v) ∧
      pkt.content = Content.eth port f arrival ∧ f.payload = EthPayload.ipv6 src dst tc none len o ∧
      (v.releaseChain pkt.acct pkt.cells pkt.chain).addressedToPart dst = false ∧ isMulticast dst = false ∧
      (v.releaseChain pkt.acct pkt.cells pkt.chain).worldOfPrefix dst = some w ∧
      (v.releaseChain pkt.acct pkt.cells pkt.chain).vidOk w f.hdr.vlan = true ∧
      (v.releaseChain pkt.acct pkt.cells pkt.chain).findEui (euiOfAddr dst) = some i ∧
      (v.releaseChain pkt.acct pkt.cells pkt.chain).node i = some n ∧ (v.releaseChain pkt.acct pkt.cells pkt.chain).inTable n = true ∧
      n.world = w ∧ (v.releaseChain pkt.acct pkt.cells pkt.chain).walk i = some [i] ∧
      List.length cz ≤ (v.releaseChain pkt.acct pkt.cells pkt.chain).room (nodeFe n) n ∧
      ((v.releaseChain pkt.acct pkt.cells pkt.chain).linkKey i n).isSome = true ∧
      n.fcOut.toNat + 1 ≤ (v.releaseChain pkt.acct pkt.cells pkt.chain).nodeCeil i ∧ n.fcOut.toNat + 1 ≤ 4294967295 ∧
      ((v.releaseChain pkt.acct pkt.cells pkt.chain).grant (accountOf n.queue w) (cellsOf ((v.releaseChain pkt.acct pkt.cells pkt.chain).overhead (nodeFe n) n + wornOctets n.worn n.pending + List.length cz))).isSome = true ∧
      (s.tick dt).firmware = true ∧ (s.tick dt).hw.joinCeil.toNat ≤ (s.tick dt).crypto.joinNext + 1024) ∧
    (∃ (dt : Nat) (s : State) (wd : World), (s.tick dt).firmware = true ∧ (s.tick dt).life.radioOn = true ∧
      (s.tick dt).rplEnabled ↑wd = true ∧
      (((s.tick dt).trickle ↑wd).sent = true ∨ (s.tick dt).netNs < ((s.tick dt).trickle ↑wd).startNs + 2 ^ ((s.tick dt).trickle ↑wd).interval * 500000) ∧
      (s.tick dt).hw.joinCeil.toNat ≤ (s.tick dt).crypto.joinNext + 1024) ∧
    (∃ (dt : Nat) (s : State) (wd : World), (s.tick dt).firmware = true ∧ (s.tick dt).life.radioOn = true ∧
      (s.tick dt).rplEnabled ↑wd = true ∧ ((s.tick dt).trickle ↑wd).sent = false ∧
      ((s.tick dt).trickle ↑wd).startNs + 2 ^ ((s.tick dt).trickle ↑wd).interval * 500000 ≤ (s.tick dt).netNs ∧
      ((s.tick dt).slot (40 + 16 * ↑wd + (s.tick dt).txGroup ↑wd)).state ≠ SlotState.ready ∧
      (s.tick dt).hw.joinCeil.toNat ≤ (s.tick dt).crypto.joinNext + 1024) ∧
    (∃ (dt : Nat) (s : State) (wd : World), (s.tick dt).firmware = true ∧ (s.tick dt).life.radioOn = true ∧
      (s.tick dt).rplEnabled ↑wd = true ∧
      (((s.tick dt).trickle ↑wd).sent = true ∨ (s.tick dt).netNs < ((s.tick dt).trickle ↑wd).startNs + 2 ^ ((s.tick dt).trickle ↑wd).interval * 500000) ∧
      (s.tick dt).hw.joinCeil.toNat ≤ (s.tick dt).crypto.joinNext + 1024) ∧
    (∃ (dt : Nat) (s : State) (i : Nat) (n : Node) (m : Mbox), (s.tick dt).firmware = true ∧ (s.tick dt).node i = some n ∧
      (s.tick dt).nodeCeil i ≤ n.fcOut.toNat + 1024 ∧ (s.tick dt).hw.joinCeil.toNat ≤ (s.tick dt).crypto.joinNext + 1024 ∧
      ((s.tick dt).mb ↑m).ceiling.toNat ≤ ((s.tick dt).mb ↑m).seq.toNat + 1024) ∧
    (∃ (dt : Nat) (core : Fin 4) (s : State), ((s.tick dt).portsRun = false ∨ (s.tick dt).inPause = true ∨ (s.tick dt).isl.mcoreOut.getD (↑core) false = true) ∧
      (s.tick dt).firmware = false) :=
  ⟨⟨0, 0, coreGone, by decide +kernel⟩,
   ⟨0, 0, up, (up.take (orderKey 387 0)).2, by decide +kernel⟩,
   ⟨0, 0, arriving 77, arrived 77, downPkt 77, 0, 99960000000, downFrame 77, 1, 77, 0, 40, [], by decide +kernel⟩,
   ⟨0, 0, (List.replicate 20 5), arriving nodeAddr, arrived nodeAddr, downPkt nodeAddr, 0, 99960000000, downFrame nodeAddr, 1, nodeAddr, 0, 40, [], 1, 0, rootedNode,
     by decide +kernel⟩,
   ⟨0, rpl 80000000000 true, 1, by decide +kernel⟩,
   ⟨0, rpl 83616000000 false, 1, by decide +kernel⟩,
   ⟨0, rpl 83616000001 false, 1, by decide +kernel⟩,
   ⟨0, nearCeiling, 0, aNode, 0, by decide +kernel⟩,
   ⟨0, 0, held .secError, by decide +kernel⟩⟩

theorem witness_MemoryUpkeep :
    (∃ (dt : Nat) (s : State), (s.tick dt).operating = true ∧ (s.tick dt).table.rehash = none ∧
      bitOf ((s.tick dt).cfgN 12 0 11 1 1) 0 = true ∧ (s.tick dt).journals = true ∧
      (s.tick dt).hw.unhomed + (s.tick dt).dirty.length + List.length (s.tick dt).mac.duty < 262144 ∧ (s.tick dt).hwWrites = true) ∧
    (∃ (dt : Nat) (s : State) (n : Node) (i : Nat), (s.tick dt).operating = true ∧ (s.tick dt).table.rehash = none ∧
      (s.tick dt).node i = some n ∧ n.state ≠ NodeState.clearing ∧ (s.tick dt).hw.ids.get i = none ∧
      bitOf ((s.tick dt).cfgN 12 0 11 1 1) 0 = true ∧ (s.tick dt).journals = true ∧
      (s.tick dt).hw.unhomed + (s.tick dt).dirty.length + List.length (s.tick dt).mac.duty < 262144 ∧ (s.tick dt).hwWrites = true) ∧
    (∃ (dt : Nat) (s : State) (n : Node) (i : Nat), (s.tick dt).operating = true ∧ (s.tick dt).table.rehash = none ∧
      (s.tick dt).node i = some n ∧ n.state ≠ NodeState.clearing ∧ (s.tick dt).hw.ids.get i = none ∧
      bitOf ((s.tick dt).cfgN 12 0 11 1 1) 0 = true ∧ (s.tick dt).journals = true ∧
      (s.tick dt).hw.unhomed + (s.tick dt).dirty.length + List.length (s.tick dt).mac.duty < 262144 ∧ (s.tick dt).hwWrites = true) ∧
    (∃ (dt : Nat) (s : State) (a : Nat) (k : Nat), (s.tick dt).operating = true ∧ (s.tick dt).table.rehash = none ∧ 0 < k ∧
      k ≤ (s.tick dt).used a ∧ (s.tick dt).queues.strays = [] ∧ bitOf ((s.tick dt).cfgN 12 0 11 1 1) 0 = true ∧
      (s.tick dt).journals = true ∧ (s.tick dt).hw.unhomed + (s.tick dt).dirty.length + List.length (s.tick dt).mac.duty < 262144 ∧
      (s.tick dt).hwWrites = true) ∧
    (∃ (dt : Nat) (s : State), (s.tick dt).operating = true ∧ (s.tick dt).table.rehash = none ∧
      bitOf ((s.tick dt).cfgN 12 0 11 1 1) 0 = true ∧ (s.tick dt).journals = true ∧
      (s.tick dt).hw.unhomed + (s.tick dt).dirty.length + List.length (s.tick dt).mac.duty < 262144 ∧ (s.tick dt).hwWrites = true) ∧
    (∃ (dt : Nat) (s : State) (q : Nat) (c : Nat) (l : Nat) (f : Fe) (p : Packet) (rest : List Packet), (s.tick dt).powered = true ∧
      (s.tick dt).order (orderKey q (feCode f)) = p :: rest ∧ (s.tick dt).expired p = false ∧ p.chain[l]? = some c ∧
      (s.tick dt).noDram = false ∧ (c ∈ (s.tick dt).cellsHeld ∨ c ∈ (s.tick dt).queues.retired) ∧ l < 2944 ∧
      (s.tick dt).hw.outPages.length < 1152) ∧
    (∃ (dt : Nat) (s : State) (q : Nat) (c : Nat) (l : Nat) (f : Fe) (p : Packet) (rest : List Packet), (s.tick dt).powered = true ∧
      (s.tick dt).order (orderKey q (feCode f)) = p :: rest ∧ (s.tick dt).expired p = false ∧ p.chain[l]? = some c ∧
      (s.tick dt).noDram = false ∧ c ∈ (s.tick dt).queues.homed ∧ c < (s.tick dt).poolCells ∧
      (c ∈ (s.tick dt).cellsHeld ∨ c ∈ (s.tick dt).queues.retired) ∧ l < 2944 ∧ (s.tick dt).hw.outPages.length < 1152) ∧
    (∃ (dt : Nat) (s : State) (q : Nat) (c : Nat) (l : Nat) (f : Fe) (p : Packet) (rest : List Packet), (s.tick dt).powered = true ∧
      (s.tick dt).order (orderKey q (feCode f)) = p :: rest ∧ (s.tick dt).expired p = false ∧ p.chain[l]? = none ∧
      (s.tick dt).noDram = false ∧ (c ∈ (s.tick dt).cellsHeld ∨ c ∈ (s.tick dt).queues.retired) ∧ l < 2944 ∧
      (s.tick dt).hw.outPages.length < 1152) ∧
    (∃ (dt : Nat) (s : State) (l : Nat), (s.tick dt).powered = true ∧ (s.tick dt).noDram = false ∧ l < 2944 ∧
      (s.tick dt).hw.outPages.length < 1152) ∧
    (∃ (dt : Nat) (s : State) (c : Nat) (l : Nat), (s.tick dt).powered = true ∧ (s.tick dt).noDram = false ∧
      c / 7 ∈ (s.tick dt).queues.marked ∧ c < (s.tick dt).poolCells ∧ c ∉ (s.tick dt).queues.retired ∧ c ∉ (s.tick dt).cellsHeld ∧
      100 * ((s.tick dt).queues.retired.length + 1) ≤ (s.tick dt).poolCells ∧
      (s.tick dt).queues.retired.length + 1 + (s.tick dt).resSum ≤ (s.tick dt).poolCells ∧ l < 2944 ∧
      (s.tick dt).hw.outPages.length < 1152) ∧
    (∃ (dt : Nat) (s : State) (c : Nat) (l : Nat), (s.tick dt).powered = true ∧ c / 7 ∈ (s.tick dt).queues.marked ∧
      c < (s.tick dt).poolCells ∧ c ∉ (s.tick dt).queues.retired ∧ c ∉ (s.tick dt).cellsHeld ∧
      (s.tick dt).poolCells < 100 * ((s.tick dt).queues.retired.length + 1) ∧ l < 2944 ∧ (s.tick dt).hw.outPages.length < 1152) ∧
    (∃ (dt : Nat) (s : State) (l : Nat), (s.tick dt).powered = true ∧ (s.tick dt).noDram = false ∧ l < 2944 ∧
      (s.tick dt).hw.outPages.length < 1152) :=
  ⟨⟨0, sweeping 0 7 clearingNode, by decide +kernel⟩,
   ⟨0, lastVisit, aNode, 0, by decide +kernel⟩,
   ⟨0, aged, oldNode, 0, by decide +kernel⟩,
   ⟨0, audited, 3, 5, by decide +kernel⟩,
   ⟨0, unhomed, by decide +kernel⟩,
   ⟨0, chainHeld, 397, 10, 0, .sa, chained, [], by decide +kernel⟩,
   ⟨0, chainHomed, 397, 10, 0, .sa, chained, [], by decide +kernel⟩,
   ⟨0, chainHeld, 397, 10, 1, .sa, chained, [], by decide +kernel⟩,
   ⟨0, worn15, 0, by decide +kernel⟩,
   ⟨0, marked10, 10, 0, by decide +kernel⟩,
   ⟨0, degraded10, 10, 0, by decide +kernel⟩,
   ⟨0, up, 2943, by decide +kernel⟩⟩


/-- What a check that passes answers. -/
def passed (s : State) : Image := (s.checkSlot 0).toOption.getD image

theorem checkSlot_passed {s : State} (h : (s.checkSlot 0).isOk = true) : s.checkSlot 0 = .ok (passed s) := by
  unfold passed
  cases e : s.checkSlot 0 with
  | ok a => rfl
  | error a => rw [e] at h; cases h

/-- The state in which `updating o` executes CONFIG-ACTIVATE. -/
def activating (o : Octets) : State := ((ask (updating o) 0x0204 [0]).tick 0).afterReq 0

theorem witness_Activation_firmware :
    (∃ (dt : Nat) (m : Mbox) (s : State) (r : Request), (s.tick dt).runsLen m 0x0214 1 r ∧ beField r.payload 0 1 ≤ 1 ∧
      ((s.tick dt).afterReq m).life.fwSlot ≠ some (beField r.payload 0 1) ∧
      ((s.tick dt).afterReq m).life.fwChecked.getD (beField r.payload 0 1) false = true ∧ ((s.tick dt).afterReq m).life.fwTrial = false ∧
      (((s.tick dt).afterReq m).checkFw (beField r.payload 0 1)).1 = 0) ∧
    (∃ (dt : Nat) (m : Mbox) (s : State) (r : Request), (s.tick dt).runsLen m 0x0214 1 r ∧ beField r.payload 0 1 ≤ 1 ∧
      (((s.tick dt).afterReq m).life.fwSlot = some (beField r.payload 0 1) ∨ ((s.tick dt).afterReq m).life.fwTrial = true)) :=
  ⟨⟨0, 0, ask fwUpdating 0x0214 [0], req 0x0214 [0], by unfold State.runsLen State.runs; decide +kernel, by decide +kernel,
      by decide +kernel, by decide +kernel, by decide +kernel, test_firmware_verifies _ rfl rfl (by decide) rfl⟩,
    ⟨0, 0, ask up 0x0214 [0], req 0x0214 [0], by unfold State.runsLen State.runs; decide +kernel⟩⟩

set_option maxRecDepth 10000000 in
theorem witness_Activation_config :
    (∃ (dt : Nat) (m : Mbox) (s : State) (r : Request) (old new : Image), (s.tick dt).runsLen m 0x0204 1 r ∧ beField r.payload 0 1 ≤ 1 ∧
      ((s.tick dt).afterReq m).life.image = some old ∧ ((s.tick dt).afterReq m).life.cfgSlot ≠ some (beField r.payload 0 1) ∧
      ((s.tick dt).afterReq m).life.cfgChecked.getD (beField r.payload 0 1) false = true ∧ ((s.tick dt).afterReq m).life.cfgTrial = false ∧
      ((s.tick dt).afterReq m).checkSlot (beField r.payload 0 1) = .ok new) ∧
    (∃ (dt : Nat) (m : Mbox) (s : State) (r : Request) (old : Image), (s.tick dt).runsLen m 0x0204 1 r ∧ beField r.payload 0 1 ≤ 1 ∧
      ((s.tick dt).afterReq m).life.image = some old ∧
      (((s.tick dt).afterReq m).life.cfgSlot = some (beField r.payload 0 1) ∨ ((s.tick dt).afterReq m).life.cfgTrial = true)) :=
  ⟨⟨0, 0, ask (updating cfgOctets2) 0x0204 [0], req 0x0204 [0], oldImage, passed (activating cfgOctets2),
      by unfold State.runsLen State.runs; decide +kernel, by decide +kernel, rfl, by decide +kernel, by decide +kernel, by decide +kernel,
      checkSlot_passed (s := activating cfgOctets2) (by decide +kernel)⟩,
    ⟨0, 0, ask up 0x0204 [0], req 0x0204 [0], image, by unfold State.runsLen State.runs; decide +kernel⟩⟩

/-- A firmware slot of no image, and a configuration slot of none, marked as checked. -/
theorem witness_Activation_refused :
    (∃ (dt : Nat) (m : Mbox) (s : State) (r : Request), (s.tick dt).runsLen m 0x0214 1 r ∧ 1 < beField r.payload 0 1) ∧
    (∃ (dt : Nat) (m : Mbox) (s : State) (r : Request), (s.tick dt).runsLen m 0x0204 1 r ∧ ((s.tick dt).afterReq m).life.image = none) ∧
    (∃ (dt : Nat) (m : Mbox) (s : State) (r : Request) (old : Image), (s.tick dt).runsLen m 0x0204 1 r ∧ 1 < beField r.payload 0 1 ∧
      ((s.tick dt).afterReq m).life.image = some old) ∧
    (∃ (dt : Nat) (m : Mbox) (s : State) (r : Request), (s.tick dt).runsLen m 0x0214 1 r ∧ beField r.payload 0 1 ≤ 1 ∧
      ((s.tick dt).afterReq m).life.fwSlot ≠ some (beField r.payload 0 1) ∧
      ((s.tick dt).afterReq m).life.fwChecked.getD (beField r.payload 0 1) false = true ∧ ((s.tick dt).afterReq m).life.fwTrial = false ∧
      (((s.tick dt).afterReq m).checkFw (beField r.payload 0 1)).1 ≠ 0) ∧
    (∃ (dt : Nat) (m : Mbox) (s : State) (r : Request) (old : Image), (s.tick dt).runsLen m 0x0204 1 r ∧ beField r.payload 0 1 ≤ 1 ∧
      ((s.tick dt).afterReq m).life.image = some old ∧ ((s.tick dt).afterReq m).life.cfgSlot ≠ some (beField r.payload 0 1) ∧
      ((s.tick dt).afterReq m).life.cfgChecked.getD (beField r.payload 0 1) false = true ∧ ((s.tick dt).afterReq m).life.cfgTrial = false ∧
      (((s.tick dt).afterReq m).checkSlot (beField r.payload 0 1)).isOk = false) :=
  ⟨⟨0, 0, ask up 0x0214 [2], req 0x0214 [2], by unfold State.runsLen State.runs; decide +kernel⟩,
    ⟨0, 0, ask quietNone 0x0204 [0], req 0x0204 [0], by unfold State.runsLen State.runs; decide +kernel⟩,
    ⟨0, 0, ask up 0x0204 [2], req 0x0204 [2], image, by unfold State.runsLen State.runs; decide +kernel⟩,
    ⟨0, 0, ask unfitFw 0x0214 [0], req 0x0214 [0], by unfold State.runsLen State.runs; decide +kernel⟩,
    ⟨0, 0, ask unfitCfg 0x0204 [0], req 0x0204 [0], image, by unfold State.runsLen State.runs; decide +kernel⟩⟩

/-! ## Frames, invariants and the step -/

theorem witness_Frames :
    (∃ (c : Instr) (l : List Comp) (s u : State), hostWrites c = some l ∧ exec c s = .next u) ∧
    (∃ (c : Instr) (l : List Comp) (s u : State), powerWrites c = some l ∧ exec c s = .next u) ∧
    (∃ (c : Instr) (l : List Comp) (s u : State), radioWrites c = some l ∧ exec c s = .next u) ∧
    (∃ (c : Instr) (l : List Comp) (s u : State), restWrites c = some l ∧ exec c s = .next u) :=
  ⟨⟨.identityGet 0 0, _, ask up 0x0101 [], _, rfl, rfl⟩, ⟨.resetNRise 0 env, _, State.reset, _, rfl, rfl⟩,
    ⟨.frameEnd 0 0 frame, _, up, _, rfl, rfl⟩, ⟨.canopyRound 0 cenv, _, up, _, rfl, rfl⟩⟩

theorem witness_StepKeepsTheInvariant : ∃ s u : State, step s = .next u ∧ s.flashOk ∧ s.lcsOk :=
  ⟨queued, _, rfl, by unfold State.flashOk; decide +kernel, rfl⟩

/-- A part about to be bound, and one whose radio is about to start. -/
def binding : State := { ask ready 0x0107 [] with pending := [.lifecycleOperate 0 0] }
def starting : State := { up with life := { up.life with radioOn := false, cpuUp := true }, pending := [.radioOn 0] }

theorem witness_FuseStateOnlyAdvances : ∃ s u : State, s.lcsOk ∧ step s = .next u ∧ u.life.lcs ≠ s.life.lcs :=
  ⟨binding, after (.lifecycleOperate 0 0) (ask ready 0x0107 []), rfl, rfl, by decide +kernel⟩

theorem witness_OnlyRadioOnStartsTheRadio :
    ∃ s u : State, step s = .next u ∧ s.life.radioOn = false ∧ u.life.radioOn = true :=
  ⟨starting, after (.radioOn 0) { starting with pending := [] }, rfl, rfl, by decide +kernel⟩

theorem witness_QueueIdentityAndClock : ∃ (c : Instr) (s u : State), exec c s = .next u ∧ Comp.flash ∉ tickWrites :=
  ⟨.timeGet 5 0, ask up 0x0501 [], _, rfl, by decide⟩

/-! ## Words of the packet memory, pages of Heartwood (R231, R233, R253, R472) -/

def aPacket (chain : List Nat) : Packet := { acct := 83, cells := 2, commit := 0, content := .eth 0 eth 0, chain := chain }

/-- Two packets at Q387, the first in DRAM; 15 corrected reads of block 2; and block 1 marked. -/
def worn : State := { up with queues := { up.queues with
  used := [(83, 4)], orders := [(orderKey 387 0, [aPacket [20, 21], aPacket [30, 31]])], homed := [20, 21], marked := [1]
  corrected := List.replicate 15 (2, 1000) } }

theorem test_word_lost : let u := after (.unitFault 0 (.uncorrectable (.head 387 .sa) false true 0)) worn
    u.order (orderKey 387 0) = [aPacket [30, 31]] ∧ u.used 83 = 2 ∧ u.counter .memUe .device = 1 ∧ u.counter .dramLate .device = 1 ∧
      u.queues.marked = [1, 2] := by decide +kernel

theorem test_word_corrected : let u := after (.unitFault 0 (.corrected false 20)) worn
    u.queues.marked = [1, 2] ∧ (after (.unitFault 0 (.corrected false 21)) worn).queues.marked = [1] := by decide +kernel

theorem test_cell_retired : (after (.unitFault 0 (.cellFree 7)) worn).queues.retired = [7] ∧
    (after (.unitFault 0 (.cellFree 0)) worn).queues.retired = [] ∧
    (after (.unitFault 0 (.cellFree 7)) degraded10).queues.degradedRaised = true := by decide +kernel

theorem test_page_retired : let u := after (.unitFault 0 (.heartPage 5)) up
    u.hw.outPages = [5] ∧ u.hw.pageMap = [(5, 2944)] ∧ u.counter .hwPageRetired .device = 1 := by decide +kernel

end Sys2Proof.Tests
end

namespace Sys2Proof.Machine

/-! # Lanes, their frames and the decoder pool -/

/-! ## Lanes and the frames they hold (R116, R132) -/

theorem State.lane_setLane (s : State) (l j : Nat) (x : LaneSt) : (s.setLane l x).lane j = if j = l then x else s.lane j :=
  Tbl.getD_set _ _ _ _ _

@[simp] theorem State.lane_setLane_self (s : State) (l : Nat) (x : LaneSt) : (s.setLane l x).lane l = x := by
  simp [State.lane_setLane]

theorem State.lane_of_lanes {s u : State} (h : u.lanes = s.lanes) (l : Nat) : u.lane l = s.lane l := by
  simp only [State.lane, h]

/-- What a lane still receives has not yet ended. -/
theorem State.laneNow_frame_open {s : State} {l : Nat} {i : RxInfo} {h : RxHdr} (hp : (s.laneNow l).phase = .frame i h) :
    s.netNs < h.endNs := by
  unfold State.laneNow at hp
  dsimp only at hp
  split at hp
  · split at hp
    · cases hp
    · rename_i hx hn
      rw [hx] at hp
      cases hp
      omega
  · simp_all
  · split at hp
    · split at hp
      · cases hp
      · simp_all
    · cases hp

/-- The oldest frame of a lane, once ended, is its oldest complete frame: without it the others stand. -/
theorem State.frames_dropDone {s : State} {l : Nat} {i : RxInfo} {h : RxHdr} {rest : List (RxInfo × RxHdr)}
    (hf : (s.laneNow l).frames = (i, h) :: rest) (he : h.endNs ≤ s.netNs) (a : Bool) (k : Option Nat) :
    ({ s.laneNow l with done := (s.laneNow l).done.drop 1, ackOwed := a, tagClk := k } : LaneSt).frames = rest := by
  unfold LaneSt.frames at hf ⊢
  cases hd : (s.laneNow l).done with
  | cons p t =>
    rw [hd, List.cons_append] at hf
    exact (List.cons.inj hf).2
  | nil =>
    rw [hd, List.nil_append] at hf
    split at hf
    · rename_i j g hp
      cases hf
      have := State.laneNow_frame_open hp
      omega
    · cases hf

/-- A change to a lane's only frame, where that frame meets the test. -/
theorem LaneSt.frames_change {x : LaneSt} {i : RxInfo} {h : RxHdr} (hf : x.frames = [(i, h)]) (p : RxHdr → Bool) (g : RxHdr → RxHdr)
    (hp : p h = true) : (x.change p g).frames = [(i, g h)] := by
  unfold LaneSt.frames at hf
  cases hd : x.done with
  | cons d t =>
    rw [hd, List.cons_append, List.cons.injEq, List.append_eq_nil_iff] at hf
    obtain ⟨rfl, rfl, hn⟩ := hf
    have he : x.change p g = { x with done := [(i, g h)] } := by simp [LaneSt.change, hd, hp, changeFirst]
    rw [he]
    simp only [LaneSt.frames, hn, List.append_nil]
  | nil =>
    rw [hd, List.nil_append] at hf
    split at hf
    · rename_i j q hq
      cases hf
      simp [LaneSt.change, LaneSt.frames, hd, hq, hp]
    · cases hf

/-! ## The decoder pool (R133) -/

/-- Where no core works on a codeword of the present tick, none is called back. -/
theorem Decoders.recall_eq_self {d : Decoders} {clk : Nat} (h : ∀ p ∈ d.busy, p.2.clk ≠ clk) : d.recall clk = d := by
  have hk : (d.busy.filter fun p => p.2.clk != clk) = d.busy := List.filter_eq_self.2 fun p hp => by simpa using h p hp
  have hc : (d.busy.filter fun p => p.2.clk == clk) = [] := List.filter_eq_nil_iff.2 fun p hp => by simpa using h p hp
  simp only [Decoders.recall, hk, hc, List.map_nil, List.append_nil]

/-- No idle core: codewords wait. -/
theorem Decoders.feed_of_noIdle {d : Decoders} (h : d.idle = none) (n : Nat) : d.feed n = d := by
  cases n with
  | zero => rfl
  | succ n => simp only [Decoders.feed, h]

theorem Decoders.feed_of_noReady {d : Decoders} (h : d.ready = []) (n : Nat) : d.feed n = d := by
  cases n with
  | zero => rfl
  | succ n =>
    simp only [Decoders.feed, h, firstReady]
    cases d.idle <;> rfl

/-- The only codeword ready goes to the first idle core. -/
theorem Decoders.feed_single {d : Decoders} {c : Nat} {w : ReadyCw} (hi : d.idle = some c) (hr : d.ready = [w]) (n : Nat) :
    d.feed (n + 1) = { d with busy := d.busy.set c w, ready := [] } := by
  simp only [Decoders.feed, hi, hr, firstReady, List.erase_cons_head]
  exact Decoders.feed_of_noReady rfl n

end Sys2Proof.Machine

namespace Sys2Proof.Machine

/-! # Counters and cells; what an owed ACK leaves -/

/-! ## Counters that events and freed cells move (R253, R444) -/

/-- Counters of events that found no place. -/
def lossCounters : List Ctr := [.eventLost, .eventLostEarly]

/-- Counters that releasing cells may move. -/
def cellCounters : List Ctr := .cellRetired :: lossCounters

theorem State.counter_count_ne (s : State) {c d : Ctr} (x y : Scope) (h : d ≠ c) : (s.count c x).counter d y = s.counter d y := by
  simp [State.counter_count, h]

theorem State.counter_of_tally {s u : State} (h : u.tally = s.tally) (c : Ctr) (x : Scope) : u.counter c x = s.counter c x := by
  simp only [State.counter, h]

theorem State.counter_deliverTo (s : State) (e : Event) (lost : Bool) (m : Nat) {c : Ctr} (x : Scope) (hc : c ∉ lossCounters) :
    (s.deliverTo e lost m).counter c x = s.counter c x := by
  have hn : c ≠ .eventLost := fun h => hc (by simp [h, lossCounters])
  unfold State.deliverTo
  split
  · dsimp only
    split
    · exact State.counter_count_ne _ _ _ hn
    · rfl
  · rfl

theorem State.counter_raise (s : State) (code : Nat) (w : Option Nat) (data : Octets) {c : Ctr} (x : Scope) (hc : c ∉ lossCounters) :
    (s.raise code w data).counter c x = s.counter c x := by
  have hn : c ≠ .eventLostEarly := fun h => hc (by simp [h, lossCounters])
  unfold State.raise
  dsimp only
  split
  · exact foldl_keeps _ (fun s => s.counter c x) (fun s m => s.counter_deliverTo _ _ m x hc) _ s
  · unfold State.hold
    split
    · rfl
    · exact State.counter_count_ne _ _ _ hn

theorem State.counter_cellFreed (s : State) (cell : Nat) {c : Ctr} (x : Scope) (hc : c ∉ cellCounters) :
    (s.cellFreed cell).counter c x = s.counter c x := by
  obtain ⟨hn, hl⟩ := not_or.1 (List.mem_cons.not.1 hc)
  unfold State.cellFreed
  dsimp only
  split
  · rfl
  · split
    · split
      · rfl
      · exact State.counter_raise _ _ _ _ _ hl
    · exact State.counter_count_ne _ _ _ hn

/-- Releasing cells moves no other counter. -/
theorem State.counter_releaseChain (s : State) (a n : Nat) (l : List Nat) {c : Ctr} (x : Scope) (hc : c ∉ cellCounters) :
    (s.releaseChain a n l).counter c x = s.counter c x :=
  foldl_keeps State.cellFreed (fun s => s.counter c x) (fun s k => s.counter_cellFreed k x hc) l (s.release a n)

theorem State.reasm_cellFreed (s : State) (c : Nat) : (s.cellFreed c).queues.reasm = s.queues.reasm := by
  unfold State.cellFreed
  dsimp only
  split
  · rfl
  · split
    · split <;> simp
    · rfl

@[simp] theorem State.reasm_releaseChain (s : State) (a n : Nat) (l : List Nat) :
    (s.releaseChain a n l).queues.reasm = s.queues.reasm :=
  foldl_keeps State.cellFreed (fun s => s.queues.reasm) State.reasm_cellFreed l (s.release a n)

/-- Fields after `releaseChain`. -/
@[simp] theorem State.releaseChain_fields (s : State) (a n : Nat) (l : List Nat) :
    (s.releaseChain a n l).clk = s.clk ∧ (s.releaseChain a n l).id = s.id ∧ (s.releaseChain a n l).life = s.life ∧
    (s.releaseChain a n l).crypto = s.crypto ∧ (s.releaseChain a n l).time = s.time ∧ (s.releaseChain a n l).hw = s.hw ∧
    (s.releaseChain a n l).dirty = s.dirty ∧ (s.releaseChain a n l).fe = s.fe ∧ (s.releaseChain a n l).lanes = s.lanes ∧
    (s.releaseChain a n l).dec = s.dec ∧ (s.releaseChain a n l).mac = s.mac ∧ (s.releaseChain a n l).table = s.table ∧
    (s.releaseChain a n l).wake = s.wake ∧ (s.releaseChain a n l).canopy = s.canopy := by
  have h := (s.releaseChain_frame a n l).2.2
  refine ⟨?_, ?_, ?_, ?_, ?_, ?_, ?_, ?_, ?_, ?_, ?_, ?_, ?_, ?_⟩
  · exact (congrArg State.clk h :)
  · exact (congrArg State.id h :)
  · exact (congrArg State.life h :)
  · exact (congrArg State.crypto h :)
  · exact (congrArg State.time h :)
  · exact (congrArg State.hw h :)
  · exact (congrArg State.dirty h :)
  · exact (congrArg State.fe h :)
  · exact (congrArg State.lanes h :)
  · exact (congrArg State.dec h :)
  · exact (congrArg State.mac h :)
  · exact (congrArg State.table h :)
  · exact (congrArg State.wake h :)
  · exact (congrArg State.canopy h :)

/-! ## What an owed ACK writes (R151 to R153) -/

@[simp] theorem State.lanes_releaseAll (s : State) (l : List Packet) : (s.releaseAll l).lanes = s.lanes :=
  foldl_keeps _ State.lanes (fun s p => (by simp)) l s

@[simp] theorem State.lanes_removePacket (s : State) (k : Nat) : (s.removePacket k).2.lanes = s.lanes := by
  unfold State.removePacket
  refine (foldl_keeps _ (fun r : Nat × State => r.2.lanes) (fun r f => ?_) feAll _).trans ?_
  · exact foldl_keeps _ State.lanes (fun s q => (by simp)) _ _
  · simp

@[simp] theorem State.lanes_pacedEnd (s : State) (k n e : Nat) : (s.pacedEnd k n e).lanes = s.lanes := by
  unfold State.pacedEnd
  split
  · rfl
  · dsimp only
    split
    · split <;> rfl
    · rfl

@[simp] theorem State.lanes_abandonRest (s : State) (d : DownFrame) : (s.abandonRest d).lanes = s.lanes := by
  unfold State.abandonRest
  split
  · rfl
  · simp

@[simp] theorem State.lanes_discardFrame (s : State) (d : DownFrame) (a n : Nat) (l : List Nat) (c : Ctr) (x : Scope) :
    (s.discardFrame d a n l c x).lanes = s.lanes := by
  simp [State.discardFrame]

@[simp] theorem State.lanes_bulkSentBy (s : State) (f : Fe) (r : Retry) : (s.bulkSentBy f r).lanes = s.lanes := by
  simp [State.bulkSentBy]

@[simp] theorem State.lanes_frameLost (s : State) (f : Fe) (r : Retry) (c : Ctr) : (s.frameLost f r c).lanes = s.lanes := by
  unfold State.frameLost
  split <;> simp

@[simp] theorem State.lanes_attemptFailed (s : State) (f : Fe) (r : Retry) (c : Ctr) : (s.attemptFailed f r c).lanes = s.lanes := by
  unfold State.attemptFailed
  dsimp only
  split
  · simp
  · split
    · simp
    · rfl

@[simp] theorem State.lanes_accessFailed (s : State) (f : Fe) (a : Attempt) : (s.accessFailed f a).lanes = s.lanes := by
  unfold State.accessFailed
  dsimp only
  split
  · simp
  · split <;> rfl
  · rfl

@[simp] theorem State.lanes_returnCharge (s : State) (c : Option (Nat × Nat)) (us : Nat) : (s.returnCharge c us).lanes = s.lanes := by
  unfold State.returnCharge
  split <;> rfl

@[simp] theorem State.lanes_addCredit (s : State) (w : Nat) (f : Fe) (d : Int) : (s.addCredit w f d).2.lanes = s.lanes := rfl

@[simp] theorem State.lanes_giveBack (s : State) (f : Fe) (a : Attempt) : (s.giveBack f a).lanes = s.lanes := by
  unfold State.giveBack
  dsimp only
  repeat' split
  all_goals simp

@[simp] theorem State.lanes_withdraw (s : State) (f : Fe) : (s.withdraw f).lanes = s.lanes := rfl

@[simp] theorem State.lanes_csmaBusy (s : State) (f : Fe) : (s.csmaBusy f).lanes = s.lanes := by
  unfold State.csmaBusy
  split
  · rfl
  · dsimp only
    split
    · simp
    · simp [State.backOff]

/-- An ACK that becomes owed takes the front end from other requests: no lane is written. -/
@[simp] theorem State.lanes_ackTakes (s : State) (f : Fe) : (s.ackTakes f).lanes = s.lanes := by
  unfold State.ackTakes
  split
  · simp
  · split
    · rfl
    · simp
    · split
      · rfl
      · simp

/-- Without an attempt under way, only requests posted and held are withdrawn. -/
theorem State.ackTakes_of_noAttempt {s : State} {f : Fe} (h : (s.feSt f).attempt = none) : s.ackTakes f = s.withdraw f := by
  simp only [State.ackTakes, h]

end Sys2Proof.Machine

namespace Sys2Proof.Machine

/-! # What the end of a frame and its acceptance leave -/

/-! ## The cells of a frame that ends (R131, R235) -/

/-- Fields after `leaveStaging`. -/
@[simp] theorem State.leaveStaging_fields (s : State) (w : Producer) (n : Nat) :
    (s.leaveStaging w n).clk = s.clk ∧ (s.leaveStaging w n).id = s.id ∧ (s.leaveStaging w n).life = s.life ∧
    (s.leaveStaging w n).time = s.time ∧ (s.leaveStaging w n).tally = s.tally ∧ (s.leaveStaging w n).fe = s.fe ∧
    (s.leaveStaging w n).lanes = s.lanes ∧ (s.leaveStaging w n).mac = s.mac ∧ (s.leaveStaging w n).table = s.table ∧
    (s.leaveStaging w n).canopy = s.canopy ∧ (s.leaveStaging w n).queues.used = s.queues.used ∧
    (s.leaveStaging w n).queues.orders = s.queues.orders :=
  ⟨rfl, rfl, rfl, rfl, rfl, rfl, rfl, rfl, rfl, rfl, rfl, rfl⟩

/-- Of a frame that ends, the lane keeps the frames behind it. -/
theorem State.frames_freeLane {s : State} {l : Nat} {i : RxInfo} {h : RxHdr} {rest : List (RxInfo × RxHdr)}
    (hf : (s.laneNow l).frames = (i, h) :: rest) (he : h.endNs ≤ s.netNs) : ((s.freeLane l).lane l).frames = rest := by
  rw [State.freeLane, State.lane_setLane_self]
  exact State.frames_dropDone hf he _ _

/-- A frame closed leaves its lane as one freed, and orders, records and front ends as they are. -/
theorem State.closeFrame_fields (s : State) (r : RxEnd) :
    (s.closeFrame r).lanes = (s.freeLane r.lane).lanes ∧ (s.closeFrame r).queues.orders = s.queues.orders ∧
      (s.closeFrame r).table = s.table ∧ (s.closeFrame r).fe = s.fe := by
  have ho := (State.releaseChain_frame (s.freeLane r.lane) (rxAcct (feCode r.fe)) r.hdr.cells r.hdr.chain).2.1
  exact ⟨by simp [State.closeFrame], ho, by simp [State.closeFrame, State.freeLane], by simp [State.closeFrame, State.freeLane]⟩

/-- Its cells return to the account of its pipeline. -/
theorem State.used_closeFrame (s : State) (r : RxEnd) :
    (s.closeFrame r).used (rxAcct (feCode r.fe)) = s.used (rxAcct (feCode r.fe)) - r.hdr.cells := by
  have h := State.used_releaseChain (s.freeLane r.lane) (rxAcct (feCode r.fe)) r.hdr.cells (rxAcct (feCode r.fe)) r.hdr.chain
  rw [if_pos rfl] at h
  exact h

theorem State.counter_closeFrame (s : State) (r : RxEnd) {c : Ctr} (x : Scope) (hc : c ∉ cellCounters) :
    (s.closeFrame r).counter c x = s.counter c x :=
  State.counter_releaseChain (s.freeLane r.lane) (rxAcct (feCode r.fe)) r.hdr.cells r.hdr.chain x hc

theorem State.order_of_orders {s u : State} (h : u.queues.orders = s.queues.orders) (k : Nat) : u.order k = s.order k := by
  simp only [State.order, h]

/-! ## The table at acceptance (R262 to R274, R382) -/

/-- Without what the acceptance of a frame writes: Tally, the mailboxes and the events held, the node table, Canopy, the coalescing buffer. -/
def State.sansTable (s : State) : State := { s.sansMail with table := {}, canopy := {}, dirty := [] }

theorem State.sansTable_of_sansMail {s u : State} (h : u.sansMail = s.sansMail) : u.sansTable = s.sansTable := by
  simp only [State.sansTable, h]

theorem State.sansTable_touch (s : State) (d : HwDirty) : (s.touch d).sansTable = s.sansTable := by
  rw [(s.touch_eq d).1]
  rfl

theorem State.sansTable_putNode (s : State) (i : Nat) (n : Node) : (s.putNode i n).sansTable = s.sansTable := by
  rw [State.putNode, State.sansTable_touch]
  rfl

theorem State.sansTable_learn (s : State) (f : Fe) (h : Hearing) : (s.learn f h).sansTable = s.sansTable := by
  unfold State.learn
  dsimp only
  split
  · rfl
  · split <;> rfl

theorem State.sansTable_refresh (s : State) (i : Nat) (f : Fe) (h : Hearing) (rate : Nat) (tracked : Bool) :
    (s.refresh i f h rate tracked).sansTable = s.sansTable := by
  unfold State.refresh
  split
  · rfl
  · dsimp only
    split <;> exact State.sansTable_putNode _ _ _

theorem State.sansTable_measureU (s : State) (i : Nat) (r : RxEnd) : (s.measureU i r).sansTable = s.sansTable := by
  unfold State.measureU
  dsimp only
  split
  · rfl
  · split
    · rfl
    · split <;> rfl

theorem State.sansTable_noteChannel (s : State) (i : Nat) (r : RxEnd) : (s.noteChannel i r).sansTable = s.sansTable := by
  unfold State.noteChannel
  dsimp only
  repeat' split
  all_goals rfl

theorem State.sansTable_raiseTableFull (s : State) (reason : Nat) : (s.raiseTableFull reason).sansTable = s.sansTable :=
  State.sansTable_of_sansMail (State.sansMail_raise _ _ _ _)

theorem State.sansTable_insertFailed (s : State) (reason : Nat) : (s.insertFailed reason).sansTable = s.sansTable := by
  unfold State.insertFailed
  dsimp only
  rw [apply_ite State.sansTable, State.sansTable_raiseTableFull]
  exact ite_self s.sansTable

theorem State.sansTable_insertNode (s : State) (n : Node) : (s.insertNode n).2.sansTable = s.sansTable := by
  unfold State.insertNode
  dsimp only
  split
  · exact State.sansTable_insertFailed _ _
  · split
    · exact State.sansTable_insertFailed _ _
    · exact State.sansTable_putNode _ _ _

/-- The lookup of an accepted frame writes the table and what stands beside it. -/
theorem State.sansTable_acceptSource (s : State) (r : RxEnd) (f : AirFrame) : (s.acceptSource r f).2.sansTable = s.sansTable := by
  unfold State.acceptSource
  split
  · split
    · dsimp only
      rw [State.sansTable_noteChannel, State.sansTable_measureU, State.sansTable_refresh]
      split
      · rfl
      · exact State.sansTable_learn _ _ _
    · rfl
    · rfl
    · dsimp only
      split
      · rfl
      · split
        · rfl
        · split <;> exact State.sansTable_insertNode _ _
  · rfl

theorem State.sansTable_learnFrame (s : State) (r : RxEnd) (src : Addr) (direct : Bool) :
    (s.learnFrame r src direct).sansTable = s.sansTable := by
  unfold State.learnFrame
  split
  · rfl
  · split
    · split
      · exact State.sansTable_learn _ _ _
      · rfl
    · rfl

theorem State.counter_learnFrame (s : State) (r : RxEnd) (src : Addr) (direct : Bool) {c : Ctr} (x : Scope) (hc : c ≠ .linkMerge) :
    (s.learnFrame r src direct).counter c x = s.counter c x := by
  have hl : ∀ h, (s.learn r.fe h).counter c x = s.counter c x := by
    intro h
    unfold State.learn
    dsimp only
    split
    · rfl
    · split
      · exact State.counter_count_ne _ _ _ hc
      · rfl
  unfold State.learnFrame
  split
  · rfl
  · split
    · split
      · exact hl _
      · rfl
    · rfl

/-! ## The part's answer to an accepted frame (R146 to R153) -/

/-- What the part's answer to a frame leaves: cells and queues, the table, which frames the lanes hold, the count of duplicates. -/
structure State.AnswerKeeps (s u : State) : Prop where
  queues : u.queues = s.queues
  table : u.table = s.table
  frames : ∀ l, (u.lane l).frames = (s.lane l).frames
  dups : ∀ x, u.counter .rxDupDiscard x = s.counter .rxDupDiscard x

/-- Whether an ACK is owed is no matter of the frames a lane holds. -/
theorem State.frames_setAckOwed (s : State) (l : Nat) (b : Bool) (j : Nat) :
    ((s.setLane l { s.lane l with ackOwed := b }).lane j).frames = (s.lane j).frames := by
  rw [State.lane_setLane]
  split
  · rename_i h
    rw [h]
    rfl
  · rfl

theorem State.answerKeeps_setAckOwed (s : State) (l : Nat) (b : Bool) : s.AnswerKeeps (s.setLane l { s.lane l with ackOwed := b }) :=
  ⟨rfl, rfl, s.frames_setAckOwed l b, fun _ => rfl⟩

theorem State.answerKeeps_setFe (s : State) (f : Fe) (x : FeSt) : s.AnswerKeeps (s.setFe f x) := ⟨rfl, rfl, fun _ => rfl, fun _ => rfl⟩

theorem State.answerKeeps_charge (s : State) (i us : Nat) : s.AnswerKeeps (s.charge i us) := ⟨rfl, rfl, fun _ => rfl, fun _ => rfl⟩

theorem State.AnswerKeeps.trans {s t u : State} (h : s.AnswerKeeps t) (g : t.AnswerKeeps u) : s.AnswerKeeps u :=
  ⟨g.queues.trans h.queues, g.table.trans h.table, fun l => (g.frames l).trans (h.frames l), fun x => (g.dups x).trans (h.dups x)⟩

theorem State.AnswerKeeps.count {s u : State} (h : s.AnswerKeeps u) {c : Ctr} (hc : .rxDupDiscard ≠ c) (x : Scope) :
    s.AnswerKeeps (u.count c x) :=
  ⟨h.queues, h.table, h.frames, fun y => (State.counter_count_ne u x y hc).trans (h.dups y)⟩

/-- The ACK posted, where no attempt is under way, or refused with its count. -/
theorem State.answerKeeps_postAck {s : State} {r : RxEnd} (f : AirFrame) (ha : (s.feSt r.fe).attempt = none) :
    s.AnswerKeeps (s.postAck r f) := by
  have ho : s.AnswerKeeps (s.ackOver r.lane) := s.answerKeeps_setAckOwed r.lane false
  unfold State.postAck
  dsimp only
  split
  · exact ho.count (by decide) _
  · split
    · exact ho.count (by decide) _
    · split
      · exact ho.count (by decide) _
      · split
        · exact ho.count (by decide) _
        · split
          · exact ho.count (by decide) _
          · rw [State.ackTakes_of_noAttempt]
            · exact (((ho.trans (State.answerKeeps_charge _ _ _)).trans (State.answerKeeps_setAckOwed _ _ _)).trans
                (State.answerKeeps_setFe _ _ _)).trans (State.answerKeeps_setFe _ _ _)
            · simpa [State.feSt, State.charge, State.ackOver] using ha

/-- The frame asks for an ACK of the part's own. -/
def State.asksAck (s : State) (f : AirFrame) : Bool := f.ar && (f.ftype == 1 || f.ftype == 3) && s.ownDest f.dstPan f.dst

/-- The part's answer to a frame it accepts. -/
def State.answer (s : State) (r : RxEnd) (f : AirFrame) (asks : Bool) : State := if asks then s.postAck r f else s.ackOver r.lane

theorem State.answerKeeps_answer {s : State} {r : RxEnd} {f : AirFrame} {asks : Bool} (h : asks = false ∨ (s.feSt r.fe).attempt = none) :
    s.AnswerKeeps (s.answer r f asks) := by
  unfold State.answer
  split
  · rename_i ht
    exact State.answerKeeps_postAck f (h.resolve_left (by simp [ht]))
  · exact s.answerKeeps_setAckOwed r.lane false

/-! ## Duplicates (R154, R155) -/

theorem State.countWorldAndDevice_frame (s : State) (c : Ctr) (w : Option Nat) :
    (s.countWorldAndDevice c w).queues = s.queues ∧ (s.countWorldAndDevice c w).table = s.table ∧
      (s.countWorldAndDevice c w).lanes = s.lanes ∧ (s.countWorldAndDevice c w).fe = s.fe := by
  unfold State.countWorldAndDevice
  dsimp only
  split <;> exact ⟨rfl, rfl, rfl, rfl⟩

/-- A count in both scopes moves the part's own counter by one. -/
theorem State.counter_countWorldAndDevice (s : State) (c : Ctr) (w : Option Nat) :
    (s.countWorldAndDevice c w).counter c .device = s.counter c .device + 1 := by
  unfold State.countWorldAndDevice
  dsimp only
  split
  · simp [State.counter_count]
  · exact s.counter_count_self c .device

theorem State.dupEnter_frame (s : State) (f : AirFrame) (fcs : BitVec 32) (len e : Nat) :
    (s.dupEnter f fcs len e).queues = s.queues ∧ (s.dupEnter f fcs len e).lanes = s.lanes := by
  unfold State.dupEnter
  split
  · exact ⟨rfl, rfl⟩
  · dsimp only
    split
    · split
      · obtain ⟨hq, -, hl, -⟩ := State.countWorldAndDevice_frame _ _ _
        exact ⟨hq, hl⟩
      · exact ⟨rfl, rfl⟩
    · exact ⟨rfl, rfl⟩

end Sys2Proof.Machine

namespace Sys2Proof.Machine

/-! # The branches of a frame's end -/

/-! ## The branches of a frame's end (R13, R104, R149) -/

/-- No ACK is awaited: none is met or missed. -/
theorem State.awaited_of_noWait {s : State} {r : RxEnd} (h : (s.feSt r.fe).ackWait = none) (f : AirFrame) (good : Bool) :
    s.awaited r f good = s := by
  simp only [State.awaited, h]

/-- What the MAC knows of the frame (i, h) that ends in lane l of fe. -/
def rxEndOf (fe : Fe) (l : Nat) (i : RxInfo) (h : RxHdr) : RxEnd := { fe := fe, channel := i.channel, lane := l, info := i, hdr := h }

/-- The frame with its PSDU as received. -/
def psduFrame (h : RxHdr) (f : AirFrame) : AirFrame := { f with psdu := rxPsdu h f }

/-- A frame that ends while its front end awaits no ACK: the oldest of its lane, past its end and decoded. -/
structure State.Ends (s : State) (l : Nat) (fe : Fe) (i : RxInfo) (h : RxHdr) (rest : List (RxInfo × RxHdr)) : Prop where
  frames : (s.laneNow l).frames = (i, h) :: rest
  pipe : feOf i.fe = some fe
  ended : h.endNs ≤ s.netNs
  decoded : h.codewords ≤ h.decoded
  noWait : (s.feSt fe).ackWait = none

/-- The PSDU received is whole and its FCS right. -/
def RxHdr.sound (h : RxHdr) (f : AirFrame) : Prop :=
  h.ldpcBad = false ∧ (psduFrame h f).psdu.length = h.length ∧ fcsGood h.fcs2 (psduFrame h f).psdu = true

section Branches

variable {s : State} {l : Nat} {fe : Fe} {i : RxInfo} {h : RxHdr} {rest : List (RxInfo × RxHdr)} (f : AirFrame)

theorem State.Ends.noWait_close (e : s.Ends l fe i h rest) : ((s.closeFrame (rxEndOf fe l i h)).feSt fe).ackWait = none := by
  rw [State.feSt, (s.closeFrame_fields _).2.2.2]
  exact e.noWait

/-- A frame not whole is closed under one count of its FCS. -/
theorem State.Ends.frameEnd_bad (e : s.Ends l fe i h rest)
    (hb : h.ldpcBad = true ∨ (psduFrame h f).psdu.length ≠ h.length ∨ fcsGood h.fcs2 (psduFrame h f).psdu = false) :
    s.frameEnd l f = (if h.ldpcBad then (s.closeFrame (rxEndOf fe l i h)).count .rxLdpcFail (.pipe (feCode fe))
      else s.closeFrame (rxEndOf fe l i h)).count .rxFcsBad (.pipe (feCode fe)) := by
  have hn : ¬ (s.netNs < h.endNs ∨ h.decoded < h.codewords) := by have := e.ended; have := e.decoded; omega
  unfold State.frameEnd
  simp only [e.frames, e.pipe, List.head?_cons, Option.bind_some, Option.map_some, if_neg hn]
  cases hl : h.ldpcBad with
  | true => exact State.awaited_of_noWait e.noWait_close _ _
  | false =>
    rw [if_neg (by simp), if_pos (by simpa [hl, psduFrame] using hb)]
    exact State.awaited_of_noWait e.noWait_close _ _

/-- A whole data or command frame, while no RF test counts frames: accepted, or closed where it is not for the part. -/
theorem State.Ends.frameEnd_sound (e : s.Ends l fe i h rest) (hg : h.sound f) (ht : (s.feSt fe).rfTest = none) (hv : f.version = 2)
    (h0 : f.ftype ≠ 0) (h2 : f.ftype ≠ 2) :
    s.frameEnd l f =
      if s.forUs f then s.acceptFrame (rxEndOf fe l i h) (psduFrame h f)
      else
        let u := (s.closeFrame (rxEndOf fe l i h)).count .rxNotForUs (.pipe (feCode fe))
        if u.learnAll then u.learnFrame (rxEndOf fe l i h) f.src false else u := by
  obtain ⟨hl, hlen, hfcs⟩ := hg
  have hn : ¬ (s.netNs < h.endNs ∨ h.decoded < h.codewords) := by have := e.ended; have := e.decoded; omega
  have hw : s.awaited (rxEndOf fe l i h) (psduFrame h f) false = s := State.awaited_of_noWait e.noWait _ _
  unfold State.frameEnd
  simp only [e.frames, e.pipe, List.head?_cons, Option.bind_some, Option.map_some, if_neg hn, hl, ht]
  rw [if_neg (by simp), if_neg (by simpa [psduFrame] using And.intro hlen hfcs), if_neg (by simp), if_neg (by simp [hv]), if_neg h2, if_neg h0]
  simp only [rxEndOf, psduFrame] at hw ⊢
  rw [hw]
  rfl

end Branches

/-! ## Acceptance (R13, R14, R154) -/

@[simp] theorem State.lanes_commitTo (s : State) (k acct cells : Nat) (c : Content) (keep : List Nat) :
    (s.commitTo k acct cells c keep).lanes = s.lanes := (congrArg State.lanes (s.sansQueues_commitTo k acct cells c keep) :)

theorem State.acceptSource_fields (s : State) (r : RxEnd) (f : AirFrame) :
    (s.acceptSource r f).2.lanes = s.lanes ∧ (s.acceptSource r f).2.queues = s.queues ∧ (s.acceptSource r f).2.fe = s.fe :=
  have h := s.sansTable_acceptSource r f
  ⟨(congrArg State.lanes h :), (congrArg State.queues h :), (congrArg State.fe h :)⟩

theorem State.learnFrame_fields (s : State) (r : RxEnd) (src : Addr) (direct : Bool) :
    (s.learnFrame r src direct).lanes = s.lanes ∧ (s.learnFrame r src direct).queues = s.queues :=
  have h := s.sansTable_learnFrame r src direct
  ⟨(congrArg State.lanes h :), (congrArg State.queues h :)⟩

section Acceptance

variable {s : State} {r : RxEnd} {f : AirFrame}

/-- A duplicate is closed, counted and answered. -/
theorem State.acceptFrame_of_dup (h : s.dupFind f (fcsValue r.hdr.fcs2 f.psdu) r.hdr.length r.info.cmpNs = true) :
    s.acceptFrame r f =
      ((s.closeFrame r).countWorldAndDevice .rxDupDiscard ((s.freeLane r.lane).worldOfAddr f.src)).answer r f (s.asksAck f) := by
  have h' : (s.freeLane r.lane).dupFind f (fcsValue r.hdr.fcs2 f.psdu) r.hdr.length r.info.cmpNs = true := h
  unfold State.acceptFrame
  simp only [h', if_true]
  rfl

/-- Another frame is looked up, answered, entered as one that may be repeated, and committed with its descriptor. -/
theorem State.acceptFrame_of_new (h : s.dupFind f (fcsValue r.hdr.fcs2 f.psdu) r.hdr.length r.info.cmpNs = false) :
    ∃ d : RxDesc, d.sfdNs = r.info.sfdNs ∧ d.endNs = r.hdr.endNs ∧ d.length = r.hdr.length ∧ d.clk = s.clk ∧
      s.acceptFrame r f =
        ((((s.freeLane r.lane).acceptSource r f).2.answer r f (s.asksAck f)).dupEnter f (fcsValue r.hdr.fcs2 f.psdu) r.hdr.length
          r.hdr.endNs).commitTo (orderKey (384 + feCode r.fe) 0) (rxAcct (feCode r.fe)) r.hdr.cells (.rx d f) r.hdr.chain := by
  have h' : (s.freeLane r.lane).dupFind f (fcsValue r.hdr.fcs2 f.psdu) r.hdr.length r.info.cmpNs = false := h
  unfold State.acceptFrame
  simp only [h', Bool.false_eq_true, if_false]
  exact ⟨_, rfl, rfl, rfl, rfl, rfl⟩

/-- No ACK is asked for, or no attempt under way stands against it. -/
theorem State.asksAck_or_noAttempt {u : State} (hq : f.ar = false ∨ (s.feSt r.fe).attempt = none) (hf : u.fe = s.fe) :
    s.asksAck f = false ∨ (u.feSt r.fe).attempt = none :=
  hq.imp (fun ha => by simp [State.asksAck, ha]) fun ha => by rwa [State.feSt, hf]

/-- A duplicate leaves the lane with its cells, and the table as it is. -/
theorem State.acceptFrame_duplicate (hq : f.ar = false ∨ (s.feSt r.fe).attempt = none)
    (hd : s.dupFind f (fcsValue r.hdr.fcs2 f.psdu) r.hdr.length r.info.cmpNs = true) :
    (∀ l, ((s.acceptFrame r f).lane l).frames = ((s.freeLane r.lane).lane l).frames) ∧
      (∀ k, (s.acceptFrame r f).order k = s.order k) ∧
      (s.acceptFrame r f).used (rxAcct (feCode r.fe)) = s.used (rxAcct (feCode r.fe)) - r.hdr.cells ∧
      (s.acceptFrame r f).table = s.table ∧
      (s.acceptFrame r f).counter .rxDupDiscard .device = s.counter .rxDupDiscard .device + 1 := by
  rw [State.acceptFrame_of_dup hd]
  generalize (s.freeLane r.lane).worldOfAddr f.src = w
  obtain ⟨hl, ho, ht, hf⟩ := s.closeFrame_fields r
  obtain ⟨cq, ct, cl, cf⟩ := (s.closeFrame r).countWorldAndDevice_frame .rxDupDiscard w
  have hk := State.answerKeeps_answer (f := f) (State.asksAck_or_noAttempt hq (cf.trans hf))
  refine ⟨fun l => ?_, fun k => ?_, ?_, ?_, ?_⟩
  · rw [hk.frames, State.lane_of_lanes cl, State.lane_of_lanes hl]
  · rw [State.order, hk.queues, cq]
    exact State.order_of_orders ho k
  · rw [State.used, hk.queues, cq]
    exact s.used_closeFrame r
  · rw [hk.table, ct, ht]
  · rw [hk.dups, State.counter_countWorldAndDevice, State.counter_closeFrame _ _ _ (by decide)]

/-- A frame that is no duplicate goes to the tail of its pipeline's queue, with its cells. -/
theorem State.acceptFrame_accepted (hq : f.ar = false ∨ (s.feSt r.fe).attempt = none)
    (hd : s.dupFind f (fcsValue r.hdr.fcs2 f.psdu) r.hdr.length r.info.cmpNs = false) :
    (∀ l, ((s.acceptFrame r f).lane l).frames = ((s.freeLane r.lane).lane l).frames) ∧
      ∃ (p : Packet) (d : RxDesc),
        (s.acceptFrame r f).order (orderKey (384 + feCode r.fe) 0) = s.order (orderKey (384 + feCode r.fe) 0) ++ [p] ∧
        p.acct = rxAcct (feCode r.fe) ∧ p.cells = r.hdr.cells ∧ p.content = .rx d f ∧ d.sfdNs = r.info.sfdNs ∧ d.endNs = r.hdr.endNs ∧
        d.length = r.hdr.length ∧ d.clk = s.clk := by
  obtain ⟨d, dSfd, dEnd, dLen, dClk, heq⟩ := State.acceptFrame_of_new hd
  obtain ⟨sl, sq, sf⟩ := (s.freeLane r.lane).acceptSource_fields r f
  have hk := State.answerKeeps_answer (f := f) (State.asksAck_or_noAttempt hq sf)
  rw [heq]
  generalize ((s.freeLane r.lane).acceptSource r f).2.answer r f (s.asksAck f) = v at hk
  obtain ⟨dq, dl⟩ := v.dupEnter_frame f (fcsValue r.hdr.fcs2 f.psdu) r.hdr.length r.hdr.endNs
  generalize v.dupEnter f (fcsValue r.hdr.fcs2 f.psdu) r.hdr.length r.hdr.endNs = w at dq dl
  have ho : w.order (orderKey (384 + feCode r.fe) 0) = s.order (orderKey (384 + feCode r.fe) 0) := by
    rw [State.order, dq, hk.queues, sq]
    rfl
  refine ⟨fun l => ?_, w.newPacket (rxAcct (feCode r.fe)) r.hdr.cells (.rx d f) r.hdr.chain, d, ?_, rfl, rfl, rfl, dSfd, dEnd, dLen, dClk⟩
  · rw [State.lane_of_lanes (State.lanes_commitTo _ _ _ _ _ _), State.lane_of_lanes dl, hk.frames, State.lane_of_lanes sl]
  · rw [State.order_commitTo, if_pos rfl, ho]

end Acceptance

section Ends

variable {s : State} {l : Nat} {fe : Fe} {i : RxInfo} {h : RxHdr} {rest : List (RxInfo × RxHdr)} {f : AirFrame}

/-- A frame closed, whatever is counted of it. -/
theorem State.Ends.frames_close (e : s.Ends l fe i h rest) : ((s.closeFrame (rxEndOf fe l i h)).lane l).frames = rest := by
  rw [State.lane_of_lanes (s.closeFrame_fields (rxEndOf fe l i h)).1]
  exact State.frames_freeLane e.frames e.ended

/-- A frame not whole returns its cells, with one count of its FCS. -/
theorem State.Ends.bad (e : s.Ends l fe i h rest)
    (hb : h.ldpcBad = true ∨ (psduFrame h f).psdu.length ≠ h.length ∨ fcsGood h.fcs2 (psduFrame h f).psdu = false) :
    ((s.frameEnd l f).lane l).frames = rest ∧
      (s.frameEnd l f).used (rxAcct (feCode fe)) = s.used (rxAcct (feCode fe)) - h.cells ∧
      (∀ k, (s.frameEnd l f).order k = s.order k) ∧
      (s.frameEnd l f).counter .rxFcsBad (.pipe (feCode fe)) = s.counter .rxFcsBad (.pipe (feCode fe)) + 1 := by
  have hu := s.used_closeFrame (rxEndOf fe l i h)
  have ho := State.order_of_orders (s.closeFrame_fields (rxEndOf fe l i h)).2.1
  have hc := s.counter_closeFrame (rxEndOf fe l i h) (c := .rxFcsBad) (.pipe (feCode fe)) (by decide)
  rw [e.frameEnd_bad f hb]
  split
  · refine ⟨e.frames_close, hu, ho, ?_⟩
    rw [State.counter_count_self, State.counter_count_ne _ _ _ (by decide), hc]
  · refine ⟨e.frames_close, hu, ho, ?_⟩
    rw [State.counter_count_self, hc]

/-- A frame for another part is discarded with one count. -/
theorem State.Ends.foreign (e : s.Ends l fe i h rest) (hg : h.sound f) (ht : (s.feSt fe).rfTest = none) (hv : f.version = 2)
    (h0 : f.ftype ≠ 0) (h2 : f.ftype ≠ 2) (hu : s.forUs f = false) :
    ((s.frameEnd l f).lane l).frames = rest ∧ (∀ k, (s.frameEnd l f).order k = s.order k) ∧
      (s.frameEnd l f).counter .rxNotForUs (.pipe (feCode fe)) = s.counter .rxNotForUs (.pipe (feCode fe)) + 1 := by
  have ho := State.order_of_orders (s.closeFrame_fields (rxEndOf fe l i h)).2.1
  have hc := s.counter_closeFrame (rxEndOf fe l i h) (c := .rxNotForUs) (.pipe (feCode fe)) (by decide)
  rw [e.frameEnd_sound f hg ht hv h0 h2, hu, if_neg (by simp)]
  dsimp only
  split
  · obtain ⟨hl, hq⟩ := ((s.closeFrame (rxEndOf fe l i h)).count .rxNotForUs (.pipe (feCode fe))).learnFrame_fields (rxEndOf fe l i h) f.src false
    refine ⟨?_, fun k => ?_, ?_⟩
    · rw [State.lane_of_lanes hl]
      exact e.frames_close
    · rw [State.order, hq]
      exact ho k
    · rw [State.counter_learnFrame _ _ _ _ _ (by decide), State.counter_count_self, hc]
  · exact ⟨e.frames_close, ho, by rw [State.counter_count_self, hc]⟩

end Ends

end Sys2Proof.Machine

namespace Sys2Proof.Machine

/-! # Codewords, ACKs owed, and O39 -/

/-! ## Codewords (R104, R133, R134) -/

/-- The codeword of a frame that has just become complete in lane l. -/
def State.cwReady (s : State) (l : Nat) (h : RxHdr) : ReadyCw := { clk := s.clk, lane := l, long := h.cwlen, index := h.received }

/-- The pool as a codeword joins it: those of the present tick are called back, and cores serve from the whole. -/
def Decoders.join (d : Decoders) (clk : Nat) (w : ReadyCw) : Decoders := { d.recall clk with ready := (d.recall clk).ready ++ [w] }.feed 4

theorem Decoders.join_noIdle {d : Decoders} {clk : Nat} (hb : ∀ p ∈ d.busy, p.2.clk ≠ clk) (hi : d.idle = none) (w : ReadyCw) :
    d.join clk w = { d with ready := d.ready ++ [w] } := by
  rw [Decoders.join, Decoders.recall_eq_self hb]
  exact Decoders.feed_of_noIdle (d := { d with ready := d.ready ++ [w] }) hi 4

theorem Decoders.join_idle {d : Decoders} {clk c : Nat} (hb : ∀ p ∈ d.busy, p.2.clk ≠ clk) (hr : d.ready = []) (hi : d.idle = some c)
    (w : ReadyCw) : d.join clk w = { d with busy := d.busy.set c w, ready := [] } := by
  rw [Decoders.join, Decoders.recall_eq_self hb, hr]
  exact Decoders.feed_single (d := { d with ready := [w] }) hi rfl 3

/-- A codeword of the lane's only frame is received, and joins the pool. -/
theorem State.codeword_spec {s : State} {l : Nat} {i : RxInfo} {h : RxHdr} (hf : (s.laneNow l).frames = [(i, h)])
    (hr : h.received < h.codewords) :
    ((s.codeword l).lane l).frames = [(i, { h with received := h.received + 1 })] ∧
      s.codeword l = { s with lanes := (s.codeword l).lanes, dec := (s.codeword l).dec } ∧
      (s.codeword l).dec = s.dec.join s.clk (s.cwReady l h) := by
  have hx := LaneSt.frames_change hf (fun h => decide (h.received < h.codewords)) (fun h => { h with received := h.received + 1 }) (by simpa using hr)
  have he : s.codeword l = { s.setLane l ((s.laneNow l).change (fun h => decide (h.received < h.codewords))
      fun h => { h with received := h.received + 1 }) with dec := s.dec.join s.clk (s.cwReady l h) } := by
    simp [State.codeword, hf, hr, State.feed, Decoders.join, State.cwReady]
  rw [he]
  exact ⟨(congrArg LaneSt.frames (s.lane_setLane_self l _)).trans hx, rfl, rfl⟩

/-- A lane whose frames have all their codewords takes no other. -/
theorem State.codeword_of_received {s : State} {l : Nat} (h : ∀ p ∈ (s.laneNow l).frames, p.2.codewords ≤ p.2.received) : s.codeword l = s := by
  have hn : (s.laneNow l).frames.find? (fun p => decide (p.2.received < p.2.codewords)) = none :=
    List.find?_eq_none.2 fun p hp => by simpa using h p hp
  simp only [State.codeword, hn]

/-- What a frame holds once a codeword of it has stopped, its syndrome zero or not. -/
def RxHdr.tookWord (h : RxHdr) (w : ReadyCw) (word : BitVec 2048) (it maxIter : Nat) : RxHdr :=
  let zero := zeroSyndrome h.rate (helecN w.long / 64) (wordBlocks (helecN w.long / 64) word.toNat)
  { h with
    decoded := h.decoded + 1
    ldpcBad := h.ldpcBad || !zero
    iterations := max h.iterations (if zero then min it maxIter else maxIter)
    info := h.info ++ [(w.index, word.toNat % 2 ^ helecK h.rate h.cwlen)] }

/-- A core stops a codeword of the lane's only frame. -/
theorem State.decoded_spec {s : State} {core : Nat} {w : ReadyCw} {i : RxInfo} {h : RxHdr} (hb : s.dec.busy.get core = some w)
    (hf : (s.laneNow w.lane).frames = [(i, h)]) (hd : h.decoded < h.received) (it : Nat) (word : BitVec 2048) :
    ((s.decoded core it word).lane w.lane).frames = [(i, h.tookWord w word it s.ldpcMaxIter)] ∧
      s.decoded core it word = { s with lanes := (s.decoded core it word).lanes, dec := (s.decoded core it word).dec } := by
  have hx := LaneSt.frames_change hf (fun h => decide (h.decoded < h.received)) (fun h => h.tookWord w word it s.ldpcMaxIter) (by simpa using hd)
  have he : s.decoded core it word = { s.setLane w.lane ((s.laneNow w.lane).change (fun h => decide (h.decoded < h.received))
      fun h => h.tookWord w word it s.ldpcMaxIter) with dec := Decoders.feed { s.dec with busy := s.dec.busy.erase core } 4 } := by
    simp only [State.decoded, hb]
    rfl
  rw [he]
  exact ⟨(congrArg LaneSt.frames (s.lane_setLane_self w.lane _)).trans hx, rfl⟩

/-- A frame whose end or whose last codeword is still to come stands. -/
theorem State.frameEnd_early {s : State} {l : Nat} {i : RxInfo} {h : RxHdr} {rest : List (RxInfo × RxHdr)}
    (hf : (s.laneNow l).frames = (i, h) :: rest) (he : s.netNs < h.endNs ∨ h.decoded < h.codewords) (f : AirFrame) : s.frameEnd l f = s := by
  unfold State.frameEnd
  simp only [hf, List.head?_cons, Option.bind_some]
  cases feOf i.fe with
  | none => rfl
  | some fe => exact if_pos he

/-! ## When an ACK is owed (R152) -/

/-- A frame control that asks for an ACK. -/
def asksForAck (fc : FrameCtl) : Bool := fc.ar && fc.version == 2 && (fc.ftype == 1 || fc.ftype == 3)

theorem State.oweAck_of_asks {s : State} {l : Nat} {fe : Fe} {i : RxInfo} {h : RxHdr} {fc : FrameCtl}
    (hf : (s.lane l).frames.getLast? = some (i, h)) (hfe : feOf i.fe = some fe) (hfc : asksForAck fc = true)
    (hr : h.mode < 4 ∨ 1 ≤ h.decoded ∧ h.ldpcBad = false) (ht : (s.feSt fe).rfTest = none) :
    s.oweAck l fc = (s.setLane l { s.lane l with ackOwed := true }).ackTakes fe := by
  have hk : (fc.ar && fc.version == 2 && (fc.ftype == 1 || fc.ftype == 3)) = true := hfc
  have hd : (decide (h.mode < 4) || (decide (1 ≤ h.decoded) && !h.ldpcBad)) = true := by simpa using hr
  unfold State.oweAck
  simp only [hf, hfe, Option.bind_some, Option.map_some]
  rw [hk, hd, ht]
  rfl

theorem State.oweAck_of_not_asks {fc : FrameCtl} (h : asksForAck fc = false) (s : State) (l : Nat) : s.oweAck l fc = s := by
  have hk : (fc.ar && fc.version == 2 && (fc.ftype == 1 || fc.ftype == 3)) = false := h
  unfold State.oweAck
  split
  · rw [hk]
    rfl
  · rfl

/-- Settles O39: a codeword joins the pool at the tail; a frame's end is judged by its FCS, its destination and the duplicate cache, and what
is freed, counted or committed follows the branch taken; an owed ACK writes its lane only. -/
theorem codewordsAndFrames : Obligations.CodewordsAndFrames := by
  unfold Obligations.CodewordsAndFrames
  intro dt l s fe i h rest core it word w f fc pan dst c
  refine ⟨fun hf hr => ?_, fun hf => ?_, fun hb hl hf hd => ?_, fun hb => ?_, fun hf hfe he hd hw => ?_, fun hf he => ?_,
    fun hf hfe har hv ht hr hrf => ?_, fun hfc => ?_, fun ho hd => ?_, fun ho => ?_⟩
  · obtain ⟨hframes, hframe, hdec⟩ := State.codeword_spec hf hr
    refine ⟨_, rfl, hframes, hframe, fun hready hbusy hidle => ?_, fun hbusy hidle => ?_⟩
    · rw [hdec, Decoders.join_idle hbusy hready hidle]
      exact ⟨Tbl.get_set_self _ _ _, rfl⟩
    · rw [hdec, Decoders.join_noIdle hbusy hidle]
      exact ⟨rfl, rfl⟩
  · exact congrArg Host.Outcome.next (State.codeword_of_received hf)
  · rw [← hl] at hf ⊢
    obtain ⟨hframes, hframe⟩ := State.decoded_spec hb hf hd it word
    exact ⟨_, rfl, hframes, hframe⟩
  · exact congrArg Host.Outcome.next (by simp only [State.decoded, hb])
  · have e : (s.tick dt).Ends l fe i h rest := ⟨hf, hfe, he, hd, hw⟩
    refine ⟨fun hbad => ?_, fun hl hlen hfcs ht hv h0 h2 => ?_⟩
    · obtain ⟨hframes, hused, horder, hcount⟩ := e.bad hbad
      exact ⟨_, rfl, hframes, hused, horder _, hcount⟩
    · have hg : h.sound f := ⟨hl, hlen, hfcs⟩
      refine ⟨fun hu => ?_, fun hu hq => ?_⟩
      · obtain ⟨hframes, horder, hcount⟩ := e.foreign hg ht hv h0 h2 hu
        exact ⟨_, rfl, hframes, horder _, hcount⟩
      · have heq : (s.tick dt).frameEnd l f = (s.tick dt).acceptFrame (rxEndOf fe l i h) (psduFrame h f) := by
          rw [e.frameEnd_sound f hg ht hv h0 h2, hu, if_pos rfl]
        have hrest := State.frames_freeLane hf he
        refine ⟨fun hdup => ?_, fun hdup => ?_⟩
        · obtain ⟨hframes, p, d, horder, hp⟩ := State.acceptFrame_accepted (s := s.tick dt) (r := rxEndOf fe l i h) (f := psduFrame h f) hq hdup
          obtain ⟨hacct, hcells, hcontent, hsfd, hend, hlength, hclk⟩ := hp
          exact ⟨_, p, d, congrArg Host.Outcome.next heq, (hframes l).trans hrest, horder, hacct, hcells, hcontent, hsfd, hend, hlength, hclk⟩
        · obtain ⟨hframes, horder, hused, htable, hcount⟩ :=
            State.acceptFrame_duplicate (s := s.tick dt) (r := rxEndOf fe l i h) (f := psduFrame h f) hq hdup
          exact ⟨_, congrArg Host.Outcome.next heq, (hframes l).trans hrest, horder _, hused, congrArg TableSt.nodes htable, hcount⟩
  · exact congrArg Host.Outcome.next (State.frameEnd_early hf he f)
  · have hfc : asksForAck fc = true := by simpa [asksForAck, har, hv] using ht
    refine ⟨_, congrArg Host.Outcome.next (State.oweAck_of_asks hf hfe hfc hr hrf), ?_⟩
    rw [State.lane_of_lanes (State.lanes_ackTakes _ _), State.lane_setLane_self]
  · have hn : asksForAck fc = false := by
      rw [asksForAck]
      rcases hfc with ha | hv | ⟨h1, h3⟩ <;> simp_all
    exact congrArg Host.Outcome.next (State.oweAck_of_not_asks hn _ _)
  · exact congrArg Host.Outcome.next (if_pos (by simp [ho, hd]))
  · refine congrArg Host.Outcome.next (if_neg ?_)
    rcases ho with ha | hd <;> simp [*]

end Sys2Proof.Machine

namespace Sys2Proof.Machine

/-! # Frames of the pending-security queues, joins and datagrams given up, and O45 -/

/-! ## A frame taken from a pending-security queue (R14, R15, R372) -/

theorem State.used_of_queues {s u : State} (h : u.queues = s.queues) (a : Nat) : u.used a = s.used a := by simp only [State.used, h]

theorem State.node_of_table {s u : State} (h : u.table = s.table) (i : Nat) : u.node i = s.node i := by simp only [State.node, h]

/-- Counts of a received frame write Tally only. -/
theorem State.countRx_fields (s : State) (r : Rx) (c : Ctr) (w : Option Nat) :
    (s.countRx r c w).queues = s.queues ∧ (s.countRx r c w).table = s.table := by
  unfold State.countRx
  dsimp only
  split <;> exact ⟨rfl, rfl⟩

/-- The counter of the pipeline moves by one, whether a world is counted too or not. -/
theorem State.counter_countRx (s : State) (r : Rx) (c : Ctr) (w : Option Nat) :
    (s.countRx r c w).counter c (.pipe r.pipe) = s.counter c (.pipe r.pipe) + 1 := by
  unfold State.countRx
  dsimp only
  split
  · simp [State.counter_count]
  · exact s.counter_count_self _ _

/-- A frame dropped under a count: its cells go back, the table stands. -/
theorem State.dropRx_countRx (s : State) (r : Rx) {c : Ctr} (hc : c ∉ cellCounters) (w : Option Nat) :
    ((s.dropRx r).countRx r c w).table = s.table ∧
      ((s.dropRx r).countRx r c w).used r.pkt.acct = s.used r.pkt.acct - r.pkt.cells ∧
      ((s.dropRx r).countRx r c w).counter c (.pipe r.pipe) = s.counter c (.pipe r.pipe) + 1 := by
  obtain ⟨hq, ht⟩ := (s.dropRx r).countRx_fields r c w
  refine ⟨ht.trans (by simp [State.dropRx]), ?_, ?_⟩
  · rw [State.used_of_queues hq, State.dropRx, State.used_releaseChain, if_pos rfl]
  · rw [State.counter_countRx, State.dropRx, State.counter_releaseChain _ _ _ _ _ hc]

theorem State.security_of_empty {s v : State} {p : Fe} (h : s.take (orderKey (384 + feCode p) 0) = (none, v)) : s.security p = v := by
  simp only [State.security, h]

/-- The frame at the head of the queue of a pipeline: `r`, taken, leaves `v`. -/
structure State.TakesRx (s : State) (p : Fe) (r : Rx) (v : State) : Prop where
  take : s.take (orderKey (384 + feCode p) 0) = (some r.pkt, v)
  content : r.pkt.content = .rx r.d r.f
  pipe : r.pipe = feCode p

section Taken

variable {s v : State} {p : Fe} {r : Rx} {i : Nat}

/-- What becomes of a frame for which no record was found at its acceptance. -/
theorem State.TakesRx.security_unresolved (h : s.TakesRx p r v) (hf : r.d.found = .unresolved) :
    s.security p = (v.dropRx r).count .rxSrcUnresolved (.pipe (feCode p)) := by
  simp only [State.security, h.take, h.content, hf, State.dropRx]

theorem State.TakesRx.security_noRecord (h : s.TakesRx p r v) (hf : r.d.found = .noRecord) :
    s.security p = (v.dropRx r).count .rxJoinNoRecord (.pipe (feCode p)) := by
  simp only [State.security, h.take, h.content, hf, State.dropRx]

theorem State.TakesRx.security_late (h : s.TakesRx p r v) (hf : r.d.found = .late ∨ r.d.found = .absent) : s.security p = v.dropRx r := by
  rcases hf with hf | hf <;> simp only [State.security, h.take, h.content, hf, State.dropRx]

theorem State.TakesRx.security_gone (h : s.TakesRx p r v) (hf : r.d.found = .known i) (hs : v.stillStands i r.f.src = none) :
    s.security p = (v.dropRx r).countRx r .rxNodeGone r.d.world := by
  simp only [State.security, h.take, h.content, hf, hs, State.dropRx, State.countRx, h.pipe]

/-- A frame whose record stands is secured, and what that leaves is the state. -/
theorem State.TakesRx.security_stands {n : Node} {u : State} (h : s.TakesRx p r v) (hf : r.d.found = .known i)
    (hs : v.stillStands i r.f.src = some n) (hu : v.secure r i n = .done u) : s.security p = u := by
  have hr : ({ pipe := feCode p, pkt := r.pkt, d := r.d, f := r.f } : Rx) = r := by rw [← h.pipe]
  simp only [State.security, h.take, h.content, hf, hs, hr, hu]

end Taken

theorem State.node_of_stillStands {s : State} {i : Nat} {a : Addr} {n : Node} (h : s.stillStands i a = some n) : s.node i = some n :=
  (Option.filter_eq_some_iff.1 h).1

/-! ## Verification (R372, R376) -/

theorem State.loadSlot_eq (s : State) (i : Nat) (k : KeySlot) : s.loadSlot i k = { s with crypto := (s.loadSlot i k).crypto } := by
  unfold State.loadSlot
  dsimp only
  split <;> rfl

theorem State.cacheKey_eq (s : State) (i w : Nat) (k : Key) : s.cacheKey i w k = { s with crypto := (s.cacheKey i w k).crypto } := by
  unfold State.cacheKey
  dsimp only
  rw [State.loadSlot_eq]

/-- A link key is read: the key slots and the cache are written, and nothing else. -/
theorem State.linkKey_some {s w : State} {i : Nat} {n : Node} {k : Key} (h : s.linkKey i n = some (k, w)) : w = { s with crypto := w.crypto } := by
  unfold State.linkKey at h
  split at h
  · cases h
    rfl
  · split at h
    · split at h
      · split at h
        · cases h
          exact State.cacheKey_eq _ _ _ _
        · cases h
      · cases h
    · cases h

theorem State.dropCached_eq (s : State) (i : Nat) : s.dropCached i = { s with crypto := (s.dropCached i).crypto } := by
  unfold State.dropCached
  split <;> rfl

/-- A line written to Heartwood leaves the table. -/
@[simp] theorem State.table_lineWrite (s : State) (a : Nat) : (s.lineWrite a).table = s.table := by
  unfold State.lineWrite
  dsimp only
  split
  · rfl
  · split <;> rfl

/-- The inbound counter written through is the one Heartwood holds. -/
theorem State.writeFcIn_spec (s : State) (i : Nat) (v : BitVec 32) :
    (s.writeFcIn i v).table = s.table ∧ ∃ e, (s.writeFcIn i v).hw.fc.get i = some e ∧ e.fcIn = v :=
  ⟨s.table_lineWrite _, _, Tbl.get_set_self _ _ _, rfl⟩

theorem State.sansQueues_fields {s u : State} (h : u.sansQueues = s.sansQueues) : u.table = s.table ∧ u.hw = s.hw :=
  ⟨(congrArg State.table h :), (congrArg State.hw h :)⟩

/-- A packet that goes upstream, or is counted as one that cannot: the table and Heartwood stand. -/
theorem State.upstream_fields (s : State) (w : Nat) (src : BitVec 64) (ip : Octets) (tc : BitVec 8) (keep : List Nat) :
    (s.upstream w src ip tc keep).table = s.table ∧ (s.upstream w src ip tc keep).hw = s.hw := by
  unfold State.upstream
  split
  · exact ⟨rfl, rfl⟩
  · split
    · rename_i t ht
      exact State.sansQueues_fields (State.sansQueues_post ht)
    · exact ⟨rfl, rfl⟩

/-- The link key of a record, and a counter it has not yet taken: what R372 asks before a frame's MIC is verified. -/
structure Node.Accepts (n : Node) (sec : AirSec) : Prop where
  key : keyClass sec.keyIndex = .link n.world n.keyGen
  level : sec.level = n.secLevel
  fresh : n.fcIn.toNat ≤ sec.fc.toNat
  notLast : sec.fc.toNat ≠ 0xFFFFFFFF

/-- The record of a node one of whose frames has been verified. -/
def Node.verified (n : Node) (fc : BitVec 32) : Node :=
  { n with fcIn := fc, stale := 0, worn := n.worn || (decide (n.fcIn.toNat < wornCounter) && decide (wornCounter ≤ fc.toNat)) }

section Secured

variable {s w : State} {r : Rx} {sec : AirSec} {i : Nat} {n : Node} {k : Key}

theorem State.secure_of_clear (hf : r.f.sec = none) : s.secure r i n =
    .done ((s.dropRx r).countRx r .rxSecLevel (if n.state = .joining then none else some n.world)) := by
  simp only [State.secure, hf]

/-- A frame under a link key, no join being in progress, is judged by R372. -/
theorem State.secure_of_link (hf : r.f.sec = some sec) (hn : n.state ≠ .joining) (hj : s.joinOf i = none) (ha : n.Accepts sec) :
    s.secure r i n = s.verifyFrame r sec i n (.link n.world n.keyGen) := by
  simp only [State.secure, hf, ha.key, hj, if_pos hn]

theorem State.verifyFrame_of_accepts (ha : n.Accepts sec) (hk : s.linkKey i n = some (k, w)) :
    s.verifyFrame r sec i n (.link n.world n.keyGen) =
      if r.opens sec k then ((w.setNode i (n.verified (sec.fc + 1))).writeFcIn i (sec.fc + 1)).upContent r i (n.verified (sec.fc + 1))
      else .done ((w.dropRx r).countRx r .rxMicFail (some n.world)) := by
  have hfc : ¬ (sec.fc.toNat < n.fcIn.toNat ∨ sec.fc.toNat = lastCounter) := by
    have := ha.fresh; have := ha.notLast; simp only [lastCounter]; omega
  unfold State.verifyFrame
  simp only [ha.level, ne_eq, not_true_eq_false, if_false, bne_self_eq_false, Bool.or_self, Bool.false_and, Bool.false_eq_true, if_neg hfc,
    State.verify, hk, Option.map_some]
  cases r.opens sec k <;> rfl

/-- An uncompressed datagram in one frame goes upstream whole. -/
theorem State.upContent_of_data {ip : Octets} {tc : BitVec 8} (hp : r.f.payload = .data ip true tc none) :
    s.upContent r i n = .done ((s.dropRx r).upstream n.world n.eui ip tc r.pkt.chain) := by
  simp [State.upContent, hp]

/-- A frame that verifies advances the inbound counter of its record, there and in Heartwood. -/
theorem State.secure_verified {ip : Octets} {tc : BitVec 8} (hf : r.f.sec = some sec) (hn : n.state ≠ .joining) (hj : s.joinOf i = none)
    (ha : n.Accepts sec) (hk : s.linkKey i n = some (k, w)) (ho : r.opens sec k = true) (hp : r.f.payload = .data ip true tc none) :
    ∃ (u : State) (e : FcEntry), s.secure r i n = .done u ∧ u.node i = some (n.verified (sec.fc + 1)) ∧ u.hw.fc.get i = some e ∧
      e.fcIn = sec.fc + 1 := by
  have hs : s.secure r i n = _ := (State.secure_of_link hf hn hj ha).trans (State.verifyFrame_of_accepts ha hk)
  rw [if_pos ho, State.upContent_of_data hp] at hs
  obtain ⟨ht, e, he, hfc⟩ := (w.setNode i (n.verified (sec.fc + 1))).writeFcIn_spec i (sec.fc + 1)
  generalize (w.setNode i (n.verified (sec.fc + 1))).writeFcIn i (sec.fc + 1) = x at hs ht he
  obtain ⟨hut, huh⟩ := (x.dropRx r).upstream_fields (n.verified (sec.fc + 1)).world (n.verified (sec.fc + 1)).eui ip tc r.pkt.chain
  refine ⟨_, e, hs, ?_, ?_, hfc⟩
  · have hx : (x.dropRx r).table = x.table := by simp [State.dropRx]
    rw [State.node_of_table (hut.trans (hx.trans ht))]
    exact Tbl.get_set_self _ _ _
  · have hx : (x.dropRx r).hw = x.hw := by simp [State.dropRx]
    rw [huh, hx, he]

/-- A frame whose MIC fails is dropped with its count. -/
theorem State.secure_micFails (hf : r.f.sec = some sec) (hn : n.state ≠ .joining) (hj : s.joinOf i = none)
    (ha : n.Accepts sec) (hk : s.linkKey i n = some (k, w)) (ho : r.opens sec k = false) :
    ∃ u : State, s.secure r i n = .done u ∧ u.table = s.table ∧
      u.counter .rxMicFail (.pipe r.pipe) = s.counter .rxMicFail (.pipe r.pipe) + 1 := by
  have hs : s.secure r i n = _ := (State.secure_of_link hf hn hj ha).trans (State.verifyFrame_of_accepts ha hk)
  rw [if_neg (by simp [ho])] at hs
  obtain ⟨ht, -, hc⟩ := w.dropRx_countRx r (c := .rxMicFail) (by decide) (some n.world)
  have hw := State.linkKey_some hk
  have hk : w.counter .rxMicFail (.pipe r.pipe) = s.counter .rxMicFail (.pipe r.pipe) := State.counter_of_tally (congrArg State.tally hw :) _ _
  exact ⟨_, hs, ht.trans (congrArg State.table hw :), hc.trans (by rw [hk])⟩

end Secured

section Taken

variable {s v w : State} {p : Fe} {r : Rx} {sec : AirSec} {i : Nat} {n : Node} {k : Key}

/-- A frame whose record has gone returns its cells, with one count. -/
theorem State.TakesRx.gone (h : s.TakesRx p r v) (hd : r.d.found = .known i) (hs : v.stillStands i r.f.src = none) :
    (s.security p).table = v.table ∧ (s.security p).used r.pkt.acct = v.used r.pkt.acct - r.pkt.cells ∧
      (s.security p).counter .rxNodeGone (.pipe (feCode p)) = v.counter .rxNodeGone (.pipe (feCode p)) + 1 := by
  rw [h.security_gone hd hs, ← h.pipe]
  exact v.dropRx_countRx r (by decide) r.d.world

/-- A frame in the clear returns its cells, with one count, and changes no record. -/
theorem State.TakesRx.clear (h : s.TakesRx p r v) (hd : r.d.found = .known i) (hs : v.stillStands i r.f.src = some n) (hf : r.f.sec = none) :
    (s.security p).node i = some n ∧ (s.security p).used r.pkt.acct = v.used r.pkt.acct - r.pkt.cells ∧
      (s.security p).counter .rxSecLevel (.pipe (feCode p)) = v.counter .rxSecLevel (.pipe (feCode p)) + 1 := by
  rw [h.security_stands hd hs (State.secure_of_clear hf), ← h.pipe]
  obtain ⟨htable, hused, hcount⟩ := v.dropRx_countRx r (c := .rxSecLevel) (by decide) (if n.state = .joining then none else some n.world)
  exact ⟨(State.node_of_table htable i).trans (State.node_of_stillStands hs), hused, hcount⟩

/-- A frame that verifies advances the inbound counter of its record, there and in Heartwood. -/
theorem State.TakesRx.verified {ip : Octets} {tc : BitVec 8} (h : s.TakesRx p r v) (hd : r.d.found = .known i)
    (hs : v.stillStands i r.f.src = some n) (hf : r.f.sec = some sec) (hn : n.state ≠ .joining) (hj : v.joinOf i = none)
    (ha : n.Accepts sec) (hk : v.linkKey i n = some (k, w)) (ho : r.opens sec k = true) (hp : r.f.payload = .data ip true tc none) :
    (s.security p).node i = some (n.verified (sec.fc + 1)) ∧ ∃ e, (s.security p).hw.fc.get i = some e ∧ e.fcIn = sec.fc + 1 := by
  obtain ⟨u, e, hu, hnode, he⟩ := State.secure_verified hf hn hj ha hk ho hp
  rw [h.security_stands hd hs hu]
  exact ⟨hnode, e, he⟩

/-- A frame whose MIC fails is counted and changes no record. -/
theorem State.TakesRx.micFails (h : s.TakesRx p r v) (hd : r.d.found = .known i)
    (hs : v.stillStands i r.f.src = some n) (hf : r.f.sec = some sec) (hn : n.state ≠ .joining) (hj : v.joinOf i = none)
    (ha : n.Accepts sec) (hk : v.linkKey i n = some (k, w)) (ho : r.opens sec k = false) :
    (s.security p).node i = some n ∧
      (s.security p).counter .rxMicFail (.pipe (feCode p)) = v.counter .rxMicFail (.pipe (feCode p)) + 1 := by
  obtain ⟨u, hu, htable, hcount⟩ := State.secure_micFails hf hn hj ha hk ho
  rw [h.security_stands hd hs hu, ← h.pipe]
  exact ⟨(State.node_of_table htable i).trans (State.node_of_stillStands hs), hcount⟩

end Taken

/-! ## Joins and datagrams given up (R383, R536) -/

theorem State.dropCached_fields (s : State) (i : Nat) : (s.dropCached i).table = s.table ∧ (s.dropCached i).tally = s.tally :=
  have h := s.dropCached_eq i
  ⟨(congrArg State.table h :), (congrArg State.tally h :)⟩

theorem State.putNode_fields (s : State) (i : Nat) (n : Node) :
    (s.putNode i n).table = { s.table with nodes := s.table.nodes.set i n } ∧ (s.putNode i n).tally = s.tally :=
  have h := ((s.setNode i n).touch_eq (.nodeState i)).1
  ⟨(congrArg State.table h :), (congrArg State.tally h :)⟩

/-- A record cleared: CLEARING at its index, its join dropped, no counter moved. -/
theorem State.clearNode_spec {s : State} {i : Nat} {n : Node} (h : s.node i = some n) (hn : n.state ≠ .clearing) :
    ((s.clearNode i).node i).map (fun m => m.state) = some .clearing ∧
      (s.clearNode i).table.joins = s.table.joins.filter (fun j => j.node != i) ∧ (s.clearNode i).tally = s.tally := by
  have hb : ¬ (n.state == NodeState.clearing) = true := by simpa using hn
  simp only [State.clearNode, h, if_neg hb]
  obtain ⟨pt, pl⟩ := (s.unindex i n.eui).putNode_fields i { n with state := .clearing, clearPass := s.table.sweepPass }
  generalize (s.unindex i n.eui).putNode i { n with state := .clearing, clearPass := s.table.sweepPass } = u at pt pl
  obtain ⟨dt, dl⟩ := (u.forgetNode i).dropCached_fields i
  refine ⟨?_, ?_, dl.trans pl⟩
  · have hnode : u.node i = some { n with state := .clearing, clearPass := s.table.sweepPass } := by
      rw [State.node, pt]
      exact Tbl.get_set_self _ _ _
    rw [State.node_of_table dt]
    exact (congrArg (Option.map fun m : Node => m.state) hnode :)
  · rw [dt]
    exact congrArg (fun t : TableSt => t.joins.filter fun j => j.node != i) pt

/-- A new join given up: dropped and counted, its record CLEARING. -/
theorem State.joinFails_spec {s : State} {i : Nat} {n : Node} (h : s.node i = some n) (hn : n.state = .joining) (w : Nat) (c : Ctr) :
    (s.joinFails i n w c).joinOf i = none ∧ ((s.joinFails i n w c).node i).map (fun m => m.state) = some .clearing ∧
      (s.joinFails i n w c).counter c (.world w) = s.counter c (.world w) + 1 := by
  have hd : ((s.dropJoin i).count c (.world w)).node i = some n := h
  obtain ⟨hstate, hjoins, htally⟩ := State.clearNode_spec hd (by rw [hn]; decide)
  simp only [State.joinFails, if_pos hn]
  refine ⟨?_, hstate, ?_⟩
  · rw [State.joinOf, hjoins, List.find?_eq_none]
    intro j hj
    simpa using (List.mem_filter.1 hj).2
  · rw [State.counter_of_tally htally, State.counter_count_self]
    rfl

/-- The cells of a datagram's fragments go back. -/
def State.releaseFrags (s : State) (l : List (Nat × Octets × Packet)) : State :=
  l.foldl (fun s p => s.releaseChain p.2.2.acct p.2.2.cells p.2.2.chain) s

theorem State.releaseFrags_spec (s : State) (l : List (Nat × Octets × Packet)) :
    (s.releaseFrags l).queues.reasm = s.queues.reasm ∧ (s.releaseFrags l).queues.orders = s.queues.orders ∧
      ∀ w, (s.releaseFrags l).counter .usReasmFail w = s.counter .usReasmFail w :=
  ⟨foldl_keeps _ (fun s => s.queues.reasm) (fun s _ => s.reasm_releaseChain _ _ _) l s,
    foldl_keeps _ (fun s => s.queues.orders) (fun s _ => (s.releaseChain_frame _ _ _).2.1) l s,
    fun w => foldl_keeps _ (fun s => s.counter .usReasmFail w) (fun s _ => s.counter_releaseChain _ _ _ _ (by decide)) l s⟩

/-- Fragments given up: their cells go back and one count is made; orders and other datagrams stand. -/
theorem State.dropReasm_spec (s : State) (x : Reasm) :
    (s.dropReasm x).queues.reasm = s.queues.reasm.filter (fun y => y != x) ∧ (s.dropReasm x).queues.orders = s.queues.orders ∧
      (s.dropReasm x).counter .usReasmFail (.world x.world) = s.counter .usReasmFail (.world x.world) + 1 := by
  obtain ⟨hreasm, horders, hcount⟩ := s.releaseFrags_spec x.frags
  refine ⟨congrArg (List.filter fun y => y != x) hreasm, horders, ?_⟩
  rw [← hcount]
  exact State.counter_count_self _ _ _

theorem State.reasmTimeout_eq {s : State} {x : Reasm} (h : s.queues.reasm = [x]) :
    s.reasmTimeout x.src x.tag x.size = if s.firmware && decide (x.first + secTicks 60 ≤ s.clk) then s.dropReasm x else s := by
  simp [State.reasmTimeout, h]

theorem State.joinTimeout_eq {s : State} {i : Nat} {n : Node} {j : Join} (hj : s.joinOf i = some j) (hn : s.node i = some n) :
    s.joinTimeout i =
      if s.firmware && decide (j.startClk + secTicks s.joinTimeoutS ≤ s.clk) then s.joinFails i n j.world .joinTimeout else s := by
  simp only [State.joinTimeout, hj, hn]

/-- Before its time, in a pause or without a join there is nothing to give up. -/
theorem State.joinTimeout_not_due {s : State} {i : Nat}
    (h : ∀ j, s.joinOf i = some j → s.firmware = false ∨ s.clk < j.startClk + secTicks s.joinTimeoutS) : s.joinTimeout i = s := by
  unfold State.joinTimeout
  split
  · rename_i j n hj hn
    refine if_neg ?_
    rcases h j hj with hf | hc
    · simp [hf]
    · simp [hc]
  · rfl

/-- Settles O45: the branches of a frame taken from its queue, each by the lemma that says what it leaves, and the two times given up. -/
theorem securityOfReceivedFrames : Obligations.SecurityOfReceivedFrames := by
  unfold Obligations.SecurityOfReceivedFrames
  intro dt core p s v w pkt d f i n sec k ip tc j x
  have runs : (s.tick dt).coreRuns core = true → exec (.securityProcessing dt core p) s = .next ((s.tick dt).security p) :=
    fun hr => congrArg Host.Outcome.next (if_pos hr)
  refine ⟨fun hr => congrArg Host.Outcome.next (if_neg (by simp [hr])), fun hr ht => ?_, fun hr ht hc => ?_, fun hf hj hn hs hdue => ?_,
    fun h => ?_, fun hj hc => ?_, fun hx h => ?_, fun hf hx hdue => ?_⟩
  · rw [runs hr, State.security_of_empty ht]
  · have h : (s.tick dt).TakesRx p { pipe := feCode p, pkt := pkt, d := d, f := f } v := ⟨ht, hc, rfl⟩
    rw [runs hr]
    refine ⟨fun hd => congrArg Host.Outcome.next (h.security_unresolved hd), fun hd => congrArg Host.Outcome.next (h.security_noRecord hd),
      fun hd => congrArg Host.Outcome.next (h.security_late hd), fun hd hst => ?_, fun hd hst hlive => ⟨fun hsec => ?_, ?_⟩⟩
    · obtain ⟨htable, hused, hcount⟩ := h.gone hd hst
      exact ⟨_, rfl, hcount, hused, htable⟩
    · obtain ⟨hnode, hused, hcount⟩ := h.clear hd hst hsec
      exact ⟨_, rfl, hnode, hcount, hused⟩
    · intro hsec hjoin hkey hlevel hfresh hlast hlink
      have hn : n.state ≠ .joining := by rw [hlive]; decide
      have ha : n.Accepts sec := ⟨hkey, hlevel, hfresh, hlast⟩
      refine ⟨fun ho hp => ?_, fun ho => ?_⟩
      · obtain ⟨hnode, e, hget, hfc⟩ := h.verified hd hst hsec hn hjoin ha hlink ho hp
        exact ⟨_, n.verified (sec.fc + 1), e, rfl, hnode, rfl, rfl, rfl, rfl, rfl, rfl, hget, hfc⟩
      · exact ⟨_, rfl, h.micFails hd hst hsec hn hjoin ha hlink ho⟩
  · have hd : j.startClk + secTicks (s.tick dt).joinTimeoutS ≤ (s.tick dt).clk := by simp only [secTicks]; omega
    obtain ⟨hjoin, hstate, hcount⟩ := State.joinFails_spec hn hs j.world .joinTimeout
    exact ⟨_, congrArg Host.Outcome.next ((State.joinTimeout_eq hj hn).trans (if_pos (by simp [hf, hd]))), hjoin, hstate, hcount⟩
  · refine congrArg Host.Outcome.next (State.joinTimeout_not_due fun j' hj' => ?_)
    exact h.imp_right fun hnone => by rw [hnone] at hj'; cases hj'
  · refine congrArg Host.Outcome.next (State.joinTimeout_not_due fun j' hj' => .inr ?_)
    obtain rfl : j = j' := Option.some.inj (hj.symm.trans hj')
    simp only [secTicks]
    omega
  · refine congrArg Host.Outcome.next ((State.reasmTimeout_eq hx).trans (if_neg ?_))
    rcases h with hf | hc
    · simp [hf]
    · have hn : ¬ (x.first + secTicks 60 ≤ (s.tick dt).clk) := by simp only [secTicks]; omega
      simp [hn]
  · have hd : x.first + secTicks 60 ≤ (s.tick dt).clk := by simp only [secTicks]; omega
    obtain ⟨hreasm, horders, hcount⟩ := (s.tick dt).dropReasm_spec x
    refine ⟨_, congrArg Host.Outcome.next ((State.reasmTimeout_eq hx).trans (if_pos (by simp [hf, hd]))), ?_, horders, hcount⟩
    rw [hreasm, hx]
    simp

end Sys2Proof.Machine

namespace Sys2Proof.Machine

/-! # Operations that leave life cycle and boot flash

One fact per operation, in the order of the model's files; those that write either are treated after it. -/

/-- The life cycle and the boot flash stand. -/
@[simp, reducible] def State.SameBoot (s u : State) : Prop := u.life = s.life ∧ u.flash = s.flash

theorem State.SameBoot.trans {s t u : State} (h : s.SameBoot t) (g : t.SameBoot u) : s.SameBoot u := ⟨g.1.trans h.1, g.2.trans h.2⟩

@[simp] theorem State.life_ite (c : Prop) [Decidable c] (s t : State) : (if c then s else t).life = if c then s.life else t.life :=
  apply_ite _ _ _ _

@[simp] theorem State.flash_ite (c : Prop) [Decidable c] (s t : State) : (if c then s else t).flash = if c then s.flash else t.flash :=
  apply_ite _ _ _ _

/-- A fold stands where each of its steps does. -/
@[simp] theorem foldl_boot {β : Type} {f : State → β → State} (h : ∀ s b, State.SameBoot s (f s b)) (l : List β) (s : State) :
    s.SameBoot (l.foldl f s) :=
  ⟨foldl_keeps f State.life (fun s b => (h s b).1) l s, foldl_keeps f State.flash (fun s b => (h s b).2) l s⟩

theorem foldl_boot_snd {α β : Type} {f : α × State → β → α × State} (h : ∀ r b, State.SameBoot r.2 (f r b).2) (l : List β) (r : α × State) :
    State.SameBoot r.2 (l.foldl f r).2 :=
  ⟨foldl_keeps f (fun r => r.2.life) (fun r b => (h r b).1) l r, foldl_keeps f (fun r => r.2.flash) (fun r b => (h r b).2) l r⟩

@[simp] theorem boot_map_getD {α : Type} (s : State) (o : Option α) {f : α → State} (h : ∀ a, s.SameBoot (f a)) :
    s.SameBoot ((o.map f).getD s) := by
  cases o with
  | none => exact ⟨rfl, rfl⟩
  | some a => exact h a

/-- What protecting ends in leaves both. -/
def Prot.KeepsBoot (s : State) : Prot → Prop
  | .wait => True
  | .done u => s.SameBoot u

@[simp] theorem Prot.keepsBoot_wait (s : State) : Prot.wait.KeepsBoot s := trivial

@[simp] theorem Prot.keepsBoot_done {s u : State} : (Prot.done u).KeepsBoot s ↔ s.SameBoot u := Iff.rfl

theorem Prot.KeepsBoot.of_done {s u : State} {p : Prot} (h : p.KeepsBoot s) (hp : p = .done u) : s.SameBoot u := by
  rw [hp] at h
  exact h

theorem Prot.KeepsBoot.of_sameBoot {s t : State} {p : Prot} (h : p.KeepsBoot t) (g : s.SameBoot t) : p.KeepsBoot s := by
  cases p with
  | wait => trivial
  | done u => exact State.SameBoot.trans g h

/-! ## Machine/Ops -/

@[simp] theorem State.boot_draw (s : State) : s.SameBoot (s.draw).2 := ⟨rfl, rfl⟩

@[simp] theorem State.boot_count (s : State) (c : Ctr) (sc : Scope) : s.SameBoot (s.count c sc) := ⟨rfl, rfl⟩

@[simp] theorem State.boot_countBoth (s : State) (c : Ctr) (w : Nat) : s.SameBoot (s.countBoth c w) := ⟨rfl, rfl⟩

@[simp] theorem State.boot_deliverTo (s : State) (e : Event) (lost : Bool) (m : Nat) : s.SameBoot (s.deliverTo e lost m) := by
  simp [State.deliverTo]

@[simp] theorem State.boot_deliver (s : State) (e : Event) (lost : Bool) : s.SameBoot (s.deliver e lost) :=
  foldl_boot (fun s m => s.boot_deliverTo e lost m) _ s

@[simp] theorem State.boot_releaseEarly (s : State) : s.SameBoot s.releaseEarly := by
  simp [State.releaseEarly]

@[simp] theorem State.boot_touch (s : State) (d : HwDirty) : s.SameBoot (s.touch d) := by
  simp [State.touch]

/-! ## Machine/Chains -/

@[simp] theorem State.boot_spill (s : State) (q : Nat) : s.SameBoot (s.spill q) := ⟨rfl, rfl⟩

@[simp] theorem State.boot_leaveStaging (s : State) (w : Producer) (n : Nat) : s.SameBoot (s.leaveStaging w n) := ⟨rfl, rfl⟩

@[simp] theorem State.boot_unstage (s : State) (p : Packet) (keep : List Nat) : s.SameBoot (s.unstage p keep) := by
  unfold State.unstage
  split <;> simp

theorem State.boot_grant {s t : State} {a n : Nat} (h : s.grant a n = some t) : s.SameBoot t := by
  rw [(State.grant_some h).1]
  exact ⟨rfl, rfl⟩

/-! ## Machine/Cells -/

@[simp] theorem State.boot_release (s : State) (a n : Nat) : s.SameBoot (s.release a n) := ⟨rfl, rfl⟩

@[simp] theorem State.boot_cellFreed (s : State) (cell : Nat) : s.SameBoot (s.cellFreed cell) := by
  simp [State.cellFreed]

@[simp] theorem State.boot_releaseChain (s : State) (a n : Nat) (chain : List Nat) : s.SameBoot (s.releaseChain a n chain) := by
  simp [State.releaseChain]

@[simp] theorem State.boot_commitTo (s : State) (k : Nat) (acct cells : Nat) (c : Content) (keep : List Nat) : s.SameBoot (s.commitTo k acct cells
    c keep) := by
  simp [State.commitTo]

theorem State.boot_post {s t : State} {q f w n : Nat} {c : Content} {keep : List Nat} (h : s.post q f w n c keep = some t) : s.SameBoot t :=
  have e := State.sansQueues_post h
  ⟨(congrArg State.life e :), (congrArg State.flash e :)⟩

@[simp] theorem State.boot_countExpired (s : State) (a : Nat) : s.SameBoot (s.countExpired a) := by
  unfold State.countExpired
  split <;> simp

@[simp] theorem State.boot_expireHead (s : State) (k : Nat) (n : Nat) : s.SameBoot (s.expireHead k n) := by
  induction n generalizing s with
  | zero => exact ⟨rfl, rfl⟩
  | succ n ih =>
    unfold State.expireHead
    repeat' split
    all_goals simp [ih]

@[simp] theorem State.boot_take (s : State) (k : Nat) : s.SameBoot (s.take k).2 := by
  unfold State.take
  dsimp only
  split <;> simp

theorem State.boot_moveCharge {s t : State} {a b c d : Nat} (h : s.moveCharge a b c d = some t) : s.SameBoot t :=
  State.SameBoot.trans (s.boot_release a b) (State.boot_grant h)

/-! ## Machine/Keys -/

@[simp] theorem State.boot_eraseSlot (s : State) (i : Nat) : s.SameBoot (s.eraseSlot i) := ⟨rfl, rfl⟩

@[simp] theorem State.boot_loadSlot (s : State) (i : Nat) (k : KeySlot) : s.SameBoot (s.loadSlot i k) := by
  simp [State.loadSlot]

@[simp] theorem State.boot_eraseSlots (s : State) (l : List Nat) : s.SameBoot (s.eraseSlots l) := by
  simp [State.eraseSlots]

@[simp] theorem State.boot_dropCached (s : State) (i : Nat) : s.SameBoot (s.dropCached i) := by
  unfold State.dropCached
  split <;> simp

@[simp] theorem State.boot_deriveStart (s : State) : s.SameBoot s.deriveStart := by
  unfold State.deriveStart
  constructor <;> simp

@[simp] theorem State.boot_deriveHw (s : State) : s.SameBoot s.deriveHw := by
  simp [State.deriveHw]

@[simp] theorem State.boot_deriveCfg (s : State) (kcfg : List Nat) (id : Octets) : s.SameBoot (s.deriveCfg kcfg id) := by
  unfold State.deriveCfg
  constructor <;> simp

@[simp] theorem State.boot_deriveMbox (s : State) (m world : Nat) (key : List Nat) : s.SameBoot (s.deriveMbox m world key) := by
  unfold State.deriveMbox
  constructor <;> simp

@[simp] theorem State.boot_groupCell (s : State) (i : Nat) (key : List Nat) : s.SameBoot (s.groupCell i key) := by
  unfold State.groupCell
  split <;> simp

@[simp] theorem State.boot_journalKey (s : State) (i : Nat) : s.SameBoot (s.journalKey i) := ⟨rfl, rfl⟩

@[simp] theorem State.boot_fixFallback (s : State) (i : Nat) : s.SameBoot (s.fixFallback i) := ⟨rfl, rfl⟩

@[simp] theorem State.boot_loadWorldKey (s : State) (i : Nat) (k : KeySlot) : s.SameBoot (s.loadWorldKey i k) := by
  simp [State.loadWorldKey]

/-! ## Machine/FeOps -/

@[simp] theorem State.boot_setDom (s : State) (d : LaneDom) (x : LaneDomSt) : s.SameBoot (s.setDom d x) := by
  unfold State.setDom
  split <;> simp

@[simp] theorem State.boot_charge (s : State) (i us : Nat) : s.SameBoot (s.charge i us) := ⟨rfl, rfl⟩

@[simp] theorem State.boot_returnCharge (s : State) (c : Option (Nat × Nat)) (us : Nat) : s.SameBoot (s.returnCharge c us) := by
  unfold State.returnCharge
  split <;> simp

@[simp] theorem State.boot_wakeFe (s : State) (f : Fe) : s.SameBoot (s.wakeFe f) := by
  unfold State.wakeFe
  dsimp only
  split <;> simp

@[simp] theorem State.boot_feed (s : State) : s.SameBoot s.feed := ⟨rfl, rfl⟩

@[simp] theorem State.boot_rewindLane (s : State) (l : Nat) : s.SameBoot (s.rewindLane l) := by
  unfold State.rewindLane
  dsimp only
  repeat' split
  all_goals simp

@[simp] theorem State.boot_cutLane (s : State) (l : Nat) (c : Ctr) : s.SameBoot (s.cutLane l c) := by
  unfold State.cutLane
  split <;> simp

@[simp] theorem State.boot_voidSensing (s : State) (f : Fe) : s.SameBoot (s.voidSensing f) := by
  unfold State.voidSensing
  dsimp only
  split <;> simp

@[simp] theorem State.boot_blankFe (s : State) (f : Fe) (c : Ctr) : s.SameBoot (s.blankFe f c) := by
  simp [State.blankFe]

@[simp] theorem State.boot_blankFrom (s : State) (f : Fe) (off : Nat) : s.SameBoot (s.blankFrom f off) := by
  unfold State.blankFrom
  refine State.SameBoot.trans (s.boot_voidSensing f) (foldl_boot (fun s l => ?_) _ _)
  repeat' split
  all_goals simp

@[simp] theorem State.boot_feOff (s : State) (f : Fe) : s.SameBoot (s.feOff f) := by
  simp [State.feOff]

@[simp] theorem State.boot_canLog (s : State) (kind cause world flags subject old new : Nat) (gain : Int) : s.SameBoot (s.canLog kind cause world
    flags subject old new gain) := by
  unfold State.canLog
  constructor <;> rfl

@[simp] theorem State.boot_owe (s : State) (kind : Nat) : s.SameBoot (s.owe kind) := by
  simp [State.owe]

/-! ## Machine/Verieli -/

@[simp] theorem State.boot_takeSeq (s : State) (m : Nat) : s.SameBoot (s.takeSeq m).2 := by
  unfold State.takeSeq
  split <;> simp

@[simp] theorem State.boot_commitMsg (s : State) (m : Nat) (msg : Msg) (events : List (BitVec 32)) : s.SameBoot (s.commitMsg m msg events) := by
  unfold State.commitMsg
  repeat' split
  case h_1 t ht => exact State.boot_post ht
  all_goals simp

@[simp] theorem State.boot_respond (s : State) (m : Nat) (r : Request) (status : Nat) (payload : Octets) : s.SameBoot (s.respond m r status
    payload) := by
  simp [State.respond]

@[simp] theorem State.boot_spend (s : State) (m q : Nat) : s.SameBoot (s.spend m q) := ⟨rfl, rfl⟩

@[simp] theorem State.boot_acceptRequest (s : State) (m : Nat) (r : Request) (arrival : Nat) : s.SameBoot (s.acceptRequest m r arrival) := by
  unfold State.acceptRequest
  dsimp only
  repeat' split
  case h_1 t ht => exact State.boot_post ht
  all_goals simp

@[simp] theorem State.boot_accept (s : State) (m : Nat) (d : Datagram) (arrival : Nat) : s.SameBoot (s.accept m d arrival) := by
  unfold State.accept
  dsimp only
  repeat' split
  all_goals simp

theorem State.boot_nextRequest {s t : State} {m : Nat} {r : Request} (h : s.nextRequest m = some (r, t)) : s.SameBoot t :=
  have e := (State.nextRequest_some h).1
  ⟨(congrArg State.life e :), (congrArg State.flash e :)⟩

@[simp] theorem State.boot_begin (s : State) (m : Nat) (r : Request) (first : Octets) (status : Nat) (result : Octets) : s.SameBoot (s.begin m r
    first status result) := by
  simp [State.begin]

@[simp] theorem State.boot_finish (s : State) (m : Nat) (b : Busy) (status : Nat) (result : Octets) : s.SameBoot (s.finish m b status result) := by
  simp [State.finish]

@[simp] theorem State.boot_sendEvents (s : State) (m : Nat) (l : List RingEvent) (addr : BitVec 128) (port : BitVec 16) : s.SameBoot (s.sendEvents
    m l addr port) := by
  simp [State.sendEvents]

/-! ## Machine/PortOps -/

@[simp] theorem State.boot_rewindPort (s : State) (p : Port) (ignore : Bool) : s.SameBoot (s.rewindPort p ignore) := by
  simp [State.rewindPort]

@[simp] theorem State.boot_portCells (s : State) (p : Port) (n : Nat) : s.SameBoot (s.portCells p n) := by
  induction n generalizing s with
  | zero => exact ⟨rfl, rfl⟩
  | succ n ih =>
    unfold State.portCells
    split
    · rename_i t ht
      simp [ih, State.boot_grant ht]
    · simp

@[simp] theorem State.boot_prpExpire (s : State) (now : Nat) : s.SameBoot (s.prpExpire now) := by
  simp [State.prpExpire]

@[simp] theorem State.boot_prpJudge (s : State) (p : Port) (src : BitVec 48) (seq : BitVec 16) (arrival : Nat) : s.SameBoot (s.prpJudge p src seq
    arrival).2 := by
  unfold State.prpJudge
  dsimp only
  split <;> simp

@[simp] theorem State.boot_heardSource (s : State) (p : Port) (src : BitVec 48) : s.SameBoot (s.heardSource p src) := ⟨rfl, rfl⟩

@[simp] theorem State.boot_takePause (s : State) (p : Port) (q : Nat) : s.SameBoot (s.takePause p q) := by
  unfold State.takePause
  dsimp only
  repeat' split
  all_goals simp

@[simp] theorem State.boot_closeSends (s : State) : s.SameBoot s.closeSends := by
  unfold State.closeSends
  exact foldl_boot (fun s x => by split <;> simp) _ _

@[simp] theorem State.boot_stampSent (s : State) (p : Port) (seq : BitVec 16) (start : Nat) : s.SameBoot (s.stampSent p seq start) := ⟨rfl, rfl⟩

@[simp] theorem State.boot_runPort (s : State) (p : Port) (n : Nat) : s.SameBoot (s.runPort p n) := by
  induction n generalizing s with
  | zero => exact ⟨rfl, rfl⟩
  | succ n ih =>
    unfold State.runPort
    dsimp only
    repeat' split
    all_goals simp [ih]

@[simp] theorem State.boot_runPorts (s : State) : s.SameBoot s.runPorts := by
  simp [State.runPorts]

@[simp] theorem State.boot_sendFrame (s : State) (packet : Option Packet) (size : Nat) : s.SameBoot (s.sendFrame packet size) := by
  simp [State.sendFrame]

@[simp] theorem State.boot_sendDelayReq (s : State) (p : Port) : s.SameBoot (s.sendDelayReq p) := by
  simp [State.sendDelayReq]

@[simp] theorem State.boot_expireEgress (s : State) : s.SameBoot s.expireEgress := foldl_boot (fun s _ => s.boot_expireHead _ _) _ s

theorem State.boot_drr {s t : State} {n q : Nat} (h : s.drr n = some (q, t)) : s.SameBoot t := by
  induction n generalizing s with
  | zero => cases h
  | succ n ih =>
    unfold State.drr at h
    dsimp only at h
    generalize s.back.deficit.getD s.back.turn 0 + _ = d at h
    split at h
    · have g := ih h
      exact g
    · split at h
      · have g := ih h
        exact g
      · split at h
        · cases h
          exact ⟨rfl, rfl⟩
        · have g := ih h
          exact g

@[simp] theorem State.boot_sendHead (s : State) (q : Nat) : s.SameBoot (s.sendHead q) := by
  unfold State.sendHead
  split <;> simp

@[simp] theorem State.boot_egress (s : State) : s.SameBoot s.egress := by
  unfold State.egress
  split
  · simp
  · dsimp only
    split
    · simp
    · simp
    · split
      · simp
      · split
        · rename_i q t ht
          have h := State.boot_drr ht
          simp at h
          simp [h]
        · simp

@[simp] theorem State.boot_sawmill (s : State) : s.SameBoot s.sawmill := by
  unfold State.sawmill
  split
  · simp
  · dsimp only
    split
    · simp
    · rename_i t ht
      have h := State.boot_grant ht
      simp at h
      simp [h]

@[simp] theorem State.boot_enterPathFault (s : State) (p : Port) (cause : Nat) : s.SameBoot (s.enterPathFault p cause) := by
  simp [State.enterPathFault]

@[simp] theorem State.boot_judgePath (s : State) (y : Port) : s.SameBoot (s.judgePath y) := by
  simp [State.judgePath]

@[simp] theorem State.boot_pathWindow (s : State) : s.SameBoot s.pathWindow := by
  simp [State.pathWindow]

@[simp] theorem State.boot_beginChange (s : State) (y : Port) (target : Speed) : s.SameBoot (s.beginChange y target) := ⟨rfl, rfl⟩

@[simp] theorem State.boot_enterLoad (s : State) (y : Port) (rx tx : Nat) : s.SameBoot (s.enterLoad y rx tx) := ⟨rfl, rfl⟩

@[simp] theorem State.boot_decideStep (s : State) (y : Port) : s.SameBoot (s.decideStep y) := by
  unfold State.decideStep
  split <;> simp

@[simp] theorem State.boot_beginPorts (s : State) : s.SameBoot s.beginPorts := by
  simp [State.beginPorts]

/-! ## Machine/LaneOps -/

@[simp] theorem State.boot_markBusy (s : State) (f : Fe) (k : Nat) : s.SameBoot (s.markBusy f k) := by
  unfold State.markBusy
  dsimp only
  split <;> simp

@[simp] theorem State.boot_laneMoved (s : State) (l : Nat) : s.SameBoot (s.laneMoved l) := by
  unfold State.laneMoved
  refine foldl_boot (fun s x => ?_) _ _
  dsimp only
  repeat' split
  all_goals simp

@[simp] theorem State.boot_noteIdle (s : State) (p : Option (Nat × Nat)) : s.SameBoot (s.noteIdle p) := by
  unfold State.noteIdle
  split <;> simp

@[simp] theorem State.boot_faultLane (s : State) (l : Nat) (c : LaneFaultCause) : s.SameBoot (s.faultLane l c) := by
  unfold State.faultLane
  dsimp only
  repeat' split
  all_goals simp

@[simp] theorem State.boot_stopLane (s : State) (l : Nat) : s.SameBoot (s.stopLane l) := by
  unfold State.stopLane
  split <;> simp

@[simp] theorem State.boot_stopDom (s : State) (d : LaneDom) : s.SameBoot (s.stopDom d) := by
  simp [State.stopDom]

@[simp] theorem State.boot_domDown (s : State) (d : LaneDom) : s.SameBoot (s.domDown d) := by
  unfold State.domDown
  dsimp only
  split <;> simp

/-! ## Machine/TimeOps -/

@[simp] theorem State.boot_trust (s : State) : s.SameBoot s.trust := by
  simp [State.trust]

@[simp] theorem State.boot_almMiss (s : State) (k : Nat) (e : AlmEntry) (u : Int) : s.SameBoot (s.almMiss k e u) := by
  simp [State.almMiss]

@[simp] theorem State.boot_almScan (s : State) (basis : Nat) (cPrev oPrev cNow oNow : Int) : s.SameBoot (s.almScan basis cPrev oPrev cNow oNow).2 := by
  unfold State.almScan
  refine foldl_boot_snd (fun r p => ?_) _ ([], s)
  dsimp only
  repeat' split
  all_goals simp

@[simp] theorem State.boot_almAct (s : State) (add : Bool) : s.SameBoot (s.almAct add) := by
  unfold State.almAct
  split <;> simp

@[simp] theorem State.boot_almFire (s : State) (now : Int) (d : Due) : s.SameBoot (s.almFire now d) := by
  unfold State.almFire
  dsimp only
  split
  · split
    · rename_i t ht
      have h := State.boot_post ht
      simp at h
      simp [h]
    · simp
  · simp
  · simp

@[simp] theorem State.boot_almEvaluate (s : State) (count : BitVec 48) : s.SameBoot (s.almEvaluate count) := by
  simp [State.almEvaluate]

@[simp] theorem State.boot_almanac (s : State) : s.SameBoot s.almanac := by
  simp [State.almanac]

@[simp] theorem State.boot_almResume (s : State) : s.SameBoot s.almResume := by
  simp [State.almResume]

@[simp] theorem State.boot_writeRtc (s : State) (sec : BitVec 48) (ago : Nat) : s.SameBoot (s.writeRtc sec ago) := by
  simp [State.writeRtc]

@[simp] theorem State.boot_settleRtc (s : State) : s.SameBoot s.settleRtc := by
  unfold State.settleRtc
  split <;> simp

@[simp] theorem State.boot_tick (s : State) (dt : Nat) : s.SameBoot (s.tick dt) := by
  simp [State.tick]

@[simp] theorem State.boot_leapOffset (s : State) (d : Int) : s.SameBoot (s.leapOffset d) := by
  simp [State.leapOffset]

@[simp] theorem State.boot_countdown (s : State) : s.SameBoot s.countdown := by
  simp [State.countdown]

@[simp] theorem State.boot_rtcSecond (s : State) : s.SameBoot s.rtcSecond := by
  unfold State.rtcSecond
  dsimp only
  repeat' split
  all_goals simp

@[simp] theorem State.boot_postStep (s : State) (delta : Int) : s.SameBoot (s.postStep delta) := ⟨rfl, rfl⟩

@[simp] theorem State.boot_setDisc (s : State) (d : Discipline) : s.SameBoot (s.setDisc d) := by
  simp [State.setDisc]

@[simp] theorem State.boot_measure (s : State) (o : Int) : s.SameBoot (s.measure o) := by
  unfold State.measure
  dsimp only
  repeat' split
  all_goals simp

@[simp] theorem State.boot_followMaster (s : State) (m : Master) : s.SameBoot (s.followMaster m) := by
  unfold State.followMaster
  dsimp only
  split <;> simp

@[simp] theorem State.boot_ptp (s : State) (p : Port) : s.SameBoot (s.ptp p) := by
  unfold State.ptp
  dsimp only
  split <;> simp

@[simp] theorem State.boot_takePtp (s : State) (p : Port) (m : PtpMsg) (t : Nat) : s.SameBoot (s.takePtp p m t) := by
  unfold State.takePtp
  dsimp only
  repeat' split
  all_goals simp

@[simp] theorem State.boot_rtcAdjust (s : State) (err : Int) : s.SameBoot (s.rtcAdjust err) := by
  unfold State.rtcAdjust
  split <;> simp

@[simp] theorem State.boot_seedTime (s : State) : s.SameBoot s.seedTime := by
  unfold State.seedTime
  exact ⟨rfl, rfl⟩

@[simp] theorem State.boot_oscStop (s : State) : s.SameBoot s.oscStop := by
  simp [State.oscStop]

@[simp] theorem State.boot_oscStart (s : State) : s.SameBoot s.oscStart := by
  simp [State.oscStart]

/-! ## Machine/Table -/

@[simp] theorem State.boot_putNode (s : State) (i : Nat) (n : Node) : s.SameBoot (s.putNode i n) := by
  simp [State.putNode]

@[simp] theorem State.boot_unindex (s : State) (i : Nat) (eui : BitVec 64) : s.SameBoot (s.unindex i eui) := ⟨rfl, rfl⟩

@[simp] theorem State.boot_raiseTableFull (s : State) (reason : Nat) : s.SameBoot (s.raiseTableFull reason) := by
  simp [State.raiseTableFull]

@[simp] theorem State.boot_insertFailed (s : State) (reason : Nat) : s.SameBoot (s.insertFailed reason) := by
  simp [State.insertFailed]

@[simp] theorem State.boot_insertNode (s : State) (n : Node) : s.SameBoot (s.insertNode n).2 := by
  unfold State.insertNode
  dsimp only
  repeat' split
  all_goals simp

@[simp] theorem State.boot_forgetNode (s : State) (i : Nat) : s.SameBoot (s.forgetNode i) := ⟨rfl, rfl⟩

@[simp] theorem State.boot_clearNode (s : State) (i : Nat) : s.SameBoot (s.clearNode i) := by
  unfold State.clearNode
  split <;> simp

@[simp] theorem State.boot_learn (s : State) (f : Fe) (h : Hearing) : s.SameBoot (s.learn f h) := by
  unfold State.learn
  dsimp only
  split <;> simp

@[simp] theorem State.boot_refresh (s : State) (i : Nat) (f : Fe) (h : Hearing) (rate : Nat) (tracked : Bool) : s.SameBoot (s.refresh i f h rate
    tracked) := by
  unfold State.refresh
  split <;> simp

@[simp] theorem State.boot_sweepState (s : State) (i : Nat) (n : Node) : s.SameBoot (s.sweepState i n) := by
  unfold State.sweepState
  repeat' split
  all_goals simp

@[simp] theorem State.boot_sweepParents (s : State) (i : Nat) : s.SameBoot (s.sweepParents i) := by
  unfold State.sweepParents
  split <;> simp

@[simp] theorem State.boot_dropLinks (s : State) (i : Nat) : s.SameBoot (s.dropLinks i) := ⟨rfl, rfl⟩

@[simp] theorem State.boot_freeNode (s : State) (i : Nat) : s.SameBoot (s.freeNode i) := ⟨rfl, rfl⟩

@[simp] theorem State.boot_sweepVisit (s : State) : s.SameBoot s.sweepVisit := by
  unfold State.sweepVisit
  dsimp only
  split <;> simp

@[simp] theorem State.boot_fixEntry (s : State) (b k : Nat) : s.SameBoot (s.fixEntry b k) := by
  simp [State.fixEntry]

@[simp] theorem State.boot_fixOverflow (s : State) (b : Nat) : s.SameBoot (s.fixOverflow b) := by
  simp [State.fixOverflow]

@[simp] theorem State.boot_fixRecord (s : State) (i : Nat) : s.SameBoot (s.fixRecord i) := by
  unfold State.fixRecord
  dsimp only
  repeat' split
  all_goals simp

@[simp] theorem State.boot_walkVisit (s : State) : s.SameBoot s.walkVisit := by
  simp [State.walkVisit]

/-! ## Machine/WakeOps -/

@[simp] theorem State.boot_addCredit (s : State) (w : Nat) (f : Fe) (d : Int) : s.SameBoot (s.addCredit w f d).2 := ⟨rfl, rfl⟩

@[simp] theorem State.boot_pacedEnd (s : State) (packet : Nat) (n endNs : Nat) : s.SameBoot (s.pacedEnd packet n endNs) := by
  unfold State.pacedEnd
  dsimp only
  repeat' split
  all_goals simp

@[simp] theorem State.boot_pacedAir (s : State) (packet : Nat) (us : Nat) : s.SameBoot (s.pacedAir packet us) := ⟨rfl, rfl⟩

@[simp] theorem State.boot_releaseAll (s : State) (l : List Packet) : s.SameBoot (s.releaseAll l) := by
  simp [State.releaseAll]

@[simp] theorem State.boot_removePacket (s : State) (packet : Nat) : s.SameBoot (s.removePacket packet).2 := by
  unfold State.removePacket
  dsimp only
  refine State.SameBoot.trans ?_ (foldl_boot_snd (fun r f => ?_) _ _)
  · simp
  · simp

@[simp] theorem State.boot_abandonRest (s : State) (d : DownFrame) : s.SameBoot (s.abandonRest d) := by
  unfold State.abandonRest
  split <;> simp

@[simp] theorem State.boot_discardFrame (s : State) (d : DownFrame) (acct cells : Nat) (chain : List Nat) (c : Ctr) (sc : Scope) : s.SameBoot
    (s.discardFrame d acct cells chain c sc) := by
  simp [State.discardFrame]

@[simp] theorem State.boot_setFlow (s : State) (f : Flow) : s.SameBoot (s.setFlow f) := ⟨rfl, rfl⟩

@[simp] theorem State.boot_noGate (s : State) (i : Nat) (n : Nat) : s.SameBoot (s.noGate i n) := by
  induction n generalizing s with
  | zero => exact ⟨rfl, rfl⟩
  | succ n ih =>
    unfold State.noGate
    repeat' split
    all_goals simp [ih]

@[simp] theorem State.boot_replace (s : State) (f : Flow) : s.SameBoot (s.replace f) := by
  unfold State.replace
  repeat' split
  all_goals simp

@[simp] theorem State.boot_defer (s : State) (i : Nat) (q : Nat) (p : Packet) (d : DownFrame) : s.SameBoot (s.defer i q p d) := by
  unfold State.defer
  split <;> simp

@[simp] theorem State.boot_openCont (s : State) (c : Cont) : s.SameBoot (s.openCont c) := ⟨rfl, rfl⟩

@[simp] theorem State.boot_examine (s : State) (f : Fe) (q : Nat) (n : Nat) : s.SameBoot (s.examine f q n) := by
  induction n generalizing s with
  | zero => exact ⟨rfl, rfl⟩
  | succ n ih =>
    unfold State.examine
    dsimp only
    repeat' split
    all_goals simp [ih]

@[simp] theorem State.boot_reviewFlow (s : State) (f : Fe) (i : Nat) : s.SameBoot (s.reviewFlow f i) := by
  unfold State.reviewFlow
  split
  · simp
  · split
    · simp
    · split
      · split
        · simp
        · repeat' split
          all_goals simp
      · refine State.SameBoot.trans ?_ (foldl_boot (fun s p => ?_) _ _)
        · simp
        · split <;> simp
      · simp

@[simp] theorem State.boot_rehomeRetry (s : State) (f : Fe) : s.SameBoot (s.rehomeRetry f) := by
  unfold State.rehomeRetry
  refine State.SameBoot.trans ?_ (foldl_boot (fun s r => ?_) _ _)
  · simp
  · repeat' split
    all_goals simp

@[simp] theorem State.boot_dropRetry (s : State) (f : Fe) : s.SameBoot (s.dropRetry f) := by
  simp [State.dropRetry]

@[simp] theorem State.boot_prepare (s : State) (f : Fe) : s.SameBoot (s.prepare f) := by
  unfold State.prepare
  dsimp only
  refine State.SameBoot.trans (State.SameBoot.trans (foldl_boot (fun s g => ?_) _ s) (foldl_boot (fun s i => s.boot_reviewFlow f i) _ _))
    (foldl_boot (fun s q => s.boot_examine f q _) _ _)
  simp

/-! ## Machine/MacOps -/

@[simp] theorem State.boot_skipBeacon (s : State) (f : Fe) : s.SameBoot (s.skipBeacon f) := ⟨rfl, rfl⟩

@[simp] theorem State.boot_giveBack (s : State) (f : Fe) (a : Attempt) : s.SameBoot (s.giveBack f a) := by
  unfold State.giveBack
  dsimp only
  repeat' split
  all_goals simp

@[simp] theorem State.boot_withdraw (s : State) (f : Fe) : s.SameBoot (s.withdraw f) := ⟨rfl, rfl⟩

@[simp] theorem State.boot_bulkSentBy (s : State) (f : Fe) (r : Retry) : s.SameBoot (s.bulkSentBy f r) := by
  simp [State.bulkSentBy]

@[simp] theorem State.boot_frameDone (s : State) (f : Fe) (r : Retry) (endNs : Nat) : s.SameBoot (s.frameDone f r endNs) := by
  unfold State.frameDone
  repeat' split
  all_goals simp

@[simp] theorem State.boot_frameLost (s : State) (f : Fe) (r : Retry) (c : Ctr) : s.SameBoot (s.frameLost f r c) := by
  simp [State.frameLost]

@[simp] theorem State.boot_attemptFailed (s : State) (f : Fe) (r : Retry) (c : Ctr) : s.SameBoot (s.attemptFailed f r c) := by
  simp [State.attemptFailed]

@[simp] theorem State.boot_putBack (s : State) (f : Fe) (r : Retry) : s.SameBoot (s.putBack f r) := by
  unfold State.putBack
  repeat' split
  all_goals simp

@[simp] theorem State.boot_accessFailed (s : State) (f : Fe) (a : Attempt) : s.SameBoot (s.accessFailed f a) := by
  unfold State.accessFailed
  split <;> simp

@[simp] theorem State.boot_backOff (s : State) (f : Fe) (a : Attempt) : s.SameBoot (s.backOff f a) := ⟨rfl, rfl⟩

@[simp] theorem State.boot_csmaBusy (s : State) (f : Fe) : s.SameBoot (s.csmaBusy f) := by
  unfold State.csmaBusy
  split <;> simp

@[simp] theorem State.boot_takeOut (s : State) (f : Fe) (r : Retry) : s.SameBoot (s.takeOut f r) := by
  unfold State.takeOut
  dsimp only
  repeat' split
  all_goals simp

@[simp] theorem State.boot_beginAttempt (s : State) (f : Fe) (c : Cand) (k i : Nat) : s.SameBoot (s.beginAttempt f c k i) := by
  simp [State.beginAttempt]

@[simp] theorem State.boot_beginBeacon (s : State) (f : Fe) (close k : Nat) : s.SameBoot (s.beginBeacon f close k) := by
  unfold State.beginBeacon
  split <;> simp

@[simp] theorem State.boot_beginBurst (s : State) (f : Fe) (t : RfTest) : s.SameBoot (s.beginBurst f t) := by
  unfold State.beginBurst
  split <;> simp

@[simp] theorem State.boot_selectFrame (s : State) (f : Fe) (n : Nat) : s.SameBoot (s.selectFrame f n) := by
  induction n generalizing s with
  | zero => exact ⟨rfl, rfl⟩
  | succ n ih =>
    unfold State.selectFrame
    dsimp only
    repeat' split
    all_goals simp [ih]

@[simp] theorem State.boot_select (s : State) (f : Fe) : s.SameBoot (s.select f) := by
  unfold State.select
  dsimp only
  repeat' split
  all_goals simp

@[simp] theorem State.boot_backoffEnd (s : State) (f : Fe) : s.SameBoot (s.backoffEnd f) := by
  unfold State.backoffEnd
  dsimp only
  repeat' split
  all_goals simp

@[simp] theorem State.boot_senseEnd (s : State) (f : Fe) (power : Int) (blanked : Bool) : s.SameBoot (s.senseEnd f power blanked) := by
  unfold State.senseEnd
  dsimp only
  split <;> simp

@[simp] theorem State.boot_ackTakes (s : State) (f : Fe) : s.SameBoot (s.ackTakes f) := by
  unfold State.ackTakes
  repeat' split
  all_goals simp

@[simp] theorem State.boot_ackMeasured (s : State) (i : Nat) (ok : Bool) : s.SameBoot (s.ackMeasured i ok) := by
  simp [State.ackMeasured]

@[simp] theorem State.boot_ackMissing (s : State) (f : Fe) (w : AckWait) : s.SameBoot (s.ackMissing f w) := by
  unfold State.ackMissing
  split <;> simp

@[simp] theorem State.boot_ackCame (s : State) (f : Fe) (w : AckWait) (endNs : Nat) : s.SameBoot (s.ackCame f w endNs) := by
  unfold State.ackCame
  dsimp only
  repeat' split
  all_goals simp

@[simp] theorem State.boot_downSent (s : State) (f : Fe) (a : Attempt) (r : Retry) (pending : Bool) (endNs : Nat) : s.SameBoot (s.downSent f a r
    pending endNs) := by
  unfold State.downSent
  split <;> simp

@[simp] theorem State.boot_ackOver (s : State) (l : Nat) : s.SameBoot (s.ackOver l) := ⟨rfl, rfl⟩

@[simp] theorem State.boot_ackNotSent (s : State) (f : Fe) (q : TxReq) : s.SameBoot (s.ackNotSent f q) := by
  unfold State.ackNotSent
  split <;> simp

@[simp] theorem State.boot_refused (s : State) (f : Fe) (q : TxReq) : s.SameBoot (s.refused f q) := by
  unfold State.refused
  repeat' split
  all_goals simp

@[simp] theorem State.boot_macOff (s : State) (f : Fe) : s.SameBoot (s.macOff f) := by
  unfold State.macOff
  dsimp only
  repeat' split
  all_goals simp

@[simp] theorem State.boot_unitLost (s : State) (kind number cause : Nat) : s.SameBoot (s.unitLost kind number cause) := by
  simp [State.unitLost]

@[simp] theorem State.boot_feFault (s : State) (f : Fe) (cause : Nat) : s.SameBoot (s.feFault f cause) := by
  simp [State.feFault]

/-! ## Machine/DownOps -/

@[simp] theorem State.boot_cacheKey (s : State) (i world : Nat) (key : Key) : s.SameBoot (s.cacheKey i world key) := by
  simp [State.cacheKey]

theorem State.boot_linkKey {s t : State} {i : Nat} {n : Node} {k : Key} (h : s.linkKey i n = some (k, t)) : s.SameBoot t := by
  rw [State.linkKey_some h]
  exact ⟨rfl, rfl⟩

@[simp] theorem State.boot_setGroupNext (s : State) (k n : Nat) : s.SameBoot (s.setGroupNext k n) := ⟨rfl, rfl⟩

theorem State.boot_queueFrames {s t : State} {i : Nat} {a b : Node} {l : List DownFrame} (h : s.queueFrames i a b l = some t) : s.SameBoot t := by
  unfold State.queueFrames at h
  dsimp only at h
  split at h
  · cases h
  · rename_i u hu
    cases h
    simp [State.boot_grant hu]

theorem State.boot_sendUnicast (s : State) (i : Nat) (n : Node) (l : List Plain) (path : List (Nat × BitVec 64)) (b : Bool) :
    (s.sendUnicast i n l path b).KeepsBoot s := by
  unfold State.sendUnicast
  split
  · simp
  · split
    · simp
    · rename_i key t ht
      have h := State.boot_linkKey ht
      dsimp only
      split
      · simp [h]
      · split
        · simp
        · split
          · rename_i u hu
            exact State.SameBoot.trans h (State.boot_queueFrames hu)
          · simp [h]

theorem State.boot_sendJoinKey (s : State) (i : Nat) (n : Node) (w : Nat) (key : Key) (elem : Octets) (kind : DownKind) :
    (s.sendJoinKey i n w key elem kind).KeepsBoot s := by
  unfold State.sendJoinKey
  dsimp only
  split
  · simp
  · split
    · simp
    · split
      · rename_i u hu
        have h := State.boot_queueFrames hu
        exact h
      · simp

theorem State.boot_sendCast (s : State) (w q : Nat) (l : List Plain) (b : Bool) : (s.sendCast w q l b).KeepsBoot s := by
  unfold State.sendCast
  dsimp only
  split
  · simp
  · split
    · simp
    · split
      · simp
      · split
        · simp
        · split
          · simp
          · rename_i t ht
            have h := State.boot_grant ht
            simp at h
            simp [h]

@[simp] theorem State.boot_takeTag (s : State) (sizes : List Nat) : s.SameBoot (s.takeTag sizes) := by
  simp [State.takeTag]

/-! ## Machine/FrontEnds -/

@[simp] theorem State.boot_beginCal (s : State) (f : Fe) (k start : Nat) : s.SameBoot (s.beginCal f k start) := ⟨rfl, rfl⟩

@[simp] theorem State.boot_tune (s : State) (f : Fe) : s.SameBoot (s.tune f) := by
  unfold State.tune
  dsimp only
  split <;> simp

@[simp] theorem State.boot_comeUp (s : State) (f : Fe) (k : Nat) : s.SameBoot (s.comeUp f k) := by
  unfold State.comeUp
  dsimp only
  split <;> simp

@[simp] theorem State.boot_takeRequest (s : State) (f : Fe) (temp : Int) : s.SameBoot (s.takeRequest f temp) := by
  unfold State.takeRequest
  dsimp only
  split <;> simp

@[simp] theorem State.boot_assignBegun (s : State) (b : TxBody) : s.SameBoot (s.assignBegun b) := by
  unfold State.assignBegun
  repeat' split
  all_goals simp

@[simp] theorem State.boot_commitStart (s : State) (f : Fe) (q : TxReq) : s.SameBoot (s.commitStart f q) := by
  simp [State.commitStart]

@[simp] theorem State.boot_txCommit (s : State) (f : Fe) : s.SameBoot (s.txCommit f) := by
  unfold State.txCommit
  dsimp only
  split <;> simp

@[simp] theorem State.boot_detector (s : State) (f : Fe) (port : Nat) (r : DetReading) : s.SameBoot (s.detector f port r) := by
  simp [State.detector]

@[simp] theorem State.boot_macSent (s : State) (f : Fe) (q : TxReq) (endNs : Nat) : s.SameBoot (s.macSent f q endNs) := by
  unfold State.macSent
  repeat' split
  all_goals simp

@[simp] theorem State.boot_lastTx (s : State) (f : Fe) (q : TxReq) (endNs : Nat) : s.SameBoot (s.lastTx f q endNs) := by
  unfold State.lastTx
  split <;> simp

@[simp] theorem State.boot_txEnd (s : State) (f : Fe) (samples : List Int) (det : DetReading) : s.SameBoot (s.txEnd f samples det) := by
  unfold State.txEnd
  dsimp only
  split <;> simp

@[simp] theorem State.boot_overpower (s : State) (f : Fe) : s.SameBoot (s.overpower f) := by
  unfold State.overpower
  dsimp only
  split
  · simp
  · split <;> split
    · simp
    · split <;> simp
    · simp
    · split <;> simp

@[simp] theorem State.boot_backCal (s : State) (f : Fe) (temp : Int) : s.SameBoot (s.backCal f temp) := by
  unfold State.backCal
  dsimp only
  repeat' split
  all_goals simp

@[simp] theorem State.boot_toRx (s : State) (f : Fe) : s.SameBoot (s.toRx f) := by
  simp [State.toRx]

@[simp] theorem State.boot_calDone (s : State) (f : Fe) (temp : Int) : s.SameBoot (s.calDone f temp) := by
  unfold State.calDone
  dsimp only
  repeat' split
  all_goals simp

@[simp] theorem State.boot_rxCalibrate (s : State) (f : Fe) (n : Nat) : s.SameBoot (s.rxCalibrate f n) := by
  simp [State.rxCalibrate]

@[simp] theorem State.boot_lockLost (s : State) (f : Fe) (failed : Nat) : s.SameBoot (s.lockLost f failed) := by
  simp [State.lockLost]

@[simp] theorem State.boot_rxRecal (s : State) (f : Fe) (temp : Int) : s.SameBoot (s.rxRecal f temp) := by
  simp [State.rxRecal]

@[simp] theorem State.boot_ackDue (s : State) (f : Fe) : s.SameBoot (s.ackDue f) := by
  unfold State.ackDue
  split <;> simp

@[simp] theorem State.boot_oweAck (s : State) (l : Nat) (fc : FrameCtl) : s.SameBoot (s.oweAck l fc) := by
  unfold State.oweAck
  split <;> simp

/-! ## Machine/HwOps -/

@[simp] theorem State.boot_lineWrite (s : State) (addr : Nat) : s.SameBoot (s.lineWrite addr) := by
  unfold State.lineWrite
  dsimp only
  split
  · exact ⟨rfl, rfl⟩
  · split <;> exact ⟨rfl, rfl⟩

@[simp] theorem State.boot_retirePage (s : State) (l : Nat) : s.SameBoot (s.retirePage l) := by
  simp [State.retirePage]

@[simp] theorem State.boot_journal (s : State) (l : List HwItem) : s.SameBoot (s.journal l) := by
  simp [State.journal]

@[simp] theorem State.boot_writePending (s : State) (i : Nat) : s.SameBoot (s.writePending i) := by
  unfold State.writePending
  split <;> simp

@[simp] theorem State.boot_writeFcIn (s : State) (i : Nat) (v : BitVec 32) : s.SameBoot (s.writeFcIn i v) := by
  simp [State.writeFcIn]

@[simp] theorem State.boot_writeCeil (s : State) (i v : Nat) : s.SameBoot (s.writeCeil i v) := by
  simp [State.writeCeil]

@[simp] theorem State.boot_writeJoin (s : State) (i : Nat) (key : Key) : s.SameBoot (s.writeJoin i key) := by
  unfold State.writeJoin
  split <;> simp

@[simp] theorem State.boot_closeBuffer (s : State) : s.SameBoot s.closeBuffer := by
  simp [State.closeBuffer]

@[simp] theorem State.boot_writeSuper (s : State) (clean : Bool) : s.SameBoot (s.writeSuper clean) := by
  simp [State.writeSuper]

/-! ## Machine/Lanes -/

@[simp] theorem State.boot_preamble (s : State) (l : Nat) (p : Preamble) (units corrA corrB level : Nat) : s.SameBoot (s.preamble l p units corrA
    corrB level) := by
  unfold State.preamble
  dsimp only
  repeat' split
  all_goals simp

@[simp] theorem State.boot_sfdTimeout (s : State) (l : Nat) : s.SameBoot (s.sfdTimeout l) := by
  unfold State.sfdTimeout
  split <;> simp

@[simp] theorem State.boot_sfdFound (s : State) (l : Nat) (word : BitVec 32) (offset8 : Int) (a b : PortMetric) : s.SameBoot (s.sfdFound l word
    offset8 a b) := by
  unfold State.sfdFound
  repeat' split
  all_goals simp

@[simp] theorem State.boot_headerEnd (s : State) (l : Nat) (hdr : PhyHeader) : s.SameBoot (s.headerEnd l hdr) := by
  unfold State.headerEnd
  split
  · dsimp only
    split
    · simp
    · simp
    · split
      · simp
      · split
        · split <;> simp
        · rename_i t ht
          have h := State.boot_grant ht
          split <;> simp [h]
  · simp

@[simp] theorem State.boot_codeword (s : State) (l : Nat) : s.SameBoot (s.codeword l) := by
  unfold State.codeword
  dsimp only
  split <;> simp

@[simp] theorem State.boot_decoded (s : State) (core iterations : Nat) (word : BitVec 2048) : s.SameBoot (s.decoded core iterations word) := by
  unfold State.decoded
  split <;> simp

@[simp] theorem State.boot_assignEffect (s : State) (l : Nat) : s.SameBoot (s.assignEffect l) := by
  unfold State.assignEffect
  dsimp only
  repeat' split
  all_goals simp

@[simp] theorem State.boot_domReturn (s : State) (d : LaneDom) (kat : List Bool) : s.SameBoot (s.domReturn d kat) := by
  simp [State.domReturn]

/-! ## Machine/CanopyOps -/

@[simp] theorem State.boot_setCourse (s : State) (i : Nat) (c : Option Course) : s.SameBoot (s.setCourse i c) := ⟨rfl, rfl⟩

@[simp] theorem State.boot_coolNode (s : State) (i : Nat) : s.SameBoot (s.coolNode i) := ⟨rfl, rfl⟩

@[simp] theorem State.boot_decideMove (s : State) (i g p cause flags : Nat) (gain : Int) : s.SameBoot (s.decideMove i g p cause flags gain) := by
  unfold State.decideMove
  split
  · simp
  · dsimp only
    split
    · simp
    · rename_i u hu
      have h := (State.boot_sendUnicast _ _ _ _ _ _).of_done hu
      simp at h
      simp [h]

@[simp] theorem State.boot_assignNow (s : State) (i : Nat) : s.SameBoot (s.assignNow i) := by
  unfold State.assignNow
  split <;> simp

@[simp] theorem State.boot_dropAttempt (s : State) (f : Fe) (i : Nat) : s.SameBoot (s.dropAttempt f i) := by
  unfold State.dropAttempt
  dsimp only
  repeat' split
  all_goals simp

@[simp] theorem State.boot_dropCarriers (s : State) (i : Nat) : s.SameBoot (s.dropCarriers i) := by
  unfold State.dropCarriers
  dsimp only
  refine State.SameBoot.trans (State.SameBoot.trans ?_ (foldl_boot (fun s p => ?_) _ _)) (foldl_boot (fun s f => ?_) _ _)
  · have h : s.SameBoot (feAll.foldl (fun s f => s.dropAttempt f i) s) := foldl_boot (fun s f => s.boot_dropAttempt f i) _ s
    exact h
  · split <;> simp
  · simp

@[simp] theorem State.boot_assignWithdraw (s : State) (i : Nat) : s.SameBoot (s.assignWithdraw i) := by
  unfold State.assignWithdraw
  split <;> simp

@[simp] theorem State.boot_writePlace (s : State) (i g p fe kind : Nat) (c : Ctr) : s.SameBoot (s.writePlace i g p fe kind c) := by
  unfold State.writePlace
  split <;> simp

@[simp] theorem State.boot_assignLane (s : State) (l : Nat) (a : Option (Nat × Nat)) (cause flags : Nat) (pinned : Bool) : s.SameBoot (s.assignLane
    l a cause flags pinned) := by
  simp [State.assignLane]

@[simp] theorem State.boot_settleLanes (s : State) : s.SameBoot s.settleLanes := foldl_boot State.boot_assignEffect _ s

@[simp] theorem State.boot_makeMove (s : State) (f : Fe) (mv : SliceMove) : s.SameBoot (s.makeMove f mv) := by
  unfold State.makeMove
  extract_lets c old r renum groups s₁ s₂ was s₃ s₄ x s₅ fix mac canopy s₆ y s₇
  have h₃ : s.SameBoot s₃ := State.SameBoot.trans (t := s₂) (by simp [s₂, s₁]) (foldl_boot (fun s l => by simp) _ _)
  have h₄ : s.SameBoot s₄ := h₃.trans (foldl_boot (fun s p => by split <;> simp) _ _)
  have h₆ : s.SameBoot s₆ := State.SameBoot.trans (t := s₅) (h₄.trans (by simp [s₅])) ⟨rfl, rfl⟩
  clear_value s₆
  have h₇ : s₆.SameBoot s₇ := by
    unfold s₇
    repeat' split
    all_goals simp
  simp [(h₆.trans h₇).1, (h₆.trans h₇).2]

@[simp] theorem State.boot_decideSlice (s : State) (f : Fe) (centre cause flags : Nat) (gain : Int) : s.SameBoot (s.decideSlice f centre cause
    flags gain) := ⟨rfl, rfl⟩

@[simp] theorem State.boot_sliceMove (s : State) (f : Fe) : s.SameBoot (s.sliceMove f) := by
  unfold State.sliceMove
  dsimp only
  split <;> simp

/-! ## Machine/Canopy -/

@[simp] theorem State.boot_measureLinks (s : State) : s.SameBoot s.measureLinks := by
  unfold State.measureLinks
  refine foldl_boot (fun s f => foldl_boot (fun s p => ?_) _ _) _ _
  dsimp only
  repeat' split
  all_goals simp

@[simp] theorem State.boot_measureBusy (s : State) (l : List BusyWindow) : s.SameBoot (s.measureBusy l) := ⟨rfl, rfl⟩

@[simp] theorem State.boot_avoidNeighbours (s : State) : s.SameBoot s.avoidNeighbours := by
  simp [State.avoidNeighbours]

@[simp] theorem State.boot_slice (s : State) (f : Fe) : s.SameBoot (s.slice f) := by
  simp [State.slice]

@[simp] theorem State.boot_applyMap (s : State) (extra cause flags : Nat) : s.SameBoot (s.applyMap extra cause flags) := by
  have h : ∀ (l : List (Nat × Option (Nat × Nat))) (s : State),
      s.SameBoot (l.foldl (fun s p => s.assignLane p.1 p.2 cause flags false) s) := fun l s => foldl_boot (fun s p => by simp) l s
  unfold State.applyMap
  dsimp only
  generalize List.map _ s.availLanes = want
  simp [h]

@[simp] theorem State.boot_faultMap (s : State) : s.SameBoot s.faultMap := by
  unfold State.faultMap
  dsimp only
  generalize ht : List.foldl _ s _ = t
  have h : s.SameBoot t := ht ▸ foldl_boot (fun s j => by simp) _ _
  simp [h]

@[simp] theorem State.boot_noteUnwatched (s : State) : s.SameBoot s.noteUnwatched := ⟨rfl, rfl⟩

@[simp] theorem State.boot_gateList (s : State) (f : Fe) : s.SameBoot (s.gateList f) := by
  unfold State.gateList
  split <;> simp

@[simp] theorem State.boot_revertNode (s : State) (t : Taken) : s.SameBoot (s.revertNode t) := by
  simp [State.revertNode]

@[simp] theorem State.boot_reverts (s : State) : s.SameBoot s.reverts := by
  simp [State.reverts]

@[simp] theorem State.boot_rehomes (s : State) : s.SameBoot s.rehomes := by
  unfold State.rehomes
  refine State.SameBoot.trans (t := { s with canopy := { s.canopy with rehome := [] } }) ⟨rfl, rfl⟩ (foldl_boot (fun s x => ?_) _ _)
  repeat' split
  all_goals simp

@[simp] theorem State.boot_decidePins (s : State) : s.SameBoot s.decidePins := by
  unfold State.decidePins
  refine foldl_boot (fun s x => ?_) _ _
  repeat' split
  all_goals simp

@[simp] theorem State.boot_placeNodes (s : State) (n : Nat) : s.SameBoot (s.placeNodes n) := by
  induction n generalizing s with
  | zero => exact ⟨rfl, rfl⟩
  | succ n ih =>
    unfold State.placeNodes
    repeat' split
    all_goals simp [ih]

@[simp] theorem State.boot_aerialNode (s : State) (i : Nat) : s.SameBoot (s.aerialNode i) := by
  unfold State.aerialNode
  repeat' split
  all_goals simp

@[simp] theorem State.boot_powerNode (s : State) (i : Nat) : s.SameBoot (s.powerNode i) := by
  unfold State.powerNode
  repeat' split
  all_goals simp

@[simp] theorem State.boot_setPath (s : State) (i slot : Nat) (gain : Int) : s.SameBoot (s.setPath i slot gain) := by
  unfold State.setPath
  split <;> simp

@[simp] theorem State.boot_paths (s : State) : s.SameBoot s.paths := by
  simp [State.paths]

@[simp] theorem State.boot_work (s : State) : s.SameBoot s.work := by
  simp [State.work]

@[simp] theorem State.boot_decideKind (s : State) (k : Nat) : s.SameBoot (s.decideKind k) := by
  unfold State.decideKind
  split <;> simp

@[simp] theorem State.boot_decideAll (s : State) (due : List Nat) : s.SameBoot (s.decideAll due) := by
  simp [State.decideAll]

@[simp] theorem State.boot_canopyRound (s : State) (e : CanopyEnv) : s.SameBoot (s.canopyRound e) := by
  simp [State.canopyRound]

@[simp] theorem State.boot_freezeEnd (s : State) : s.SameBoot s.freezeEnd := by
  simp [State.freezeEnd]

@[simp] theorem State.boot_raiseUnwatched (s : State) (f : Fe) (k : Nat) : s.SameBoot (s.raiseUnwatched f k) := by
  unfold State.raiseUnwatched
  dsimp only
  split <;> simp

/-! ## Machine/CanopyCmds -/

@[simp] theorem State.boot_waitPin (s : State) (i : Nat) (w : PinWait) : s.SameBoot (s.waitPin i w) := ⟨rfl, rfl⟩

@[simp] theorem State.boot_markPin (s : State) (i kind : Nat) (on : Bool) : s.SameBoot (s.markPin i kind on) := by
  unfold State.markPin
  split <;> simp

@[simp] theorem State.boot_pinNode (s : State) (i : Nat) (n : Node) (kind value : Nat) : s.SameBoot (s.pinNode i n kind value) := by
  unfold State.pinNode
  split <;> simp

@[simp] theorem State.boot_pinLane (s : State) (l : Nat) (a : Nat × Nat) : s.SameBoot (s.pinLane l a) := by
  unfold State.pinLane
  dsimp only
  generalize ht : List.foldl _ s _ = t
  have h : s.SameBoot t := ht ▸ foldl_boot (fun s j => by simp) _ _
  simp [h]

@[simp] theorem State.boot_pinSlice (s : State) (f : Fe) (c : Nat) : s.SameBoot (s.pinSlice f c) := by
  simp [State.pinSlice]

@[simp] theorem State.boot_canopyPin (s : State) (m : Nat) (r : Request) : s.SameBoot (s.canopyPin m r) := by
  unfold State.canopyPin
  dsimp only
  repeat' split
  all_goals simp

@[simp] theorem State.boot_dropWait (s : State) (i kind : Nat) : s.SameBoot (s.dropWait i kind) := ⟨rfl, rfl⟩

@[simp] theorem State.boot_canopyUnpin (s : State) (m : Nat) (r : Request) : s.SameBoot (s.canopyUnpin m r) := by
  unfold State.canopyUnpin
  dsimp only
  repeat' split
  all_goals simp

@[simp] theorem State.boot_setFreeze (s : State) (kinds w duration : Nat) (on : Bool) : s.SameBoot (s.setFreeze kinds w duration on) := by
  simp [State.setFreeze]

/-! ## Machine/Clock -/

@[simp] theorem State.boot_writeInc (s : State) (ns : BitVec 3) (frac : BitVec 32) : s.SameBoot (s.writeInc ns frac) := by
  simp [State.writeInc]

@[simp] theorem State.boot_masterLoss (s : State) : s.SameBoot s.masterLoss := by
  simp [State.masterLoss]

@[simp] theorem State.boot_holdoverDegraded (s : State) : s.SameBoot s.holdoverDegraded := by
  simp [State.holdoverDegraded]

@[simp] theorem State.boot_ppsEdge (s : State) : s.SameBoot s.ppsEdge := by
  simp [State.ppsEdge]

@[simp] theorem State.boot_timeSet (s : State) (m : Nat) (r : Request) : s.SameBoot (s.timeSet m r) := by
  unfold State.timeSet
  repeat' split
  all_goals simp

@[simp] theorem State.boot_localChange (s : State) (m : Nat) (r : Request) (o : Int) (summer : Option Bool) : s.SameBoot (s.localChange m r o
    summer) := by
  simp [State.localChange]

/-! ## Machine/MacRx -/

@[simp] theorem State.boot_postAck (s : State) (r : RxEnd) (f : AirFrame) : s.SameBoot (s.postAck r f) := by
  unfold State.postAck
  dsimp only
  split <;> simp

@[simp] theorem State.boot_countWorldAndDevice (s : State) (c : Ctr) (w : Option Nat) : s.SameBoot (s.countWorldAndDevice c w) := by
  unfold State.countWorldAndDevice
  split <;> simp

@[simp] theorem State.boot_dupEnter (s : State) (f : AirFrame) (fcs : BitVec 32) (len endNs : Nat) : s.SameBoot (s.dupEnter f fcs len endNs) := by
  unfold State.dupEnter
  dsimp only
  repeat' split
  all_goals simp

@[simp] theorem State.boot_nbrEvent (s : State) (code : Nat) (n : Nbr) : s.SameBoot (s.nbrEvent code n) := by
  simp [State.nbrEvent]

@[simp] theorem State.boot_neighbour (s : State) (r : RxEnd) (src : BitVec 64) (e : BeaconElem) : s.SameBoot (s.neighbour r src e) := by
  unfold State.neighbour
  repeat' split
  all_goals simp

@[simp] theorem State.boot_beaconHeard (s : State) (r : RxEnd) (f : AirFrame) : s.SameBoot (s.beaconHeard r f) := by
  unfold State.beaconHeard
  split <;> simp

@[simp] theorem State.boot_awaited (s : State) (r : RxEnd) (f : AirFrame) (good : Bool) : s.SameBoot (s.awaited r f good) := by
  unfold State.awaited
  split <;> simp

@[simp] theorem State.boot_learnFrame (s : State) (r : RxEnd) (src : Addr) (direct : Bool) : s.SameBoot (s.learnFrame r src direct) := by
  unfold State.learnFrame
  repeat' split
  all_goals simp

@[simp] theorem State.boot_measureU (s : State) (i : Nat) (r : RxEnd) : s.SameBoot (s.measureU i r) := by
  unfold State.measureU
  dsimp only
  repeat' split
  all_goals simp

@[simp] theorem State.boot_noteChannel (s : State) (i : Nat) (r : RxEnd) : s.SameBoot (s.noteChannel i r) := by
  unfold State.noteChannel
  dsimp only
  repeat' split
  all_goals simp

@[simp] theorem State.boot_acceptSource (s : State) (r : RxEnd) (f : AirFrame) : s.SameBoot (s.acceptSource r f).2 := by
  unfold State.acceptSource
  dsimp only
  repeat' split
  all_goals simp

@[simp] theorem State.boot_freeLane (s : State) (l : Nat) : s.SameBoot (s.freeLane l) := ⟨rfl, rfl⟩

@[simp] theorem State.boot_closeFrame (s : State) (r : RxEnd) : s.SameBoot (s.closeFrame r) := by
  simp [State.closeFrame]

@[simp] theorem State.boot_testFrame (s : State) (fe : Fe) (level : Nat) : s.SameBoot (s.testFrame fe level) := ⟨rfl, rfl⟩

@[simp] theorem State.boot_acceptFrame (s : State) (r : RxEnd) (f : AirFrame) : s.SameBoot (s.acceptFrame r f) := by
  simp [State.acceptFrame]

@[simp] theorem State.boot_frameEnd (s : State) (l : Nat) (f : AirFrame) : s.SameBoot (s.frameEnd l f) := by
  unfold State.frameEnd
  split <;> simp

@[simp] theorem State.boot_nbrWindow (s : State) (router : Nat) : s.SameBoot (s.nbrWindow router) := by
  unfold State.nbrWindow
  repeat' split
  all_goals simp

/-! ## Machine/Rpl -/

@[simp] theorem State.boot_resetTrickle (s : State) (w : Nat) : s.SameBoot (s.resetTrickle w) := ⟨rfl, rfl⟩

theorem State.boot_rplReply (s : State) (i : Nat) (kind : DownKind) : (s.rplReply i kind).KeepsBoot s := by
  unfold State.rplReply
  split
  · simp
  · exact (State.boot_sendUnicast _ _ _ _ _ _).of_sameBoot ⟨rfl, rfl⟩

@[simp] theorem State.boot_dioTrickle (s : State) (w : Nat) : s.SameBoot (s.dioTrickle w) := by
  unfold State.dioTrickle
  split
  · simp
  · dsimp only
    split
    · simp
    · split
      · rename_i u hu
        have h := (State.boot_sendCast _ _ _ _ _).of_done hu
        simp at h
        simp [h]
      · simp

@[simp] theorem State.boot_applyDao (s : State) (i : Nat) (n : Node) (seq : BitVec 8) (l : List Transit) : s.SameBoot (s.applyDao i n seq l) := by
  simp [State.applyDao]

theorem State.boot_dao (s : State) (i : Nat) (n : Node) (inst : Nat) (targets : List (BitVec 64)) (seq : BitVec 8) (l : List Transit) (k : Bool) :
    (s.dao i n inst targets seq l k).KeepsBoot s := by
  unfold State.dao
  dsimp only
  split
  · simp
  · split
    · simp
    · split
      · simp
      · split
        · exact (State.boot_rplReply _ _ _).of_sameBoot (by simp)
        · simp

theorem State.boot_dis (s : State) (i : Nat) (n : Node) (b : Bool) : (s.dis i n b).KeepsBoot s := by
  unfold State.dis
  repeat' split
  · simp
  · simp
  · exact State.boot_rplReply _ _ _

/-! ## Machine/Link -/

@[simp] theorem State.boot_countRx (s : State) (r : Rx) (c : Ctr) (w : Option Nat) : s.SameBoot (s.countRx r c w) := by
  unfold State.countRx
  split <;> simp

@[simp] theorem State.boot_dropRx (s : State) (r : Rx) : s.SameBoot (s.dropRx r) := by
  simp [State.dropRx]

@[simp] theorem State.boot_holdOpen (s : State) (r : Rx) : s.SameBoot (s.holdOpen r) := by
  unfold State.holdOpen
  split <;> simp

@[simp] theorem State.boot_dropJoin (s : State) (i : Nat) : s.SameBoot (s.dropJoin i) := ⟨rfl, rfl⟩

@[simp] theorem State.boot_joinFails (s : State) (i : Nat) (n : Node) (w : Nat) (c : Ctr) : s.SameBoot (s.joinFails i n w c) := by
  simp [State.joinFails]

@[simp] theorem State.boot_joinHeard (s : State) (r : Rx) (i : Nat) (n : Node) (g : Nat) : s.SameBoot (s.joinHeard r i n g).2 := by
  unfold State.joinHeard
  split <;> simp

theorem State.boot_notice (s : State) (r : Rx) (i : Nat) (n : Node) (w reason : Nat) (b : Bool) : (s.notice r i n w reason b).KeepsBoot s := by
  unfold State.notice
  dsimp only
  split
  · simp
  · split
    · rename_i t ht
      split at ht
      · have g := (State.boot_sendUnicast _ _ _ _ _ _).of_done ht
        simp at g
        simp [g]
      · split at ht
        · have g := (State.boot_sendJoinKey _ _ _ _ _ _ _).of_done ht
          simp at g
          simp [g]
        · cases ht
          simp
    · simp

theorem State.boot_joinReq (s : State) (r : Rx) (sec : AirSec) (i : Nat) (n : Node) (w : Nat) : (s.joinReq r sec i n w).KeepsBoot s := by
  unfold State.joinReq
  split
  · split
    · simp
    · split
      · simp
      · dsimp only
        split
        · simp
        · split
          · simp
          · split
            · simp
            · split
              · simp
              · exact (State.boot_sendJoinKey _ _ _ _ _ _ _).of_sameBoot (by simp)
  · simp

theorem State.boot_joinDone (s : State) (i : Nat) : (s.joinDone i).KeepsBoot s := by
  unfold State.joinDone
  split
  · exact State.boot_sendUnicast _ _ _ _ _ _
  · simp

theorem State.boot_joinComplete (s : State) (r : Rx) (sec : AirSec) (i : Nat) (n : Node) (j : Join) (g p : Nat) :
    (s.joinComplete r sec i n j g p).KeepsBoot s := by
  unfold State.joinComplete
  exact (State.boot_joinDone _ _).of_sameBoot (by simp)

theorem State.boot_joinConfirm {s : State} {r : Rx} {sec : AirSec} {i : Nat} {n : Node} {j : Join} {p : Prot} (h : s.joinConfirm r sec i n j = some p) :
    p.KeepsBoot s := by
  unfold State.joinConfirm at h
  split at h
  · cases h
    simp
  · split at h
    · cases h
      split
      · simp
      · dsimp only
        split
        · simp
        · split
          · simp
          · exact (State.boot_joinComplete _ _ _ _ _ _ _ _).of_sameBoot (by simp)
    · cases h

@[simp] theorem State.boot_upstream (s : State) (w : Nat) (src : BitVec 64) (ip : Octets) (tc : BitVec 8) (keep : List Nat) : s.SameBoot
    (s.upstream w src ip tc keep) := by
  unfold State.upstream
  repeat' split
  case h_1 t ht => exact State.boot_post ht
  all_goals simp

@[simp] theorem State.boot_dropReasm (s : State) (x : Reasm) : s.SameBoot (s.dropReasm x) := by
  simp [State.dropReasm]

@[simp] theorem State.boot_fragment (s : State) (r : Rx) (w : Nat) (src : BitVec 64) (ip : Octets) (h : FragHdr) : s.SameBoot (s.fragment r w src
    ip h) := by
  unfold State.fragment
  dsimp only
  repeat' split
  case h_1 t ht => simp [State.boot_moveCharge ht]
  all_goals simp

theorem State.boot_upContent (s : State) (r : Rx) (i : Nat) (n : Node) : (s.upContent r i n).KeepsBoot s := by
  unfold State.upContent
  repeat' split
  · simp
  · simp
  · simp
  · exact (State.boot_dao _ _ _ _ _ _ _ _).of_sameBoot (by simp)
  · exact (State.boot_dis _ _ _ _).of_sameBoot (by simp)
  · exact (State.boot_joinDone _ _).of_sameBoot (by simp)
  · simp
  · simp

theorem State.boot_verify {s t : State} {r : Rx} {sec : AirSec} {i : Nat} {n : Node} {c : KeyClass} {b : Bool}
    (h : s.verify r sec i n c = some (b, t)) : s.SameBoot t := by
  unfold State.verify at h
  split at h
  · obtain ⟨k, hk, he⟩ := Option.map_eq_some_iff.1 h
    cases he
    exact State.boot_linkKey hk
  · cases h
    exact ⟨rfl, rfl⟩
  · cases h
    exact ⟨rfl, rfl⟩


theorem State.boot_verifyFrame (s : State) (r : Rx) (sec : AirSec) (i : Nat) (n : Node) (c : KeyClass) :
    (s.verifyFrame r sec i n c).KeepsBoot s := by
  have notices : ∀ t n w k b, s.SameBoot t → (State.notice t r i n w k b).KeepsBoot s := fun _ _ _ _ _ h =>
    (State.boot_notice _ _ _ _ _ _ _).of_sameBoot h
  have contents : ∀ t n, s.SameBoot t → (State.upContent t r i n).KeepsBoot s := fun _ _ h => (State.boot_upContent _ _ _ _).of_sameBoot h
  unfold State.verifyFrame
  extract_lets w stale heldGen isLink sameWorld t₁ t₂ m t₃
  split
  · simp
  · split
    · simp
    · split
      · split <;> simp [notices, t₁]
      · split
        · split
          · split
            · exact notices _ _ _ _ _ (by simp [t₃, t₂])
            · simp [t₃, t₂]
          · simp [t₂]
        · split
          · simp
          · next t hv => simp [State.boot_verify hv]
          · next t hv => exact contents _ _ (by simp [State.boot_verify hv])

theorem State.boot_secure (s : State) (r : Rx) (i : Nat) (n : Node) : (s.secure r i n).KeepsBoot s := by
  unfold State.secure
  split
  · simp
  · rename_i sec _
    dsimp only
    generalize hu : (if n.state ≠ .joining then s.verifyFrame r sec i n (keyClass sec.keyIndex) else _) = usual
    have usualKeeps : usual.KeepsBoot s := by
      rw [← hu]
      split
      · exact State.boot_verifyFrame _ _ _ _ _ _
      · split
        · exact (State.boot_notice _ _ _ _ _ _ _).of_sameBoot (by simp)
        · simp
    split
    · simp
    · exact (State.boot_joinReq _ _ _ _ _ _).of_sameBoot (by simp)
    · split
      · split
        · rename_i j _ _
          cases hc : (s.dropRx r).joinConfirm r sec i n j with
          | none => exact usualKeeps
          | some p => exact (State.boot_joinConfirm hc).of_sameBoot (by simp)
        · exact usualKeeps
      · exact usualKeeps
    · exact usualKeeps

@[simp] theorem State.boot_security (s : State) (p : Fe) : s.SameBoot (s.security p) := by
  unfold State.security
  dsimp only
  split
  · simp
  · split
    · split
      · simp
      · simp
      · simp
      · simp
      · split
        · simp
        · split
          · rename_i u hu
            have h := (State.boot_secure _ _ _ _).of_done hu
            simp at h
            simp [h]
          · simp
    · simp

@[simp] theorem State.boot_joinTimeout (s : State) (i : Nat) : s.SameBoot (s.joinTimeout i) := by
  unfold State.joinTimeout
  split <;> simp

@[simp] theorem State.boot_reasmTimeout (s : State) (src : BitVec 64) (tag size : Nat) : s.SameBoot (s.reasmTimeout src tag size) := by
  unfold State.reasmTimeout
  split <;> simp

@[simp] theorem State.boot_ceilingWrite (s : State) (k : CeilKind) : s.SameBoot (s.ceilingWrite k) := by
  unfold State.ceilingWrite
  dsimp only
  repeat' split
  all_goals simp

/-! ## Machine/Down -/

@[simp] theorem State.boot_learnRouter (s : State) (mac : BitVec 48) : s.SameBoot (s.learnRouter mac) := by
  simp [State.learnRouter]

@[simp] theorem State.boot_toPart (s : State) (port arrival : Nat) (src dst : BitVec 128) (udp : Option (BitVec 16 × BitVec 16)) (data : Octets) :
    s.SameBoot (s.toPart port arrival src dst udp data) := by
  unfold State.toPart
  repeat' split
  all_goals simp

theorem State.boot_downUnicast (s : State) (w i : Nat) (p : DownPkt) : (s.downUnicast w i p).KeepsBoot s := by
  unfold State.downUnicast
  split
  · simp
  · dsimp only
    split
    · simp
    · split
      · simp
      · split
        · simp
        · rename_i t ht
          have h := (State.boot_sendUnicast _ _ _ _ _ _).of_done ht
          simp at h
          simp [h]

theorem State.boot_downCast (s : State) (w q : Nat) (p : DownPkt) : (s.downCast w q p).KeepsBoot s := by
  unfold State.downCast
  dsimp only
  split
  · simp
  · exact (State.boot_sendCast _ _ _ _ _).of_sameBoot (by simp)

theorem State.boot_downstream (s : State) (hdr : EthHdr) (dst : BitVec 128) (tc : BitVec 8) (p : DownPkt) :
    (s.downstream hdr dst tc p).KeepsBoot s := by
  unfold State.downstream
  repeat' split
  · exact State.boot_downCast _ _ _ _
  all_goals simp [State.boot_downUnicast]

theorem State.boot_classify (s : State) (port : Nat) (f : EthFrame) (arrival : Nat) (o : Octets) (k : Nat) :
    (s.classify port f arrival o k).KeepsBoot s := by
  unfold State.classify
  split
  · split
    · simp
    · split
      · exact State.boot_downstream _ _ _ _ _
      · simp
  · simp
  · simp
  · simp

theorem State.boot_takeAct (s : State) (q : Nat) {act : State → Packet → Prot} (h : ∀ t p, (act t p).KeepsBoot t) : s.SameBoot (s.takeAct q act) := by
  unfold State.takeAct
  dsimp only
  split
  · simp
  · split
    · rename_i p _ _ u hu
      have g := h ((s.take (orderKey q 0)).2.releaseChain p.acct p.cells p.chain) p
      rw [hu] at g
      exact State.SameBoot.trans (by simp) g
    · simp

@[simp] theorem State.boot_classifyNext (s : State) (compressed : Octets) (hdrOct : Nat) : s.SameBoot (s.classifyNext compressed hdrOct) := by
  unfold State.classifyNext
  split
  · refine State.boot_takeAct s _ fun t p => ?_
    split
    · exact State.boot_downCast _ _ _ _
    · simp
  · refine State.boot_takeAct s _ fun t p => ?_
    split
    · exact State.boot_classify _ _ _ _ _ _
    · simp

/-! ## Machine/LifeOps -/

@[simp] theorem State.boot_raiseRollback (s : State) : s.SameBoot s.raiseRollback := by
  simp [State.raiseRollback]

@[simp] theorem State.boot_raiseFloor (s : State) : s.SameBoot s.raiseFloor := by
  unfold State.raiseFloor
  split <;> simp

@[simp] theorem State.boot_countKept (s : State) (c : Ctr) (sc : Scope) : s.SameBoot (s.countKept c sc) := ⟨rfl, rfl⟩

@[simp] theorem State.boot_sendLast (s : State) : s.SameBoot s.sendLast := ⟨rfl, rfl⟩

@[simp] theorem State.boot_openM0 (s : State) : s.SameBoot s.openM0 := ⟨rfl, rfl⟩

@[simp] theorem State.boot_haltCrypto (s : State) : s.SameBoot s.haltCrypto := by
  simp [State.haltCrypto]

@[simp] theorem State.boot_zeroEnd (s : State) : s.SameBoot s.zeroEnd := ⟨rfl, rfl⟩

@[simp] theorem State.boot_mapOutUnit (s : State) (u : Nat) : s.SameBoot (s.mapOutUnit u) := by
  simp [State.mapOutUnit]

@[simp] theorem State.boot_unitTests (s : State) (ok : List Bool) : s.SameBoot (s.unitTests ok) := by
  simp [State.unitTests]

@[simp] theorem State.boot_collect (s : State) (first second : Bool) : s.SameBoot (s.collect first second).2 := by
  unfold State.collect
  repeat' split
  all_goals simp

@[simp] theorem State.boot_tests2to9 (s : State) (r : TestEnv) : s.SameBoot (s.tests2to9 r).2 := by
  unfold State.tests2to9
  dsimp only
  repeat' split
  all_goals simp

/-! ## Machine/Jobs -/

@[simp] theorem State.boot_dropStale (s : State) : s.SameBoot s.dropStale := by
  simp [State.dropStale]

@[simp] theorem State.boot_offer (s : State) (n : Nat) : s.SameBoot (s.offer n) := by
  induction n generalizing s with
  | zero => exact ⟨rfl, rfl⟩
  | succ n ih =>
    unfold State.offer
    dsimp only
    repeat' split
    all_goals simp [ih]

@[simp] theorem State.boot_offerJobs (s : State) : s.SameBoot s.offerJobs := by
  simp [State.offerJobs]

@[simp] theorem State.boot_freshCtx (s : State) (c : Nat) (w : Word) (i : Nat) : s.SameBoot (s.freshCtx c w i) := ⟨rfl, rfl⟩

@[simp] theorem State.boot_bindCtx (s : State) (w : Word) (i : Nat) : s.SameBoot (s.bindCtx w i) := by
  unfold State.bindCtx
  split <;> simp

/-! ## Machine/Restore -/

@[simp] theorem State.boot_openMbox (s : State) (m world : Nat) (addr : BitVec 128) (port : BitVec 16) : s.SameBoot (s.openMbox m world addr port)
    := ⟨rfl, rfl⟩

@[simp] theorem State.boot_freshWindow (s : State) (m : Nat) : s.SameBoot (s.freshWindow m) := ⟨rfl, rfl⟩

@[simp] theorem State.boot_useMboxKey (s : State) (m world : Nat) (key : List Nat) : s.SameBoot (s.useMboxKey m world key) := by
  unfold State.useMboxKey
  refine State.SameBoot.trans ?_ (State.boot_deriveMbox _ _ _ _)
  split
  · simp
  · simp

@[simp] theorem State.boot_openMboxes (s : State) : s.SameBoot s.openMboxes := by
  unfold State.openMboxes
  refine foldl_boot (fun s m => ?_) _ _
  split
  · simp
  · dsimp only
    split <;> simp

@[simp] theorem State.boot_openBare (s : State) : s.SameBoot s.openBare := by
  unfold State.openBare
  dsimp only
  repeat' split
  all_goals simp

@[simp] theorem State.boot_loadImageKeys (s : State) : s.SameBoot s.loadImageKeys := by
  unfold State.loadImageKeys
  refine foldl_boot (fun s x => ?_) _ _
  repeat' split
  all_goals simp

@[simp] theorem State.boot_loadKeptKeys (s : State) : s.SameBoot s.loadKeptKeys := by
  unfold State.loadKeptKeys
  exact foldl_boot (fun s x => by split <;> simp) _ _

@[simp] theorem State.boot_fixFallbacks (s : State) : s.SameBoot s.fixFallbacks := by
  unfold State.fixFallbacks
  refine foldl_boot (fun s i => ?_) _ _
  split <;> simp

@[simp] theorem State.boot_loadKeys (s : State) (same : Bool) : s.SameBoot (s.loadKeys same) := by
  unfold State.loadKeys
  dsimp only
  split <;> simp

@[simp] theorem State.boot_replaceAlmanac (s : State) : s.SameBoot s.replaceAlmanac := by
  unfold State.replaceAlmanac
  split <;> simp

@[simp] theorem State.boot_restoreDuty (s : State) (same clean : Bool) : s.SameBoot (s.restoreDuty same clean) := ⟨rfl, rfl⟩

@[simp] theorem State.boot_adoptSeed (s : State) (seed : BitVec 64) (c : IdxCopy) : s.SameBoot (s.adoptSeed seed c) := by
  simp [State.adoptSeed]

@[simp] theorem State.boot_drawSeeds (n : Nat) (s : State) : s.SameBoot (State.drawSeeds n s).2 := by
  induction n generalizing s with
  | zero => exact ⟨rfl, rfl⟩
  | succ n ih => simp [State.drawSeeds, ih]

@[simp] theorem State.boot_reindex (s : State) (seed : BitVec 64) : s.SameBoot (s.reindex seed) := by
  unfold State.reindex
  dsimp only
  split
  · simp
  · split
    · simp
    · refine State.SameBoot.trans ?_ (State.boot_raiseTableFull _ _)
      refine State.SameBoot.trans ?_ (foldl_boot (fun s p => ?_) _ _)
      · simp
      · split <;> simp

@[simp] theorem State.boot_restoreNode (s : State) (i : Nat) (r : IdRec) : s.SameBoot (s.restoreNode i r) := by
  unfold State.restoreNode
  dsimp only
  repeat' split
  all_goals simp

@[simp] theorem State.boot_restoreTable (s : State) (same : Bool) : s.SameBoot (s.restoreTable same) := by
  simp [State.restoreTable]

@[simp] theorem State.boot_logClamp (s : State) (world subject old new : Nat) : s.SameBoot (s.logClamp world subject old new) := by
  simp [State.logClamp]

@[simp] theorem State.boot_restoreCentre (s : State) (keep : Option CanopyKeep) (f : Fe) : s.SameBoot (s.restoreCentre keep f) := by
  simp [State.restoreCentre]

@[simp] theorem State.boot_restoreGroups (s : State) (keep : Option CanopyKeep) : s.SameBoot (s.restoreGroups keep) := by
  simp [State.restoreGroups]

@[simp] theorem State.boot_restoreLanes (s : State) (keep : Option CanopyKeep) (same : Bool) : s.SameBoot (s.restoreLanes keep same) := by
  simp [State.restoreLanes]

@[simp] theorem State.boot_logGates (s : State) (keep : Option CanopyKeep) (f : Fe) (p : Octets) : s.SameBoot (s.logGates keep f p) := by
  unfold State.logGates
  exact foldl_boot (fun s x => by split <;> simp) _ _

@[simp] theorem State.boot_restoreGates (s : State) (keep : Option CanopyKeep) : s.SameBoot (s.restoreGates keep) := by
  unfold State.restoreGates
  exact foldl_boot (fun s x => by split <;> simp) _ _

@[simp] theorem State.boot_clampNode (s : State) (i : Nat) (n : Node) : s.SameBoot (s.clampNode i n) := by
  simp [State.clampNode]

@[simp] theorem State.boot_restoreCanopy (s : State) (same : Bool) : s.SameBoot (s.restoreCanopy same) := by
  unfold State.restoreCanopy
  dsimp only
  split <;> simp

/-! ## Machine/Start -/

@[simp] theorem State.boot_cfgRejected (s : State) (slot : Nat) (f : ImgFail) : s.SameBoot (s.cfgRejected slot f) := by
  simp [State.cfgRejected]

@[simp] theorem State.boot_countSkipped (s : State) (i : Image) : s.SameBoot (s.countSkipped i) := by
  simp [State.countSkipped]

@[simp] theorem State.boot_takeLocal (s : State) (same : Bool) : s.SameBoot (s.takeLocal same) := by
  simp [State.takeLocal]

@[simp] theorem State.boot_applyRecords (s : State) (same : Bool) : s.SameBoot (s.applyRecords same) := by
  unfold State.applyRecords
  dsimp only
  split <;> simp

@[simp] theorem State.boot_bringUp (s : State) : s.SameBoot s.bringUp := by
  simp [State.bringUp]

@[simp] theorem State.boot_feUp (s : State) (e : StartEnv) (f : Fe) : s.SameBoot (s.feUp e f) := by
  simp [State.feUp]

@[simp] theorem State.boot_lanesUp (s : State) (kat : List Bool) : s.SameBoot (s.lanesUp kat) := by
  simp [State.lanesUp]

@[simp] theorem State.boot_raiseTraining (s : State) : s.SameBoot s.raiseTraining := by
  simp [State.raiseTraining]

@[simp] theorem State.boot_feOn (s : State) (f : Fe) : s.SameBoot (s.feOn f) := by
  simp [State.feOn]

/-! ## Machine/Memory -/

@[simp] theorem State.boot_reload (s : State) (i : Nat) : s.SameBoot (s.reload i) := by
  unfold State.reload
  repeat' split
  all_goals simp

@[simp] theorem State.boot_reclaim (s : State) (a n : Nat) (chain : List Nat) : s.SameBoot (s.reclaim a n chain) := by
  simp [State.reclaim]

/-! ## Machine/Ports -/

@[simp] theorem State.boot_cellRequest (s : State) (p : Port) (h : EthHdr) : s.SameBoot (s.cellRequest p h) := by
  simp [State.cellRequest]

@[simp] theorem State.boot_commitEth (s : State) (p : Port) (f : EthFrame) (trailer : Bool) (arrival : Nat) : s.SameBoot (s.commitEth p f trailer
    arrival) := by
  simp [State.commitEth]

@[simp] theorem State.boot_judgeEth (s : State) (p : Port) (f : EthFrame) : s.SameBoot (s.judgeEth p f) := by
  unfold State.judgeEth
  repeat' split
  all_goals simp

@[simp] theorem State.boot_ethEnd (s : State) (p : Port) (f : EthFrame) : s.SameBoot (s.ethEnd p f) := by
  simp [State.ethEnd]

@[simp] theorem State.boot_oversize (s : State) (p : Port) : s.SameBoot (s.oversize p) := by
  simp [State.oversize]

@[simp] theorem State.boot_pauseEnds (s : State) (p : Port) : s.SameBoot (s.pauseEnds p) := by
  unfold State.pauseEnds
  split <;> simp

@[simp] theorem State.boot_pauseBreak (s : State) (p : Port) : s.SameBoot (s.pauseBreak p) := by
  simp [State.pauseBreak]

@[simp] theorem State.boot_supervision (s : State) : s.SameBoot s.supervision := by
  simp [State.supervision]

@[simp] theorem State.boot_linkUp (s : State) (p : Port) (bad : Bool) : s.SameBoot (s.linkUp p bad) := by
  unfold State.linkUp
  dsimp only
  split <;> simp

@[simp] theorem State.boot_portLost (s : State) (p : Port) : s.SameBoot (s.portLost p) := by
  simp [State.portLost]

@[simp] theorem State.boot_linkDown (s : State) (p : Port) : s.SameBoot (s.linkDown p) := by
  simp [State.linkDown]

@[simp] theorem State.boot_speedOutcome (s : State) (p : Port) (status : Nat) : s.SameBoot (s.speedOutcome p status) := by
  unfold State.speedOutcome
  exact foldl_boot (fun s x => by split <;> simp) _ _

@[simp] theorem State.boot_speedDone (s : State) (p : Port) : s.SameBoot (s.speedDone p) := by
  unfold State.speedDone
  dsimp only
  split <;> simp

@[simp] theorem State.boot_speedTimeout (s : State) (p : Port) : s.SameBoot (s.speedTimeout p) := by
  unfold State.speedTimeout
  dsimp only
  split <;> simp

@[simp] theorem State.boot_enterLpi (s : State) (p : Port) : s.SameBoot (s.enterLpi p) := by
  simp [State.enterLpi]

@[simp] theorem State.boot_backhaulSpeed (s : State) (m : Nat) (r : Request) : s.SameBoot (s.backhaulSpeed m r) := by
  simp [State.backhaulSpeed]

/-! ## Machine/Power -/

@[simp] theorem State.boot_haltLanes (s : State) : s.SameBoot s.haltLanes := by
  simp [State.haltLanes]

@[simp] theorem State.boot_writeTally (s : State) : s.SameBoot s.writeTally := by
  simp [State.writeTally]

@[simp] theorem State.boot_powerSequence (s : State) : s.SameBoot s.powerSequence := by
  simp [State.powerSequence]

/-! ## Machine/RfTest -/

@[simp] theorem State.boot_clearAttempt (s : State) (f : Fe) : s.SameBoot (s.clearAttempt f) := by
  unfold State.clearAttempt
  dsimp only
  repeat' split
  all_goals simp

@[simp] theorem State.boot_rfTestStart (s : State) (m : Nat) (r : Request) : s.SameBoot (s.rfTestStart m r) := by
  unfold State.rfTestStart
  dsimp only
  split <;> simp

@[simp] theorem State.boot_leaveTest (s : State) (f : Fe) : s.SameBoot (s.leaveTest f) := by
  simp [State.leaveTest]

@[simp] theorem State.boot_rfTestStop (s : State) (m : Nat) (r : Request) : s.SameBoot (s.rfTestStop m r) := by
  unfold State.rfTestStop
  repeat' split
  all_goals simp

@[simp] theorem State.boot_testEnd (s : State) (f : Fe) : s.SameBoot (s.testEnd f) := by
  unfold State.testEnd
  split <;> simp

/-! ## Machine/Faults -/

@[simp] theorem State.boot_takeDecoder (s : State) (c : Nat) : s.SameBoot (s.takeDecoder c) := ⟨rfl, rfl⟩

@[simp] theorem State.boot_dropHelec (s : State) : s.SameBoot s.dropHelec := by
  unfold State.dropHelec
  split
  · simp
  · refine foldl_boot (fun s l => ?_) _ _
    dsimp only
    split
    · split <;> simp
    · simp

@[simp] theorem State.boot_decoderFault (s : State) (c cause : Nat) : s.SameBoot (s.decoderFault c cause) := by
  simp [State.decoderFault]

@[simp] theorem State.boot_serdesFault (s : State) (p : Port) (cause : Nat) : s.SameBoot (s.serdesFault p cause) := by
  simp [State.serdesFault]

@[simp] theorem State.boot_emptyQueue (s : State) (q : Nat) : s.SameBoot (s.emptyQueue q) := by
  simp [State.emptyQueue]

@[simp] theorem State.boot_lanesFault (s : State) (l : List Nat) : s.SameBoot (s.lanesFault l) := by
  simp [State.lanesFault]

@[simp] theorem State.boot_breach (s : State) (row who : Nat) : s.SameBoot (s.breach row who) := by
  simp [State.breach]

@[simp] theorem State.boot_markBlock (s : State) (cell : Nat) : s.SameBoot (s.markBlock cell) := by
  simp [State.markBlock]

@[simp] theorem State.boot_wordCorrected (s : State) (staging : Bool) (cell : Nat) : s.SameBoot (s.wordCorrected staging cell) := by
  simp [State.wordCorrected]

@[simp] theorem State.boot_dropPacket (s : State) (p : Packet) : s.SameBoot (s.dropPacket p) := by
  unfold State.dropPacket
  split <;> simp

@[simp] theorem State.boot_dropTaken (s : State) (f : Fe) (r : Retry) : s.SameBoot (s.dropTaken f r) := by
  simp [State.dropTaken]

theorem State.boot_readAt {s : State} {place : ReadAt} {r : Read} (h : s.readAt place = some r) : s.SameBoot r.after := by
  unfold State.readAt at h
  split at h
  · rename_i q f
    split at h
    · rename_i p t ht
      cases h
      have g := s.boot_take (orderKey q (feCode f))
      rw [ht] at g
      exact State.SameBoot.trans g (State.boot_dropPacket _ _)
    · cases h
  · obtain ⟨q, -, rfl⟩ := Option.map_eq_some_iff.1 h
    simp
  · split at h
    · split at h
      · cases h
        simp
      · cases h
    · cases h
  · split at h
    · cases h
      simp
    · cases h
  · dsimp only at h
    split at h
    · cases h
    · cases h
      simp

@[simp] theorem State.boot_wordLost (s : State) (place : ReadAt) (staging late : Bool) (pos : Nat) : s.SameBoot (s.wordLost place staging late pos)
    := by
  unfold State.wordLost
  split
  · simp
  · rename_i r hr
    have h := State.boot_readAt hr
    split
    · simp
    · dsimp only
      repeat' split
      all_goals simp [h]

@[simp] theorem State.boot_abandonTag (s : State) (h : TagHolder) : s.SameBoot (s.abandonTag h) := by
  unfold State.abandonTag
  repeat' split
  all_goals simp

@[simp] theorem State.boot_tellStep (s : State) (k dir : Nat) : s.SameBoot (s.tellStep k dir) := by
  simp [State.tellStep]

@[simp] theorem State.boot_enterStep1 (s : State) : s.SameBoot s.enterStep1 := by
  simp [State.enterStep1]

@[simp] theorem State.boot_leaveStep1 (s : State) : s.SameBoot s.leaveStep1 := by
  simp [State.leaveStep1]

@[simp] theorem State.boot_gateUnit (s : State) (u : Nat) : s.SameBoot (s.gateUnit u) := by
  simp [State.gateUnit]

@[simp] theorem State.boot_leaveStep2 (s : State) (unitOk : List Bool) : s.SameBoot (s.leaveStep2 unitOk) := by
  simp [State.leaveStep2]

@[simp] theorem State.boot_cool (s : State) : s.SameBoot s.cool := ⟨rfl, rfl⟩

@[simp] theorem State.boot_leaveSteps (s : State) (unitOk : List Bool) : s.SameBoot (s.leaveSteps unitOk) := by
  simp [State.leaveSteps]

/-! ## Machine/Lifecycle -/

@[simp] theorem State.boot_attest (s : State) (m : Nat) (r : Request) : s.SameBoot (s.attest m r) := by
  simp [State.attest]

@[simp] theorem State.boot_serveInstalled (s : State) (k : Nat) (key : List Nat) : s.SameBoot (s.serveInstalled k key) := by
  simp [State.serveInstalled]

@[simp] theorem State.boot_mboxKeyInstall (s : State) (m : Nat) (r : Request) : s.SameBoot (s.mboxKeyInstall m r) := by
  unfold State.mboxKeyInstall
  repeat' split
  all_goals simp

@[simp] theorem State.boot_trip (s : State) (k : Nat) : s.SameBoot (s.trip k) := ⟨rfl, rfl⟩

/-! ## Machine/TimeStep -/

@[simp] theorem State.boot_stepGates (s : State) (f : Fe) (old new : Nat) : s.SameBoot (s.stepGates f old new) := by
  unfold State.stepGates
  dsimp only
  split <;> simp

@[simp] theorem State.boot_closeWindow (s : State) (sec : Nat) : s.SameBoot (s.closeWindow sec) := ⟨rfl, rfl⟩

@[simp] theorem State.boot_moveTime (s : State) (d : Int) : s.SameBoot (s.moveTime d) := ⟨rfl, rfl⟩

@[simp] theorem State.boot_rebound (s : State) (f : Fe) : s.SameBoot (s.rebound f) := by
  unfold State.rebound
  split <;> simp

@[simp] theorem State.boot_timeStep (s : State) : s.SameBoot s.timeStep := by
  unfold State.timeStep
  split <;> simp

/-! ## Machine/Wake -/

@[simp] theorem State.boot_entryOpen (s : State) (f : Fe) : s.SameBoot (s.entryOpen f) := by
  unfold State.entryOpen
  dsimp only
  repeat' split
  all_goals simp

@[simp] theorem State.boot_changeover (s : State) (f : Fe) : s.SameBoot (s.changeover f) := by
  unfold State.changeover
  dsimp only
  split <;> simp

@[simp] theorem State.boot_releaseFlow (s : State) (i : Nat) : s.SameBoot (s.releaseFlow i) := by
  unfold State.releaseFlow
  dsimp only
  repeat' split
  all_goals simp

@[simp] theorem State.boot_calendarSlot (s : State) : s.SameBoot s.calendarSlot := by
  simp [State.calendarSlot]

@[simp] theorem State.boot_farListMove (s : State) : s.SameBoot s.farListMove := by
  simp [State.farListMove]

@[simp] theorem State.boot_sample (s : State) : s.SameBoot s.sample := by
  simp [State.sample]

@[simp] theorem State.boot_expireDown (s : State) (k : Nat) (n : Nat) : s.SameBoot (s.expireDown k n) := by
  induction n generalizing s with
  | zero => exact ⟨rfl, rfl⟩
  | succ n ih =>
    unfold State.expireDown
    dsimp only
    repeat' split
    all_goals simp [ih]

@[simp] theorem State.boot_queueSample (s : State) : s.SameBoot s.queueSample := by
  simp [State.queueSample]

/-! ## Machine/Mailboxes -/

@[simp] theorem State.boot_datagram (s : State) (m : Nat) (d : Datagram) : s.SameBoot (s.datagram m d) := by
  unfold State.datagram
  repeat' split
  case h_1 t ht => simp [State.boot_grant ht]
  all_goals simp

@[simp] theorem State.boot_releaseHeld (s : State) : s.SameBoot s.releaseHeld := by
  simp [State.releaseHeld]

@[simp] theorem State.boot_m0Write (s : State) (length : Nat) (o : Octets) : s.SameBoot (s.m0Write length o) := by
  simp [State.m0Write]

@[simp] theorem State.boot_delivered (s : State) (m : Nat) (l : List (BitVec 32)) : s.SameBoot (s.delivered m l) := by
  simp [State.delivered]

@[simp] theorem State.boot_m0Read (s : State) (wholly : Bool) : s.SameBoot (s.m0Read wholly) := by
  unfold State.m0Read
  repeat' split
  all_goals simp

@[simp] theorem State.boot_sendNew (s : State) (m : Nat) : s.SameBoot (s.sendNew m) := by
  simp [State.sendNew]

@[simp] theorem State.boot_sendAgain (s : State) (m : Nat) : s.SameBoot (s.sendAgain m) := by
  simp [State.sendAgain]

@[simp] theorem State.boot_eventAck (s : State) (m : Nat) (r : Request) : s.SameBoot (s.eventAck m r) := by
  simp [State.eventAck]

@[simp] theorem State.boot_tallySnapshot (s : State) (m : Nat) (r : Request) : s.SameBoot (s.tallySnapshot m r) := by
  simp [State.tallySnapshot]

@[simp] theorem State.boot_tallyRead (s : State) (m : Nat) (r : Request) : s.SameBoot (s.tallyRead m r) := by
  unfold State.tallyRead
  split <;> simp

@[simp] theorem State.boot_qstatsRead (s : State) (m : Nat) (r : Request) : s.SameBoot (s.qstatsRead m r) := by
  simp [State.qstatsRead]

/-! ## Machine/NodeCmds -/

@[simp] theorem State.boot_nodeSearch (s : State) (m : Nat) (r : Request) : s.SameBoot (s.nodeSearch m r) := by
  unfold State.nodeSearch
  split <;> simp

@[simp] theorem State.boot_nodeNext (s : State) (m : Nat) (r : Request) : s.SameBoot (s.nodeNext m r) := by
  simp [State.nodeNext]

@[simp] theorem State.boot_nodeRemove (s : State) (m : Nat) (r : Request) : s.SameBoot (s.nodeRemove m r) := by
  unfold State.nodeRemove
  split <;> simp

@[simp] theorem State.boot_advanceEpoch (s : State) (w : Nat) : s.SameBoot (s.advanceEpoch w) := by
  simp [State.advanceEpoch]

@[simp] theorem State.boot_tableFlush (s : State) (m : Nat) (r : Request) : s.SameBoot (s.tableFlush m r) := by
  simp [State.tableFlush]

@[simp] theorem State.boot_flushEnd (s : State) (w : Nat) : s.SameBoot (s.flushEnd w) := by
  simp [State.flushEnd]

@[simp] theorem State.boot_rehashBegin (s : State) (m : Nat) (r : Request) : s.SameBoot (s.rehashBegin m r) := by
  unfold State.rehashBegin
  dsimp only
  split <;> simp

@[simp] theorem State.boot_rehashEnd (s : State) (seed : BitVec 64) : s.SameBoot (s.rehashEnd seed).2.2 := by
  unfold State.rehashEnd
  dsimp only
  split <;> simp

@[simp] theorem State.boot_linkGet (s : State) (m : Nat) (r : Request) : s.SameBoot (s.linkGet m r) := by
  unfold State.linkGet
  split <;> simp

/-! ## Machine/Update -/

@[simp] theorem State.boot_dropWorldKeys (s : State) (new : Image) : s.SameBoot (s.dropWorldKeys new) := by
  simp [State.dropWorldKeys]

@[simp] theorem State.boot_shadowGates (s : State) (keep : CanopyKeep) : s.SameBoot (s.shadowGates keep) := by
  unfold State.shadowGates
  exact foldl_boot (fun s x => by split <;> simp) _ _

@[simp] theorem State.boot_clampCentre (s : State) (f : Fe) : s.SameBoot (s.clampCentre f) := by
  simp [State.clampCentre]

@[simp] theorem State.boot_dropPins (s : State) : s.SameBoot s.dropPins := ⟨rfl, rfl⟩

@[simp] theorem State.boot_clampCredits (s : State) : s.SameBoot s.clampCredits := ⟨rfl, rfl⟩

@[simp] theorem State.boot_cfgSwitched (s : State) : s.SameBoot s.cfgSwitched := by
  unfold State.cfgSwitched
  split <;> simp

/-! ## Machine/Final -/

@[simp] theorem State.boot_outcome (s : State) (b : Busy) : s.SameBoot (s.outcome b).2.2 := by
  unfold State.outcome
  repeat' split
  all_goals simp

/-! ## Machine/KeyCmds -/

@[simp] theorem State.boot_keepKey (s : State) (i f : Nat) : s.SameBoot (s.keepKey i f) := by
  simp [State.keepKey]

@[simp] theorem State.boot_takeKey (s : State) (i usage f : Nat) (keyId : BitVec 64) (key : List Nat) : s.SameBoot (s.takeKey i usage f keyId key)
    := by
  simp [State.takeKey]

@[simp] theorem State.boot_keyLoad (s : State) (m : Nat) (r : Request) : s.SameBoot (s.keyLoad m r) := by
  unfold State.keyLoad
  dsimp only
  repeat' split
  all_goals simp

@[simp] theorem State.boot_dropKey (s : State) (i : Nat) : s.SameBoot (s.dropKey i) := ⟨rfl, rfl⟩

@[simp] theorem State.boot_keyErase (s : State) (m : Nat) (r : Request) : s.SameBoot (s.keyErase m r) := by
  unfold State.keyErase
  dsimp only
  split <;> simp

end Sys2Proof.Machine

namespace Sys2Proof.Machine

/-! # What writes life cycle or boot flash, and does so calmly -/

/-- Fuses stand; the radio does not come on; the boot flash stays in its form, and the mode in agreement with the fuses. -/
structure State.Calm (s u : State) : Prop where
  lcs : u.life.lcs = s.life.lcs
  radio : u.life.radioOn = true → s.life.radioOn = true
  flash : s.flashOk → u.flashOk
  mode : s.lcsOk → u.lcsOk

theorem State.lcsOk_congr {s u : State} (hl : u.life.lcs = s.life.lcs) (hm : u.life.mode = s.life.mode) : u.lcsOk ↔ s.lcsOk := by
  simp only [State.lcsOk, hl, hm]

theorem State.flashOk_congr {s u : State} (h : u.flash = s.flash) : u.flashOk ↔ s.flashOk := by
  simp only [State.flashOk, h]

namespace State.Calm

variable {s t u : State}

theorem refl (s : State) : s.Calm s := ⟨rfl, fun h => h, fun h => h, fun h => h⟩

theorem trans (h : s.Calm t) (g : t.Calm u) : s.Calm u :=
  ⟨g.lcs.trans h.lcs, fun r => h.radio (g.radio r), fun r => g.flash (h.flash r), fun r => g.mode (h.mode r)⟩

theorem of_modes (hl : u.life.lcs = s.life.lcs) (hm : u.life.mode = s.life.mode) (hr : u.life.radioOn = s.life.radioOn)
    (hf : s.flashOk → u.flashOk) : s.Calm u :=
  ⟨hl, fun h => hr ▸ h, hf, (State.lcsOk_congr hl hm).2⟩

theorem of_boot (h : s.SameBoot u) : s.Calm u :=
  of_modes (by rw [h.1]) (by rw [h.1]) (by rw [h.1]) (State.flashOk_congr h.2).2

theorem boot (h : s.Calm t) (g : t.SameBoot u) : s.Calm u := h.trans (of_boot g)

/-- Life cycle fields other than fuses, mode and radio. -/
theorem of_life (h : u.life.lcs = s.life.lcs ∧ u.life.mode = s.life.mode ∧ u.life.radioOn = s.life.radioOn ∧ u.flash = s.flash) : s.Calm u :=
  let ⟨hl, hm, hr, hf⟩ := h
  of_modes hl hm hr (State.flashOk_congr hf).2

/-- A mode that the fuses allow, with the radio off. -/
theorem of_lcsOk (hl : u.life.lcs = s.life.lcs) (hr : u.life.radioOn = true → s.life.radioOn = true) (hf : u.flash = s.flash) (h : u.lcsOk) :
    s.Calm u :=
  ⟨hl, hr, (State.flashOk_congr hf).2, fun _ => h⟩

/-- Boot flash written, life cycle not. -/
theorem of_flash (hl : u.life = s.life) (hf : s.flashOk → u.flashOk) : s.Calm u :=
  of_modes (by rw [hl]) (by rw [hl]) (by rw [hl]) hf

theorem foldl {β : Type} {f : State → β → State} (h : ∀ s b, State.Calm s (f s b)) (l : List β) (s : State) : s.Calm (l.foldl f s) := by
  induction l generalizing s with
  | nil => exact refl s
  | cons b l ih => exact (h s b).trans (ih _)

theorem begin {m : Nat} {r : Request} {ans result : Octets} {st : Nat} (h : s.Calm t) : s.Calm (t.begin m r ans st result) :=
  h.boot (State.boot_begin ..)

theorem respond {m : Nat} {r : Request} {st : Nat} {p : Octets} (h : s.Calm t) : s.Calm (t.respond m r st p) :=
  h.boot (State.boot_respond ..)

theorem raise {code : Nat} {w : Option Nat} {o : Octets} (h : s.Calm t) : s.Calm (t.raise code w o) :=
  h.boot (by simp)

theorem count {c : Ctr} {sc : Scope} (h : s.Calm t) : s.Calm (t.count c sc) :=
  h.boot (State.boot_count ..)

end State.Calm

/-! ## Directory and slots -/

theorem State.calm_writeDir (s : State) (f : DirRec → DirRec) : s.Calm (s.writeDir f) := by
  refine .of_flash ?_ State.flashWf_writeDir
  unfold State.writeDir
  rfl

theorem State.calm_failDir (s : State) : s.Calm s.failDir := .of_flash rfl State.flashWf_failDir

theorem State.calm_scramble (s : State) (a n : Nat) : s.Calm (s.scramble a n) := .of_flash rfl State.flashWf_scramble

@[simp] theorem State.badWrite_life (n : Nat) (s : State) (a : Nat) : (s.badWrite a n).life = s.life := by
  induction n generalizing s a with
  | zero => rfl
  | succ n ih => exact ih _ _

theorem State.calm_badWrite (s : State) (a n : Nat) : s.Calm (s.badWrite a n) := .of_flash (by simp) State.flashWf_badWrite

theorem State.writeSlot_life (s : State) (base size off : Nat) (data : Octets) (late : Bool) :
    (s.writeSlot base size off data late).2.life = s.life := by
  unfold State.writeSlot
  dsimp only
  split
  · simp only [State.badWrite_life]
    split <;> rfl
  · rfl

theorem State.calm_writeSlot (s : State) (base size off : Nat) (data : Octets) (late : Bool) :
    s.Calm (s.writeSlot base size off data late).2 :=
  .of_flash (s.writeSlot_life base size off data late) State.flashWf_writeSlot

theorem State.calm_program (s : State) (a : Nat) (o : Octets) : s.Calm { s with flash := flashProgram s.flash a o } :=
  .of_flash rfl flashWf_program

theorem State.calm_staleCfg (s : State) (i : Nat) : s.Calm (s.staleCfg i) := .of_life ⟨rfl, rfl, rfl, rfl⟩

theorem State.calm_staleFw (s : State) (i : Nat) : s.Calm (s.staleFw i) := .of_life ⟨rfl, rfl, rfl, rfl⟩

theorem State.calm_stumpAgain (s : State) (t : StumpSt) : s.Calm (s.stumpAgain t) := .of_life ⟨rfl, rfl, rfl, rfl⟩

theorem State.calm_cfgSlotWrite (s : State) (m : Nat) (r : Request) (late : Bool) : s.Calm (s.cfgSlotWrite m r late) := by
  unfold State.cfgSlotWrite
  dsimp only
  repeat' split
  · exact (State.Calm.refl s).respond
  · exact (State.Calm.refl s).respond
  · exact (State.Calm.refl s).respond
  · exact ((State.calm_writeSlot _ _ _ _ _ _).trans (State.calm_staleCfg _ _)).begin

theorem State.calm_stumpBody (s : State) (m : Nat) (r : Request) (t : StumpSt) (off : Nat) (data : Octets) :
    s.Calm (s.stumpBody m r t off data) := by
  have programmed := s.calm_program (fwSlotBase t.target + off) data
  unfold State.stumpBody
  extract_lets base u h
  split
  · exact (programmed.trans (State.calm_stumpAgain _ _)).begin
  · split
    · exact (programmed.trans (State.calm_stumpAgain _ _)).begin
    · exact State.Calm.begin (programmed.trans (.of_life ⟨rfl, rfl, rfl, rfl⟩))

theorem State.calm_stumpWrite (s : State) (m : Nat) (r : Request) (t : StumpSt) (late : Bool) : s.Calm (s.stumpWrite m r t late) := by
  have again : ∀ {u : State}, s.Calm u → s.Calm (u.stumpAgain t) := fun h => h.trans (State.calm_stumpAgain _ _)
  have stale := s.calm_staleFw (beField r.payload 0 1)
  unfold State.stumpWrite
  dsimp only
  split
  · exact (State.Calm.refl s).respond
  · split
    · exact (State.Calm.refl s).respond
    · split
      · exact (again (State.Calm.refl s)).respond
      · split
        · split
          · exact (again stale).respond
          · split
            · exact (again (stale.trans (State.calm_badWrite _ _ _))).begin
            · exact stale.trans (State.calm_stumpBody _ _ _ _ _ _)
        · split
          · exact State.Calm.begin (stale.trans (.of_life ⟨rfl, rfl, rfl, rfl⟩))
          · split
            · exact (again stale).begin
            · split
              · exact (again stale).respond
              · split
                · exact (again ((stale.trans (State.calm_scramble _ _ _)).trans (State.calm_badWrite _ _ _))).begin
                · refine State.Calm.trans ?_ (State.calm_stumpBody _ _ _ _ _ _)
                  exact stale.trans (.of_flash rfl fun h => flashWf_program (flashWf_erase h))

theorem State.calm_fwSlotWrite (s : State) (m : Nat) (r : Request) (late : Bool) : s.Calm (s.fwSlotWrite m r late) := by
  unfold State.fwSlotWrite
  split
  · exact s.calm_stumpWrite _ _ _ _
  · dsimp only
    repeat' split
    · exact (State.Calm.refl s).respond
    · exact (State.Calm.refl s).respond
    · exact (State.Calm.refl s).respond
    · exact ((State.calm_writeSlot _ _ _ _ _ _).trans (State.calm_staleFw _ _)).begin

theorem State.calm_cfgCheck (s : State) (m : Nat) (r : Request) : s.Calm (s.cfgCheck m r) := by
  unfold State.cfgCheck
  dsimp only
  split
  · exact (State.Calm.refl s).respond
  · split
    · exact (s.calm_staleCfg _).begin
    · exact State.Calm.begin (.of_life ⟨rfl, rfl, rfl, rfl⟩)

theorem State.calm_fwCheck (s : State) (m : Nat) (r : Request) : s.Calm (s.fwCheck m r) := by
  unfold State.fwCheck
  extract_lets i other c ok stump t
  split
  · exact (State.Calm.refl s).respond
  · split
    · exact (State.Calm.refl s).respond
    · exact State.Calm.begin (.of_life ⟨rfl, rfl, rfl, rfl⟩)

end Sys2Proof.Machine

namespace Sys2Proof.Machine

/-! # Restarts, errors and self-tests are calm -/

theorem State.calm_powerClear (s : State) : s.Calm s.powerClear := .of_lcsOk rfl nofun rfl trivial

/-- Held in a mode that the fuses say nothing of. -/
theorem State.calm_holdIn (s : State) {m : Mode} (h : (s.holdIn m).lcsOk) : s.Calm (s.holdIn m) := .of_lcsOk rfl nofun rfl h

theorem State.calm_restartBy (s : State) (cause : Nat) : s.Calm (s.restartBy cause) := .of_lcsOk rfl nofun rfl trivial

theorem State.calm_secError (s : State) (cause sensor : Nat) : s.Calm (s.secError cause sensor) := by
  unfold State.secError
  have h := foldl_boot (fun s f => State.boot_feOff s f) feAll s.haltCrypto
  extract_lets t u v w
  have hw : s.Calm w := by
    refine (State.Calm.of_boot ?_).boot (State.boot_openM0 _)
    simp [v, u, t, h.1, h.2]
  exact hw.trans (.of_lcsOk rfl nofun rfl trivial)

theorem State.calm_zeroise (s : State) (c : ZeroCause) : s.Calm (s.zeroise c) := by
  have held : s.Calm (s.holdIn .zeroising) := s.calm_holdIn trivial
  have wiped := held.boot (State.boot_lineWrite _ 0x2000)
  unfold State.zeroise
  extract_lets k t
  exact wiped.trans (.of_life ⟨rfl, rfl, rfl, rfl⟩)

theorem State.calm_pufTest (s : State) (l : List Nat) : s.Calm (s.pufTest l) := by
  unfold State.pufTest
  dsimp only
  split
  · refine State.Calm.raise (State.Calm.count (.of_life ⟨rfl, rfl, rfl, rfl⟩))
  · exact .refl s

theorem State.calm_allTests (s : State) (r : TestEnv) : s.Calm (s.allTests r).2 := by
  unfold State.allTests
  split
  · exact .refl s
  · exact (s.calm_pufTest _).boot (State.boot_tests2to9 _ _)

theorem State.calm_coldTests (s : State) (r : TestEnv) : s.Calm (s.coldTests r).2 := by
  unfold State.coldTests
  extract_lets _ t q _ _ _ u
  have registered : s.Calm t := .of_boot ⟨rfl, rfl⟩
  have tested : s.Calm q.2 := registered.trans (t.calm_allTests r)
  split
  · exact tested.trans (.of_boot ⟨rfl, rfl⟩)
  · have drawn : s.Calm u := (tested.boot (State.boot_deriveStart _)).boot (State.boot_draw _)
    clear_value u
    exact drawn.trans (.of_life ⟨rfl, rfl, rfl, rfl⟩)

theorem State.calm_selftestRun (s : State) (m : Nat) (r : Request) (e : TestEnv) : s.Calm (s.selftestRun m r e) := by
  have tested := s.calm_allTests e
  unfold State.selftestRun
  extract_lets q unit
  split
  · exact tested.respond.trans (State.calm_secError _ _ _)
  · exact tested.begin

theorem State.calm_periodicTest (s : State) (e : TestEnv) : s.Calm (s.periodicTest e) := by
  unfold State.periodicTest
  split
  · exact .refl s
  · extract_lets _ t
    have tested : s.Calm t := .of_boot (by simp [t])
    split
    · exact tested.trans (State.calm_secError _ _ _)
    · split
      · exact tested.trans (State.calm_secError _ _ _)
      · exact tested

theorem State.calm_reseed (s : State) (first second : Bool) : s.Calm (s.reseed first second) := by
  unfold State.reseed
  split
  · exact .refl s
  · extract_lets c
    have collected : s.Calm c.2 := .of_boot (State.boot_collect _ _ _)
    split
    · exact collected.boot ⟨rfl, rfl⟩
    · exact collected.trans (State.calm_secError _ _ _)

/-! ## Cipher jobs and units -/

theorem State.calm_slotFault (s : State) (w : Word) (i : Nat) : s.Calm (s.slotFault w i) := by
  unfold State.slotFault
  extract_lets world l t _ u
  have marked : s.Calm u := .of_boot (by simp [u, t])
  split
  · exact marked.trans (State.calm_secError _ _ _)
  · exact marked

/-- `jobClean` must stay opaque: the kernel would evaluate its `2 ^ 64`. -/
theorem State.calm_postJob (s : State) (job : Word) (input : Octets) (parityOk : Bool) : s.Calm (s.postJob job input parityOk) := by
  have body : ∀ f, f = @State.postJob → s.Calm (f s job input parityOk) := by
    intro f hf
    delta State.postJob at hf
    subst hf
    beta_reduce
    extract_lets w n t refused
    have put : s.Calm t := .of_boot (by simp [t])
    clear_value t w
    have hrefused : s.Calm (refused t) := put.boot (by unfold refused; split <;> simp)
    split
    · exact hrefused
    · split
      · exact put.trans (State.calm_slotFault _ _ _)
      · split
        · exact hrefused
        · split
          · exact put.boot (by simp)
          · exact put.boot (by simp)
  exact body _ rfl

theorem State.calm_jobFault (s : State) (u : Nat) (j : CJob) : s.Calm (s.jobFault u j) := by
  unfold State.jobFault
  extract_lets t _ v w _
  have out : s.Calm v := .of_boot (by simp [v, t])
  split
  · exact (out.boot (by simp)).trans (State.calm_secError _ _ _)
  · split
    · exact out.boot (by simp)
    · split
      · exact out.boot (by simp)
      · exact out.boot (by simp [w])

theorem State.calm_endJob (s : State) (u : Nat) (fault : Bool) : s.Calm (s.endJob u fault) := by
  unfold State.endJob
  split
  · exact .refl s
  · split
    · exact s.calm_jobFault _ _
    · exact .of_boot (by simp)

theorem State.calm_cipherFault (s : State) (u : Nat) : s.Calm (s.cipherFault u) := by
  unfold State.cipherFault
  split
  · exact s.calm_jobFault _ _
  · have out : s.Calm (s.mapOutUnit u) := .of_boot (by simp)
    dsimp only
    split
    · exact out.trans (State.calm_secError _ _ _)
    · exact out

@[simp] theorem State.boot_isl (s : State) (x : IslandSt) : s.SameBoot { s with isl := x } := ⟨rfl, rfl⟩

/-! ## Faults of islands, units and holders -/

theorem State.lcs_of_operating {s : State} (h : s.operating = true) (hok : s.lcsOk) : s.life.lcs = .operate := by
  have hm : s.life.mode = .operate := by simpa [State.operating] using h
  simpa only [State.lcsOk, hm] using hok

/-- DRAM lost: without an image, radio off, nothing else of the life cycle changed. -/
theorem State.dramLost_fields {s : State} (h : s.operating = true) : s.dramLost.flash = s.flash ∧ s.dramLost.life =
    { s.life with
      mode := .noConfig, image := none, cfgSlot := none, cfgTrial := false, radioOn := false, pause := none, retirePrep := none,
      dramFailed := true } := by
  have off := foldl_boot (f := fun s f => (s.macOff f).feOff f) (fun s f => by simp) feAll s.closeBuffer
  simp [State.dramLost, h, off.1, off.2]

theorem State.calm_dramLost (s : State) : s.Calm s.dramLost := by
  cases h : s.operating with
  | false =>
    unfold State.dramLost
    simp only [h, Bool.not_false, if_true]
    exact .refl s
  | true =>
    obtain ⟨hflash, hlife⟩ := State.dramLost_fields h
    refine ⟨by rw [hlife], by simp [hlife], (State.flashOk_congr hflash).2, fun hok => ?_⟩
    have hlcs := State.lcs_of_operating h hok
    simpa [State.lcsOk, hlife] using hlcs

theorem State.calm_mcoreFault (s : State) (i cause : Nat) : s.Calm (s.mcoreFault i cause) := by
  unfold State.mcoreFault
  extract_lets _ t
  have out : s.Calm t := .of_boot ⟨rfl, rfl⟩
  split
  · exact out.trans (State.calm_restartBy _ _)
  · exact out.boot (by simp)

theorem State.calm_islandUnits (s : State) (i : Island) (cause : Nat) : s.Calm (s.islandUnits i cause) := by
  cases i with
  | sec =>
    refine .foldl (fun s u => ?_) _ s
    split
    · exact .refl s
    · exact s.calm_cipherFault u
  | cpu => exact State.Calm.trans (.of_boot ⟨rfl, rfl⟩) (State.calm_restartBy _ _)
  | ldpc =>
    refine .foldl (fun s u => ?_) _ s
    split
    · exact .refl s
    · exact .of_boot (by simp)
  | ddr => exact s.calm_dramLost
  | lanesA | lanesB | feSa | feSb | feH | eth => exact .of_boot (by simp [State.islandUnits])
  | aon | core | canopy | table | queue | heartwood => exact .refl s

theorem State.calm_islandFault (s : State) (i : Island) (cause : Nat) : s.Calm (s.islandFault i cause) := by
  unfold State.islandFault
  split
  · exact .refl s
  · extract_lets _
    exact (State.Calm.of_boot (s.boot_isl _)).trans (State.calm_islandUnits _ _ _)

theorem State.calm_copyFault (s : State) (i : Island) : s.Calm (s.copyFault i) := by
  unfold State.copyFault
  extract_lets recent _ t
  have told : s.Calm t := .of_boot (by simp [t])
  split
  · exact told.trans (State.calm_islandFault _ _ _)
  · exact told

theorem State.calm_unitFault (s : State) (u : FaultUnit) : s.Calm (s.unitFault u) := by
  cases u with
  | cipher c =>
    dsimp only [State.unitFault]
    split
    · exact .refl s
    · exact s.calm_cipherFault _
  | mcore c =>
    dsimp only [State.unitFault]
    split
    · exact .refl s
    · exact s.calm_mcoreFault _ _
  | islandTime i =>
    dsimp only [State.unitFault]
    split
    · exact .refl s
    · exact .refl s
    · split
      · exact s.calm_copyFault i
      · exact .refl s
  | _ => exact .of_boot (by simp [State.unitFault])

theorem State.calm_holderFault (s : State) (h : TagHolder) : s.Calm (s.holderFault h) := by
  cases h with
  | mcore i =>
    dsimp only [State.holderFault]
    split
    · exact .refl s
    · exact s.calm_mcoreFault _ _
  | lane | tx | portRx => exact .of_boot (by simp [State.holderFault])
  | sawmill | prpTx | m0 | sweep | walker | audit => exact .refl s

theorem State.calm_reclaimTag (s : State) (h : TagHolder) : s.Calm (s.reclaimTag h) := by
  unfold State.reclaimTag
  extract_lets recent _ t u
  have told : s.Calm u := .of_boot (by simp [u, t])
  split
  · exact (told.boot (State.boot_breach _ _ _)).trans (State.calm_holderFault _ _)
  · exact told

/-! ## Temperature -/

theorem State.calm_enterStep2 (s : State) : s.Calm s.enterStep2 := by
  unfold State.enterStep2
  extract_lets ds us _ t u v
  have gated : s.Calm v := .of_boot (by simp [v, u, t])
  split
  · exact gated.trans (State.calm_secError _ _ _)
  · exact gated

theorem State.calm_enterStep4 (s : State) : s.Calm s.enterStep4 := by
  have held : s.Calm (s.powerSequence.holdIn .thermalHold) :=
    (State.Calm.of_boot s.boot_powerSequence).trans (State.calm_holdIn _ trivial)
  unfold State.enterStep4
  extract_lets t
  exact held.trans (.of_life ⟨rfl, rfl, rfl, rfl⟩)

theorem State.calm_enterStep (s : State) (k : Nat) : s.Calm (s.enterStep k) := by
  unfold State.enterStep
  extract_lets _ t u
  have told : s.Calm u := .of_boot (by simp [u, t])
  split
  · exact told.boot (State.boot_enterStep1 _)
  · exact told.trans (State.calm_enterStep2 _)
  · exact told
  · exact told.trans (State.calm_enterStep4 _)

theorem State.calm_enterSteps (s : State) : s.Calm s.enterSteps := by
  refine .foldl (fun s k => ?_) _ s
  split
  · exact s.calm_enterStep k
  · exact .refl s

end Sys2Proof.Machine

namespace Sys2Proof.Machine

/-! # The start is calm -/

theorem State.calm_enterStump (s : State) (target : Nat) : s.Calm (s.enterStump target) := by
  have entered : s.Calm { s with
      life := { s.life with mode := .stump, approved := false, stump := some { target := target } }, pins := { s.pins with m0Busy := false } } :=
    .of_lcsOk rfl (fun h => h) rfl trivial
  exact entered.boot (by simp [State.enterStump])

theorem State.calm_raiseHeld (s : State) : s.Calm s.raiseHeld := by
  unfold State.raiseHeld
  extract_lets s₁ t _ s₂ s₃ _ s₄ _ s₅ _ s₆ _ s₇
  have h₁ : s.SameBoot s₁ := by unfold s₁; split <;> simp
  have h₂ : s₁.Calm s₂ := by
    unfold s₂
    split
    · exact .refl s₁
    · exact (State.Calm.refl s₁).raise.trans (.of_life ⟨rfl, rfl, rfl, rfl⟩)
  have h₃ : s₂.SameBoot s₃ := foldl_boot (fun s t => by split <;> simp) _ _
  have h₅ : s₄.SameBoot s₅ := by unfold s₅; split <;> simp
  have h₇ : s₅.SameBoot s₇ := by simp [s₇, s₆, apply_ite State.life, apply_ite State.flash]
  clear_value s₁ s₂ s₃
  have h₄ : s.Calm s₄ := (((State.Calm.of_boot h₁).trans h₂).boot h₃).trans (.of_boot ⟨rfl, rfl⟩)
  exact ((h₄.boot h₅).boot h₇).boot (by split <;> simp)

theorem State.calm_raisePowerLost (s : State) (sup : Option Super) : s.Calm (s.raisePowerLost sup) := by
  refine .of_life ?_
  unfold State.raisePowerLost
  dsimp only
  split
  · simp
  · simp

theorem State.boot_homeAll (s : State) : s.SameBoot s.homeAll := by simp

theorem State.calm_openHw (s : State) : s.Calm s.openHw := by
  unfold State.openHw
  extract_lets sup _ s₁ s₂ s₃ s₄ _ s₅
  have opened : s.Calm s₁ := by
    refine State.Calm.boot ?_ (State.boot_homeAll _)
    exact .of_life ⟨rfl, rfl, rfl, rfl⟩
  have h₂ : s₁.SameBoot s₂ := by unfold s₂; split <;> simp
  have h₄ : s₂.SameBoot s₄ := by
    unfold s₄
    repeat' split
    all_goals simp [s₃]
  have h₅ : s.Calm s₅ := ((opened.boot h₂).boot h₄).trans (.of_boot ⟨rfl, rfl⟩)
  exact ((h₅.boot (State.boot_writeSuper _ _)).trans (State.calm_raisePowerLost _ _)).trans (State.calm_raiseHeld _)

theorem State.calm_consumeFw (s : State) : s.Calm s.consumeFw := by
  unfold State.consumeFw
  split
  · split
    · exact (s.calm_writeDir _).count.raise
    · exact .refl s
  · exact .refl s

theorem State.calm_consumeCfg (s : State) : s.Calm s.consumeCfg := by
  unfold State.consumeCfg
  split
  · split
    · exact (s.calm_writeDir _).count.raise
    · exact .refl s
  · exact .refl s

/-- An image is taken by a part in OPERATE. -/
theorem State.calm_takeImage {s : State} (h : s.life.lcs = .operate) (slot : Nat) (i : Image) (trial : Bool) :
    s.Calm (s.takeImage slot i trial) := by
  refine .of_lcsOk ?_ ?_ ?_ ?_
  all_goals simp [State.takeImage, State.lcsOk, h]

theorem State.calm_bare {s : State} (h : s.life.lcs = .operate) : s.Calm s.bare := by
  refine .of_lcsOk ?_ ?_ ?_ ?_
  all_goals simp [State.bare, State.lcsOk, h]

theorem State.calm_upRadio {s : State} (h : s.life.lcs = .operate) (e : StartEnv) (same clean : Bool) (keep : Option CanopyKeep) :
    s.Calm (s.upRadio e same clean keep) := by
  unfold State.upRadio
  split
  · have failed : s.Calm { s with life := { s.life with dramFailed := true } } := .of_life ⟨rfl, rfl, rfl, rfl⟩
    exact (failed.trans (State.calm_bare h)).boot (State.boot_raiseTraining _)
  · exact .of_boot (by simp)

theorem State.boot_tryCfg (s : State) (first : Nat) : s.SameBoot (s.tryCfg first).2 := by
  unfold State.tryCfg
  dsimp only
  repeat' split
  all_goals simp

theorem State.calm_startOperate {s : State} (h : s.life.lcs = .operate) (e : StartEnv) (clean : Bool) : s.Calm (s.startOperate e clean) := by
  unfold State.startOperate
  extract_lets d first r _ _ t₁ t₂ trial keep
  have tried : s.Calm t₁ := (State.Calm.of_boot (s.boot_tryCfg first)).trans (.of_life ⟨rfl, rfl, rfl, rfl⟩)
  have named : s.Calm t₂ := by
    unfold t₂
    split
    · exact tried.trans (State.calm_writeDir _ _)
    · exact tried
  split
  · have used := named.trans (State.calm_consumeFw t₂)
    exact used.trans (State.calm_bare (used.lcs.trans h))
  · rename_i slot img hr
    extract_lets same t₃ t₄
    have taken : s.Calm t₃ := (named.trans (State.calm_takeImage (named.lcs.trans h) _ _ _)).boot (State.boot_applyRecords _ _)
    have raised : s.Calm t₄ := taken.boot (by unfold t₄; split <;> simp)
    have used : s.Calm t₄.consumeFw.consumeCfg.bringUp :=
      ((raised.trans (State.calm_consumeFw _)).trans (State.calm_consumeCfg _)).boot (State.boot_bringUp _)
    exact used.trans (State.calm_upRadio (used.lcs.trans h) _ _ _ _)

theorem State.calm_runFw (s : State) (i : Nat) : s.Calm (s.runFw i) := .of_life ⟨rfl, rfl, rfl, rfl⟩

theorem State.calm_startRun {s : State} (h : s.life.lcs ≠ .retired) (e : StartEnv) (slot : Nat) (fallback dirBad : Bool) :
    s.Calm (s.startRun e slot fallback dirBad) := by
  unfold State.startRun
  extract_lets d s₁ _ s₂ clean s₃ s₄ s₅ s₆ s₇ _ _ s₈
  have running : s.Calm s₂ := (s.calm_runFw slot).trans (.of_life ⟨rfl, rfl, rfl, rfl⟩)
  have opened : s.Calm s₃ := running.trans (State.calm_openHw _)
  have told : s.Calm s₆ := by
    refine opened.boot ?_
    unfold s₆ s₅ s₄
    repeat' split
    all_goals simp
  have checked : s.Calm s₇ := told.boot (by unfold s₇; split <;> simp)
  clear_value s₆ s₇
  split
  · rename_i hl
    exact told.trans (State.calm_startOperate hl _ _)
  · rename_i hl
    have hprov : s.life.lcs = .provision := by
      cases hs : s.life.lcs with
      | provision => rfl
      | operate => exact (hl (told.lcs.trans hs)).elim
      | retired => exact (h hs).elim
    have waits : s.Calm s₈ :=
      checked.trans (.of_lcsOk rfl (fun h => h) rfl (show s₈.lcsOk from checked.lcs.trans hprov))
    exact ((waits.boot (State.boot_openMbox _ _ _ _ _)).boot (State.boot_releaseEarly _)).trans (State.calm_consumeFw _)

theorem State.calm_startFlash {s : State} (h : s.life.lcs ≠ .retired) (e : StartEnv) : s.Calm (s.startFlash e) := by
  unfold State.startFlash
  dsimp only
  repeat' split
  · exact State.calm_startRun h _ _ _ _
  · exact State.calm_startRun h _ _ _ _
  · exact s.calm_enterStump _

theorem State.calm_startCold {s : State} (h : s.life.lcs ≠ .retired) (e : StartEnv) : s.Calm (s.startCold e) := by
  have tested := s.calm_coldTests e.tests
  unfold State.startCold
  extract_lets q
  split
  · have free : q.2.SameBoot { q.2 with pins := { q.2.pins with m0Busy := false } } := ⟨rfl, rfl⟩
    exact (tested.boot free).trans (State.calm_secError _ _ _)
  · split
    · exact tested.trans (State.calm_enterStump _ _)
    · exact tested.trans (State.calm_startFlash (by rw [tested.lcs]; exact h) e)

theorem State.calm_startPins (s : State) (e : StartEnv) : s.Calm (s.startPins e) := by
  unfold State.startPins
  split
  · exact s.calm_zeroise _
  · split
    · rename_i h
      exact .of_lcsOk (by simp) (by simp) (by simp) (by simp [State.lcsOk, h])
    · split
      · exact .of_lcsOk rfl (fun h => h) rfl trivial
      · rename_i h _
        exact State.calm_startCold h e

theorem State.calm_start (s : State) (e : StartEnv) : s.Calm (s.start e) := by
  unfold State.start
  split
  · exact s.calm_holdIn trivial
  · split
    · exact s.calm_holdIn trivial
    · extract_lets t _ u
      have cleared : s.Calm u := s.calm_powerClear.boot (by simp [u, t])
      clear_value u
      refine State.Calm.trans ?_ (State.calm_startPins _ e)
      exact cleared.trans (.of_life ⟨rfl, rfl, rfl, rfl⟩)

end Sys2Proof.Machine

namespace Sys2Proof.Machine

/-! # Commands and pins are calm -/

theorem State.calm_cfgKeyInstall (s : State) (m : Nat) (r : Request) : s.Calm (s.cfgKeyInstall m r) := by
  unfold State.cfgKeyInstall
  split
  · exact (State.Calm.refl s).respond
  · split
    · exact (State.Calm.refl s).count.respond
    · rename_i k _
      extract_lets id _ _ t
      have installed : s.Calm t := .of_life ⟨rfl, rfl, rfl, rfl⟩
      exact (installed.boot (State.boot_deriveCfg _ _ _)).begin

theorem State.calm_zeroiseAll (s : State) (m : Nat) (r : Request) : s.Calm (s.zeroiseAll m r) := by
  unfold State.zeroiseAll
  extract_lets t
  have ended : s.SameBoot t := foldl_boot (fun s k => by split <;> simp) _ s
  exact ((State.Calm.of_boot ended).respond.boot (State.boot_sendLast _)).trans (State.calm_zeroise _ _)

theorem State.calm_restartCmd (s : State) (m : Nat) (r : Request) : s.Calm (s.restartCmd m r) := by
  unfold State.restartCmd
  extract_lets t u
  have answered : s.Calm t := (State.Calm.refl s).respond.boot (State.boot_sendLast _)
  have named : t.Calm u := by
    unfold u
    repeat' split
    · exact t.calm_writeDir _
    · exact .refl t
    · exact .refl t
  exact (answered.trans named).trans (State.calm_restartBy _ _)

theorem State.calm_zeroiseLow (s : State) : s.Calm s.zeroiseLow := by
  unfold State.zeroiseLow
  extract_lets _ t
  have fell : s.Calm t := .of_boot ⟨rfl, rfl⟩
  split
  · exact fell.trans (.of_boot ⟨rfl, rfl⟩)
  · exact fell
  · exact fell
  · exact fell.trans (State.calm_zeroise _ _)

theorem State.calm_tripA (s : State) (k : Nat) : s.Calm (s.tripA k) := by
  have tripped : s.Calm (s.trip k) := .of_boot (State.boot_trip _ _)
  unfold State.tripA
  split
  · exact .refl s
  · exact tripped.trans (.of_boot ⟨rfl, rfl⟩)
  · exact tripped.trans (.of_boot ⟨rfl, rfl⟩)
  · exact tripped.trans (State.calm_zeroise _ _)

theorem State.calm_tripB (s : State) (k : Nat) (e : StartEnv) : s.Calm (s.tripB k e) := by
  have tripped : s.Calm (s.trip k) := .of_boot (State.boot_trip _ _)
  have noted : ∀ l, s.Calm { s.trip k with crypto := { (s.trip k).crypto with tamperB := l } } :=
    fun _ => tripped.trans (.of_boot ⟨rfl, rfl⟩)
  unfold State.tripB
  split
  · exact .refl s
  iterate 5 · exact tripped
  · split
    · exact .refl s
    · exact tripped
  · extract_lets l t
    split
    · exact (noted []).trans (State.calm_secError _ _ _)
    · exact ((noted l).trans (State.calm_restartBy _ _)).trans (State.calm_start _ _)

theorem State.calm_jtag (s : State) (i : JtagInstr) : s.Calm (s.jtag i) := by
  unfold State.jtag
  extract_lets _ t _ u
  have read : s.Calm t := .of_life ⟨rfl, rfl, rfl, rfl⟩
  split
  · exact read
  · clear_value t
    split
    iterate 5 · exact read
    · exact read.trans (.of_life ⟨rfl, rfl, rfl, rfl⟩)
    · exact read.trans (.of_life ⟨rfl, rfl, rfl, rfl⟩)
    · have driven : s.Calm { t with life := { t.life with jtagDrives := true } } := read.trans (.of_life ⟨rfl, rfl, rfl, rfl⟩)
      have held : s.Calm u := driven.trans (State.calm_holdIn _ trivial)
      exact held.trans (.of_life ⟨rfl, rfl, rfl, rfl⟩)

theorem State.calm_testLogicReset (s : State) (e : StartEnv) : s.Calm (s.testLogicReset e) := by
  unfold State.testLogicReset
  extract_lets _ t
  have freed : s.Calm t := .of_life ⟨rfl, rfl, rfl, rfl⟩
  split
  · exact freed.trans (State.calm_start _ _)
  · exact freed

theorem State.calm_powerFail (s : State) (cause : FailCause) (holdUp supplyLost : Bool) : s.Calm (s.powerFail cause holdUp supplyLost) := by
  unfold State.powerFail
  extract_lets _ t rest
  have fell : s.Calm t := .of_boot (by unfold t; split <;> exact ⟨rfl, rfl⟩)
  have down : s.Calm (t.holdIn .unpowered) := fell.trans (State.calm_holdIn _ trivial)
  have lost : s.Calm (if supplyLost then t.holdIn .unpowered else t) := by
    split
    · exact down
    · exact fell
  clear_value t
  have rests : ∀ u m, s.Calm u → (u.holdIn m).lcsOk → s.Calm (rest u m) := fun u m h hm => by
    unfold rest
    split
    · exact h.trans (State.calm_holdIn _ trivial)
    · exact h.trans (State.calm_holdIn _ hm)
  split
  · exact fell
  iterate 7 · exact lost
  · repeat' split
    · exact fell
    · exact rests _ _ fell trivial
    · exact rests _ _ (fell.boot (State.boot_powerSequence _)) trivial
    · exact rests _ _ fell trivial

theorem State.calm_pfiHigh (s : State) (e : StartEnv) : s.Calm (s.pfiHigh e) := by
  unfold State.pfiHigh
  extract_lets _ t
  have rose : s.Calm t := .of_boot ⟨rfl, rfl⟩
  split
  · exact rose.trans (State.calm_start _ _)
  · exact rose.trans (State.calm_start _ _)
  · exact rose

theorem State.calm_aonReset (s : State) : s.Calm s.aonReset := by
  have held : s.Calm (s.holdIn .unpowered) := s.calm_holdIn trivial
  exact held.trans (.of_life ⟨rfl, rfl, rfl, rfl⟩)

theorem State.calm_resetFall (s : State) : s.Calm s.resetFall := by
  unfold State.resetFall
  extract_lets _ t
  have fell : s.Calm t := .of_boot ⟨rfl, rfl⟩
  split
  iterate 6 exact fell
  exact fell.trans (State.calm_holdIn _ trivial)

theorem State.calm_thermal (s : State) (tj : Int) (e : StartEnv) : s.Calm (s.thermal tj e) := by
  unfold State.thermal
  extract_lets _ t u v w
  have measured : s.Calm t := .of_boot ⟨rfl, rfl⟩
  have cooled : s.Calm u := measured.boot (State.boot_cool _)
  have entered : s.Calm w := measured.trans (State.calm_enterSteps _)
  have stepped : s.Calm (if w.life.mode == .thermalHold then w else w.cool.leaveSteps e.tests.unitOk) := by
    split
    · exact entered
    · exact entered.boot (by simp)
  have started : s.Calm v := (cooled.boot (State.boot_countKept _ _ _)).trans (State.calm_start _ _)
  split
  · split
    · exact started.raise
    · exact cooled
  iterate 6 · exact stepped
  · exact measured

/-! ## Activations -/

theorem State.calm_pauseIn (s : State) (n : Nat) : s.Calm (s.pauseIn n) := by
  have paused : s.Calm { s with life := { s.life with pause := some (s.clk + n) } } := .of_life ⟨rfl, rfl, rfl, rfl⟩
  exact paused.boot (foldl_boot (fun s f => by simp) _ _)

theorem State.calm_applyHitless (s : State) (slot : Nat) (new : Image) : s.Calm (s.applyHitless slot new) := by
  unfold State.applyHitless
  extract_lets s₁ keep s₂ _ _ s₃ s₄ s₅ s₆ s₇ s₈ s₉
  have swept : s.Calm s₂ := .of_boot (by simp [s₂, s₁])
  have taken : s.Calm s₃ := by
    refine swept.trans (State.Calm.boot ?_ (State.boot_countSkipped _ _))
    exact .of_life ⟨rfl, rfl, rfl, rfl⟩
  have h₆ : s₃.SameBoot s₆ := by simp [s₆, s₅, s₄]
  have h₈ : s₆.SameBoot s₈ := State.SameBoot.trans (t := s₇) (foldl_boot (fun s f => by simp) _ _) (State.boot_restoreGroups _ _)
  have h₉ : s₈.SameBoot s₉ := foldl_boot (fun s p => by simp) _ _
  exact (((taken.boot h₆).boot h₈).boot h₉).boot (by simp)

theorem State.calm_fwSwitched (s : State) (i start : Nat) : s.Calm (s.fwSwitched i start) := by
  unfold State.fwSwitched
  extract_lets t _ u
  have running : s.Calm u := (s.calm_runFw i).trans (.of_life ⟨rfl, rfl, rfl, rfl⟩)
  exact running.count.raise

theorem State.calm_fwActivate (s : State) (m : Nat) (r : Request) (late : Bool) (prep : Nat) : s.Calm (s.fwActivate m r late prep) := by
  unfold State.fwActivate
  extract_lets i h hitless mode c t
  split
  · exact (State.Calm.refl s).respond
  · split
    · exact (State.Calm.refl s).respond
    · split
      · exact (State.Calm.refl s).begin
      · split
        · exact s.calm_failDir.begin
        · have named : s.Calm t := s.calm_writeDir _
          split
          · exact named.begin.trans (State.calm_pauseIn _ _)
          · exact (named.boot (by simp)).trans (State.calm_restartBy _ _)

theorem State.calm_cfgActivate (s : State) (m : Nat) (r : Request) (late : Bool) : s.Calm (s.cfgActivate m r late) := by
  unfold State.cfgActivate
  extract_lets i t
  split
  · exact (State.Calm.refl s).respond
  · split
    · exact (State.Calm.refl s).respond
    · split
      · exact (State.Calm.refl s).respond
      · split
        · exact (State.Calm.refl s).begin
        · extract_lets hitless mode u
          split
          · exact s.calm_failDir.begin
          · have named : s.Calm t := s.calm_writeDir _
            split
            · exact (named.begin.trans (State.calm_pauseIn _ _)).trans (State.calm_applyHitless _ _ _)
            · have answered : s.Calm u := named.boot (by simp [u])
              exact answered.raise.trans (State.calm_restartBy _ _)

theorem State.calm_cfgConfirm (s : State) (m : Nat) (r : Request) (late : Bool) : s.Calm (s.cfgConfirm m r late) := by
  unfold State.cfgConfirm
  split
  · split
    · exact (State.Calm.refl s).respond
    · split
      · exact s.calm_failDir.begin
      · extract_lets t _
        have named : s.Calm t := s.calm_writeDir _
        clear_value t
        have confirmed : s.Calm { t with life := { t.life with cfgTrial := false } } := named.trans (.of_life ⟨rfl, rfl, rfl, rfl⟩)
        exact (confirmed.boot (State.boot_raiseFloor _)).begin
  · exact (State.Calm.refl s).respond

theorem State.calm_fwConfirm (s : State) (m : Nat) (r : Request) (late : Bool) : s.Calm (s.fwConfirm m r late) := by
  unfold State.fwConfirm
  split
  · split
    · exact (State.Calm.refl s).respond
    · split
      · exact s.calm_failDir.begin
      · extract_lets t _
        have named : s.Calm t := s.calm_writeDir _
        clear_value t
        have confirmed : s.Calm { t with life := { t.life with fwTrial := false } } := named.trans (.of_life ⟨rfl, rfl, rfl, rfl⟩)
        exact (confirmed.boot (State.boot_raiseRollback _)).begin
  · exact (State.Calm.refl s).respond

theorem State.calm_resume (s : State) : s.Calm s.resume := by
  have resumed : s.Calm { s with life := { s.life with pause := none } } := .of_life ⟨rfl, rfl, rfl, rfl⟩
  exact resumed.boot (by simp [State.resume])

theorem State.calm_endActivation (s : State) (m : Nat) (b : Busy) (start : Nat) (handOffOk : Bool) :
    s.Calm (s.endActivation m b start handOffOk) := by
  unfold State.endActivation
  extract_lets _ t
  have ended : s.Calm t := .of_life ⟨rfl, rfl, rfl, rfl⟩
  split
  · split
    · exact ((ended.trans (State.calm_fwSwitched _ _ _)).boot (State.boot_finish ..)).trans (State.calm_resume _)
    · exact ended.trans (State.calm_restartBy _ _)
  · exact ((ended.boot (State.boot_cfgSwitched _)).boot (State.boot_finish ..)).trans (State.calm_resume _)

theorem State.calm_finalResponse (s : State) (m : Nat) (handOffOk : Bool) : s.Calm (s.finalResponse m handOffOk) := by
  unfold State.finalResponse
  split
  · exact .refl s
  · extract_lets _ ends
    have hends : s.Calm (ends ()) := by
      unfold ends
      split
      · exact .refl s
      · exact State.Calm.boot (.of_boot (State.boot_outcome _ _)) (State.boot_finish ..)
    repeat' split
    · exact s.calm_endActivation _ _ _ _
    · exact .refl s
    · exact .refl s
    · exact hends
    · exact hends

theorem State.calm_endApproved (s : State) : s.Calm s.endApproved := .of_life ⟨rfl, rfl, rfl, rfl⟩

theorem State.calm_ctxSave (s : State) (m : Nat) (r : Request) : s.Calm (s.ctxSave m r) := by
  unfold State.ctxSave
  extract_lets form
  split
  · exact (State.Calm.refl s).respond
  · split
    · exact (State.Calm.refl s).respond
    · repeat' split
      · exact (State.Calm.refl s).count.respond
      · exact (State.Calm.refl s).respond
      · exact s.calm_endApproved.respond

theorem State.calm_ctxRestore (s : State) (m : Nat) (r : Request) : s.Calm (s.ctxRestore m r) := by
  unfold State.ctxRestore
  extract_lets form t _
  have left : s.Calm t := by
    unfold t
    split
    · exact s.calm_endApproved
    · exact .refl s
  clear_value t
  generalize (if form = 0 then 58 else 50) = len
  split
  · exact (State.Calm.refl s).respond
  · split
    · exact (State.Calm.refl s).respond
    · split
      · exact (State.Calm.refl s).respond
      · split
        · exact (State.Calm.refl s).count.respond
        · dsimp only
          split
          · exact (State.Calm.refl s).count.respond
          · split
            · exact (State.Calm.refl s).count.respond
            · exact State.Calm.respond (left.trans (.of_boot ⟨rfl, rfl⟩))

end Sys2Proof.Machine

namespace Sys2Proof.Machine

/-! # Commands of the host, and the ends that change the fuses -/

/-- A command of the host answers at once or acts, on a state whose life cycle and boot flash stand. -/
theorem State.hostCmd_cases (s : State) (m op : Nat) (act : State → Request → State) :
    s.SameBoot (s.hostCmd m op act) ∨ ∃ t r, s.SameBoot t ∧ s.hostCmd m op act = act t r := by
  unfold State.hostCmd
  split
  · exact .inl ⟨rfl, rfl⟩
  · rename_i r t ht
    have released := State.boot_nextRequest ht
    repeat' split
    · exact .inl ⟨rfl, rfl⟩
    · exact .inl (by simp [released])
    · exact .inl (by simp [released])
    · exact .inl (by simp [released])
    · exact .inr ⟨t, r, released, rfl⟩

theorem State.shortCmd_cases (s : State) (m op len : Nat) (act : State → Request → State) :
    s.SameBoot (s.shortCmd m op len act) ∨ ∃ t r, s.SameBoot t ∧ s.shortCmd m op len act = act t r := by
  unfold State.shortCmd
  obtain h | ⟨t, r, ht, h⟩ := s.hostCmd_cases m op fun s r => if r.payload.length ≠ len then s.respond m r sMalformed [] else act s r
  · exact .inl h
  · rw [h]
    split
    · exact .inl (by simp [ht])
    · exact .inr ⟨t, r, ht, rfl⟩

@[simp] theorem State.boot_hostCmd (s : State) (m op : Nat) {act : State → Request → State} (h : ∀ t r, State.SameBoot t (act t r)) :
    s.SameBoot (s.hostCmd m op act) := by
  obtain g | ⟨t, r, ht, g⟩ := s.hostCmd_cases m op act
  · exact g
  · rw [g]
    exact ht.trans (h t r)

@[simp] theorem State.boot_shortCmd (s : State) (m op len : Nat) {act : State → Request → State} (h : ∀ t r, State.SameBoot t (act t r)) :
    s.SameBoot (s.shortCmd m op len act) := by
  obtain g | ⟨t, r, ht, g⟩ := s.shortCmd_cases m op len act
  · exact g
  · rw [g]
    exact ht.trans (h t r)

theorem State.calm_hostCmd (s : State) (m op : Nat) {act : State → Request → State} (h : ∀ t r, State.Calm t (act t r)) :
    s.Calm (s.hostCmd m op act) := by
  obtain g | ⟨t, r, ht, g⟩ := s.hostCmd_cases m op act
  · exact .of_boot g
  · rw [g]
    exact (State.Calm.of_boot ht).trans (h t r)

theorem State.calm_shortCmd (s : State) (m op len : Nat) {act : State → Request → State} (h : ∀ t r, State.Calm t (act t r)) :
    s.Calm (s.shortCmd m op len act) := by
  obtain g | ⟨t, r, ht, g⟩ := s.shortCmd_cases m op len act
  · exact .of_boot g
  · rw [g]
    exact (State.Calm.of_boot ht).trans (h t r)

/-- What the claims of a step need: the radio does not come on, and the two invariants stand. -/
structure State.Keeps (s u : State) : Prop where
  radio : u.life.radioOn = true → s.life.radioOn = true
  flash : s.flashOk → u.flashOk
  mode : s.lcsOk → u.lcsOk

theorem State.Calm.keeps {s u : State} (h : s.Calm u) : s.Keeps u := ⟨h.radio, h.flash, h.mode⟩

theorem State.Keeps.trans {s t u : State} (h : s.Keeps t) (g : t.Keeps u) : s.Keeps u :=
  ⟨fun r => h.radio (g.radio r), fun r => g.flash (h.flash r), fun r => g.mode (h.mode r)⟩

/-- A restart forgets the mode, whatever the fuses say by then. -/
theorem State.keeps_restartBy {s t : State} (hr : t.flash = s.flash) (cause : Nat) : s.Keeps (t.restartBy cause) :=
  ⟨nofun, (State.flashOk_congr hr).2, fun _ => trivial⟩

theorem State.keeps_lifecycleOperate (s : State) (m : Nat) (r : Request) : s.Keeps (s.lifecycleOperate m r) := by
  unfold State.lifecycleOperate
  split
  · exact (State.Calm.refl s).respond.keeps
  · exact State.keeps_restartBy (by simp) _

theorem State.keeps_zeroLast (s : State) (e : StartEnv) : s.Keeps (s.zeroLast e) := by
  have again := ((s.calm_restartBy 6).trans (State.calm_start _ e)).keeps
  unfold State.zeroLast
  split
  · exact (State.Calm.refl s).keeps
  · split
    · exact again
    · extract_lets t
      have reset : s.Calm (s.holdIn .reset) := s.calm_holdIn trivial
      have failed : s.Calm t := reset.trans (State.calm_secError _ _ _)
      have held : ∀ m, (t.holdIn m).lcsOk → s.Keeps (t.holdIn m) := fun m h => (failed.trans (t.calm_holdIn h)).keeps
      repeat' split
      · exact held _ trivial
      · exact held _ trivial
      · exact failed.keeps
  · have retired : s.Keeps ({ s with life := { s.life with lcs := .retired } }.restartBy 1) :=
      ⟨nofun, fun h => h, fun _ => trivial⟩
    exact retired.trans (State.calm_start _ e).keeps
  · exact again

theorem State.keeps_zeroisationEnd (s : State) (e : StartEnv) : s.Keeps (s.zeroisationEnd e) := by
  unfold State.zeroisationEnd
  split
  · exact (State.Calm.refl s).keeps
  · extract_lets t
    have ended : s.Calm t := .of_boot (State.boot_zeroEnd _)
    split
    · exact ended.keeps.trans (State.keeps_zeroLast _ e)
    · have held : t.Calm { t with life := { t.life with mode := .zeroHold } } := .of_lcsOk rfl (fun h => h) rfl trivial
      exact (ended.trans held).keeps

theorem State.keeps_zeroiseHigh (s : State) (e : StartEnv) : s.Keeps (s.zeroiseHigh e) := by
  unfold State.zeroiseHigh
  extract_lets _ t
  have rose : s.Calm t := .of_boot ⟨rfl, rfl⟩
  split
  · exact rose.keeps.trans (State.keeps_zeroLast _ e)
  · exact rose.keeps

end Sys2Proof.Machine

namespace Sys2Proof.Machine

/-! # Every step keeps the flash canonical and the mode in agreement with the fuses -/

/-- Commands that may write life cycle or boot flash. -/
def writesBoot : Instr → Bool
  | .selftestRun .. | .cfgKeyInstall .. | .lifecycleOperate .. | .retirePrepare .. | .retire .. | .zeroiseAll .. | .restart .. => true
  | .configSlotWrite .. | .configCheck .. | .configActivate .. | .configConfirm .. => true
  | .fwSlotWrite .. | .fwSlotCheck .. | .fwActivate .. | .fwConfirm .. | .ctxSave .. | .ctxRestore .. => true
  | .resetNRise .. | .resetNFall .. | .radioOn .. | .powerFail .. | .pfiNHigh .. | .zeroiseNLow .. | .zeroiseNHigh .. | .zeroisationEnd .. => true
  | .tamperClassA .. | .tamperClassB .. | .periodicSelftest .. | .drbgReseed .. | .jtagInstructionUpdate .. | .testLogicReset .. => true
  | .cipherJobPost .. | .cipherJobEnd .. | .dramRetrain .. | .meridianUpdate .. | .unitFault .. | .tagHoldExpiry .. | .channelTimeout .. => true
  | .thermalStep .. | .finalResponse .. | .aonReset .. => true
  | _ => false

/-- Every other command leaves both. -/
theorem exec_boot {c : Instr} (hc : writesBoot c = false) {s u : State} (h : exec c s = .next u) : s.SameBoot u := by
  cases c <;> cases hc <;> cases h
  case almanacRemove | canopyFreeze =>
    refine State.SameBoot.trans (State.boot_tick _ _) (State.boot_shortCmd _ _ _ _ fun t r => ?_)
    dsimp only
    repeat' split
    all_goals simp
  case canopyThaw =>
    exact State.SameBoot.trans (State.boot_tick _ _) (State.boot_shortCmd _ _ _ _ fun t r => by split <;> simp)
  all_goals simp

theorem State.keeps_shortCmd (s : State) (m op len : Nat) {act : State → Request → State} (h : ∀ t r, State.Keeps t (act t r)) :
    s.Keeps (s.shortCmd m op len act) := by
  obtain g | ⟨t, r, ht, g⟩ := s.shortCmd_cases m op len act
  · exact (State.Calm.of_boot g).keeps
  · rw [g]
    exact (State.Calm.of_boot ht).keeps.trans (h t r)

theorem State.calm_ite {s t u : State} {c : Prop} [Decidable c] (ht : s.Calm t) (hu : s.Calm u) : s.Calm (if c then t else u) := by
  split
  · exact ht
  · exact hu

/-- A command that may write, RADIO_ON and what changes the fuses apart, is calm. -/
theorem exec_calm {c : Instr} {s u : State} (h : exec c s = .next u) (hr : ∀ dt, c ≠ .radioOn dt) (hl : ∀ dt m, c ≠ .lifecycleOperate dt m)
    (he : ∀ dt e, c ≠ .zeroisationEnd dt e) (hh : ∀ dt e, c ≠ .zeroiseNHigh dt e) : s.Calm u := by
  cases hc : writesBoot c with
  | false => exact .of_boot (exec_boot hc h)
  | true =>
    have ticked : ∀ dt, s.Calm (s.tick dt) := fun dt => .of_boot (s.boot_tick dt)
    cases c
    case radioOn dt => exact absurd rfl (hr dt)
    case lifecycleOperate dt m => exact absurd rfl (hl dt m)
    case zeroisationEnd dt e => exact absurd rfl (he dt e)
    case zeroiseNHigh dt e => exact absurd rfl (hh dt e)
    case selftestRun dt m e => cases h; exact (ticked dt).trans (State.calm_shortCmd _ _ _ _ fun t r => t.calm_selftestRun _ r e)
    case cfgKeyInstall dt m => cases h; exact (ticked dt).trans (State.calm_shortCmd _ _ _ _ fun t r => t.calm_cfgKeyInstall _ r)
    case retirePrepare dt m =>
      cases h
      exact (ticked dt).trans (State.calm_shortCmd _ _ _ _ fun t r => State.Calm.respond (.of_life ⟨rfl, rfl, rfl, rfl⟩))
    case retire dt m =>
      cases h
      refine (ticked dt).trans (State.calm_shortCmd _ _ _ _ fun t r => State.calm_ite ?_ (State.Calm.refl t).respond)
      exact ((State.Calm.refl t).respond.boot (State.boot_sendLast _)).trans (State.calm_zeroise _ _)
    case zeroiseAll dt m => cases h; exact (ticked dt).trans (State.calm_shortCmd _ _ _ _ fun t r => t.calm_zeroiseAll _ r)
    case restart dt m => cases h; exact (ticked dt).trans (State.calm_shortCmd _ _ _ _ fun t r => t.calm_restartCmd _ r)
    case configSlotWrite dt m late => cases h; exact (ticked dt).trans (State.calm_hostCmd _ _ _ fun t r => t.calm_cfgSlotWrite _ r late)
    case configCheck dt m => cases h; exact (ticked dt).trans (State.calm_shortCmd _ _ _ _ fun t r => t.calm_cfgCheck _ r)
    case configActivate dt m late => cases h; exact (ticked dt).trans (State.calm_shortCmd _ _ _ _ fun t r => t.calm_cfgActivate _ r late)
    case configConfirm dt m late => cases h; exact (ticked dt).trans (State.calm_shortCmd _ _ _ _ fun t r => t.calm_cfgConfirm _ r late)
    case fwSlotWrite dt m late => cases h; exact (ticked dt).trans (State.calm_hostCmd _ _ _ fun t r => t.calm_fwSlotWrite _ r late)
    case fwSlotCheck dt m => cases h; exact (ticked dt).trans (State.calm_shortCmd _ _ _ _ fun t r => t.calm_fwCheck _ r)
    case fwActivate dt m run => cases h; exact (ticked dt).trans (State.calm_shortCmd _ _ _ _ fun t r => t.calm_fwActivate _ r _ _)
    case fwConfirm dt m late => cases h; exact (ticked dt).trans (State.calm_shortCmd _ _ _ _ fun t r => t.calm_fwConfirm _ r late)
    case ctxSave dt m => cases h; exact (ticked dt).trans (State.calm_shortCmd _ _ _ _ fun t r => t.calm_ctxSave _ r)
    case ctxRestore dt m => cases h; exact (ticked dt).trans (State.calm_hostCmd _ _ _ fun t r => t.calm_ctxRestore _ r)
    case resetNRise dt e =>
      cases h
      have rose : s.Calm { s.tick dt with pins := { (s.tick dt).pins with resetN := true } } := (ticked dt).trans (.of_boot ⟨rfl, rfl⟩)
      exact State.calm_ite (rose.trans (State.calm_start _ e)) rose
    case resetNFall dt => cases h; exact (ticked dt).trans (State.calm_resetFall _)
    case powerFail dt cause holdUp lost => cases h; exact (ticked dt).trans (State.calm_powerFail _ _ _ _)
    case pfiNHigh dt e => cases h; exact (ticked dt).trans (State.calm_pfiHigh _ e)
    case zeroiseNLow dt => cases h; exact (ticked dt).trans (State.calm_zeroiseLow _)
    case tamperClassA dt k => cases h; exact (ticked dt).trans (State.calm_tripA _ _)
    case tamperClassB dt k e => cases h; exact (ticked dt).trans (State.calm_tripB _ _ e)
    case periodicSelftest dt e => cases h; exact (ticked dt).trans (State.calm_periodicTest _ e)
    case drbgReseed dt a b => cases h; exact (ticked dt).trans (State.calm_reseed _ a b)
    case jtagInstructionUpdate dt i => cases h; exact (ticked dt).trans (State.calm_jtag _ i)
    case testLogicReset dt e => cases h; exact (ticked dt).trans (State.calm_testLogicReset _ e)
    case cipherJobPost dt job input ok =>
      cases h
      exact State.calm_ite ((ticked dt).trans (State.calm_postJob _ job input ok)) (ticked dt)
    case cipherJobEnd dt unit fault => cases h; exact (ticked dt).trans (State.calm_endJob _ _ fault)
    case dramRetrain dt ok => cases h; exact State.calm_ite ((ticked dt).trans (State.calm_dramLost _)) (ticked dt)
    case meridianUpdate dt copies =>
      cases h
      refine State.calm_ite ((ticked dt).trans (.foldl (fun t p => ?_) _ _)) (ticked dt)
      exact State.calm_ite (t.calm_copyFault _) (.refl t)
    case unitFault dt unit => cases h; exact State.calm_ite ((ticked dt).trans (State.calm_unitFault _ unit)) (ticked dt)
    case tagHoldExpiry dt holder => cases h; exact State.calm_ite ((ticked dt).trans (State.calm_reclaimTag _ holder)) (ticked dt)
    case channelTimeout dt i =>
      cases h
      refine State.calm_ite (State.Calm.trans ?_ (State.calm_islandFault _ _ _)) (ticked dt)
      exact (ticked dt).count.boot (State.boot_breach _ _ _)
    case thermalStep dt tj e => cases h; exact (ticked dt).trans (State.calm_thermal _ tj e)
    case finalResponse dt m ok => cases h; exact (ticked dt).trans (State.calm_finalResponse _ _ ok)
    case aonReset dt => cases h; exact (ticked dt).trans (State.calm_aonReset _)
    all_goals cases hc

theorem exec_keeps {c : Instr} {s u : State} (h : exec c s = .next u) (hr : ∀ dt, c ≠ .radioOn dt) : s.Keeps u := by
  have ticked : ∀ dt, s.Keeps (s.tick dt) := fun dt => (State.Calm.of_boot (s.boot_tick dt)).keeps
  by_cases hl : ∃ dt m, c = .lifecycleOperate dt m
  · obtain ⟨dt, m, rfl⟩ := hl
    cases h
    exact (ticked dt).trans (State.keeps_shortCmd _ _ _ _ fun t r => t.keeps_lifecycleOperate _ r)
  · by_cases he : ∃ dt e, c = .zeroisationEnd dt e
    · obtain ⟨dt, e, rfl⟩ := he
      cases h
      exact (ticked dt).trans (State.keeps_zeroisationEnd _ e)
    · by_cases hh : ∃ dt e, c = .zeroiseNHigh dt e
      · obtain ⟨dt, e, rfl⟩ := hh
        cases h
        exact (ticked dt).trans (State.keeps_zeroiseHigh _ e)
      · exact (exec_calm h hr (fun dt m g => hl ⟨dt, m, g⟩) (fun dt e g => he ⟨dt, e, g⟩) fun dt e g => hh ⟨dt, e, g⟩).keeps

/-! ## RADIO_ON -/

/-- RADIO_ON writes one field of the life cycle, and only in OPERATE. -/
theorem State.goRadio_cases (s : State) :
    s.SameBoot s.goRadio ∨ s.operating = true ∧ s.goRadio.flash = s.flash ∧ s.goRadio.life = { s.life with radioOn := true } := by
  unfold State.goRadio
  split
  · exact .inl ⟨rfl, rfl⟩
  · rename_i h
    right
    extract_lets _ _ _ _ t u
    have front : t.SameBoot u := foldl_boot (fun s f => State.boot_feOn s f) feAll t
    have both := State.SameBoot.trans front (foldl_boot (f := fun (s : State) w =>
      (s.setDodag w { s.dodag w with version := BitVec.ofNat 8 (s.rplVersion w) }).resetTrickle w) (fun s w => by simp)
      ((List.range 8).filter fun w => u.rplEnabled w) u)
    simp only [Bool.or_eq_true, Bool.not_eq_true', not_or] at h
    exact ⟨by simpa using h.1.1, both.2, both.1⟩

theorem State.keeps_goRadio (s : State) : (s.flashOk → s.goRadio.flashOk) ∧ (s.lcsOk → s.goRadio.lcsOk) := by
  obtain h | ⟨-, hflash, hlife⟩ := s.goRadio_cases
  · exact ⟨(State.Calm.of_boot h).flash, (State.Calm.of_boot h).mode⟩
  · exact ⟨(State.flashOk_congr hflash).2, (State.lcsOk_congr (by rw [hlife]) (by rw [hlife])).2⟩

/-! ## The step -/

theorem step_cases {s u : State} (h : step s = .next u) :
    u = s ∨ ∃ c rest, s.pending = c :: rest ∧ exec c { s with pending := rest } = .next u := by
  unfold step at h
  split at h
  · cases h
    exact .inl rfl
  · rename_i c rest hp
    exact .inr ⟨c, rest, hp, h⟩

/-- Settles O58: every other command keeps the radio off, and RADIO_ON turns it on only in OPERATE. -/
theorem onlyRadioOnStartsTheRadio : Obligations.OnlyRadioOnStartsTheRadio := by
  unfold Obligations.OnlyRadioOnStartsTheRadio
  intro s u h off on
  obtain rfl | ⟨c, rest, hp, hc⟩ := step_cases h
  · rw [off] at on
    cases on
  · by_cases hr : ∃ dt, c = .radioOn dt
    · obtain ⟨dt, rfl⟩ := hr
      cases hc
      have ticked := State.boot_tick { s with pending := rest } dt
      refine ⟨?_, dt, by rw [hp]; rfl⟩
      obtain g | ⟨g, -, -⟩ := State.goRadio_cases (State.tick { s with pending := rest } dt)
      · rw [g.1, ticked.1] at on
        exact absurd on (by simp [off])
      · simpa [State.operating, ticked.1] using g
    · have keeps := exec_keeps hc fun dt g => hr ⟨dt, g⟩
      rw [keeps.radio on] at off
      cases off

/-- Settles O59: by the commands, RADIO_ON apart as it writes the life cycle's radio field alone. -/
theorem stepKeepsTheInvariant : Obligations.StepKeepsTheInvariant := by
  unfold Obligations.StepKeepsTheInvariant
  intro s u h
  obtain rfl | ⟨c, rest, -, hc⟩ := step_cases h
  · exact ⟨fun h => h, fun h => h⟩
  · by_cases hr : ∃ dt, c = .radioOn dt
    · obtain ⟨dt, rfl⟩ := hr
      cases hc
      have ticked := State.Calm.of_boot (State.boot_tick { s with pending := rest } dt)
      obtain ⟨hflash, hmode⟩ := State.keeps_goRadio (State.tick { s with pending := rest } dt)
      exact ⟨fun h => hflash (ticked.flash h), fun h => hmode (ticked.mode h)⟩
    · have keeps := exec_keeps hc fun dt g => hr ⟨dt, g⟩
      exact ⟨keeps.flash, keeps.mode⟩

end Sys2Proof.Machine

namespace Sys2Proof.Machine

/-! # CONFIG-CHECK and FW-SLOT-CHECK (R41, R55, R479, R491) -/

/-- A short command that the mailbox executes is its action, once the request's cells are released. -/
theorem State.shortCmd_of_runsLen {s : State} {m op len : Nat} {r : Request} (h : s.runsLen m op len r) (act : State → Request → State) :
    s.shortCmd m op len act = act (s.afterReq m) r := by
  obtain ⟨⟨hfront, hop, hpause, hbusy, htakes, hpermitted⟩, hlen⟩ := h
  cases hn : s.nextRequest m with
  | none => simp [State.frontReq, hn] at hfront
  | some p =>
    obtain ⟨q, t⟩ := p
    have hq : q = r := by simpa [State.frontReq, hn] using hfront
    subst hq
    simp only [State.afterReq, hn] at htakes hpermitted ⊢
    exact State.shortCmd_runs act hn hop hpause hbusy htakes hpermitted hlen

theorem State.opcode_of_runsLen {s : State} {m op len : Nat} {r : Request} (h : s.runsLen m op len r) : r.opcode = op := by
  obtain ⟨⟨-, hop, -⟩, -⟩ := h
  exact hop

theorem exec_configCheck {dt : Nat} {m : Mbox} {s : State} {r : Request} (h : (s.tick dt).runsLen m 0x0203 1 r) :
    exec (.configCheck dt m) s = .next (((s.tick dt).afterReq m).cfgCheck m r) :=
  congrArg Host.Outcome.next (State.shortCmd_of_runsLen h _)

theorem exec_fwSlotCheck {dt : Nat} {m : Mbox} {s : State} {r : Request} (h : (s.tick dt).runsLen m 0x0213 1 r) :
    exec (.fwSlotCheck dt m) s = .next (((s.tick dt).afterReq m).fwCheck m r) :=
  congrArg Host.Outcome.next (State.shortCmd_of_runsLen h _)

/-- Mailbox m runs a check that ends with `st` and `o`; the applied image and the flash stand. -/
def State.ChecksSlot (s : State) (m : Nat) (r : Request) (st : Nat) (o : Octets) (u : State) : Prop :=
  (∃ b, (u.mb m).busy = some b ∧ b.req = r ∧ b.cls = .long ∧ b.status = st ∧ b.result = o) ∧
    u.life.image = s.life.image ∧ u.life.cfgSlot = s.life.cfgSlot ∧ u.life.fwSlot = s.life.fwSlot ∧ u.flash = s.flash

theorem State.checksSlot_begin {s t : State} (m : Nat) {r : Request} (st : Nat) (o : Octets) (hc : cmdClass r.opcode = some .long)
    (hl : t.life.image = s.life.image ∧ t.life.cfgSlot = s.life.cfgSlot ∧ t.life.fwSlot = s.life.fwSlot) (hf : t.flash = s.flash) :
    s.ChecksSlot m r st o (t.begin m r [] st o) := by
  obtain ⟨hlife, hflash⟩ := t.boot_begin m r [] st o
  refine ⟨⟨_, State.busy_begin _ _ _ _ _ _, rfl, by simp [hc], rfl, rfl⟩, ?_⟩
  rw [hlife, hflash]
  exact ⟨hl.1, hl.2.1, hl.2.2, hf⟩

theorem State.cfgCheck_range {s : State} {m : Nat} {r : Request} (h : 1 < beField r.payload 0 1) : s.cfgCheck m r = s.respond m r sRange [] :=
  if_pos h

theorem State.cfgCheck_passes {s : State} (m : Nat) {r : Request} {img : Image} (hc : cmdClass r.opcode = some .long)
    (hi : beField r.payload 0 1 ≤ 1) (h : s.checkSlot (beField r.payload 0 1) = .ok img) :
    s.ChecksSlot m r sOk [0, 0, 0, 0, 0, 0, 0, 0] (s.cfgCheck m r) ∧
      (s.cfgCheck m r).life.cfgChecked = s.life.cfgChecked.set (beField r.payload 0 1) true ∧
      (s.life.mode = .provision → (s.cfgCheck m r).life.provSlot = some (beField r.payload 0 1)) := by
  unfold State.cfgCheck
  simp only [Nat.not_lt.2 hi, if_false, h]
  exact ⟨State.checksSlot_begin m _ _ hc ⟨rfl, rfl, rfl⟩ rfl, by simp, fun hm => by simp [hm]⟩

theorem State.cfgCheck_fails {s : State} (m : Nat) {r : Request} {f : ImgFail} (hc : cmdClass r.opcode = some .long)
    (hi : beField r.payload 0 1 ≤ 1) (h : s.checkSlot (beField r.payload 0 1) = .error f) :
    s.ChecksSlot m r sCheck (failOctets f) (s.cfgCheck m r) ∧
      (s.cfgCheck m r).life.cfgChecked = s.life.cfgChecked.set (beField r.payload 0 1) false := by
  unfold State.cfgCheck
  simp only [Nat.not_lt.2 hi, if_false, h]
  exact ⟨State.checksSlot_begin m _ _ hc ⟨rfl, rfl, rfl⟩ rfl, by simp [State.staleCfg]⟩

theorem State.fwCheck_range {s : State} {m : Nat} {r : Request} (hi : 1 < beField r.payload 0 1) (h : s.life.stump = none) :
    s.fwCheck m r = s.respond m r sRange [] := by
  simp [State.fwCheck, hi, h]

/-- In Stump, a slot other than its target. -/
theorem State.fwCheck_other {s : State} {m : Nat} {r : Request} {k : StumpSt} (h : s.life.stump = some k) (hi : beField r.payload 0 1 ≠ k.target) :
    s.fwCheck m r = s.respond m r sState [] := by
  simp [State.fwCheck, h, hi]

theorem State.fwCheck_judges {s : State} (m : Nat) {r : Request} (hc : cmdClass r.opcode = some .long) (hi : beField r.payload 0 1 ≤ 1)
    (h : ∀ k, s.life.stump = some k → beField r.payload 0 1 = k.target) :
    let c := s.checkFw (beField r.payload 0 1)
    s.ChecksSlot m r (if c.1 = 0 then sOk else sCheck) (toBe 1 c.1 ++ toBe 4 c.2) (s.fwCheck m r) ∧
      (s.fwCheck m r).life.fwChecked = s.life.fwChecked.set (beField r.payload 0 1) (c.1 == 0) ∧
      (s.fwCheck m r).life.stump = s.life.stump.map fun k => { k with checked := c.1 == 0 } := by
  unfold State.fwCheck
  extract_lets c i other c' ok stump _ t
  have hother : other = false := by
    unfold other
    split
    · rename_i k hk
      simp [i, h k hk]
    · rfl
  have hst : (if ok then sOk else sCheck) = if c.1 = 0 then sOk else sCheck := by simp [ok, c', c, i]
  simp only [i, Nat.not_lt.2 hi, if_false, hother, hst]
  exact ⟨State.checksSlot_begin m _ _ hc ⟨rfl, rfl, rfl⟩ rfl, by simp [t, ok, c', i, c], by simp [t, stump, ok, c', i, c]⟩

/-- Settles O12: by what either check does with its slot. -/
theorem slotChecks : Obligations.SlotChecks := by
  unfold Obligations.SlotChecks
  intro dt m s r t i ends
  have cfgClass : ∀ {len}, (s.tick dt).runsLen m 0x0203 len r → cmdClass r.opcode = some .long := fun h => by
    rw [State.opcode_of_runsLen h]
    rfl
  have fwClass : ∀ {len}, (s.tick dt).runsLen m 0x0213 len r → cmdClass r.opcode = some .long := fun h => by
    rw [State.opcode_of_runsLen h]
    rfl
  refine ⟨fun h hi => ?_, fun h hi hs => ?_, fun h hi => ⟨fun img himg => ?_, fun f hf => ?_⟩, fun k h hs hi => ?_, fun k h hs hk hi => ?_,
    fun h hi hs => ?_⟩
  · rw [exec_configCheck h, State.cfgCheck_range hi]
  · rw [exec_fwSlotCheck h, State.fwCheck_range hi hs]
  · obtain ⟨ends, checked, prov⟩ := State.cfgCheck_passes m (cfgClass h) hi himg
    exact ⟨_, exec_configCheck h, ends, checked, prov⟩
  · obtain ⟨ends, checked⟩ := State.cfgCheck_fails m (cfgClass h) hi hf
    exact ⟨_, exec_configCheck h, ends, checked⟩
  · rw [exec_fwSlotCheck h, State.fwCheck_other hs hi]
  · obtain ⟨ends, -, stump⟩ := State.fwCheck_judges m (fwClass h) hi fun l hl => hk.trans (by rw [Option.some.inj (hs.symm.trans hl)])
    exact ⟨_, exec_fwSlotCheck h, ends, by rw [stump, hs]; rfl⟩
  · obtain ⟨ends, checked, -⟩ := State.fwCheck_judges m (fwClass h) hi fun l hl => by rw [hs] at hl; cases hl
    exact ⟨_, exec_fwSlotCheck h, ends, checked⟩

end Sys2Proof.Machine

namespace Sys2Proof.Machine

/-! # Reset, the pins of a start, and radio on (R29 to R31, R219, R356, R386) -/

/-- What a part held in reset, or without power, still has: fuses, boot flash, the AON domain and Heartwood. -/
theorem State.holdIn_persists (s : State) (m : Mode) :
    (s.holdIn m).life.mode = m ∧ (s.holdIn m).life.lcs = s.life.lcs ∧ (s.holdIn m).life.secCause = s.life.secCause ∧
      (s.holdIn m).pins = { s.pins with m0Busy := false } ∧ (s.holdIn m).flash = s.flash ∧ (s.holdIn m).hw = s.hw ∧
      (s.holdIn m).rtc = s.rtc ∧ (s.holdIn m).clk = s.clk :=
  ⟨rfl, rfl, rfl, rfl, rfl, rfl, rfl, rfl⟩

/-- And what it has lost: radio, mailboxes, queues, keys, lanes, table and counters. -/
theorem State.holdIn_loses (s : State) (m : Mode) :
    (s.holdIn m).life.radioOn = false ∧ (s.holdIn m).life.image = none ∧ (s.holdIn m).mbox = [] ∧ (s.holdIn m).queues = {} ∧
      (s.holdIn m).crypto.slots = [] ∧ (s.holdIn m).table = {} ∧ (s.holdIn m).lanes = [] ∧ (s.holdIn m).tally = [] :=
  ⟨rfl, rfl, rfl, rfl, rfl, rfl, rfl, rfl⟩

/-- A part that runs. -/
def Mode.running (m : Mode) : Prop := m = .operate ∨ m = .noConfig ∨ m = .provision ∨ m = .stump ∨ m = .secError ∨ m = .retired

theorem State.resetFall_running {s : State} (h : s.life.mode.running) :
    s.resetFall = { s with pins := { s.pins with resetN := false } }.holdIn .reset := by
  rcases h with h | h | h | h | h | h <;> simp [State.resetFall, h]

theorem State.resetFall_zeroising {s : State} (h : s.life.mode = .zeroising) :
    s.resetFall = { s with pins := { s.pins with resetN := false } } := by
  simp [State.resetFall, h]

/-- Settles O24: a part that runs is held in reset, and one that zeroises goes on. -/
theorem resetKeepsWhatPersists : Obligations.ResetKeepsWhatPersists := by
  unfold Obligations.ResetKeepsWhatPersists
  intro dt s t
  have fell : exec (.resetNFall dt) s = .next t.resetFall := rfl
  refine ⟨fun h => ⟨_, fell, ?_⟩, fun h => by rw [fell, State.resetFall_zeroising h]⟩
  rw [State.resetFall_running h]
  obtain ⟨hmode, hlcs, hsec, hpins, hflash, hhw, hrtc, hclk⟩ := State.holdIn_persists { t with pins := { t.pins with resetN := false } } .reset
  obtain ⟨hradio, himage, hmbox, hqueues, hslots, htable, hlanes, htally⟩ :=
    State.holdIn_loses { t with pins := { t.pins with resetN := false } } .reset
  exact ⟨hmode, by rw [hpins], hlcs, hflash, hhw, hrtc, hclk, hsec, hradio, himage, hmbox, hqueues, hslots, htable, hlanes, htally, by rw [hpins]⟩

/-! ## The pins of a start (Table 2.5) -/

/-- What the pins are sampled on at step 2. -/
def State.atPins (s : State) (e : StartEnv) : State :=
  let s := s.powerClear
  let s := s.setRtc { s.rtc with vbatLow := decide (e.vbatMv < if s.rtc.vbatLow then 2050 else 2000) }
  { s with life := { s.life with startClk := s.clk }, pins := { s.pins with m0Busy := true } }

/-- A start with RESET_N high and the balls not driven. -/
theorem State.start_eq {s : State} (hr : s.pins.resetN = true) (hj : s.life.jtagDrives = false) (e : StartEnv) :
    s.start e = (s.atPins e).startPins e := by
  simp [State.start, State.atPins, hr, hj]

theorem State.atPins_fields (s : State) (e : StartEnv) :
    (s.atPins e).pins = { s.pins with m0Busy := true } ∧ (s.atPins e).hw = s.hw ∧ (s.atPins e).life.lcs = s.life.lcs ∧
      (s.atPins e).life.hwOpen = false ∧ (s.atPins e).crypto.rootReg = none ∧ (s.atPins e).crypto.slots = [] :=
  ⟨rfl, rfl, rfl, rfl, rfl, rfl⟩

/-- RESET_N is high. -/
def State.resetHigh (s : State) : State := { s with pins := { s.pins with resetN := true } }

/-- RESET_N rises on a part held in reset, or as power comes. -/
theorem exec_resetNRise {dt : Nat} {s : State} (e : StartEnv) (hm : (s.tick dt).life.mode = .reset ∨ (s.tick dt).life.mode = .unpowered)
    (hj : (s.tick dt).life.jtagDrives = false) :
    exec (.resetNRise dt e) s = .next (((s.tick dt).resetHigh.atPins e).startPins e) := by
  have started := State.start_eq (s := (s.tick dt).resetHigh) rfl hj e
  rw [← started]
  exact congrArg Host.Outcome.next (if_pos hm)

theorem State.lineWrite_hw (s : State) (a : Nat) :
    (s.lineWrite a).hw.zeroCount = s.hw.zeroCount ∧ (s.lineWrite a).hw.zeroFlag = s.hw.zeroFlag := by
  unfold State.lineWrite
  dsimp only
  repeat' split
  all_goals simp

/-- Zeroisation of whatever cause. -/
theorem State.zeroise_fields (s : State) (c : ZeroCause) :
    (s.zeroise c).life.mode = .zeroising ∧ (s.zeroise c).crypto.zeroising = some c ∧ (s.zeroise c).hw.zeroCount = s.hw.zeroCount + 1 ∧
      (s.zeroise c).hw.zeroFlag = true ∧ (s.zeroise c).life.lcs = s.life.lcs := by
  have hcount := (State.lineWrite_hw (s.holdIn .zeroising) 0x2000).1
  obtain ⟨hmode, hlcs, -, -, -, hhw, -⟩ := s.holdIn_persists .zeroising
  simp [State.zeroise, hcount, hmode, hlcs, hhw]

theorem State.startPins_zeroise {s : State} (h : s.pins.zeroiseN = false ∨ s.pins.zeroiseLatch = true) (e : StartEnv) :
    s.startPins e = s.zeroise .pin := by
  rcases h with h | h <;> simp [State.startPins, h]

theorem State.startPins_retired {s : State} (hz : s.pins.zeroiseN = true) (hl : s.pins.zeroiseLatch = false) (h : s.life.lcs = .retired)
    (e : StartEnv) :
    s.startPins e = State.setMb { s with life := { s.life with mode := .retired }, pins := { s.pins with m0Busy := false } } 0 { isOpen := true } := by
  simp [State.startPins, hz, hl, h]

theorem State.startPins_pfi {s : State} (hz : s.pins.zeroiseN = true) (hl : s.pins.zeroiseLatch = false) (h : s.life.lcs ≠ .retired)
    (hp : s.pins.pfiN = false) (e : StartEnv) : s.startPins e = { s with life := { s.life with mode := .pfiHold } } := by
  simp [State.startPins, hz, hl, h, hp]

/-! ## Radio on -/

/-- The rest of radio on leaves these, and the mode of each front end `f` is what `mode f` says. -/
def State.RadioKeeps (s u : State) : Prop :=
  u.life = s.life ∧ u.wake = s.wake ∧ u.table.tokens = s.table.tokens ∧ u.table.nodes = s.table.nodes ∧ u.queues = s.queues ∧ u.hw = s.hw

theorem State.radioKeeps_feOn (s : State) (f : Fe) : s.RadioKeeps (s.feOn f) := by
  unfold State.feOn
  dsimp only
  split
  · exact ⟨rfl, rfl, rfl, rfl, rfl, rfl⟩
  · simp [State.RadioKeeps]

/-- A front end in STANDBY comes to receive; the others stay. -/
theorem State.mode_feOn (s : State) (f g : Fe) :
    ((s.feOn f).feSt g).mode = if g = f ∧ (s.feSt f).mode = .standby then .rx else (s.feSt g).mode := by
  unfold State.feOn
  dsimp only
  by_cases h : (s.feSt f).mode = .standby
  · simp only [h, ne_eq, not_true_eq_false, if_false, and_true]
    by_cases hg : g = f <;> simp [hg, State.feSt, PerFe.get_set]
  · simp [h]

theorem State.mode_feOn_all (s : State) (f : Fe) :
    ((feAll.foldl State.feOn s).feSt f).mode = if (s.feSt f).mode = .standby then .rx else (s.feSt f).mode := by
  cases f <;> simp [feAll, State.mode_feOn]

theorem State.RadioKeeps.trans {s t u : State} (h : s.RadioKeeps t) (g : t.RadioKeeps u) : s.RadioKeeps u := by
  obtain ⟨h₁, h₂, h₃, h₄, h₅, h₆⟩ := h
  obtain ⟨g₁, g₂, g₃, g₄, g₅, g₆⟩ := g
  exact ⟨g₁.trans h₁, g₂.trans h₂, g₃.trans h₃, g₄.trans h₄, g₅.trans h₅, g₆.trans h₆⟩

theorem State.RadioKeeps.foldl {β : Type} {f : State → β → State} (h : ∀ s b, State.RadioKeeps s (f s b)) (l : List β) (s : State) :
    s.RadioKeeps (l.foldl f s) := by
  induction l generalizing s with
  | nil => exact ⟨rfl, rfl, rfl, rfl, rfl, rfl⟩
  | cons b l ih => exact (h s b).trans (ih _)

theorem State.goRadio_off {s : State} (h : s.atPhase = false) : s.goRadio = s := by
  simp [State.goRadio, h]

/-- The state at radio on, before its front ends receive. -/
def State.radioStart (s : State) : State :=
  { s with
    life := { s.life with radioOn := true }
    canopy := { s.canopy with radioClk := s.clk }, wake := { s.wake with credit := [], creditClk := s.clk }
    table := { s.table with tokens := s.joinBurst * 1000, tokenClk := s.clk } }

/-- The version and the trickle timer of a world's DODAG begin anew. -/
def State.dodagStart (s : State) (w : Nat) : State :=
  (s.setDodag w { s.dodag w with version := BitVec.ofNat 8 (s.rplVersion w) }).resetTrickle w

theorem State.dodagStart_keeps (s : State) (w : Nat) : s.RadioKeeps (s.dodagStart w) ∧ (s.dodagStart w).fe = s.fe :=
  ⟨⟨rfl, rfl, rfl, rfl, rfl, rfl⟩, rfl⟩

theorem State.goRadio_eq {s : State} (hm : s.life.mode = .operate) (hr : s.life.radioOn = false) (hp : s.atPhase = true) :
    s.goRadio = ((List.range 8).filter fun w => (feAll.foldl State.feOn s.radioStart).rplEnabled w).foldl State.dodagStart
      (feAll.foldl State.feOn s.radioStart) := by
  have runs : ¬(!s.operating || s.life.radioOn || !s.atPhase) = true := by simp [State.operating, hm, hr, hp]
  exact if_neg runs

theorem State.goRadio_on {s : State} (hm : s.life.mode = .operate) (hr : s.life.radioOn = false) (hp : s.atPhase = true) :
    s.radioStart.RadioKeeps s.goRadio ∧ ∀ f, (s.goRadio.feSt f).mode = if (s.feSt f).mode = .standby then .rx else (s.feSt f).mode := by
  rw [State.goRadio_eq hm hr hp]
  have front := State.RadioKeeps.foldl State.radioKeeps_feOn feAll s.radioStart
  refine ⟨front.trans (.foldl (fun s w => (s.dodagStart_keeps w).1) _ _), fun f => ?_⟩
  rw [State.feSt, foldl_keeps State.dodagStart State.fe fun s w => (s.dodagStart_keeps w).2]
  exact State.mode_feOn_all s.radioStart f

/-- Settles O25: by the branches of step 2, in their order, and by what radio on writes. -/
theorem startPinsAndRadioOn : Obligations.StartPinsAndRadioOn := by
  unfold Obligations.StartPinsAndRadioOn
  constructor
  · intro dt e s t hm hj
    have starts := exec_resetNRise e hm hj
    obtain ⟨hpins, hhw, hlcs, hopen, hroot, hslots⟩ := t.resetHigh.atPins_fields e
    generalize t.resetHigh.atPins e = v at starts hpins hhw hlcs hopen hroot hslots
    have hz : v.pins.zeroiseN = t.pins.zeroiseN := by rw [hpins]; rfl
    have hl : v.pins.zeroiseLatch = t.pins.zeroiseLatch := by rw [hpins]; rfl
    have hp : v.pins.pfiN = t.pins.pfiN := by rw [hpins]; rfl
    refine ⟨fun h => ?_, fun hn hc hr => ?_, fun hn hc hr hf => ?_⟩
    · rw [State.startPins_zeroise (by rwa [hz, hl])] at starts
      obtain ⟨hmode, hcause, hcount, hflag, hkept⟩ := v.zeroise_fields .pin
      exact ⟨_, starts, hmode, hcause, by rw [hcount, hhw]; rfl, hflag, hkept.trans hlcs⟩
    · rw [State.startPins_retired (hz.trans hn) (hl.trans hc) (hlcs.trans hr)] at starts
      exact ⟨_, starts, by simp, by simp [State.mb, Tbl.getD_set], by simpa using hroot, by simpa using hslots, by simp, hhw⟩
    · rw [State.startPins_pfi (hz.trans hn) (hl.trans hc) (fun g => hr (hlcs.symm.trans g)) (hp.trans hf)] at starts
      exact ⟨_, starts, rfl, hopen, by rw [hpins], hhw⟩
  · intro dt s t
    refine ⟨fun hp => congrArg Host.Outcome.next (State.goRadio_off hp), fun hm hr hp => ?_⟩
    obtain ⟨⟨hlife, hwake, htokens, hnodes, hqueues, hhw⟩, hmode⟩ := State.goRadio_on hm hr hp
    exact ⟨_, rfl, by rw [hlife]; rfl, hmode, by rw [hwake]; rfl, htokens.trans (Nat.mul_comm _ _), hnodes, hqueues, hhw⟩

end Sys2Proof.Machine

namespace Sys2Proof.Machine

/-! # What the MAC writes while it gives up, puts back or ends what it sends -/

/-! ## The relation -/

/-- Without what the MAC keeps of a front end: its requests, attempts, retries, beacons and RF test, and since when it is idle. -/
def FeSt.sansMac (x : FeSt) : FeSt :=
  { x with posted := [], held := none, attempt := none, retry := [], ackWait := none, beacon := none, beaconTries := 0, beaconSeq := 0
           beaconB := false, rfTest := none, idleSince := 0 }

/-- Without the pacing of its packets (R221). -/
def Node.sansPace (n : Node) : Node := { n with paceNs := 0 }

/-- Without Tally and events, cells and queues, lanes and decoders, the MAC's own tables, the node table and the measurements of nodes. -/
def State.sansMac (s : State) : State :=
  { s.sansMail with
    rnd := 0, queues := {}, fe := { sa := {}, sb := {}, h := {} }, lanes := [], dec := {}, mac := {}, wake := {}, table := {}
    canopy := { s.canopy with meas := [] } }

/-- Counters of the front ends and of Canopy that the MAC moves only where it says so itself. -/
def feCounters : List Ctr := [.feTxLate, .feTxRefused, .feLockLost, .feOverpowerAbort, .feCal, .canopyAssignWithdrawn]

/-- Between s and u only the MAC and receive have written: front ends stand but for what the MAC keeps of them, and hold no request they did
not hold; nodes stand but for their pacing; the counters of front ends stand, and so does the rest. -/
structure State.MacWrites (s u : State) : Prop where
  rest : u.sansMac = s.sansMac
  fe : ∀ g, (u.feSt g).sansMac = (s.feSt g).sansMac
  held : ∀ g, (u.feSt g).held = (s.feSt g).held ∨ (u.feSt g).held = none
  node : ∀ i, (u.node i).map Node.sansPace = (s.node i).map Node.sansPace
  counter : ∀ c ∈ feCounters, ∀ x, u.counter c x = s.counter c x

namespace State.MacWrites

variable {s t u : State}

theorem refl (s : State) : s.MacWrites s := ⟨rfl, fun _ => rfl, fun _ => .inl rfl, fun _ => rfl, fun _ _ _ => rfl⟩

theorem trans (h : s.MacWrites t) (k : t.MacWrites u) : s.MacWrites u where
  rest := k.rest.trans h.rest
  fe g := (k.fe g).trans (h.fe g)
  held g := by
    rcases k.held g with e | e
    · rw [e]; exact h.held g
    · exact .inr e
  node i := (k.node i).trans (h.node i)
  counter c hc x := (k.counter c hc x).trans (h.counter c hc x)

/-- Front ends, nodes and Tally stand. -/
theorem of_rest (h : u.sansMac = s.sansMac) (hf : u.fe = s.fe) (hn : u.table = s.table) (hc : u.tally = s.tally) : s.MacWrites u :=
  ⟨h, fun g => by simp only [State.feSt, hf], fun g => .inl (by simp only [State.feSt, hf]), fun i => by simp only [State.node, hn],
    fun c _ x => s.counter_of_tally hc c x⟩

theorem foldl {β : Type} {f : State → β → State} (h : ∀ s b, State.MacWrites s (f s b)) (l : List β) (s : State) : s.MacWrites (l.foldl f s) := by
  induction l generalizing s with
  | nil => exact refl s
  | cons b l ih => exact (h s b).trans (ih (f s b))

theorem foldl_snd {α β : Type} {f : α × State → β → α × State} {r : α × State} (h : ∀ r b, State.MacWrites r.2 (f r b).2) (l : List β) :
    State.MacWrites r.2 (l.foldl f r).2 := by
  induction l generalizing r with
  | nil => exact refl r.2
  | cons b l ih => exact (h r b).trans ih

theorem ite {c : Prop} [Decidable c] (ht : s.MacWrites t) (hu : s.MacWrites u) : s.MacWrites (if c then t else u) := by
  split
  · exact ht
  · exact hu

/-- A count of something else. -/
theorem count {c : Ctr} (h : s.MacWrites t) (hc : c ∉ feCounters) (x : Scope) : s.MacWrites (t.count c x) :=
  h.trans ⟨rfl, fun _ => rfl, fun _ => .inl rfl, fun _ => rfl, fun _ hd y => t.counter_count_ne x y fun e => hc (e ▸ hd)⟩

theorem netNs (h : s.MacWrites u) : u.netNs = s.netNs := (congrArg (fun s => s.netNs) h.rest :)

end State.MacWrites
end Sys2Proof.Machine

namespace Sys2Proof.Machine

/-! ## One fact per operation, in the order of the model's files -/

theorem State.feSt_setFe (s : State) (f g : Fe) (x : FeSt) : (s.setFe f x).feSt g = if g = f then x else s.feSt g := PerFe.get_set _ _ _ _

@[simp] theorem State.feSt_setFe_self (s : State) (f : Fe) (x : FeSt) : (s.setFe f x).feSt f = x := by simp [State.feSt_setFe]

theorem State.feSt_of_fe {s u : State} (h : u.fe = s.fe) (f : Fe) : u.feSt f = s.feSt f := by simp only [State.feSt, h]

/-- A front end changed in what the MAC keeps of it. -/
theorem State.mac_setFe (s : State) (f : Fe) {x : FeSt} (hx : x.sansMac = (s.feSt f).sansMac)
    (hh : x.held = (s.feSt f).held ∨ x.held = none) : s.MacWrites (s.setFe f x) := by
  refine ⟨rfl, fun g => ?_, fun g => ?_, fun _ => rfl, fun _ _ _ => rfl⟩
  all_goals
    rw [State.feSt_setFe]
    split
  · next h => rw [h]; exact hx
  · rfl
  · next h => rw [h]; exact hh
  · exact .inl rfl

theorem State.mac_of_sansQueues {s u : State} (h : u.sansMail.sansQueues = s.sansMail.sansQueues)
    (hc : ∀ c ∈ feCounters, ∀ x, u.counter c x = s.counter c x) : s.MacWrites u := by
  have hf : u.fe = s.fe := (congrArg State.fe h :)
  have hn : u.table = s.table := (congrArg State.table h :)
  exact ⟨(congrArg State.sansMac h :), fun g => by simp only [State.feSt, hf], fun g => .inl (by simp only [State.feSt, hf]),
    fun i => by simp only [State.node, hn], hc⟩

theorem State.mac_releaseChain (s : State) (a n : Nat) (l : List Nat) : s.MacWrites (s.releaseChain a n l) :=
  State.mac_of_sansQueues (s.releaseChain_frame a n l).2.2 fun c hc x => s.counter_releaseChain a n l x (by revert c; decide)

theorem State.mac_releaseAll (s : State) (l : List Packet) : s.MacWrites (s.releaseAll l) :=
  State.MacWrites.foldl (f := fun s (p : Packet) => s.releaseChain p.acct p.cells p.chain) (fun s p => s.mac_releaseChain p.acct p.cells p.chain) l s

theorem State.mac_setOrder (s : State) (k : Nat) (l : List Packet) : s.MacWrites (s.setOrder k l) := .of_rest rfl rfl rfl rfl

theorem State.mac_setLane (s : State) (l : Nat) (x : LaneSt) : s.MacWrites (s.setLane l x) := .of_rest rfl rfl rfl rfl

theorem State.mac_setWake (s : State) (w : WakeSt) : s.MacWrites { s with wake := w } := .of_rest rfl rfl rfl rfl

theorem State.mac_setFlow (s : State) (w : Flow) : s.MacWrites (s.setFlow w) := .of_rest rfl rfl rfl rfl

theorem State.mac_returnCharge (s : State) (c : Option (Nat × Nat)) (us : Nat) : s.MacWrites (s.returnCharge c us) := by
  unfold State.returnCharge
  split
  · exact .of_rest rfl rfl rfl rfl
  · exact .refl s

theorem State.mac_addCredit (s : State) (w : Nat) (f : Fe) (d : Int) : s.MacWrites (s.addCredit w f d).2 := .of_rest rfl rfl rfl rfl

theorem State.mac_openCont (s : State) (c : Cont) : s.MacWrites (s.openCont c) := .of_rest rfl rfl rfl rfl

theorem State.mac_pacedAir (s : State) (k us : Nat) : s.MacWrites (s.pacedAir k us) := .of_rest rfl rfl rfl rfl

theorem State.mac_ackOver (s : State) (l : Nat) : s.MacWrites (s.ackOver l) := .of_rest rfl rfl rfl rfl

/-- A node's pacing is written. -/
theorem State.mac_setPace (s : State) {i : Nat} {m : Node} (h : s.node i = some m) (n : Nat) : s.MacWrites (s.setNode i { m with paceNs := n }) := by
  refine ⟨rfl, fun _ => rfl, fun _ => .inl rfl, fun j => ?_, fun _ _ _ => rfl⟩
  have hj : (s.setNode i { m with paceNs := n }).node j = if j = i then some { m with paceNs := n } else s.node j := Tbl.get_set _ _ _ _
  rw [hj]
  split
  · next e => rw [e, h]; rfl
  · rfl

theorem State.mac_pacedEnd (s : State) (k n e : Nat) : s.MacWrites (s.pacedEnd k n e) := by
  unfold State.pacedEnd
  split
  · exact .refl s
  · dsimp only
    split
    · split
      · next h => exact (s.mac_setWake _).trans (State.mac_setPace _ h _)
      · exact .of_rest rfl rfl rfl rfl
    · exact .of_rest rfl rfl rfl rfl

theorem State.mac_removePacket (s : State) (k : Nat) : s.MacWrites (s.removePacket k).2 := by
  unfold State.removePacket
  extract_lets mine gone orders goneF flows _ _ t u r
  have ht : s.MacWrites t := .of_rest rfl rfl rfl rfl
  have hu : t.MacWrites u := (t.mac_releaseAll gone).trans (State.mac_releaseAll _ goneF)
  refine (ht.trans hu).trans (State.MacWrites.foldl_snd (r := (gone.length + goneF.length, u)) (fun r f => ?_) feAll)
  dsimp only
  refine State.MacWrites.trans ?_ (.foldl (fun s (q : Retry) => s.mac_releaseChain q.acct q.cells q.chain) _ _)
  exact r.2.mac_setFe f rfl (.inl rfl)

theorem State.mac_countN (s : State) {c : Ctr} (hc : c ∉ feCounters) (x : Scope) (n : Nat) : s.MacWrites (s.countN c x n) := by
  refine ⟨rfl, fun _ => rfl, fun _ => .inl rfl, fun _ => rfl, fun d hd y => ?_⟩
  have hne : d ≠ c := fun e => hc (e ▸ hd)
  simp [State.counter, State.countN, Tally.read_add, hne]

theorem State.mac_abandonRest (s : State) (d : DownFrame) : s.MacWrites (s.abandonRest d) := by
  unfold State.abandonRest
  split
  · exact .refl s
  · exact ((State.mac_removePacket _ _).trans (State.mac_countN _ (by decide) _ _)).trans (State.mac_pacedEnd _ _ _ _)

theorem State.mac_discardFrame (s : State) (d : DownFrame) (a n : Nat) (l : List Nat) {c : Ctr} (hc : c ∉ feCounters) (x : Scope) :
    s.MacWrites (s.discardFrame d a n l c x) :=
  ((s.mac_releaseChain a n l).count hc x).trans (State.mac_abandonRest _ d)

theorem State.mac_noGate (s : State) (i n : Nat) : s.MacWrites (s.noGate i n) := by
  induction n generalizing s with
  | zero => exact .refl s
  | succ n ih =>
    unfold State.noGate
    split
    · split
      · split
        · exact ((s.mac_setFlow _).trans (State.mac_discardFrame _ _ _ _ _ (by decide) _)).trans (ih _)
        · exact (s.mac_setFlow _).trans (ih _)
      · exact .refl s
    · exact .refl s

theorem State.mac_replace (s : State) (w : Flow) : s.MacWrites (s.replace w) := by
  unfold State.replace
  split
  · exact s.mac_setFlow w
  · split
    · exact s.mac_setFlow _
    · exact (s.mac_setFlow w).trans (State.mac_noGate _ _ _)

theorem State.mac_skipBeacon (s : State) (f : Fe) : s.MacWrites (s.skipBeacon f) := by
  refine State.MacWrites.count ?_ (by decide) _
  exact s.mac_setFe f rfl (.inl rfl)

theorem State.mac_giveBack (s : State) (f : Fe) (a : Attempt) : s.MacWrites (s.giveBack f a) := by
  unfold State.giveBack
  extract_lets u v
  have hu : s.MacWrites u := s.mac_returnCharge _ _
  have hv : u.MacWrites v := by
    unfold v
    split
    · exact .refl u
    · split
      · exact u.mac_addCredit _ _ _
      · exact .refl u
  split
  · exact (hu.trans hv).trans (v.mac_setFe f rfl (.inl rfl))
  · exact hu.trans hv

/-- What a front end still holds is an ACK. -/
theorem State.mac_withdraw (s : State) (f : Fe) : s.MacWrites (s.withdraw f) :=
  s.mac_setFe f rfl (by
    dsimp only
    split
    · split
      · exact .inr rfl
      · exact .inl rfl
    · exact .inl rfl)

theorem State.mac_bulkSentBy (s : State) (f : Fe) (r : Retry) : s.MacWrites (s.bulkSentBy f r) :=
  (s.mac_setOrder _ _).trans (State.mac_releaseAll _ _)

theorem State.mac_frameDone (s : State) (f : Fe) (r : Retry) (e : Nat) : s.MacWrites (s.frameDone f r e) := by
  unfold State.frameDone
  split
  · exact (s.mac_bulkSentBy f r).count (by decide) _
  · dsimp only
    split
    · exact (s.mac_releaseChain _ _ _).trans (State.mac_pacedEnd _ _ _ _)
    · exact s.mac_releaseChain _ _ _

theorem State.mac_frameLost (s : State) (f : Fe) (r : Retry) {c : Ctr} (hc : c ∉ feCounters) : s.MacWrites (s.frameLost f r c) := by
  unfold State.frameLost
  split
  · exact (s.mac_bulkSentBy f r).count hc _
  · exact s.mac_discardFrame _ _ _ _ hc _

theorem State.mac_attemptFailed (s : State) (f : Fe) (r : Retry) {c : Ctr} (hc : c ∉ feCounters) : s.MacWrites (s.attemptFailed f r c) := by
  unfold State.attemptFailed
  dsimp only
  split
  · exact s.mac_frameLost f _ hc
  · split
    · exact s.mac_frameLost f _ (by decide)
    · exact s.mac_setFe f rfl (.inl rfl)

theorem State.mac_putBack (s : State) (f : Fe) (r : Retry) : s.MacWrites (s.putBack f r) := by
  unfold State.putBack
  dsimp only
  split
  · exact s.mac_setOrder _ _
  · split
    · split
      · exact s.mac_setFlow _
      · split
        · exact s.mac_discardFrame _ _ _ _ (by decide) _
        · exact s.mac_replace _
    · exact .refl s
  · exact .refl s
  · exact s.mac_setFe f rfl (.inl rfl)

theorem State.mac_accessFailed (s : State) (f : Fe) (a : Attempt) : s.MacWrites (s.accessFailed f a) := by
  unfold State.accessFailed
  extract_lets _ t
  have ht : s.MacWrites t := s.mac_setFe f rfl (.inl rfl)
  split
  · exact ht.trans (t.mac_attemptFailed f _ (by decide))
  · exact ht.trans (.ite (t.mac_skipBeacon f) (t.mac_setFe f rfl (.inl rfl)))
  · exact ht

theorem State.mac_backOff (s : State) (f : Fe) (a : Attempt) : s.MacWrites (s.backOff f a) :=
  State.MacWrites.trans (t := { s with rnd := s.rnd + 1 }) (.of_rest rfl rfl rfl rfl) (State.mac_setFe _ f rfl (.inl rfl))

theorem State.mac_csmaBusy (s : State) (f : Fe) : s.MacWrites (s.csmaBusy f) := by
  unfold State.csmaBusy
  split
  · exact .refl s
  · next a _ =>
    have h := (s.mac_withdraw f).trans ((s.withdraw f).mac_giveBack f a)
    dsimp only
    split
    · exact h.trans (State.mac_accessFailed _ f _)
    · exact h.trans (State.mac_backOff _ f _)

theorem State.mac_ackMeasured (s : State) (i : Nat) (ok : Bool) : s.MacWrites (s.ackMeasured i ok) := by
  unfold State.ackMeasured
  dsimp only
  split
  · exact .refl s
  · exact .of_rest rfl rfl rfl rfl

theorem State.mac_ackMissing (s : State) (f : Fe) (w : AckWait) : s.MacWrites (s.ackMissing f w) := by
  unfold State.ackMissing
  extract_lets _ t u
  have ht : s.MacWrites t := s.mac_setFe f rfl (.inl rfl)
  have hu : t.MacWrites u := by
    unfold u
    split
    · exact t.mac_ackMeasured _ _
    · exact .refl t
  exact (ht.trans hu).trans (u.mac_attemptFailed f _ (by decide))

theorem State.mac_downSent (s : State) (f : Fe) (a : Attempt) (r : Retry) (pending : Bool) (e : Nat) :
    s.MacWrites (s.downSent f a r pending e) := by
  unfold State.downSent
  extract_lets t _ u
  have ht : s.MacWrites t := by
    unfold t
    split
    · exact s.mac_pacedAir _ _
    · exact .refl s
  have hu : s.MacWrites u := ht.trans (t.mac_setFe f rfl (.inl rfl))
  split
  · exact hu.trans (u.mac_setFe f rfl (.inl rfl))
  · exact hu.trans (u.mac_frameDone f r e)

theorem State.mac_ackNotSent (s : State) (f : Fe) (q : TxReq) : s.MacWrites (s.ackNotSent f q) := by
  unfold State.ackNotSent
  have h := s.mac_returnCharge q.charge q.air
  dsimp only
  split
  · exact (h.trans (State.mac_ackOver _ _)).count (by decide) _
  · exact h.count (by decide) _

theorem State.mac_refused (s : State) (f : Fe) (q : TxReq) : s.MacWrites (s.refused f q) := by
  unfold State.refused
  split
  · exact s.mac_ackNotSent f q
  · split
    · exact .refl s
    · split
      · exact s.mac_csmaBusy f
      · exact (s.mac_giveBack f _).trans (State.mac_setFe _ f rfl (.inl rfl))

end Sys2Proof.Machine

namespace Sys2Proof.Machine

/-! # Receive blanked, lanes moved, and what stands beside a transmission -/

/-! ## Lanes that are cut (R57, R116, R132) -/

/-- Each lane hunts in u, or is as it was in s. -/
def State.Cuts (s u : State) : Prop := ∀ l, (u.lane l).phase = .hunt ∨ u.lane l = s.lane l

theorem State.Cuts.refl (s : State) : s.Cuts s := fun _ => .inr rfl

theorem State.Cuts.of_lanes {s u : State} (h : u.lanes = s.lanes) : s.Cuts u := fun l => .inr (State.lane_of_lanes h l)

theorem State.Cuts.trans {s t u : State} (h : s.Cuts t) (k : t.Cuts u) : s.Cuts u := fun l => by
  rcases k l with e | e
  · exact .inl e
  · rw [e]; exact h l

theorem State.Cuts.foldl {β : Type} {f : State → β → State} (h : ∀ s b, State.Cuts s (f s b)) (l : List β) (s : State) : s.Cuts (l.foldl f s) := by
  induction l generalizing s with
  | nil => exact .refl s
  | cons b l ih => exact (h s b).trans (ih (f s b))

/-- What a rewound lane becomes, its cells apart. -/
theorem State.lanes_rewindLane (s : State) (l : Nat) :
    ∃ x : LaneSt, x.phase = .hunt ∧ (s.rewindLane l).lanes = s.lanes.set l x := by
  have h : ∀ a n c w k, ((s.releaseChain a n c).leaveStaging w k).lanes = s.lanes := fun _ _ _ _ _ => by simp
  unfold State.rewindLane
  extract_lets x t
  have ht : t.lanes = s.lanes := by
    unfold t
    split
    · exact h _ _ _ _ _
    · rfl
  split
  · exact ⟨_, rfl, congrArg (fun y => Tbl.set y l _) ht⟩
  · exact ⟨_, rfl, congrArg (fun y => Tbl.set y l _) ht⟩

theorem State.lane_rewindLane (s : State) (l j : Nat) :
    if j = l then ((s.rewindLane l).lane j).phase = .hunt else (s.rewindLane l).lane j = s.lane j := by
  obtain ⟨x, hx, h⟩ := s.lanes_rewindLane l
  simp only [State.lane, h, Tbl.getD_set]
  split
  · exact hx
  · rfl

theorem State.cuts_rewindLane (s : State) (l : Nat) : s.Cuts (s.rewindLane l) := fun j => by
  have h := s.lane_rewindLane l j
  split at h
  · exact .inl h
  · exact .inr h

theorem State.mac_rewindLane (s : State) (l : Nat) : s.MacWrites (s.rewindLane l) := by
  unfold State.rewindLane
  extract_lets x t
  have ht : s.MacWrites t := by
    unfold t
    split
    · exact (s.mac_releaseChain _ _ _).trans (.of_rest rfl rfl rfl rfl)
    · exact .refl s
  exact ht.trans (.ite (.of_rest rfl rfl rfl rfl) (t.mac_setLane l _))

theorem State.cuts_cutLane (s : State) (l : Nat) (c : Ctr) : s.Cuts (s.cutLane l c) := by
  unfold State.cutLane
  split
  · exact .refl s
  · exact s.cuts_rewindLane l
  · exact s.cuts_rewindLane l

theorem State.mac_cutLane (s : State) (l : Nat) {c : Ctr} (hc : c ∉ feCounters) : s.MacWrites (s.cutLane l c) := by
  unfold State.cutLane
  split
  · exact .refl s
  · exact (s.mac_rewindLane l).count hc _
  · exact s.mac_rewindLane l

theorem State.mac_voidSensing (s : State) (f : Fe) : s.MacWrites (s.voidSensing f) := by
  unfold State.voidSensing
  dsimp only
  split
  · exact .ite (s.mac_setFe f rfl (.inl rfl)) (.refl s)
  · exact .refl s

@[simp] theorem State.lanes_voidSensing (s : State) (f : Fe) : (s.voidSensing f).lanes = s.lanes := by
  unfold State.voidSensing
  dsimp only
  split
  · split <;> rfl
  · rfl

theorem State.cuts_blankFe (s : State) (f : Fe) (c : Ctr) : s.Cuts (s.blankFe f c) :=
  (State.Cuts.foldl (fun s l => s.cuts_cutLane l c) (s.lanesOn f) s).trans (.of_lanes (State.lanes_voidSensing _ f))

theorem State.mac_blankFe (s : State) (f : Fe) {c : Ctr} (hc : c ∉ feCounters) : s.MacWrites (s.blankFe f c) :=
  (State.MacWrites.foldl (fun s l => s.mac_cutLane l hc) (s.lanesOn f) s).trans (State.mac_voidSensing _ f)

/-- One lane of a front end whose switch leaves receive at `off`: a frame that ends later is cut. -/
def State.cutFrom (off : Nat) (s : State) (l : Nat) : State :=
  match (s.laneNow l).phase with
  | .frame _ h => if off < h.endNs then (s.rewindLane l).count .rxCutTx (.lane l) else s
  | _ => s

theorem State.blankFrom_eq (s : State) (f : Fe) (off : Nat) : s.blankFrom f off = (s.lanesOn f).foldl (State.cutFrom off) (s.voidSensing f) := rfl

theorem State.cuts_cutFrom (off : Nat) (s : State) (l : Nat) : s.Cuts (s.cutFrom off l) := by
  unfold State.cutFrom
  split
  · split
    · exact s.cuts_rewindLane l
    · exact .refl s
  · exact .refl s

theorem State.mac_cutFrom (off : Nat) (s : State) (l : Nat) : s.MacWrites (s.cutFrom off l) := by
  unfold State.cutFrom
  split
  · exact .ite ((s.mac_rewindLane l).count (by decide) _) (.refl s)
  · exact .refl s

theorem State.cuts_blankFrom (s : State) (f : Fe) (off : Nat) : s.Cuts (s.blankFrom f off) :=
  (State.Cuts.of_lanes (s.lanes_voidSensing f)).trans (.foldl (State.cuts_cutFrom off) _ _)

theorem State.mac_blankFrom (s : State) (f : Fe) (off : Nat) : s.MacWrites (s.blankFrom f off) :=
  (s.mac_voidSensing f).trans (.foldl (State.mac_cutFrom off) _ _)

/-- The frame a lane holds past its header, where it has not yet ended. -/
theorem State.frameEndOf_some {s : State} {l e : Nat} (h : s.frameEndOf l = some e) :
    ∃ i p, (s.lane l).phase = .frame i p ∧ p.endNs = e ∧ s.netNs < e := by
  unfold State.frameEndOf at h
  split at h
  · next i p hp =>
    split at h
    · next hn => cases h; exact ⟨i, p, hp, rfl, hn⟩
    · cases h
  · cases h

theorem State.frameEndOf_of_lane {s u : State} {l : Nat} (h : u.lane l = s.lane l) (hn : u.netNs = s.netNs) : u.frameEndOf l = s.frameEndOf l := by
  simp only [State.frameEndOf, h, hn]

/-- A lane whose frame ends after the switch hunts. -/
theorem State.hunts_cutFrom {s : State} {l off e : Nat} (h : (s.lane l).phase = .hunt ∨ s.frameEndOf l = some e) (ho : off < e) :
    ((s.cutFrom off l).lane l).phase = .hunt := by
  rcases h with h | h
  · rcases s.cuts_cutFrom off l l with c | c
    · exact c
    · rw [c]; exact h
  · obtain ⟨i, p, hp, rfl, hn⟩ := State.frameEndOf_some h
    have hnow : (s.laneNow l).phase = .frame i p := by
      unfold State.laneNow
      simp only [hp]
      rw [if_neg (by omega), hp]
    have hr := s.lane_rewindLane l l
    rw [if_pos rfl] at hr
    unfold State.cutFrom
    simp only [hnow]
    rw [if_pos ho]
    exact hr

theorem State.hunts_of_cuts {s u : State} (h : s.Cuts u) {l : Nat} (hl : (s.lane l).phase = .hunt) : (u.lane l).phase = .hunt := by
  rcases h l with e | e
  · exact e
  · rw [e]; exact hl

theorem State.hunts_foldl_cutFrom {s : State} {l off e : Nat} {ls : List Nat} (hl : l ∈ ls)
    (h : (s.lane l).phase = .hunt ∨ s.frameEndOf l = some e) (ho : off < e) : ((ls.foldl (State.cutFrom off) s).lane l).phase = .hunt := by
  induction ls generalizing s with
  | nil => cases hl
  | cons j ls ih =>
    rw [List.foldl_cons]
    by_cases hj : l = j
    · subst hj
      exact State.hunts_of_cuts (.foldl (State.cuts_cutFrom off) ls _) (State.hunts_cutFrom h ho)
    · refine ih ((List.mem_cons.1 hl).resolve_left hj) ?_
      rcases s.cuts_cutFrom off j l with c | c
      · exact .inl c
      · rw [State.frameEndOf_of_lane c (s.mac_cutFrom off j).netNs, c]
        exact h

/-- From the switch on, the lanes of the front end whose frames end later hunt. -/
theorem State.hunts_blankFrom {s : State} {f : Fe} {l off e : Nat} (hl : l ∈ s.lanesOn f) (h : s.frameEndOf l = some e) (ho : off < e) :
    ((s.blankFrom f off).lane l).phase = .hunt := by
  rw [State.blankFrom_eq]
  refine State.hunts_foldl_cutFrom hl (.inr ?_) ho
  rw [State.frameEndOf_of_lane (State.lane_of_lanes (s.lanes_voidSensing f) l) (s.mac_voidSensing f).netNs]
  exact h

/-! ## Calibrations and hops (R62, R67) -/

/-- What tuning a front end writes of it: the channel it is parked on, and a calibration begun. -/
theorem State.tune_feSt (s : State) (f : Fe) : ∃ p c, (s.tune f).feSt f = { s.feSt f with parked := p, cal := c } := by
  unfold State.tune
  extract_lets x
  split
  · exact ⟨_, _, rfl⟩
  · split
    · exact ⟨_, _, rfl⟩
    · split
      · exact ⟨_, _, rfl⟩
      · split
        · exact ⟨_, _, State.feSt_setFe_self _ _ _⟩
        · exact ⟨_, _, State.feSt_setFe_self _ _ _⟩

/-- Without the front ends and Tally. -/
def State.sansFe (s : State) : State := { s with fe := { sa := {}, sb := {}, h := {} }, tally := [] }

theorem State.sansFe_tune (s : State) (f : Fe) : (s.tune f).sansFe = s.sansFe := by
  unfold State.tune
  extract_lets x
  split
  · rfl
  · split
    · rfl
    · split
      · rfl
      · split <;> rfl

theorem State.counter_tune (s : State) (f : Fe) {c : Ctr} (hc : c ≠ .feCal) (x : Scope) : (s.tune f).counter c x = s.counter c x := by
  unfold State.tune
  extract_lets y
  split
  · rfl
  · split
    · rfl
    · split
      · rfl
      · split
        · rfl
        · exact State.counter_count_ne _ _ _ hc

/-- Nothing held: nothing to tune for. -/
theorem State.tune_of_noHeld {s : State} {f : Fe} (h : (s.feSt f).held = none) : s.tune f = s := by
  unfold State.tune
  simp only [h]

/-- A front end on the way up for a request keeps what it holds and what is posted. -/
theorem State.comeUp_feSt (s : State) (f : Fe) (k : Nat) :
    ((s.comeUp f k).feSt f).held = (s.feSt f).held ∧ ((s.comeUp f k).feSt f).posted = (s.feSt f).posted := by
  unfold State.comeUp
  extract_lets x
  split <;> simp [State.beginCal, x, State.feSt]

theorem State.sansFe_count (s : State) (c : Ctr) (x : Scope) : (s.count c x).sansFe = s.sansFe := rfl

theorem State.sansFe_comeUp (s : State) (f : Fe) (k : Nat) : (s.comeUp f k).sansFe = s.sansFe := by
  have h : ∀ (x : FeSt) (n : Nat), ((s.setFe f x).beginCal f k n).sansFe = s.sansFe := fun _ _ => rfl
  unfold State.comeUp
  extract_lets x
  split
  · rw [State.sansFe_count]
    exact h _ _
  · rw [State.sansFe_count]
    exact h _ _
  · rfl

/-! ## The detector at the end of a frame (R74) -/

theorem State.detector_feSt (s : State) (f : Fe) (port : Nat) (r : DetReading) :
    ∃ a b, (s.detector f port r).feSt f = { s.feSt f with detA := a, detB := b } := by
  unfold State.detector
  split
  · exact ⟨_, _, rfl⟩
  · extract_lets x old new fresh raised d t u
    have ht : ∃ a b, t.feSt f = { s.feSt f with detA := a, detB := b } := by
      unfold t
      split
      · exact ⟨_, _, State.feSt_setFe_self _ _ _⟩
      · exact ⟨_, _, State.feSt_setFe_self _ _ _⟩
    have hu : u.fe = t.fe := by
      unfold u
      split <;> rfl
    split
    · rw [State.feSt_of_fe ((State.raise_fields u _ _ _).2.2.2.2.2.2.2.2.2.2.2.2.2.2.2.1.trans hu)]
      exact ht
    · rw [State.feSt_of_fe hu]
      exact ht

end Sys2Proof.Machine

namespace Sys2Proof.Machine

/-! # The course of a transmission -/

/-! ## Front ends between two writes -/

theorem State.feMode_setFe (s : State) (f : Fe) {x : FeSt} (hm : x.mode = (s.feSt f).mode) (he : x.lastEnd = (s.feSt f).lastEnd) :
    (s.setFe f x).feMode f = s.feMode f := by
  simp only [State.feMode, State.feSt_setFe_self, hm, he]
  rfl

theorem State.feSt_count (s : State) (c : Ctr) (x : Scope) (f : Fe) : (s.count c x).feSt f = s.feSt f := rfl

/-! ## A request is taken (R58, R66, R67) -/

/-- A request can be served at all (R66). -/
def State.serves (s : State) (f : Fe) (q : TxReq) : Prop :=
  s.feMode f ≠ .off ∧ s.portFitted f q.port = true ∧ q.channel < s.channels f

section Requests

variable {s : State} {f : Fe} {q : TxReq} {rest : List TxReq} {temp : Int}

theorem State.takeRequest_of_nothing (h : (s.feSt f).posted = []) : s.takeRequest f temp = s := by
  unfold State.takeRequest
  simp only [h]

/-- The front end with its oldest request taken from those posted, its temperature read. -/
def State.requestTaken (s : State) (f : Fe) (rest : List TxReq) (temp : Int) : State := s.setFe f { s.feSt f with posted := rest, temp := temp }

theorem State.feMode_requestTaken : (s.requestTaken f rest temp).feMode f = s.feMode f := s.feMode_setFe f rfl rfl

/-- One that cannot be served, or comes while another is held, is refused and counted. -/
theorem State.takeRequest_refuses (hp : (s.feSt f).posted = q :: rest) (h : ¬ s.serves f q ∨ (s.feSt f).held ≠ none) :
    s.takeRequest f temp = ((s.requestTaken f rest temp).count .feTxRefused (.fe (feCode f))).refused f q := by
  unfold State.takeRequest
  simp only [hp]
  rw [← State.requestTaken, State.feMode_requestTaken, if_pos]
  simp only [State.serves, not_and_or, ne_eq, not_not, not_lt] at h
  simp only [Bool.or_eq_true, beq_iff_eq, decide_eq_true_eq, Option.isSome_iff_ne_none, Bool.not_eq_true', ← Bool.not_eq_true, ne_eq]
  rcases h with (h | h | h) | h
  · exact .inl (.inl (.inl h))
  · exact .inl (.inl (.inr h))
  · exact .inl (.inr h)
  · exact .inr h

theorem State.takeRequest_ready (hp : (s.feSt f).posted = q :: rest) (hs : s.serves f q) (hh : (s.feSt f).held = none) :
    s.takeRequest f temp =
      if q.latest < (s.requestTaken f rest temp).ready f q.channel then
        ((s.requestTaken f rest temp).count .feTxLate (.fe (feCode f))).refused f q
      else
        (((s.requestTaken f rest temp).setFe f { (s.requestTaken f rest temp).feSt f with
          held := some { q with start := max q.target ((s.requestTaken f rest temp).ready f q.channel) }, idleSince := s.clk }).comeUp f
            q.channel).tune f := by
  obtain ⟨hm, hport, hchan⟩ := hs
  have hport' : (s.requestTaken f rest temp).portFitted f q.port = true := hport
  have hchan' : ¬ (s.requestTaken f rest temp).channels f ≤ q.channel := Nat.not_le.2 hchan
  unfold State.takeRequest
  simp only [hp]
  rw [← State.requestTaken, State.feMode_requestTaken, if_neg]
  · rfl
  · simp [hm, hport', hchan', hh]

/-- A request refused leaves no request held where none was. -/
theorem State.held_refused (h : (s.feSt f).held = none) : ((s.refused f q).feSt f).held = none := by
  rcases (s.mac_refused f q).held f with e | e
  · rw [e, h]
  · exact e

theorem State.takeRequest_accepted (hp : (s.feSt f).posted = q :: rest) (hs : s.serves f q) (hh : (s.feSt f).held = none)
    (hr : (s.requestTaken f rest temp).ready f q.channel ≤ q.latest) :
    ((s.takeRequest f temp).feSt f).held = some { q with start := max q.target ((s.requestTaken f rest temp).ready f q.channel) } ∧
      ((s.takeRequest f temp).feSt f).posted = rest ∧ (s.takeRequest f temp).sansFe = s.sansFe := by
  rw [State.takeRequest_ready hp hs hh, if_neg (Nat.not_lt.2 hr)]
  generalize (s.requestTaken f rest temp).ready f q.channel = r
  generalize hw : (s.requestTaken f rest temp).setFe f _ = w
  have hwf : w.feSt f = { s.feSt f with
      posted := rest, temp := temp, held := some { q with start := max q.target r }, idleSince := s.clk } := by
    rw [← hw, State.feSt_setFe_self, State.requestTaken, State.feSt_setFe_self]
  obtain ⟨p, c, ht⟩ := (w.comeUp f q.channel).tune_feSt f
  obtain ⟨hheld, hposted⟩ := w.comeUp_feSt f q.channel
  refine ⟨?_, ?_, ?_⟩
  · rw [ht]
    exact hheld.trans (by rw [hwf])
  · rw [ht]
    exact hposted.trans (by rw [hwf])
  · rw [State.sansFe_tune, State.sansFe_comeUp, ← hw]
    rfl

theorem State.takeRequest_late (hp : (s.feSt f).posted = q :: rest) (hs : s.serves f q) (hh : (s.feSt f).held = none)
    (hr : q.latest < (s.requestTaken f rest temp).ready f q.channel) :
    ((s.takeRequest f temp).feSt f).held = none ∧
      (s.takeRequest f temp).counter .feTxLate (.fe (feCode f)) = s.counter .feTxLate (.fe (feCode f)) + 1 := by
  rw [State.takeRequest_ready hp hs hh, if_pos hr]
  refine ⟨State.held_refused ?_, ?_⟩
  · rw [State.feSt_count, State.requestTaken, State.feSt_setFe_self]
    exact hh
  · rw [(State.mac_refused _ f q).counter _ (by decide), State.counter_count_self]
    rfl

theorem State.takeRequest_refused (hp : (s.feSt f).posted = q :: rest) (h : ¬ s.serves f q ∨ (s.feSt f).held ≠ none) :
    (s.takeRequest f temp).counter .feTxRefused (.fe (feCode f)) = s.counter .feTxRefused (.fe (feCode f)) + 1 := by
  rw [State.takeRequest_refuses hp h, (State.mac_refused _ f q).counter _ (by decide), State.counter_count_self]
  rfl

end Requests

/-! ## Its commit (R57, R68, R69, R78) -/

section Commit

variable {s : State} {f : Fe} {q : TxReq}

theorem State.txCommit_of_idle (h : (s.feSt f).held = none ∨ (s.feSt f).cur ≠ none) : s.txCommit f = s := by
  unfold State.txCommit
  dsimp only
  split
  · rfl
  · next q hq =>
    have hc : (s.feSt f).cur.isSome = true := Option.isSome_iff_ne_none.2 (h.resolve_left (by simp [hq]))
    simp [hc]

theorem State.txCommit_of_early (hq : (s.feSt f).held = some q) (h : s.decided f q = false ∨ s.netNs < s.commitOf f q.start) : s.txCommit f = s := by
  unfold State.txCommit
  simp only [hq]
  rw [if_pos]
  simpa [or_assoc] using Or.inr h

theorem State.txCommit_due (hq : (s.feSt f).held = some q) (hc : (s.feSt f).cur = none) (hd : s.decided f q = true)
    (hn : s.commitOf f q.start ≤ s.netNs) :
    s.txCommit f =
      if q.start < s.guardedStart f q then s.setFe f { s.feSt f with held := some { q with start := s.guardedStart f q } }
      else (if q.cls = .other ∧ (s.guardEnd f q).isSome then s.count .feGuardExpired (.fe (feCode f)) else s).commitStart f q := by
  unfold State.txCommit
  simp only [hq]
  rw [if_neg]
  simp [hc, hd, hn]

/-- What is fixed of the request at its commit. -/
theorem State.atCommit_eq (s : State) (f : Fe) (q : TxReq) :
    ∃ body psdu, s.atCommit f q = { q with body := body, psdu := psdu } ∧ ((∀ c e, q.body ≠ .beacon c e) → body = q.body ∧ psdu = q.psdu) := by
  unfold State.atCommit
  split
  · next c e h => exact ⟨_, _, rfl, fun hn => absurd h (hn c e)⟩
  · exact ⟨q.body, q.psdu, rfl, fun _ => ⟨rfl, rfl⟩⟩

/-- The front end from the commit on. -/
def State.committed (s : State) (f : Fe) (q : TxReq) : FeSt :=
  { s.feSt f with
    mode := .tx, cur := some (s.atCommit f q), wave := some (s.waveFor f (s.atCommit f q))
    beacon := if (s.atCommit f q).cls = .beacon then none else (s.feSt f).beacon, held := none, committed := true, blanks := s.crossShut f q
    parked := some (s.atCommit f q).channel
    table := (s.feSt f).table.map fun (e : CalEntry) => if e.channel = (s.atCommit f q).channel then { e with used := s.clk } else e
    lastPort := (s.atCommit f q).port, gain := s.startGain f (s.atCommit f q) }

theorem State.assignBegun_fields (s : State) (b : TxBody) :
    (s.assignBegun b).fe = s.fe ∧ (s.assignBegun b).lanes = s.lanes ∧ (s.assignBegun b).life = s.life ∧ (s.assignBegun b).time = s.time := by
  unfold State.assignBegun
  split
  · split
    · split <;> exact ⟨rfl, rfl, rfl, rfl⟩
    · exact ⟨rfl, rfl, rfl, rfl⟩
  · exact ⟨rfl, rfl, rfl, rfl⟩

/-- The front end written, and receive blanked from the switch on, its own and that of the front ends it cross-blanks. -/
def State.shutFor (s : State) (f : Fe) (q : TxReq) : State :=
  (s.crossBlanks f q).foldl (fun w g => w.blankFrom g (s.switchOff f q.start))
    ((s.setFe f (s.committed f q)).blankFrom f (s.switchOff f q.start))

theorem State.mac_shutFor (s : State) (f : Fe) (q : TxReq) : (s.setFe f (s.committed f q)).MacWrites (s.shutFor f q) :=
  (State.mac_blankFrom _ f _).trans (.foldl (fun w g => w.mac_blankFrom g _) _ _)

theorem State.cuts_shutFor (s : State) (f : Fe) (q : TxReq) :
    ((s.setFe f (s.committed f q)).blankFrom f (s.switchOff f q.start)).Cuts (s.shutFor f q) :=
  .foldl (fun w g => w.cuts_blankFrom g _) _ _

/-- Beyond that a commit writes Tally, and Canopy where an assignment goes out with it. -/
theorem State.commitStart_fields (s : State) (f : Fe) (q : TxReq) :
    (s.commitStart f q).fe = (s.shutFor f q).fe ∧ (s.commitStart f q).lanes = (s.shutFor f q).lanes ∧
      (s.commitStart f q).life = (s.shutFor f q).life ∧ (s.commitStart f q).time = (s.shutFor f q).time := by
  have h : s.commitStart f q = (if (s.crossBlanks f q).isEmpty then s.shutFor f q
      else (s.shutFor f q).count .feCrossBlank (.fe (feCode f))).assignBegun (s.atCommit f q).body := rfl
  obtain ⟨hf, hl, hi, ht⟩ := State.assignBegun_fields (if (s.crossBlanks f q).isEmpty then s.shutFor f q
    else (s.shutFor f q).count .feCrossBlank (.fe (feCode f))) (s.atCommit f q).body
  rw [h, hf, hl, hi, ht]
  split <;> exact ⟨rfl, rfl, rfl, rfl⟩

theorem State.switchOff_of_life {s u : State} (h : u.life = s.life) (f : Fe) (n : Nat) : u.switchOff f n = s.switchOff f n := by
  have hr : u.recs = s.recs := by simp only [State.recs, h]
  simp only [State.switchOff, State.rampUs, State.cfgN, State.cfg, hr]

/-- What a commit fixes, of the front end and of its lanes. -/
structure State.Fixes (s : State) (f : Fe) (q : TxReq) (u : State) : Prop where
  cur : (u.feSt f).cur = some (s.atCommit f q)
  held : (u.feSt f).held = none
  mode : (u.feSt f).mode = .tx
  parked : (u.feSt f).parked = some q.channel
  wave : (u.feSt f).wave = some (s.waveFor f (s.atCommit f q))
  cut : ∀ l ∈ s.lanesOn f, ∀ e, s.frameEndOf l = some e → s.switchOff f q.start < e → (u.lane l).phase = .hunt
  blanked : s.switchOff f q.start ≤ s.netNs → u.blanked f = true

theorem State.commitStart_fixes (s : State) (f : Fe) (q : TxReq) : s.Fixes f q (s.commitStart f q) := by
  obtain ⟨hfe, hlanes, hlife, htime⟩ := s.commitStart_fields f q
  obtain ⟨body, psdu, hat, -⟩ := s.atCommit_eq f q
  have hm := s.mac_shutFor f q
  have hx : ((s.commitStart f q).feSt f).sansMac = (s.committed f q).sansMac := by
    rw [State.feSt_of_fe hfe, hm.fe f, State.feSt_setFe_self]
  have hcur : ((s.commitStart f q).feSt f).cur = some (s.atCommit f q) := (congrArg FeSt.cur hx :)
  refine ⟨hcur, ?_, (congrArg FeSt.mode hx :), ?_, (congrArg FeSt.wave hx :), fun l hl e he ho => ?_, fun ho => ?_⟩
  · rw [State.feSt_of_fe hfe]
    rcases hm.held f with h | h
    · rw [h, State.feSt_setFe_self]
      rfl
    · exact h
  · have hp : ((s.commitStart f q).feSt f).parked = some (s.atCommit f q).channel := (congrArg FeSt.parked hx :)
    rw [hp, hat]
  · rw [State.lane_of_lanes hlanes]
    exact State.hunts_of_cuts (s.cuts_shutFor f q) (State.hunts_blankFrom (s := s.setFe f (s.committed f q)) hl he ho)
  · have hl : (s.commitStart f q).life = s.life := hlife.trans (congrArg State.life hm.rest :)
    have hoff : (s.commitStart f q).switchOff f (s.atCommit f q).start = s.switchOff f q.start := by
      rw [hat, State.switchOff_of_life hl]
    have hnow : (s.commitStart f q).netNs = s.netNs := by
      have h : (s.commitStart f q).time = s.time := htime.trans (congrArg State.time hm.rest :)
      simp only [State.netNs, h]
    have haway : (s.commitStart f q).away f = true := by
      simp only [State.away, hcur, hoff, hnow, ho, decide_true, Bool.true_or]
    simp only [State.blanked, haway, Bool.true_or]

/-- A request whose guard leaves its start is committed. -/
theorem State.txCommit_fixes (hq : (s.feSt f).held = some q) (hc : (s.feSt f).cur = none) (hd : s.decided f q = true)
    (hn : s.commitOf f q.start ≤ s.netNs) (hg : s.guardedStart f q = q.start) : s.Fixes f q (s.txCommit f) := by
  rw [State.txCommit_due hq hc hd hn, if_neg (by omega)]
  split
  · obtain ⟨h₁, h₂, h₃, h₄, h₅, h₆, h₇⟩ := (s.count .feGuardExpired (.fe (feCode f))).commitStart_fixes f q
    exact ⟨h₁, h₂, h₃, h₄, h₅, h₆, h₇⟩
  · exact s.commitStart_fixes f q

end Commit

/-! ## Its end (R67, R72, R74) -/

section End

variable {s : State} {f : Fe} {q : TxReq} {samples : List Int} {det : DetReading}

theorem State.mac_macSent (s : State) (f : Fe) (q : TxReq) (e : Nat) : s.MacWrites (s.macSent f q e) := by
  unfold State.macSent
  split
  · dsimp only
    split
    · exact (s.mac_ackOver _).trans (State.mac_openCont _ _)
    · exact s.mac_ackOver _
  · exact s.mac_setFe f rfl (.inl rfl)
  · split
    · split
      · exact s.mac_downSent f _ _ _ _
      · exact .refl s
    · exact .refl s
  · exact s.mac_setFe f rfl (.inl rfl)

/-- Once its ACK has gone out, a lane owes none. -/
theorem State.ackOwed_macSent {l : Nat} {dst : Addr} {n : Option (BitVec 8)} {pending : Bool} (h : q.body = .ack l dst n pending) (e : Nat) :
    ((s.macSent f q e).lane l).ackOwed = false := by
  have ho : ((s.ackOver l).lane l).ackOwed = false := by simp [State.ackOver]
  unfold State.macSent
  simp only [h]
  split <;> exact ho

/-- The front end as its frame ends. -/
def State.leaves (s : State) (f : Fe) (q : TxReq) (samples : List Int) : FeSt :=
  { s.feSt f with
    mode := .leaving, cur := none, wave := none, committed := false, lastEnd := q.start + q.air * 1000
    gains := storeGain (s.feSt f).gains q.port q.power (s.endGain f q samples), idleSince := s.clk }

theorem State.txEnd_of_early (h : (s.feSt f).cur = some q) (hn : s.netNs < q.start + q.air * 1000) : s.txEnd f samples det = s := by
  unfold State.txEnd
  simp only [h, if_pos hn]

theorem State.txEnd_due (h : (s.feSt f).cur = some q) (hn : q.start + q.air * 1000 ≤ s.netNs) :
    s.txEnd f samples det = ((((s.setFe f (s.leaves f q samples)).detector f q.port det).lastTx f q (q.start + q.air * 1000)).macSent f q
      (q.start + q.air * 1000)).tune f := by
  unfold State.txEnd
  simp only [h, if_neg (Nat.not_lt.2 hn)]
  rfl

theorem State.fe_lastTx (s : State) (f : Fe) (q : TxReq) (e : Nat) : (s.lastTx f q e).fe = s.fe := by
  unfold State.lastTx
  split <;> rfl

theorem State.txEnd_feSt (h : (s.feSt f).cur = some q) (hn : q.start + q.air * 1000 ≤ s.netNs) :
    ((s.txEnd f samples det).feSt f).cur = none ∧ ((s.txEnd f samples det).feSt f).wave = none ∧
      ((s.txEnd f samples det).feSt f).mode = .leaving ∧ ((s.txEnd f samples det).feSt f).lastEnd = q.start + q.air * 1000 ∧
      (q.port, q.power, s.endGain f q samples) ∈ ((s.txEnd f samples det).feSt f).gains := by
  rw [State.txEnd_due h hn]
  generalize hv : ((s.setFe f (s.leaves f q samples)).detector f q.port det).lastTx f q (q.start + q.air * 1000) = v
  obtain ⟨a, b, hd⟩ := (s.setFe f (s.leaves f q samples)).detector_feSt f q.port det
  rw [State.feSt_setFe_self] at hd
  have hvf : v.feSt f = { s.leaves f q samples with detA := a, detB := b } := by
    rw [← hv, State.feSt_of_fe (State.fe_lastTx _ _ _ _), hd]
  have hx : ((v.macSent f q (q.start + q.air * 1000)).feSt f).sansMac =
      ({ s.leaves f q samples with detA := a, detB := b } : FeSt).sansMac := by
    rw [(v.mac_macSent f q _).fe f, hvf]
  obtain ⟨p, c, ht⟩ := (v.macSent f q (q.start + q.air * 1000)).tune_feSt f
  rw [ht]
  have hgains : ((v.macSent f q (q.start + q.air * 1000)).feSt f).gains = (s.leaves f q samples).gains := (congrArg FeSt.gains hx :)
  refine ⟨(congrArg FeSt.cur hx :), (congrArg FeSt.wave hx :), (congrArg FeSt.mode hx :), (congrArg FeSt.lastEnd hx :), ?_⟩
  show _ ∈ ((v.macSent f q (q.start + q.air * 1000)).feSt f).gains
  rw [hgains]
  exact List.mem_append_right _ (List.mem_singleton.2 rfl)

theorem State.txEnd_ackOwed (h : (s.feSt f).cur = some q) (hn : q.start + q.air * 1000 ≤ s.netNs) {l : Nat} {dst : Addr}
    {n : Option (BitVec 8)} {pending : Bool} (hb : q.body = .ack l dst n pending) : ((s.txEnd f samples det).lane l).ackOwed = false := by
  have hl : ∀ u : State, (u.tune f).lanes = u.lanes := fun u => (congrArg State.lanes (u.sansFe_tune f) :)
  rw [State.txEnd_due h hn, State.lane_of_lanes (hl _)]
  exact State.ackOwed_macSent hb _

end End

/-! ## Its abort (R73) -/

section Overpower

variable {s : State} {f : Fe} {q : TxReq}

/-- Aborts of the last second, the present one among them. -/
def State.abortsNow (s : State) (f : Fe) : List Nat := ((s.feSt f).overpowers.filter fun k => decide (s.clk < k + secTicks 1)) ++ [s.clk]

theorem State.length_abortsNow (s : State) (f : Fe) :
    (s.abortsNow f).length = ((s.feSt f).overpowers.filter fun k => decide (s.clk < k + 250000000)).length + 1 := List.length_append

/-- The front end as its frame is aborted. -/
def State.aborted (s : State) (f : Fe) : FeSt :=
  { s.feSt f with
    mode := .leaving, cur := none, wave := none, committed := false, lastEnd := s.netNs, overpowers := s.abortsNow f, idleSince := s.clk }

/-- What the MAC does of a frame aborted: an ACK is over, another counts as not sent. -/
def State.macAborts (s : State) (f : Fe) (q : TxReq) : State :=
  match q.body with
  | .ack l _ _ _ => s.ackOver l
  | b =>
    let s := match b with
      | .down d _ => (d.packet.map fun k => s.pacedAir k ((s.netNs - q.start) / 1000)).getD s
      | _ => s
    (s.setFe f { s.feSt f with attempt := (s.feSt f).attempt.map fun (a : Attempt) => { a with admitted := none, credit := 0 } }).csmaBusy f

theorem State.mac_macAborts (s : State) (f : Fe) (q : TxReq) : s.MacWrites (s.macAborts f q) := by
  have hbusy : ∀ t : State, t.MacWrites ((t.setFe f { t.feSt f with
      attempt := (t.feSt f).attempt.map fun (a : Attempt) => { a with admitted := none, credit := 0 } }).csmaBusy f) := by
    intro t
    refine State.MacWrites.trans ?_ (State.mac_csmaBusy _ f)
    exact t.mac_setFe f rfl (.inl rfl)
  unfold State.macAborts
  split
  · exact s.mac_ackOver _
  · refine State.MacWrites.trans ?_ (hbusy _)
    split
    · next d _ _ =>
      cases d.packet with
      | none => exact .refl s
      | some k => exact s.mac_pacedAir k _
    · exact .refl s

theorem State.overpower_of_nothing (h : (s.feSt f).cur = none) : s.overpower f = s := by
  unfold State.overpower
  simp only [h]

theorem State.overpower_eq (h : (s.feSt f).cur = some q) :
    s.overpower f =
      let u := (((s.setFe f (s.aborted f)).count .feOverpowerAbort (.fe (feCode f))).lastTx f q s.netNs).macAborts f q
      if (s.abortsNow f).length ≥ 3 then u.feFault f 4 else u.tune f := by
  unfold State.overpower
  simp only [h]
  rfl

theorem State.counter_lastTx (s : State) (f : Fe) (q : TxReq) (e : Nat) (c : Ctr) (x : Scope) : (s.lastTx f q e).counter c x = s.counter c x := by
  unfold State.lastTx
  split <;> rfl

/-- The aborted front end, but for what the MAC keeps of it, once the MAC has seen the abort. -/
theorem State.macAborts_feSt (s : State) (f : Fe) (q : TxReq) :
    (((((s.setFe f (s.aborted f)).count .feOverpowerAbort (.fe (feCode f))).lastTx f q s.netNs).macAborts f q).feSt f).sansMac =
      (s.aborted f).sansMac := by
  rw [(State.mac_macAborts _ f q).fe f, State.feSt_of_fe (State.fe_lastTx _ _ _ _), State.feSt_count, State.feSt_setFe_self]

/-- Fewer than three aborts within 1 s: the front end leaves TX. -/
theorem State.overpower_leaves (h : (s.feSt f).cur = some q) (hn : (s.abortsNow f).length < 3) :
    ((s.overpower f).feSt f).cur = none ∧ ((s.overpower f).feSt f).mode = .leaving ∧ ((s.overpower f).feSt f).lastEnd = s.netNs ∧
      (s.overpower f).counter .feOverpowerAbort (.fe (feCode f)) = s.counter .feOverpowerAbort (.fe (feCode f)) + 1 := by
  have hx := s.macAborts_feSt f q
  rw [State.overpower_eq h]
  dsimp only
  rw [if_neg (Nat.not_le.2 hn)]
  obtain ⟨p, c, ht⟩ := State.tune_feSt ((((s.setFe f (s.aborted f)).count .feOverpowerAbort (.fe (feCode f))).lastTx f q s.netNs).macAborts f q) f
  rw [ht, State.counter_tune _ _ (by decide), (State.mac_macAborts _ f q).counter _ (by decide), State.counter_lastTx, State.counter_count_self]
  exact ⟨(congrArg FeSt.cur hx :), (congrArg FeSt.mode hx :), (congrArg FeSt.lastEnd hx :), rfl⟩

/-- A front end mapped out (Table 18.6). -/
theorem State.feSt_feFault {s : State} {f : Fe} (h : (s.feSt f).faulty = false) (cause : Nat) :
    (s.feFault f cause).feSt f = { ((s.macOff f).feOff f).feSt f with faulty := true } := by
  unfold State.feFault
  rw [if_neg (by simp [h])]
  dsimp only
  rw [State.unitLost, State.feSt_of_fe (State.raise_fields _ _ _ _).2.2.2.2.2.2.2.2.2.2.2.2.2.2.2.1, State.feSt_count]
  exact State.feSt_setFe_self _ _ _

theorem State.faulty_feFault (s : State) (f : Fe) (cause : Nat) : ((s.feFault f cause).feSt f).faulty = true := by
  by_cases h : (s.feSt f).faulty = true
  · rw [State.feFault, if_pos h]
    exact h
  · rw [State.feSt_feFault (by simpa using h)]

theorem State.feSt_feOff (s : State) (f : Fe) : ((s.feOff f).feSt f).mode = .off ∧ ((s.feOff f).feSt f).cur = none := by
  rw [State.feOff, State.feSt_setFe_self]
  exact ⟨rfl, rfl⟩

/-- The third within 1 s makes a sound front end faulty. -/
theorem State.overpower_faults (h : (s.feSt f).cur = some q) (hn : 3 ≤ (s.abortsNow f).length) (hs : (s.feSt f).faulty = false) :
    ((s.overpower f).feSt f).faulty = true ∧ ((s.overpower f).feSt f).mode = .off ∧ ((s.overpower f).feSt f).cur = none := by
  have hx := s.macAborts_feSt f q
  rw [State.overpower_eq h]
  dsimp only
  rw [if_pos hn, State.feSt_feFault ((congrArg FeSt.faulty hx).trans hs :)]
  exact ⟨rfl, State.feSt_feOff _ f⟩

end Overpower

/-- Settles O41: each row by the lemmas about the operation it is, clause by clause. -/
theorem courseOfATransmission : Obligations.CourseOfATransmission := by
  unfold Obligations.CourseOfATransmission
  intro dt f s temp excess samples det q rest a b t x v sc able
  have onTick : ∀ u : State, t.radio = true → u = t.takeRequest f temp → exec (.transmitRequest dt f temp) s = .next u := by
    rintro u hr rfl
    exact congrArg Host.Outcome.next (if_pos hr)
  have onExcess : 12 < excess → exec (.overpowerAbort dt f excess) s = .next (t.overpower f) := fun h =>
    congrArg Host.Outcome.next (if_pos (decide_eq_true h))
  refine ⟨fun hr hp => ⟨fun ha hh hl => ?_, fun ha hh hl => ?_, fun h => ?_⟩, fun h => ?_, fun hq hc hd hn => ⟨fun hg => ?_, fun hg => ?_⟩,
    fun h => ?_, fun hq h => ?_, fun hq hn => ?_, fun hq hn => ?_, fun hq he => ⟨fun hn => ?_, fun ho ha hb hs => ?_⟩, fun h => ?_⟩
  · obtain ⟨hheld, hposted, hrest⟩ := State.takeRequest_accepted (temp := temp) hp ha hh hl
    exact ⟨_, onTick _ hr rfl, hheld, hposted, (congrArg State.queues hrest :), (congrArg State.mac hrest :), (congrArg State.lanes hrest :)⟩
  · exact ⟨_, onTick _ hr rfl, State.takeRequest_late hp ha hh hl⟩
  · exact ⟨_, onTick _ hr rfl, State.takeRequest_refused hp h⟩
  · refine congrArg Host.Outcome.next ?_
    show (if t.radio = true then t.takeRequest f temp else t) = t
    rcases h with h | h
    · rw [if_neg (by simp [h])]
    · rw [State.takeRequest_of_nothing h, ite_self]
  · obtain ⟨hcur, hheld, hmode, hparked, hwave, hcut, hblank⟩ := State.txCommit_fixes hq hc hd hn hg
    obtain ⟨body, psdu, hat, hbody⟩ := t.atCommit_eq f q
    exact ⟨_, body, psdu, rfl, hcur.trans (congrArg some hat), hheld, hmode, hparked, hwave, hbody, hcut, hblank⟩
  · refine congrArg Host.Outcome.next ?_
    rw [State.txCommit_due hq hc hd hn, if_pos hg]
  · exact congrArg Host.Outcome.next (State.txCommit_of_idle h)
  · exact congrArg Host.Outcome.next (State.txCommit_of_early hq h)
  · obtain ⟨hcur, hwave, hmode, hend, hgain⟩ := State.txEnd_feSt (samples := samples) (det := det) hq hn
    exact ⟨_, rfl, hcur, hwave, hmode, hend, hgain, fun l dst n pend hb => State.txEnd_ackOwed hq hn hb⟩
  · exact congrArg Host.Outcome.next (State.txEnd_of_early hq hn)
  · exact ⟨_, onExcess he, State.overpower_leaves hq (by rw [State.length_abortsNow]; exact Nat.succ_lt_succ hn)⟩
  · have h3 : (t.abortsNow f).length = 3 := by
      have ho' : (t.feSt f).overpowers = [a, b] := ho
      rw [State.length_abortsNow, ho']
      simp [ha, hb]
    obtain ⟨hfaulty, hmode, hcur⟩ := State.overpower_faults hq h3.ge hs
    exact ⟨_, onExcess he, hfaulty, hmode, hcur⟩
  · refine congrArg Host.Outcome.next ?_
    show (if decide (12 < excess) = true then t.overpower f else t) = t
    rcases h with h | h
    · rw [if_neg (by simpa using h)]
    · rw [State.overpower_of_nothing h, ite_self]

end Sys2Proof.Machine

namespace Sys2Proof.Machine

/-! # Calibrations, sleep and wake of a front end -/

theorem State.setFe_setFe (s : State) (f : Fe) (x y : FeSt) : (s.setFe f x).setFe f y = s.setFe f y := by cases f <;> rfl

/-! ## Background calibration (R62, R63) -/

section Background

variable {s : State} {f : Fe} {temp : Int}

/-- The front end has nothing to send and no calibration running (R63). -/
def State.calIdle (s : State) (f : Fe) : Prop :=
  (s.feMode f = .rx ∨ s.feMode f = .synthOn) ∧ (s.feSt f).posted = [] ∧ (s.feSt f).held = none ∧ (s.feSt f).cur = none ∧ (s.feSt f).cal = none

/-- The same, as the model tests it. -/
def State.calAble (s : State) (f : Fe) : Bool :=
  (s.feMode f == .rx || s.feMode f == .synthOn) && (s.feSt f).posted.isEmpty && (s.feSt f).held.isNone && (s.feSt f).cur.isNone &&
    (s.feSt f).cal.isNone

theorem State.calAble_iff (s : State) (f : Fe) : s.calAble f = true ↔ s.calIdle f := by
  simp only [State.calAble, State.calIdle, Bool.and_eq_true, Bool.or_eq_true, beq_iff_eq, List.isEmpty_iff, Option.isNone_iff_eq_none, and_assoc]

theorem State.backCal_of_busy (h : ¬ s.calIdle f) : s.backCal f temp = s := by
  have hn : (!s.calAble f) = true := by simpa using (State.calAble_iff s f).not.2 h
  unfold State.backCal
  exact if_pos hn

theorem State.beginCal_setFe (s : State) (f : Fe) (x : FeSt) (k start : Nat) :
    (s.setFe f x).beginCal f k start = (s.setFe f { x with cal := some (k, start + usTicks 36) }).count .feCal (.fe (feCode f)) := by
  rw [State.beginCal, State.feSt_setFe_self, State.setFe_setFe]

/-- The channel a background calibration takes: the next of the pass, then the stale one most recently used. -/
def State.calNext (s : State) (f : Fe) (temp : Int) : Option Nat :=
  match (s.feSt f).pass with
  | k :: _ => some k
  | [] => (staleEntry ((s.feSt f).table.filter fun e => decide (s.tempRecal f < tempDiff e.temp temp))).map fun e => e.channel

theorem State.backCal_begins {k : Nat} (h : s.calIdle f) (hk : s.calNext f temp = some k) :
    s.backCal f temp = (s.setFe f { s.feSt f with temp := temp, cal := some (k, s.clk + 9000) }).count .feCal (.fe (feCode f)) := by
  have hn : ¬ (!s.calAble f) = true := by simpa using (State.calAble_iff s f).2 h
  unfold State.calNext at hk
  unfold State.backCal
  extract_lets x able v
  refine (if_neg hn).trans ?_
  split at hk
  · next j rest hp =>
    cases hk
    have hp' : x.pass = k :: rest := hp
    refine Eq.trans ?_ (s.beginCal_setFe f { s.feSt f with temp := temp } k s.clk)
    simp only [hp']
    rfl
  · next hp =>
    obtain ⟨e, hs, rfl⟩ := Option.map_eq_some_iff.1 hk
    have hp' : x.pass = [] := hp
    have hs' : staleEntry (x.table.filter fun e => decide (v.tempRecal f < tempDiff e.temp temp)) = some e := hs
    refine Eq.trans ?_ (s.beginCal_setFe f { s.feSt f with temp := temp } e.channel s.clk)
    simp only [hp', hs']
    rfl

theorem State.backCal_reads (h : s.calIdle f) (hk : s.calNext f temp = none) : s.backCal f temp = s.setFe f { s.feSt f with temp := temp } := by
  have hn : ¬ (!s.calAble f) = true := by simpa using (State.calAble_iff s f).2 h
  unfold State.calNext at hk
  unfold State.backCal
  extract_lets x able v
  refine (if_neg hn).trans ?_
  split at hk
  · cases hk
  · next hp =>
    have hp' : x.pass = [] := hp
    have hs' : staleEntry (x.table.filter fun e => decide (v.tempRecal f < tempDiff e.temp temp)) = none := Option.map_eq_none_iff.1 hk
    refine Eq.trans (b := v) ?_ rfl
    simp only [hp', hs']

end Background

/-! ## The end of a calibration (R62, R64) -/

section Complete

variable {s : State} {f : Fe} {temp : Int} {k e : Nat}

/-- Going on to RX writes the front end's state and since when it is idle. -/
theorem State.toRx_feSt (s : State) (f : Fe) : ∃ m n, (s.toRx f).feSt f = { s.feSt f with mode := m, idleSince := n } := by
  unfold State.toRx
  dsimp only
  split
  · exact ⟨_, _, State.feSt_setFe_self _ _ _⟩
  · exact ⟨_, _, rfl⟩

/-- The receive synthesiser's calibration, where its time has run. -/
def State.rxCalEnd (s : State) (f : Fe) (temp : Int) : State :=
  match (s.feSt f).rxCal with
  | some e => if e ≤ s.clk then s.setFe f { s.feSt f with rxCal := none, rxTemp := temp, temp := temp, rxDue := none } else s
  | none => s

/-- The transmit synthesiser's, which enters a channel of the slice into the table. -/
def State.txCalEnd (s : State) (f : Fe) (temp : Int) : State :=
  let x := s.feSt f
  match x.cal with
  | some (k, e) =>
    if s.clk < e then s
    else if s.channels f ≤ k then ((s.setFe f { x with cal := none, temp := temp, parked := none }).tune f).toRx f
    else ((s.setFe f { x with
      cal := none, table := calInsert x.table k temp, temp := temp, parked := some k, pass := x.pass.filter fun j => j != k }).tune f).toRx f
  | none => s

theorem State.calDone_eq (s : State) (f : Fe) (temp : Int) : s.calDone f temp = (s.rxCalEnd f temp).txCalEnd f temp := rfl

theorem State.rxCalEnd_due (h : (s.feSt f).rxCal = some e) (he : e ≤ s.clk) :
    s.rxCalEnd f temp = s.setFe f { s.feSt f with rxCal := none, rxTemp := temp, temp := temp, rxDue := none } := by
  simp only [State.rxCalEnd, h, if_pos he]

/-- It writes of the front end what it calibrates. -/
theorem State.rxCalEnd_feSt (s : State) (f : Fe) (temp : Int) :
    ∃ a b c d, (s.rxCalEnd f temp).feSt f = { s.feSt f with rxCal := a, rxTemp := b, temp := c, rxDue := d } := by
  unfold State.rxCalEnd
  split
  · split
    · exact ⟨_, _, _, _, State.feSt_setFe_self _ _ _⟩
    · exact ⟨_, _, _, _, rfl⟩
  · exact ⟨_, _, _, _, rfl⟩

theorem State.rxCalEnd_fields (s : State) (f : Fe) (temp : Int) : (s.rxCalEnd f temp).clk = s.clk ∧ (s.rxCalEnd f temp).channels f = s.channels f := by
  unfold State.rxCalEnd
  split
  · split <;> exact ⟨rfl, rfl⟩
  · exact ⟨rfl, rfl⟩

/-- Going on after a calibration writes the channel parked on, a calibration begun, the front end's state and since when it is idle. -/
theorem State.goOn_feSt (s : State) (f : Fe) :
    ∃ p c m n, ((s.tune f).toRx f).feSt f = { s.feSt f with parked := p, cal := c, mode := m, idleSince := n } := by
  obtain ⟨p, c, ht⟩ := s.tune_feSt f
  obtain ⟨m, n, hx⟩ := (s.tune f).toRx_feSt f
  exact ⟨p, c, m, n, by rw [hx, ht]⟩

/-- With nothing held it goes on to no other channel. -/
theorem State.goOn_of_noHeld (h : (s.feSt f).held = none) :
    (((s.tune f).toRx f).feSt f).cal = (s.feSt f).cal ∧ (((s.tune f).toRx f).feSt f).parked = (s.feSt f).parked := by
  rw [State.tune_of_noHeld h]
  obtain ⟨m, n, hx⟩ := s.toRx_feSt f
  rw [hx]
  exact ⟨rfl, rfl⟩

/-- The receive synthesiser is as it was. -/
theorem State.txCalEnd_rx (s : State) (f : Fe) (temp : Int) :
    ((s.txCalEnd f temp).feSt f).rxCal = (s.feSt f).rxCal ∧ ((s.txCalEnd f temp).feSt f).rxTemp = (s.feSt f).rxTemp := by
  have on : ∀ x : FeSt, (((s.setFe f x).tune f).toRx f).feSt f = { x with
      parked := ((((s.setFe f x).tune f).toRx f).feSt f).parked, cal := ((((s.setFe f x).tune f).toRx f).feSt f).cal
      mode := ((((s.setFe f x).tune f).toRx f).feSt f).mode, idleSince := ((((s.setFe f x).tune f).toRx f).feSt f).idleSince } := by
    intro x
    obtain ⟨p, c, m, n, hx⟩ := (s.setFe f x).goOn_feSt f
    rw [State.feSt_setFe_self] at hx
    rw [hx]
  unfold State.txCalEnd
  dsimp only
  split
  · split
    · exact ⟨rfl, rfl⟩
    · split
      · rw [on]; exact ⟨rfl, rfl⟩
      · rw [on]; exact ⟨rfl, rfl⟩
  · exact ⟨rfl, rfl⟩

theorem State.calDone_rx (h : (s.feSt f).rxCal = some e) (he : e ≤ s.clk) :
    ((s.calDone f temp).feSt f).rxCal = none ∧ ((s.calDone f temp).feSt f).rxTemp = temp := by
  obtain ⟨hc, ht⟩ := (s.rxCalEnd f temp).txCalEnd_rx f temp
  rw [State.calDone_eq, hc, ht, State.rxCalEnd_due h he, State.feSt_setFe_self]
  exact ⟨rfl, rfl⟩

/-- The state in which a calibration of the transmit synthesiser ends. -/
theorem State.rxCalEnd_cal (s : State) (f : Fe) (temp : Int) :
    ((s.rxCalEnd f temp).feSt f).cal = (s.feSt f).cal ∧ ((s.rxCalEnd f temp).feSt f).table = (s.feSt f).table ∧
      ((s.rxCalEnd f temp).feSt f).pass = (s.feSt f).pass ∧ ((s.rxCalEnd f temp).feSt f).held = (s.feSt f).held := by
  obtain ⟨a, b, c, d, hx⟩ := s.rxCalEnd_feSt f temp
  rw [hx]
  exact ⟨rfl, rfl, rfl, rfl⟩

/-- A calibration entered stands in the table at its temperature. -/
theorem mem_calInsert (l : List CalEntry) (k : Nat) (temp : Int) : ∃ c ∈ calInsert l k temp, c.channel = k ∧ c.temp = temp :=
  ⟨_, List.mem_append_right _ (List.mem_singleton.2 rfl), rfl, rfl⟩

/-- The calibration of a channel of the slice is entered. -/
theorem State.calDone_enters (h : (s.feSt f).cal = some (k, e)) (he : e ≤ s.clk) (hk : k < s.channels f) :
    (∃ c ∈ ((s.calDone f temp).feSt f).table, c.channel = k ∧ c.temp = temp) ∧ k ∉ ((s.calDone f temp).feSt f).pass ∧
      ((s.feSt f).held = none → ((s.calDone f temp).feSt f).cal = none ∧ ((s.calDone f temp).feSt f).parked = some k) := by
  obtain ⟨hclk, hchan⟩ := s.rxCalEnd_fields f temp
  obtain ⟨hcal, -, -, hheld⟩ := s.rxCalEnd_cal f temp
  rw [State.calDone_eq]
  generalize s.rxCalEnd f temp = v at hclk hchan hcal hheld
  unfold State.txCalEnd
  simp only [hcal, h, if_neg (show ¬ v.clk < e by omega), if_neg (show ¬ v.channels f ≤ k by omega)]
  generalize hw : v.setFe f _ = w
  have hx : w.feSt f = { v.feSt f with
      cal := none, table := calInsert (v.feSt f).table k temp, temp := temp, parked := some k, pass := (v.feSt f).pass.filter fun j => j != k } := by
    rw [← hw, State.feSt_setFe_self]
  refine ⟨?_, ?_, fun hn => ?_⟩
  · obtain ⟨p, c, m, n, hg⟩ := w.goOn_feSt f
    rw [hg, hx]
    exact mem_calInsert _ k temp
  · obtain ⟨p, c, m, n, hg⟩ := w.goOn_feSt f
    rw [hg, hx]
    simp
  · obtain ⟨hc, hp⟩ := State.goOn_of_noHeld (s := w) (f := f) (by rw [hx]; exact hheld.trans hn)
    rw [hc, hp, hx]
    exact ⟨rfl, rfl⟩

/-- One begun before a slice move enters nothing. -/
theorem State.calDone_foreign (h : (s.feSt f).cal = some (k, e)) (he : e ≤ s.clk) (hk : s.channels f ≤ k) (hn : (s.feSt f).held = none) :
    ((s.calDone f temp).feSt f).table = (s.feSt f).table ∧ ((s.calDone f temp).feSt f).pass = (s.feSt f).pass ∧
      ((s.calDone f temp).feSt f).cal = none ∧ ((s.calDone f temp).feSt f).parked = none := by
  obtain ⟨hclk, hchan⟩ := s.rxCalEnd_fields f temp
  obtain ⟨hcal, htable, hpass, hheld⟩ := s.rxCalEnd_cal f temp
  rw [State.calDone_eq]
  generalize s.rxCalEnd f temp = v at hclk hchan hcal htable hpass hheld
  unfold State.txCalEnd
  simp only [hcal, h, if_neg (show ¬ v.clk < e by omega), if_pos (show v.channels f ≤ k by omega)]
  generalize hw : v.setFe f _ = w
  have hx : w.feSt f = { v.feSt f with cal := none, temp := temp, parked := none } := by rw [← hw, State.feSt_setFe_self]
  obtain ⟨hc, hp⟩ := State.goOn_of_noHeld (s := w) (f := f) (by rw [hx]; exact hheld.trans hn)
  obtain ⟨p, c, m, n, hg⟩ := w.goOn_feSt f
  rw [hc, hp, hg, hx]
  exact ⟨htable, hpass, rfl, rfl⟩

end Complete

/-! ## The receive synthesiser (R64, R107) -/

section Receive

variable {s : State} {f : Fe} {temp : Int} {e failed : Nat}

theorem State.counter_countN (s : State) (c d : Ctr) (x y : Scope) (n : Nat) :
    (s.countN c x n).counter d y = s.counter d y + if d = c ∧ y = x then BitVec.ofNat 64 n else 0 := by
  simp only [State.counter, State.countN, Tally.read_add, CtrKey.mk.injEq]

theorem State.rxCalibrate_eq (s : State) (f : Fe) (n : Nat) :
    s.rxCalibrate f n = ((s.blankFe f .rxCutCal).countN .feCal (.fe (feCode f)) n).setFe f { (s.blankFe f .rxCutCal).feSt f with
      rxCal := some (s.clk + n * 11500), rxDue := none } := by
  have hc : (s.blankFe f .rxCutCal).clk = s.clk := (congrArg State.clk (s.mac_blankFe f (c := .rxCutCal) (by decide)).rest :)
  unfold State.rxCalibrate
  rw [← hc]
  rfl

theorem State.rxCal_rxCalibrate (s : State) (f : Fe) (n : Nat) : ((s.rxCalibrate f n).feSt f).rxCal = some (s.clk + n * 11500) := by
  rw [State.rxCalibrate_eq, State.feSt_setFe_self]

theorem State.clk_rxCalibrate (s : State) (f : Fe) (n : Nat) : (s.rxCalibrate f n).clk = s.clk :=
  (congrArg State.clk (s.mac_blankFe f (c := .rxCutCal) (by decide)).rest :)

theorem State.counter_rxCalibrate (s : State) (f : Fe) (n : Nat) {c : Ctr} (hc : c ∈ feCounters) (x : Scope) :
    (s.rxCalibrate f n).counter c x = s.counter c x + if c = .feCal ∧ x = .fe (feCode f) then BitVec.ofNat 64 n else 0 := by
  rw [← (s.mac_blankFe f (c := .rxCutCal) (by decide)).counter c hc x, ← State.counter_countN, State.rxCalibrate_eq]
  rfl

theorem State.cuts_rxCalibrate (s : State) (f : Fe) (n : Nat) : s.Cuts (s.rxCalibrate f n) := s.cuts_blankFe f .rxCutCal

/-- A front end that goes OFF counts of the front ends' counters a request it held, and nothing else. -/
theorem State.counter_macOff (s : State) (f : Fe) {c : Ctr} (hc : c ∈ feCounters) (hn : c ≠ .feTxRefused) (x : Scope) :
    (s.macOff f).counter c x = s.counter c x := by
  unfold State.macOff
  extract_lets y s₁ acks s₂ s₃ s₄
  have h₁ : s.MacWrites s₁ := by
    unfold s₁
    split
    · exact s.mac_ackMissing f _
    · exact .refl s
  have h₂ : s₁.MacWrites s₂ := .foldl (fun s q => s.mac_ackNotSent f q) acks s₁
  have h₃ : s₂.MacWrites s₃ := by
    unfold s₃
    split
    · split
      · exact s₂.mac_ackOver _
      · exact .refl s₂
    · exact .refl s₂
  have h₄ : s₄.counter c x = s₃.counter c x := by
    unfold s₄
    split
    · exact State.counter_count_ne _ _ _ hn
    · rfl
  refine Eq.trans (State.MacWrites.counter ?_ c hc x) (h₄.trans (((h₁.trans h₂).trans h₃).counter c hc x))
  clear_value s₄
  split
  · exact .refl s₄
  · next a _ =>
    extract_lets onAir t _ u
    have ht : s₄.MacWrites t := .ite (.refl s₄) (s₄.mac_giveBack f a)
    have hu : s₄.MacWrites u := ht.trans (t.mac_setFe f rfl (.inl rfl))
    split
    · exact hu.trans (.ite (u.mac_attemptFailed f _ (by decide)) (u.mac_putBack f _))
    · exact hu.trans (.ite (.refl u) (u.mac_skipBeacon f))
    · exact hu

theorem State.counter_feOff (s : State) (f : Fe) {c : Ctr} (hc : c ∈ feCounters) (x : Scope) : (s.feOff f).counter c x = s.counter c x :=
  (s.mac_blankFe f (by decide)).counter c hc x

theorem State.counter_feFault (s : State) (f : Fe) (cause : Nat) {c : Ctr} (hc : c ∈ feCounters) (hn : c ≠ .feTxRefused) (x : Scope) :
    (s.feFault f cause).counter c x = s.counter c x := by
  have hl : c ∉ lossCounters := by revert c; decide
  have hu : c ≠ .unitMappedOut := by revert c; decide
  unfold State.feFault
  split
  · rfl
  · extract_lets u v w
    rw [State.unitLost, State.counter_raise _ _ _ _ _ hl, State.counter_count_ne _ _ _ hu]
    refine (State.counter_of_tally (s := u) rfl c x).trans ?_
    rw [State.counter_feOff _ f hc, s.counter_macOff f hc hn]

/-- The front end is up: neither OFF, nor asleep, nor in STANDBY. -/
def State.rxUp (s : State) (f : Fe) : Prop := s.feMode f ≠ .off ∧ s.feMode f ≠ .sleep ∧ s.feMode f ≠ .standby

theorem State.rxDown_iff (s : State) (f : Fe) :
    (s.feMode f == .off || s.feMode f == .sleep || s.feMode f == .standby) = true ↔ ¬ s.rxUp f := by
  simp only [State.rxUp, Bool.or_eq_true, beq_iff_eq, ne_eq, not_and_or, not_not, or_assoc]

theorem State.lockLost_of_down (h : ¬ s.rxUp f) : s.lockLost f failed = s := by
  unfold State.lockLost
  rw [if_pos ((s.rxDown_iff f).2 h)]

/-- The loss of lock counted and told. -/
def State.lockTold (s : State) (f : Fe) : State := (s.count .feLockLost (.fe (feCode f))).raise 0x0301 none (toBe 1 (feCode f))

theorem State.counter_lockTold (s : State) (f : Fe) :
    (s.lockTold f).counter .feLockLost (.fe (feCode f)) = s.counter .feLockLost (.fe (feCode f)) + 1 := by
  rw [State.lockTold, State.counter_raise _ _ _ _ _ (by decide), State.counter_count_self]

theorem State.clk_lockTold (s : State) (f : Fe) : (s.lockTold f).clk = s.clk := (State.raise_fields _ _ _ _).1

theorem State.lockLost_relocks (h : s.rxUp f) (hf : failed ≤ 2) :
    s.lockLost f failed = ((s.lockTold f).rxCalibrate f (failed + 1)).setFe f { ((s.lockTold f).rxCalibrate f (failed + 1)).feSt f with
      lockFails := 0, trackUntil := s.clk + (failed + 1) * 11500 + 2500000000 } := by
  unfold State.lockLost
  rw [if_neg ((s.rxDown_iff f).not.2 (not_not.2 h))]
  dsimp only
  rw [if_neg (by omega), ← State.lockTold, State.clk_rxCalibrate, State.clk_lockTold]
  rfl

theorem State.lockLost_faults (h : s.rxUp f) (hf : 3 ≤ failed) : s.lockLost f failed = ((s.lockTold f).rxCalibrate f 3).feFault f 4 := by
  unfold State.lockLost
  rw [if_neg ((s.rxDown_iff f).not.2 (not_not.2 h))]
  dsimp only
  rw [if_pos hf, ← State.lockTold]

theorem State.lockLost_spec (h : s.rxUp f) :
    (s.lockLost f failed).counter .feLockLost (.fe (feCode f)) = s.counter .feLockLost (.fe (feCode f)) + 1 ∧
      (failed ≤ 2 → ((s.lockLost f failed).feSt f).rxCal = some (s.clk + (failed + 1) * 11500) ∧
        ((s.lockLost f failed).feSt f).trackUntil = s.clk + (failed + 1) * 11500 + 2500000000) ∧
      (3 ≤ failed → ((s.lockLost f failed).feSt f).faulty = true) := by
  have counted : ∀ n, ((s.lockTold f).rxCalibrate f n).counter .feLockLost (.fe (feCode f)) = s.counter .feLockLost (.fe (feCode f)) + 1 := by
    intro n
    rw [State.counter_rxCalibrate _ _ _ (by decide), State.counter_lockTold]
    simp
  refine ⟨?_, fun hf => ?_, fun hf => ?_⟩
  · rcases Nat.lt_or_ge failed 3 with hf | hf
    · rw [State.lockLost_relocks h (by omega)]
      exact counted _
    · rw [State.lockLost_faults h hf, State.counter_feFault _ f 4 (by decide) (by decide)]
      exact counted 3
  · rw [State.lockLost_relocks h hf, State.feSt_setFe_self]
    refine ⟨?_, rfl⟩
    rw [State.rxCal_rxCalibrate, State.clk_lockTold]
  · rw [State.lockLost_faults h hf]
    exact State.faulty_feFault _ f 4

/-- Its receive chain is in use and not being calibrated. -/
def State.rxRuns (s : State) (f : Fe) : Prop := (s.feMode f = .rx ∨ s.feMode f = .tx ∨ s.feMode f = .leaving) ∧ (s.feSt f).rxCal = none

/-- A lane of the front end receives a frame past its PHY header. -/
def State.rxHolds (s : State) (f : Fe) : Bool := (s.lanesOn f).any fun l => (s.frameEndOf l).isSome

theorem State.rxRecal_of_runs (h : s.rxRuns f) :
    s.rxRecal f temp =
      if tempDiff (s.feSt f).rxTemp temp ≤ s.tempRecal f then s.setFe f { s.feSt f with rxDue := none }
      else if s.rxHolds f && decide (s.clk < ((s.feSt f).rxDue.getD s.clk) + 12500000) then
        s.setFe f { s.feSt f with rxDue := some ((s.feSt f).rxDue.getD s.clk) }
      else s.rxCalibrate f 1 := by
  unfold State.rxRecal
  dsimp only
  rw [if_neg]
  · rfl
  · obtain ⟨hm, hc⟩ := h
    rcases hm with hm | hm | hm <;> simp [hm, hc]

theorem State.rxHolds_eq_false_iff (s : State) (f : Fe) : s.rxHolds f = false ↔ ∀ l ∈ s.lanesOn f, s.frameEndOf l = none := by
  simp [State.rxHolds]

theorem State.rxRecal_calibrates (h : s.rxRuns f) (ht : s.tempRecal f < tempDiff (s.feSt f).rxTemp temp)
    (hd : (∀ l ∈ s.lanesOn f, s.frameEndOf l = none) ∨ (s.feSt f).rxDue = some e ∧ e + 12500000 ≤ s.clk) :
    s.rxRecal f temp = s.rxCalibrate f 1 := by
  rw [State.rxRecal_of_runs h, if_neg (Nat.not_le.2 ht), if_neg]
  rcases hd with hd | ⟨hd, he⟩
  · simp [(s.rxHolds_eq_false_iff f).2 hd]
  · simp [hd, he]

theorem State.rxRecal_waits (h : s.rxRuns f) (ht : s.tempRecal f < tempDiff (s.feSt f).rxTemp temp)
    (hl : ∃ l ∈ s.lanesOn f, s.frameEndOf l ≠ none) (hd : (s.feSt f).rxDue = none) :
    s.rxRecal f temp = s.setFe f { s.feSt f with rxDue := some s.clk } := by
  have hh : s.rxHolds f = true := by
    rw [← Bool.not_eq_false, State.rxHolds_eq_false_iff]
    intro hn
    obtain ⟨l, hl, hne⟩ := hl
    exact hne (hn l hl)
  rw [State.rxRecal_of_runs h, if_neg (Nat.not_le.2 ht), if_pos]
  · rw [hd]
    rfl
  · simp [hh, hd]

theorem State.rxRecal_cool (h : s.rxRuns f) (ht : tempDiff (s.feSt f).rxTemp temp ≤ s.tempRecal f) :
    s.rxRecal f temp = s.setFe f { s.feSt f with rxDue := none } := by
  rw [State.rxRecal_of_runs h, if_pos ht]

end Receive

/-! ## Sleep and wake (R61) -/

section Sleep

variable {s : State} {f : Fe}

/-- A front end goes to sleep: in RX, no lane on it, nothing to send, its idle time run (R61). -/
def State.sleepAble (s : State) (f : Fe) : Bool :=
  s.radio && s.sleepAfterMs f != 0 && s.feMode f == .rx && (s.lanesOn f).isEmpty && (s.feSt f).posted.isEmpty && (s.feSt f).held.isNone &&
    (s.feSt f).cal.isNone && decide ((s.feSt f).idleSince + msTicks (s.sleepAfterMs f) ≤ s.clk)

theorem State.sleepAble_iff (s : State) (f : Fe) :
    s.sleepAble f = true ↔ s.radio = true ∧ s.sleepAfterMs f ≠ 0 ∧ s.feMode f = .rx ∧ s.lanesOn f = [] ∧ (s.feSt f).posted = [] ∧
      (s.feSt f).held = none ∧ (s.feSt f).cal = none ∧ (s.feSt f).idleSince + 250000 * s.sleepAfterMs f ≤ s.clk := by
  rw [show 250000 * s.sleepAfterMs f = msTicks (s.sleepAfterMs f) from Nat.mul_comm _ _]
  simp only [State.sleepAble, Bool.and_eq_true, bne_iff_ne, beq_iff_eq, List.isEmpty_iff, Option.isNone_iff_eq_none, decide_eq_true_eq,
    and_assoc]

theorem State.wakeFe_of_up (h : (s.feSt f).mode ≠ .sleep) (hn : (s.feSt f).mode ≠ .synthOn) : s.wakeFe f = s := by
  unfold State.wakeFe
  dsimp only
  split
  · next hm => exact absurd hm h
  · next hm => exact absurd hm hn
  · rfl

theorem State.wakeFe_of_synthOn (h : (s.feSt f).mode = .synthOn) (hh : (s.feSt f).held = none) (hc : (s.feSt f).cal = none) :
    s.wakeFe f = s.setFe f { s.feSt f with mode := .rx, idleSince := s.clk } := by
  unfold State.wakeFe
  simp only [h, hh, hc]
  rfl

theorem State.wakeFe_of_sleep (h : (s.feSt f).mode = .sleep) :
    ((s.wakeFe f).feSt f).mode = .rx ∧ ((s.wakeFe f).feSt f).idleSince = s.clk ∧ ((s.wakeFe f).feSt f).rxTemp = (s.feSt f).temp ∧
      (s.wakeFe f).counter .feCal (.fe (feCode f)) = s.counter .feCal (.fe (feCode f)) + 2 := by
  unfold State.wakeFe
  simp only [h]
  have on : ∀ x : FeSt, ((s.setFe f x).countN .feCal (.fe (feCode f)) 2).feSt f = x := fun x => s.feSt_setFe_self f x
  rw [on, State.counter_countN, if_pos ⟨rfl, rfl⟩]
  exact ⟨rfl, rfl, rfl, rfl⟩

end Sleep

/-- Settles O42: each row by the lemmas about the operation it is, clause by clause. -/
theorem calibrationsAndSleep : Obligations.CalibrationsAndSleep := by
  unfold Obligations.CalibrationsAndSleep
  intro dt f s temp k e failed rest c t x sc idle
  have onRadio : ∀ {c : Instr} {u v : State}, exec c s = .next (if t.radio then u else t) → t.radio = true → u = v → exec c s = .next v := by
    rintro c u v h hr rfl
    rw [h, if_pos hr]
  have offRadio : ∀ {c : Instr} {u : State}, exec c s = .next (if t.radio then u else t) → t.radio = false ∨ u = t → exec c s = .next t := by
    intro c u h hr
    rw [h]
    rcases hr with hr | hr
    · rw [hr]; rfl
    · rw [hr, ite_self]
  refine ⟨fun hi hp => ?_, fun hi hp hs => ?_, fun hi hp hs => ?_, fun hi => ?_, fun hc he hk => ⟨_, rfl, State.calDone_enters hc he hk⟩,
    fun hc he hk hh => ⟨_, rfl, State.calDone_foreign hc he hk hh⟩, fun hc he => ⟨_, rfl, State.calDone_rx hc he⟩,
    fun hr h₁ h₂ h₃ => ?_, fun h => ?_, fun hr hm hc => ⟨fun ht hd => ?_, fun ht hl hd => ?_, fun ht => ?_⟩,
    fun hr hs hm hl hp hh hc hd => ?_, fun h => ?_, fun hr hm => ?_, fun hr hm hh hc => ?_, fun h => ?_⟩
  · have hn : t.calNext f temp = some k := by
      have hp' : (t.feSt f).pass = k :: rest := hp
      simp only [State.calNext, hp']
    exact congrArg Host.Outcome.next (State.backCal_begins hi hn)
  · have hn : t.calNext f temp = some c.channel := by
      have hp' : (t.feSt f).pass = [] := hp
      simp only [State.calNext, hp']
      exact Option.map_eq_some_iff.2 ⟨c, hs, rfl⟩
    exact congrArg Host.Outcome.next (State.backCal_begins hi hn)
  · have hn : t.calNext f temp = none := by
      have hp' : (t.feSt f).pass = [] := hp
      simp only [State.calNext, hp']
      exact Option.map_eq_none_iff.2 hs
    exact congrArg Host.Outcome.next (State.backCal_reads hi hn)
  · exact congrArg Host.Outcome.next (State.backCal_of_busy hi)
  · exact ⟨_, onRadio rfl hr rfl, State.lockLost_spec ⟨h₁, h₂, h₃⟩⟩
  · refine offRadio rfl (h.imp_right fun h => State.lockLost_of_down fun ⟨h₁, h₂, h₃⟩ => ?_)
    rcases h with h | h | h
    · exact h₁ h
    · exact h₂ h
    · exact h₃ h
  · refine ⟨_, onRadio rfl hr (State.rxRecal_calibrates ⟨hm, hc⟩ ht hd), t.rxCal_rxCalibrate f 1, ?_, fun l _ => t.cuts_rxCalibrate f 1 l⟩
    rw [State.counter_rxCalibrate _ _ _ (by decide), if_pos ⟨rfl, rfl⟩]
    rfl
  · exact onRadio rfl hr (State.rxRecal_waits ⟨hm, hc⟩ ht hl hd)
  · exact onRadio rfl hr (State.rxRecal_cool ⟨hm, hc⟩ ht)
  · refine congrArg Host.Outcome.next (if_pos ?_)
    exact (t.sleepAble_iff f).2 ⟨hr, hs, hm, hl, hp, hh, hc, hd⟩
  · refine congrArg Host.Outcome.next (if_neg fun ha => ?_)
    obtain ⟨-, hs, -, hl, -, -, -, hd⟩ := (t.sleepAble_iff f).1 ha
    rcases h with h | h | h
    · exact hs h
    · exact h hl
    · exact Nat.not_lt.2 hd h
  · exact ⟨_, onRadio rfl hr rfl, State.wakeFe_of_sleep hm⟩
  · exact onRadio rfl hr (State.wakeFe_of_synthOn hm hh hc)
  · exact offRadio rfl (h.imp_right fun h => State.wakeFe_of_up h.1 h.2)

end Sys2Proof.Machine

namespace Sys2Proof.Machine

/-! # Canopy's rounds: no decision moves the number of the next round (R290) -/

/-! ## Operations that leave Canopy's part as it is -/

@[simp] theorem State.canopy_count (s : State) (c : Ctr) (x : Scope) : (s.count c x).canopy = s.canopy := rfl

@[simp] theorem State.canopy_countN (s : State) (c : Ctr) (x : Scope) (n : Nat) : (s.countN c x n).canopy = s.canopy := rfl

@[simp] theorem State.canopy_setNode (s : State) (i : Nat) (n : Node) : (s.setNode i n).canopy = s.canopy := rfl

@[simp] theorem State.canopy_setLane (s : State) (l : Nat) (x : LaneSt) : (s.setLane l x).canopy = s.canopy := rfl

@[simp] theorem State.canopy_setFe (s : State) (f : Fe) (x : FeSt) : (s.setFe f x).canopy = s.canopy := rfl

@[simp] theorem State.canopy_setGates (s : State) (f : Fe) (g : GateSt) : (s.setGates f g).canopy = s.canopy := rfl

@[simp] theorem State.canopy_touch (s : State) (d : HwDirty) : (s.touch d).canopy = s.canopy := by rw [(s.touch_eq d).1]

@[simp] theorem State.canopy_lineWrite (s : State) (a : Nat) : (s.lineWrite a).canopy = s.canopy := by
  unfold State.lineWrite
  dsimp only
  repeat' split
  all_goals rfl

@[simp] theorem State.canopy_journal (s : State) (l : List HwItem) : (s.journal l).canopy = s.canopy := by
  unfold State.journal
  split
  · rfl
  · exact s.canopy_lineWrite _

@[simp] theorem State.canopy_writePending (s : State) (i : Nat) : (s.writePending i).canopy = s.canopy := by
  unfold State.writePending
  split <;> simp

@[simp] theorem State.canopy_noteIdle (s : State) (p : Option (Nat × Nat)) : (s.noteIdle p).canopy = s.canopy := by
  unfold State.noteIdle
  split
  · split <;> simp
  · rfl

@[simp] theorem State.canopy_wakeFe (s : State) (f : Fe) : (s.wakeFe f).canopy = s.canopy := by
  unfold State.wakeFe
  dsimp only
  split
  · simp
  · split <;> simp
  · rfl

@[simp] theorem State.canopy_laneMoved (s : State) (l : Nat) : (s.laneMoved l).canopy = s.canopy := by
  refine foldl_keeps _ State.canopy (fun s f => ?_) _ s
  dsimp only
  repeat' split
  all_goals simp

@[simp] theorem State.canopy_assignEffect (s : State) (l : Nat) : (s.assignEffect l).canopy = s.canopy := by
  unfold State.assignEffect
  dsimp only
  repeat' split
  all_goals simp

@[simp] theorem State.canopy_settleLanes (s : State) : s.settleLanes.canopy = s.canopy := foldl_keeps _ State.canopy State.canopy_assignEffect _ s

theorem State.canopy_queueFrames {s u : State} {i : Nat} {a b : Node} {l : List DownFrame} (h : s.queueFrames i a b l = some u) :
    u.canopy = s.canopy := by
  unfold State.queueFrames at h
  dsimp only at h
  split at h
  · cases h
  · next t ht =>
    cases h
    have hf := foldl_keeps (fun (t : State) (d : DownFrame) => t.commitTo (orderKey a.queue a.fe) (accountOf a.queue a.world) (cellsOf d.psdu)
      (.down d)) State.sansQueues (fun t d => State.sansQueues_commitTo _ _ _ _ _ _) l t
    have hc : t.canopy = s.canopy := by rw [(State.grant_some ht).1]
    exact (congrArg State.canopy hf :).trans hc

theorem State.canopy_sendUnicast {s u : State} {i : Nat} {n : Node} {l : List Plain} {path : List (Nat × BitVec 64)} {b : Bool}
    (h : s.sendUnicast i n l path b = .done u) : u.canopy = s.canopy := by
  unfold State.sendUnicast at h
  split at h
  · cases h; rfl
  · split at h
    · cases h; rfl
    · next key t ht =>
      have hc : t.canopy = s.canopy := by rw [State.linkKey_some ht]
      dsimp only at h
      split at h
      · cases h; exact hc
      · split at h
        · cases h
        · split at h
          · next v hv => cases h; exact (State.canopy_queueFrames hv).trans hc
          · cases h; exact hc

/-! ## Operations that write Canopy's part, but no round -/

@[simp] theorem State.round_ite (c : Prop) [Decidable c] (s t : State) : (if c then s else t).canopy.round = if c then s.canopy.round else t.canopy.round :=
  apply_ite (fun s : State => s.canopy.round) _ _ _

/-- A fold moves no round when none of its steps does. -/
@[simp] theorem foldl_round {β : Type} {f : State → β → State} (h : ∀ s b, (f s b).canopy.round = s.canopy.round) (l : List β) (s : State) :
    (l.foldl f s).canopy.round = s.canopy.round := foldl_keeps f (fun s => s.canopy.round) h l s

/-- An entry of the decision log writes the log and its number. -/
theorem State.canLog_eq (s : State) (kind cause world flags subject old new : Nat) (gain : Int) :
    ∃ l n, s.canLog kind cause world flags subject old new gain = { s with canopy := { s.canopy with log := l, logSeq := n } } := ⟨_, _, rfl⟩

@[simp] theorem State.round_canLog (s : State) (kind cause world flags subject old new : Nat) (gain : Int) :
    (s.canLog kind cause world flags subject old new gain).canopy.round = s.canopy.round := by
  obtain ⟨l, n, h⟩ := s.canLog_eq kind cause world flags subject old new gain
  rw [h]

@[simp] theorem State.round_setMeas (s : State) (i : Nat) (m : Meas) : (s.setMeas i m).canopy.round = s.canopy.round := rfl

@[simp] theorem State.round_coolNode (s : State) (i : Nat) : (s.coolNode i).canopy.round = s.canopy.round := rfl

@[simp] theorem State.round_setCourse (s : State) (i : Nat) (c : Option Course) : (s.setCourse i c).canopy.round = s.canopy.round := rfl

@[simp] theorem State.round_decideMove (s : State) (i g p cause flags : Nat) (gain : Int) :
    (s.decideMove i g p cause flags gain).canopy.round = s.canopy.round := by
  unfold State.decideMove
  split
  · rfl
  · dsimp only
    split
    · rfl
    · next u hu => simp [State.canopy_sendUnicast hu]

@[simp] theorem State.round_writePlace (s : State) (i g p fe kind : Nat) (c : Ctr) : (s.writePlace i g p fe kind c).canopy.round = s.canopy.round := by
  unfold State.writePlace
  split
  · rfl
  · rw [State.round_canLog, State.canopy_count, State.round_coolNode, State.canopy_journal, State.canopy_setNode]

@[simp] theorem State.round_assignLane (s : State) (l : Nat) (a : Option (Nat × Nat)) (cause flags : Nat) (pinned : Bool) :
    (s.assignLane l a cause flags pinned).canopy.round = s.canopy.round := by
  simp [State.assignLane]

@[simp] theorem State.round_measureLinks (s : State) : s.measureLinks.canopy.round = s.canopy.round := by
  unfold State.measureLinks
  refine foldl_round (fun s f => foldl_round (fun s p => ?_) _ _) _ _
  split
  · dsimp only
    split <;> simp
  · rfl

@[simp] theorem State.round_measureBusy (s : State) (l : List BusyWindow) : (s.measureBusy l).canopy.round = s.canopy.round := rfl

@[simp] theorem State.round_avoidNeighbours (s : State) : s.avoidNeighbours.canopy.round = s.canopy.round := by
  simp [State.avoidNeighbours]

@[simp] theorem State.round_decideSlice (s : State) (f : Fe) (centre cause flags : Nat) (gain : Int) :
    (s.decideSlice f centre cause flags gain).canopy.round = s.canopy.round := by
  simp [State.decideSlice]

@[simp] theorem State.round_slice (s : State) (f : Fe) : (s.slice f).canopy.round = s.canopy.round := by
  simp [State.slice]

/-! ## The decisions of a round -/

@[simp] theorem State.round_applyMap (s : State) (extra cause flags : Nat) : (s.applyMap extra cause flags).canopy.round = s.canopy.round := by
  unfold State.applyMap
  dsimp only
  generalize List.map _ s.availLanes = want
  simp

@[simp] theorem State.round_faultMap (s : State) : s.faultMap.canopy.round = s.canopy.round := by
  unfold State.faultMap
  dsimp only
  generalize ht : List.foldl _ s _ = t
  have h : t.canopy.round = s.canopy.round := ht ▸ foldl_round (fun s j => by simp) _ _
  simp [h]

@[simp] theorem State.round_noteUnwatched (s : State) : s.noteUnwatched.canopy.round = s.canopy.round := rfl

theorem State.round_coolEntry (s : State) (l : Tbl Nat) :
    ({ s with canopy := { s.canopy with coolEntry := l } } : State).canopy.round = s.canopy.round := rfl

@[simp] theorem State.round_gateList (s : State) (f : Fe) : (s.gateList f).canopy.round = s.canopy.round := by
  unfold State.gateList
  split
  · rfl
  · rfl
  · dsimp only
    split
    · rfl
    · rw [State.canopy_touch, State.canopy_setGates]
      exact foldl_round (fun s p => (State.round_coolEntry _ _).trans (State.round_canLog ..)) _ _

@[simp] theorem State.round_revertNode (s : State) (t : Taken) : (s.revertNode t).canopy.round = s.canopy.round := by
  simp [State.revertNode]

@[simp] theorem State.round_reverts (s : State) : s.reverts.canopy.round = s.canopy.round := by
  simp [State.reverts]

@[simp] theorem State.round_rehomes (s : State) : s.rehomes.canopy.round = s.canopy.round := by
  unfold State.rehomes
  refine (foldl_round (fun s x => ?_) _ _).trans rfl
  repeat' split
  all_goals simp

@[simp] theorem State.round_decidePins (s : State) : s.decidePins.canopy.round = s.canopy.round := by
  unfold State.decidePins
  refine foldl_round (fun s x => ?_) _ _
  repeat' split
  all_goals simp

@[simp] theorem State.round_placeNodes (s : State) (n : Nat) : (s.placeNodes n).canopy.round = s.canopy.round := by
  induction n generalizing s with
  | zero => rfl
  | succ n ih =>
    unfold State.placeNodes
    split
    · simp [ih]
    · rfl

@[simp] theorem State.round_aerialNode (s : State) (i : Nat) : (s.aerialNode i).canopy.round = s.canopy.round := by
  unfold State.aerialNode
  repeat' split
  all_goals simp

@[simp] theorem State.round_powerNode (s : State) (i : Nat) : (s.powerNode i).canopy.round = s.canopy.round := by
  unfold State.powerNode
  repeat' split
  all_goals simp

@[simp] theorem State.round_setPath (s : State) (i slot : Nat) (gain : Int) : (s.setPath i slot gain).canopy.round = s.canopy.round := by
  unfold State.setPath
  split <;> simp

@[simp] theorem State.round_paths (s : State) : s.paths.canopy.round = s.canopy.round := by
  simp [State.paths]

@[simp] theorem State.round_work (s : State) : s.work.canopy.round = s.canopy.round := by
  simp [State.work]

@[simp] theorem State.round_decideKind (s : State) (k : Nat) : (s.decideKind k).canopy.round = s.canopy.round := by
  unfold State.decideKind
  dsimp only
  split
  · rfl
  · split <;> simp

@[simp] theorem State.round_decideAll (s : State) (due : List Nat) : (s.decideAll due).canopy.round = s.canopy.round := by
  simp [State.decideAll]

/-! ## The round -/

/-- The number of the round whose instant has come last: one begins every second (R290). -/
def State.roundNow (s : State) : Nat := (s.clk - s.canopy.radioClk) / 250000000

/-- A round is due: the part runs with its radio on, and the instant of the next round has come. -/
def State.roundDue (s : State) : Prop := s.firmware = true ∧ s.life.radioOn = true ∧ s.canopy.round ≤ s.roundNow

theorem State.canopyRound_undue {s : State} (h : ¬ s.roundDue) (e : CanopyEnv) : s.canopyRound e = s := by
  refine if_pos ?_
  have hk : (s.clk - s.canopy.radioClk) / secTicks 1 = s.roundNow := rfl
  rw [hk]
  unfold State.roundDue at h
  cases hf : s.firmware <;> cases hr : s.life.radioOn <;> simp_all

theorem State.roundDue_not_undue {s : State} (h : s.roundDue) :
    ¬ (!s.firmware || !s.life.radioOn || decide ((s.clk - s.canopy.radioClk) / secTicks 1 < s.canopy.round)) = true := by
  obtain ⟨hf, hr, hk⟩ := h
  have h' : ¬ (s.clk - s.canopy.radioClk) / secTicks 1 < s.canopy.round := Nat.not_lt.2 hk
  simp [hf, hr, h']

theorem State.canopyRound_late {s : State} {e : CanopyEnv} (h : s.roundDue) (he : e.late = true) :
    s.canopyRound e = State.count { s with
      canopy := { s.canopy with round := s.roundNow + 1, owed := s.dueKinds s.canopy.round s.roundNow } } .canopyRoundLate .device :=
  (if_neg (State.roundDue_not_undue h)).trans (if_pos he)

theorem State.round_canopyRound {s : State} {e : CanopyEnv} (h : s.roundDue) (he : e.late = false) :
    (s.canopyRound e).canopy.round = s.roundNow + 1 := by
  unfold State.canopyRound
  rw [if_neg (State.roundDue_not_undue h)]
  dsimp only
  rw [he, if_neg Bool.false_ne_true]
  simp [State.roundNow, secTicks]

end Sys2Proof.Machine

namespace Sys2Proof.Machine

/-! # Canopy's rows of one node, of freezes and of unwatched channels (R306, R307, R313, R321) -/

/-! ## A transaction of Heartwood -/

/-- A line written touches Heartwood, and Tally where pages are swapped. -/
theorem State.lineWrite_eq (s : State) (a : Nat) : s.lineWrite a = { s with hw := (s.lineWrite a).hw, tally := (s.lineWrite a).tally } := by
  unfold State.lineWrite
  dsimp only
  repeat' split
  all_goals rfl

theorem State.counter_lineWrite (s : State) (a : Nat) {c : Ctr} (hc : c ≠ .hwPageSwap) (x : Scope) : (s.lineWrite a).counter c x = s.counter c x := by
  unfold State.lineWrite
  dsimp only
  split
  · rfl
  · split
    · rfl
    · exact State.counter_count_ne _ _ _ hc

theorem State.journal_eq (s : State) (l : List HwItem) : s.journal l = { s with hw := (s.journal l).hw, tally := (s.journal l).tally } := by
  unfold State.journal
  split
  · rfl
  · dsimp only
    rw [s.lineWrite_eq]

theorem State.counter_journal (s : State) (l : List HwItem) {c : Ctr} (hc : c ≠ .hwPageSwap) (x : Scope) :
    (s.journal l).counter c x = s.counter c x := by
  unfold State.journal
  split
  · rfl
  · exact s.counter_lineWrite _ hc x

theorem State.pendings_journal_none (s : State) (i : Nat) : (s.journal [.pending i none]).hw.pendings.get i = none :=
  Tbl.get_erase_self (s.lineWrite _).hw.pendings i

theorem State.writePending_none {s : State} {i : Nat} {n : Node} (h : s.node i = some n) (hp : n.pending = false) :
    s.writePending i = s.journal [.pending i none] := by
  unfold State.writePending
  rw [h]
  dsimp only
  rw [hp, if_neg Bool.false_ne_true]

@[simp] theorem State.node_setNode_self (s : State) (i : Nat) (n : Node) : (s.setNode i n).node i = some n := Tbl.get_set_self _ _ _

theorem State.node_setNode_ne (s : State) {i j : Nat} (n : Node) (h : j ≠ i) : (s.setNode i n).node j = s.node j := Tbl.get_set_ne _ _ h

/-! ## An assignment takes effect (R307) -/

/-- The record of node i is n, with no assignment waiting, in the table and in Heartwood. -/
def State.placed (s : State) (i : Nat) (n : Node) : State := ((s.setNode i n).touch (.nodePlace i)).writePending i

section Place
variable {s : State} {i : Nat} {n m : Node}

theorem State.placed_eq (s : State) (i : Nat) (hm : m.pending = false) : s.placed i m = ((s.setNode i m).touch (.nodePlace i)).journal [.pending i none] := by
  refine State.writePending_none ?_ hm
  rw [State.node_of_table (congrArg State.table (State.touch_eq _ _).1 :)]
  exact s.node_setNode_self i m

theorem State.table_placed (s : State) (i : Nat) (hm : m.pending = false) : (s.placed i m).table = (s.setNode i m).table := by
  rw [s.placed_eq i hm, State.journal_eq, (State.touch_eq _ _).1]

theorem State.assignNow_of_none (h : s.node i = none ∨ s.node i = some n ∧ n.pending = false) : s.assignNow i = s := by
  unfold State.assignNow
  rcases h with h | ⟨h, hn⟩
  · rw [h]
  · rw [h]
    exact if_pos (by simp [hn])

theorem State.assignNow_early (h : s.node i = some n) (he : s.netNs < s.effSecond n * 1000000000) : s.assignNow i = s := by
  unfold State.assignNow
  rw [h]
  exact if_pos (by simp [he])

/-- What an assignment makes of a node's record. -/
def State.assigned (s : State) (n : Node) : Node := { n with group := n.newGroup, phase := n.newPhase, fe := s.toFe n, pending := false }

theorem State.assignNow_due (h : s.node i = some n) (hp : n.pending = true) (he : s.effSecond n * 1000000000 ≤ s.netNs) :
    ∃ c w, s.assignNow i = { s.placed i (s.assigned n) with
      mac := { (s.placed i (s.assigned n)).mac with conts := (s.placed i (s.assigned n)).mac.conts.filter fun d => d.eui != n.eui }, canopy := c } ∧
      c.course = Tbl.erase w i := by
  have hc : ¬ (!n.pending || decide (s.netNs < s.effSecond n * 1000000000)) = true := by simp [hp, Nat.not_lt.2 he]
  unfold State.assignNow
  rw [h]
  dsimp only
  rw [if_neg hc]
  obtain ⟨l, k, hl⟩ := State.canLog_eq (State.setCourse _ i none) 0x06 6 n.world 0 i n.placeWord (s.assigned n).placeWord 0
  exact ⟨_, _, hl, rfl⟩

theorem State.assignNow_places (h : s.node i = some n) (hp : n.pending = true) (he : s.effSecond n * 1000000000 ≤ s.netNs) :
    (s.assignNow i).node i = some (s.assigned n) ∧ (s.assignNow i).hw.pendings.get i = none ∧ (∀ z ∈ (s.assignNow i).mac.conts, z.eui ≠ n.eui) ∧
      (s.assignNow i).canopy.course.get i = none ∧ ∀ j, j ≠ i → (s.assignNow i).node j = s.node j := by
  obtain ⟨c, w, hu, hw⟩ := State.assignNow_due h hp he
  have ht : (s.assignNow i).table = (s.setNode i (s.assigned n)).table := by rw [hu]; exact s.table_placed i rfl
  refine ⟨?_, ?_, fun z hz => ?_, ?_, fun j hj => ?_⟩
  · rw [State.node_of_table ht, s.node_setNode_self]
  · rw [hu]
    dsimp only
    rw [s.placed_eq i rfl]
    exact State.pendings_journal_none _ i
  · rw [hu] at hz
    simpa using (List.mem_filter.1 hz).2
  · rw [hu]
    dsimp only
    rw [hw]
    exact Tbl.get_erase_self _ _
  · rw [State.node_of_table ht, s.node_setNode_ne _ hj]

end Place

/-! ## An assignment is withdrawn (R306) -/

theorem State.mac_dropAttempt (s : State) (f : Fe) (i : Nat) : s.MacWrites (s.dropAttempt f i) := by
  unfold State.dropAttempt
  dsimp only
  split
  · next a _ =>
    split
    · split
      · have hw : s.MacWrites ((s.giveBack f a).withdraw f) := (s.mac_giveBack f a).trans (State.mac_withdraw _ f)
        have hf : s.MacWrites (((s.giveBack f a).withdraw f).setFe f { ((s.giveBack f a).withdraw f).feSt f with attempt := none }) :=
          hw.trans (State.mac_setFe _ f rfl (.inl rfl))
        exact (hf.trans (State.mac_releaseChain _ _ _ _)).trans (State.mac_abandonRest _ _)
      · exact .refl s
    · exact .refl s
  · exact .refl s

theorem State.mac_dropCarriers (s : State) (i : Nat) : s.MacWrites (s.dropCarriers i) := by
  unfold State.dropCarriers
  extract_lets a mine gone goneF orders flows _ _ b c
  have ha : s.MacWrites a := .foldl (fun s f => s.mac_dropAttempt f i) feAll s
  have hb : a.MacWrites b := .of_rest rfl rfl rfl rfl
  have hc : b.MacWrites c := by
    refine .foldl (fun s p => ?_) _ b
    split
    · exact (s.mac_releaseChain _ _ _).trans (State.mac_abandonRest _ _)
    · exact .refl s
  refine ((ha.trans hb).trans hc).trans (.foldl (fun s f => ?_) feAll c)
  have hf : s.MacWrites (s.setFe f { s.feSt f with retry := (s.feSt f).retry.filter fun r => !(carries i r.frame && r.attempts = 0) }) :=
    s.mac_setFe f rfl (.inl rfl)
  exact hf.trans (.foldl (fun s (r : Retry) => (s.mac_releaseChain r.acct r.cells r.chain).trans (State.mac_abandonRest _ _)) _ _)

/-- The record of node i is n, with no assignment waiting, and no course of one is kept. -/
def State.unpended (s : State) (i : Nat) (n : Node) : State := ((s.setNode i n).writePending i).setCourse i none

section Withdraw
variable {s : State} {i : Nat} {n : Node} {c : Course}

theorem State.assignWithdraw_of_none (h : s.node i = none ∨ s.node i = some n ∧ n.pending = false) : s.assignWithdraw i = s := by
  unfold State.assignWithdraw
  rcases h with h | ⟨h, hn⟩
  · rw [h]
  · rw [h]
    split
    · next heq _ =>
      cases heq
      exact if_pos (by simp [hn])
    · rfl

theorem State.assignWithdraw_begun (h : s.node i = some n) (hc : s.canopy.course.get i = some c) (hb : c.begun = true) : s.assignWithdraw i = s := by
  unfold State.assignWithdraw
  rw [h, hc]
  exact if_pos (by simp [hb])

theorem State.assignWithdraw_due (h : s.node i = some n) (hp : n.pending = true) (hc : s.canopy.course.get i = some c) (hb : c.begun = false)
    (he : c.effNs ≤ s.netNs + 2 ^ n.moveExp * 2048000000) :
    s.assignWithdraw i = (((s.unpended i { n with pending := false }).dropCarriers i).count .canopyAssignWithdrawn (.world n.world)).canLog 0x07 6
      n.world 1 i (placeWord n.newGroup n.newPhase ((s.unpended i { n with pending := false }).toFe n) n.listen) n.placeWord 0 := by
  have hd : ¬ (!n.pending || c.begun || decide (s.netNs + 2 ^ n.moveExp * cycleNs < c.effNs)) = true := by
    have : ¬ s.netNs + 2 ^ n.moveExp * cycleNs < c.effNs := Nat.not_lt.2 he
    simp [hp, hb, this]
  unfold State.assignWithdraw
  rw [h, hc]
  exact if_neg hd

theorem State.unpended_eq (s : State) (i : Nat) (hn : n.pending = false) :
    s.unpended i n = ((s.setNode i n).journal [.pending i none]).setCourse i none :=
  congrArg (fun u => State.setCourse u i none) (State.writePending_none (s.node_setNode_self i n) hn)

theorem State.setCourse_fields (s : State) (i : Nat) (c : Option Course) :
    (s.setCourse i c).hw = s.hw ∧ (s.setCourse i c).table = s.table ∧ (s.setCourse i c).tally = s.tally := ⟨rfl, rfl, rfl⟩

theorem State.unpended_node (s : State) (i : Nat) (hn : n.pending = false) : (s.unpended i n).node i = some n := by
  rw [s.unpended_eq i hn, State.node_of_table (State.setCourse_fields _ _ _).2.1, State.journal_eq]
  exact s.node_setNode_self i n

theorem State.unpended_hw (s : State) (i : Nat) (hn : n.pending = false) : (s.unpended i n).hw.pendings.get i = none := by
  rw [s.unpended_eq i hn, (State.setCourse_fields _ _ _).1]
  exact State.pendings_journal_none _ i

theorem State.unpended_course (s : State) (i : Nat) (n : Node) : (s.unpended i n).canopy.course.get i = none := Tbl.get_erase_self _ _

theorem State.unpended_counter (s : State) (i : Nat) (hn : n.pending = false) {d : Ctr} (hd : d ≠ .hwPageSwap) (x : Scope) :
    (s.unpended i n).counter d x = s.counter d x := by
  rw [s.unpended_eq i hn, State.counter_of_tally (State.setCourse_fields _ _ _).2.2]
  exact State.counter_journal _ _ hd x

theorem State.assignWithdraw_clears (h : s.node i = some n) (hp : n.pending = true) (hc : s.canopy.course.get i = some c) (hb : c.begun = false)
    (he : c.effNs ≤ s.netNs + 2 ^ n.moveExp * 2048000000) : ∃ m, (s.assignWithdraw i).node i = some m ∧ m.pending = false ∧ m.group = n.group ∧
      m.phase = n.phase ∧ m.fe = n.fe ∧ (s.assignWithdraw i).hw.pendings.get i = none ∧ (s.assignWithdraw i).canopy.course.get i = none ∧
      (s.assignWithdraw i).counter .canopyAssignWithdrawn (.world n.world) = s.counter .canopyAssignWithdrawn (.world n.world) + 1 := by
  have hw := State.mac_dropCarriers (s.unpended i { n with pending := false }) i
  have hnode := hw.node i
  rw [s.unpended_node i rfl, Option.map_some, Option.map_eq_some_iff] at hnode
  obtain ⟨m, hm, hmn⟩ := hnode
  have hhw := congrArg (fun s : State => s.hw.pendings.get i) hw.rest
  have hcourse := congrArg (fun s : State => s.canopy.course.get i) hw.rest
  have hcount := hw.counter .canopyAssignWithdrawn (by decide) (.world n.world)
  rw [s.unpended_counter i rfl (by decide)] at hcount
  obtain ⟨l, k, hl⟩ := State.canLog_eq _ 0x07 6 n.world 1 i _ n.placeWord 0
  rw [State.assignWithdraw_due h hp hc hb he, hl]
  generalize (s.unpended i { n with pending := false }).dropCarriers i = v at *
  refine ⟨m, hm, (congrArg Node.pending hmn :), (congrArg Node.group hmn :), (congrArg Node.phase hmn :), (congrArg Node.fe hmn :),
    hhw.trans (s.unpended_hw i rfl), hcourse.trans (s.unpended_course i _), ?_⟩
  rw [← hcount]
  exact State.counter_count_self _ _ _

end Withdraw

/-! ## Freezes (R321) -/

/-- A freeze has ended. -/
def State.thawed (s : State) (z : Freeze) : Bool :=
  match z.endNs with
  | some e => decide (e ≤ s.netNs)
  | none => false

theorem State.thawed_eq_false_iff (s : State) (z : Freeze) : s.thawed z = false ↔ ∀ g, z.endNs = some g → s.netNs < g := by
  unfold State.thawed
  split
  · next e he => simp [he]
  · next he => simp [he]

theorem State.freezeEnd_eq (s : State) : s.freezeEnd = if s.canopy.freezes.any s.thawed then
    State.touch { s with canopy := { s.canopy with freezes := s.canopy.freezes.filter fun z => !s.thawed z } } .canopy else s := rfl

theorem State.mem_freezes_freezeEnd (s : State) (z : Freeze) : z ∈ s.freezeEnd.canopy.freezes ↔ z ∈ s.canopy.freezes ∧ s.thawed z = false := by
  rw [State.freezeEnd_eq]
  split
  · simp
  · next h =>
    have hz : ∀ z ∈ s.canopy.freezes, s.thawed z = false := by simpa using h
    exact ⟨fun hm => ⟨hm, hz z hm⟩, fun hm => hm.1⟩

theorem State.freezeEnd_fields (s : State) : s.freezeEnd.lanes = s.lanes ∧ s.freezeEnd.table = s.table := by
  rw [State.freezeEnd_eq]
  split
  · rw [(State.touch_eq _ _).1]
    exact ⟨rfl, rfl⟩
  · exact ⟨rfl, rfl⟩

/-! ## Unwatched channels (R313) -/

theorem State.raiseUnwatched_marks {s : State} {f : Fe} {ch : Nat} {x : Unwatched}
    (h : s.noteUnwatched.canopy.unwatched.find? (fun z => z.fe == feCode f && z.hz == s.freqOf f ch) = some x) (hr : x.raised = none)
    (hd : x.since + 15000000000 ≤ s.clk) :
    (∃ z ∈ (s.raiseUnwatched f ch).canopy.unwatched, z.fe = x.fe ∧ z.hz = x.hz ∧ z.raised = some s.clk) ∧ (s.raiseUnwatched f ch).lanes = s.lanes := by
  have hdue : (!decide (x.since + secTicks 60 ≤ s.noteUnwatched.clk)) = false := by
    have : x.since + secTicks 60 ≤ s.noteUnwatched.clk := hd
    simp [this]
  unfold State.raiseUnwatched
  dsimp only
  rw [h]
  dsimp only
  rw [hr]
  dsimp only
  rw [hdue, if_neg Bool.false_ne_true]
  simp only [State.raise_fields]
  refine ⟨⟨_, List.mem_map_of_mem (List.mem_of_find?_eq_some h), ?_⟩, rfl⟩
  rw [if_pos ⟨rfl, rfl⟩]
  exact ⟨rfl, rfl, rfl⟩

end Sys2Proof.Machine

namespace Sys2Proof.Machine

/-! # A slice move (R116, R298, R315) -/

/-! ## The layout of groups after a move -/

theorem Tbl.mem_set {α : Type} {t : Tbl α} {i : Nat} {a : α} {p : Nat × α} (h : p ∈ Tbl.set t i a) : p = (i, a) ∨ p ∈ t := by
  induction t with
  | nil => exact .inl (List.mem_singleton.1 h)
  | cons q t ih =>
    unfold Tbl.set at h
    split at h
    · simpa using h
    · split at h
      · exact (List.mem_cons.1 h).imp_right (List.mem_cons_of_mem q)
      · rcases List.mem_cons.1 h with rfl | hp
        · exact .inr List.mem_cons_self
        · exact (ih hp).imp_right (List.mem_cons_of_mem q)

/-- What follows one frequency of the new slice: the runs closed, and the one under way. -/
def runStep (grouped : Nat → Bool) (w : Nat) (r : List (List Nat) × List Nat) (hz : Nat) : List (List Nat) × List Nat :=
  if grouped hz then (if r.2.isEmpty then r.1 else r.1 ++ [r.2], [])
  else if r.2.length + 1 = w then (r.1 ++ [r.2 ++ [hz]], [])
  else (r.1, r.2 ++ [hz])

/-- Every run lies in a list of frequencies. -/
def RunsIn (hzs : List Nat) (r : List (List Nat) × List Nat) : Prop := (∀ l ∈ r.1, l ⊆ hzs) ∧ r.2 ⊆ hzs

theorem RunsIn.close {hzs l : List Nat} {r : List (List Nat)} (h : ∀ l ∈ r, l ⊆ hzs) (hl : l ⊆ hzs) : ∀ k ∈ r ++ [l], k ⊆ hzs := by
  simpa [or_imp, forall_and] using And.intro h hl

theorem RunsIn.step {hzs : List Nat} {r : List (List Nat) × List Nat} (h : RunsIn hzs r) (grouped : Nat → Bool) (w : Nat) {hz : Nat} (hm : hz ∈ hzs) :
    RunsIn hzs (runStep grouped w r hz) := by
  obtain ⟨hd, hu⟩ := h
  have hl : r.2 ++ [hz] ⊆ hzs := List.append_subset.2 ⟨hu, by simpa using hm⟩
  unfold runStep
  split
  · refine ⟨?_, List.nil_subset _⟩
    dsimp only
    split
    · exact hd
    · exact RunsIn.close hd hu
  · split
    · exact ⟨RunsIn.close hd hl, List.nil_subset _⟩
    · exact ⟨hd, hl⟩

theorem RunsIn.foldl {hzs l : List Nat} {r : List (List Nat) × List Nat} (h : RunsIn hzs r) (grouped : Nat → Bool) (w : Nat) (hl : l ⊆ hzs) :
    RunsIn hzs (l.foldl (runStep grouped w) r) := by
  induction l generalizing r with
  | nil => exact h
  | cons z l ih =>
    obtain ⟨hz, ht⟩ := List.cons_subset.1 hl
    exact ih (h.step grouped w hz) ht

/-- All runs, the one under way among them. -/
def allRuns (r : List (List Nat) × List Nat) : List (List Nat) := if r.2.isEmpty then r.1 else r.1 ++ [r.2]

theorem RunsIn.all {hzs : List Nat} {r : List (List Nat) × List Nat} (h : RunsIn hzs r) : ∀ l ∈ allRuns r, l ⊆ hzs := by
  obtain ⟨hd, hu⟩ := h
  unfold allRuns
  split
  · exact hd
  · exact RunsIn.close hd hu

/-- The groups that a move of f to centre c leaves as they are. -/
def State.keptGroups (s : State) (f : Fe) (c : Nat) : Tbl Group :=
  s.canopy.groups.filter fun p => p.2.fe != feCode f || p.2.freqs.all fun hz => (sliceFreqs c (s.raster f)).contains hz

/-- Numbers with their runs of frequencies become groups of a front end. -/
def addGroups (fe : Nat) (t : Tbl Group) (l : List (Nat × List Nat)) : Tbl Group := l.foldl (fun t p => t.set p.1 { fe := fe, freqs := p.2 }) t

theorem mem_addGroups {fe : Nat} {t : Tbl Group} {l : List (Nat × List Nat)} {p : Nat × Group} (h : p ∈ addGroups fe t l) :
    p ∈ t ∨ ∃ q ∈ l, p.2.freqs = q.2 := by
  induction l generalizing t with
  | nil => exact .inl h
  | cons q l ih =>
    rcases ih h with hp | ⟨x, hx, hf⟩
    · rcases Tbl.mem_set hp with rfl | hp
      · exact .inr ⟨q, List.mem_cons_self, rfl⟩
      · exact .inl hp
    · exact .inr ⟨x, List.mem_cons_of_mem q hx, hf⟩

theorem State.regroup_eq (s : State) (f : Fe) (c : Nat) : ∃ grouped free, s.regroup f c = addGroups (feCode f) (s.keptGroups f c)
    (List.zip free (allRuns ((sliceFreqs c (s.raster f)).foldl (runStep grouped (s.groupWidth f)) ([], [])))) := ⟨_, _, rfl⟩

/-- The groups of the front end lie in its new slice. -/
theorem State.regroup_within {s : State} {f : Fe} {c : Nat} {p : Nat × Group} (h : p ∈ s.regroup f c) (hp : p.2.fe = feCode f) :
    p.2.freqs ⊆ sliceFreqs c (s.raster f) := by
  obtain ⟨grouped, free, hr⟩ := s.regroup_eq f c
  rw [hr] at h
  rcases mem_addGroups h with hk | ⟨q, hq, hf⟩
  · have hall := (List.mem_filter.1 hk).2
    rw [hp] at hall
    simpa [List.subset_def] using hall
  · have hin : RunsIn (sliceFreqs c (s.raster f)) ([], []) := ⟨by simp, List.nil_subset _⟩
    rw [hf]
    exact (hin.foldl grouped (s.groupWidth f) (List.Subset.refl _)).all q.2 (List.of_mem_zip hq).2

/-! ## What the lanes' changes of assignment leave of the front end that moves -/

theorem State.mac_laneMoved (s : State) (l : Nat) : s.MacWrites (s.laneMoved l) := by
  refine .foldl (fun s f => ?_) feAll s
  dsimp only
  split
  · split
    · exact s.mac_setFe f rfl (.inl rfl)
    · exact .refl s
  · exact .refl s

theorem State.mac_noteIdle (s : State) (p : Option (Nat × Nat)) : s.MacWrites (s.noteIdle p) := by
  unfold State.noteIdle
  split
  · exact .ite (s.mac_setFe _ rfl (.inl rfl)) (.refl s)
  · exact .refl s

/-- A change of assignment writes what the MAC may write, and may wake the lane's new front end (R117, R119). -/
theorem State.assignEffect_cases (s : State) (l : Nat) :
    ∃ v, s.MacWrites v ∧ (s.assignEffect l = v ∨ ∃ g, s.assignEffect l = v.wakeFe g) := by
  unfold State.assignEffect
  extract_lets x
  split
  · extract_lets taken lost v₁ y v₂ v₃
    have h₁ : s.MacWrites v₁ := .ite (.refl s) (s.mac_laneMoved l)
    have h₃ : s.MacWrites v₃ := (h₁.trans (v₁.mac_setLane l _)).trans (v₂.mac_noteIdle _)
    split
    · exact ⟨s, .refl s, .inl rfl⟩
    · split
      · exact ⟨_, s.mac_setLane l _, .inl rfl⟩
      · split
        · exact ⟨v₃, h₃, .inr ⟨_, rfl⟩⟩
        · exact ⟨v₃, h₃, .inl rfl⟩
  · exact ⟨s, .refl s, .inl rfl⟩

theorem State.feSt_wakeFe_ne (s : State) {f g : Fe} (h : f ≠ g) : (s.wakeFe g).feSt f = s.feSt f := by
  have on : ∀ x : FeSt, (s.setFe g x).feSt f = s.feSt f := fun x => by rw [State.feSt_setFe, if_neg h]
  unfold State.wakeFe
  dsimp only
  split
  · exact on _
  · split
    · exact on _
    · rfl
  · rfl

/-- A front end that is up: awake, and not waiting with its synthesiser on. -/
def FeSt.isUp (x : FeSt) : Prop := x.mode ≠ .sleep ∧ x.mode ≠ .synthOn

theorem FeSt.isUp_of_sansMac {x y : FeSt} (h : x.isUp) (e : y.sansMac = x.sansMac) : y.isUp := by
  have hm : y.mode = x.mode := (congrArg FeSt.mode e :)
  rw [FeSt.isUp, hm]
  exact h

theorem State.assignEffect_sansMac {s : State} {f : Fe} (h : (s.feSt f).isUp) (l : Nat) :
    ((s.assignEffect l).feSt f).sansMac = (s.feSt f).sansMac := by
  obtain ⟨v, hv, e | ⟨g, e⟩⟩ := s.assignEffect_cases l
  · rw [e]
    exact hv.fe f
  · rw [e, ← hv.fe f]
    by_cases hg : f = g
    · obtain ⟨hm, hn⟩ := FeSt.isUp_of_sansMac h (hv.fe f)
      rw [← hg, State.wakeFe_of_up hm hn]
    · rw [State.feSt_wakeFe_ne _ hg]

theorem State.settleLanes_sansMac {s : State} {f : Fe} (h : (s.feSt f).isUp) : (s.settleLanes.feSt f).sansMac = (s.feSt f).sansMac := by
  have all : ∀ (ls : List Nat) (s : State), (s.feSt f).isUp → ((ls.foldl State.assignEffect s).feSt f).sansMac = (s.feSt f).sansMac := by
    intro ls
    induction ls with
    | nil => exact fun s _ => rfl
    | cons l ls ih =>
      intro s h
      have hl := State.assignEffect_sansMac h l
      exact (ih _ (FeSt.isUp_of_sansMac h hl)).trans hl
  exact all _ s h

/-! ## The move -/

theorem State.mode_rxCalibrate (s : State) (f : Fe) (n : Nat) : ((s.rxCalibrate f n).feSt f).mode = (s.feSt f).mode := by
  rw [State.rxCalibrate_eq, State.feSt_setFe_self]
  exact (congrArg FeSt.mode ((s.mac_blankFe f (c := .rxCutCal) (by decide)).fe f) :)

/-- The attempt of a front end that has moved takes its channel's new number, or is given up where the new slice has none for it. -/
def State.renumAttempt (s : State) (f : Fe) (renum : Nat → Option Nat) : State :=
  match (s.feSt f).attempt with
  | some a => match renum a.channel with
    | some k => s.setFe f { s.feSt f with attempt := some { a with channel := k } }
    | none =>
      let s := (s.giveBack f a).setFe f { (s.giveBack f a).feSt f with attempt := none }
      match a.body with
      | .frame q => s.putBack f q
      | .beacon _ => s.skipBeacon f
      | .test => s
  | none => s

theorem State.mac_renumAttempt (s : State) (f : Fe) (renum : Nat → Option Nat) : s.MacWrites (s.renumAttempt f renum) := by
  unfold State.renumAttempt
  split
  · next a _ =>
    split
    · exact s.mac_setFe f rfl (.inl rfl)
    · have hg : s.MacWrites ((s.giveBack f a).setFe f { (s.giveBack f a).feSt f with attempt := none }) :=
        (s.mac_giveBack f a).trans (State.mac_setFe _ f rfl (.inl rfl))
      dsimp only
      split
      · exact hg.trans (State.mac_putBack _ f _)
      · exact hg.trans (State.mac_skipBeacon _ f)
      · exact hg
  · exact .refl s

theorem State.makeMove_slice {s : State} {f : Fe} (mv : SliceMove) (hup : (s.feSt f).isUp) :
    ((s.makeMove f mv).feSt f).centre = mv.centre ∧ ((s.makeMove f mv).feSt f).move = none ∧ ((s.makeMove f mv).feSt f).table = [] ∧
      ((s.makeMove f mv).feSt f).rxCal = some (s.clk + 11500) ∧ (s.makeMove f mv).canopy.groups = s.regroup f mv.centre := by
  unfold State.makeMove
  extract_lets c old r renum groups s₁ s₂ was s₃ s₄ x s₅ fix mac canopy s₆ y s₇
  have h₁ : s₁.clk = s.clk ∧ s₁.feSt f = s.feSt f := by
    obtain ⟨l, k, h⟩ := s.canLog_eq 0x02 0 0xFF 0 c (s.groupBits f s.canopy.groups) (s.groupBits f groups) 0
    rw [show s₁ = _ from h]
    exact ⟨rfl, rfl⟩
  have hcal : (s₂.feSt f).rxCal = some (s.clk + 11500) := by rw [← h₁.1]; exact s₁.rxCal_rxCalibrate f 1
  have hmode : (s₂.feSt f).mode = (s.feSt f).mode := by rw [← h₁.2]; exact s₁.mode_rxCalibrate f 1
  have h₃ : s₂.MacWrites s₃ := .foldl (fun s l => (s.mac_setLane l _).trans (State.mac_laneMoved _ l)) was s₂
  have h₄ : s₃.MacWrites s₄ := .foldl (fun s p => .ite (s.mac_setLane p.1 _) (.refl s)) mv.watch s₃
  have hx : x.sansMac = (s₂.feSt f).sansMac := (h₃.trans h₄).fe f
  have h₆ : s₆.feSt f = s₅.feSt f := rfl
  have h₅ : s₅.feSt f = _ := State.feSt_setFe_self s₄ f _
  have h₇ : s₆.MacWrites s₇ := s₆.mac_renumAttempt f renum
  have he : ((s₇.touch .canopy).feSt f).sansMac = (s₅.feSt f).sansMac := by
    rw [State.feSt_of_fe (congrArg State.fe (State.touch_eq _ _).1 :)]
    exact h₇.fe f
  have hup₂ : (s₂.feSt f).isUp := by
    rw [FeSt.isUp, hmode]
    exact hup
  have hupx : x.isUp := FeSt.isUp_of_sansMac hup₂ hx
  have hup₅ : (s₅.feSt f).isUp := by
    rw [h₅]
    exact hupx
  have hu := (State.settleLanes_sansMac (FeSt.isUp_of_sansMac hup₅ he)).trans he
  rw [h₅] at hu
  refine ⟨(congrArg FeSt.centre hu :), (congrArg FeSt.move hu :), (congrArg FeSt.table hu :), ?_, ?_⟩
  · exact (congrArg FeSt.rxCal hu :).trans ((congrArg FeSt.rxCal hx :).trans hcal)
  · rw [State.canopy_settleLanes, State.canopy_touch]
    exact (congrArg (fun s : State => s.canopy.groups) h₇.rest :)

/-! ## When it is made (R65, R116) -/

/-- The front end receives, and neither sends nor is asked to. -/
def State.moveIdle (s : State) (f : Fe) : Prop :=
  (s.feSt f).cur = none ∧ (s.feSt f).held = none ∧ (s.feSt f).posted = [] ∧ s.feMode f = .rx

theorem State.moveBusy_iff (s : State) (f : Fe) :
    ((s.feSt f).cur.isSome || (s.feSt f).held.isSome || !(s.feSt f).posted.isEmpty || s.feMode f != .rx) = true ↔ ¬ s.moveIdle f := by
  unfold State.moveIdle
  rw [← Option.not_isSome_iff_eq_none, ← Option.not_isSome_iff_eq_none, ← List.isEmpty_iff]
  cases (s.feSt f).cur.isSome <;> cases (s.feSt f).held.isSome <;> cases (s.feSt f).posted.isEmpty <;> simp

section Move
variable {s : State} {f : Fe} {mv : SliceMove}

theorem State.sliceMove_of_none (h : (s.feSt f).move = none) : s.sliceMove f = s := by
  unfold State.sliceMove
  dsimp only
  rw [h]

theorem State.sliceMove_busy (h : ¬ s.moveIdle f) : s.sliceMove f = s := by
  unfold State.sliceMove
  dsimp only
  split
  · rfl
  · exact if_pos (by rw [(s.moveBusy_iff f).2 h, Bool.true_or])

theorem State.sliceMove_waits (hm : (s.feSt f).move = some mv) (hl : ∃ l ∈ s.lanesOn f, s.frameEndOf l ≠ none) (hc : s.clk < mv.clk + 12500000) :
    s.sliceMove f = s := by
  have hh : (s.lanesOn f).any (fun l => (s.frameEndOf l).isSome) = true := by
    simpa [Option.ne_none_iff_isSome] using hl
  have hd : s.clk < mv.clk + msTicks 50 := hc
  unfold State.sliceMove
  dsimp only
  rw [hm]
  exact if_pos (by simp [hh, hd])

theorem State.sliceMove_made (hi : s.moveIdle f) (hm : (s.feSt f).move = some mv)
    (hl : (∀ l ∈ s.lanesOn f, s.frameEndOf l = none) ∨ mv.clk + 12500000 ≤ s.clk) : s.sliceMove f = s.makeMove f mv := by
  have hb := mt (s.moveBusy_iff f).1 (not_not.2 hi)
  have hw : ((s.lanesOn f).any (fun l => (s.frameEndOf l).isSome) && decide (s.clk < mv.clk + msTicks 50)) = false := by
    rcases hl with hl | hl
    · have : (s.lanesOn f).any (fun l => (s.frameEndOf l).isSome) = false := by simpa using hl
      rw [this, Bool.false_and]
    · have : ¬ s.clk < mv.clk + msTicks 50 := Nat.not_lt.2 hl
      simp [this]
  unfold State.sliceMove
  dsimp only
  rw [hm]
  dsimp only
  rw [hw, Bool.or_false, if_neg hb]

theorem State.isUp_of_rx (h : s.feMode f = .rx) : (s.feSt f).isUp := by
  unfold State.feMode at h
  dsimp only at h
  split at h
  · next hl => simp [FeSt.isUp, hl.1]
  · simp [FeSt.isUp, h]

end Move

/-- Settles O49: the rounds, and each row by the lemmas about the operation it is. -/
theorem canopyRows : Obligations.CanopyRows := by
  unfold Obligations.CanopyRows
  intro dt s e f i ch n c mv x t k y
  refine ⟨fun hf hr hk => ⟨fun he => ?_, fun he => ?_⟩, fun h => ?_, fun h => ?_, fun h => ?_, fun hm hc hh hp hx hl => ?_, fun h => ?_,
    fun hm hl hc => ?_, fun hi hp => ⟨fun he => ?_, fun he => ?_, fun hc hb he => ?_, fun hc hb => ?_⟩, ?_, fun hf hr hx hn hd => ?_⟩
  case refine_1 => exact congrArg Host.Outcome.next (State.canopyRound_late ⟨hf, hr, hk⟩ he)
  case refine_2 => exact ⟨_, rfl, State.round_canopyRound ⟨hf, hr, hk⟩ he, (t.boot_canopyRound e).1, (t.boot_canopyRound e).2⟩
  case refine_3 =>
    refine congrArg Host.Outcome.next (State.canopyRound_undue (fun ⟨hf, hr, hk⟩ => ?_) e)
    rcases h with h | h | h
    · exact absurd hk (Nat.not_le.2 h)
    · exact Bool.false_ne_true (h.symm.trans hf)
    · exact Bool.false_ne_true (h.symm.trans hr)
  case refine_4 => exact ⟨congrArg Host.Outcome.next (State.assignNow_of_none h), congrArg Host.Outcome.next (State.assignWithdraw_of_none h)⟩
  case refine_5 =>
    refine congrArg Host.Outcome.next (if_neg fun hb => ?_)
    obtain ⟨hf, hr⟩ := Bool.and_eq_true_iff.1 hb
    rcases h with h | h
    · exact Bool.false_ne_true (h.symm.trans hf)
    · exact Bool.false_ne_true (h.symm.trans hr)
  case refine_6 =>
    obtain ⟨hcentre, hmove, htable, hcal, hgroups⟩ := State.makeMove_slice mv (State.isUp_of_rx hx)
    have hmade : t.sliceMove f = t.makeMove f mv := State.sliceMove_made ⟨hc, hh, hp, hx⟩ hm hl
    refine ⟨t.makeMove f mv, congrArg Host.Outcome.next hmade, hcentre, hmove, htable, hcal, fun p hp hfe => ?_⟩
    rw [hgroups] at hp
    exact State.regroup_within hp hfe
  case refine_7 =>
    refine congrArg Host.Outcome.next ?_
    by_cases hm : y.move = none
    · exact State.sliceMove_of_none hm
    · refine State.sliceMove_busy fun ⟨hc, hh, hp, hx⟩ => ?_
      rcases h with h | h | h | h | h
      · exact hm h
      · exact h hc
      · exact h hh
      · exact h hp
      · exact h hx
  case refine_8 => exact congrArg Host.Outcome.next (State.sliceMove_waits hm hl hc)
  case refine_9 => exact ⟨_, rfl, State.assignNow_places hi hp he⟩
  case refine_10 => exact congrArg Host.Outcome.next (State.assignNow_early hi he)
  case refine_11 =>
    obtain ⟨m, hm, hrest⟩ := State.assignWithdraw_clears hi hp hc hb he
    exact ⟨_, m, rfl, hm, hrest⟩
  case refine_12 => exact congrArg Host.Outcome.next (State.assignWithdraw_begun hi hc hb)
  case refine_13 =>
    obtain ⟨hlanes, htable⟩ := t.freezeEnd_fields
    exact ⟨_, rfl, hlanes, htable, fun z => (t.mem_freezes_freezeEnd z).trans (and_congr_right' (t.thawed_eq_false_iff z))⟩
  case refine_14 =>
    have hon : (t.firmware && t.life.radioOn) = true := Bool.and_eq_true_iff.2 ⟨hf, hr⟩
    exact ⟨_, congrArg Host.Outcome.next (if_pos hon), State.raiseUnwatched_marks hx hn hd⟩

end Sys2Proof.Machine

namespace Sys2Proof.Machine

/-! # Preamble hunt, delimiter and PHY header of a lane, and O38 -/

/-! ## A lane that goes back to its hunt (R116, R122) -/

theorem State.laneAt_of_laneOn {s : State} {l k : Nat} {f : Fe} (h : s.laneOn l = some (f, k)) : s.laneAt l = some (f, k) := by
  unfold State.laneOn at h
  unfold State.laneAt
  split at h
  · next c k' ha =>
    split at h
    · next f' hf =>
      split at h
      · cases h
        simp only [hf, Option.map_some]
      · cases h
    · cases h
  · cases h

/-- Marking a sensing interval busy writes its front end only. -/
theorem State.markBusy_frame (s : State) (f : Fe) (k : Nat) : s.markBusy f k = { s with fe := (s.markBusy f k).fe } := by
  unfold State.markBusy
  dsimp only
  split
  · split <;> rfl
  · rfl

theorem State.lane_markBusy (s : State) (f : Fe) (k l : Nat) : (s.markBusy f k).lane l = s.lane l :=
  State.lane_of_lanes (congrArg State.lanes (s.markBusy_frame f k) :) l

/-- A lane that is rewound before its PHY header has ended holds no cells: it and the decoder pool alone change, and its assignment stands. -/
theorem State.rewindLane_of_noFrame {s : State} {l : Nat} (h : ∀ i g, (s.laneNow l).phase ≠ .frame i g) :
    s.rewindLane l = { s with lanes := (s.rewindLane l).lanes, dec := (s.rewindLane l).dec } ∧
      ((s.rewindLane l).lane l).assigned = (s.laneNow l).assigned := by
  unfold State.rewindLane
  extract_lets x t
  have ht : s = t := by
    unfold t
    split
    · next i g hx => exact absurd hx (h i g)
    · rfl
  clear_value t
  subst ht
  split
  · exact ⟨rfl, (congrArg LaneSt.assigned (s.lane_setLane_self l { x with phase := .hunt, ackOwed := false, tagClk := none }) :)⟩
  · exact ⟨rfl, (congrArg LaneSt.assigned (s.lane_setLane_self l { x with phase := .hunt }) :)⟩

/-- Such a lane hunts again with one count. -/
theorem State.rewindLane_count {s : State} {l : Nat} (h : ∀ i g, (s.laneNow l).phase ≠ .frame i g) (c : Ctr) (sc : Scope) :
    let u := (s.rewindLane l).count c sc
    (u.lane l).phase = .hunt ∧ (u.lane l).assigned = (s.laneNow l).assigned ∧ u.counter c sc = s.counter c sc + 1 ∧
      u = { s with lanes := u.lanes, dec := u.dec, tally := u.tally } := by
  intro u
  obtain ⟨hframe, hassigned⟩ := State.rewindLane_of_noFrame h
  have hlane : u.lane l = (s.rewindLane l).lane l := State.lane_of_lanes rfl l
  have hphase := s.lane_rewindLane l l
  rw [if_pos rfl] at hphase
  have htally : (s.rewindLane l).counter c sc = s.counter c sc := State.counter_of_tally (congrArg State.tally hframe :) c sc
  refine ⟨hlane ▸ hphase, hlane ▸ hassigned, ?_, ?_⟩
  · rw [State.counter_count_self, htally]
  · exact congrArg (fun v : State => { v with tally := u.tally }) hframe

/-! ## The hunt (R121 to R123) -/

section Hunt

variable {s : State} {l k : Nat} {f : Fe} {p : Preamble}

/-- A detection is made on front end f of a preamble of n symbols or units: samples come, it is long enough, a port that serves is above the
threshold, and a mode it leads to is hunted for. -/
def State.Detects (s : State) (f : Fe) (p : Preamble) (n ca cb : Nat) : Prop :=
  s.hears f = true ∧ leastPreamble p ≤ n ∧ (s.portHears f 0 = true ∧ s.detectThr < ca ∨ s.portHears f 1 = true ∧ s.detectThr < cb) ∧
    (s.hunts f p false = true ∨ s.hunts f p true = true)

/-- The model's test of a detection. -/
theorem State.Detects.test_eq {n ca cb : Nat} (h : s.Detects f p n ca cb) :
    (!s.hears f || decide (n < leastPreamble p) ||
      !((s.portHears f 0 && decide (s.detectThr < ca)) || (s.portHears f 1 && decide (s.detectThr < cb))) ||
      !(s.hunts f p false || s.hunts f p true)) = false := by
  obtain ⟨hhears, hlen, hport, hmode⟩ := h
  have hheard : ((s.portHears f 0 && decide (s.detectThr < ca)) || (s.portHears f 1 && decide (s.detectThr < cb))) = true := by
    simpa using hport
  have hhunts : (s.hunts f p false || s.hunts f p true) = true := by simpa using hmode
  rw [hhears, decide_eq_false (Nat.not_lt.2 hlen), hheard, hhunts]
  rfl

theorem State.preamble_of_hunt {n ca cb : Nat} (hl : s.laneOn l = some (f, k)) (h : s.Detects f p n ca cb)
    (hx : (s.laneNow l).phase = .hunt) (lv : Nat) :
    s.preamble l p n ca cb lv = (s.setLane l { s.laneNow l with phase := .detect p lv s.clk }).markBusy f k := by
  simp only [State.preamble, hl, h.test_eq, Bool.false_eq_true, if_false, hx]

/-- A preamble stronger by the capture threshold displaces the one detected. -/
theorem State.preamble_of_capture {q : Preamble} {n ca cb lv l0 d : Nat} (hl : s.laneOn l = some (f, k)) (h : s.Detects f p n ca cb)
    (hx : (s.laneNow l).phase = .detect q l0 d) (hc : s.captureDb ≠ 0) (hlv : l0 + s.captureDb ≤ lv) :
    s.preamble l p n ca cb lv = (s.setLane l { s.laneNow l with phase := .detect p lv s.clk }).count .rxCapture (.lane l) := by
  simp only [State.preamble, hl, h.test_eq, Bool.false_eq_true, if_false, hx]
  exact if_pos ⟨hc, hlv⟩

theorem State.preamble_of_unheard {n : Nat} (hl : s.laneOn l = some (f, k)) (h : n < leastPreamble p ∨ s.hears f = false) (ca cb lv : Nat) :
    s.preamble l p n ca cb lv = s := by
  simp only [State.preamble, hl]
  refine if_pos ?_
  rcases h with h | h <;> simp [h]

theorem State.sfdTimeout_of_detect {lv d : Nat} (hl : s.laneOn l = some (f, k)) (hx : (s.laneNow l).phase = .detect p lv d) :
    s.sfdTimeout l = if s.searchEnd f p d ≤ s.clk then (s.rewindLane l).count .rxSfdTimeout (.lane l) else s := by
  simp only [State.sfdTimeout, State.laneAt_of_laneOn hl, hx]

end Hunt

/-! ## The delimiter (R88, R89, R91, R124 to R127) -/

section Delimiter

variable {s : State} {l k : Nat} {f : Fe} {p : Preamble}

/-- Of two ports that serve, the one of the greater metric is chosen, A where they are equal. -/
theorem State.chooseAerial_both (h0 : s.portHears f 0 = true) (h1 : s.portHears f 1 = true) (a b : PortMetric) :
    (s.chooseAerial f a b).1 = (if portMetric b.s b.e ≤ portMetric a.s a.e then 0 else 1) ∧
      (s.chooseAerial f a b).2.1 = max (portMetric a.s a.e) (portMetric b.s b.e) := by
  simp only [State.chooseAerial, h0, h1, Bool.true_and, Bool.not_true, Bool.false_or, decide_eq_true_eq]
  split
  · next hle => exact ⟨rfl, (max_eq_left hle).symm⟩
  · next hlt => exact ⟨rfl, (max_eq_right (Nat.le_of_not_le hlt)).symm⟩

theorem State.chooseAerial_a (h0 : s.portHears f 0 = true) (h1 : s.portHears f 1 = false) (a b : PortMetric) :
    s.chooseAerial f a b = (0, portMetric a.s a.e, a.level) := by
  simp [State.chooseAerial, h0, h1]

theorem State.chooseAerial_b (h0 : s.portHears f 0 = false) (a b : PortMetric) : s.chooseAerial f a b = (1, portMetric b.s b.e, b.level) := by
  simp [State.chooseAerial, h0]

/-- What a lane fixes at the end of the delimiter. -/
def State.atSfd (s : State) (f : Fe) (k : Nat) (p : Preamble) (sync : Bool) (off : Int) (a b : PortMetric) : RxInfo :=
  let c := s.chooseAerial f a b
  { fe := feCode f, channel := k, sfdClk := s.clk, pre := p, sync := sync, port := c.1, snr := c.2.1, level := c.2.2, offset8 := off
    sfdNs := s.netNs / 8 * 8, cmpNs := s.netNs / 8 * 8, tracked := s.tracking f }

/-- A delimiter in time, of a mode hunted for and a carrier pulled in, takes the lane to the header. -/
theorem State.sfdFound_fixes {lv d : Nat} {word : BitVec 32} {sync : Bool} {off : Int} (hl : s.laneOn l = some (f, k))
    (hx : (s.laneNow l).phase = .detect p lv d) (hh : s.hears f = true) (hd : s.delimiter f p word = some sync)
    (hm : s.hunts f p sync = true) (hp : pullsIn (s.freqOf f k) off = true) (he : s.clk ≤ s.searchEnd f p d) (a b : PortMetric) :
    s.sfdFound l word off a b = s.setLane l { s.laneNow l with phase := .header (s.atSfd f k p sync off a b) } := by
  have hn : ¬ s.searchEnd f p d < s.clk := Nat.not_lt.2 he
  simp only [State.sfdFound, hl, hx, hd, hh, hm, hp, hn, Bool.not_true, decide_false, Bool.or_self, Bool.false_eq_true, if_false]
  rfl

theorem State.sfdFound_of_noDelimiter {lv d : Nat} {word : BitVec 32} (hl : s.laneOn l = some (f, k))
    (hx : (s.laneNow l).phase = .detect p lv d) (hd : s.delimiter f p word = none) (off : Int) (a b : PortMetric) :
    s.sfdFound l word off a b = s := by
  simp only [State.sfdFound, hl, hx, hd]

end Delimiter

/-! ## The PHY header (R88, R89, R94, R108, R129, R130, R502) -/

section Header

variable {s v : State} {l k : Nat} {f : Fe} {i : RxInfo} {hdr : PhyHeader} {c : Ctr} {mode rate len : Nat} {cw pil fcs dw : Bool}

/-- Network time of the end of the PSDU that a header just ended announces. -/
def State.psduEnd (s : State) (f : Fe) (i : RxInfo) (mode rate : Nat) (cw pil : Bool) (len : Nat) : Nat :=
  s.netNs + afterSfd { mode := mode, rate := rate, cwlen := cw, pilots := pil, preamble := 0, hsUnits := 0, onH := f = .h } len * 1000 -
    (s.clk - i.sfdClk) * 4

/-- The frame such a header opens, its cells drawn from v. -/
def State.openFrame (v : State) (mode rate : Nat) (cw pil fcs dw : Bool) (len endNs : Nat) : RxHdr :=
  { mode := mode, rate := rate, cwlen := cw, pilots := pil, fcs2 := fcs, whitening := dw, length := len, cells := cellsOf (16 + len)
    chain := v.drawCells (cellsOf (16 + len)) [], codewords := if mode ≥ 4 then helecCodewords rate cw len else 0, received := 0, decoded := 0
    iterations := 0, ldpcBad := false, endNs := endNs }

theorem State.headerEnd_reject (hl : s.laneOn l = some (f, k)) (hx : (s.laneNow l).phase = .header i)
    (hc : s.checkHeader f i hdr = some (.reject c)) : s.headerEnd l hdr = (s.rewindLane l).count c (.pipe (feCode f)) := by
  simp only [State.headerEnd, hl, hx, hc]

theorem State.headerEnd_noDecoder (hl : s.laneOn l = some (f, k)) (hx : (s.laneNow l).phase = .header i)
    (hc : s.checkHeader f i hdr = some (.frame mode rate cw pil fcs dw len)) (hm : 4 ≤ mode) (hd : s.noDecoder = true) :
    s.headerEnd l hdr = (s.rewindLane l).count .rxNoDecoder (.pipe (feCode f)) := by
  simp only [State.headerEnd, hl, hx, hc]
  exact if_pos ⟨hm, hd⟩

/-- A mode without codewords, or a core that serves: the header is not rejected for want of a decoder. -/
theorem State.decoderServes (h : mode < 4 ∨ s.noDecoder = false) : ¬ (mode ≥ 4 ∧ s.noDecoder = true) := by
  rintro ⟨h4, hd⟩
  rcases h with hm | hn
  · exact absurd h4 (Nat.not_le.2 hm)
  · exact Bool.false_ne_true (hn.symm.trans hd)

/-- Without its cells a frame is lost with one count of that, and at most one of the backlog behind it. -/
theorem State.headerEnd_noCells (hl : s.laneOn l = some (f, k)) (hx : (s.laneNow l).phase = .header i)
    (hc : s.checkHeader f i hdr = some (.frame mode rate cw pil fcs dw len)) (hm : mode < 4 ∨ s.noDecoder = false)
    (hg : s.grant (rxAcct (feCode f)) (cellsOf (16 + len)) = none) :
    let u := (s.rewindLane l).count .cellsExhaustedAir (.pipe (feCode f))
    s.headerEnd l hdr = u ∨ s.headerEnd l hdr = u.count .rxSecBacklogDrop (.pipe (feCode f)) := by
  simp only [State.headerEnd, hl, hx, hc, if_neg (State.decoderServes hm), hg]
  split
  · exact .inr rfl
  · exact .inl rfl

/-- With its cells granted, a frame is cut where a transmission already committed blanks the lane before its end. -/
theorem State.headerEnd_cut {o : Nat} (hl : s.laneOn l = some (f, k)) (hx : (s.laneNow l).phase = .header i)
    (hc : s.checkHeader f i hdr = some (.frame mode rate cw pil fcs dw len)) (hm : mode < 4 ∨ s.noDecoder = false)
    (hg : s.grant (rxAcct (feCode f)) (cellsOf (16 + len)) = some v) (hb : s.blankSoon f = some o) (ho : o < s.psduEnd f i mode rate cw pil len) :
    s.headerEnd l hdr = (s.rewindLane l).count .rxCutTx (.lane l) := by
  have hs : (s.blankSoon f).any (fun o => decide (o < s.psduEnd f i mode rate cw pil len)) = true := by
    rw [hb, Option.any_some]
    exact decide_eq_true ho
  simp only [State.headerEnd, hl, hx, hc, if_neg (State.decoderServes hm), hg]
  exact if_pos hs

/-- Where none does, the frame is opened with them. -/
theorem State.headerEnd_opened (hl : s.laneOn l = some (f, k)) (hx : (s.laneNow l).phase = .header i)
    (hc : s.checkHeader f i hdr = some (.frame mode rate cw pil fcs dw len)) (hm : mode < 4 ∨ s.noDecoder = false)
    (hg : s.grant (rxAcct (feCode f)) (cellsOf (16 + len)) = some v)
    (hb : ∀ o, s.blankSoon f = some o → s.psduEnd f i mode rate cw pil len ≤ o) :
    s.headerEnd l hdr = (v.picked.setLane l { v.laneNow l with
      tagClk := some v.clk
      phase := .frame i (v.openFrame mode rate cw pil fcs dw len (s.psduEnd f i mode rate cw pil len)) }).markBusy f k := by
  have hn : ¬ (s.blankSoon f).any (fun o => decide (o < s.psduEnd f i mode rate cw pil len)) = true := by
    simpa [Option.any_eq_true] using hb
  simp only [State.headerEnd, hl, hx, hc, if_neg (State.decoderServes hm), hg]
  exact if_neg hn

end Header

/-- Settles O38: each row by the lemma about what it does, and every return to the hunt by the lane that is rewound with one count. -/
theorem laneHuntAndHeader : Obligations.LaneHuntAndHeader := by
  unfold Obligations.LaneHuntAndHeader
  intro dt l s v f k d p n ca cb lv l0 word sync off a b i hdr t x pipe hl
  refine ⟨fun hh hn hc hm => ?_, fun h => ?_, fun hx => ⟨fun he => ?_, fun he => ?_, fun hh hd hm hp he => ?_, fun hd => ?_⟩, fun c hx hc => ?_,
    fun mode rate cw pil fcs dw len hx hc => ?_⟩
  · have hdet : t.Detects f p n ca cb := ⟨hh, hn, hc, hm⟩
    refine ⟨fun hx => ?_, fun hx hcap hlv => ?_⟩
    · refine ⟨_, congrArg Host.Outcome.next (State.preamble_of_hunt hl hdet hx lv), ?_, fun j hj => ?_, ?_⟩
      · rw [State.lane_markBusy, State.lane_setLane_self]
      · rw [State.lane_markBusy, State.lane_setLane, if_neg hj]
      · rw [State.markBusy_frame]
        rfl
    · refine ⟨_, congrArg Host.Outcome.next (State.preamble_of_capture hl hdet hx hcap hlv), ?_, ?_⟩
      · exact State.lane_setLane_self t l _
      · rw [State.counter_count_self]
        rfl
  · exact congrArg Host.Outcome.next (State.preamble_of_unheard hl h ca cb lv)
  · have hno : ∀ i g, x.phase ≠ .frame i g := by simp [hx]
    exact ⟨_, congrArg Host.Outcome.next ((State.sfdTimeout_of_detect hl hx).trans (if_pos he)), State.rewindLane_count hno _ _⟩
  · exact congrArg Host.Outcome.next ((State.sfdTimeout_of_detect hl hx).trans (if_neg (Nat.not_le.2 he)))
  · refine ⟨_, t.atSfd f k p sync off a b, congrArg Host.Outcome.next (State.sfdFound_fixes hl hx hh hd hm hp he a b), ?_, rfl, rfl, rfl, rfl, rfl,
      Nat.mul_mod_left _ _, Nat.div_mul_le_self _ _, Nat.lt_div_mul_add (by decide), rfl, fun h0 h1 => State.chooseAerial_both h0 h1 a b,
      fun h0 h1 => ?_, fun h0 => ?_⟩
    · rw [State.lane_setLane_self]
    · simp only [State.atSfd, State.chooseAerial_a h0 h1, and_self]
    · simp only [State.atSfd, State.chooseAerial_b h0, and_self]
  · exact congrArg Host.Outcome.next (State.sfdFound_of_noDelimiter hl hx hd off a b)
  · have hno : ∀ i g, x.phase ≠ .frame i g := by simp [hx]
    obtain ⟨hphase, -, hcount, hframe⟩ := State.rewindLane_count hno c pipe
    exact ⟨_, congrArg Host.Outcome.next (State.headerEnd_reject hl hx hc), hphase, hcount, hframe⟩
  · intro e
    have hno : ∀ i g, x.phase ≠ .frame i g := by simp [hx]
    refine ⟨fun h4 hd => ?_, fun hm hg => ⟨fun hb => ?_, fun o hb ho => ?_⟩, fun hm hg => ?_⟩
    · obtain ⟨hphase, -, hcount, hframe⟩ := State.rewindLane_count hno .rxNoDecoder pipe
      exact ⟨_, congrArg Host.Outcome.next (State.headerEnd_noDecoder hl hx hc h4 hd), hphase, hcount, (congrArg State.queues hframe :)⟩
    · refine ⟨_, v.openFrame mode rate cw pil fcs dw len e, congrArg Host.Outcome.next (State.headerEnd_opened hl hx hc hm hg hb), ?_, rfl, rfl,
        rfl, rfl, rfl, rfl, rfl, rfl, rfl, ?_, ?_⟩
      · rw [State.lane_markBusy, State.lane_setLane_self]
        rfl
      · rw [State.markBusy_frame]
        rfl
      · rw [State.markBusy_frame]
        exact (congrArg State.tally (State.grant_some hg).1 :)
    · obtain ⟨hphase, -, hcount, hframe⟩ := State.rewindLane_count hno .rxCutTx (.lane l)
      exact ⟨_, congrArg Host.Outcome.next (State.headerEnd_cut hl hx hc hm hg hb ho), hphase, (congrArg State.queues hframe :), hcount⟩
    · obtain ⟨hphase, -, hcount, hframe⟩ := State.rewindLane_count hno .cellsExhaustedAir pipe
      have hqueues := (congrArg State.queues hframe :)
      rcases State.headerEnd_noCells hl hx hc hm hg with h | h
      · exact ⟨_, congrArg Host.Outcome.next h, hphase, hqueues, hcount⟩
      · exact ⟨_, congrArg Host.Outcome.next h, hphase, hqueues, (State.counter_count_ne _ _ _ (by decide)).trans hcount⟩

end Sys2Proof.Machine

namespace Sys2Proof.Machine

/-! # Lanes that return (R139, Table 5.7) -/

/-- Lanes flushed one after another (Table 5.7, step 2) stand at their start value, their test ended now; the others are untouched. -/
theorem State.lane_foldl_flush (ls : List Nat) (s : State) (j : Nat) :
    (ls.foldl (fun s l => s.setLane l { katClk := s.clk }) s).lane j = if j ∈ ls then { katClk := s.clk } else s.lane j := by
  induction ls generalizing s with
  | nil => simp
  | cons l ls ih =>
    rw [List.foldl_cons, ih, State.lane_setLane]
    by_cases hls : j ∈ ls
    · simp only [hls, List.mem_cons, or_true, if_true]
      rfl
    · simp only [hls, List.mem_cons, or_false, if_false]

theorem State.clk_setDom (s : State) (d : LaneDom) (x : LaneDomSt) : (s.setDom d x).clk = s.clk := by
  cases d <;> rfl

theorem State.lanes_owe (s : State) (kind : Nat) : (s.owe kind).lanes = s.lanes := by
  unfold State.owe
  split <;> rfl

theorem State.lanes_canLog (s : State) (kind cause world flags subject old new : Nat) (gain : Int) :
    (s.canLog kind cause world flags subject old new gain).lanes = s.lanes := by
  obtain ⟨l, n, h⟩ := s.canLog_eq kind cause world flags subject old new gain
  rw [h]

/-- A result that is not listed counts as a pass: where all listed pass, every lane does. -/
theorem getD_of_all_pass {kat : List Bool} (h : ∀ b ∈ kat, b = true) (i : Nat) : kat.getD i true = true := by
  rw [List.getD_eq_getElem?_getD]
  cases hi : kat[i]? with
  | none => rfl
  | some b => exact h b (List.mem_of_getElem? hi)

/-- Where no test fails, no lane is written after the flush: what follows goes to the log, the next round and the mailboxes. -/
theorem State.lanes_domReturn_of_pass {s : State} {d : LaneDom} {kat : List Bool} (hr : (s.dom d).returning = true)
    (hk : ∀ b ∈ kat, b = true) :
    (s.domReturn d kat).lanes = (((s.domLanes d).filter fun l => decide (l < s.laneCount) && !(s.lane l).out).foldl
      (fun s l => s.setLane l { katClk := s.clk }) (s.setDom d { powered := true })).lanes := by
  have hnone : ∀ (t : State) (ls : List Nat), (ls.filter fun l => !kat.getD (l % t.halfLanes) true) = [] := fun t ls => by
    simp only [getD_of_all_pass hk, Bool.not_true, List.filter_false]
  simp only [State.domReturn, hr, Bool.not_true, Bool.false_eq_true, if_false, hnone, List.foldl_nil, State.raise_fields]
  rw [foldl_keeps _ State.lanes fun _ _ => State.lanes_canLog .., State.lanes_owe]

/-- A lane that returns and passes its test holds nothing from before the power-down: no field but the instant of the test survives (R139). -/
theorem State.lane_domReturn_of_pass {s : State} {d : LaneDom} {kat : List Bool} {j : Nat} (hr : (s.dom d).returning = true)
    (hk : ∀ b ∈ kat, b = true) (hj : j ∈ s.domLanes d) (hc : j < s.laneCount) (ho : (s.lane j).out = false) :
    (s.domReturn d kat).lane j = { katClk := s.clk } := by
  have hmem : j ∈ (s.domLanes d).filter fun l => decide (l < s.laneCount) && !(s.lane l).out := by
    simp [hj, hc, ho]
  rw [State.lane_of_lanes (State.lanes_domReturn_of_pass hr hk), State.lane_foldl_flush, if_pos hmem, State.clk_setDom]

/-- Against what the model does, the obligation's last clause holds only if no lane comes to its return with a former assignment. -/
theorem was_eq_none_of_lanesAndDomains (h : Obligations.LanesAndDomains) {s : State} {d : LaneDom} {j : Nat}
    (hr : ((s.tick 0).dom d).returning = true) (hj : j ∈ (s.tick 0).domLanes d) (hc : j < (s.tick 0).laneCount)
    (ho : ((s.tick 0).lane j).out = false) : ((s.tick 0).lane j).was = none := by
  unfold Obligations.LanesAndDomains at h
  obtain ⟨-, -, -, -, -, -, -, -, -, hpass⟩ := h 0 0 d s .sa 0 0 .parity []
  obtain ⟨u, hu, hkept⟩ := hpass hr
  have hflushed := State.lane_domReturn_of_pass hr (kat := List.replicate 24 true) (fun _ => List.eq_of_mem_replicate) hj hc ho
  have heq : (s.tick 0).domReturn d (List.replicate 24 true) = u := Host.Outcome.next.inj hu
  rw [heq, hkept j hj ho hc] at hflushed
  exact congrArg LaneSt.was hflushed

/-- Both domains powered in OPERATE, and lane 24, in LANES-B, watching channel 3 of SA since the start. -/
def lane24Watching : State :=
  { State.reset with
    life := { lcs := .operate, mode := .operate }
    clk := 1024
    domA := { powered := true }
    domB := { powered := true }
    lanes := [(24, { assigned := some (0, 3) })] }

/-- The same part after thermal step 1 has powered LANES-B down and, left again, has commanded it up. -/
def lane24Returning : State := (lane24Watching.enterStep1.domDown .b).leaveStep1

/-- Power-down keeps a lane's former assignment with its span, for the windows still to be judged (R170). -/
theorem lane24Returning_tick :
    let t := lane24Returning.tick 0
    (t.dom .b).returning = true ∧ 24 ∈ t.domLanes .b ∧ 24 < t.laneCount ∧ (t.lane 24).out = false ∧
      (t.lane 24).was = some ((0, 3), 0, 1024) := by
  decide +kernel

/-- Refutes O40: its last clause lets a lane of a returning domain keep every field but the instant of its test.  Lane 24 of `lane24Returning`
watched (SA, 3) before the power-down and still names it as its former assignment; the model, as R139 asks, returns it without. -/
theorem not_lanesAndDomains : ¬ Obligations.LanesAndDomains := by
  intro h
  obtain ⟨hret, hdom, hcount, hout, hwas⟩ := lane24Returning_tick
  have hnone := was_eq_none_of_lanesAndDomains h hret hdom hcount hout
  rw [hwas] at hnone
  cases hnone

end Sys2Proof.Machine

namespace Sys2Proof.Machine

/-! # Frames given up: what the discard of a frame and of the rest of its packet writes (R162, R221) -/

/-! ## The relation -/

/-- Without its retry set. -/
def FeSt.sansRetry (x : FeSt) : FeSt := { x with retry := [] }

/-- Without the flows and the pacing of packets. -/
def WakeSt.sansFlows (w : WakeSt) : WakeSt := { w with flows := [], paced := [] }

/-- w is v with some of its frames gone, but not with all. -/
structure Flow.Cut (v w : Flow) : Prop where
  rest : w = { v with frames := w.frames }
  shorter : w.frames.length ≤ v.frames.length
  nonempty : v.frames ≠ [] → w.frames ≠ []

theorem Flow.Cut.refl (w : Flow) : w.Cut w := ⟨rfl, Nat.le_refl _, id⟩

theorem Flow.Cut.trans {u v w : Flow} (h : u.Cut v) (k : v.Cut w) : u.Cut w where
  rest := by rw [k.rest, h.rest]
  shorter := k.shorter.trans h.shorter
  nonempty hu := k.nonempty (h.nonempty hu)

/-- Between s and u only frames have been given up: of a front end only its retry set has changed, of the wake cycle only pacing and flows,
each of which is one of s that has lost frames. -/
structure State.Drops (s u : State) : Prop where
  clock : u.netNs = s.netNs
  fe : ∀ g, (u.feSt g).sansRetry = (s.feSt g).sansRetry
  wake : u.wake.sansFlows = s.wake.sansFlows
  flows : ∀ w ∈ u.wake.flows, ∃ v ∈ s.wake.flows, v.Cut w

namespace State.Drops

variable {s t u : State}

theorem of_flows (hn : u.netNs = s.netNs) (hf : u.fe = s.fe) (hw : u.wake.sansFlows = s.wake.sansFlows) (h : u.wake.flows = s.wake.flows) :
    s.Drops u :=
  ⟨hn, fun g => by rw [State.feSt_of_fe hf], hw, fun w hm => ⟨w, h ▸ hm, .refl w⟩⟩

theorem refl (s : State) : s.Drops s := of_flows rfl rfl rfl rfl

theorem trans (h : s.Drops t) (k : t.Drops u) : s.Drops u where
  clock := k.clock.trans h.clock
  fe g := (k.fe g).trans (h.fe g)
  wake := k.wake.trans h.wake
  flows w hw := by
    obtain ⟨v, hv, hvw⟩ := k.flows w hw
    obtain ⟨x, hx, hxv⟩ := h.flows v hv
    exact ⟨x, hx, hxv.trans hvw⟩

theorem foldl {β : Type} {f : State → β → State} (h : ∀ s b, State.Drops s (f s b)) (l : List β) (s : State) : s.Drops (l.foldl f s) := by
  induction l generalizing s with
  | nil => exact refl s
  | cons b l ih => exact (h s b).trans (ih (f s b))

theorem foldl_snd {α β : Type} {f : α × State → β → α × State} (h : ∀ r b, State.Drops r.2 (f r b).2) (l : List β) (r : α × State) :
    State.Drops r.2 (l.foldl f r).2 := by
  induction l generalizing r with
  | nil => exact refl r.2
  | cons b l ih => exact (h r b).trans (ih (f r b))

theorem count (h : s.Drops t) (c : Ctr) (x : Scope) : s.Drops (t.count c x) := h.trans (of_flows rfl rfl rfl rfl)

end State.Drops

/-! ## One fact per operation, in the order of the model's files -/

theorem State.drops_setFe (s : State) (f : Fe) {x : FeSt} (h : x.sansRetry = (s.feSt f).sansRetry) : s.Drops (s.setFe f x) where
  clock := rfl
  fe g := by
    rw [State.feSt_setFe]
    split
    · next e => rw [e, h]
    · rfl
  wake := rfl
  flows w hw := ⟨w, hw, .refl w⟩

theorem State.drops_releaseChain (s : State) (a n : Nat) (l : List Nat) : s.Drops (s.releaseChain a n l) :=
  .of_flows (by simp [State.netNs]) (by simp) (by simp) (by simp)

theorem State.drops_releaseAll (s : State) (l : List Packet) : s.Drops (s.releaseAll l) :=
  .foldl (f := fun s (p : Packet) => s.releaseChain p.acct p.cells p.chain) (fun s p => s.drops_releaseChain p.acct p.cells p.chain) l s

theorem State.drops_setOrder (s : State) (k : Nat) (l : List Packet) : s.Drops (s.setOrder k l) := .of_flows rfl rfl rfl rfl

theorem State.drops_countExpired (s : State) (a : Nat) : s.Drops (s.countExpired a) := by
  unfold State.countExpired
  split <;> exact (State.Drops.refl s).count _ _

theorem State.drops_pacedEnd (s : State) (k n e : Nat) : s.Drops (s.pacedEnd k n e) := by
  unfold State.pacedEnd
  split
  · exact .refl s
  · dsimp only
    split
    · split <;> exact .of_flows rfl rfl rfl rfl
    · exact .of_flows rfl rfl rfl rfl

theorem State.drops_removePacket (s : State) (k : Nat) : s.Drops (s.removePacket k).2 := by
  unfold State.removePacket
  extract_lets mine gone orders goneF flows _ _ t u r
  have ht : s.Drops t := by
    refine ⟨rfl, fun _ => rfl, rfl, fun w hw => ?_⟩
    obtain ⟨hmap, hne⟩ := List.mem_filter.1 (show w ∈ flows from hw)
    obtain ⟨v, hv, rfl⟩ := List.mem_map.1 hmap
    exact ⟨v, hv, rfl, List.length_filter_le _ _, fun _ => by simpa using hne⟩
  have hu : t.Drops u := (t.drops_releaseAll gone).trans (State.drops_releaseAll _ goneF)
  refine (ht.trans hu).trans (State.Drops.foldl_snd (fun r f => ?_) feAll (gone.length + goneF.length, u))
  dsimp only
  refine State.Drops.trans ?_ (.foldl (fun s (q : Retry) => s.drops_releaseChain q.acct q.cells q.chain) _ _)
  exact r.2.drops_setFe f rfl

theorem State.drops_countN (s : State) (c : Ctr) (x : Scope) (n : Nat) : s.Drops (s.countN c x n) := .of_flows rfl rfl rfl rfl

theorem State.drops_abandonRest (s : State) (d : DownFrame) : s.Drops (s.abandonRest d) := by
  unfold State.abandonRest
  split
  · exact .refl s
  · exact ((State.drops_removePacket _ _).trans (State.drops_countN _ _ _ _)).trans (State.drops_pacedEnd _ _ _ _)

theorem State.drops_discardFrame (s : State) (d : DownFrame) (a n : Nat) (l : List Nat) (c : Ctr) (x : Scope) :
    s.Drops (s.discardFrame d a n l c x) :=
  ((s.drops_releaseChain a n l).count c x).trans (State.drops_abandonRest _ d)

theorem State.drops_bulkSentBy (s : State) (f : Fe) (r : Retry) : s.Drops (s.bulkSentBy f r) :=
  (s.drops_setOrder _ _).trans (State.drops_releaseAll _ _)

theorem State.drops_frameLost (s : State) (f : Fe) (r : Retry) (c : Ctr) : s.Drops (s.frameLost f r c) := by
  unfold State.frameLost
  split
  · exact (s.drops_bulkSentBy f r).count _ _
  · exact s.drops_discardFrame _ _ _ _ _ _

theorem State.drops_attemptFailed (s : State) (f : Fe) (r : Retry) (c : Ctr) : s.Drops (s.attemptFailed f r c) := by
  unfold State.attemptFailed
  dsimp only
  split
  · exact s.drops_frameLost f _ _
  · split
    · exact s.drops_frameLost f _ _
    · exact s.drops_setFe f rfl

/-- Packets that expire leave the head of an order, each with the rest of its downstream packet (R248). -/
theorem State.drops_expireDown (s : State) (k n : Nat) : s.Drops (s.expireDown k n) := by
  induction n generalizing s with
  | zero => exact .refl s
  | succ n ih =>
    unfold State.expireDown
    split
    · next p t _ =>
      split
      · extract_lets u
        have hu : s.Drops u := ((s.drops_setOrder k t).trans (State.drops_releaseChain _ _ _ _)).trans (State.drops_countExpired _ _)
        split
        · exact (hu.trans (u.drops_abandonRest _)).trans (ih _)
        · exact hu.trans (ih _)
      · exact .refl s
    · exact .refl s

/-! ## A beacon skipped (R166) -/

/-- A skipped beacon is due no more; an attempt of its own ends. -/
theorem State.feSt_skipBeacon (s : State) (f : Fe) : ∃ a, (a = (s.feSt f).attempt ∨ a = none) ∧
    (s.skipBeacon f).feSt f = { s.feSt f with beacon := none, beaconTries := 0, attempt := a } := by
  refine ⟨_, ?_, s.feSt_setFe_self f _⟩
  exact (ite_eq_or_eq _ _ _).symm

theorem State.counter_skipBeacon (s : State) (f : Fe) :
    (s.skipBeacon f).counter .beaconSkipped (.fe (feCode f)) = s.counter .beaconSkipped (.fe (feCode f)) + 1 :=
  State.counter_count_self _ _ _

/-! ## Counters of frames given up (R161, R162) -/

/-- Counters that giving up the rest of a packet may move. -/
def abandonCounters : List Ctr := .dsFragAbandon :: cellCounters

section Counters

variable {c : Ctr} (x : Scope)

theorem State.counter_releaseAll (s : State) (l : List Packet) (hc : c ∉ cellCounters) : (s.releaseAll l).counter c x = s.counter c x :=
  foldl_keeps _ (fun s => s.counter c x) (fun s (p : Packet) => s.counter_releaseChain p.acct p.cells p.chain x hc) l s

theorem State.counter_pacedEnd (s : State) (k n e : Nat) : (s.pacedEnd k n e).counter c x = s.counter c x := by
  unfold State.pacedEnd
  split
  · rfl
  · dsimp only
    split
    · split <;> rfl
    · rfl

theorem State.counter_removePacket (s : State) (k : Nat) (hc : c ∉ cellCounters) : (s.removePacket k).2.counter c x = s.counter c x := by
  unfold State.removePacket
  refine (foldl_keeps _ (fun r : Nat × State => r.2.counter c x) (fun r f => ?_) feAll _).trans ?_
  · dsimp only
    exact foldl_keeps _ (fun s : State => s.counter c x) (fun s (q : Retry) => s.counter_releaseChain q.acct q.cells q.chain x hc) _ _
  · exact (State.counter_releaseAll x _ _ hc).trans (State.counter_releaseAll x _ _ hc)

theorem State.counter_abandonRest (s : State) (d : DownFrame) (hc : c ∉ abandonCounters) : (s.abandonRest d).counter c x = s.counter c x := by
  obtain ⟨hn, hl⟩ := not_or.1 (List.mem_cons.not.1 hc)
  unfold State.abandonRest
  split
  · rfl
  · rw [State.counter_pacedEnd, State.counter_countN, if_neg fun h => hn h.1, State.counter_removePacket x s _ hl, add_zero]

/-- A frame lost counts once under its counter. -/
theorem State.counter_frameLost (s : State) (f : Fe) (r : Retry) (hc : c ∉ abandonCounters) :
    (s.frameLost f r c).counter c (.world r.frame.world) = s.counter c (.world r.frame.world) + 1 := by
  have hl : c ∉ cellCounters := fun h => hc (List.mem_cons_of_mem _ h)
  unfold State.frameLost
  split
  · rw [State.counter_count_self, State.bulkSentBy, State.counter_releaseAll _ _ _ hl]
    rfl
  · rw [State.discardFrame, State.counter_abandonRest _ _ _ hc, State.counter_count_self, State.counter_releaseChain _ _ _ _ _ hl]

end Counters

end Sys2Proof.Machine

namespace Sys2Proof.Machine

/-! # The rows of the wake cycle, and O44 -/

/-! ## Gate entries and change-overs (R166, R212, R213) -/

section Gates

variable {s : State} {f : Fe}

/-- The beacon of an entry becomes due (R166). -/
def State.dueBeacon (s : State) (f : Fe) (start close : Nat) : State :=
  s.setFe f { s.feSt f with beacon := some close, beaconFrom := start }

theorem State.entryOpen_of_radioOff (h : s.radio = false) : s.entryOpen f = s := by
  simp only [State.entryOpen, h]
  rfl

theorem State.entryOpen_of_noEntry (hb : (s.feSt f).beacon = none) (he : s.beaconEntry f s.netNs = none) : s.entryOpen f = s := by
  simp only [State.entryOpen, hb, he, ite_self]

section Opens

variable {start close ch : Nat} (hr : s.radio = true) (he : s.beaconEntry f s.netNs = some (start, close, ch)) (hb : s.hasBeacon f = true)

include hr he

/-- An entry whose beacon has been made due opens no second time. -/
theorem State.entryOpen_of_opened (hf : (s.feSt f).beaconFrom = start) (hn : (s.feSt f).beacon = none) : s.entryOpen f = s := by
  simp [State.entryOpen, hr, hn, he, hf]

include hb

/-- With no beacon due, the entry's becomes so; a front end that cannot send it skips it. -/
theorem State.entryOpen_of_noneDue (hf : (s.feSt f).beaconFrom ≠ start) (hn : (s.feSt f).beacon = none) :
    s.entryOpen f = if s.feMode f = .off ∨ (s.feSt f).rfTest ≠ none then (s.dueBeacon f start close).skipBeacon f
      else s.dueBeacon f start close := by
  have hm : (s.dueBeacon f start close).feMode f = s.feMode f := s.feMode_setFe f rfl rfl
  unfold State.dueBeacon at hm
  simp [State.entryOpen, State.dueBeacon, hr, hn, he, hf, hb, hm, Option.isSome_iff_ne_none]

/-- A beacon still due is skipped, and the entry's is due in its place. -/
theorem State.entryOpen_of_due (hf : (s.feSt f).beaconFrom ≠ start) (hn : (s.feSt f).beacon ≠ none) (hm : s.feMode f ≠ .off)
    (ht : (s.feSt f).rfTest = none) : s.entryOpen f = (s.skipBeacon f).dueBeacon f start close := by
  obtain ⟨k, hk⟩ := Option.ne_none_iff_exists'.1 hn
  obtain ⟨a, -, hx⟩ := s.feSt_skipBeacon f
  have hmode : ((s.skipBeacon f).dueBeacon f start close).feMode f ≠ .off := by
    have hskip : (s.skipBeacon f).feMode f = s.feMode f := s.feMode_setFe f rfl rfl
    have hdue : ((s.skipBeacon f).dueBeacon f start close).feMode f = (s.skipBeacon f).feMode f := State.feMode_setFe _ f rfl rfl
    rwa [hdue, hskip]
  have hsent : ¬ ((((s.skipBeacon f).dueBeacon f start close).feMode f == .off || (s.feSt f).rfTest.isSome) = true) := by
    simp [hmode, ht]
  have hopen : ¬ ((decide ((s.feSt f).beaconFrom = start) || !s.hasBeacon f) = true) := by simp [hf, hb]
  unfold State.entryOpen
  rw [if_neg (by simp [hr])]
  simp only [hk]
  by_cases hc : k ≤ s.netNs
  · have he' : (s.skipBeacon f).beaconEntry f (s.skipBeacon f).netNs = some (start, close, ch) := he
    simp only [if_pos hc, he', hx]
    exact (if_neg hopen).trans (if_neg hsent)
  · simp only [if_neg hc, he, hk]
    exact (if_neg hopen).trans (if_neg hsent)

end Opens

theorem State.changeover_due {l : List (BitVec 64)} (hr : s.radio = true) (hs : (s.gates f).shadow = some l)
    (hb : (s.gates f).notBefore ≤ s.netNs / 2048000000 * 2048000000) :
    s.changeover f = (s.setGates f { s.gates f with active := l, shadow := none }).count .gateChangeover (.fe (feCode f)) := by
  unfold State.changeover
  simp only [hs, hr, Bool.true_and]
  exact if_pos (decide_eq_true hb)

theorem State.changeover_of_early (h : (s.gates f).shadow = none ∨ s.netNs / 2048000000 * 2048000000 < (s.gates f).notBefore) :
    s.changeover f = s := by
  unfold State.changeover
  dsimp only
  split
  · next l hl =>
    refine if_neg fun hc => ?_
    rcases h with h | h
    · rw [h] at hl; cases hl
    · exact Nat.not_le.2 h (of_decide_eq_true (Bool.and_eq_true_iff.1 hc).2)
  · rfl

theorem State.changeover_of_radioOff (h : s.radio = false) : s.changeover f = s := by
  unfold State.changeover
  simp only [h, Bool.false_and]
  split <;> rfl

end Gates

/-! ## The shaping calendar (R222, R223) -/

/-- A flow that is on the far list, released, or in a slot yet to begin. -/
def Flow.Settled (w : Flow) (now : Nat) : Prop := w.far = true ∨ w.released = true ∨ now < ceilTo w.eligible slotNs

/-- The time is `now`, and every flow is settled but those of the nodes listed. -/
structure State.Unsettled (now : Nat) (nodes : List Nat) (s : State) : Prop where
  clock : s.netNs = now
  flows : ∀ w ∈ s.wake.flows, w.Settled now ∨ w.node ∈ nodes

/-- Every flow of node i holds frames, at most n. -/
def State.FlowHolds (i n : Nat) (s : State) : Prop := ∀ w ∈ s.wake.flows, w.node = i → w.frames ≠ [] ∧ w.frames.length ≤ n

theorem Flow.settled_place (w : Flow) (now e : Nat) : (w.place now e).Settled now := by
  unfold Flow.place
  dsimp only
  split
  · exact .inr (.inl rfl)
  · next h =>
    split
    · exact .inr (.inr (Nat.not_le.1 h))
    · exact .inl rfl

@[simp] theorem Flow.node_place (w : Flow) (now e : Nat) : (w.place now e).node = w.node := by
  simp only [Flow.place, apply_ite Flow.node, ite_self]

theorem Flow.Cut.node_eq {v w : Flow} (h : v.Cut w) : w.node = v.node := (congrArg Flow.node h.rest :)

theorem Flow.Cut.settled {v w : Flow} (h : v.Cut w) {now : Nat} (hv : v.Settled now) : w.Settled now := by
  rw [h.rest]
  exact hv

section Calendar

variable {s u : State} {now i n : Nat} {nodes : List Nat}

theorem State.mem_flows_of_flowOf {w : Flow} (h : s.flowOf i = some w) : w ∈ s.wake.flows ∧ w.node = i :=
  ⟨List.mem_of_find?_eq_some h, by simpa using List.find?_some h⟩

theorem State.node_ne_of_flowOf (h : s.flowOf i = none) {w : Flow} (hw : w ∈ s.wake.flows) : w.node ≠ i := by
  simpa using List.find?_eq_none.1 h w hw

/-- A node has one flow after one is put in place, and that holds frames. -/
theorem State.mem_flows_setFlow {v w : Flow} (h : w ∈ (s.setFlow v).wake.flows) :
    w ∈ s.wake.flows ∧ w.node ≠ v.node ∨ w = v ∧ v.frames ≠ [] := by
  have hrest : ∀ {w : Flow}, w ∈ s.wake.flows.filter (fun g => g.node != v.node) → w ∈ s.wake.flows ∧ w.node ≠ v.node := by
    intro w hw
    simpa using hw
  have h' : w ∈ if v.frames.isEmpty then s.wake.flows.filter (fun g => g.node != v.node)
      else s.wake.flows.filter (fun g => g.node != v.node) ++ [v] := h
  split at h'
  · exact .inl (hrest h')
  · next hne =>
    rcases List.mem_append.1 h' with hw | hw
    · exact .inl (hrest hw)
    · exact .inr ⟨List.mem_singleton.1 hw, by simpa using hne⟩

/-! ### What gives up frames, and what puts a flow in place -/

theorem State.Unsettled.drops (h : s.Unsettled now nodes) (k : s.Drops u) : u.Unsettled now nodes where
  clock := k.clock.trans h.clock
  flows w hw := by
    obtain ⟨v, hv, hc⟩ := k.flows w hw
    exact (h.flows v hv).imp hc.settled fun hm => hc.node_eq ▸ hm

theorem State.FlowHolds.drops (h : s.FlowHolds i n) (k : s.Drops u) : u.FlowHolds i n := by
  intro w hw hi
  obtain ⟨v, hv, hc⟩ := k.flows w hw
  obtain ⟨hne, hlen⟩ := h v hv (hc.node_eq ▸ hi)
  exact ⟨hc.nonempty hne, hc.shorter.trans hlen⟩

/-- A settled flow put in place settles its node. -/
theorem State.Unsettled.setFlow {v : Flow} (h : s.Unsettled now (v.node :: nodes)) (hv : v.Settled now) : (s.setFlow v).Unsettled now nodes where
  clock := h.clock
  flows w hw := by
    rcases State.mem_flows_setFlow hw with ⟨hm, hne⟩ | ⟨rfl, -⟩
    · exact (h.flows w hm).imp_right fun hw => (List.mem_cons.1 hw).resolve_left hne
    · exact .inl hv

theorem State.Unsettled.cons (h : s.Unsettled now nodes) (i : Nat) : s.Unsettled now (i :: nodes) :=
  ⟨h.clock, fun w hw => (h.flows w hw).imp_right (List.mem_cons_of_mem i)⟩

/-- A flow of a node not yet settled may be put in place as it likes. -/
theorem State.Unsettled.setFlow_of_mem {v : Flow} (h : s.Unsettled now nodes) (hv : v.Settled now ∨ v.node ∈ nodes) :
    (s.setFlow v).Unsettled now nodes where
  clock := h.clock
  flows w hw := by
    rcases State.mem_flows_setFlow hw with ⟨hm, -⟩ | ⟨rfl, -⟩
    · exact h.flows w hm
    · exact hv

theorem State.flowHolds_setFlow {v : Flow} (hi : v.node = i) (hn : v.frames.length ≤ n) : (s.setFlow v).FlowHolds i n := by
  intro w hw he
  rcases State.mem_flows_setFlow hw with ⟨-, hne⟩ | ⟨rfl, hf⟩
  · exact absurd (he.trans hi.symm) hne
  · exact ⟨hf, hn⟩

/-! ### A flow that meets no eligible time (R217) -/

theorem State.Unsettled.noGate (h : s.Unsettled now nodes) (i n : Nat) : (s.noGate i n).Unsettled now nodes := by
  induction n generalizing s with
  | zero => exact h
  | succ n ih =>
    unfold State.noGate
    split
    · next w hw =>
      have hset : ∀ t, (s.setFlow { w with frames := t }).Unsettled now nodes := fun t =>
        h.setFlow_of_mem (v := { w with frames := t }) (h.flows w (State.mem_flows_of_flowOf hw).1)
      split
      · split
        · exact ih ((hset _).drops (State.drops_discardFrame _ _ _ _ _ _ _))
        · exact ih (hset _)
      · exact h
    · exact h

/-- So many discards as it holds frames leave nothing of it. -/
theorem State.FlowHolds.noGate (h : s.FlowHolds i n) : (s.noGate i n).FlowHolds i 0 := by
  induction n generalizing s with
  | zero => exact h
  | succ n ih =>
    unfold State.noGate
    split
    · next w hw =>
      obtain ⟨hm, hi⟩ := State.mem_flows_of_flowOf hw
      obtain ⟨hne, hlen⟩ := h w hm hi
      split
      · next q p t hf =>
        have hset : (s.setFlow { w with frames := t }).FlowHolds i n :=
          State.flowHolds_setFlow hi (by rw [hf] at hlen; simpa using hlen)
        split
        · exact ih (hset.drops (State.drops_discardFrame _ _ _ _ _ _ _))
        · exact ih hset
      · next hf => exact absurd hf hne
    · next hw => exact fun w hm hi => absurd hi (State.node_ne_of_flowOf hw hm)

theorem State.Unsettled.of_flowHolds_zero (h : s.Unsettled now (i :: nodes)) (h0 : s.FlowHolds i 0) : s.Unsettled now nodes where
  clock := h.clock
  flows w hw := (h.flows w hw).imp_right fun hm => (List.mem_cons.1 hm).resolve_left fun hi => by
    obtain ⟨hne, hlen⟩ := h0 w hw hi
    exact hne (List.length_eq_zero_iff.1 (Nat.le_zero.1 hlen))

/-! ### Flows placed again and released -/

/-- A flow placed again is settled, or gone. -/
theorem State.Unsettled.replace {w : Flow} {m : Node} (h : s.Unsettled now (w.node :: nodes)) (hn : s.node w.node = some m) :
    (s.replace w).Unsettled now nodes := by
  obtain rfl := h.clock
  unfold State.replace
  simp only [hn]
  split
  · next e _ =>
    exact State.Unsettled.setFlow (by rw [Flow.node_place]; exact h) (w.settled_place s.netNs e)
  · exact ((h.setFlow_of_mem (.inr (List.mem_cons_self ..))).noGate _ _).of_flowHolds_zero
      (State.FlowHolds.noGate (State.flowHolds_setFlow rfl (Nat.le_refl _)))

/-- A review of a flow deals with a released flow only. -/
theorem State.Unsettled.reviewFlow (h : s.Unsettled now nodes) (f : Fe) (i : Nat) : (s.reviewFlow f i).Unsettled now nodes := by
  unfold State.reviewFlow
  split
  · exact h
  · next w hw =>
    obtain ⟨-, hi⟩ := State.mem_flows_of_flowOf hw
    split
    · exact h
    · next hrel =>
      have hset : ∀ l, (s.setFlow { w with frames := l }).Unsettled now nodes := fun l =>
        h.setFlow_of_mem (v := { w with frames := l }) (.inl (.inr (.inl (by simpa using hrel))))
      split
      · next m _ p rest hm hf =>
        split
        · exact h
        · split
          · exact (hset rest).drops (State.drops_discardFrame _ _ _ _ _ _ _)
          · split
            · exact (hset rest).drops
                (((State.drops_releaseChain _ _ _ _).trans (State.drops_countExpired _ _)).trans (State.drops_abandonRest _ _))
            · split
              · exact h
              · split
                · exact h
                · split
                  · exact h
                  · exact (h.cons w.node).replace (hi ▸ hm)
      · refine (hset []).drops (.foldl (fun s p => ?_) _ _)
        split
        · exact s.drops_discardFrame _ _ _ _ _ _
        · exact .refl s
      · exact hset w.frames

/-- A release settles its node. -/
theorem State.Unsettled.releaseFlow (h : s.Unsettled now (i :: nodes)) : (s.releaseFlow i).Unsettled now nodes := by
  unfold State.releaseFlow
  split
  · next hw =>
    exact ⟨h.clock, fun w hm => (h.flows w hm).imp_right fun hc => (List.mem_cons.1 hc).resolve_left (State.node_ne_of_flowOf hw hm)⟩
  · next w hw =>
    obtain ⟨-, rfl⟩ := State.mem_flows_of_flowOf hw
    extract_lets t
    have ht : t.Unsettled now nodes := State.Unsettled.setFlow (v := { w with released := true, far := false }) h (.inr (.inl rfl))
    split
    · exact ht.reviewFlow .sa _
    · next m hm =>
      split
      · exact ht.reviewFlow _ _
      · exact State.Unsettled.replace (w := { w with released := false }) (ht.cons w.node) hm

theorem State.Unsettled.releaseFlows (h : s.Unsettled now nodes) : (nodes.foldl State.releaseFlow s).Unsettled now [] := by
  induction nodes generalizing s with
  | nil => exact h
  | cons i nodes ih => exact ih h.releaseFlow

theorem State.calendarSlot_of_radioOff (h : s.radio = false) : s.calendarSlot = s := by
  simp [State.calendarSlot, h]

theorem State.farListMove_of_radioOff (h : s.radio = false) : s.farListMove = s := by
  simp [State.farListMove, h]

/-- Once the slots that have begun are served, every flow is settled. -/
theorem State.unsettled_calendarSlot (h : s.radio = true) : s.calendarSlot.Unsettled s.netNs [] := by
  unfold State.calendarSlot
  rw [if_neg (by simp [h])]
  refine State.Unsettled.releaseFlows ⟨rfl, fun w hw => ?_⟩
  by_cases hs : w.Settled s.netNs
  · exact .inl hs
  · refine .inr (List.mem_map.2 ⟨w, List.mem_filter.2 ⟨hw, ?_⟩, rfl⟩)
    obtain ⟨hfar, hrel⟩ := not_or.1 hs
    obtain ⟨hrel, hslot⟩ := not_or.1 hrel
    simp only [hfar, hrel, Bool.not_false, Bool.true_and, decide_eq_true_eq]
    exact Nat.not_lt.1 hslot

/-- A flow as the end of a cycle that begins at b finds it: in the wheel if it is eligible before the next boundary (R223). -/
def Flow.enterWheel (b : Nat) (w : Flow) : Flow :=
  if w.far && decide (w.eligible < b + cycleNs) then { w with far := false, slot := offsetOf (ceilTo w.eligible slotNs) / slotNs } else w

theorem Flow.eligible_of_far_enterWheel {b : Nat} {w : Flow} (h : (w.enterWheel b).far = true) : b + cycleNs ≤ (w.enterWheel b).eligible := by
  unfold Flow.enterWheel at h ⊢
  split at h
  · cases h
  · next hc =>
    rw [if_neg hc]
    simpa [h] using hc

/-- While no far flow's eligible time has come, all that happens is that those of the next cycle enter the wheel. -/
theorem State.farListMove_eq (h : s.radio = true) (hf : ∀ w ∈ s.wake.flows, w.far = true → s.netNs < w.eligible) :
    s.farListMove = { s with wake := { s.wake with flows := s.wake.flows.map (Flow.enterWheel (cycleOf s.netNs * cycleNs)) } } := by
  have hnone : (s.wake.flows.filter fun w => w.far && decide (w.eligible < cycleOf s.netNs * cycleNs + cycleNs) &&
      decide (w.eligible ≤ s.netNs)) = [] := by
    refine List.filter_eq_nil_iff.2 fun w hw hc => ?_
    simp only [Bool.and_eq_true, decide_eq_true_eq] at hc
    exact Nat.not_lt.2 hc.2 (hf w hw hc.1.1)
  unfold State.farListMove
  rw [if_neg (by simp [h])]
  dsimp only
  rw [hnone]
  rfl

end Calendar

/-! ## Queue statistics (R227, R228, R248) -/

section Sampling

variable {s : State}

theorem State.queueSample_of_sampled (h : s.wake.sampleMs = s.netNs / 1000000) : s.queueSample = s := by
  unfold State.queueSample
  rw [if_pos (by simp [h])]

/-- After the sample packets expire, which leaves the statistics. -/
theorem State.wake_queueSample (ho : s.operating = true) (h : s.wake.sampleMs ≠ s.netNs / 1000000) :
    s.queueSample.wake.sansFlows = s.sample.wake.sansFlows := by
  unfold State.queueSample
  rw [if_neg (by simp [ho, h])]
  exact (State.Drops.foldl (fun s k => s.drops_expireDown k 64) _ s.sample).wake

theorem WakeSt.stats_of_sansFlows {v w : WakeSt} (h : v.sansFlows = w.sansFlows) :
    v.sampleMs = w.sampleMs ∧ v.qsec = w.qsec ∧ v.qlast = w.qlast ∧ v.qcur = w.qcur :=
  ⟨(congrArg WakeSt.sampleMs h :), (congrArg WakeSt.qsec h :), (congrArg WakeSt.qlast h :), (congrArg WakeSt.qcur h :)⟩

/-- The window the sample falls into is the one that is open, or a new one. -/
theorem State.sample_wake (s : State) : s.sample.wake.sampleMs = s.netNs / 1000000 ∧
    s.sample.wake.qsec = s.time.sec.toNat ∧
    (s.wake.qsec = s.time.sec.toNat → s.sample.wake.qlast = s.wake.qlast ∧
      (s.sample.wake.qcur.getD 512 {}).samples = (s.wake.qcur.getD 512 {}).samples + 1) ∧
    (s.wake.qsec ≠ s.time.sec.toNat → s.sample.wake.qlast = s.wake.qcur ∧ (s.sample.wake.qcur.getD 512 {}).samples = 1) := by
  have hs : ∀ t : Tbl QStat, (t.getD 512 { windowSec := s.time.sec.toNat }).samples = (t.getD 512 {}).samples := by
    intro t
    unfold Tbl.getD
    cases t.get 512 <;> rfl
  unfold State.sample
  by_cases h : s.wake.qsec = s.time.sec.toNat
  · simp only [h, if_true, Tbl.getD_set, calendarKey, hs]
    simp
  · simp only [h, if_false, Tbl.getD_set, calendarKey, hs]
    simp [State.closeWindow, State.netNs, Tbl.getD]

end Sampling

/-- Settles O44: each row by the lemmas about the operation it is, clause by clause. -/
theorem wakeCycle : Obligations.WakeCycle := by
  unfold Obligations.WakeCycle
  intro dt f s start close ch l t x g b sec skipped
  refine ⟨fun hr he hb => ⟨fun hf hm ht => ⟨fun hn => ?_, fun hn => ?_⟩, fun hf hn hx => ?_, fun hf hn => ?_⟩, fun h => ?_,
    fun hr hs hn => ?_, fun h => ?_, fun hr => ?_, fun hr => ⟨?_, ?_, ?_⟩, fun hr hf => ?_, fun ho hs => ?_, fun hs => ?_⟩
  · refine congrArg Host.Outcome.next ((State.entryOpen_of_noneDue hr he hb hf hn).trans (if_neg ?_))
    exact not_or.2 ⟨hm, fun h => h ht⟩
  · refine ⟨_, congrArg Host.Outcome.next (State.entryOpen_of_due hr he hb hf hn hm ht), ?_, ?_, t.counter_skipBeacon f⟩
    · exact congrArg FeSt.beacon (State.feSt_setFe_self _ _ _)
    · exact congrArg FeSt.beaconFrom (State.feSt_setFe_self _ _ _)
  · obtain ⟨a, -, hs⟩ := (t.dueBeacon f start close).feSt_skipBeacon f
    refine ⟨_, congrArg Host.Outcome.next ((State.entryOpen_of_noneDue hr he hb hf hn).trans (if_pos hx)), ?_, ?_, State.counter_skipBeacon _ f⟩
    · rw [hs]
    · rw [hs]
      exact congrArg FeSt.beaconFrom (State.feSt_setFe_self _ _ _)
  · exact congrArg Host.Outcome.next (State.entryOpen_of_opened hr he hf hn)
  · exact congrArg Host.Outcome.next (h.elim State.entryOpen_of_radioOff fun h => State.entryOpen_of_noEntry h.1 h.2)
  · exact congrArg Host.Outcome.next (State.changeover_due hr hs hn)
  · exact congrArg Host.Outcome.next (State.changeover_of_early h)
  · have hu := State.unsettled_calendarSlot hr
    exact ⟨_, rfl, hu.clock, fun w hw => (hu.flows w hw).resolve_right List.not_mem_nil⟩
  · exact congrArg Host.Outcome.next (State.calendarSlot_of_radioOff hr)
  · exact congrArg Host.Outcome.next (State.farListMove_of_radioOff hr)
  · exact congrArg Host.Outcome.next (State.changeover_of_radioOff hr)
  · refine ⟨_, congrArg Host.Outcome.next (State.farListMove_eq hr hf), List.length_map _, fun w hw hfar => ?_, rfl⟩
    obtain ⟨v, -, rfl⟩ := List.mem_map.1 hw
    exact Flow.eligible_of_far_enterWheel hfar
  · obtain ⟨hms, hsec, hlast, hcur⟩ := WakeSt.stats_of_sansFlows (State.wake_queueSample ho hs)
    obtain ⟨hms', hsec', hsame, hnew⟩ := t.sample_wake
    refine ⟨_, rfl, hms.trans hms', fun h => ?_, fun h => ?_⟩
    · rw [hlast, hcur]
      exact hsame h
    · rw [hlast, hsec, hcur]
      exact ⟨(hnew h).1, hsec', (hnew h).2⟩
  · exact congrArg Host.Outcome.next (State.queueSample_of_sampled hs)

end Sys2Proof.Machine

namespace Sys2Proof.Machine

/-! # Channel access: attempts, their back-off and their sensing -/

/-! ## Attempts that begin (R157, R158, R166, R218, R443) -/

section Begin

variable {s : State} {f : Fe}

/-- The back-off of an attempt writes that attempt. -/
theorem State.attempt_backOff (s : State) (f : Fe) (a : Attempt) : ∃ n, ((s.backOff f a).feSt f).attempt =
    some { a with phase := .backoff, refused := false, void := false, waitEnd := n } :=
  ⟨_, congrArg FeSt.attempt (State.feSt_setFe_self _ f _)⟩

/-- A frame that is not refused has a channel in a sub-band. -/
theorem State.subBand_of_not_refused {d : DownFrame} {ch : Option Nat} (h : s.refusal f d ch = none) :
    ∃ k i, ch = some k ∧ s.subBand f k = some i := by
  unfold State.refusal at h
  cases ch with
  | none => cases h
  | some k =>
    cases hi : s.subBand f k with
    | none => simp [hi] at h
    | some i => exact ⟨k, i, rfl, hi⟩

/-- The frame chosen begins its attempt, where nothing forbids sending it. -/
theorem State.selectFrame_begins {c : Cand} (hc : s.choose f = some c) (hr : s.refusal f c.retry.frame c.channel = none) (n : Nat) :
    ∃ b : Attempt, ((s.selectFrame f (n + 1)).feSt f).attempt = some b ∧ b.body = .frame c.retry ∧ b.phase = .backoff ∧ b.nb = 0 ∧
      c.channel = some b.channel ∧ b.bound = some c.bound ∧ b.admitted = none := by
  obtain ⟨k, i, hk, hi⟩ := State.subBand_of_not_refused hr
  rw [hk] at hr
  unfold State.selectFrame
  simp only [hc, hr, hk, hi, Option.bind_some, Option.map_some]
  obtain ⟨m, hm⟩ := State.attempt_backOff (s.takeOut f c.retry) f _
  exact ⟨_, hm, rfl, rfl, rfl, rfl, rfl, rfl⟩

/-- An RF test's burst whose channel lies in a sub-band begins an attempt. -/
theorem State.beginBurst_begins {y : RfTest} {i : Nat} (hi : s.subBand f y.channel = some i) :
    ∃ b : Attempt, ((s.beginBurst f y).feSt f).attempt = some b ∧ b.body = .test ∧ b.channel = y.channel ∧ b.phase = .backoff := by
  unfold State.beginBurst
  simp only [hi]
  obtain ⟨m, hm⟩ := s.attempt_backOff f _
  exact ⟨_, hm, rfl, rfl, rfl⟩

/-- A beacon due begins its attempt, the first without a wait, or is due no more. -/
theorem State.beginBeacon_begins (close k : Nat) : ((s.beginBeacon f close k).feSt f).beacon = none ∨
    ∃ b : Attempt, ((s.beginBeacon f close k).feSt f).attempt = some b ∧ b.body = .beacon close ∧ b.bound = some close ∧
      ((s.feSt f).beaconTries = 0 → b.waitEnd = s.clk) := by
  have hskip : ∀ (c : Ctr) (x : Scope), (((s.skipBeacon f).count c x).feSt f).beacon = none := fun c x =>
    congrArg FeSt.beacon (s.feSt_setFe_self f _)
  unfold State.beginBeacon
  split
  · exact .inl (hskip _ _)
  · dsimp only
    split
    · exact .inl (hskip _ _)
    · split
      · exact .inl (hskip _ _)
      · split
        · exact .inl (hskip _ _)
        · split
          · exact .inr ⟨_, congrArg FeSt.attempt (s.feSt_setFe_self f _), rfl, rfl, fun _ => rfl⟩
          · next htries =>
            obtain ⟨m, hm⟩ := s.attempt_backOff f _
            exact .inr ⟨_, hm, rfl, rfl, fun h => absurd h htries⟩

/-! ### FRAME_SELECT, by what the front end is at -/

theorem State.select_of_occupied (h : (s.feSt f).attempt ≠ none ∨ (s.feSt f).ackWait ≠ none) : s.select f = s := by
  unfold State.select
  refine if_pos ?_
  rcases h with h | h
  · simp [Option.isSome_iff_ne_none, h]
  · simp [Option.isSome_iff_ne_none, h]

section Free

variable (hr : s.radio = true) (hm : s.feMode f ≠ .off) (ha : (s.feSt f).attempt = none) (hw : (s.feSt f).ackWait = none)

include hr hm ha hw

theorem State.select_test {y : RfTest} (ht : (s.feSt f).rfTest = some y) :
    s.select f = if y.mode = 2 ∨ 3 ≤ s.isl.step then s else s.beginBurst f y := by
  simp [State.select, hr, hm, ha, hw, ht]

theorem State.select_beacon {close : Nat} {z : Nat × Nat × Nat} (ht : (s.feSt f).rfTest = none) (hb : (s.feSt f).beacon = some close)
    (hz : s.beaconEntry f s.netNs = some z) : s.select f = s.beginBeacon f close z.2.2 := by
  simp [State.select, hr, hm, ha, hw, ht, hb, hz]

theorem State.select_frame (ht : (s.feSt f).rfTest = none) (hb : (s.feSt f).beacon = none) (hi : s.isl.step < 3)
    (hc : s.contention f s.netNs = false) : s.select f = (s.prepare f).selectFrame f 64 := by
  simp [State.select, hr, hm, ha, hw, ht, hb, hc, Nat.not_le.2 hi]

end Free

end Begin

/-! ## The end of a back-off (R146, R157, R158, R219) -/

section Expiry

variable {s : State} {f : Fe} {a : Attempt}

/-- The class in which an attempt's request is admitted. -/
def Attempt.cls (a : Attempt) : TxClass :=
  match a.body with
  | .beacon _ => .beacon
  | _ => .other

/-- The attempt as its sensing begins: a beacon's time on air is that of its template now (R168). -/
def State.sizedNow (s : State) (f : Fe) (a : Attempt) : Attempt :=
  match a.body with
  | .beacon _ => { a with air := s.txAir f a.mode a.rate (s.beaconPsdu f (s.beaconElem f).length) }
  | _ => a

/-- The credit a frame's posting takes. -/
def State.payCredit (s : State) (f : Fe) (a : Attempt) : Int × State :=
  match a.body with
  | .frame r => s.addCredit r.frame.world f (-(a.air * 1000000 : Nat))
  | _ => (0, s)

/-- Sensing begins: an admitted request is posted, charged and paid for. -/
def State.sensingBegins (s : State) (f : Fe) (a : Attempt) : State :=
  let admitted := s.admits a.sub a.air a.cls
  let t := if admitted then (s.payCredit f a).2.charge a.sub a.air else s
  t.setFe f { t.feSt f with
    attempt := some { a with
      phase := .sensing, senseStart := t.netNs, refused := !admitted || s.channelBusy f a.channel, void := false
      admitted := if admitted then some (a.sub, t.time.sec.toNat) else none, credit := if admitted then (s.payCredit f a).1 else 0 }
    posted := if admitted then (t.feSt f).posted ++ [s.requestFor f a] else (t.feSt f).posted }

theorem State.fe_addCredit (s : State) (w : Nat) (f : Fe) (d : Int) : (s.addCredit w f d).2.fe = s.fe := by
  simp only [State.addCredit, State.settleCredits]

theorem State.charge_keeps (s : State) (i us : Nat) : (s.charge i us).fe = s.fe ∧ (s.charge i us).netNs = s.netNs := ⟨rfl, rfl⟩

theorem State.payCredit_keeps (s : State) (f : Fe) (a : Attempt) :
    (s.payCredit f a).2.fe = s.fe ∧ (s.payCredit f a).2.netNs = s.netNs := by
  unfold State.payCredit
  split
  · exact ⟨s.fe_addCredit _ f _, (s.mac_addCredit _ f _).netNs⟩
  · exact ⟨rfl, rfl⟩

/-- What the front end holds once sensing has begun. -/
theorem State.sensingBegins_feSt (s : State) (f : Fe) (a : Attempt) : ∃ b : Attempt, ((s.sensingBegins f a).feSt f).attempt = some b ∧
    b.phase = .sensing ∧ b.senseStart = s.netNs ∧ b.body = a.body ∧ b.nb = a.nb ∧
    (s.admits a.sub a.air a.cls = true → b.refused = s.channelBusy f a.channel ∧
      ((s.sensingBegins f a).feSt f).posted = (s.feSt f).posted ++ [s.requestFor f a]) := by
  unfold State.sensingBegins
  extract_lets admitted t
  have ht : t.fe = s.fe ∧ t.netNs = s.netNs := by
    unfold t
    split
    · obtain ⟨hfe, hns⟩ := (s.payCredit f a).2.charge_keeps a.sub a.air
      obtain ⟨hfe', hns'⟩ := s.payCredit_keeps f a
      exact ⟨hfe.trans hfe', hns.trans hns'⟩
    · exact ⟨rfl, rfl⟩
  rw [State.feSt_setFe_self, State.feSt_of_fe ht.1, ht.2]
  refine ⟨_, rfl, rfl, rfl, rfl, rfl, fun h => ?_⟩
  have had : admitted = true := h
  simp [had]

/-- An attempt at the end of its back-off: nothing holds it up, and its bound has not passed. -/
structure State.MaySense (s : State) (f : Fe) (a : Attempt) : Prop where
  attempt : (s.feSt f).attempt = some a
  phase : a.phase = .backoff
  ended : a.waitEnd ≤ s.clk
  noAck : s.ackOwedOn f = false
  heard : s.blanked f = false
  on : s.feMode f ≠ .off
  inTime : ∀ b, a.bound = some b → s.netNs ≤ b
  free : (∃ k, a.body = .beacon k) ∨ s.contention f s.netNs = false ∧ s.isl.step < 3 ∧ s.laneLacks f a = false

theorem State.backoffEnd_senses (h : s.MaySense f a) : s.backoffEnd f = s.sensingBegins f (s.sizedNow f a) := by
  obtain ⟨ha, hp, he, hk, hb, hm, ht, hf⟩ := h
  unfold State.backoffEnd
  simp only [ha]
  rw [if_neg (by simp [hp, Nat.not_lt.2 he, hk, hb, hm])]
  refine (if_neg fun hstop => ?_).trans ?_
  · rcases Bool.or_eq_true_iff.1 hstop with hlate | hshut
    · split at hlate
      · next b hb => exact Nat.not_lt.2 (ht b hb) (of_decide_eq_true hlate)
      · cases hlate
    · split at hshut
      · cases hshut
      · next hne =>
        obtain ⟨hc, hi, hl⟩ := hf.resolve_left fun ⟨k, hk⟩ => hne k hk
        simp [hc, hl, Nat.not_le.2 hi] at hshut
  unfold State.sensingBegins State.sizedNow State.payCredit Attempt.cls
  cases hbody : a.body <;> simp only [hbody]

theorem State.backoffEnd_of_early (ha : (s.feSt f).attempt = some a) (h : s.clk < a.waitEnd) : s.backoffEnd f = s := by
  unfold State.backoffEnd
  simp only [ha]
  exact if_pos (.inr (.inl h))

theorem State.body_sizedNow (s : State) (f : Fe) (a : Attempt) : (s.sizedNow f a).body = a.body ∧ (s.sizedNow f a).nb = a.nb := by
  unfold State.sizedNow
  split <;> exact ⟨rfl, rfl⟩

theorem State.sizedNow_of_not_beacon (s : State) (f : Fe) (h : ∀ k, a.body ≠ .beacon k) : s.sizedNow f a = a := by
  unfold State.sizedNow
  split
  · next k hk => exact absurd hk (h k)
  · rfl

theorem Attempt.cls_of_not_beacon (h : ∀ k, a.body ≠ .beacon k) : a.cls = .other := by
  unfold Attempt.cls
  split
  · next k hk => exact absurd hk (h k)
  · rfl

/-- The request asks to start at the end of sensing, and not past the attempt's bound. -/
theorem State.latest_requestFor (s : State) (f : Fe) (a : Attempt) :
    (s.requestFor f a).latest ≤ s.netNs + s.senseUs a.sub * 1000 + 100000 ∧ ∀ b, a.bound = some b → (s.requestFor f a).latest ≤ b := by
  have hl : (s.requestFor f a).latest = match a.bound with
      | some b => min (s.netNs + s.senseUs a.sub * 1000 + 100000) b
      | none => s.netNs + s.senseUs a.sub * 1000 + 100000 := rfl
  rw [hl]
  cases a.bound with
  | none => exact ⟨Nat.le_refl _, fun b h => nomatch h⟩
  | some c => exact ⟨Nat.min_le_left _ _, fun b h => Option.some.inj h ▸ Nat.min_le_right _ _⟩

end Expiry

/-! ## The end of sensing (R156, R157) -/

section Sensing

variable {s : State} {f : Fe} {a : Attempt} {power : Int} {met : Bool}

/-- Sensing that has lasted its time. -/
structure State.Sensed (s : State) (f : Fe) (a : Attempt) : Prop where
  attempt : (s.feSt f).attempt = some a
  phase : a.phase = .sensing
  ended : a.senseStart + s.senseUs a.sub * 1000 ≤ s.netNs

theorem State.senseEnd_of_early (ha : (s.feSt f).attempt = some a) (h : s.netNs < a.senseStart + s.senseUs a.sub * 1000) :
    s.senseEnd f power met = s := by
  unfold State.senseEnd
  simp only [ha]
  exact if_pos (.inr h)

theorem State.Sensed.senseEnd_eq (h : s.Sensed f a) : s.senseEnd f power met =
    if met || a.void || s.blanked f then
      ((s.withdraw f).giveBack f a).setFe f { ((s.withdraw f).giveBack f a).feSt f with attempt := some { a with
        phase := .backoff, refused := false, void := false, admitted := none, credit := 0, waitEnd := ((s.withdraw f).giveBack f a).clk } }
    else if a.refused || decide (s.senseThr a.sub < power) then s.csmaBusy f
    else s.setFe f { s.feSt f with attempt := some { a with phase := .sending } } := by
  unfold State.senseEnd
  simp only [h.attempt]
  exact if_neg (by simp [h.phase, Nat.not_lt.2 h.ended])

/-- Giving back what an attempt was charged leaves its front end's requests. -/
theorem State.posted_giveBack (s : State) (f : Fe) (a : Attempt) : ((s.giveBack f a).feSt f).posted = (s.feSt f).posted := by
  unfold State.giveBack
  extract_lets u v
  have hu : u.fe = s.fe := by
    unfold u State.returnCharge
    split <;> rfl
  have hv : v.feSt f = s.feSt f := by
    refine State.feSt_of_fe ?_ f
    unfold v
    split
    · exact hu
    · split
      · exact hu
      · exact hu
  split
  · rw [State.feSt_setFe_self]
    exact (congrArg FeSt.posted hv :)
  · exact (congrArg FeSt.posted hv :)

/-- What is still posted after the withdrawal is the front end's ACKs. -/
theorem State.posted_withdrawn (s : State) (f : Fe) (a : Attempt) : ∀ q ∈ (((s.withdraw f).giveBack f a).feSt f).posted, q.cls = .ack := by
  rw [State.posted_giveBack, State.withdraw, State.feSt_setFe_self]
  intro q hq
  simpa using (List.mem_filter.1 hq).2

/-- An access failure ends the attempt. -/
theorem State.attempt_accessFailed (s : State) (f : Fe) (a : Attempt) : ((s.accessFailed f a).feSt f).attempt = none := by
  unfold State.accessFailed
  extract_lets _ t
  have ht : (t.feSt f).attempt = none := congrArg FeSt.attempt (s.feSt_setFe_self f _)
  split
  · next r _ =>
    have hx := (t.drops_attemptFailed f r .txCcaFail).fe f
    exact (congrArg FeSt.attempt hx :).trans ht
  · split
    · obtain ⟨b, hb, hx⟩ := t.feSt_skipBeacon f
      rw [hx]
      exact hb.elim (fun e => e.trans ht) fun e => e
    · rw [State.feSt_setFe_self]
      exact ht
  · exact ht

/-- What the attempt was charged, and its request, are taken back. -/
theorem State.csmaBusy_eq (h : (s.feSt f).attempt = some a) : s.csmaBusy f =
    if s.maxBackoffs < a.nb + 1 then ((s.withdraw f).giveBack f a).accessFailed f { a with admitted := none, credit := 0 }
    else ((s.withdraw f).giveBack f a).backOff f
      { a with admitted := none, credit := 0, nb := a.nb + 1, be := min (a.be + 1) s.maxBe } := by
  have hm := (s.mac_withdraw f).trans ((s.withdraw f).mac_giveBack f a)
  have hmax : ((s.withdraw f).giveBack f a).maxBackoffs = s.maxBackoffs := (congrArg State.maxBackoffs hm.rest :)
  have hbe : ((s.withdraw f).giveBack f a).maxBe = s.maxBe := (congrArg State.maxBe hm.rest :)
  unfold State.csmaBusy
  simp only [h, hmax, hbe, gt_iff_lt]

/-- A busy channel: a longer back-off, until there have been too many. -/
theorem State.csmaBusy_backsOff (h : (s.feSt f).attempt = some a) (hn : a.nb + 1 ≤ s.maxBackoffs) :
    (∃ b : Attempt, ((s.csmaBusy f).feSt f).attempt = some b ∧ b.body = a.body ∧ b.phase = .backoff ∧ b.nb = a.nb + 1 ∧
      b.be = min (a.be + 1) s.maxBe ∧ b.admitted = none) ∧ ∀ q ∈ ((s.csmaBusy f).feSt f).posted, q.cls = .ack := by
  rw [State.csmaBusy_eq h, if_neg (Nat.not_lt.2 hn)]
  obtain ⟨m, hm⟩ := ((s.withdraw f).giveBack f a).attempt_backOff f
    { a with admitted := none, credit := 0, nb := a.nb + 1, be := min (a.be + 1) s.maxBe }
  refine ⟨⟨_, hm, rfl, rfl, rfl, rfl, rfl⟩, ?_⟩
  rw [State.backOff, State.feSt_setFe_self]
  exact s.posted_withdrawn f a

theorem State.csmaBusy_fails (h : (s.feSt f).attempt = some a) (hn : s.maxBackoffs < a.nb + 1) :
    ((s.csmaBusy f).feSt f).attempt = none := by
  rw [State.csmaBusy_eq h, if_pos hn]
  exact State.attempt_accessFailed _ _ _

theorem State.Sensed.senseEnd_clear (h : s.Sensed f a) (hm : met = false) (hv : a.void = false) (hb : s.blanked f = false)
    (hr : a.refused = false) (hp : power ≤ s.senseThr a.sub) :
    s.senseEnd f power met = s.setFe f { s.feSt f with attempt := some { a with phase := .sending } } := by
  rw [h.senseEnd_eq, if_neg (by simp [hm, hv, hb]), if_neg (by simp [hr, hp])]

theorem State.Sensed.senseEnd_busy (h : s.Sensed f a) (hm : met = false) (hv : a.void = false) (hb : s.blanked f = false)
    (hr : a.refused = true ∨ s.senseThr a.sub < power) : s.senseEnd f power met = s.csmaBusy f := by
  rw [h.senseEnd_eq, if_neg (by simp [hm, hv, hb]), if_pos (by simpa using hr)]

/-- Sensing that met blanking begins again at once. -/
theorem State.Sensed.senseEnd_void (h : s.Sensed f a) (hm : met = true ∨ a.void = true ∨ s.blanked f = true) :
    ((s.senseEnd f power met).feSt f).attempt =
      some { a with phase := .backoff, refused := false, void := false, admitted := none, credit := 0, waitEnd := s.clk } := by
  have hw := (s.mac_withdraw f).trans ((s.withdraw f).mac_giveBack f a)
  have hclk : ((s.withdraw f).giveBack f a).clk = s.clk := (congrArg State.clk hw.rest :)
  rw [h.senseEnd_eq, if_pos (by simpa [or_assoc] using hm), State.feSt_setFe_self, hclk]

end Sensing

end Sys2Proof.Machine

namespace Sys2Proof.Machine

/-! # The node's ACK, continuations and neighbours, and O43 -/

/-! ## The node's ACK (R159, R161, R162) -/

section AckWaits

variable {s : State} {f : Fe} {w : AckWait}

theorem State.ackDue_of_early (h : (s.feSt f).ackWait = some w) (hn : s.netNs < w.deadline) : s.ackDue f = s := by
  unfold State.ackDue
  simp only [h]
  exact if_pos (by simp [hn])

theorem State.ackDue_missing (h : (s.feSt f).ackWait = some w) (hn : w.deadline ≤ s.netNs) (hf : s.ackInFlight f w = false) :
    s.ackDue f = s.ackMissing f w := by
  unfold State.ackDue
  simp only [h]
  exact if_neg (by simp [Nat.not_lt.2 hn, hf])

theorem mem_retryInsert (r : Retry) (l : List Retry) : r ∈ retryInsert r l := by
  induction l with
  | nil => exact List.mem_singleton.2 rfl
  | cons x t ih =>
    unfold retryInsert
    split
    · exact List.mem_cons_of_mem _ ih
    · exact List.mem_cons_self ..

/-- A frame with attempts left waits in the retry set, where there is room. -/
theorem State.attemptFailed_retries {r : Retry} (c : Ctr) (ha : r.attempts < s.maxRetries) (hl : (s.feSt f).retry.length < 64) :
    ∃ q ∈ ((s.attemptFailed f r c).feSt f).retry, q.frame = r.frame ∧ q.attempts = r.attempts + 1 := by
  unfold State.attemptFailed
  dsimp only
  rw [if_neg (by omega), if_neg (Nat.not_le.2 hl), State.feSt_setFe_self]
  exact ⟨_, mem_retryInsert _ _, rfl, rfl⟩

/-- After its last attempt it is lost. -/
theorem State.attemptFailed_loses {r : Retry} {c : Ctr} (hc : c ∉ abandonCounters) (ha : s.maxRetries ≤ r.attempts) :
    (s.attemptFailed f r c).counter c (.world r.frame.world) = s.counter c (.world r.frame.world) + 1 := by
  unfold State.attemptFailed
  dsimp only
  rw [if_pos (by omega)]
  exact s.counter_frameLost f _ hc

/-- The state in which a missing ACK fails its attempt: the wait has ended, and Canopy has its measurement. -/
theorem State.ackMissing_eq (s : State) (f : Fe) (w : AckWait) : ∃ t : State, s.ackMissing f w = t.attemptFailed f w.retry .txNoAck ∧
    t.feSt f = { s.feSt f with ackWait := none } ∧ t.life = s.life ∧ t.tally = s.tally := by
  have hm : ∀ (u : State) (i : Nat), (u.ackMeasured i false).fe = u.fe ∧ (u.ackMeasured i false).life = u.life ∧
      (u.ackMeasured i false).tally = u.tally := by
    intro u i
    unfold State.ackMeasured
    dsimp only
    split <;> exact ⟨rfl, rfl, rfl⟩
  refine ⟨_, rfl, ?_⟩
  split
  · next i _ =>
    obtain ⟨hf, hl, ht⟩ := hm (s.setFe f { s.feSt f with ackWait := none }) i
    exact ⟨(State.feSt_of_fe hf f).trans (s.feSt_setFe_self f _), hl, ht⟩
  · exact ⟨s.feSt_setFe_self f _, rfl, rfl⟩

/-- What an ACK that does not come leaves. -/
theorem State.ackMissing_spec (s : State) (f : Fe) (w : AckWait) : ((s.ackMissing f w).feSt f).ackWait = none ∧
    (w.retry.attempts < s.maxRetries → (s.feSt f).retry.length < 64 →
      ∃ r ∈ ((s.ackMissing f w).feSt f).retry, r.frame = w.retry.frame ∧ r.attempts = w.retry.attempts + 1) ∧
    (s.maxRetries ≤ w.retry.attempts → (s.ackMissing f w).counter .txNoAck (.world w.retry.frame.world) =
      s.counter .txNoAck (.world w.retry.frame.world) + 1) := by
  obtain ⟨t, ht, hx, hl, hc⟩ := s.ackMissing_eq f w
  have hmax : t.maxRetries = s.maxRetries := by
    simp only [State.maxRetries, State.cfgN, State.cfg, State.recs, hl]
  rw [ht]
  refine ⟨?_, fun ha hr => ?_, fun ha => ?_⟩
  · have hd := (t.drops_attemptFailed f w.retry .txNoAck).fe f
    rw [hx] at hd
    exact (congrArg FeSt.ackWait hd :)
  · exact State.attemptFailed_retries _ (hmax ▸ ha) (by rw [hx]; exact hr)
  · rw [State.attemptFailed_loses (by decide) (hmax ▸ ha), State.counter_of_tally hc]

end AckWaits

/-! ## Windows of neighbours (R170) -/

section Neighbours

variable {s : State} {n : Nbr} {e : Nat}

theorem Tbl.mem_of_get {α : Type} {t : Tbl α} {i : Nat} {a : α} (h : t.get i = some a) : (i, a) ∈ t := by
  induction t with
  | nil => cases h
  | cons p t ih =>
    unfold Tbl.get at h
    split at h
    · next hi =>
      cases h
      exact hi ▸ List.mem_cons_self ..
    · exact List.mem_cons_of_mem p (ih h)

/-- A lane assigned to a channel since an instant has watched it from then on. -/
theorem State.any_watched {l a : Nat} {p : Nat × Nat} (hp : (s.lane l).assigned = some p) (ha : (s.lane l).since ≤ a) (b : Nat) :
    (s.lanes.any fun q => q.2.watched p a b) = true := by
  unfold State.lane Tbl.getD at hp ha
  cases hx : s.lanes.get l with
  | none =>
    rw [hx] at hp
    cases hp
  | some x =>
    rw [hx, Option.getD_some] at hp ha
    exact List.any_eq_true.2 ⟨(l, x), Tbl.mem_of_get hx, by simp [LaneSt.watched, hp, ha]⟩

/-- The event of a neighbour tells Canopy, and leaves the neighbours. -/
theorem State.nbrEvent_spec (s : State) (code : Nat) (m : Nbr) : (s.nbrEvent code m).mac = s.mac ∧ 2 ∈ (s.nbrEvent code m).canopy.owed ∧
    ∀ c ∉ lossCounters, ∀ x, (s.nbrEvent code m).counter c x = s.counter c x := by
  refine ⟨?_, ?_, fun c hc x => State.counter_raise _ _ _ _ x hc⟩
  · exact (by simp : (s.raise code none _).mac = s.mac)
  · unfold State.nbrEvent
    dsimp only
    split
    · next h => simpa using h
    · simp

section One

variable (hn : s.mac.nbrs = [n]) (he : n.expected = some e)

include hn he

theorem State.nbrWindow_of_early (h : s.netNs < e + s.nbrTolMs * 1000000) : s.nbrWindow n.routerId = s := by
  unfold State.nbrWindow
  simp only [hn, List.find?_cons, beq_self_eq_true, he]
  exact if_pos h

/-- A beacon heard in its window: none is missed. -/
theorem State.nbrWindow_heard (h : e + s.nbrTolMs * 1000000 ≤ s.netNs) (h₁ : e ≤ n.sfdNs + s.nbrTolMs * 1000000)
    (h₂ : n.sfdNs ≤ e + s.nbrTolMs * 1000000) :
    s.nbrWindow n.routerId = { s with mac := { s.mac with nbrs := [{ n with misses := 0, expected := some (e + n.interval * phaseNs) }] } } := by
  unfold State.nbrWindow
  simp only [hn, List.find?_cons, beq_self_eq_true, he]
  rw [if_neg (Nat.not_lt.2 h), if_pos (by simp [h₁, h₂])]
  simp

/-- A third window without a beacon, watched throughout: the neighbour lapses. -/
theorem State.nbrWindow_lapses (h : e + s.nbrTolMs * 1000000 ≤ s.netNs) (h₁ : n.sfdNs + s.nbrTolMs * 1000000 < e) {l : Nat}
    (hl : (s.lane l).assigned = some (n.fe, n.channel)) (hs : (s.lane l).since ≤ s.clk - (s.netNs - (e - s.nbrTolMs * 1000000)) / 4)
    (hm : n.misses = 2) (hv : n.lapsed = false) : ∃ m : Nbr,
      m = { n with misses := 3, lapsed := true, expected := some (e + n.interval * phaseNs) } ∧
      s.nbrWindow n.routerId = (({ s with mac := { s.mac with nbrs := [m] } } : State).count .nbrLapsed .device).nbrEvent 0x0601 m := by
  refine ⟨_, rfl, ?_⟩
  unfold State.nbrWindow
  simp only [hn, List.find?_cons, beq_self_eq_true, he, State.any_watched hl hs]
  rw [if_neg (Nat.not_lt.2 h), if_neg (by simp [Nat.not_le.2 h₁]), if_neg (by simp), if_pos (by simp [hm, hv])]
  simp [hm]

end One

end Neighbours

/-- Settles O43: each row by the lemmas about the operation it is, clause by clause. -/
theorem accessAndNeighbours : Obligations.AccessAndNeighbours := by
  unfold Obligations.AccessAndNeighbours
  refine ⟨?_, ?_⟩
  · intro dt f s c a w power met t x target
    refine ⟨fun hr hm ha hw ht hb hi hc hch hre => ?_, fun h => ?_, fun hr hm ha hw => ⟨fun y hy h => ?_, fun y i hy h2 hi hs => ?_,
      fun close z ht hb hz => ?_⟩, fun ha hp he hk hb hm hin => ⟨fun hf => ?_, fun hc hi hl hbody had => ?_⟩, fun ha _ he => ?_,
      fun ha hp he => ⟨fun hmet hv hb => ⟨fun hre hpw => ?_, fun hre hn => ?_, fun hre hn => ?_⟩, fun hv => ?_⟩, fun ha he => ?_,
      fun hw hn hf => ?_, fun hw hn => ?_⟩
    · obtain ⟨a, hbegins⟩ := State.selectFrame_begins hch hre 63
      exact ⟨_, a, congrArg Host.Outcome.next (State.select_frame hr hm ha hw ht hb hi hc), hbegins⟩
    · exact congrArg Host.Outcome.next (State.select_of_occupied h)
    · exact congrArg Host.Outcome.next ((State.select_test hr hm ha hw hy).trans (if_pos h))
    · obtain ⟨b, hbegins⟩ := State.beginBurst_begins hs
      refine ⟨_, b, congrArg Host.Outcome.next ((State.select_test hr hm ha hw hy).trans (if_neg ?_)), hbegins⟩
      exact not_or.2 ⟨h2, Nat.not_le.2 hi⟩
    · exact ⟨_, congrArg Host.Outcome.next (State.select_beacon hr hm ha hw ht hb hz), State.beginBeacon_begins close _⟩
    · obtain ⟨b, hsense, hphase, hstart, hbody, hnb, -⟩ := t.sensingBegins_feSt f (t.sizedNow f a)
      obtain ⟨hbody', hnb'⟩ := t.body_sizedNow f a
      exact ⟨_, b, congrArg Host.Outcome.next (State.backoffEnd_senses ⟨ha, hp, he, hk, hb, hm, hin, hf⟩), hsense, hphase, hstart,
        hbody.trans hbody', hnb.trans hnb'⟩
    · obtain ⟨b, hsense, -, -, -, -, hadm⟩ := t.sensingBegins_feSt f a
      obtain ⟨hrefused, hposted⟩ := hadm (by rw [Attempt.cls_of_not_beacon hbody]; exact had)
      obtain ⟨hlatest, hbound⟩ := t.latest_requestFor f a
      refine ⟨_, b, t.requestFor f a, congrArg Host.Outcome.next ?_, hsense, hposted, rfl, rfl, rfl, hlatest, hbound, hrefused⟩
      rw [State.backoffEnd_senses ⟨ha, hp, he, hk, hb, hm, hin, .inr ⟨hc, hi, hl⟩⟩, t.sizedNow_of_not_beacon f hbody]
    · exact congrArg Host.Outcome.next (State.backoffEnd_of_early ha he)
    · exact congrArg Host.Outcome.next (State.Sensed.senseEnd_clear ⟨ha, hp, he⟩ hmet hv hb hre hpw)
    · obtain ⟨⟨b, hb', hbody, hphase, hnb, hbe, hadm⟩, hposted⟩ := State.csmaBusy_backsOff ha hn
      exact ⟨_, b, congrArg Host.Outcome.next (State.Sensed.senseEnd_busy ⟨ha, hp, he⟩ hmet hv hb hre), hb', hbody, hphase, hnb, hbe, hadm,
        hposted⟩
    · exact ⟨_, congrArg Host.Outcome.next (State.Sensed.senseEnd_busy ⟨ha, hp, he⟩ hmet hv hb hre), State.csmaBusy_fails ha hn⟩
    · exact ⟨_, _, rfl, State.Sensed.senseEnd_void ⟨ha, hp, he⟩ hv, rfl, rfl, rfl, rfl, rfl⟩
    · exact congrArg Host.Outcome.next (State.senseEnd_of_early ha he)
    · exact ⟨_, congrArg Host.Outcome.next (State.ackDue_missing hw hn hf), t.ackMissing_spec f w⟩
    · exact congrArg Host.Outcome.next (State.ackDue_of_early hw hn)
  · intro dt eui s n e t tol from_
    refine ⟨⟨_, rfl, rfl, fun c => ?_⟩, fun hn he hw => ⟨fun h₁ ⟨l, hl, hs⟩ hm hv => ?_, fun h₁ h₂ => ?_⟩, fun hn he hw => ?_⟩
    · refine List.mem_filter.trans (and_congr_right fun _ => ?_)
      rw [Bool.not_eq_true', ← Bool.not_eq_true, Bool.and_eq_true, beq_iff_eq, decide_eq_true_eq]
    · obtain ⟨m, rfl, hu⟩ := State.nbrWindow_lapses hn he hw h₁ hl hs hm hv
      obtain ⟨hmac, howed, hctr⟩ := State.nbrEvent_spec (State.count { t with mac := { t.mac with nbrs := [_] } } .nbrLapsed .device) 0x0601 _
      refine ⟨_, congrArg Host.Outcome.next hu, ?_, ?_, howed⟩
      · rw [hmac]
        rfl
      · rw [hctr _ (by decide), State.counter_count_self]
        rfl
    · exact ⟨_, congrArg Host.Outcome.next (State.nbrWindow_heard hn he hw h₁ h₂), rfl, rfl⟩
    · exact congrArg Host.Outcome.next (State.nbrWindow_of_early hn he hw)

end Sys2Proof.Machine

namespace Sys2Proof.Machine

/-! # Operations leave the queue of commands, the identity and the clock

One fact per operation, in the order of the model's files. -/

/-- The queue of commands, the identity and the clock stand. -/
@[simp, reducible] def State.Stays (s u : State) : Prop := u.pending = s.pending ∧ u.id = s.id ∧ u.clk = s.clk

theorem State.Stays.trans {s t u : State} (h : s.Stays t) (g : t.Stays u) : s.Stays u :=
  ⟨g.1.trans h.1, g.2.1.trans h.2.1, g.2.2.trans h.2.2⟩

@[simp] theorem State.pending_ite (c : Prop) [Decidable c] (s t : State) :
    (if c then s else t).pending = if c then s.pending else t.pending :=
  apply_ite _ _ _ _

@[simp] theorem State.id_ite (c : Prop) [Decidable c] (s t : State) : (if c then s else t).id = if c then s.id else t.id :=
  apply_ite _ _ _ _

@[simp] theorem State.clk_ite (c : Prop) [Decidable c] (s t : State) : (if c then s else t).clk = if c then s.clk else t.clk :=
  apply_ite _ _ _ _

/-- What every step of a fold leaves, the fold leaves. -/
@[simp] theorem State.stays_foldl {β : Type} {f : State → β → State} (h : ∀ s b, State.Stays s (f s b)) (l : List β) (s : State) :
    s.Stays (l.foldl f s) :=
  ⟨foldl_keeps f State.pending (fun s b => (h s b).1) l s, foldl_keeps f State.id (fun s b => (h s b).2.1) l s,
    foldl_keeps f State.clk (fun s b => (h s b).2.2) l s⟩

theorem State.stays_foldl_snd {α β : Type} {f : α × State → β → α × State} (h : ∀ r b, State.Stays r.2 (f r b).2) (l : List β)
    (r : α × State) : State.Stays r.2 (l.foldl f r).2 :=
  ⟨foldl_keeps f (fun r => r.2.pending) (fun r b => (h r b).1) l r, foldl_keeps f (fun r => r.2.id) (fun r b => (h r b).2.1) l r,
    foldl_keeps f (fun r => r.2.clk) (fun r b => (h r b).2.2) l r⟩

@[simp] theorem State.stays_map_getD {α : Type} (s : State) (o : Option α) {f : α → State} (h : ∀ a, s.Stays (f a)) :
    s.Stays ((o.map f).getD s) := by
  cases o with
  | none => exact ⟨rfl, rfl, rfl⟩
  | some a => exact h a

/-- What protecting a frame ends in leaves all three. -/
def Prot.Stays (s : State) : Prot → Prop
  | .wait => True
  | .done u => s.Stays u

@[simp] theorem Prot.stays_wait (s : State) : Prot.wait.Stays s := trivial

@[simp] theorem Prot.stays_done {s u : State} : (Prot.done u).Stays s ↔ s.Stays u := Iff.rfl

theorem Prot.Stays.of_done {s u : State} {p : Prot} (h : p.Stays s) (hp : p = .done u) : s.Stays u := by
  rw [hp] at h
  exact h

theorem Prot.Stays.after {s t : State} {p : Prot} (h : p.Stays t) (g : s.Stays t) : p.Stays s := by
  cases p with
  | wait => trivial
  | done u => exact State.Stays.trans g h

/-! ## Machine/Ops -/

@[simp] theorem State.stays_draw (s : State) : s.Stays s.draw.2 := ⟨rfl, rfl, rfl⟩

@[simp] theorem State.stays_count (s : State) (c : Ctr) (sc : Scope) : s.Stays (s.count c sc) := ⟨rfl, rfl, rfl⟩

@[simp] theorem State.stays_countN (s : State) (c : Ctr) (sc : Scope) (n : Nat) : s.Stays (s.countN c sc n) := ⟨rfl, rfl, rfl⟩

@[simp] theorem State.stays_countBoth (s : State) (c : Ctr) (w : Nat) : s.Stays (s.countBoth c w) := ⟨rfl, rfl, rfl⟩

@[simp] theorem State.stays_deliverTo (s : State) (e : Event) (lost : Bool) (m : Nat) : s.Stays (s.deliverTo e lost m) := by
  simp [State.deliverTo]

@[simp] theorem State.stays_deliver (s : State) (e : Event) (lost : Bool) : s.Stays (s.deliver e lost) := by simp [State.deliver]

@[simp] theorem State.stays_hold (s : State) (e : Event) : s.Stays (s.hold e) := by simp [State.hold]

@[simp] theorem State.stays_raise (s : State) (code : Nat) (world : Option Nat) (data : Octets) : s.Stays (s.raise code world data) := by
  simp [State.raise]

@[simp] theorem State.stays_releaseEarly (s : State) : s.Stays s.releaseEarly := by simp [State.releaseEarly]

@[simp] theorem State.stays_touch (s : State) (d : HwDirty) : s.Stays (s.touch d) := by simp [State.touch]

/-! ## Machine/Chains -/

@[simp] theorem State.stays_setOrder (s : State) (k : Nat) (l : List Packet) : s.Stays (s.setOrder k l) := by simp [State.setOrder]

@[simp] theorem State.stays_picked (s : State) : s.Stays s.picked := ⟨rfl, rfl, rfl⟩

@[simp] theorem State.stays_spill (s : State) (q : Nat) : s.Stays (s.spill q) := by simp [State.spill]

@[simp] theorem State.stays_leaveStaging (s : State) (w : Producer) (n : Nat) : s.Stays (s.leaveStaging w n) := ⟨rfl, rfl, rfl⟩

@[simp] theorem State.stays_unstage (s : State) (p : Packet) (keep : List Nat) : s.Stays (s.unstage p keep) := by
  unfold State.unstage
  split <;> simp

/-! ## Machine/Cells -/

theorem State.stays_grant {s t : State} {a n : Nat} (h : s.grant a n = some t) : s.Stays t := by
  rw [(State.grant_some h).1]
  exact ⟨rfl, rfl, rfl⟩

@[simp] theorem State.stays_release (s : State) (a n : Nat) : s.Stays (s.release a n) := by simp [State.release]

@[simp] theorem State.stays_cellFreed (s : State) (cell : Nat) : s.Stays (s.cellFreed cell) := by simp [State.cellFreed]

@[simp] theorem State.stays_releaseChain (s : State) (a n : Nat) (chain : List Nat) : s.Stays (s.releaseChain a n chain) := by
  simp [State.releaseChain]

@[simp] theorem State.stays_commitTo (s : State) (k : Nat) (acct cells : Nat) (c : Content) (keep : List Nat) :
    s.Stays (s.commitTo k acct cells c keep) := by simp [State.commitTo]

theorem State.stays_post {s t : State} {q f w n : Nat} {c : Content} {keep : List Nat} (h : s.post q f w n c keep = some t) :
    s.Stays t :=
  have e := State.sansQueues_post h
  ⟨(congrArg State.pending e :), (congrArg State.id e :), (congrArg State.clk e :)⟩

@[simp] theorem State.stays_countExpired (s : State) (a : Nat) : s.Stays (s.countExpired a) := by
  unfold State.countExpired
  split <;> simp

@[simp] theorem State.stays_expireHead (s : State) (k : Nat) (n : Nat) : s.Stays (s.expireHead k n) := by
  induction n generalizing s with
  | zero => exact ⟨rfl, rfl, rfl⟩
  | succ n ih =>
    unfold State.expireHead
    repeat' split
    all_goals simp [ih]

@[simp] theorem State.stays_take (s : State) (k : Nat) : s.Stays (s.take k).2 := by
  unfold State.take
  dsimp only
  split <;> simp

theorem State.stays_moveCharge {s t : State} {a b c d : Nat} (h : s.moveCharge a b c d = some t) : s.Stays t :=
  State.Stays.trans (s.stays_release a b) (State.stays_grant h)

/-! ## Machine/Keys -/

@[simp] theorem State.stays_eraseSlot (s : State) (i : Nat) : s.Stays (s.eraseSlot i) := by simp [State.eraseSlot]

@[simp] theorem State.stays_loadSlot (s : State) (i : Nat) (k : KeySlot) : s.Stays (s.loadSlot i k) := by simp [State.loadSlot]

@[simp] theorem State.stays_eraseSlots (s : State) (l : List Nat) : s.Stays (s.eraseSlots l) := by simp [State.eraseSlots]

@[simp] theorem State.stays_dropCached (s : State) (i : Nat) : s.Stays (s.dropCached i) := by
  unfold State.dropCached
  split <;> simp

@[simp] theorem State.stays_deriveStart (s : State) : s.Stays s.deriveStart := by simp [State.deriveStart]

@[simp] theorem State.stays_deriveHw (s : State) : s.Stays s.deriveHw := by simp [State.deriveHw]

@[simp] theorem State.stays_deriveCfg (s : State) (kcfg : List Nat) (id : Octets) : s.Stays (s.deriveCfg kcfg id) := by
  simp [State.deriveCfg]

@[simp] theorem State.stays_deriveMbox (s : State) (m world : Nat) (key : List Nat) : s.Stays (s.deriveMbox m world key) := by
  simp [State.deriveMbox]

@[simp] theorem State.stays_groupCell (s : State) (i : Nat) (key : List Nat) : s.Stays (s.groupCell i key) := by
  unfold State.groupCell
  split <;> simp

@[simp] theorem State.stays_journalKey (s : State) (i : Nat) : s.Stays (s.journalKey i) := ⟨rfl, rfl, rfl⟩

@[simp] theorem State.stays_fixFallback (s : State) (i : Nat) : s.Stays (s.fixFallback i) := ⟨rfl, rfl, rfl⟩

@[simp] theorem State.stays_loadWorldKey (s : State) (i : Nat) (k : KeySlot) : s.Stays (s.loadWorldKey i k) := by simp [State.loadWorldKey]

/-! ## Machine/FeOps -/

@[simp] theorem State.stays_setFe (s : State) (f : Fe) (x : FeSt) : s.Stays (s.setFe f x) := ⟨rfl, rfl, rfl⟩

@[simp] theorem State.stays_setLane (s : State) (l : Nat) (x : LaneSt) : s.Stays (s.setLane l x) := ⟨rfl, rfl, rfl⟩

@[simp] theorem State.stays_setDom (s : State) (d : LaneDom) (x : LaneDomSt) : s.Stays (s.setDom d x) := by
  unfold State.setDom
  split <;> simp

@[simp] theorem State.stays_setDuty (s : State) (i : Nat) (d : Duty) : s.Stays (s.setDuty i d) := ⟨rfl, rfl, rfl⟩

@[simp] theorem State.stays_charge (s : State) (i us : Nat) : s.Stays (s.charge i us) := ⟨rfl, rfl, rfl⟩

@[simp] theorem State.stays_returnCharge (s : State) (c : Option (Nat × Nat)) (us : Nat) : s.Stays (s.returnCharge c us) := by
  unfold State.returnCharge
  split <;> simp

@[simp] theorem State.stays_wakeFe (s : State) (f : Fe) : s.Stays (s.wakeFe f) := by
  unfold State.wakeFe
  dsimp only
  split <;> simp

@[simp] theorem State.stays_feed (s : State) : s.Stays s.feed := ⟨rfl, rfl, rfl⟩

@[simp] theorem State.stays_rewindLane (s : State) (l : Nat) : s.Stays (s.rewindLane l) := by
  unfold State.rewindLane
  dsimp only
  repeat' split
  all_goals simp

@[simp] theorem State.stays_cutLane (s : State) (l : Nat) (c : Ctr) : s.Stays (s.cutLane l c) := by
  unfold State.cutLane
  split <;> simp

@[simp] theorem State.stays_voidSensing (s : State) (f : Fe) : s.Stays (s.voidSensing f) := by
  unfold State.voidSensing
  dsimp only
  split <;> simp

@[simp] theorem State.stays_blankFe (s : State) (f : Fe) (c : Ctr) : s.Stays (s.blankFe f c) := by simp [State.blankFe]

@[simp] theorem State.stays_blankFrom (s : State) (f : Fe) (off : Nat) : s.Stays (s.blankFrom f off) := by
  unfold State.blankFrom
  refine State.Stays.trans (s.stays_voidSensing f) (State.stays_foldl (fun s l => ?_) _ _)
  repeat' split
  all_goals simp

@[simp] theorem State.stays_feOff (s : State) (f : Fe) : s.Stays (s.feOff f) := by simp [State.feOff]

@[simp] theorem State.stays_canLog (s : State) (kind cause world flags subject old new : Nat) (gain : Int) :
    s.Stays (s.canLog kind cause world flags subject old new gain) := by
  unfold State.canLog
  exact ⟨rfl, rfl, rfl⟩

@[simp] theorem State.stays_owe (s : State) (kind : Nat) : s.Stays (s.owe kind) := by simp [State.owe]

/-! ## Machine/Verieli -/

@[simp] theorem State.stays_setMb (s : State) (m : Nat) (b : MboxSt) : s.Stays (s.setMb m b) := ⟨rfl, rfl, rfl⟩

@[simp] theorem State.stays_takeSeq (s : State) (m : Nat) : s.Stays (s.takeSeq m).2 := by
  unfold State.takeSeq
  split <;> simp

@[simp] theorem State.stays_commitMsg (s : State) (m : Nat) (msg : Msg) (events : List (BitVec 32)) :
    s.Stays (s.commitMsg m msg events) := by
  unfold State.commitMsg
  repeat' split
  case h_1 t ht => exact State.stays_post ht
  all_goals simp

@[simp] theorem State.stays_respond (s : State) (m : Nat) (r : Request) (status : Nat) (payload : Octets) :
    s.Stays (s.respond m r status payload) := by simp [State.respond]

@[simp] theorem State.stays_spend (s : State) (m q : Nat) : s.Stays (s.spend m q) := ⟨rfl, rfl, rfl⟩

@[simp] theorem State.stays_acceptRequest (s : State) (m : Nat) (r : Request) (arrival : Nat) :
    s.Stays (s.acceptRequest m r arrival) := by
  unfold State.acceptRequest
  dsimp only
  repeat' split
  case h_1 t ht => exact State.stays_post ht
  all_goals simp

@[simp] theorem State.stays_accept (s : State) (m : Nat) (d : Datagram) (arrival : Nat) : s.Stays (s.accept m d arrival) := by
  unfold State.accept
  dsimp only
  repeat' split
  all_goals simp

theorem State.stays_nextRequest {s t : State} {m : Nat} {r : Request} (h : s.nextRequest m = some (r, t)) : s.Stays t :=
  have e := (State.nextRequest_some h).1
  ⟨(congrArg State.pending e :), (congrArg State.id e :), (congrArg State.clk e :)⟩

@[simp] theorem State.stays_hostCmd (s : State) (m op : Nat) {act : State → Request → State} (h : ∀ t r, State.Stays t (act t r)) :
    s.Stays (s.hostCmd m op act) := by
  unfold State.hostCmd
  split
  · simp
  · rename_i r t ht
    have released := State.stays_nextRequest ht
    repeat' split
    case isFalse.isFalse.isFalse.isFalse => exact released.trans (h t r)
    all_goals simp [released]

@[simp] theorem State.stays_shortCmd (s : State) (m op len : Nat) {act : State → Request → State} (h : ∀ t r, State.Stays t (act t r)) :
    s.Stays (s.shortCmd m op len act) :=
  s.stays_hostCmd m op fun t r => by
    split
    · simp
    · exact h t r

@[simp] theorem State.stays_begin (s : State) (m : Nat) (r : Request) (first : Octets) (status : Nat) (result : Octets) :
    s.Stays (s.begin m r first status result) := by simp [State.begin]

@[simp] theorem State.stays_finish (s : State) (m : Nat) (b : Busy) (status : Nat) (result : Octets) : s.Stays (s.finish m b status result) := by
  simp [State.finish]

@[simp] theorem State.stays_sendEvents (s : State) (m : Nat) (l : List RingEvent) (addr : BitVec 128) (port : BitVec 16) :
    s.Stays (s.sendEvents m l addr port) := by simp [State.sendEvents]

/-! ## Machine/PortOps -/

@[simp] theorem State.stays_setPort (s : State) (p : Port) (x : PortSt) : s.Stays (s.setPort p x) := ⟨rfl, rfl, rfl⟩

@[simp] theorem State.stays_rewindPort (s : State) (p : Port) (ignore : Bool) : s.Stays (s.rewindPort p ignore) := by
  simp [State.rewindPort]

@[simp] theorem State.stays_portCells (s : State) (p : Port) (n : Nat) : s.Stays (s.portCells p n) := by
  induction n generalizing s with
  | zero => exact ⟨rfl, rfl, rfl⟩
  | succ n ih =>
    unfold State.portCells
    split
    · rename_i t ht
      simp [ih, State.stays_grant ht]
    · simp

@[simp] theorem State.stays_prpExpire (s : State) (now : Nat) : s.Stays (s.prpExpire now) := by simp [State.prpExpire]

@[simp] theorem State.stays_prpJudge (s : State) (p : Port) (src : BitVec 48) (seq : BitVec 16) (arrival : Nat) :
    s.Stays (s.prpJudge p src seq arrival).2 := by
  unfold State.prpJudge
  dsimp only
  split <;> simp

@[simp] theorem State.stays_heardSource (s : State) (p : Port) (src : BitVec 48) : s.Stays (s.heardSource p src) := by
  simp [State.heardSource]

@[simp] theorem State.stays_takePause (s : State) (p : Port) (q : Nat) : s.Stays (s.takePause p q) := by
  unfold State.takePause
  dsimp only
  repeat' split
  all_goals simp

@[simp] theorem State.stays_closeSends (s : State) : s.Stays s.closeSends := by
  unfold State.closeSends
  exact State.stays_foldl (fun s x => by split <;> simp) _ _

@[simp] theorem State.stays_stampSent (s : State) (p : Port) (seq : BitVec 16) (start : Nat) : s.Stays (s.stampSent p seq start) := ⟨rfl, rfl, rfl⟩

@[simp] theorem State.stays_runPort (s : State) (p : Port) (n : Nat) : s.Stays (s.runPort p n) := by
  induction n generalizing s with
  | zero => exact ⟨rfl, rfl, rfl⟩
  | succ n ih =>
    unfold State.runPort
    dsimp only
    repeat' split
    all_goals simp [ih]

@[simp] theorem State.stays_runPorts (s : State) : s.Stays s.runPorts := by simp [State.runPorts]

@[simp] theorem State.stays_sendFrame (s : State) (packet : Option Packet) (size : Nat) : s.Stays (s.sendFrame packet size) := by
  simp [State.sendFrame]

@[simp] theorem State.stays_sendDelayReq (s : State) (p : Port) : s.Stays (s.sendDelayReq p) := by simp [State.sendDelayReq]

@[simp] theorem State.stays_expireEgress (s : State) : s.Stays s.expireEgress := by simp [State.expireEgress]

@[simp] theorem State.stays_setDeficit (s : State) (w n : Nat) : s.Stays (s.setDeficit w n) := ⟨rfl, rfl, rfl⟩

theorem State.stays_drr {s t : State} {n q : Nat} (h : s.drr n = some (q, t)) : s.Stays t := by
  induction n generalizing s with
  | zero => cases h
  | succ n ih =>
    unfold State.drr at h
    dsimp only at h
    generalize s.back.deficit.getD s.back.turn 0 + _ = d at h
    repeat' split at h
    case h_2.isTrue =>
      cases h
      exact ⟨rfl, rfl, rfl⟩
    all_goals
      have g := ih h
      exact g

@[simp] theorem State.stays_sendHead (s : State) (q : Nat) : s.Stays (s.sendHead q) := by
  unfold State.sendHead
  split <;> simp

@[simp] theorem State.stays_egress (s : State) : s.Stays s.egress := by
  unfold State.egress
  dsimp only
  repeat' split
  case h_1.isTrue ht _ => simpa using State.stays_drr ht
  case h_1.isFalse ht _ => simpa using State.stays_drr ht
  all_goals simp

@[simp] theorem State.stays_sawmill (s : State) : s.Stays s.sawmill := by
  unfold State.sawmill
  dsimp only
  repeat' split
  case h_2 ht => simpa using State.stays_grant ht
  all_goals simp

@[simp] theorem State.stays_enterPathFault (s : State) (p : Port) (cause : Nat) : s.Stays (s.enterPathFault p cause) := by
  simp [State.enterPathFault]

@[simp] theorem State.stays_judgePath (s : State) (y : Port) : s.Stays (s.judgePath y) := by simp [State.judgePath]

@[simp] theorem State.stays_pathWindow (s : State) : s.Stays s.pathWindow := by simp [State.pathWindow]

@[simp] theorem State.stays_beginChange (s : State) (y : Port) (target : Speed) : s.Stays (s.beginChange y target) := ⟨rfl, rfl, rfl⟩

@[simp] theorem State.stays_enterLoad (s : State) (y : Port) (rx tx : Nat) : s.Stays (s.enterLoad y rx tx) := by simp [State.enterLoad]

@[simp] theorem State.stays_decideStep (s : State) (y : Port) : s.Stays (s.decideStep y) := by
  unfold State.decideStep
  split <;> simp

@[simp] theorem State.stays_beginPorts (s : State) : s.Stays s.beginPorts := by simp [State.beginPorts]

/-! ## Machine/LaneOps -/

@[simp] theorem State.stays_markBusy (s : State) (f : Fe) (k : Nat) : s.Stays (s.markBusy f k) := by
  unfold State.markBusy
  dsimp only
  split <;> simp

@[simp] theorem State.stays_laneMoved (s : State) (l : Nat) : s.Stays (s.laneMoved l) := by
  unfold State.laneMoved
  refine State.stays_foldl (fun s f => ?_) _ _
  dsimp only
  repeat' split
  all_goals simp

@[simp] theorem State.stays_noteIdle (s : State) (p : Option (Nat × Nat)) : s.Stays (s.noteIdle p) := by
  unfold State.noteIdle
  split <;> simp

@[simp] theorem State.stays_faultLane (s : State) (l : Nat) (c : LaneFaultCause) : s.Stays (s.faultLane l c) := by
  unfold State.faultLane
  dsimp only
  repeat' split
  all_goals simp

@[simp] theorem State.stays_stopLane (s : State) (l : Nat) : s.Stays (s.stopLane l) := by
  unfold State.stopLane
  split <;> simp

@[simp] theorem State.stays_stopDom (s : State) (d : LaneDom) : s.Stays (s.stopDom d) := by simp [State.stopDom]

@[simp] theorem State.stays_domDown (s : State) (d : LaneDom) : s.Stays (s.domDown d) := by
  unfold State.domDown
  dsimp only
  split <;> simp

/-! ## Machine/TimeOps -/

@[simp] theorem State.stays_setRtc (s : State) (r : Rtc) : s.Stays (s.setRtc r) := ⟨rfl, rfl, rfl⟩

@[simp] theorem State.stays_trust (s : State) : s.Stays s.trust := by simp [State.trust]

@[simp] theorem State.stays_setAlm (s : State) (k : Nat) (e : AlmEntry) : s.Stays (s.setAlm k e) := ⟨rfl, rfl, rfl⟩

@[simp] theorem State.stays_almMiss (s : State) (k : Nat) (e : AlmEntry) (u : Int) : s.Stays (s.almMiss k e u) := by simp [State.almMiss]

@[simp] theorem State.stays_almScan (s : State) (basis : Nat) (cPrev oPrev cNow oNow : Int) :
    s.Stays (s.almScan basis cPrev oPrev cNow oNow).2 := by
  unfold State.almScan
  refine State.stays_foldl_snd (fun r p => ?_) _ ([], s)
  dsimp only
  repeat' split
  all_goals simp

@[simp] theorem State.stays_almAct (s : State) (add : Bool) : s.Stays (s.almAct add) := by
  unfold State.almAct
  split <;> simp

@[simp] theorem State.stays_almFire (s : State) (now : Int) (d : Due) : s.Stays (s.almFire now d) := by
  unfold State.almFire
  dsimp only
  split
  · split
    · next ht => simpa using State.stays_post ht
    · simp
  · simp
  · simp

@[simp] theorem State.stays_almEvaluate (s : State) (count : BitVec 48) : s.Stays (s.almEvaluate count) := by simp [State.almEvaluate]

@[simp] theorem State.stays_almanac (s : State) : s.Stays s.almanac := by simp [State.almanac]

@[simp] theorem State.stays_almResume (s : State) : s.Stays s.almResume := by simp [State.almResume]

@[simp] theorem State.stays_writeRtc (s : State) (sec : BitVec 48) (ago : Nat) : s.Stays (s.writeRtc sec ago) := by simp [State.writeRtc]

@[simp] theorem State.stays_settleRtc (s : State) : s.Stays s.settleRtc := by
  unfold State.settleRtc
  split <;> simp

@[simp] theorem State.stays_leapOffset (s : State) (d : Int) : s.Stays (s.leapOffset d) := by simp [State.leapOffset]

@[simp] theorem State.stays_countdown (s : State) : s.Stays s.countdown := by simp [State.countdown]

@[simp] theorem State.stays_rtcSecond (s : State) : s.Stays s.rtcSecond := by
  unfold State.rtcSecond
  dsimp only
  repeat' split
  all_goals simp

@[simp] theorem State.stays_postStep (s : State) (delta : Int) : s.Stays (s.postStep delta) := ⟨rfl, rfl, rfl⟩

@[simp] theorem State.stays_setDisc (s : State) (d : Discipline) : s.Stays (s.setDisc d) := by simp [State.setDisc]

@[simp] theorem State.stays_measure (s : State) (o : Int) : s.Stays (s.measure o) := by
  unfold State.measure
  dsimp only
  repeat' split
  all_goals simp

@[simp] theorem State.stays_followMaster (s : State) (m : Master) : s.Stays (s.followMaster m) := by
  unfold State.followMaster
  dsimp only
  split <;> simp

@[simp] theorem State.stays_ptp (s : State) (p : Port) : s.Stays (s.ptp p) := by
  unfold State.ptp
  dsimp only
  split <;> simp

@[simp] theorem State.stays_takePtp (s : State) (p : Port) (m : PtpMsg) (t : Nat) : s.Stays (s.takePtp p m t) := by
  unfold State.takePtp
  dsimp only
  repeat' split
  all_goals simp

@[simp] theorem State.stays_rtcAdjust (s : State) (err : Int) : s.Stays (s.rtcAdjust err) := by
  unfold State.rtcAdjust
  split <;> simp

@[simp] theorem State.stays_seedTime (s : State) : s.Stays s.seedTime := by
  unfold State.seedTime
  exact ⟨rfl, rfl, rfl⟩

@[simp] theorem State.stays_oscStop (s : State) : s.Stays s.oscStop := by simp [State.oscStop]

@[simp] theorem State.stays_oscStart (s : State) : s.Stays s.oscStart := by simp [State.oscStart]

end Sys2Proof.Machine

namespace Sys2Proof.Machine

/-! # The node table, the wake cycle, the MAC, the front ends and the lanes leave the queue, the identity and the clock -/

/-! ## Machine/Table -/

@[simp] theorem State.stays_setNode (s : State) (i : Nat) (n : Node) : s.Stays (s.setNode i n) := ⟨rfl, rfl, rfl⟩

@[simp] theorem State.stays_putNode (s : State) (i : Nat) (n : Node) : s.Stays (s.putNode i n) := by simp [State.putNode]

@[simp] theorem State.stays_unindex (s : State) (i : Nat) (eui : BitVec 64) : s.Stays (s.unindex i eui) := ⟨rfl, rfl, rfl⟩

@[simp] theorem State.stays_raiseTableFull (s : State) (reason : Nat) : s.Stays (s.raiseTableFull reason) := by simp [State.raiseTableFull]

@[simp] theorem State.stays_insertFailed (s : State) (reason : Nat) : s.Stays (s.insertFailed reason) := by simp [State.insertFailed]

@[simp] theorem State.stays_insertNode (s : State) (n : Node) : s.Stays (s.insertNode n).2 := by
  unfold State.insertNode
  dsimp only
  repeat' split
  all_goals simp

@[simp] theorem State.stays_forgetNode (s : State) (i : Nat) : s.Stays (s.forgetNode i) := ⟨rfl, rfl, rfl⟩

@[simp] theorem State.stays_clearNode (s : State) (i : Nat) : s.Stays (s.clearNode i) := by
  unfold State.clearNode
  split <;> simp

@[simp] theorem State.stays_learn (s : State) (f : Fe) (h : Hearing) : s.Stays (s.learn f h) := by
  unfold State.learn
  dsimp only
  split <;> simp

@[simp] theorem State.stays_refresh (s : State) (i : Nat) (f : Fe) (h : Hearing) (rate : Nat) (tracked : Bool) :
    s.Stays (s.refresh i f h rate tracked) := by
  unfold State.refresh
  split <;> simp

@[simp] theorem State.stays_sweepState (s : State) (i : Nat) (n : Node) : s.Stays (s.sweepState i n) := by
  unfold State.sweepState
  repeat' split
  all_goals simp

@[simp] theorem State.stays_sweepParents (s : State) (i : Nat) : s.Stays (s.sweepParents i) := by
  unfold State.sweepParents
  split <;> simp

@[simp] theorem State.stays_dropLinks (s : State) (i : Nat) : s.Stays (s.dropLinks i) := ⟨rfl, rfl, rfl⟩

@[simp] theorem State.stays_freeNode (s : State) (i : Nat) : s.Stays (s.freeNode i) := ⟨rfl, rfl, rfl⟩

@[simp] theorem State.stays_sweepVisit (s : State) : s.Stays s.sweepVisit := by
  unfold State.sweepVisit
  dsimp only
  split <;> simp

@[simp] theorem State.stays_fixEntry (s : State) (b k : Nat) : s.Stays (s.fixEntry b k) := by simp [State.fixEntry]

@[simp] theorem State.stays_fixOverflow (s : State) (b : Nat) : s.Stays (s.fixOverflow b) := by simp [State.fixOverflow]

@[simp] theorem State.stays_fixRecord (s : State) (i : Nat) : s.Stays (s.fixRecord i) := by
  unfold State.fixRecord
  dsimp only
  repeat' split
  all_goals simp

@[simp] theorem State.stays_walkVisit (s : State) : s.Stays s.walkVisit := by simp [State.walkVisit]

/-! ## Machine/WakeOps -/

@[simp] theorem State.stays_setGates (s : State) (f : Fe) (g : GateSt) : s.Stays (s.setGates f g) := ⟨rfl, rfl, rfl⟩

@[simp] theorem State.stays_settleCredits (s : State) : s.Stays s.settleCredits := by simp [State.settleCredits]

@[simp] theorem State.stays_addCredit (s : State) (w : Nat) (f : Fe) (d : Int) : s.Stays (s.addCredit w f d).2 := by simp [State.addCredit]

@[simp] theorem State.stays_pacedEnd (s : State) (packet : Nat) (n endNs : Nat) : s.Stays (s.pacedEnd packet n endNs) := by
  unfold State.pacedEnd
  dsimp only
  repeat' split
  all_goals simp

@[simp] theorem State.stays_pacedAir (s : State) (packet : Nat) (us : Nat) : s.Stays (s.pacedAir packet us) := by simp [State.pacedAir]

@[simp] theorem State.stays_releaseAll (s : State) (l : List Packet) : s.Stays (s.releaseAll l) := by simp [State.releaseAll]

@[simp] theorem State.stays_removePacket (s : State) (packet : Nat) : s.Stays (s.removePacket packet).2 := by
  unfold State.removePacket
  dsimp only
  exact State.Stays.trans (by simp) (State.stays_foldl_snd (fun r f => by simp) _ _)

@[simp] theorem State.stays_abandonRest (s : State) (d : DownFrame) : s.Stays (s.abandonRest d) := by
  unfold State.abandonRest
  split <;> simp

@[simp] theorem State.stays_discardFrame (s : State) (d : DownFrame) (acct cells : Nat) (chain : List Nat) (c : Ctr) (sc : Scope) :
    s.Stays (s.discardFrame d acct cells chain c sc) := by simp [State.discardFrame]

@[simp] theorem State.stays_setFlow (s : State) (f : Flow) : s.Stays (s.setFlow f) := by simp [State.setFlow]

@[simp] theorem State.stays_noGate (s : State) (i : Nat) (n : Nat) : s.Stays (s.noGate i n) := by
  induction n generalizing s with
  | zero => exact ⟨rfl, rfl, rfl⟩
  | succ n ih =>
    unfold State.noGate
    repeat' split
    all_goals simp [ih]

@[simp] theorem State.stays_replace (s : State) (f : Flow) : s.Stays (s.replace f) := by
  unfold State.replace
  repeat' split
  all_goals simp

@[simp] theorem State.stays_defer (s : State) (i : Nat) (q : Nat) (p : Packet) (d : DownFrame) : s.Stays (s.defer i q p d) := by
  unfold State.defer
  split <;> simp

@[simp] theorem State.stays_openCont (s : State) (c : Cont) : s.Stays (s.openCont c) := ⟨rfl, rfl, rfl⟩

@[simp] theorem State.stays_examine (s : State) (f : Fe) (q : Nat) (n : Nat) : s.Stays (s.examine f q n) := by
  induction n generalizing s with
  | zero => exact ⟨rfl, rfl, rfl⟩
  | succ n ih =>
    unfold State.examine
    dsimp only
    repeat' split
    all_goals simp [ih]

@[simp] theorem State.stays_reviewFlow (s : State) (f : Fe) (i : Nat) : s.Stays (s.reviewFlow f i) := by
  unfold State.reviewFlow
  repeat' split
  case h_2 => exact State.Stays.trans (s.stays_setFlow _) (State.stays_foldl (fun s p => by split <;> simp) _ _)
  all_goals simp

@[simp] theorem State.stays_rehomeRetry (s : State) (f : Fe) : s.Stays (s.rehomeRetry f) := by
  unfold State.rehomeRetry
  refine State.Stays.trans (s.stays_setFe f _) (State.stays_foldl (fun s r => ?_) _ _)
  repeat' split
  all_goals simp

@[simp] theorem State.stays_dropRetry (s : State) (f : Fe) : s.Stays (s.dropRetry f) := by simp [State.dropRetry]

@[simp] theorem State.stays_prepare (s : State) (f : Fe) : s.Stays (s.prepare f) := by simp [State.prepare]

/-! ## Machine/MacOps -/

@[simp] theorem State.stays_skipBeacon (s : State) (f : Fe) : s.Stays (s.skipBeacon f) := by simp [State.skipBeacon]

@[simp] theorem State.stays_giveBack (s : State) (f : Fe) (a : Attempt) : s.Stays (s.giveBack f a) := by
  unfold State.giveBack
  dsimp only
  repeat' split
  all_goals simp

@[simp] theorem State.stays_withdraw (s : State) (f : Fe) : s.Stays (s.withdraw f) := by simp [State.withdraw]

@[simp] theorem State.stays_bulkSentBy (s : State) (f : Fe) (r : Retry) : s.Stays (s.bulkSentBy f r) := by simp [State.bulkSentBy]

@[simp] theorem State.stays_frameDone (s : State) (f : Fe) (r : Retry) (endNs : Nat) : s.Stays (s.frameDone f r endNs) := by
  unfold State.frameDone
  repeat' split
  all_goals simp

@[simp] theorem State.stays_frameLost (s : State) (f : Fe) (r : Retry) (c : Ctr) : s.Stays (s.frameLost f r c) := by simp [State.frameLost]

@[simp] theorem State.stays_attemptFailed (s : State) (f : Fe) (r : Retry) (c : Ctr) : s.Stays (s.attemptFailed f r c) := by
  simp [State.attemptFailed]

@[simp] theorem State.stays_putBack (s : State) (f : Fe) (r : Retry) : s.Stays (s.putBack f r) := by
  unfold State.putBack
  repeat' split
  all_goals simp

@[simp] theorem State.stays_accessFailed (s : State) (f : Fe) (a : Attempt) : s.Stays (s.accessFailed f a) := by
  unfold State.accessFailed
  split <;> simp

@[simp] theorem State.stays_backOff (s : State) (f : Fe) (a : Attempt) : s.Stays (s.backOff f a) := ⟨rfl, rfl, rfl⟩

@[simp] theorem State.stays_csmaBusy (s : State) (f : Fe) : s.Stays (s.csmaBusy f) := by
  unfold State.csmaBusy
  split <;> simp

@[simp] theorem State.stays_takeOut (s : State) (f : Fe) (r : Retry) : s.Stays (s.takeOut f r) := by
  unfold State.takeOut
  dsimp only
  repeat' split
  all_goals simp

@[simp] theorem State.stays_beginAttempt (s : State) (f : Fe) (c : Cand) (k i : Nat) : s.Stays (s.beginAttempt f c k i) := by
  simp [State.beginAttempt]

@[simp] theorem State.stays_beginBeacon (s : State) (f : Fe) (close k : Nat) : s.Stays (s.beginBeacon f close k) := by
  unfold State.beginBeacon
  split <;> simp

@[simp] theorem State.stays_beginBurst (s : State) (f : Fe) (t : RfTest) : s.Stays (s.beginBurst f t) := by
  unfold State.beginBurst
  split <;> simp

@[simp] theorem State.stays_selectFrame (s : State) (f : Fe) (n : Nat) : s.Stays (s.selectFrame f n) := by
  induction n generalizing s with
  | zero => exact ⟨rfl, rfl, rfl⟩
  | succ n ih =>
    unfold State.selectFrame
    repeat' split
    all_goals simp [ih]

@[simp] theorem State.stays_select (s : State) (f : Fe) : s.Stays (s.select f) := by
  unfold State.select
  dsimp only
  repeat' split
  all_goals simp

@[simp] theorem State.stays_backoffEnd (s : State) (f : Fe) : s.Stays (s.backoffEnd f) := by
  unfold State.backoffEnd
  dsimp only
  repeat' split
  all_goals simp

@[simp] theorem State.stays_senseEnd (s : State) (f : Fe) (power : Int) (blanked : Bool) : s.Stays (s.senseEnd f power blanked) := by
  unfold State.senseEnd
  dsimp only
  split <;> simp

@[simp] theorem State.stays_ackTakes (s : State) (f : Fe) : s.Stays (s.ackTakes f) := by
  unfold State.ackTakes
  repeat' split
  all_goals simp

@[simp] theorem State.stays_setMeas (s : State) (i : Nat) (m : Meas) : s.Stays (s.setMeas i m) := ⟨rfl, rfl, rfl⟩

@[simp] theorem State.stays_ackMeasured (s : State) (i : Nat) (ok : Bool) : s.Stays (s.ackMeasured i ok) := by simp [State.ackMeasured]

@[simp] theorem State.stays_ackMissing (s : State) (f : Fe) (w : AckWait) : s.Stays (s.ackMissing f w) := by
  unfold State.ackMissing
  split <;> simp

@[simp] theorem State.stays_ackCame (s : State) (f : Fe) (w : AckWait) (endNs : Nat) : s.Stays (s.ackCame f w endNs) := by
  unfold State.ackCame
  dsimp only
  repeat' split
  all_goals simp

@[simp] theorem State.stays_downSent (s : State) (f : Fe) (a : Attempt) (r : Retry) (pending : Bool) (endNs : Nat) :
    s.Stays (s.downSent f a r pending endNs) := by
  unfold State.downSent
  split <;> simp

@[simp] theorem State.stays_ackOver (s : State) (l : Nat) : s.Stays (s.ackOver l) := ⟨rfl, rfl, rfl⟩

@[simp] theorem State.stays_ackNotSent (s : State) (f : Fe) (q : TxReq) : s.Stays (s.ackNotSent f q) := by
  unfold State.ackNotSent
  split <;> simp

@[simp] theorem State.stays_refused (s : State) (f : Fe) (q : TxReq) : s.Stays (s.refused f q) := by
  unfold State.refused
  repeat' split
  all_goals simp

@[simp] theorem State.stays_macOff (s : State) (f : Fe) : s.Stays (s.macOff f) := by
  unfold State.macOff
  dsimp only
  repeat' split
  all_goals simp

@[simp] theorem State.stays_unitLost (s : State) (kind number cause : Nat) : s.Stays (s.unitLost kind number cause) := by
  simp [State.unitLost]

@[simp] theorem State.stays_feFault (s : State) (f : Fe) (cause : Nat) : s.Stays (s.feFault f cause) := by simp [State.feFault]

/-! ## Machine/DownOps -/

@[simp] theorem State.stays_cacheKey (s : State) (i world : Nat) (key : Key) : s.Stays (s.cacheKey i world key) := by simp [State.cacheKey]

theorem State.stays_linkKey {s t : State} {i : Nat} {n : Node} {k : Key} (h : s.linkKey i n = some (k, t)) : s.Stays t := by
  rw [State.linkKey_some h]
  exact ⟨rfl, rfl, rfl⟩

@[simp] theorem State.stays_setGroupNext (s : State) (k n : Nat) : s.Stays (s.setGroupNext k n) := by simp [State.setGroupNext]

theorem State.stays_queueFrames {s t : State} {i : Nat} {a b : Node} {l : List DownFrame} (h : s.queueFrames i a b l = some t) :
    s.Stays t := by
  unfold State.queueFrames at h
  dsimp only at h
  split at h
  · cases h
  · rename_i u hu
    cases h
    simp [State.stays_grant hu]

@[simp] theorem State.stays_sendUnicast (s : State) (i : Nat) (n : Node) (l : List Plain) (path : List (Nat × BitVec 64)) (b : Bool) :
    (s.sendUnicast i n l path b).Stays s := by
  unfold State.sendUnicast
  dsimp only
  split
  · simp
  · split
    · simp
    · next hk =>
      have keyed := State.stays_linkKey hk
      repeat' split
      case h_1 hq => exact keyed.trans (State.stays_queueFrames hq)
      all_goals simp [keyed]

@[simp] theorem State.stays_sendJoinKey (s : State) (i : Nat) (n : Node) (w : Nat) (key : Key) (elem : Octets) (kind : DownKind) :
    (s.sendJoinKey i n w key elem kind).Stays s := by
  unfold State.sendJoinKey
  dsimp only
  repeat' split
  case h_1 u hu => exact (State.stays_queueFrames hu :)
  all_goals simp

@[simp] theorem State.stays_sendCast (s : State) (w q : Nat) (l : List Plain) (b : Bool) : (s.sendCast w q l b).Stays s := by
  unfold State.sendCast
  dsimp only
  repeat' split
  case h_2 t ht => simp [State.stays_grant ht]
  all_goals simp

@[simp] theorem State.stays_takeTag (s : State) (sizes : List Nat) : s.Stays (s.takeTag sizes) := by simp [State.takeTag]

/-! ## Machine/FrontEnds -/

@[simp] theorem State.stays_beginCal (s : State) (f : Fe) (k start : Nat) : s.Stays (s.beginCal f k start) := ⟨rfl, rfl, rfl⟩

@[simp] theorem State.stays_tune (s : State) (f : Fe) : s.Stays (s.tune f) := by
  unfold State.tune
  dsimp only
  split <;> simp

@[simp] theorem State.stays_comeUp (s : State) (f : Fe) (k : Nat) : s.Stays (s.comeUp f k) := by
  unfold State.comeUp
  dsimp only
  split <;> simp

@[simp] theorem State.stays_takeRequest (s : State) (f : Fe) (temp : Int) : s.Stays (s.takeRequest f temp) := by
  unfold State.takeRequest
  dsimp only
  split <;> simp

@[simp] theorem State.stays_assignBegun (s : State) (b : TxBody) : s.Stays (s.assignBegun b) := by
  unfold State.assignBegun
  repeat' split
  all_goals simp

@[simp] theorem State.stays_commitStart (s : State) (f : Fe) (q : TxReq) : s.Stays (s.commitStart f q) := by simp [State.commitStart]

@[simp] theorem State.stays_txCommit (s : State) (f : Fe) : s.Stays (s.txCommit f) := by
  unfold State.txCommit
  dsimp only
  split <;> simp

@[simp] theorem State.stays_detector (s : State) (f : Fe) (port : Nat) (r : DetReading) : s.Stays (s.detector f port r) := by
  simp [State.detector]

@[simp] theorem State.stays_macSent (s : State) (f : Fe) (q : TxReq) (endNs : Nat) : s.Stays (s.macSent f q endNs) := by
  unfold State.macSent
  repeat' split
  all_goals simp

@[simp] theorem State.stays_lastTx (s : State) (f : Fe) (q : TxReq) (endNs : Nat) : s.Stays (s.lastTx f q endNs) := by
  unfold State.lastTx
  split <;> simp

@[simp] theorem State.stays_txEnd (s : State) (f : Fe) (samples : List Int) (det : DetReading) : s.Stays (s.txEnd f samples det) := by
  unfold State.txEnd
  dsimp only
  split <;> simp

@[simp] theorem State.stays_overpower (s : State) (f : Fe) : s.Stays (s.overpower f) := by
  unfold State.overpower
  dsimp only
  repeat' split
  all_goals simp

@[simp] theorem State.stays_backCal (s : State) (f : Fe) (temp : Int) : s.Stays (s.backCal f temp) := by
  unfold State.backCal
  dsimp only
  repeat' split
  all_goals simp

@[simp] theorem State.stays_toRx (s : State) (f : Fe) : s.Stays (s.toRx f) := by simp [State.toRx]

@[simp] theorem State.stays_calDone (s : State) (f : Fe) (temp : Int) : s.Stays (s.calDone f temp) := by
  unfold State.calDone
  dsimp only
  repeat' split
  all_goals simp

@[simp] theorem State.stays_rxCalibrate (s : State) (f : Fe) (n : Nat) : s.Stays (s.rxCalibrate f n) := by simp [State.rxCalibrate]

@[simp] theorem State.stays_lockLost (s : State) (f : Fe) (failed : Nat) : s.Stays (s.lockLost f failed) := by simp [State.lockLost]

@[simp] theorem State.stays_rxRecal (s : State) (f : Fe) (temp : Int) : s.Stays (s.rxRecal f temp) := by simp [State.rxRecal]

@[simp] theorem State.stays_ackDue (s : State) (f : Fe) : s.Stays (s.ackDue f) := by
  unfold State.ackDue
  split <;> simp

@[simp] theorem State.stays_oweAck (s : State) (l : Nat) (fc : FrameCtl) : s.Stays (s.oweAck l fc) := by
  unfold State.oweAck
  split <;> simp

/-! ## Machine/HwOps -/

@[simp] theorem State.stays_lineWrite (s : State) (addr : Nat) : s.Stays (s.lineWrite addr) := by
  unfold State.lineWrite
  dsimp only
  repeat' split
  all_goals exact ⟨rfl, rfl, rfl⟩

@[simp] theorem State.stays_retirePage (s : State) (l : Nat) : s.Stays (s.retirePage l) := by simp [State.retirePage]

@[simp] theorem State.stays_journal (s : State) (l : List HwItem) : s.Stays (s.journal l) := by simp [State.journal]

@[simp] theorem State.stays_writePending (s : State) (i : Nat) : s.Stays (s.writePending i) := by
  unfold State.writePending
  split <;> simp

@[simp] theorem State.stays_writeFcIn (s : State) (i : Nat) (v : BitVec 32) : s.Stays (s.writeFcIn i v) := by simp [State.writeFcIn]

@[simp] theorem State.stays_writeCeil (s : State) (i v : Nat) : s.Stays (s.writeCeil i v) := by simp [State.writeCeil]

@[simp] theorem State.stays_writeJoin (s : State) (i : Nat) (key : Key) : s.Stays (s.writeJoin i key) := by
  unfold State.writeJoin
  split <;> simp

@[simp] theorem State.stays_closeBuffer (s : State) : s.Stays s.closeBuffer := by simp [State.closeBuffer]

@[simp] theorem State.stays_writeSuper (s : State) (clean : Bool) : s.Stays (s.writeSuper clean) := by simp [State.writeSuper]

@[simp] theorem State.stays_homeAll (s : State) : s.Stays s.homeAll := ⟨rfl, rfl, rfl⟩

/-! ## Machine/Lanes -/

@[simp] theorem State.stays_preamble (s : State) (l : Nat) (p : Preamble) (units corrA corrB level : Nat) :
    s.Stays (s.preamble l p units corrA corrB level) := by
  unfold State.preamble
  dsimp only
  repeat' split
  all_goals simp

@[simp] theorem State.stays_sfdTimeout (s : State) (l : Nat) : s.Stays (s.sfdTimeout l) := by
  unfold State.sfdTimeout
  split <;> simp

@[simp] theorem State.stays_sfdFound (s : State) (l : Nat) (word : BitVec 32) (offset8 : Int) (a b : PortMetric) :
    s.Stays (s.sfdFound l word offset8 a b) := by
  unfold State.sfdFound
  repeat' split
  all_goals simp

@[simp] theorem State.stays_headerEnd (s : State) (l : Nat) (hdr : PhyHeader) : s.Stays (s.headerEnd l hdr) := by
  unfold State.headerEnd
  dsimp only
  split
  · split
    · simp
    · simp
    · split
      · simp
      · split
        · split <;> simp
        · next ht => split <;> simp [State.stays_grant ht]
  · simp

@[simp] theorem State.stays_codeword (s : State) (l : Nat) : s.Stays (s.codeword l) := by
  unfold State.codeword
  dsimp only
  split <;> simp

@[simp] theorem State.stays_decoded (s : State) (core iterations : Nat) (word : BitVec 2048) : s.Stays (s.decoded core iterations word) := by
  unfold State.decoded
  split <;> simp

@[simp] theorem State.stays_assignEffect (s : State) (l : Nat) : s.Stays (s.assignEffect l) := by
  unfold State.assignEffect
  dsimp only
  repeat' split
  all_goals simp

@[simp] theorem State.stays_domReturn (s : State) (d : LaneDom) (kat : List Bool) : s.Stays (s.domReturn d kat) := by simp [State.domReturn]

end Sys2Proof.Machine

namespace Sys2Proof.Machine

/-! # Canopy, the time commands, reception and RPL leave the queue, the identity and the clock -/

/-! ## Machine/CanopyOps -/

@[simp] theorem State.stays_setCourse (s : State) (i : Nat) (c : Option Course) : s.Stays (s.setCourse i c) := by simp [State.setCourse]

@[simp] theorem State.stays_coolNode (s : State) (i : Nat) : s.Stays (s.coolNode i) := ⟨rfl, rfl, rfl⟩

@[simp] theorem State.stays_decideMove (s : State) (i g p cause flags : Nat) (gain : Int) :
    s.Stays (s.decideMove i g p cause flags gain) := by
  unfold State.decideMove
  split
  · simp
  · dsimp only
    split
    · simp
    · next hu => simpa using (State.stays_sendUnicast _ _ _ _ _ _).of_done hu

@[simp] theorem State.stays_assignNow (s : State) (i : Nat) : s.Stays (s.assignNow i) := by
  unfold State.assignNow
  split <;> simp

@[simp] theorem State.stays_dropAttempt (s : State) (f : Fe) (i : Nat) : s.Stays (s.dropAttempt f i) := by
  unfold State.dropAttempt
  dsimp only
  repeat' split
  all_goals simp

@[simp] theorem State.stays_dropCarriers (s : State) (i : Nat) : s.Stays (s.dropCarriers i) := by
  unfold State.dropCarriers
  dsimp only
  refine State.Stays.trans (State.Stays.trans ?_ (State.stays_foldl (fun s p => ?_) _ _)) (State.stays_foldl (fun s f => ?_) _ _)
  · simp
  · split <;> simp
  · simp

@[simp] theorem State.stays_assignWithdraw (s : State) (i : Nat) : s.Stays (s.assignWithdraw i) := by
  unfold State.assignWithdraw
  split <;> simp

@[simp] theorem State.stays_writePlace (s : State) (i g p fe kind : Nat) (c : Ctr) : s.Stays (s.writePlace i g p fe kind c) := by
  unfold State.writePlace
  split <;> simp

@[simp] theorem State.stays_assignLane (s : State) (l : Nat) (a : Option (Nat × Nat)) (cause flags : Nat) (pinned : Bool) :
    s.Stays (s.assignLane l a cause flags pinned) := by simp [State.assignLane]

@[simp] theorem State.stays_settleLanes (s : State) : s.Stays s.settleLanes := by simp [State.settleLanes]

@[simp] theorem State.stays_makeMove (s : State) (f : Fe) (mv : SliceMove) : s.Stays (s.makeMove f mv) := by
  unfold State.makeMove
  dsimp only
  repeat' split
  all_goals simp

@[simp] theorem State.stays_decideSlice (s : State) (f : Fe) (centre cause flags : Nat) (gain : Int) :
    s.Stays (s.decideSlice f centre cause flags gain) := by simp [State.decideSlice]

@[simp] theorem State.stays_sliceMove (s : State) (f : Fe) : s.Stays (s.sliceMove f) := by
  unfold State.sliceMove
  dsimp only
  split <;> simp

/-! ## Machine/Canopy -/

@[simp] theorem State.stays_measureLinks (s : State) : s.Stays s.measureLinks := by
  unfold State.measureLinks
  refine State.stays_foldl (fun s f => State.stays_foldl (fun s p => ?_) _ _) _ _
  repeat' split
  all_goals simp

@[simp] theorem State.stays_measureBusy (s : State) (l : List BusyWindow) : s.Stays (s.measureBusy l) := by simp [State.measureBusy]

@[simp] theorem State.stays_avoidNeighbours (s : State) : s.Stays s.avoidNeighbours := by simp [State.avoidNeighbours]

@[simp] theorem State.stays_slice (s : State) (f : Fe) : s.Stays (s.slice f) := by simp [State.slice]

@[simp] theorem State.stays_applyMap (s : State) (extra cause flags : Nat) : s.Stays (s.applyMap extra cause flags) := by
  simp [State.applyMap]

@[simp] theorem State.stays_faultMap (s : State) : s.Stays s.faultMap := by simp [State.faultMap]

@[simp] theorem State.stays_noteUnwatched (s : State) : s.Stays s.noteUnwatched := by simp [State.noteUnwatched]

@[simp] theorem State.stays_gateList (s : State) (f : Fe) : s.Stays (s.gateList f) := by
  unfold State.gateList
  split <;> simp

@[simp] theorem State.stays_revertNode (s : State) (t : Taken) : s.Stays (s.revertNode t) := by simp [State.revertNode]

@[simp] theorem State.stays_reverts (s : State) : s.Stays s.reverts := by simp [State.reverts]

@[simp] theorem State.stays_rehomes (s : State) : s.Stays s.rehomes := by
  unfold State.rehomes
  refine State.Stays.trans (t := { s with canopy := { s.canopy with rehome := [] } }) ⟨rfl, rfl, rfl⟩ (State.stays_foldl (fun s p => ?_) _ _)
  repeat' split
  all_goals simp

@[simp] theorem State.stays_decidePins (s : State) : s.Stays s.decidePins := by
  unfold State.decidePins
  refine State.stays_foldl (fun s w => ?_) _ _
  repeat' split
  all_goals simp

@[simp] theorem State.stays_placeNodes (s : State) (n : Nat) : s.Stays (s.placeNodes n) := by
  induction n generalizing s with
  | zero => exact ⟨rfl, rfl, rfl⟩
  | succ n ih =>
    unfold State.placeNodes
    repeat' split
    all_goals simp [ih]

@[simp] theorem State.stays_aerialNode (s : State) (i : Nat) : s.Stays (s.aerialNode i) := by
  unfold State.aerialNode
  repeat' split
  all_goals simp

@[simp] theorem State.stays_powerNode (s : State) (i : Nat) : s.Stays (s.powerNode i) := by
  unfold State.powerNode
  repeat' split
  all_goals simp

@[simp] theorem State.stays_setPath (s : State) (i slot : Nat) (gain : Int) : s.Stays (s.setPath i slot gain) := by
  unfold State.setPath
  split <;> simp

@[simp] theorem State.stays_paths (s : State) : s.Stays s.paths := by simp [State.paths]

@[simp] theorem State.stays_work (s : State) : s.Stays s.work := by simp [State.work]

@[simp] theorem State.stays_decideKind (s : State) (k : Nat) : s.Stays (s.decideKind k) := by
  unfold State.decideKind
  split <;> simp

@[simp] theorem State.stays_decideAll (s : State) (due : List Nat) : s.Stays (s.decideAll due) := by simp [State.decideAll]

@[simp] theorem State.stays_canopyRound (s : State) (e : CanopyEnv) : s.Stays (s.canopyRound e) := by simp [State.canopyRound]

@[simp] theorem State.stays_freezeEnd (s : State) : s.Stays s.freezeEnd := by simp [State.freezeEnd]

@[simp] theorem State.stays_raiseUnwatched (s : State) (f : Fe) (k : Nat) : s.Stays (s.raiseUnwatched f k) := by
  unfold State.raiseUnwatched
  dsimp only
  split <;> simp

/-! ## Machine/CanopyCmds -/

@[simp] theorem State.stays_waitPin (s : State) (i : Nat) (w : PinWait) : s.Stays (s.waitPin i w) := by simp [State.waitPin]

@[simp] theorem State.stays_markPin (s : State) (i kind : Nat) (on : Bool) : s.Stays (s.markPin i kind on) := by
  unfold State.markPin
  split <;> simp

@[simp] theorem State.stays_pinNode (s : State) (i : Nat) (n : Node) (kind value : Nat) : s.Stays (s.pinNode i n kind value) := by
  unfold State.pinNode
  split <;> simp

@[simp] theorem State.stays_pinLane (s : State) (l : Nat) (a : Nat × Nat) : s.Stays (s.pinLane l a) := by simp [State.pinLane]

@[simp] theorem State.stays_pinSlice (s : State) (f : Fe) (c : Nat) : s.Stays (s.pinSlice f c) := by simp [State.pinSlice]

@[simp] theorem State.stays_canopyPin (s : State) (m : Nat) (r : Request) : s.Stays (s.canopyPin m r) := by
  unfold State.canopyPin
  dsimp only
  repeat' split
  all_goals simp

@[simp] theorem State.stays_dropWait (s : State) (i kind : Nat) : s.Stays (s.dropWait i kind) := by simp [State.dropWait]

@[simp] theorem State.stays_canopyUnpin (s : State) (m : Nat) (r : Request) : s.Stays (s.canopyUnpin m r) := by
  unfold State.canopyUnpin
  dsimp only
  repeat' split
  all_goals simp

@[simp] theorem State.stays_setFreeze (s : State) (kinds w duration : Nat) (on : Bool) : s.Stays (s.setFreeze kinds w duration on) := by
  simp [State.setFreeze]

/-! ## Machine/Clock -/

@[simp] theorem State.stays_writeInc (s : State) (ns : BitVec 3) (frac : BitVec 32) : s.Stays (s.writeInc ns frac) := by
  simp [State.writeInc]

@[simp] theorem State.stays_masterLoss (s : State) : s.Stays s.masterLoss := by simp [State.masterLoss]

@[simp] theorem State.stays_holdoverDegraded (s : State) : s.Stays s.holdoverDegraded := by simp [State.holdoverDegraded]

@[simp] theorem State.stays_ppsEdge (s : State) : s.Stays s.ppsEdge := by simp [State.ppsEdge]

@[simp] theorem State.stays_timeSet (s : State) (m : Nat) (r : Request) : s.Stays (s.timeSet m r) := by
  unfold State.timeSet
  repeat' split
  all_goals simp

@[simp] theorem State.stays_localChange (s : State) (m : Nat) (r : Request) (o : Int) (summer : Option Bool) :
    s.Stays (s.localChange m r o summer) := by simp [State.localChange]

/-! ## Machine/MacRx -/

@[simp] theorem State.stays_postAck (s : State) (r : RxEnd) (f : AirFrame) : s.Stays (s.postAck r f) := by
  unfold State.postAck
  dsimp only
  split <;> simp

@[simp] theorem State.stays_countWorldAndDevice (s : State) (c : Ctr) (w : Option Nat) : s.Stays (s.countWorldAndDevice c w) := by
  unfold State.countWorldAndDevice
  split <;> simp

@[simp] theorem State.stays_dupEnter (s : State) (f : AirFrame) (fcs : BitVec 32) (len endNs : Nat) : s.Stays (s.dupEnter f fcs len endNs) := by
  unfold State.dupEnter
  dsimp only
  repeat' split
  all_goals simp

@[simp] theorem State.stays_nbrEvent (s : State) (code : Nat) (n : Nbr) : s.Stays (s.nbrEvent code n) := by simp [State.nbrEvent]

@[simp] theorem State.stays_neighbour (s : State) (r : RxEnd) (src : BitVec 64) (e : BeaconElem) : s.Stays (s.neighbour r src e) := by
  unfold State.neighbour
  repeat' split
  all_goals simp

@[simp] theorem State.stays_beaconHeard (s : State) (r : RxEnd) (f : AirFrame) : s.Stays (s.beaconHeard r f) := by
  unfold State.beaconHeard
  split <;> simp

@[simp] theorem State.stays_awaited (s : State) (r : RxEnd) (f : AirFrame) (good : Bool) : s.Stays (s.awaited r f good) := by
  unfold State.awaited
  split <;> simp

@[simp] theorem State.stays_learnFrame (s : State) (r : RxEnd) (src : Addr) (direct : Bool) : s.Stays (s.learnFrame r src direct) := by
  unfold State.learnFrame
  repeat' split
  all_goals simp

@[simp] theorem State.stays_measureU (s : State) (i : Nat) (r : RxEnd) : s.Stays (s.measureU i r) := by
  unfold State.measureU
  dsimp only
  repeat' split
  all_goals simp

@[simp] theorem State.stays_noteChannel (s : State) (i : Nat) (r : RxEnd) : s.Stays (s.noteChannel i r) := by
  unfold State.noteChannel
  dsimp only
  repeat' split
  all_goals simp

@[simp] theorem State.stays_acceptSource (s : State) (r : RxEnd) (f : AirFrame) : s.Stays (s.acceptSource r f).2 := by
  unfold State.acceptSource
  dsimp only
  repeat' split
  all_goals simp

@[simp] theorem State.stays_freeLane (s : State) (l : Nat) : s.Stays (s.freeLane l) := by simp [State.freeLane]

@[simp] theorem State.stays_closeFrame (s : State) (r : RxEnd) : s.Stays (s.closeFrame r) := by simp [State.closeFrame]

@[simp] theorem State.stays_testFrame (s : State) (fe : Fe) (level : Nat) : s.Stays (s.testFrame fe level) := by simp [State.testFrame]

@[simp] theorem State.stays_acceptFrame (s : State) (r : RxEnd) (f : AirFrame) : s.Stays (s.acceptFrame r f) := by
  simp [State.acceptFrame]

@[simp] theorem State.stays_frameEnd (s : State) (l : Nat) (f : AirFrame) : s.Stays (s.frameEnd l f) := by
  unfold State.frameEnd
  split <;> simp

@[simp] theorem State.stays_nbrWindow (s : State) (router : Nat) : s.Stays (s.nbrWindow router) := by
  unfold State.nbrWindow
  repeat' split
  all_goals simp

/-! ## Machine/Rpl -/

@[simp] theorem State.stays_setDodag (s : State) (w : Nat) (d : Dodag) : s.Stays (s.setDodag w d) := ⟨rfl, rfl, rfl⟩

@[simp] theorem State.stays_resetTrickle (s : State) (w : Nat) : s.Stays (s.resetTrickle w) := ⟨rfl, rfl, rfl⟩

@[simp] theorem State.stays_rplReply (s : State) (i : Nat) (kind : DownKind) : (s.rplReply i kind).Stays s := by
  unfold State.rplReply
  split
  · simp
  · exact (State.stays_sendUnicast _ _ _ _ _ _).after ⟨rfl, rfl, rfl⟩

@[simp] theorem State.stays_dioTrickle (s : State) (w : Nat) : s.Stays (s.dioTrickle w) := by
  unfold State.dioTrickle
  dsimp only
  repeat' split
  case h_1 hu => simpa using (State.stays_sendCast _ _ _ _ _).of_done hu
  all_goals simp

@[simp] theorem State.stays_applyDao (s : State) (i : Nat) (n : Node) (seq : BitVec 8) (l : List Transit) : s.Stays (s.applyDao i n seq l) := by
  simp [State.applyDao]

@[simp] theorem State.stays_dao (s : State) (i : Nat) (n : Node) (inst : Nat) (targets : List (BitVec 64)) (seq : BitVec 8) (l : List Transit)
    (k : Bool) : (s.dao i n inst targets seq l k).Stays s := by
  unfold State.dao
  dsimp only
  repeat' split
  case isFalse.isFalse.isFalse.isTrue => exact (State.stays_rplReply _ _ _).after (by simp)
  all_goals simp

@[simp] theorem State.stays_dis (s : State) (i : Nat) (n : Node) (b : Bool) : (s.dis i n b).Stays s := by
  unfold State.dis
  repeat' split
  all_goals simp

end Sys2Proof.Machine

namespace Sys2Proof.Machine

/-! # The link layer, downstream packets, life cycle and cipher jobs leave the queue, the identity and the clock -/

/-! ## Machine/Link -/

@[simp] theorem State.stays_countRx (s : State) (r : Rx) (c : Ctr) (w : Option Nat) : s.Stays (s.countRx r c w) := by
  unfold State.countRx
  split <;> simp

@[simp] theorem State.stays_dropRx (s : State) (r : Rx) : s.Stays (s.dropRx r) := by simp [State.dropRx]

@[simp] theorem State.stays_holdOpen (s : State) (r : Rx) : s.Stays (s.holdOpen r) := by
  unfold State.holdOpen
  split <;> simp

@[simp] theorem State.stays_notice (s : State) (r : Rx) (i : Nat) (n : Node) (w reason : Nat) (b : Bool) :
    (s.notice r i n w reason b).Stays s := by
  unfold State.notice
  dsimp only
  split
  · simp
  · split
    · rename_i t ht
      repeat' split at ht
      · simpa using (State.stays_sendUnicast _ _ _ _ _ _).of_done ht
      · simpa using (State.stays_sendJoinKey _ _ _ _ _ _ _).of_done ht
      · cases ht
        simp
    · simp

@[simp] theorem State.stays_dropJoin (s : State) (i : Nat) : s.Stays (s.dropJoin i) := ⟨rfl, rfl, rfl⟩

@[simp] theorem State.stays_joinFails (s : State) (i : Nat) (n : Node) (w : Nat) (c : Ctr) : s.Stays (s.joinFails i n w c) := by
  simp [State.joinFails]

@[simp] theorem State.stays_joinHeard (s : State) (r : Rx) (i : Nat) (n : Node) (g : Nat) : s.Stays (s.joinHeard r i n g).2 := by
  unfold State.joinHeard
  split <;> simp

@[simp] theorem State.stays_joinReq (s : State) (r : Rx) (sec : AirSec) (i : Nat) (n : Node) (w : Nat) :
    (s.joinReq r sec i n w).Stays s := by
  unfold State.joinReq
  split
  · split
    · simp
    · split
      · simp
      · dsimp only
        split
        · simp
        · split
          · simp
          · split
            · simp
            · split
              · simp
              · exact (State.stays_sendJoinKey _ _ _ _ _ _ _).after (by simp)
  · simp

@[simp] theorem State.stays_joinDone (s : State) (i : Nat) : (s.joinDone i).Stays s := by
  unfold State.joinDone
  split <;> simp

@[simp] theorem State.stays_joinComplete (s : State) (r : Rx) (sec : AirSec) (i : Nat) (n : Node) (j : Join) (g p : Nat) :
    (s.joinComplete r sec i n j g p).Stays s := by
  unfold State.joinComplete
  exact (State.stays_joinDone _ _).after (by simp)

theorem State.stays_joinConfirm {s : State} {r : Rx} {sec : AirSec} {i : Nat} {n : Node} {j : Join} {p : Prot}
    (h : s.joinConfirm r sec i n j = some p) : p.Stays s := by
  unfold State.joinConfirm at h
  split at h
  · cases h
    simp
  · split at h
    · cases h
      split
      · simp
      · dsimp only
        split
        · simp
        · split
          · simp
          · exact (State.stays_joinComplete _ _ _ _ _ _ _ _).after (by simp)
    · cases h

@[simp] theorem State.stays_upstream (s : State) (w : Nat) (src : BitVec 64) (ip : Octets) (tc : BitVec 8) (keep : List Nat) :
    s.Stays (s.upstream w src ip tc keep) := by
  unfold State.upstream
  repeat' split
  case h_1 ht => exact State.stays_post ht
  all_goals simp

@[simp] theorem State.stays_dropReasm (s : State) (x : Reasm) : s.Stays (s.dropReasm x) := by simp [State.dropReasm]

@[simp] theorem State.stays_fragment (s : State) (r : Rx) (w : Nat) (src : BitVec 64) (ip : Octets) (h : FragHdr) :
    s.Stays (s.fragment r w src ip h) := by
  unfold State.fragment
  dsimp only
  repeat' split
  case h_1 t ht => simp [State.stays_moveCharge ht]
  all_goals simp

@[simp] theorem State.stays_upContent (s : State) (r : Rx) (i : Nat) (n : Node) : (s.upContent r i n).Stays s := by
  unfold State.upContent
  repeat' split
  · simp
  · simp
  · simp
  · exact (State.stays_dao _ _ _ _ _ _ _ _).after (by simp)
  · exact (State.stays_dis _ _ _ _).after (by simp)
  · exact (State.stays_joinDone _ _).after (by simp)
  · simp
  · simp

theorem State.stays_verify {s t : State} {r : Rx} {sec : AirSec} {i : Nat} {n : Node} {c : KeyClass} {b : Bool}
    (h : s.verify r sec i n c = some (b, t)) : s.Stays t := by
  unfold State.verify at h
  split at h
  · obtain ⟨k, hk, he⟩ := Option.map_eq_some_iff.1 h
    cases he
    exact State.stays_linkKey hk
  · cases h
    simp
  · cases h
    simp

@[simp] theorem State.stays_verifyFrame (s : State) (r : Rx) (sec : AirSec) (i : Nat) (n : Node) (c : KeyClass) :
    (s.verifyFrame r sec i n c).Stays s := by
  have notices : ∀ t n w k b, s.Stays t → (State.notice t r i n w k b).Stays s := fun _ _ _ _ _ h =>
    (State.stays_notice _ _ _ _ _ _ _).after h
  unfold State.verifyFrame
  extract_lets w stale heldGen isLink sameWorld t₁ t₂ m t₃
  split
  · simp
  · split
    · simp
    · split
      · split <;> simp [notices, t₁]
      · split
        · repeat' split
          · exact notices _ _ _ _ _ (by simp [t₃, t₂])
          · simp [t₃, t₂]
          · simp [t₂]
        · split
          · simp
          · next t hv => simp [State.stays_verify hv]
          · next t hv => exact (State.stays_upContent _ _ _ _).after (by simp [State.stays_verify hv])

@[simp] theorem State.stays_secure (s : State) (r : Rx) (i : Nat) (n : Node) : (s.secure r i n).Stays s := by
  unfold State.secure
  split
  · simp
  · rename_i sec _
    dsimp only
    generalize hu : (if n.state ≠ .joining then s.verifyFrame r sec i n (keyClass sec.keyIndex) else _) = usual
    have usualStays : usual.Stays s := by
      rw [← hu]
      split
      · simp
      · split
        · exact (State.stays_notice _ _ _ _ _ _ _).after (by simp)
        · simp
    split
    · simp
    · exact (State.stays_joinReq _ _ _ _ _ _).after (by simp)
    · split
      · split
        · rename_i j _ _
          cases hc : (s.dropRx r).joinConfirm r sec i n j with
          | none => exact usualStays
          | some p => exact (State.stays_joinConfirm hc).after (by simp)
        · exact usualStays
      · exact usualStays
    · exact usualStays

@[simp] theorem State.stays_security (s : State) (p : Fe) : s.Stays (s.security p) := by
  unfold State.security
  dsimp only
  split
  · simp
  · split
    · split
      case h_5 =>
        split
        · simp
        · split
          · next hu => simpa using (State.stays_secure _ _ _ _).of_done hu
          · simp
      all_goals simp
    · simp

@[simp] theorem State.stays_joinTimeout (s : State) (i : Nat) : s.Stays (s.joinTimeout i) := by
  unfold State.joinTimeout
  split <;> simp

@[simp] theorem State.stays_reasmTimeout (s : State) (src : BitVec 64) (tag size : Nat) : s.Stays (s.reasmTimeout src tag size) := by
  unfold State.reasmTimeout
  split <;> simp

@[simp] theorem State.stays_ceilingWrite (s : State) (k : CeilKind) : s.Stays (s.ceilingWrite k) := by
  unfold State.ceilingWrite
  dsimp only
  repeat' split
  all_goals simp

/-! ## Machine/Down -/

@[simp] theorem State.stays_learnRouter (s : State) (mac : BitVec 48) : s.Stays (s.learnRouter mac) := by simp [State.learnRouter]

@[simp] theorem State.stays_toPart (s : State) (port arrival : Nat) (src dst : BitVec 128) (udp : Option (BitVec 16 × BitVec 16))
    (data : Octets) : s.Stays (s.toPart port arrival src dst udp data) := by
  unfold State.toPart
  repeat' split
  all_goals simp

@[simp] theorem State.stays_downUnicast (s : State) (w i : Nat) (p : DownPkt) : (s.downUnicast w i p).Stays s := by
  unfold State.downUnicast
  dsimp only
  repeat' split
  case h_2.isTrue ht _ => simpa using (State.stays_sendUnicast _ _ _ _ _ _).of_done ht
  case h_2.isFalse ht _ => simpa using (State.stays_sendUnicast _ _ _ _ _ _).of_done ht
  all_goals simp

@[simp] theorem State.stays_downCast (s : State) (w q : Nat) (p : DownPkt) : (s.downCast w q p).Stays s := by
  unfold State.downCast
  dsimp only
  split
  · simp
  · exact (State.stays_sendCast _ _ _ _ _).after (by simp)

@[simp] theorem State.stays_downstream (s : State) (hdr : EthHdr) (dst : BitVec 128) (tc : BitVec 8) (p : DownPkt) :
    (s.downstream hdr dst tc p).Stays s := by
  unfold State.downstream
  repeat' split
  all_goals simp

@[simp] theorem State.stays_classify (s : State) (port : Nat) (f : EthFrame) (arrival : Nat) (o : Octets) (k : Nat) :
    (s.classify port f arrival o k).Stays s := by
  unfold State.classify
  repeat' split
  all_goals simp

theorem State.stays_takeAct (s : State) (q : Nat) {act : State → Packet → Prot} (h : ∀ t p, (act t p).Stays t) :
    s.Stays (s.takeAct q act) := by
  unfold State.takeAct
  dsimp only
  split
  · simp
  · split
    · next hu => simpa using (h _ _).of_done hu
    · simp

@[simp] theorem State.stays_classifyNext (s : State) (compressed : Octets) (hdrOct : Nat) :
    s.Stays (s.classifyNext compressed hdrOct) := by
  unfold State.classifyNext
  split <;> exact s.stays_takeAct _ fun t p => by split <;> simp

/-! ## Machine/LifeOps -/

@[simp] theorem State.stays_writeDir (s : State) (f : DirRec → DirRec) : s.Stays (s.writeDir f) := by simp [State.writeDir]

@[simp] theorem State.stays_failDir (s : State) : s.Stays s.failDir := by simp [State.failDir]

@[simp] theorem State.stays_scramble (s : State) (a n : Nat) : s.Stays (s.scramble a n) := by simp [State.scramble]

@[simp] theorem State.stays_badWrite (s : State) (a n : Nat) : s.Stays (s.badWrite a n) := by
  induction n generalizing s a with
  | zero => exact ⟨rfl, rfl, rfl⟩
  | succ n ih => exact ih _ _

@[simp] theorem State.stays_writeSlot (s : State) (base size off : Nat) (data : Octets) (late : Bool) :
    s.Stays (s.writeSlot base size off data late).2 := by
  unfold State.writeSlot
  split <;> simp

@[simp] theorem State.stays_runFw (s : State) (i : Nat) : s.Stays (s.runFw i) := ⟨rfl, rfl, rfl⟩

@[simp] theorem State.stays_raiseRollback (s : State) : s.Stays s.raiseRollback := by simp [State.raiseRollback]

@[simp] theorem State.stays_raiseFloor (s : State) : s.Stays s.raiseFloor := by
  unfold State.raiseFloor
  split <;> simp

@[simp] theorem State.stays_countKept (s : State) (c : Ctr) (sc : Scope) : s.Stays (s.countKept c sc) := ⟨rfl, rfl, rfl⟩

@[simp] theorem State.stays_powerClear (s : State) : s.Stays s.powerClear := ⟨rfl, rfl, rfl⟩

@[simp] theorem State.stays_holdIn (s : State) (m : Mode) : s.Stays (s.holdIn m) := ⟨rfl, rfl, rfl⟩

@[simp] theorem State.stays_sendLast (s : State) : s.Stays s.sendLast := by simp [State.sendLast]

@[simp] theorem State.stays_restartBy (s : State) (cause : Nat) : s.Stays (s.restartBy cause) := ⟨rfl, rfl, rfl⟩

@[simp] theorem State.stays_openM0 (s : State) : s.Stays s.openM0 := ⟨rfl, rfl, rfl⟩

@[simp] theorem State.stays_haltCrypto (s : State) : s.Stays s.haltCrypto := by simp [State.haltCrypto]

@[simp] theorem State.stays_secError (s : State) (cause sensor : Nat) : s.Stays (s.secError cause sensor) := by simp [State.secError]

@[simp] theorem State.stays_zeroise (s : State) (c : ZeroCause) : s.Stays (s.zeroise c) := by simp [State.zeroise]

@[simp] theorem State.stays_zeroEnd (s : State) : s.Stays s.zeroEnd := by simp [State.zeroEnd]

@[simp] theorem State.stays_mapOutUnit (s : State) (u : Nat) : s.Stays (s.mapOutUnit u) := by simp [State.mapOutUnit]

@[simp] theorem State.stays_unitTests (s : State) (ok : List Bool) : s.Stays (s.unitTests ok) := by simp [State.unitTests]

@[simp] theorem State.stays_collect (s : State) (first second : Bool) : s.Stays (s.collect first second).2 := by
  unfold State.collect
  repeat' split
  all_goals simp

@[simp] theorem State.stays_tests2to9 (s : State) (r : TestEnv) : s.Stays (s.tests2to9 r).2 := by
  unfold State.tests2to9
  dsimp only
  repeat' split
  all_goals simp

@[simp] theorem State.stays_pufTest (s : State) (l : List Nat) : s.Stays (s.pufTest l) := by simp [State.pufTest]

@[simp] theorem State.stays_allTests (s : State) (r : TestEnv) : s.Stays (s.allTests r).2 := by
  unfold State.allTests
  split <;> simp

@[simp] theorem State.stays_coldTests (s : State) (r : TestEnv) : s.Stays (s.coldTests r).2 := by
  unfold State.coldTests
  dsimp only
  split <;> simp

/-! ## Machine/Jobs -/

@[simp] theorem State.stays_jobPut (s : State) (a : Nat) (o : Octets) : s.Stays (s.jobPut a o) := ⟨rfl, rfl, rfl⟩

@[simp] theorem State.stays_jobEnds (s : State) (w : Word) (status : Nat) : s.Stays (s.jobEnds w status) := ⟨rfl, rfl, rfl⟩

@[simp] theorem State.stays_dropStale (s : State) : s.Stays s.dropStale := by simp [State.dropStale]

@[simp] theorem State.stays_offer (s : State) (n : Nat) : s.Stays (s.offer n) := by
  induction n generalizing s with
  | zero => exact ⟨rfl, rfl, rfl⟩
  | succ n ih =>
    unfold State.offer
    repeat' split
    all_goals simp [ih]

@[simp] theorem State.stays_offerJobs (s : State) : s.Stays s.offerJobs := by simp [State.offerJobs]

@[simp] theorem State.stays_freshCtx (s : State) (c : Nat) (w : Word) (i : Nat) : s.Stays (s.freshCtx c w i) := by simp [State.freshCtx]

@[simp] theorem State.stays_bindCtx (s : State) (w : Word) (i : Nat) : s.Stays (s.bindCtx w i) := by
  unfold State.bindCtx
  split <;> simp

@[simp] theorem State.stays_slotFault (s : State) (w : Word) (i : Nat) : s.Stays (s.slotFault w i) := by simp [State.slotFault]

@[simp] theorem State.stays_postJob (s : State) (job : Word) (input : Octets) (parityOk : Bool) : s.Stays (s.postJob job input parityOk) := by
  have body : ∀ f, f = @State.postJob → s.Stays (f s job input parityOk) := by
    intro f hf
    delta State.postJob at hf
    subst hf
    beta_reduce
    extract_lets w n t refused
    have put : s.Stays t := by simp [t]
    clear_value t w
    have hrefused : s.Stays (refused t) := by
      unfold refused
      split <;> simp [put]
    split
    · exact hrefused
    · split
      · simp [put]
      · split
        · exact hrefused
        · split <;> simp [put]
  exact body _ rfl

@[simp] theorem State.stays_jobFault (s : State) (u : Nat) (j : CJob) : s.Stays (s.jobFault u j) := by simp [State.jobFault]

@[simp] theorem State.stays_endJob (s : State) (u : Nat) (fault : Bool) : s.Stays (s.endJob u fault) := by
  unfold State.endJob
  split <;> simp

end Sys2Proof.Machine

namespace Sys2Proof.Machine

/-! # Starts, memory, ports and power leave the queue, the identity and the clock -/

/-! ## Machine/Restore -/

@[simp] theorem State.stays_openMbox (s : State) (m world : Nat) (addr : BitVec 128) (port : BitVec 16) :
    s.Stays (s.openMbox m world addr port) := by simp [State.openMbox]

@[simp] theorem State.stays_freshWindow (s : State) (m : Nat) : s.Stays (s.freshWindow m) := ⟨rfl, rfl, rfl⟩

@[simp] theorem State.stays_useMboxKey (s : State) (m world : Nat) (key : List Nat) : s.Stays (s.useMboxKey m world key) := by
  simp [State.useMboxKey]

@[simp] theorem State.stays_openMboxes (s : State) : s.Stays s.openMboxes := by
  unfold State.openMboxes
  refine State.stays_foldl (fun s m => ?_) _ _
  dsimp only
  repeat' split
  all_goals simp

@[simp] theorem State.stays_openBare (s : State) : s.Stays s.openBare := by
  unfold State.openBare
  dsimp only
  repeat' split
  all_goals simp

@[simp] theorem State.stays_loadImageKeys (s : State) : s.Stays s.loadImageKeys := by
  unfold State.loadImageKeys
  refine State.stays_foldl (fun s r => ?_) _ _
  repeat' split
  all_goals simp

@[simp] theorem State.stays_loadKeptKeys (s : State) : s.Stays s.loadKeptKeys := by
  unfold State.loadKeptKeys
  exact State.stays_foldl (fun s p => by split <;> simp) _ _

@[simp] theorem State.stays_fixFallbacks (s : State) : s.Stays s.fixFallbacks := by simp [State.fixFallbacks]

@[simp] theorem State.stays_loadKeys (s : State) (same : Bool) : s.Stays (s.loadKeys same) := by simp [State.loadKeys]

@[simp] theorem State.stays_replaceAlmanac (s : State) : s.Stays s.replaceAlmanac := by
  unfold State.replaceAlmanac
  split <;> simp

@[simp] theorem State.stays_restoreDuty (s : State) (same clean : Bool) : s.Stays (s.restoreDuty same clean) := by simp [State.restoreDuty]

@[simp] theorem State.stays_adoptSeed (s : State) (seed : BitVec 64) (c : IdxCopy) : s.Stays (s.adoptSeed seed c) := by
  simp [State.adoptSeed]

@[simp] theorem State.stays_drawSeeds (n : Nat) (s : State) : s.Stays (State.drawSeeds n s).2 := by
  induction n generalizing s with
  | zero => exact ⟨rfl, rfl, rfl⟩
  | succ n ih => simp [State.drawSeeds, ih]

@[simp] theorem State.stays_reindex (s : State) (seed : BitVec 64) : s.Stays (s.reindex seed) := by
  unfold State.reindex
  dsimp only
  repeat' split
  · simp
  · simp
  · refine State.Stays.trans (State.Stays.trans ?_ (State.stays_foldl (fun s p => ?_) _ _)) (State.stays_raiseTableFull _ _)
    · simp
    · split <;> simp

@[simp] theorem State.stays_restoreNode (s : State) (i : Nat) (r : IdRec) : s.Stays (s.restoreNode i r) := by
  unfold State.restoreNode
  dsimp only
  repeat' split
  all_goals simp

@[simp] theorem State.stays_restoreTable (s : State) (same : Bool) : s.Stays (s.restoreTable same) := by simp [State.restoreTable]

@[simp] theorem State.stays_logClamp (s : State) (world subject old new : Nat) : s.Stays (s.logClamp world subject old new) := by
  simp [State.logClamp]

@[simp] theorem State.stays_restoreCentre (s : State) (keep : Option CanopyKeep) (f : Fe) : s.Stays (s.restoreCentre keep f) := by
  simp [State.restoreCentre]

@[simp] theorem State.stays_restoreGroups (s : State) (keep : Option CanopyKeep) : s.Stays (s.restoreGroups keep) := by
  simp [State.restoreGroups]

@[simp] theorem State.stays_restoreLanes (s : State) (keep : Option CanopyKeep) (same : Bool) : s.Stays (s.restoreLanes keep same) := by
  simp [State.restoreLanes]

@[simp] theorem State.stays_logGates (s : State) (keep : Option CanopyKeep) (f : Fe) (p : Octets) : s.Stays (s.logGates keep f p) := by
  unfold State.logGates
  exact State.stays_foldl (fun s i => by split <;> simp) _ _

@[simp] theorem State.stays_restoreGates (s : State) (keep : Option CanopyKeep) : s.Stays (s.restoreGates keep) := by
  unfold State.restoreGates
  exact State.stays_foldl (fun s f => by split <;> simp) _ _

@[simp] theorem State.stays_clampNode (s : State) (i : Nat) (n : Node) : s.Stays (s.clampNode i n) := by simp [State.clampNode]

@[simp] theorem State.stays_restoreCanopy (s : State) (same : Bool) : s.Stays (s.restoreCanopy same) := by
  unfold State.restoreCanopy
  dsimp only
  split <;> simp

/-! ## Machine/Start -/

@[simp] theorem State.stays_enterStump (s : State) (target : Nat) : s.Stays (s.enterStump target) := by simp [State.enterStump]

@[simp] theorem State.stays_raiseHeld (s : State) : s.Stays s.raiseHeld := by
  unfold State.raiseHeld
  extract_lets s₁ t _ s₂ s₃ _ s₄ _ s₅ _ s₆ _ s₇
  have h₁ : s.Stays s₁ := by unfold s₁; split <;> simp
  have h₂ : s₁.Stays s₂ := by simp [s₂, t]
  have h₃ : s₂.Stays s₃ := State.stays_foldl (fun s t => by split <;> simp) _ _
  have h₅ : s₄.Stays s₅ := by unfold s₅; split <;> simp
  have h₇ : s₅.Stays s₇ := by simp [s₇, s₆]
  clear_value s₁ s₂ s₃
  have h₄ : s₃.Stays s₄ := ⟨rfl, rfl, rfl⟩
  exact (h₁.trans (h₂.trans (h₃.trans (h₄.trans (h₅.trans h₇))))).trans (by simp)

@[simp] theorem State.stays_raisePowerLost (s : State) (sup : Option Super) : s.Stays (s.raisePowerLost sup) := by
  simp [State.raisePowerLost]

@[simp] theorem State.stays_openHw (s : State) : s.Stays s.openHw := by
  unfold State.openHw
  dsimp only
  repeat' split
  all_goals simp

@[simp] theorem State.stays_cfgRejected (s : State) (slot : Nat) (f : ImgFail) : s.Stays (s.cfgRejected slot f) := by
  simp [State.cfgRejected]

@[simp] theorem State.stays_tryCfg (s : State) (first : Nat) : s.Stays (s.tryCfg first).2 := by
  unfold State.tryCfg
  dsimp only
  repeat' split
  all_goals simp

@[simp] theorem State.stays_consumeFw (s : State) : s.Stays s.consumeFw := by
  unfold State.consumeFw
  split <;> simp

@[simp] theorem State.stays_consumeCfg (s : State) : s.Stays s.consumeCfg := by
  unfold State.consumeCfg
  split <;> simp

@[simp] theorem State.stays_countSkipped (s : State) (i : Image) : s.Stays (s.countSkipped i) := by simp [State.countSkipped]

@[simp] theorem State.stays_takeImage (s : State) (slot : Nat) (i : Image) (trial : Bool) : s.Stays (s.takeImage slot i trial) := by
  simp [State.takeImage]

@[simp] theorem State.stays_takeLocal (s : State) (same : Bool) : s.Stays (s.takeLocal same) := by simp [State.takeLocal]

@[simp] theorem State.stays_applyRecords (s : State) (same : Bool) : s.Stays (s.applyRecords same) := by simp [State.applyRecords]

@[simp] theorem State.stays_bringUp (s : State) : s.Stays s.bringUp := by simp [State.bringUp]

@[simp] theorem State.stays_bare (s : State) : s.Stays s.bare := by simp [State.bare]

@[simp] theorem State.stays_feUp (s : State) (e : StartEnv) (f : Fe) : s.Stays (s.feUp e f) := by simp [State.feUp]

@[simp] theorem State.stays_lanesUp (s : State) (kat : List Bool) : s.Stays (s.lanesUp kat) := by simp [State.lanesUp]

@[simp] theorem State.stays_raiseTraining (s : State) : s.Stays s.raiseTraining := by simp [State.raiseTraining]

@[simp] theorem State.stays_upRadio (s : State) (e : StartEnv) (same clean : Bool) (keep : Option CanopyKeep) :
    s.Stays (s.upRadio e same clean keep) := by simp [State.upRadio]

@[simp] theorem State.stays_startOperate (s : State) (e : StartEnv) (clean : Bool) : s.Stays (s.startOperate e clean) := by
  unfold State.startOperate
  dsimp only
  split <;> simp

@[simp] theorem State.stays_startRun (s : State) (e : StartEnv) (slot : Nat) (fallback dirBad : Bool) :
    s.Stays (s.startRun e slot fallback dirBad) := by
  unfold State.startRun
  dsimp only
  repeat' split
  all_goals simp

@[simp] theorem State.stays_startFlash (s : State) (e : StartEnv) : s.Stays (s.startFlash e) := by simp [State.startFlash]

@[simp] theorem State.stays_startCold (s : State) (e : StartEnv) : s.Stays (s.startCold e) := by simp [State.startCold]

@[simp] theorem State.stays_startPins (s : State) (e : StartEnv) : s.Stays (s.startPins e) := by simp [State.startPins]

@[simp] theorem State.stays_start (s : State) (e : StartEnv) : s.Stays (s.start e) := by simp [State.start]

@[simp] theorem State.stays_resetFall (s : State) : s.Stays s.resetFall := by
  unfold State.resetFall
  dsimp only
  split <;> simp

@[simp] theorem State.stays_feOn (s : State) (f : Fe) : s.Stays (s.feOn f) := by simp [State.feOn]

@[simp] theorem State.stays_goRadio (s : State) : s.Stays s.goRadio := by simp [State.goRadio]

/-! ## Machine/Memory -/

@[simp] theorem State.stays_reload (s : State) (i : Nat) : s.Stays (s.reload i) := by
  unfold State.reload
  repeat' split
  all_goals simp

@[simp] theorem State.stays_reclaim (s : State) (a n : Nat) (chain : List Nat) : s.Stays (s.reclaim a n chain) := by simp [State.reclaim]

@[simp] theorem State.stays_dramLost (s : State) : s.Stays s.dramLost := by simp [State.dramLost]

/-! ## Machine/Ports -/

@[simp] theorem State.stays_cellRequest (s : State) (p : Port) (h : EthHdr) : s.Stays (s.cellRequest p h) := by simp [State.cellRequest]

@[simp] theorem State.stays_commitEth (s : State) (p : Port) (f : EthFrame) (trailer : Bool) (arrival : Nat) :
    s.Stays (s.commitEth p f trailer arrival) := by simp [State.commitEth]

@[simp] theorem State.stays_judgeEth (s : State) (p : Port) (f : EthFrame) : s.Stays (s.judgeEth p f) := by
  unfold State.judgeEth
  repeat' split
  all_goals simp

@[simp] theorem State.stays_ethEnd (s : State) (p : Port) (f : EthFrame) : s.Stays (s.ethEnd p f) := by simp [State.ethEnd]

@[simp] theorem State.stays_oversize (s : State) (p : Port) : s.Stays (s.oversize p) := by simp [State.oversize]

@[simp] theorem State.stays_pauseEnds (s : State) (p : Port) : s.Stays (s.pauseEnds p) := by
  unfold State.pauseEnds
  split <;> simp

@[simp] theorem State.stays_pauseBreak (s : State) (p : Port) : s.Stays (s.pauseBreak p) := by simp [State.pauseBreak]

@[simp] theorem State.stays_supervision (s : State) : s.Stays s.supervision := by simp [State.supervision]

@[simp] theorem State.stays_linkUp (s : State) (p : Port) (bad : Bool) : s.Stays (s.linkUp p bad) := by
  unfold State.linkUp
  dsimp only
  split <;> simp

@[simp] theorem State.stays_portLost (s : State) (p : Port) : s.Stays (s.portLost p) := by simp [State.portLost]

@[simp] theorem State.stays_linkDown (s : State) (p : Port) : s.Stays (s.linkDown p) := by simp [State.linkDown]

@[simp] theorem State.stays_speedOutcome (s : State) (p : Port) (status : Nat) : s.Stays (s.speedOutcome p status) := by
  unfold State.speedOutcome
  exact State.stays_foldl (fun s m => by split <;> simp) _ _

@[simp] theorem State.stays_speedDone (s : State) (p : Port) : s.Stays (s.speedDone p) := by
  unfold State.speedDone
  dsimp only
  split <;> simp

@[simp] theorem State.stays_speedTimeout (s : State) (p : Port) : s.Stays (s.speedTimeout p) := by
  unfold State.speedTimeout
  dsimp only
  split <;> simp

@[simp] theorem State.stays_enterLpi (s : State) (p : Port) : s.Stays (s.enterLpi p) := by simp [State.enterLpi]

@[simp] theorem State.stays_backhaulSpeed (s : State) (m : Nat) (r : Request) : s.Stays (s.backhaulSpeed m r) := by
  simp [State.backhaulSpeed]

/-! ## Machine/Power -/

@[simp] theorem State.stays_haltLanes (s : State) : s.Stays s.haltLanes := by simp [State.haltLanes]

@[simp] theorem State.stays_writeTally (s : State) : s.Stays s.writeTally := by simp [State.writeTally]

@[simp] theorem State.stays_powerSequence (s : State) : s.Stays s.powerSequence := by simp [State.powerSequence]

@[simp] theorem State.stays_powerFail (s : State) (cause : FailCause) (holdUp supplyLost : Bool) :
    s.Stays (s.powerFail cause holdUp supplyLost) := by
  unfold State.powerFail
  dsimp only
  split <;> simp

@[simp] theorem State.stays_pfiHigh (s : State) (e : StartEnv) : s.Stays (s.pfiHigh e) := by
  unfold State.pfiHigh
  dsimp only
  split <;> simp

@[simp] theorem State.stays_aonReset (s : State) : s.Stays s.aonReset := ⟨rfl, rfl, rfl⟩

/-! ## Machine/RfTest -/

@[simp] theorem State.stays_clearAttempt (s : State) (f : Fe) : s.Stays (s.clearAttempt f) := by
  unfold State.clearAttempt
  dsimp only
  repeat' split
  all_goals simp

@[simp] theorem State.stays_rfTestStart (s : State) (m : Nat) (r : Request) : s.Stays (s.rfTestStart m r) := by
  unfold State.rfTestStart
  dsimp only
  split <;> simp

@[simp] theorem State.stays_leaveTest (s : State) (f : Fe) : s.Stays (s.leaveTest f) := by simp [State.leaveTest]

@[simp] theorem State.stays_rfTestStop (s : State) (m : Nat) (r : Request) : s.Stays (s.rfTestStop m r) := by
  unfold State.rfTestStop
  repeat' split
  all_goals simp

@[simp] theorem State.stays_testEnd (s : State) (f : Fe) : s.Stays (s.testEnd f) := by
  unfold State.testEnd
  split <;> simp

end Sys2Proof.Machine

namespace Sys2Proof.Machine

/-! # Faults, tests, the wake rows and the commands of the host leave the queue, the identity and the clock -/

/-! ## Machine/Faults -/

@[simp] theorem State.stays_takeDecoder (s : State) (c : Nat) : s.Stays (s.takeDecoder c) := ⟨rfl, rfl, rfl⟩

@[simp] theorem State.stays_dropHelec (s : State) : s.Stays s.dropHelec := by
  unfold State.dropHelec
  split
  · simp
  · refine State.stays_foldl (fun s l => ?_) _ _
    dsimp only
    split <;> simp

@[simp] theorem State.stays_decoderFault (s : State) (c cause : Nat) : s.Stays (s.decoderFault c cause) := by simp [State.decoderFault]

@[simp] theorem State.stays_cipherFault (s : State) (u : Nat) : s.Stays (s.cipherFault u) := by
  unfold State.cipherFault
  split <;> simp

@[simp] theorem State.stays_mcoreFault (s : State) (i cause : Nat) : s.Stays (s.mcoreFault i cause) := by simp [State.mcoreFault]

@[simp] theorem State.stays_serdesFault (s : State) (p : Port) (cause : Nat) : s.Stays (s.serdesFault p cause) := by
  simp [State.serdesFault]

@[simp] theorem State.stays_emptyQueue (s : State) (q : Nat) : s.Stays (s.emptyQueue q) := by simp [State.emptyQueue]

@[simp] theorem State.stays_lanesFault (s : State) (l : List Nat) : s.Stays (s.lanesFault l) := by simp [State.lanesFault]

@[simp] theorem State.stays_islandUnits (s : State) (i : Island) (cause : Nat) : s.Stays (s.islandUnits i cause) := by
  unfold State.islandUnits
  split <;> simp

@[simp] theorem State.stays_islandFault (s : State) (i : Island) (cause : Nat) : s.Stays (s.islandFault i cause) := by
  simp [State.islandFault]

@[simp] theorem State.stays_copyFault (s : State) (i : Island) : s.Stays (s.copyFault i) := by simp [State.copyFault]

@[simp] theorem State.stays_breach (s : State) (row who : Nat) : s.Stays (s.breach row who) := by simp [State.breach]

@[simp] theorem State.stays_markBlock (s : State) (cell : Nat) : s.Stays (s.markBlock cell) := by simp [State.markBlock]

@[simp] theorem State.stays_wordCorrected (s : State) (staging : Bool) (cell : Nat) : s.Stays (s.wordCorrected staging cell) := by
  simp [State.wordCorrected]

@[simp] theorem State.stays_dropPacket (s : State) (p : Packet) : s.Stays (s.dropPacket p) := by
  unfold State.dropPacket
  split <;> simp

@[simp] theorem State.stays_dropTaken (s : State) (f : Fe) (r : Retry) : s.Stays (s.dropTaken f r) := by
  simp [State.dropTaken]

theorem State.stays_readAt {s : State} {place : ReadAt} {r : Read} (h : s.readAt place = some r) : s.Stays r.after := by
  unfold State.readAt at h
  split at h
  · rename_i q f
    split at h
    · rename_i p t ht
      cases h
      have g := s.stays_take (orderKey q (feCode f))
      rw [ht] at g
      exact State.Stays.trans g (State.stays_dropPacket _ _)
    · cases h
  · obtain ⟨q, -, rfl⟩ := Option.map_eq_some_iff.1 h
    simp
  · repeat' split at h
    all_goals cases h
    simp
  · split at h
    · cases h
      simp
    · cases h
  · dsimp only at h
    split at h
    · cases h
    · cases h
      simp

@[simp] theorem State.stays_wordLost (s : State) (place : ReadAt) (staging late : Bool) (pos : Nat) :
    s.Stays (s.wordLost place staging late pos) := by
  unfold State.wordLost
  split
  · simp
  · rename_i r hr
    dsimp only
    repeat' split
    all_goals simp [State.stays_readAt hr]

@[simp] theorem State.stays_unitFault (s : State) (u : FaultUnit) : s.Stays (s.unitFault u) := by
  unfold State.unitFault
  repeat' split
  all_goals simp

@[simp] theorem State.stays_abandonTag (s : State) (h : TagHolder) : s.Stays (s.abandonTag h) := by
  unfold State.abandonTag
  repeat' split
  all_goals simp

@[simp] theorem State.stays_holderFault (s : State) (h : TagHolder) : s.Stays (s.holderFault h) := by
  cases h <;> simp [State.holderFault]

@[simp] theorem State.stays_reclaimTag (s : State) (h : TagHolder) : s.Stays (s.reclaimTag h) := by simp [State.reclaimTag]

@[simp] theorem State.stays_tellStep (s : State) (k dir : Nat) : s.Stays (s.tellStep k dir) := by simp [State.tellStep]

@[simp] theorem State.stays_enterStep1 (s : State) : s.Stays s.enterStep1 := by simp [State.enterStep1]

@[simp] theorem State.stays_leaveStep1 (s : State) : s.Stays s.leaveStep1 := by simp [State.leaveStep1]

@[simp] theorem State.stays_gateUnit (s : State) (u : Nat) : s.Stays (s.gateUnit u) := by simp [State.gateUnit]

@[simp] theorem State.stays_enterStep2 (s : State) : s.Stays s.enterStep2 := by simp [State.enterStep2]

@[simp] theorem State.stays_leaveStep2 (s : State) (unitOk : List Bool) : s.Stays (s.leaveStep2 unitOk) := by simp [State.leaveStep2]

@[simp] theorem State.stays_enterStep4 (s : State) : s.Stays s.enterStep4 := by simp [State.enterStep4]

@[simp] theorem State.stays_enterStep (s : State) (k : Nat) : s.Stays (s.enterStep k) := by
  unfold State.enterStep
  repeat' split
  all_goals simp

@[simp] theorem State.stays_enterSteps (s : State) : s.Stays s.enterSteps := by simp [State.enterSteps]

@[simp] theorem State.stays_cool (s : State) : s.Stays s.cool := by simp [State.cool]

@[simp] theorem State.stays_leaveSteps (s : State) (unitOk : List Bool) : s.Stays (s.leaveSteps unitOk) := by simp [State.leaveSteps]

@[simp] theorem State.stays_thermal (s : State) (tj : Int) (e : StartEnv) : s.Stays (s.thermal tj e) := by
  unfold State.thermal
  dsimp only
  split <;> simp

/-! ## Machine/Lifecycle -/

@[simp] theorem State.stays_attest (s : State) (m : Nat) (r : Request) : s.Stays (s.attest m r) := by simp [State.attest]

@[simp] theorem State.stays_selftestRun (s : State) (m : Nat) (r : Request) (e : TestEnv) : s.Stays (s.selftestRun m r e) := by
  simp [State.selftestRun]

@[simp] theorem State.stays_periodicTest (s : State) (e : TestEnv) : s.Stays (s.periodicTest e) := by
  unfold State.periodicTest
  repeat' split
  all_goals simp

@[simp] theorem State.stays_reseed (s : State) (first second : Bool) : s.Stays (s.reseed first second) := by simp [State.reseed]

@[simp] theorem State.stays_cfgKeyInstall (s : State) (m : Nat) (r : Request) : s.Stays (s.cfgKeyInstall m r) := by
  unfold State.cfgKeyInstall
  repeat' split
  all_goals simp

@[simp] theorem State.stays_serveInstalled (s : State) (k : Nat) (key : List Nat) : s.Stays (s.serveInstalled k key) := by
  simp [State.serveInstalled]

@[simp] theorem State.stays_mboxKeyInstall (s : State) (m : Nat) (r : Request) : s.Stays (s.mboxKeyInstall m r) := by
  unfold State.mboxKeyInstall
  repeat' split
  all_goals simp

@[simp] theorem State.stays_lifecycleOperate (s : State) (m : Nat) (r : Request) : s.Stays (s.lifecycleOperate m r) := by
  simp [State.lifecycleOperate]

@[simp] theorem State.stays_zeroiseAll (s : State) (m : Nat) (r : Request) : s.Stays (s.zeroiseAll m r) := by
  unfold State.zeroiseAll
  extract_lets t
  have aborted : s.Stays t := State.stays_foldl (fun s k => by split <;> simp) _ s
  simp [aborted]

@[simp] theorem State.stays_restartCmd (s : State) (m : Nat) (r : Request) : s.Stays (s.restartCmd m r) := by
  unfold State.restartCmd
  dsimp only
  split <;> simp

@[simp] theorem State.stays_zeroiseLow (s : State) : s.Stays s.zeroiseLow := by
  unfold State.zeroiseLow
  dsimp only
  split <;> simp

@[simp] theorem State.stays_zeroLast (s : State) (e : StartEnv) : s.Stays (s.zeroLast e) := by
  unfold State.zeroLast
  split <;> simp

@[simp] theorem State.stays_zeroisationEnd (s : State) (e : StartEnv) : s.Stays (s.zeroisationEnd e) := by simp [State.zeroisationEnd]

@[simp] theorem State.stays_zeroiseHigh (s : State) (e : StartEnv) : s.Stays (s.zeroiseHigh e) := by simp [State.zeroiseHigh]

@[simp] theorem State.stays_trip (s : State) (k : Nat) : s.Stays (s.trip k) := ⟨rfl, rfl, rfl⟩

@[simp] theorem State.stays_tripA (s : State) (k : Nat) : s.Stays (s.tripA k) := by
  unfold State.tripA
  split <;> simp

@[simp] theorem State.stays_tripB (s : State) (k : Nat) (e : StartEnv) : s.Stays (s.tripB k e) := by
  unfold State.tripB
  split <;> simp

@[simp] theorem State.stays_jtag (s : State) (i : JtagInstr) : s.Stays (s.jtag i) := by
  unfold State.jtag
  dsimp only
  repeat' split
  all_goals simp

@[simp] theorem State.stays_testLogicReset (s : State) (e : StartEnv) : s.Stays (s.testLogicReset e) := by simp [State.testLogicReset]

/-! ## Machine/TimeStep -/

@[simp] theorem State.stays_stepGates (s : State) (f : Fe) (old new : Nat) : s.Stays (s.stepGates f old new) := by
  unfold State.stepGates
  dsimp only
  split <;> simp

@[simp] theorem State.stays_closeWindow (s : State) (sec : Nat) : s.Stays (s.closeWindow sec) := ⟨rfl, rfl, rfl⟩

@[simp] theorem State.stays_moveTime (s : State) (d : Int) : s.Stays (s.moveTime d) := by simp [State.moveTime]

@[simp] theorem State.stays_rebound (s : State) (f : Fe) : s.Stays (s.rebound f) := by
  unfold State.rebound
  split <;> simp

@[simp] theorem State.stays_timeStep (s : State) : s.Stays s.timeStep := by
  unfold State.timeStep
  split <;> simp

/-! ## Machine/Wake -/

@[simp] theorem State.stays_entryOpen (s : State) (f : Fe) : s.Stays (s.entryOpen f) := by
  unfold State.entryOpen
  dsimp only
  repeat' split
  all_goals simp

@[simp] theorem State.stays_changeover (s : State) (f : Fe) : s.Stays (s.changeover f) := by
  unfold State.changeover
  dsimp only
  split <;> simp

@[simp] theorem State.stays_releaseFlow (s : State) (i : Nat) : s.Stays (s.releaseFlow i) := by
  unfold State.releaseFlow
  dsimp only
  repeat' split
  all_goals simp

@[simp] theorem State.stays_calendarSlot (s : State) : s.Stays s.calendarSlot := by simp [State.calendarSlot]

@[simp] theorem State.stays_farListMove (s : State) : s.Stays s.farListMove := by simp [State.farListMove]

@[simp] theorem State.stays_sample (s : State) : s.Stays s.sample := by simp [State.sample]

@[simp] theorem State.stays_expireDown (s : State) (k : Nat) (n : Nat) : s.Stays (s.expireDown k n) := by
  induction n generalizing s with
  | zero => exact ⟨rfl, rfl, rfl⟩
  | succ n ih =>
    unfold State.expireDown
    repeat' split
    all_goals simp [ih]

@[simp] theorem State.stays_queueSample (s : State) : s.Stays s.queueSample := by simp [State.queueSample]

/-! ## Machine/Mailboxes -/

@[simp] theorem State.stays_datagram (s : State) (m : Nat) (d : Datagram) : s.Stays (s.datagram m d) := by
  unfold State.datagram
  repeat' split
  case h_1 t ht => simp [State.stays_grant ht]
  all_goals simp

@[simp] theorem State.stays_releaseHeld (s : State) : s.Stays s.releaseHeld := by simp [State.releaseHeld]

@[simp] theorem State.stays_m0Write (s : State) (length : Nat) (o : Octets) : s.Stays (s.m0Write length o) := by simp [State.m0Write]

@[simp] theorem State.stays_delivered (s : State) (m : Nat) (l : List (BitVec 32)) : s.Stays (s.delivered m l) := by simp [State.delivered]

@[simp] theorem State.stays_m0Read (s : State) (wholly : Bool) : s.Stays (s.m0Read wholly) := by
  unfold State.m0Read
  repeat' split
  all_goals simp

@[simp] theorem State.stays_sendNew (s : State) (m : Nat) : s.Stays (s.sendNew m) := by simp [State.sendNew]

@[simp] theorem State.stays_sendAgain (s : State) (m : Nat) : s.Stays (s.sendAgain m) := by simp [State.sendAgain]

@[simp] theorem State.stays_eventAck (s : State) (m : Nat) (r : Request) : s.Stays (s.eventAck m r) := by simp [State.eventAck]

@[simp] theorem State.stays_tallySnapshot (s : State) (m : Nat) (r : Request) : s.Stays (s.tallySnapshot m r) := by
  simp [State.tallySnapshot]

@[simp] theorem State.stays_tallyRead (s : State) (m : Nat) (r : Request) : s.Stays (s.tallyRead m r) := by
  unfold State.tallyRead
  split <;> simp

@[simp] theorem State.stays_qstatsRead (s : State) (m : Nat) (r : Request) : s.Stays (s.qstatsRead m r) := by simp [State.qstatsRead]

/-! ## Machine/NodeCmds -/

@[simp] theorem State.stays_nodeSearch (s : State) (m : Nat) (r : Request) : s.Stays (s.nodeSearch m r) := by
  unfold State.nodeSearch
  split <;> simp

@[simp] theorem State.stays_nodeNext (s : State) (m : Nat) (r : Request) : s.Stays (s.nodeNext m r) := by simp [State.nodeNext]

@[simp] theorem State.stays_nodeRemove (s : State) (m : Nat) (r : Request) : s.Stays (s.nodeRemove m r) := by
  unfold State.nodeRemove
  split <;> simp

@[simp] theorem State.stays_advanceEpoch (s : State) (w : Nat) : s.Stays (s.advanceEpoch w) := by simp [State.advanceEpoch]

@[simp] theorem State.stays_tableFlush (s : State) (m : Nat) (r : Request) : s.Stays (s.tableFlush m r) := by simp [State.tableFlush]

@[simp] theorem State.stays_flushEnd (s : State) (w : Nat) : s.Stays (s.flushEnd w) := by simp [State.flushEnd]

@[simp] theorem State.stays_rehashBegin (s : State) (m : Nat) (r : Request) : s.Stays (s.rehashBegin m r) := by
  unfold State.rehashBegin
  dsimp only
  split <;> simp

@[simp] theorem State.stays_rehashEnd (s : State) (seed : BitVec 64) : s.Stays (s.rehashEnd seed).2.2 := by
  unfold State.rehashEnd
  dsimp only
  split <;> simp

@[simp] theorem State.stays_linkGet (s : State) (m : Nat) (r : Request) : s.Stays (s.linkGet m r) := by
  unfold State.linkGet
  split <;> simp

/-! ## Machine/Update -/

@[simp] theorem State.stays_staleCfg (s : State) (i : Nat) : s.Stays (s.staleCfg i) := by simp [State.staleCfg]

@[simp] theorem State.stays_staleFw (s : State) (i : Nat) : s.Stays (s.staleFw i) := ⟨rfl, rfl, rfl⟩

@[simp] theorem State.stays_cfgSlotWrite (s : State) (m : Nat) (r : Request) (late : Bool) : s.Stays (s.cfgSlotWrite m r late) := by
  simp [State.cfgSlotWrite]

@[simp] theorem State.stays_stumpAgain (s : State) (t : StumpSt) : s.Stays (s.stumpAgain t) := ⟨rfl, rfl, rfl⟩

@[simp] theorem State.stays_stumpBody (s : State) (m : Nat) (r : Request) (t : StumpSt) (off : Nat) (data : Octets) :
    s.Stays (s.stumpBody m r t off data) := by
  unfold State.stumpBody
  dsimp only
  repeat' split
  all_goals simp

@[simp] theorem State.stays_stumpWrite (s : State) (m : Nat) (r : Request) (t : StumpSt) (late : Bool) : s.Stays (s.stumpWrite m r t late) := by
  simp [State.stumpWrite]

@[simp] theorem State.stays_fwSlotWrite (s : State) (m : Nat) (r : Request) (late : Bool) : s.Stays (s.fwSlotWrite m r late) := by
  unfold State.fwSlotWrite
  split <;> simp

@[simp] theorem State.stays_cfgCheck (s : State) (m : Nat) (r : Request) : s.Stays (s.cfgCheck m r) := by
  unfold State.cfgCheck
  dsimp only
  repeat' split
  all_goals simp

@[simp] theorem State.stays_fwCheck (s : State) (m : Nat) (r : Request) : s.Stays (s.fwCheck m r) := by simp [State.fwCheck]

@[simp] theorem State.stays_pauseIn (s : State) (n : Nat) : s.Stays (s.pauseIn n) := by simp [State.pauseIn]

@[simp] theorem State.stays_fwActivate (s : State) (m : Nat) (r : Request) (late : Bool) (prep : Nat) : s.Stays (s.fwActivate m r late prep) := by
  simp [State.fwActivate]

@[simp] theorem State.stays_fwSwitched (s : State) (i start : Nat) : s.Stays (s.fwSwitched i start) := by simp [State.fwSwitched]

@[simp] theorem State.stays_dropWorldKeys (s : State) (new : Image) : s.Stays (s.dropWorldKeys new) := by simp [State.dropWorldKeys]

@[simp] theorem State.stays_shadowGates (s : State) (keep : CanopyKeep) : s.Stays (s.shadowGates keep) := by
  unfold State.shadowGates
  exact State.stays_foldl (fun s f => by split <;> simp) _ _

@[simp] theorem State.stays_clampCentre (s : State) (f : Fe) : s.Stays (s.clampCentre f) := by simp [State.clampCentre]

@[simp] theorem State.stays_dropPins (s : State) : s.Stays s.dropPins := by simp [State.dropPins]

@[simp] theorem State.stays_clampCredits (s : State) : s.Stays s.clampCredits := by simp [State.clampCredits]

@[simp] theorem State.stays_applyHitless (s : State) (slot : Nat) (new : Image) : s.Stays (s.applyHitless slot new) := by
  simp [State.applyHitless]

@[simp] theorem State.stays_cfgActivate (s : State) (m : Nat) (r : Request) (late : Bool) : s.Stays (s.cfgActivate m r late) := by
  unfold State.cfgActivate
  dsimp only
  repeat' split
  all_goals simp

@[simp] theorem State.stays_cfgSwitched (s : State) : s.Stays s.cfgSwitched := by
  unfold State.cfgSwitched
  split <;> simp

@[simp] theorem State.stays_cfgConfirm (s : State) (m : Nat) (r : Request) (late : Bool) : s.Stays (s.cfgConfirm m r late) := by
  unfold State.cfgConfirm
  split <;> simp

@[simp] theorem State.stays_fwConfirm (s : State) (m : Nat) (r : Request) (late : Bool) : s.Stays (s.fwConfirm m r late) := by
  unfold State.fwConfirm
  split <;> simp

/-! ## Machine/Final -/

@[simp] theorem State.stays_resume (s : State) : s.Stays s.resume := by simp [State.resume]

@[simp] theorem State.stays_endActivation (s : State) (m : Nat) (b : Busy) (start : Nat) (handOffOk : Bool) :
    s.Stays (s.endActivation m b start handOffOk) := by simp [State.endActivation]

@[simp] theorem State.stays_outcome (s : State) (b : Busy) : s.Stays (s.outcome b).2.2 := by
  unfold State.outcome
  repeat' split
  all_goals simp

@[simp] theorem State.stays_finalResponse (s : State) (m : Nat) (handOffOk : Bool) : s.Stays (s.finalResponse m handOffOk) := by
  unfold State.finalResponse
  repeat' split
  all_goals simp

/-! ## Machine/KeyCmds -/

@[simp] theorem State.stays_keepKey (s : State) (i f : Nat) : s.Stays (s.keepKey i f) := by simp [State.keepKey]

@[simp] theorem State.stays_takeKey (s : State) (i usage f : Nat) (keyId : BitVec 64) (key : List Nat) :
    s.Stays (s.takeKey i usage f keyId key) := by simp [State.takeKey]

@[simp] theorem State.stays_keyLoad (s : State) (m : Nat) (r : Request) : s.Stays (s.keyLoad m r) := by
  unfold State.keyLoad
  dsimp only
  repeat' split
  all_goals simp

@[simp] theorem State.stays_dropKey (s : State) (i : Nat) : s.Stays (s.dropKey i) := ⟨rfl, rfl, rfl⟩

@[simp] theorem State.stays_keyErase (s : State) (m : Nat) (r : Request) : s.Stays (s.keyErase m r) := by
  unfold State.keyErase
  dsimp only
  split <;> simp

@[simp] theorem State.stays_endApproved (s : State) : s.Stays s.endApproved := ⟨rfl, rfl, rfl⟩

@[simp] theorem State.stays_ctxSave (s : State) (m : Nat) (r : Request) : s.Stays (s.ctxSave m r) := by
  unfold State.ctxSave
  split <;> simp

@[simp] theorem State.stays_ctxRestore (s : State) (m : Nat) (r : Request) : s.Stays (s.ctxRestore m r) := by
  unfold State.ctxRestore
  dsimp only
  repeat' split
  all_goals simp

end Sys2Proof.Machine

namespace Sys2Proof.Machine

/-! # What the Almanac writes (R199 to R201) -/

/-- A state without the parts that the Almanac may write. -/
def State.sansAlm (s : State) : State :=
  { s with
    time := { s.time with almPrev := none, almHeld := [] }, rtc := { s.rtc with offset := 0, summer := false }, hw := { s.hw with almanac := [] }
    dirty := [], tally := [], early := [], mbox := [], queues := { reasm := s.queues.reasm } }

/-- What writes Tally, the mailboxes, the events held and the queues, reassembly apart. -/
theorem State.sansAlm_congr {s t : State} (h : t.sansMail.sansQueues = s.sansMail.sansQueues) (hr : t.queues.reasm = s.queues.reasm) :
    t.sansAlm = s.sansAlm := by
  have e := congrArg State.sansAlm h
  simp only [State.sansMail, State.sansQueues, State.sansAlm, State.mk.injEq] at e ⊢
  simp only [hr, e, and_self]

@[simp] theorem State.sansAlm_raise (s : State) (code : Nat) (w : Option Nat) (o : Octets) : (s.raise code w o).sansAlm = s.sansAlm :=
  (congrArg State.sansAlm (s.sansMail_raise code w o) :)

@[simp] theorem State.sansAlm_count (s : State) (c : Ctr) (x : Scope) : (s.count c x).sansAlm = s.sansAlm := rfl

@[simp] theorem State.sansAlm_setAlm (s : State) (k : Nat) (e : AlmEntry) : (s.setAlm k e).sansAlm = s.sansAlm := rfl

@[simp] theorem State.sansAlm_touch (s : State) (d : HwDirty) : (s.touch d).sansAlm = s.sansAlm := by
  rw [(s.touch_eq d).1]
  rfl

@[simp] theorem State.reasm_commitTo (s : State) (k acct cells : Nat) (c : Content) (keep : List Nat) :
    (s.commitTo k acct cells c keep).queues.reasm = s.queues.reasm := by
  unfold State.commitTo State.unstage
  dsimp only [State.setOrder, State.spill]
  repeat' split
  all_goals rfl

theorem State.sansAlm_post {s t : State} {q f w n : Nat} {c : Content} {keep : List Nat} (h : s.post q f w n c keep = some t) :
    t.sansAlm = s.sansAlm := by
  refine State.sansAlm_congr (congrArg State.sansMail (State.sansQueues_post h) :) ?_
  unfold State.post at h
  dsimp only at h
  split at h
  · cases h
  · split at h
    · cases h
    · next u hu =>
      cases h
      rw [State.reasm_commitTo, (State.grant_some hu).1]

@[simp] theorem State.sansAlm_almMiss (s : State) (k : Nat) (e : AlmEntry) (u : Int) : (s.almMiss k e u).sansAlm = s.sansAlm := by
  unfold State.almMiss
  dsimp only
  split <;> simp

@[simp] theorem State.sansAlm_almScan (s : State) (basis : Nat) (cPrev oPrev cNow oNow : Int) :
    (s.almScan basis cPrev oPrev cNow oNow).2.sansAlm = s.sansAlm := by
  unfold State.almScan
  refine foldl_keeps _ (fun r : List Due × State => r.2.sansAlm) (fun r p => ?_) _ ([], s)
  dsimp only
  repeat' split
  all_goals simp

@[simp] theorem State.sansAlm_almAct (s : State) (add : Bool) : (s.almAct add).sansAlm = s.sansAlm := by
  unfold State.almAct
  split <;> rfl

@[simp] theorem State.sansAlm_almFire (s : State) (now : Int) (d : Due) : (s.almFire now d).sansAlm = s.sansAlm := by
  have fired : ∀ k (e : AlmEntry) c x,
      (if d.u < now then ((s.setAlm k e).count c x).count .almanacCaughtUp x else (s.setAlm k e).count c x).sansAlm = s.sansAlm :=
    fun k e c x => by split <;> simp
  unfold State.almFire
  dsimp only
  split
  · split
    · next t ht => exact (State.sansAlm_post ht).trans (fired _ _ _ _)
    · exact fired _ _ _ _
  · exact (State.sansAlm_almAct _ _).trans (fired _ _ _ _)
  · exact (State.sansAlm_almAct _ _).trans (fired _ _ _ _)

@[simp] theorem State.sansAlm_almEvaluate (s : State) (count : BitVec 48) : (s.almEvaluate count).sansAlm = s.sansAlm := by
  unfold State.almEvaluate
  extract_lets cNow o0 prev u s₁ o1 l s₂
  have first : s₁.sansAlm = s.sansAlm := (foldl_keeps _ State.sansAlm (fun t d => t.sansAlm_almFire _ d) _ _).trans (s.sansAlm_almScan _ _ _ _ _)
  have second : s₂.sansAlm = s₁.sansAlm :=
    (foldl_keeps _ State.sansAlm (fun t d => t.sansAlm_almFire _ d) _ _).trans (s₁.sansAlm_almScan _ _ _ _ _)
  rw [State.sansAlm_touch]
  exact second.trans first

@[simp] theorem State.sansAlm_almanac (s : State) : s.almanac.sansAlm = s.sansAlm := by
  unfold State.almanac
  repeat' split
  · rfl
  · rfl
  · exact s.sansAlm_almEvaluate _

/-! # What the passage of time writes of itself (R187, R189, R199, R402) -/

/-- A state without the clock and the parts that the passage of time may write. -/
def State.sansTick (s : State) : State :=
  { s with
    clk := 0, time := {}, rtc := {}, hw := { s.hw with almanac := [] }, dirty := [], tally := [], early := [], mbox := []
    queues := { reasm := s.queues.reasm }, back := {} }

/-- What writes only as the Almanac may. -/
theorem State.sansTick_of_sansAlm {s t : State} (h : t.sansAlm = s.sansAlm) : t.sansTick = s.sansTick := (congrArg State.sansTick h :)

@[simp] theorem State.sansTick_raise (s : State) (code : Nat) (w : Option Nat) (o : Octets) : (s.raise code w o).sansTick = s.sansTick :=
  State.sansTick_of_sansAlm (s.sansAlm_raise code w o)

@[simp] theorem State.sansTick_almanac (s : State) : s.almanac.sansTick = s.sansTick := State.sansTick_of_sansAlm s.sansAlm_almanac

@[simp] theorem State.sansTick_count (s : State) (c : Ctr) (x : Scope) : (s.count c x).sansTick = s.sansTick := rfl

@[simp] theorem State.sansTick_setRtc (s : State) (r : Rtc) : (s.setRtc r).sansTick = s.sansTick := rfl

@[simp] theorem State.sansTick_advance (s : State) (n : Nat) : (s.advance n).sansTick = s.sansTick := rfl

@[simp] theorem State.sansTick_setPort (s : State) (p : Port) (x : PortSt) : (s.setPort p x).sansTick = s.sansTick := rfl

@[simp] theorem State.sansTick_releaseChain (s : State) (a n : Nat) (l : List Nat) : (s.releaseChain a n l).sansTick = s.sansTick :=
  State.sansTick_of_sansAlm (State.sansAlm_congr (s.releaseChain_frame a n l).2.2 (s.reasm_releaseChain a n l))

/-! ## Writes of the RTC, and the ports -/

@[simp] theorem State.sansTick_trust (s : State) : s.trust.sansTick = s.sansTick := by
  unfold State.trust
  dsimp only
  split <;> simp

@[simp] theorem State.sansTick_writeRtc (s : State) (sec : BitVec 48) (ago : Nat) : (s.writeRtc sec ago).sansTick = s.sansTick := by
  simp [State.writeRtc]

@[simp] theorem State.sansTick_settleRtc (s : State) : s.settleRtc.sansTick = s.sansTick := by
  unfold State.settleRtc
  dsimp only
  repeat' split
  all_goals simp

@[simp] theorem State.sansTick_runPort (s : State) (p : Port) (n : Nat) : (s.runPort p n).sansTick = s.sansTick := by
  induction n generalizing s with
  | zero => rfl
  | succ n ih =>
    unfold State.runPort
    dsimp only
    split
    · rfl
    · split
      · split
        · exact ih _
        · rfl
      · repeat' split
        all_goals try rw [ih]
        all_goals rfl

@[simp] theorem State.sansTick_closeSends (s : State) : s.closeSends.sansTick = s.sansTick := by
  unfold State.closeSends
  exact foldl_keeps _ State.sansTick (fun s x => by split <;> simp) _ _

@[simp] theorem State.sansTick_runPorts (s : State) : s.runPorts.sansTick = s.sansTick := by
  unfold State.runPorts
  split <;> simp

/-- The passage of time writes what `sansTick` leaves out, and nothing else. -/
theorem State.sansTick_tick (s : State) (n : Nat) : (s.tick n).sansTick = s.sansTick := by
  simp [State.tick]

/-! ## Parts of the state -/

theorem Heart.heart_same {h k : Heart} (e : { k with almanac := [] } = { h with almanac := [] }) : k = { h with
    zeroCount := k.zeroCount, zeroFlag := k.zeroFlag, floor := k.floor, rollback := k.rollback, fc := k.fc, groupCell := k.groupCell
    joinCeil := k.joinCeil, seqCeil := k.seqCeil, kcfg := k.kcfg, mboxKeys := k.mboxKeys, lastKeys := k.lastKeys, worldKeys := k.worldKeys
    almanac := k.almanac } := by
  cases h
  cases k
  simp only [Heart.mk.injEq] at e ⊢
  simp only [e, and_self]

/-- States that agree without what the passage of time writes agree in every other part. -/
theorem Comp.same_of_sansTick {s u : State} (h : u.sansTick = s.sansTick) {p : Comp} (hp : p ∉ tickWrites) : p.same s u := by
  have life : u.life = s.life := (congrArg State.life h :)
  have crypto : u.crypto = s.crypto := (congrArg State.crypto h :)
  have table : u.table = s.table := (congrArg State.table h :)
  have hw : ({ u.hw with almanac := [] } : Heart) = { s.hw with almanac := [] } := (congrArg State.hw h :)
  cases p
  case time | rtc | almanac | dirty | tally | early | mbox | cells | orders | queues | back => simp [tickWrites] at hp
  case lcs | life => simp [Comp.same, life]
  case slots | crypto => simp [Comp.same, crypto]
  case nodes | table => simp [Comp.same, table]
  case marks =>
    exact ⟨(congrArg Heart.zeroCount hw :), (congrArg Heart.zeroFlag hw :), (congrArg Heart.floor hw :), (congrArg Heart.rollback hw :)⟩
  case ceilings =>
    exact ⟨(congrArg Heart.fc hw :), (congrArg Heart.groupCell hw :), (congrArg Heart.joinCeil hw :), (congrArg Heart.seqCeil hw :)⟩
  case storedKeys =>
    exact ⟨(congrArg Heart.kcfg hw :), (congrArg Heart.mboxKeys hw :), (congrArg Heart.lastKeys hw :), (congrArg Heart.worldKeys hw :)⟩
  case heart => exact Heart.heart_same hw
  case rnd => exact (congrArg State.rnd h :)
  case pins => exact (congrArg State.pins h :)
  case flash => exact (congrArg State.flash h :)
  case held => exact (congrArg State.held h :)
  case m0Out => exact (congrArg State.m0Out h :)
  case reasm => exact (congrArg (fun s => s.queues.reasm) h :)
  case parting => exact (congrArg State.parting h :)
  case fe => exact (congrArg State.fe h :)
  case lanes => exact (congrArg State.lanes h :)
  case domA => exact (congrArg State.domA h :)
  case domB => exact (congrArg State.domB h :)
  case dec => exact (congrArg State.dec h :)
  case mac => exact (congrArg State.mac h :)
  case wake => exact (congrArg State.wake h :)
  case canopy => exact (congrArg State.canopy h :)
  case isl => exact (congrArg State.isl h :)

end Sys2Proof.Machine

namespace Sys2Proof.Machine

/-! # Every command leaves the queue, the identity and the clock, and O52 -/

/-- The passage of time moves the clock, and leaves queue and identity. -/
theorem State.stays_tick (s : State) (n : Nat) : (s.advance n).Stays (s.tick n) := by
  simp [State.tick]

/-- Once the ticks before it have passed, a command leaves all three. -/
theorem exec_stays {c : Instr} {s u : State} (h : exec c s = .next u) : (s.tick (ticksOf c)).Stays u := by
  cases c <;> cases h
  case almanacRemove =>
    refine State.stays_shortCmd _ _ _ _ fun t r => ?_
    dsimp only
    repeat' split
    all_goals simp
  case canopyFreeze | canopyThaw =>
    refine State.stays_shortCmd _ _ _ _ fun t r => ?_
    repeat' split
    all_goals simp
  all_goals simp [ticksOf]

/-- Settles O52: command by command that nothing but time moves the clock, and that time writes nothing beyond `tickWrites`. -/
theorem queueIdentityAndClock : Obligations.QueueIdentityAndClock := by
  unfold Obligations.QueueIdentityAndClock
  refine ⟨fun c s u h => ?_, fun s n => ?_⟩
  · obtain ⟨hqueue, hid, hclk⟩ := (s.stays_tick (ticksOf c)).trans (exec_stays h)
    exact ⟨hqueue, hid, hclk⟩
  · obtain ⟨hqueue, hid, hclk⟩ := s.stays_tick n
    exact ⟨hclk, hid, hqueue, fun p hp => Comp.same_of_sansTick (s.sansTick_tick n) hp⟩

end Sys2Proof.Machine

namespace Sys2Proof.Machine

/-! # The master counter (R174), and O35 -/

/-! ## The counter as one number -/

/-- Network time in units of 2^−32 ns. -/
def Time.total (t : Time) : Nat := t.toNs * 4294967296 + t.frac.toNat

/-- Whole seconds of so many such units. -/
def wholeSecs (n : Nat) : Nat := n / (1000000000 * 4294967296)

theorem wholeSecs_eq (n : Nat) : wholeSecs n = n / 4294967296 / 1000000000 := by
  unfold wholeSecs
  omega

/-- The time with another count. -/
def Time.withCounter (t : Time) (sec : BitVec 64) (ns : BitVec 30) (frac : BitVec 32) (since : Option Nat) : Time :=
  { t with sec := sec, ns := ns, frac := frac, sincePass := since }

section
variable (t : Time) (sec : BitVec 64) (ns : BitVec 30) (frac : BitVec 32) (since : Option Nat)

@[simp] theorem Time.withCounter_sec : (t.withCounter sec ns frac since).sec = sec := rfl
@[simp] theorem Time.withCounter_ns : (t.withCounter sec ns frac since).ns = ns := rfl
@[simp] theorem Time.withCounter_frac : (t.withCounter sec ns frac since).frac = frac := rfl
@[simp] theorem Time.withCounter_sincePass : (t.withCounter sec ns frac since).sincePass = since := rfl
@[simp] theorem Time.withCounter_incNs : (t.withCounter sec ns frac since).incNs = t.incNs := rfl
@[simp] theorem Time.withCounter_incFrac : (t.withCounter sec ns frac since).incFrac = t.incFrac := rfl
@[simp] theorem Time.withCounter_inc : (t.withCounter sec ns frac since).inc = t.inc := rfl
@[simp] theorem Time.withCounter_withCounter (sec' : BitVec 64) (ns' : BitVec 30) (frac' : BitVec 32) (since' : Option Nat) :
    (t.withCounter sec' ns' frac' since').withCounter sec ns frac since = t.withCounter sec ns frac since := rfl

end

/-- `n` ticks move the count by `n` increments; a passage of ns through 0 is told with the ticks since. -/
theorem Time.run_eq (t : Time) (n : Nat) : t.run n =
    t.withCounter (BitVec.ofNat 64 (wholeSecs (t.total + n * t.inc))) (BitVec.ofNat 30 ((t.total + n * t.inc) / 4294967296 % 1000000000))
      (BitVec.ofNat 32 ((t.total + n * t.inc) % 4294967296))
      (if wholeSecs t.total < wholeSecs (t.total + n * t.inc) then some ((t.total + n * t.inc) % (1000000000 * 4294967296) / t.inc)
        else t.sincePass.map (· + n)) := by
  have hns : (t.total + n * t.inc) / 4294967296 = t.toNs + (t.frac.toNat + n * t.inc) / 4294967296 := by
    unfold Time.total
    omega
  have hfrac : (t.total + n * t.inc) % 4294967296 = (t.frac.toNat + n * t.inc) % 4294967296 := by
    unfold Time.total
    omega
  unfold Time.run Time.ofNs Time.withCounter
  simp only [← hns, ← hfrac, ← wholeSecs_eq]
  unfold wholeSecs Time.total
  simp only [Nat.add_assoc]

section
variable (t : Time) (n : Nat)

@[simp] theorem Time.incNs_run : (t.run n).incNs = t.incNs := by rw [Time.run_eq, Time.withCounter_incNs]
@[simp] theorem Time.incFrac_run : (t.run n).incFrac = t.incFrac := by rw [Time.run_eq, Time.withCounter_incFrac]
@[simp] theorem Time.inc_run : (t.run n).inc = t.inc := by rw [Time.run_eq, Time.withCounter_inc]

theorem Time.sec_run : (t.run n).sec = BitVec.ofNat 64 (wholeSecs (t.total + n * t.inc)) := by
  rw [Time.run_eq, Time.withCounter_sec]

theorem Time.ns_run : (t.run n).ns = BitVec.ofNat 30 ((t.total + n * t.inc) / 4294967296 % 1000000000) := by
  rw [Time.run_eq, Time.withCounter_ns]

theorem Time.frac_run : (t.run n).frac = BitVec.ofNat 32 ((t.total + n * t.inc) % 4294967296) := by
  rw [Time.run_eq, Time.withCounter_frac]

theorem Time.sincePass_run : (t.run n).sincePass =
    if wholeSecs t.total < wholeSecs (t.total + n * t.inc) then some ((t.total + n * t.inc) % (1000000000 * 4294967296) / t.inc)
    else t.sincePass.map (· + n) := by
  rw [Time.run_eq, Time.withCounter_sincePass]

/-- Ticks move nothing but the count. -/
theorem Time.run_shape : t.run n = t.withCounter (t.run n).sec (t.run n).ns (t.run n).frac (t.run n).sincePass := by
  rw [Time.run_eq, Time.withCounter_sec, Time.withCounter_ns, Time.withCounter_frac, Time.withCounter_sincePass]

theorem Time.withCounter_run (sec : BitVec 64) (ns : BitVec 30) (frac : BitVec 32) (since : Option Nat) :
    (t.run n).withCounter sec ns frac since = t.withCounter sec ns frac since := by
  rw [Time.run_eq, Time.withCounter_withCounter]

end

/-- Network time in units of 2^−32 ns wraps with its 64-bit seconds. -/
theorem Time.total_run (t : Time) (n : Nat) :
    (t.run n).total = (t.total + n * t.inc) % (18446744073709551616 * (1000000000 * 4294967296)) := by
  generalize ha : t.total + n * t.inc = a
  have hsec : (t.run n).sec.toNat = wholeSecs a % 18446744073709551616 := by
    rw [t.sec_run, ha]
    exact BitVec.toNat_ofNat _ _
  have hns : (t.run n).ns.toNat = a / 4294967296 % 1000000000 := by
    rw [t.ns_run, ha, BitVec.toNat_ofNat]
    omega
  have hfrac : (t.run n).frac.toNat = a % 4294967296 := by
    rw [t.frac_run, ha, BitVec.toNat_ofNat]
    omega
  unfold Time.total Time.toNs
  rw [hsec, hns, hfrac]
  unfold wholeSecs
  omega

/-! ## One tick after the other -/

/-- A count that has wrapped has the same residues, and passes whole seconds with the same ticks. -/
theorem wholeSecs_wrapped (a i : Nat) :
    wholeSecs (a % (18446744073709551616 * (1000000000 * 4294967296)) + i) % 18446744073709551616 = wholeSecs (a + i) % 18446744073709551616 := by
  unfold wholeSecs
  omega

theorem wholeSecs_lt_wrapped (a i : Nat) :
    wholeSecs (a % (18446744073709551616 * (1000000000 * 4294967296))) < wholeSecs (a % (18446744073709551616 * (1000000000 * 4294967296)) + i) ↔
      wholeSecs a < wholeSecs (a + i) := by
  unfold wholeSecs
  omega

/-- Ticks since the last whole second, by one more tick that passes none. -/
theorem ticksSince_succ {a i : Nat} (hi : 0 < i) (h : wholeSecs (a + i) = wholeSecs a) :
    (a + i) % (1000000000 * 4294967296) / i = a % (1000000000 * 4294967296) / i + 1 := by
  have e : (a + i) % (1000000000 * 4294967296) = a % (1000000000 * 4294967296) + i := by
    unfold wholeSecs at h
    omega
  rw [e, Nat.add_div_right _ hi]

/-- The tick after `n` ticks is the last of `n + 1`. -/
theorem Time.sincePass_run_succ (t : Time) (n : Nat) : (t.run (n + 1)).sincePass = ((t.run n).run 1).sincePass := by
  have next : t.total + (n + 1) * t.inc = t.total + n * t.inc + t.inc := by ring
  rw [Time.sincePass_run, Time.sincePass_run (t.run n), Time.total_run, Time.inc_run, Nat.one_mul, Time.sincePass_run t n, next]
  simp only [wholeSecs_lt_wrapped]
  generalize hn : n * t.inc = d
  generalize t.total = x at *
  have lower : wholeSecs x ≤ wholeSecs (x + d) := Nat.div_le_div_right (Nat.le_add_right _ _)
  have upper : wholeSecs (x + d) ≤ wholeSecs (x + d + t.inc) := Nat.div_le_div_right (Nat.le_add_right _ _)
  by_cases last : wholeSecs (x + d) < wholeSecs (x + d + t.inc)
  · rw [if_pos (Nat.lt_of_le_of_lt lower last), if_pos last]
    congr 2
    omega
  · have same : wholeSecs (x + d + t.inc) = wholeSecs (x + d) := by omega
    rw [if_neg last, same]
    by_cases before : wholeSecs x < wholeSecs (x + d)
    · have hi : 0 < t.inc := by
        rcases Nat.eq_zero_or_pos t.inc with h | h
        · rw [h, Nat.mul_zero] at hn
          rw [← hn, Nat.add_zero] at before
          exact absurd before (Nat.lt_irrefl _)
        · exact h
      rw [if_pos before, if_pos before, ticksSince_succ hi same]
      rfl
    · rw [if_neg before, if_neg before, Option.map_map]
      rfl

theorem Time.run_succ (t : Time) (n : Nat) : t.run (n + 1) = (t.run n).run 1 := by
  have next : t.total + (n + 1) * t.inc = t.total + n * t.inc + t.inc := by ring
  have hsec : (t.run (n + 1)).sec = ((t.run n).run 1).sec := by
    rw [Time.sec_run, Time.sec_run (t.run n), Time.total_run, Time.inc_run, Nat.one_mul, next]
    exact BitVec.eq_of_toNat_eq (by simpa using (wholeSecs_wrapped _ _).symm)
  have hns : (t.run (n + 1)).ns = ((t.run n).run 1).ns := by
    rw [Time.ns_run, Time.ns_run (t.run n), Time.total_run, Time.inc_run, Nat.one_mul, next]
    congr 1
    omega
  have hfrac : (t.run (n + 1)).frac = ((t.run n).run 1).frac := by
    rw [Time.frac_run, Time.frac_run (t.run n), Time.total_run, Time.inc_run, Nat.one_mul, next]
    congr 1
    omega
  rw [t.run_shape (n + 1), (t.run n).run_shape 1, t.withCounter_run, hsec, hns, hfrac, t.sincePass_run_succ]

/-- One tick: the fraction takes the increment's, whole nanoseconds carry, and a second at 1 000 000 000 ns. -/
theorem Time.run_one (t : Time) (h : t.ns.toNat < 1000000000) :
    let f := t.frac.toNat + t.incFrac.toNat
    let ns := t.ns.toNat + t.incNs.toNat + f / 4294967296
    let carry := decide (1000000000 ≤ ns)
    (t.run 1).frac = BitVec.ofNat 32 f ∧ (t.run 1).ns.toNat = (if carry then ns - 1000000000 else ns) ∧
      (t.run 1).sec = t.sec + (if carry then 1 else 0) := by
  intro f ns carry
  have hi := t.incNs.isLt
  have hf := t.incFrac.isLt
  have hx := t.frac.isLt
  have htotal : t.total + 1 * t.inc = (t.sec.toNat * 1000000000 + t.ns.toNat + t.incNs.toNat) * 4294967296 + f := by
    simp only [Time.total, Time.toNs, Time.inc, f]
    omega
  refine ⟨?_, ?_, ?_⟩
  · rw [Time.frac_run, htotal]
    exact BitVec.eq_of_toNat_eq (by simp only [BitVec.toNat_ofNat]; omega)
  · rw [Time.ns_run, htotal, BitVec.toNat_ofNat]
    simp only [carry, decide_eq_true_eq]
    split <;> omega
  · rw [Time.sec_run, htotal]
    refine BitVec.eq_of_toNat_eq ?_
    simp only [carry, decide_eq_true_eq, wholeSecs, BitVec.toNat_ofNat, BitVec.toNat_add]
    split <;> simp <;> omega

/-! ## The write of an increment (R174, R175) -/

theorem nextMeridian_spec (clk : Nat) : nextMeridian clk % 1024 = 0 ∧ clk < nextMeridian clk ∧ nextMeridian clk ≤ clk + 1024 := by
  unfold nextMeridian
  omega

/-- The increment's bounds, written over 10 000 (R174). -/
theorem incInRange_iff (ns : BitVec 3) (frac : BitVec 32) : incInRange ns frac = true ↔
    39992 * 4294967296 ≤ (ns.toNat * 4294967296 + frac.toNat) * 10000 ∧ (ns.toNat * 4294967296 + frac.toNat) * 10000 ≤ 40008 * 4294967296 := by
  unfold incInRange
  simp only [Bool.and_eq_true, decide_eq_true_eq]

theorem State.writeInc_idle {s : State} {ns : BitVec 3} {frac : BitVec 32}
    (h : s.servoRuns = false ∨ s.time.disc = .holdover ∨ s.slewOk ns frac = false) : s.writeInc ns frac = s := by
  unfold State.writeInc
  rcases h with h | h | h <;> simp [h]

section
variable {s : State} {ns : BitVec 3} {frac : BitVec 32} (hruns : s.servoRuns = true) (hdisc : s.time.disc ≠ .holdover)
  (hslew : s.slewOk ns frac = true)
include hruns hdisc hslew

/-- A write the servo may make: taken at the next bus update, or counted as refused. -/
theorem State.writeInc_serving : s.writeInc ns frac =
    if incInRange ns frac then { s with time := { s.time with pendInc := some (nextMeridian s.clk, ns, frac) } }.touch .increment
    else s.count .timeIncRefused .device := by
  simp [State.writeInc, hruns, hdisc, hslew]

theorem State.writeInc_taken (hrange : incInRange ns frac = true) :
    (s.writeInc ns frac).time = { s.time with pendInc := some (nextMeridian s.clk, ns, frac) } ∧ (s.writeInc ns frac).hw = s.hw ∧
      (s.writeInc ns frac).tally = s.tally := by
  rw [State.writeInc_serving hruns hdisc hslew, if_pos hrange, (State.touch_eq _ _).1]
  exact ⟨rfl, rfl, rfl⟩

theorem State.writeInc_refused (hrange : ¬ incInRange ns frac = true) : s.writeInc ns frac = s.count .timeIncRefused .device := by
  rw [State.writeInc_serving hruns hdisc hslew, if_neg hrange]

end

theorem exec_incrementWrite (dt : Nat) (s : State) (ns : BitVec 3) (frac : BitVec 32) :
    exec (.incrementWrite dt ns frac) s = .next ((s.tick dt).writeInc ns frac) := rfl

/-- Settles O35: the closed form of `n` ticks composes tick by tick, and the write of an increment has its four ends. -/
theorem masterCounter : Obligations.MasterCounter := by
  unfold Obligations.MasterCounter
  refine ⟨fun t n hns => ⟨?_, t.run_succ n⟩, ?_⟩
  · intro f ns carry
    obtain ⟨hfrac, hnsec, hsec⟩ := t.run_one hns
    exact ⟨hfrac, hnsec, hsec, t.incNs_run 1, t.incFrac_run 1⟩
  · intro dt s ns frac t v legal
    rw [exec_incrementWrite]
    refine ⟨fun h => by rw [State.writeInc_idle h], fun hruns hdisc hslew => ⟨fun hlegal => ?_, fun hnot => ?_⟩⟩
    · obtain ⟨hmod, hlate, hsoon⟩ := nextMeridian_spec t.clk
      obtain ⟨htime, hhw, htally⟩ := State.writeInc_taken hruns hdisc hslew ((incInRange_iff ns frac).mpr hlegal)
      exact ⟨t.writeInc ns frac, nextMeridian t.clk, rfl, htime, hmod, hlate, hsoon, hhw, htally⟩
    · rw [State.writeInc_refused hruns hdisc hslew (mt (incInRange_iff ns frac).mp hnot)]

end Sys2Proof.Machine

namespace Sys2Proof.Machine

/-! # The discipline: a run of large offsets that stands at 4, and O36 -/

/-- A part in HOLDOVER with an exchange of offset `o` completed on P0, whose run of large offsets is entered as `n`. -/
def holdingRun (n : Nat) (o : Int) : State :=
  { Tests.exchanged Tests.holding o with time := { (Tests.exchanged Tests.holding o).time with bigRun := n } }

/-- Refutes O36: in HOLDOVER a run of large offsets that stands at 4 posts a step with the next large offset, as the run is compared by "at
least 4" (R178).  The statement's premise leaves out a run of 3 only; no measurement leaves a longer one, but the statement is about every
state. -/
theorem not_disciplineAndSteps : ¬ Obligations.DisciplineAndSteps := by
  unfold Obligations.DisciplineAndSteps
  intro h
  obtain ⟨-, discipline⟩ := h
  obtain ⟨measured, -⟩ := discipline 0 (holdingRun 4 (-100000000000)) .p0 (-100000000000) Tests.aPtp
  obtain ⟨-, holdover, -⟩ := measured (by decide +kernel) (by decide +kernel) (by decide +kernel) (by decide +kernel) (by decide +kernel)
  obtain ⟨u, hu, -, -, kept⟩ := holdover (by decide +kernel) (by decide +kernel)
  cases hu
  revert kept
  decide +kernel

end Sys2Proof.Machine

namespace Sys2Proof.Machine

/-! # The state before the first start, and O60 -/

theorem State.flashOk_reset : State.reset.flashOk := rfl

/-- No mode that Table 2.1 ties to the fuses stands while RESET_N is low. -/
theorem State.lcsOk_reset : State.reset.lcsOk := trivial

/-- Settles O60: the empty flash is canonical, the mode is RESET, and the rest is read off. -/
theorem resetState : Obligations.ResetState := by
  unfold Obligations.ResetState
  exact ⟨State.flashOk_reset, State.lcsOk_reset, rfl, rfl, rfl, rfl, rfl, rfl, rfl, rfl, rfl⟩

end Sys2Proof.Machine

namespace Sys2Proof.Machine

/-! # Identity, status, time and attestation (R202, R344, R350, R439), and O3 -/

theorem State.partCode_eq (s : State) : s.partCode = if s.id.variant = .epb7248 then 0x7248 else 0x7224 := by
  unfold State.partCode State.full
  cases s.id.variant <;> rfl

/-- The result of IDENTITY-GET, with the choices of Table 15.4 spelt out. -/
theorem State.identity_eq (s : State) : s.identity =
    toBe 2 (if s.id.variant = .epb7248 then 0x7248 else 0x7224) ++ toBe 8 s.id.eui64.toNat ++ toBe 1 (lcsCode s.life.lcs) ++
      toBe 1 s.statusOctet ++ toBe 4 s.id.romVersion.toNat ++ toBe 4 s.life.fwVersion.toNat ++ toBe 1 (s.life.fwSlot.getD 0xFF) ++
      toBe 1 (s.life.cfgSlot.getD 0xFF) ++ toBe 4 ((s.life.image.map fun i => i.version.toNat).getD 0) := by
  unfold State.identity slotCode
  rw [State.partCode_eq]
  cases s.life.image <;> rfl

theorem exec_identityGet {dt : Nat} {m : Mbox} {s : State} {r : Request} (h : (s.tick dt).runsLen m 0x0101 0 r) :
    exec (.identityGet dt m) s = .next (((s.tick dt).afterReq m).respond m r sOk ((s.tick dt).afterReq m).identity) :=
  congrArg Host.Outcome.next (State.shortCmd_of_runsLen h _)

theorem exec_securityStatus {dt : Nat} {m : Mbox} {s : State} {r : Request} (h : (s.tick dt).runsLen m 0x0102 0 r) :
    exec (.securityStatus dt m) s = .next (((s.tick dt).afterReq m).respond m r sOk ((s.tick dt).afterReq m).securityStatus) :=
  congrArg Host.Outcome.next (State.shortCmd_of_runsLen h _)

theorem exec_timeGet {dt : Nat} {m : Mbox} {s : State} {r : Request} (h : (s.tick dt).runsLen m 0x0501 0 r) :
    exec (.timeGet dt m) s = .next (((s.tick dt).afterReq m).respond m r sOk ((s.tick dt).afterReq m).timeView) :=
  congrArg Host.Outcome.next (State.shortCmd_of_runsLen h _)

theorem exec_attest {dt : Nat} {m : Mbox} {s : State} {r : Request} (h : (s.tick dt).runsLen m 0x0103 17 r) :
    exec (.attest dt m) s = .next (((s.tick dt).afterReq m).attest m r) :=
  congrArg Host.Outcome.next (State.shortCmd_of_runsLen h _)

/-! ## The three ends of ATTEST (R344) -/

theorem State.attest_range {s : State} {r : Request} (m : Nat) (h : 1 < beField r.payload 16 1) : s.attest m r = s.respond m r sRange [] :=
  if_pos h

theorem State.attest_unkeyed {s : State} {r : Request} (m : Nat) (hkey : beField r.payload 16 1 = 1) (hheld : s.kcfgHeld = false) :
    s.attest m r = s.respond m r sState [] := by
  simp [State.attest, hkey, hheld]

theorem State.attest_signed {s : State} {r : Request} (m : Nat)
    (h : beField r.payload 16 1 = 0 ∨ beField r.payload 16 1 = 1 ∧ s.kcfgHeld = true) :
    s.attest m r = s.respond m r sOk (s.report (r.payload.take 16) (beField r.payload 16 1) ++
      natOcts (cmac (s.slot (if beField r.payload 16 1 = 0 then 2 else 7)).octets
        (octNats (s.report (r.payload.take 16) (beField r.payload 16 1))))) := by
  rcases h with hkey | ⟨hkey, hheld⟩
  · simp [State.attest, hkey]
  · simp [State.attest, hkey, hheld]

/-- Settles O3: a command that the mailbox executes answers its view of the state; ATTEST has three ends. -/
theorem statusAndAttestation : Obligations.StatusAndAttestation := by
  unfold Obligations.StatusAndAttestation
  refine ⟨fun dt m s r => ⟨fun h => ?_, exec_securityStatus, exec_timeGet⟩,
    fun dt m s r => ⟨fun h hkey => ?_, fun h hkey hheld => ?_, fun h hkey => ?_⟩⟩
  · rw [exec_identityGet h, State.identity_eq]
  · rw [exec_attest h, State.attest_range m hkey]
  · rw [exec_attest h, State.attest_unkeyed m hkey hheld]
  · rw [exec_attest h, State.attest_signed m hkey]

end Sys2Proof.Machine

namespace Sys2Proof.Machine

/-! # The almanac's commands (R202), and O10 -/

/-- ALMANAC-ADD of the entry `e`. -/
def State.almAdd (s : State) (m : Nat) (r : Request) (e : Octets) : State :=
  (if s.almAddStatus m e = sOk then s.setAlm (almId e) { octets := e, fate := .standing } else s).respond m r (s.almAddStatus m e) []

/-- ALMANAC-REMOVE. -/
def State.almRemove (s : State) (m : Nat) (r : Request) : State :=
  let k := beField r.payload 0 2
  if 1023 < k then s.respond m r sRange []
  else match s.hw.almanac.get k with
    | some e =>
      if s.almVisible m e then { s with hw := { s.hw with almanac := s.hw.almanac.erase k } }.respond m r sOk []
      else s.respond m r sNotFound []
    | none => s.respond m r sNotFound []

theorem exec_almanacAdd {dt : Nat} {m : Mbox} {s : State} {r : Request} (h : (s.tick dt).runsLen m 0x0511 128 r) :
    exec (.almanacAdd dt m) s = .next (((s.tick dt).afterReq m).almAdd m r (almSetLast r.payload (2 ^ 64 - 1))) :=
  congrArg Host.Outcome.next (State.shortCmd_of_runsLen h _)

theorem exec_almanacRemove {dt : Nat} {m : Mbox} {s : State} {r : Request} (h : (s.tick dt).runsLen m 0x0512 2 r) :
    exec (.almanacRemove dt m) s = .next (((s.tick dt).afterReq m).almRemove m r) :=
  congrArg Host.Outcome.next ((State.shortCmd_of_runsLen h _).trans rfl)

/-! ## ALMANAC-ADD -/

section
variable {s : State} {m : Nat} {r : Request} {e : Octets}

theorem State.almAdd_refused (h : s.almAddStatus m e ≠ sOk) : s.almAdd m r e = s.respond m r (s.almAddStatus m e) [] := by
  unfold State.almAdd
  rw [if_neg h]

theorem State.almAdd_entered (h : s.almAddStatus m e = sOk) :
    s.almAdd m r e = (s.setAlm (almId e) { octets := e, fate := .standing }).respond m r sOk [] := by
  unfold State.almAdd
  rw [if_pos h, h]

/-- The status of an entry that is well formed and of the mailbox's world. -/
theorem State.almAddStatus_wellFormed (hform : almMalformed e = none) (hrange : almBadRange e = none)
    (hworld : almWorld e = (s.mb m).world) (hcross : almCross e = none) :
    s.almAddStatus m e = if 1024 ≤ s.hw.almanac.length then sFull else if (s.hw.almanac.get (almId e)).isSome then sExists else sOk := by
  simp [State.almAddStatus, hform, hrange, hworld, hcross]

end

/-! ## ALMANAC-REMOVE -/

theorem State.almVisible_iff (s : State) (m : Nat) (e : AlmEntry) :
    s.almVisible m e = true ↔ (s.mb m).world = 0 ∨ almWorld e.octets = (s.mb m).world := by
  simp [State.almVisible]

section
variable {s : State} {r : Request} {e : AlmEntry} (m : Nat)

theorem State.almRemove_range (hk : 1023 < beField r.payload 0 2) : s.almRemove m r = s.respond m r sRange [] := if_pos hk

theorem State.almRemove_absent (hk : beField r.payload 0 2 ≤ 1023) (hget : s.hw.almanac.get (beField r.payload 0 2) = none) :
    s.almRemove m r = s.respond m r sNotFound [] := by
  unfold State.almRemove
  simp only [if_neg (Nat.not_lt.mpr hk), hget]

theorem State.almRemove_present (hk : beField r.payload 0 2 ≤ 1023) (hget : s.hw.almanac.get (beField r.payload 0 2) = some e) :
    s.almRemove m r = if s.almVisible m e then
        { s with hw := { s.hw with almanac := s.hw.almanac.erase (beField r.payload 0 2) } }.respond m r sOk []
      else s.respond m r sNotFound [] := by
  unfold State.almRemove
  simp only [if_neg (Nat.not_lt.mpr hk), hget]

end

/-! ## ALMANAC-LIST -/

theorem exec_almanacList {dt : Nat} {m : Mbox} {s : State} {r : Request} (h : (s.tick dt).runsLen m 0x0513 2 r) :
    let t := (s.tick dt).afterReq m
    let seen := t.hw.almanac.filter fun p => decide (beField r.payload 0 2 ≤ p.1) && t.almVisible m p.2
    exec (.almanacList dt m) s = .next (t.respond m r sOk (toBe 2 (((seen.drop 255).head?.map fun p => p.1).getD 0xFFFF) ++
      toBe 1 (seen.take 255).length ++ (seen.take 255).flatMap fun p => t.almView m p.2)) := by
  intro t seen
  refine (congrArg Host.Outcome.next (State.shortCmd_of_runsLen h _)).trans ?_
  dsimp only [t, seen]
  cases (List.drop 255 _).head? <;> rfl

/-- Settles O10: ALMANAC-ADD by the status of its entry, ALMANAC-REMOVE by what stands under the id, ALMANAC-LIST by its list. -/
theorem almanacCommands : Obligations.AlmanacCommands := by
  unfold Obligations.AlmanacCommands
  intro dt m s r e t new k
  refine ⟨fun h => ⟨fun hform hrange hworld hcross hroom hfree => ?_, fun hform hrange hworld hcross hfull => ?_, fun hstatus => ?_⟩,
    fun h hk => ?_, fun h hk hgone => ?_, fun h hk hget hsees => ?_, exec_almanacList⟩
  · have hok : t.almAddStatus m new = sOk := by
      rw [State.almAddStatus_wellFormed hform hrange hworld hcross, if_neg (Nat.not_le.mpr hroom), hfree]
      rfl
    rw [exec_almanacAdd h, State.almAdd_entered hok]
    rfl
  · have hst : t.almAddStatus m new = sFull := by
      rw [State.almAddStatus_wellFormed hform hrange hworld hcross, if_pos hfull]
    rw [exec_almanacAdd h, State.almAdd_refused (by rw [hst]; decide), hst]
  · rw [exec_almanacAdd h, State.almAdd_refused hstatus]
  · rw [exec_almanacRemove h, State.almRemove_range m hk]
  · rw [exec_almanacRemove h]
    rcases hgone with hnone | ⟨hsome, hw0, hother⟩
    · rw [State.almRemove_absent m hk hnone]
    · have hblind : ¬ t.almVisible m e = true := mt (State.almVisible_iff t m e).mp (not_or.mpr ⟨hw0, hother⟩)
      rw [State.almRemove_present m hk hsome, if_neg hblind]
  · rw [exec_almanacRemove h, State.almRemove_present m hk hget, if_pos ((State.almVisible_iff t m e).mpr hsees)]

end Sys2Proof.Machine

namespace Sys2Proof.Machine

/-! # The AON reset and the TAP (R184, R525, R526), and O29 -/

/-! ## The identity code -/

theorem toNat_append_add {v w : Nat} (x : BitVec v) (y : BitVec w) : (x ++ y).toNat = x.toNat * 2 ^ w + y.toNat := by
  rw [BitVec.toNat_append, ← Nat.shiftLeft_add_eq_or_of_lt y.isLt, Nat.shiftLeft_eq]

/-- Bits 27 to 12 of a word of 4, 16, 11 and 1 bits are its second field. -/
theorem middle_of_idCode (stepping : BitVec 4) (code : BitVec 16) (maker : BitVec 11) (low : BitVec 1) :
    (stepping ++ code ++ maker ++ low).toNat / 4096 % 65536 = code.toNat := by
  have hmaker := maker.isLt
  have hlow := low.isLt
  have hcode := code.isLt
  simp only [toNat_append_add]
  omega

theorem State.partCode_lt (s : State) : s.partCode < 65536 := by
  unfold State.partCode
  split <;> decide

theorem State.idCode_partCode (s : State) : s.idCode.toNat / 4096 % 65536 = s.partCode := by
  unfold State.idCode
  rw [middle_of_idCode, BitVec.toNat_ofNat]
  exact Nat.mod_eq_of_lt s.partCode_lt

/-! ## The TAP's instructions -/

theorem exec_jtagInstructionUpdate (dt : Nat) (j : JtagInstr) (s : State) : exec (.jtagInstructionUpdate dt j) s = .next ((s.tick dt).jtag j) := rfl

theorem drivesBalls_of_others {j : JtagInstr} (hbypass : j ≠ .bypass) (hidcode : j ≠ .idcode) (hsample : j ≠ .samplePreload) :
    drivesBalls j = true := by
  cases j <;> simp_all [drivesBalls]

/-- An instruction that drives balls holds a part that runs. -/
theorem State.jtag_drives {s : State} {j : JtagInstr} (hdrives : drivesBalls j = true) (hmode : s.life.mode = .operate) :
    (s.jtag j).life.mode = .jtagHold ∧ (s.jtag j).life.jtagDrives = true ∧ (s.jtag j).hw = s.hw ∧ (s.jtag j).flash = s.flash := by
  unfold State.jtag
  simp only [hdrives, hmode, Bool.not_true, Bool.false_eq_true, if_false]
  exact ⟨rfl, rfl, rfl, rfl⟩

theorem State.testLogicReset_held {s : State} (e : StartEnv) (hmode : s.life.mode = .jtagHold) :
    s.testLogicReset e = State.start { s with life := { s.life with jtagDrives := false } } e := if_pos hmode

/-- Settles O29: the AON reset field by field, and the TAP's instructions one by one. -/
theorem aonResetAndJtag : Obligations.AonResetAndJtag := by
  unfold Obligations.AonResetAndJtag
  refine ⟨fun dt s => ⟨(s.tick dt).aonReset, rfl, rfl, rfl, rfl, rfl, rfl, rfl, rfl, rfl, rfl, rfl, rfl, rfl, rfl, rfl⟩, fun dt j e s => ?_⟩
  intro t
  refine ⟨fun hj => ?_, ⟨rfl, t.idCode_partCode.trans t.partCode_eq⟩, fun hbypass hidcode hsample hmode => ?_, fun hmode => ?_⟩
  · rcases hj with rfl | rfl <;> rfl
  · exact ⟨t.jtag j, exec_jtagInstructionUpdate dt j s, State.jtag_drives (drivesBalls_of_others hbypass hidcode hsample) hmode⟩
  · exact congrArg Host.Outcome.next (State.testLogicReset_held e hmode)

end Sys2Proof.Machine

namespace Sys2Proof.Machine

/-! # What the Almanac leaves of the clocks (R197, R199, R201) -/

theorem Rtc.eq_of_cleared {r u : Rtc} (h : ({ u with offset := 0, summer := false } : Rtc) = { r with offset := 0, summer := false }) :
    u = { r with offset := u.offset, summer := u.summer } := by
  cases r
  cases u
  simp only [Rtc.mk.injEq] at h ⊢
  simp only [h, and_self]

/-- Of the RTC the Almanac writes the local offset and the summer flag. -/
theorem State.rtc_almanac (s : State) : s.almanac.rtc = { s.rtc with offset := s.almanac.rtc.offset, summer := s.almanac.rtc.summer } :=
  Rtc.eq_of_cleared (congrArg State.rtc s.sansAlm_almanac :)

/-- Where the part does not forward, or wall time is not trusted, the Almanac does nothing (R199). -/
theorem State.almanac_idle {s : State} (h : s.operating = false ∨ s.life.radioOn = false ∨ s.rtc.trusted = false) : s.almanac = s := by
  unfold State.almanac
  rcases h with h | h | h <;> simp [h]

/-! # A write of the seconds count (R187, R193) -/

/-- Wall time becomes trusted, and nothing else of the RTC, network time or the life cycle changes. -/
theorem State.trust_fields (s : State) : s.trust.rtc = { s.rtc with trusted := true } ∧ s.trust.time = s.time ∧ s.trust.life = s.life := by
  unfold State.trust
  dsimp only
  split
  · simp only [State.raise_fields]
    exact ⟨rfl, rfl, rfl⟩
  · exact ⟨rfl, rfl, rfl⟩

/-- The RTC after a write of the count `sec` that took effect `ago` ticks before. -/
def State.writtenRtc (s : State) (sec : BitVec 48) (ago : Nat) : Rtc :=
  { s.rtc with
    sec := sec, osf := false, presc0 := 0, frozen := 0, boundary := s.clk - ago, boundaryNet := s.netNs - 4 * ago
    leapHeld := false, windowNet := none, trusted := true }

theorem State.rtc_writeRtc (s : State) (sec : BitVec 48) (ago : Nat) : (s.writeRtc sec ago).rtc =
    { s.writtenRtc sec ago with offset := (s.writeRtc sec ago).rtc.offset, summer := (s.writeRtc sec ago).rtc.summer } := by
  unfold State.writeRtc
  dsimp only
  rw [State.rtc_almanac, (State.trust_fields _).1]
  rfl

/-- With the radio off a write reaches no entry of the Almanac. -/
theorem State.time_writeRtc_radioOff {s : State} (sec : BitVec 48) (ago : Nat) (h : s.life.radioOn = false) : (s.writeRtc sec ago).time = s.time := by
  unfold State.writeRtc
  dsimp only
  rw [State.almanac_idle (.inr (.inl ?_)), (State.trust_fields _).2.1]
  · rfl
  · rw [(State.trust_fields _).2.2]
    exact h

end Sys2Proof.Machine

namespace Sys2Proof.Machine

/-! # The commands of wall time (R187, R191, R197), and O9 -/

/-- A command that the mailbox executes is its action, once the request's cells are released. -/
theorem State.hostCmd_of_runs {s : State} {m op : Nat} {r : Request} (h : s.runs m op r) (act : State → Request → State) :
    s.hostCmd m op act = act (s.afterReq m) r := by
  obtain ⟨hfront, hop, hpause, hbusy, htakes, hpermitted⟩ := h
  cases hn : s.nextRequest m with
  | none => simp [State.frontReq, hn] at hfront
  | some p =>
    obtain ⟨q, t⟩ := p
    have hq : q = r := by simpa [State.frontReq, hn] using hfront
    subst hq
    simp only [State.afterReq, hn] at htakes hpermitted ⊢
    exact State.hostCmd_runs act hn hop hpause hbusy htakes hpermitted

theorem exec_timeSet {dt : Nat} {m : Mbox} {s : State} {r : Request} (h : (s.tick dt).runs m 0x0502 r) :
    exec (.timeSet dt m) s = .next (((s.tick dt).afterReq m).timeSet m r) :=
  congrArg Host.Outcome.next (State.hostCmd_of_runs h _)

theorem exec_localOffsetSet {dt : Nat} {m : Mbox} {s : State} {r : Request} (h : (s.tick dt).runsLen m 0x0503 1 r) :
    exec (.localOffsetSet dt m) s = .next (((s.tick dt).afterReq m).localChange m r (signed 8 (beField r.payload 0 1)) none) :=
  congrArg Host.Outcome.next (State.shortCmd_of_runsLen h _)

theorem exec_addHour {dt : Nat} {m : Mbox} {s : State} {r : Request} (h : (s.tick dt).runsLen m 0x0504 0 r) :
    let t := (s.tick dt).afterReq m
    exec (.addHour dt m) s = .next (t.localChange m r (t.offsetAhead + 4) (some true)) :=
  congrArg Host.Outcome.next (State.shortCmd_of_runsLen h _)

theorem exec_subHour {dt : Nat} {m : Mbox} {s : State} {r : Request} (h : (s.tick dt).runsLen m 0x0505 0 r) :
    let t := (s.tick dt).afterReq m
    exec (.subHour dt m) s = .next (t.localChange m r (t.offsetAhead - 4) (some false)) :=
  congrArg Host.Outcome.next (State.shortCmd_of_runsLen h _)

theorem exec_countdownSet {dt : Nat} {m : Mbox} {s : State} {r : Request} (h : (s.tick dt).runsLen m 0x0506 4 r) :
    let t := (s.tick dt).afterReq m
    exec (.countdownSet dt m) s = .next (State.respond
      { t with rtc := { t.rtc with countdown := BitVec.ofNat 32 (beField r.payload 0 4), cdExpired := false } } m r sOk []) :=
  congrArg Host.Outcome.next (State.shortCmd_of_runsLen h _)

/-! ## The ends of TIME-SET -/

/-- Form 0 names its count outright. -/
theorem timeSetArg_count {p : Octets} {c : Nat} (h : timeSetArg p = some (some c)) (hform : beField p 0 1 = 0) (hlen : p.length = 7) :
    c = beField p 1 6 := by
  unfold timeSetArg at h
  rw [if_pos ⟨hform, hlen⟩] at h
  cases h
  rfl

section
variable {s : State} {r : Request} (m : Nat)

theorem State.timeSet_malformed (harg : timeSetArg r.payload = none) : s.timeSet m r = s.respond m r sMalformed [] := by
  simp only [State.timeSet, harg]

theorem State.timeSet_derived {v : Option Nat} (harg : timeSetArg r.payload = some v) (hwall : s.wallDerivable = true) :
    s.timeSet m r = s.respond m r sState [] := by
  simp only [State.timeSet, harg, hwall, if_true]

theorem State.timeSet_range (harg : timeSetArg r.payload = some none) (hwall : s.wallDerivable = false) :
    s.timeSet m r = s.respond m r sRange [] := by
  simp only [State.timeSet, harg, hwall, Bool.false_eq_true, if_false]

theorem State.timeSet_written {c : Nat} (harg : timeSetArg r.payload = some (some c)) (hwall : s.wallDerivable = false) :
    s.timeSet m r = (s.writeRtc (BitVec.ofNat 48 c) 0).respond m r sOk [] := by
  simp only [State.timeSet, harg, hwall, Bool.false_eq_true, if_false]

end

/-- Settles O9: TIME-SET by the form of its argument, the local offset by its bounds. -/
theorem timeCommands : Obligations.TimeCommands := by
  unfold Obligations.TimeCommands
  refine ⟨fun dt m s r => ?_, fun dt m s r => ⟨exec_localOffsetSet, exec_addHour, exec_subHour, exec_countdownSet⟩⟩
  intro t h
  rw [exec_timeSet h]
  refine ⟨fun harg => ?_, fun v harg hwall => ?_, fun harg hwall => ?_, fun c harg hwall => ⟨timeSetArg_count harg, ?_⟩⟩
  · rw [State.timeSet_malformed m harg]
  · rw [State.timeSet_derived m harg hwall]
  · rw [State.timeSet_range m harg hwall]
  · refine ⟨t.writeRtc (BitVec.ofNat 48 c) 0, congrArg Host.Outcome.next (State.timeSet_written m harg hwall), ?_⟩
    rw [State.rtc_writeRtc]
    exact ⟨rfl, rfl, rfl, rfl, rfl, rfl, rfl, State.time_writeRtc_radioOff _ _⟩

end Sys2Proof.Machine

namespace Sys2Proof.Machine

/-! # The RTC's second boundary (R186, R190, R191, R197) -/

/-- The trim carries whole cycles out of the accumulator, 78 125 units to one, and leaves the rest with nothing rounded (R186). -/
theorem trimCycles_spec (x : Int) : 78125 * (trimCycles x).1 + (trimCycles x).2 = x ∧ (trimCycles x).2.natAbs < 78125 := by
  unfold trimCycles
  split
  · dsimp only
    omega
  · dsimp only
    omega

/-- An RTC without the local offset and the summer flag. -/
def Rtc.sansLocal (r : Rtc) : Rtc := { r with offset := 0, summer := false }

/-- One change of the local offset. -/
def Rtc.applyLocal (r : Rtc) (p : PendLocal) : Rtc := { r with offset := BitVec.ofInt 8 p.offset, summer := p.summer.getD r.summer }

theorem applyLocals_eq (r : Rtc) : applyLocals r = { r.pendLocal.foldl Rtc.applyLocal r with pendLocal := [] } := rfl

/-- The changes that waited write the local offset and the summer flag, and wait no longer. -/
theorem sansLocal_applyLocals (r : Rtc) : (applyLocals r).sansLocal = { r.sansLocal with pendLocal := [] } := by
  have kept : (r.pendLocal.foldl Rtc.applyLocal r).sansLocal = r.sansLocal := foldl_keeps Rtc.applyLocal Rtc.sansLocal (fun _ _ => rfl) _ r
  rw [applyLocals_eq, ← kept]
  rfl

theorem sec_applyLocals (r : Rtc) : (applyLocals r).sec = r.sec := (congrArg Rtc.sec (sansLocal_applyLocals r) :)

theorem countdown_applyLocals (r : Rtc) : (applyLocals r).countdown = r.countdown := (congrArg Rtc.countdown (sansLocal_applyLocals r) :)

theorem trusted_applyLocals (r : Rtc) : (applyLocals r).trusted = r.trusted := (congrArg Rtc.trusted (sansLocal_applyLocals r) :)

/-- The state `u` in which a second boundary has counted `s` on, before leap, countdown and Almanac. -/
structure State.Counted (s u : State) : Prop where
  frame : u = { s with rnd := u.rnd, rtc := u.rtc }
  sec : u.rtc.sec = s.rtc.sec + BitVec.ofNat 48 s.leapStep.1
  trim : (u.rtc.presc0, u.rtc.acc) = trimCycles (s.rtc.acc + 256 * s.rtc.trim.toInt)
  boundary : u.rtc.boundary = s.clk
  countdown : u.rtc.countdown = s.rtc.countdown
  trusted : u.rtc.trusted = s.rtc.trusted
  pendLocal : u.rtc.pendLocal = []

/-- What of a second boundary stands before the window of an adjustment begins. -/
def State.countOn (s : State) : State :=
  s.setRtc { applyLocals s.rtc with
    sec := (applyLocals s.rtc).sec + BitVec.ofNat 48 s.leapStep.1, acc := (trimCycles (s.rtc.acc + 256 * s.rtc.trim.toInt)).2
    presc0 := (trimCycles (s.rtc.acc + 256 * s.rtc.trim.toInt)).1, boundary := s.clk, boundaryNet := s.netNs
    sinceAdj := (applyLocals s.rtc).sinceAdj + 1, leapHeld := s.leapStep.1 == 0 }

theorem State.counted_countOn (s : State) : s.Counted s.countOn where
  frame := rfl
  sec := congrArg (· + BitVec.ofNat 48 s.leapStep.1) (sec_applyLocals s.rtc)
  trim := rfl
  boundary := rfl
  countdown := countdown_applyLocals s.rtc
  trusted := trusted_applyLocals s.rtc
  pendLocal := rfl

/-- A window begins: the seconds of an adjustment are counted from here. -/
theorem State.Counted.window {s u : State} (h : s.Counted u) (w : Option Int) (n : Nat) (k : Nat) :
    s.Counted { u.setRtc { u.rtc with windowNet := w, sinceAdj := n } with rnd := k } where
  frame := by
    rw [h.frame]
    rfl
  sec := h.sec
  trim := h.trim
  boundary := h.boundary
  countdown := h.countdown
  trusted := h.trusted
  pendLocal := h.pendLocal

/-- A second boundary counts on, then come the leap, the countdown and the Almanac. -/
theorem State.rtcSecond_counted {s : State} (h : s.rtc.stopped = false) :
    ∃ u, s.Counted u ∧ s.rtcSecond = ((u.leapOffset s.leapStep.2).countdown).almanac := by
  have running : s.rtcSecond = ((State.leapOffset (match s.countOn.rtc.windowNet with
      | some _ => s.countOn
      | none =>
        { s.countOn.setRtc { s.countOn.rtc with
          windowNet := some (s.countOn.rtcStamp (Config.unstated s.countOn.rnd).toInt), sinceAdj := 0 } with rnd := s.countOn.rnd + 1 })
      s.leapStep.2).countdown).almanac := by
    unfold State.rtcSecond
    rw [if_neg (by simp [h])]
    rfl
  rw [running]
  cases s.countOn.rtc.windowNet with
  | some w => exact ⟨s.countOn, s.counted_countOn, rfl⟩
  | none => exact ⟨_, s.counted_countOn.window _ _ _, rfl⟩

theorem State.rtcSecond_stopped {s : State} (h : s.rtc.stopped = true) : s.rtcSecond = s := if_pos h

end Sys2Proof.Machine

namespace Sys2Proof.Machine

/-! # Leap seconds, the countdown, and what follows them at a boundary (R190, R191) -/

theorem State.leapStep_unlocked {s : State} (h : s.time.disc ≠ .locked) : s.leapStep = (1, 0) := by
  have hlocked : s.locked = false := by simp [State.locked, h]
  unfold State.leapStep
  rw [hlocked]
  split <;> simp

/-- The last boundary before a multiple of 86 400, LOCKED to a master of the PTP timescale (R190). -/
theorem State.leapStep_last {s : State} {m : Master} (h : s.rtc.leapHeld = false ∧ (s.rtc.sec.toNat + 1) % 86400 = 0 ∧ s.time.disc = .locked ∧
    bitOf s.timeFlags 2 = true ∧ s.time.master = some m ∧ m.ptpTimescale = true) :
    s.leapStep = if m.leap61 then (0, 1) else if m.leap59 then (2, -1) else (1, 0) := by
  obtain ⟨hheld, hday, hdisc, hflag, hmaster, hscale⟩ := h
  simp [State.leapStep, State.locked, hheld, hday, hdisc, hflag, hmaster, hscale]

@[simp] theorem State.leapOffset_zero (s : State) : s.leapOffset 0 = s := rfl

@[simp] theorem State.rtc_leapOffset (s : State) (d : Int) : (s.leapOffset d).rtc = s.rtc := by
  unfold State.leapOffset
  split
  · rfl
  · rw [(State.touch_eq _ _).1]

/-- The UTC offset in use after a leap, whether the master's or the one kept: both were set (R190). -/
theorem State.utcOffset_leapOffset {s : State} {d : Int} (hd : d ≠ 0) : (s.leapOffset d).utcOffset = ((s.utcOffset : Int) + d).toNat := by
  unfold State.leapOffset
  rw [if_neg hd, (State.touch_eq _ _).1]
  generalize ((s.utcOffset : Int) + d).toNat = v
  unfold State.utcOffset State.masterUtc
  cases hm : s.time.master with
  | none => rfl
  | some m =>
    simp only [Option.map_some]
    split
    · next x hx =>
      split at hx
      · exact (Option.some.inj hx).symm
      · cases hx
    · rfl

/-! ## The countdown -/

theorem State.sansMail_raise_if (s : State) (b : Bool) (code : Nat) (w : Option Nat) (o : Octets) :
    (if b then s.raise code w o else s).sansMail = s.sansMail := by
  cases b
  · rfl
  · exact s.sansMail_raise code w o

/-- The RTC one second further down its countdown, which tells so at 1 (R191); `e`: the event kept for a start. -/
def Rtc.countDown (r : Rtc) (e : Option Nat) : Rtc :=
  { r with
    countdown := if r.countdown = 0 then 0 else r.countdown - 1, cdExpired := if r.countdown = 1 then true else r.cdExpired, cdEvent := e }

theorem Rtc.countDown_ended {r : Rtc} (h : r.countdown = 0) : r.countDown r.cdEvent = r := by
  cases r
  subst h
  rfl

/-- The countdown writes the RTC, and an event. -/
theorem State.sansMail_countdown (s : State) : ∃ e, s.countdown.sansMail = (s.setRtc (s.rtc.countDown e)).sansMail := by
  unfold State.countdown
  dsimp only
  by_cases h0 : s.rtc.countdown = 0
  · exact ⟨s.rtc.cdEvent, by rw [if_pos h0, Rtc.countDown_ended h0]; rfl⟩
  · unfold Rtc.countDown
    rw [if_neg h0]
    by_cases h1 : s.rtc.countdown = 1
    · rw [if_pos h1, State.sansMail_raise_if]
      exact ⟨_, by rw [h1]; rfl⟩
    · rw [if_neg h1]
      exact ⟨s.rtc.cdEvent, by rw [if_neg h0, if_neg h1]⟩

/-- What a second boundary ends with: the countdown's part of the RTC, and the Almanac's. -/
theorem State.rtc_boundaryEnd (s : State) : ∃ e o b, s.countdown.almanac.rtc = { s.rtc.countDown e with offset := o, summer := b } := by
  obtain ⟨e, he⟩ := s.sansMail_countdown
  have hr : s.countdown.rtc = s.rtc.countDown e := (congrArg State.rtc he :)
  exact ⟨e, _, _, by rw [State.rtc_almanac, hr]⟩

theorem State.utcOffset_boundaryEnd (s : State) : s.countdown.almanac.utcOffset = s.utcOffset := by
  obtain ⟨e, he⟩ := s.sansMail_countdown
  exact (congrArg State.utcOffset s.countdown.sansAlm_almanac :).trans (congrArg State.utcOffset he :)

theorem State.netNs_boundaryEnd (s : State) : s.countdown.almanac.netNs = s.netNs := by
  obtain ⟨e, he⟩ := s.sansMail_countdown
  exact (congrArg State.netNs s.countdown.sansAlm_almanac :).trans (congrArg State.netNs he :)

/-- Where the Almanac does nothing, network time and Heartwood stay. -/
theorem State.boundaryEnd_idle {s : State} (h : s.operating = false ∨ s.life.radioOn = false ∨ s.rtc.trusted = false) :
    s.countdown.almanac.time = s.time ∧ s.countdown.almanac.hw = s.hw := by
  obtain ⟨e, he⟩ := s.sansMail_countdown
  have hop : s.countdown.operating = s.operating := (congrArg State.operating he :)
  have hlife : s.countdown.life = s.life := (congrArg State.life he :)
  have htrust : s.countdown.rtc.trusted = s.rtc.trusted := (congrArg (fun t : State => t.rtc.trusted) he :)
  rw [State.almanac_idle (by rw [hop, hlife, htrust]; exact h)]
  exact ⟨(congrArg State.time he :), (congrArg State.hw he :)⟩

end Sys2Proof.Machine

namespace Sys2Proof.Machine

/-! # The adjustment of the RTC (R189) -/

/-- An adjustment needs the servo, wall time from a master, and a full window of a crystal that runs. -/
theorem State.rtcAdjust_idle {s : State} (err : Int)
    (h : s.servoRuns = false ∨ s.wallDerivable = false ∨ s.rtc.windowNet = none ∨ s.rtc.sinceAdj < 1024 ∨ s.rtc.stopped = true) :
    s.rtcAdjust err = s := by
  unfold State.rtcAdjust
  split
  · rfl
  · next began hw =>
    refine if_pos ?_
    rcases h with h | h | h | h | h
    · simp [h]
    · simp [h]
    · rw [hw] at h
      cases h
    · simp [h]
    · simp [h]

/-- The trim's bounds lie within its 12 bits. -/
theorem toInt_clampedTrim (t : Int) : (BitVec.ofInt 12 (max (-2000) (min 2000 t))).toInt = max (-2000) (min 2000 t) :=
  BitVec.toInt_ofInt_eq_self (by decide) (by omega) (by omega)

/-- An adjustment of the trim, or a write that waits for a whole second. -/
theorem State.rtcAdjust_made {s : State} {began : Int} (err : Int) (hruns : s.servoRuns = true) (hwall : s.wallDerivable = true)
    (hwindow : s.rtc.windowNet = some began) (hfull : 1024 ≤ s.rtc.sinceAdj) (hgoes : s.rtc.stopped = false) :
    (s.rtcAdjust err).rtc.sinceAdj = 0 ∧ (s.rtcAdjust err).rtc.sec = s.rtc.sec ∧ (s.rtcAdjust err).time = s.time ∧
      ((s.rtcAdjust err).rtc.trim = s.rtc.trim ∧ (s.rtcAdjust err).rtc.pendWrite.isSome = true ∧
          (s.rtcAdjust err).counter .rtcStep .device = s.counter .rtcStep .device + 1 ∨
        (s.rtcAdjust err).rtc.pendWrite = s.rtc.pendWrite ∧ -2000 ≤ (s.rtcAdjust err).rtc.trim.toInt ∧
          (s.rtcAdjust err).rtc.trim.toInt ≤ 2000) := by
  have made : ¬ (!s.servoRuns || !s.wallDerivable || decide (s.rtc.sinceAdj < 1024) || s.rtc.stopped) = true := by
    simp [hruns, hwall, hfull, hgoes]
  unfold State.rtcAdjust
  simp only [hwindow]
  rw [if_neg made]
  split
  · exact ⟨rfl, rfl, rfl, .inl ⟨rfl, rfl, State.counter_count_self _ _ _⟩⟩
  · refine ⟨rfl, rfl, rfl, .inr ⟨rfl, ?_⟩⟩
    dsimp only [State.setRtc]
    rw [toInt_clampedTrim]
    omega

/-! # The crystal stops and starts (R185, R193) -/

/-- The count reads the same while the crystal stands still: its prescaler is held. -/
theorem State.rtcCount_held {s u : State} (hrtc : u.rtc.sec = s.rtc.sec) (hstop : u.rtc.stopped = true)
    (hfrozen : u.rtc.frozen = s.rtc.prescaler s.clk) : u.rtcCount = s.rtcCount := by
  simp [State.rtcCount, State.rtcFrac, Rtc.prescaler, hrtc, hstop, hfrozen]

/-- What a stop of the crystal leaves of the RTC and of network time. -/
theorem State.oscStop_fields (s : State) : ∃ trusted event, s.oscStop.time = s.time ∧ s.oscStop.rtc = { s.rtc with
    frozen := s.rtc.prescaler s.clk, stopped := true, osf := true, trusted := trusted, osfEvent := event } ∧
    (s.rtc.osf = false → trusted = false) := by
  unfold State.oscStop
  dsimp only
  split
  · next hosf => exact ⟨_, _, rfl, rfl, fun h => absurd (hosf.symm.trans h) (by decide)⟩
  · split
    · simp only [State.raise_fields, State.setRtc, true_and]
      exact ⟨_, _, rfl, fun _ => rfl⟩
    · exact ⟨_, _, rfl, rfl, fun _ => rfl⟩

/-- A crystal that starts resumes the count from the prescaler held. -/
theorem State.oscStart_stopped {s : State} (h : s.rtc.stopped = true) :
    s.oscStart = s.setRtc { s.rtc with stopped := false, presc0 := s.rtc.frozen, boundary := s.clk } := if_pos h

theorem State.rtcCount_oscStart {s : State} (h : s.rtc.stopped = true) (hfrozen : s.rtc.frozen ≤ 32767) : s.oscStart.rtcCount = s.rtcCount := by
  rw [State.oscStart_stopped h]
  have hp : min 32767 s.rtc.frozen = s.rtc.frozen := Nat.min_eq_right hfrozen
  simp [State.rtcCount, State.rtcFrac, Rtc.prescaler, State.setRtc, h, hp]

end Sys2Proof.Machine

namespace Sys2Proof.Machine

/-! # O37 -/

theorem exec_rtcSecond (dt : Nat) (s : State) : exec (.rtcSecond dt) s = .next (s.tick dt).rtcSecond := rfl

theorem exec_rtcAdjust (dt : Nat) (err : Int) (s : State) : exec (.rtcAdjust dt err) s = .next ((s.tick dt).rtcAdjust err) := rfl

/-- A second boundary of a part that is not LOCKED: no leap, and the count goes on by 1. -/
theorem State.rtcSecond_unlocked {s : State} (hgoes : s.rtc.stopped = false) (hdisc : s.time.disc ≠ .locked) :
    s.rtcSecond.rtc.sec = s.rtc.sec + 1 ∧ s.rtcSecond.rtc.countdown = (if s.rtc.countdown = 0 then 0 else s.rtc.countdown - 1) ∧
      (s.rtc.countdown = 1 → s.rtcSecond.rtc.cdExpired = true) ∧
      78125 * s.rtcSecond.rtc.presc0 + s.rtcSecond.rtc.acc = s.rtc.acc + 256 * s.rtc.trim.toInt ∧ s.rtcSecond.rtc.acc.natAbs < 78125 ∧
      s.rtcSecond.rtc.boundary = s.clk ∧ s.rtcSecond.rtc.pendLocal = [] ∧ s.rtcSecond.netNs = s.netNs ∧
      (s.operating = false ∨ s.life.radioOn = false ∨ s.rtc.trusted = false → s.rtcSecond.time = s.time ∧ s.rtcSecond.hw = s.hw) := by
  obtain ⟨u, hu, hend⟩ := State.rtcSecond_counted hgoes
  rw [State.leapStep_unlocked hdisc, State.leapOffset_zero] at hend
  obtain ⟨e, o, b, hrtc⟩ := u.rtc_boundaryEnd
  have htrim := hu.trim
  have hspec := trimCycles_spec (s.rtc.acc + 256 * s.rtc.trim.toInt)
  rw [← htrim] at hspec
  have hsec : u.rtc.sec = s.rtc.sec + 1 := by rw [hu.sec, State.leapStep_unlocked hdisc]; rfl
  rw [hend, hrtc, State.netNs_boundaryEnd]
  unfold Rtc.countDown
  rw [hu.countdown]
  refine ⟨hsec, rfl, fun h1 => if_pos h1, hspec.1, hspec.2, hu.boundary, hu.pendLocal, ?_, fun hidle => ?_⟩
  · rw [hu.frame]
    rfl
  · have hop : u.operating = s.operating := by rw [hu.frame]; rfl
    have hlife : u.life = s.life := by rw [hu.frame]
    obtain ⟨htime, hhw⟩ := State.boundaryEnd_idle (s := u) (by rw [hop, hlife, hu.trusted]; exact hidle)
    rw [htime, hhw, hu.frame]
    exact ⟨rfl, rfl⟩

/-- A second boundary that makes a leap: the count moves by `k` and the UTC offset by `d`. -/
theorem State.rtcSecond_leap {s : State} {k : Nat} {d : Int} (hgoes : s.rtc.stopped = false) (hstep : s.leapStep = (k, d)) (hd : d ≠ 0) :
    s.rtcSecond.rtc.sec = s.rtc.sec + BitVec.ofNat 48 k ∧ s.rtcSecond.utcOffset = ((s.utcOffset : Int) + d).toNat := by
  obtain ⟨u, hu, hend⟩ := State.rtcSecond_counted hgoes
  rw [hstep] at hend
  have hsec : u.rtc.sec = s.rtc.sec + BitVec.ofNat 48 k := by rw [hu.sec, hstep]
  obtain ⟨e, o, b, hrtc⟩ := (u.leapOffset d).rtc_boundaryEnd
  have hutc : u.utcOffset = s.utcOffset := by rw [hu.frame]; rfl
  rw [hend, hrtc, State.utcOffset_boundaryEnd, State.utcOffset_leapOffset hd, hutc, State.rtc_leapOffset]
  exact ⟨hsec, rfl⟩

/-- Settles O37: the second boundary with and without a leap, the adjustment, and the crystal's stop and start. -/
theorem rtcCounts : Obligations.RtcCounts := by
  unfold Obligations.RtcCounts
  intro dt s m began err t last
  refine ⟨fun hgoes => ⟨fun hdisc => ?_, fun hlast hleap => ?_, fun hlast hno61 hleap hpos => ?_⟩, fun hstopped => ?_,
    fun hruns hwall hwindow hfull hgoes => ?_, fun hidle => ?_, fun hgoes => ?_, fun hstopped hfrozen => ?_⟩
  · exact ⟨t.rtcSecond, exec_rtcSecond dt s, State.rtcSecond_unlocked hgoes hdisc⟩
  · have hstep : t.leapStep = (0, 1) := by rw [State.leapStep_last hlast, hleap]; rfl
    obtain ⟨hsec, hutc⟩ := State.rtcSecond_leap hgoes hstep (by decide)
    exact ⟨t.rtcSecond, exec_rtcSecond dt s, hsec.trans (BitVec.add_zero _), by omega⟩
  · have hstep : t.leapStep = (2, -1) := by rw [State.leapStep_last hlast, hno61, hleap]; rfl
    obtain ⟨hsec, hutc⟩ := State.rtcSecond_leap hgoes hstep (by decide)
    exact ⟨t.rtcSecond, exec_rtcSecond dt s, hsec, by omega⟩
  · rw [exec_rtcSecond, State.rtcSecond_stopped hstopped]
  · exact ⟨t.rtcAdjust err, exec_rtcAdjust dt err s, State.rtcAdjust_made err hruns hwall hwindow hfull hgoes⟩
  · rw [exec_rtcAdjust, State.rtcAdjust_idle err hidle]
  · obtain ⟨trusted, event, htime, hrtc, htrusted⟩ := t.oscStop_fields
    refine ⟨t.oscStop, rfl, by rw [hrtc], by rw [hrtc], State.rtcCount_held ?_ ?_ ?_, fun hosf => ?_, htime⟩
    · rw [hrtc]
    · rw [hrtc]
    · rw [hrtc]
    · rw [hrtc]
      exact htrusted hosf
  · refine ⟨t.oscStart, rfl, ?_, State.rtcCount_oscStart hstopped hfrozen, ?_, ?_⟩
    · rw [State.oscStart_stopped hstopped]
      rfl
    · rw [State.oscStart_stopped hstopped]
      rfl
    · rw [State.oscStart_stopped hstopped]
      rfl

end Sys2Proof.Machine

namespace Sys2Proof.Machine

/-! # Words of the packet memory, cells that leave it, pages of Heartwood (R231, R233, R253, R472) -/

/-! ## What the pool's size and reservations rest on (R243, R535) -/

theorem State.noDram_of_life {s u : State} (h : u.life = s.life) : u.noDram = s.noDram := by
  simp only [State.noDram, h]

theorem State.poolCells_of_life {s u : State} (h : u.life = s.life) : u.poolCells = s.poolCells := by
  unfold State.poolCells State.noDram State.cfgN State.cfg State.recs
  rw [h]

/-- An event entered in a mailbox's ring does not open or close it. -/
theorem State.isOpen_deliverTo (s : State) (e : Event) (lost : Bool) (m k : Nat) :
    ((s.deliverTo e lost m).mbox.getD k {}).isOpen = (s.mbox.getD k {}).isOpen := by
  have hring : ((s.mbox.getD m {}).enter e lost).1.isOpen = (s.mbox.getD m {}).isOpen := by
    unfold MboxSt.enter
    dsimp only
    split <;> rfl
  have hset : ((s.mbox.set m ((s.mbox.getD m {}).enter e lost).1).getD k {}).isOpen = (s.mbox.getD k {}).isOpen := by
    rw [Tbl.getD_set]
    split
    · next hk => rw [hring, hk]
    · rfl
  unfold State.deliverTo
  dsimp only
  split
  · split <;> exact hset
  · rfl

theorem State.isOpen_raise (s : State) (code : Nat) (w : Option Nat) (data : Octets) (k : Nat) :
    ((s.raise code w data).mbox.getD k {}).isOpen = (s.mbox.getD k {}).isOpen := by
  unfold State.raise
  dsimp only
  split
  · exact foldl_keeps _ (fun s => (s.mbox.getD k {}).isOpen) (fun s m => s.isOpen_deliverTo _ _ m k) _ s
  · unfold State.hold
    split <;> rfl

theorem State.resSum_of_isOpen {s u : State} (hl : u.life = s.life) (hm : (u.mbox.getD 1 {}).isOpen = (s.mbox.getD 1 {}).isOpen) :
    u.resSum = s.resSum := by
  have hres : u.acctRes = s.acctRes := by
    funext a
    unfold State.acctRes State.noDramAcct State.noDram State.cfg State.recs
    rw [hl, hm]
  simp only [State.resSum, hres]

/-! ## Cells that become free (R253) -/

section Freed
variable {s : State} {c : Nat}

theorem State.cellFreed_of_retired (h : c ∈ s.queues.retired) : s.cellFreed c = s := by
  unfold State.cellFreed
  exact if_pos (by simp [h])

/-- A cell of a marked block is retired while at most 1 in 100 is and the reservations still find their cells. -/
theorem State.cellFreed_retires (hm : c / 7 ∈ s.queues.marked) (hr : c ∉ s.queues.retired) (hc : c < s.poolCells)
    (hshare : 100 * (s.queues.retired.length + 1) ≤ s.poolCells) (hres : s.queues.retired.length + 1 + s.resSum ≤ s.poolCells) :
    s.cellFreed c = { s with queues := { s.queues with retired := s.queues.retired ++ [c] } }.count .cellRetired .device := by
  have hlim : ¬ (decide (s.poolCells / 100 < s.queues.retired.length + 1) ||
      decide (s.poolCells < s.queues.retired.length + 1 + s.resSum)) = true := by
    simp only [Bool.or_eq_true, decide_eq_true_eq]
    omega
  unfold State.cellFreed
  dsimp only
  rw [if_neg (by simp [hm, hr, hc])]
  exact if_neg hlim

/-- Beyond that share it goes on serving, and the loss is told once. -/
theorem State.cellFreed_withheld (hm : c / 7 ∈ s.queues.marked) (hr : c ∉ s.queues.retired) (hc : c < s.poolCells)
    (hshare : s.poolCells < 100 * (s.queues.retired.length + 1)) :
    s.cellFreed c = if s.queues.degradedRaised then s
      else { s with queues := { s.queues with degradedRaised := true } }.raise 0x0902 none (toBe 2 s.queues.retired.length) := by
  have hlim : (decide (s.poolCells / 100 < s.queues.retired.length + 1) ||
      decide (s.poolCells < s.queues.retired.length + 1 + s.resSum)) = true := by
    simp only [Bool.or_eq_true, decide_eq_true_eq]
    omega
  unfold State.cellFreed
  dsimp only
  rw [if_neg (by simp [hm, hr, hc])]
  exact if_pos hlim

/-- One cell retired is one cell less in the shared pool. -/
theorem State.sharedSize_retired (hres : s.queues.retired.length + 1 + s.resSum ≤ s.poolCells) :
    (State.count { s with queues := { s.queues with retired := s.queues.retired ++ [c] } } .cellRetired .device).sharedSize + 1 =
      s.sharedSize := by
  have hsize : (State.count { s with queues := { s.queues with retired := s.queues.retired ++ [c] } } .cellRetired .device).sharedSize =
      s.poolCells - (s.queues.retired ++ [c]).length - s.resSum := rfl
  rw [hsize, State.sharedSize, List.length_append, List.length_singleton]
  omega

theorem State.cellFreed_withheld_spec (hm : c / 7 ∈ s.queues.marked) (hr : c ∉ s.queues.retired) (hc : c < s.poolCells)
    (hshare : s.poolCells < 100 * (s.queues.retired.length + 1)) :
    (s.cellFreed c).queues.degradedRaised = true ∧ (s.cellFreed c).sharedSize = s.sharedSize ∧
      (s.cellFreed c).queues.retired = s.queues.retired := by
  rw [State.cellFreed_withheld hm hr hc hshare]
  split
  · next hraised => exact ⟨hraised, rfl, rfl⟩
  · refine ⟨by simp, ?_, by simp⟩
    have hlife : (State.raise { s with queues := { s.queues with degradedRaised := true } } 0x0902 none
        (toBe 2 s.queues.retired.length)).life = s.life := by simp
    simp only [State.sharedSize, State.raise_fields]
    rw [State.poolCells_of_life hlife, State.resSum_of_isOpen hlife (State.isOpen_raise _ _ _ _ _)]

end Freed

/-! ## Words corrected and blocks marked (R231, R253) -/

theorem State.marked_markBlock {s : State} {c : Nat} (hc : c < s.poolCells) : c / 7 ∈ (s.markBlock c).queues.marked := by
  unfold State.markBlock
  split
  · next h => simpa [Nat.not_le.2 hc] using h
  · simp

theorem State.markBlock_eq (s : State) (c : Nat) :
    s.markBlock c = { s with queues := { s.queues with marked := (s.markBlock c).queues.marked } } := by
  unfold State.markBlock
  split <;> rfl

/-- The corrected words of the last 24 h, the one read now the latest. -/
def State.correctedNow (s : State) (c : Nat) : List (Nat × Nat) :=
  (s.queues.corrected.filter fun p => decide (s.clk < p.2 + secTicks 86400)) ++ [(c / 7, s.clk)]

theorem State.length_correctedNow (s : State) (c : Nat) :
    ((s.correctedNow c).filter fun p => p.1 == c / 7).length =
      (s.queues.corrected.filter fun p => decide (s.clk < p.2 + secTicks 86400) && p.1 == c / 7).length + 1 := by
  have hlast : ([(c / 7, s.clk)].filter fun p => p.1 == c / 7) = [(c / 7, s.clk)] := List.filter_eq_self.2 (by simp)
  rw [State.correctedNow, List.filter_append, hlast, List.filter_filter, List.length_append, List.length_singleton]
  simp only [Bool.and_comm]

/-- A word of DRAM corrected is noted and counted. -/
def State.correctedNoted (s : State) (c : Nat) : State :=
  { s with queues := { s.queues with corrected := s.correctedNow c } }.count .memCeDram .device

theorem State.wordCorrected_dram {s : State} (h : s.noDram = false) (c : Nat) :
    s.wordCorrected false c = if 16 ≤ ((s.correctedNow c).filter fun p => p.1 == c / 7).length then (s.correctedNoted c).markBlock c
      else s.correctedNoted c := by
  unfold State.wordCorrected
  simp only [h, Bool.false_eq_true, if_false]
  rfl

/-- Only the words noted, the marks and Tally change; orders and accounts stand. -/
theorem State.wordCorrected_frame {s : State} (h : s.noDram = false) (c : Nat) :
    s.wordCorrected false c = { s with queues := (s.wordCorrected false c).queues, tally := (s.wordCorrected false c).tally } ∧
      (s.wordCorrected false c).queues.orders = s.queues.orders ∧ (s.wordCorrected false c).queues.used = s.queues.used ∧
      (s.wordCorrected false c).counter .memCeDram .device = s.counter .memCeDram .device + 1 := by
  rw [State.wordCorrected_dram h]
  split
  · rw [State.markBlock_eq]
    exact ⟨rfl, rfl, rfl, State.counter_count_self _ _ _⟩
  · exact ⟨rfl, rfl, rfl, State.counter_count_self _ _ _⟩

theorem State.wordCorrected_marks {s : State} {c : Nat} (h : s.noDram = false) (hc : c < s.poolCells)
    (hn : 15 ≤ (s.queues.corrected.filter fun p => decide (s.clk < p.2 + secTicks 86400) && p.1 == c / 7).length) :
    c / 7 ∈ (s.wordCorrected false c).queues.marked := by
  rw [State.wordCorrected_dram h, if_pos (by rw [s.length_correctedNow]; omega)]
  exact State.marked_markBlock (s := s.correctedNoted c) hc


/-! ## Words beyond correction (R231, R233) -/

section Dropped
variable (s : State) (p : Packet)

theorem State.lanes_dropPacket : (s.dropPacket p).lanes = s.lanes := by
  unfold State.dropPacket
  dsimp only
  split
  · rw [State.lanes_abandonRest]
    simp
  · simp

theorem State.counter_dropPacket {c : Ctr} (hc : c ∉ abandonCounters) (x : Scope) : (s.dropPacket p).counter c x = s.counter c x := by
  have hl : c ∉ cellCounters := fun h => hc (List.mem_cons_of_mem _ h)
  unfold State.dropPacket
  dsimp only
  split
  · rw [State.counter_abandonRest _ _ _ hc, State.counter_releaseChain _ _ _ _ _ hl]
  · exact State.counter_releaseChain _ _ _ _ _ hl

variable {p} in
/-- Of a packet that is not of a downstream packet nothing else is given up. -/
theorem State.dropPacket_of_notDown (h : downOf p = none) : s.dropPacket p = s.releaseChain p.acct p.cells p.chain := by
  unfold State.dropPacket
  unfold downOf at h
  dsimp only
  split
  · next hd => simp [hd] at h
  · rfl

end Dropped

section Head
variable {s : State} {q : Nat} {f : Fe} {p : Packet} {rest : List Packet}

/-- A head that has not expired is what is taken. -/
theorem State.take_of_head {k : Nat} (ho : s.order k = p :: rest) (he : s.expired p = false) : s.take k = (some p, s.setOrder k rest) := by
  have hstand : ∀ n, s.expireHead k n = s := fun n => by
    cases n with
    | zero => rfl
    | succ n =>
      unfold State.expireHead
      rw [ho]
      exact if_neg (by simp [he])
  unfold State.take
  dsimp only
  rw [hstand, ho]

/-- The state without the packet at the head of an order. -/
def State.headLost (s : State) (q : Nat) (f : Fe) (p : Packet) (rest : List Packet) : State :=
  (s.setOrder (orderKey q (feCode f)) rest).dropPacket p

theorem State.readAt_head (ho : s.order (orderKey q (feCode f)) = p :: rest) (he : s.expired p = false) :
    s.readAt (.head q f) = some { queue := q, chain := p.chain, after := s.headLost q f p rest } := by
  unfold State.readAt
  dsimp only
  rw [State.take_of_head ho he]
  rfl

theorem State.counter_headLost {c : Ctr} (hc : c ∉ abandonCounters) (x : Scope) : (s.headLost q f p rest).counter c x = s.counter c x :=
  State.counter_dropPacket _ p hc x

theorem State.life_headLost : (s.headLost q f p rest).life = s.life :=
  (State.boot_dropPacket _ p).1

theorem State.headLost_of_notDown (hd : downOf p = none) :
    (s.headLost q f p rest).order (orderKey q (feCode f)) = rest ∧ (s.headLost q f p rest).used p.acct = s.used p.acct - p.cells := by
  rw [State.headLost, State.dropPacket_of_notDown _ hd]
  exact ⟨by simp, by rw [State.used_releaseChain, if_pos rfl]; rfl⟩

end Head

section Lost
variable {s : State} {place : ReadAt} {r : Read} {c pos : Nat} {late : Bool}

/-- The packet read is lost, counted and told. -/
def Read.lost (r : Read) (c : Nat) : State := (r.after.count .memUe .device).raise 0x0901 none (toBe 2 r.queue ++ toBe 3 c)

theorem State.wordLost_beyond (hr : s.readAt place = some r) (hc : r.chain[pos]? = none) (staging : Bool) :
    s.wordLost place staging late pos = s := by
  unfold State.wordLost
  rw [hr]
  dsimp only
  rw [hc]

theorem State.wordLost_staging (hr : s.readAt place = some r) (hc : r.chain[pos]? = some c) :
    s.wordLost place true late pos = r.lost c := by
  unfold State.wordLost
  rw [hr]
  dsimp only
  rw [hc]
  rfl

theorem State.wordLost_dram (hr : s.readAt place = some r) (hc : r.chain[pos]? = some c) (hd : s.noDram = false)
    (hh : c ∈ s.queues.homed) :
    s.wordLost place false late pos =
      if late then (((r.lost c).markBlock c).count .dramLate .device).breach 3 (islandCode .ddr) else (r.lost c).markBlock c := by
  unfold State.wordLost
  rw [hr]
  dsimp only
  rw [hc]
  dsimp only
  rw [if_neg (by simp [hd, hh])]
  rfl

theorem Read.counter_lost_memUe : (r.lost c).counter .memUe .device = r.after.counter .memUe .device + 1 := by
  rw [Read.lost, State.counter_raise _ _ _ _ _ (by decide), State.counter_count_self]

theorem Read.counter_lost {d : Ctr} (hd : d ∉ lossCounters) (hn : d ≠ .memUe) (x : Scope) : (r.lost c).counter d x = r.after.counter d x := by
  rw [Read.lost, State.counter_raise _ _ _ _ _ hd, State.counter_count_ne _ _ _ hn]

theorem Read.life_lost : (r.lost c).life = r.after.life := by
  simp [Read.lost, State.count]

end Lost

/-- A word of staging beyond correction, in the packet at the head of an order. -/
theorem State.wordLost_staging_head {s : State} {q c pos : Nat} {f : Fe} {p : Packet} {rest : List Packet} {late : Bool}
    (ho : s.order (orderKey q (feCode f)) = p :: rest) (he : s.expired p = false) (hc : p.chain[pos]? = some c) :
    (s.wordLost (.head q f) true late pos).counter .memUe .device = s.counter .memUe .device + 1 ∧
      (s.wordLost (.head q f) true late pos).lanes = s.lanes ∧
      (downOf p = none → (s.wordLost (.head q f) true late pos).order (orderKey q (feCode f)) = rest ∧
        (s.wordLost (.head q f) true late pos).used p.acct = s.used p.acct - p.cells) := by
  rw [State.wordLost_staging (State.readAt_head ho he) hc]
  refine ⟨?_, ?_, fun hd => ?_⟩
  · rw [Read.counter_lost_memUe, State.counter_headLost (by decide)]
  · simp only [Read.lost, State.raise_fields]
    exact State.lanes_dropPacket _ p
  · simp only [Read.lost, State.order, State.used, State.raise_fields]
    exact State.headLost_of_notDown hd

/-- A word of DRAM beyond correction there, or one that comes late: the cell's block is marked besides. -/
theorem State.wordLost_dram_head {s : State} {q c pos : Nat} {f : Fe} {p : Packet} {rest : List Packet} (late : Bool)
    (ho : s.order (orderKey q (feCode f)) = p :: rest) (he : s.expired p = false) (hc : p.chain[pos]? = some c) (hd : s.noDram = false)
    (hh : c ∈ s.queues.homed) (hp : c < s.poolCells) :
    c / 7 ∈ (s.wordLost (.head q f) false late pos).queues.marked ∧
      (s.wordLost (.head q f) false late pos).counter .memUe .device = s.counter .memUe .device + 1 ∧
      (s.wordLost (.head q f) false late pos).counter .dramLate .device = s.counter .dramLate .device + (if late then 1 else 0) := by
  rw [State.wordLost_dram (State.readAt_head ho he) hc hd hh]
  generalize hr : ({ queue := q, chain := p.chain, after := s.headLost q f p rest } : Read) = r
  have hafter : r.after = s.headLost q f p rest := by rw [← hr]
  have hlife : (r.lost c).life = s.life := by rw [Read.life_lost, hafter, State.life_headLost]
  have hmark : c / 7 ∈ ((r.lost c).markBlock c).queues.marked := State.marked_markBlock (by rwa [State.poolCells_of_life hlife])
  have hcount : ∀ d x, ((r.lost c).markBlock c).counter d x = (r.lost c).counter d x := fun d x =>
    State.counter_of_tally (by rw [State.markBlock_eq]) d x
  have hue : (r.lost c).counter .memUe .device = s.counter .memUe .device + 1 := by
    rw [Read.counter_lost_memUe, hafter, State.counter_headLost (by decide)]
  have hlate : (r.lost c).counter .dramLate .device = s.counter .dramLate .device := by
    rw [Read.counter_lost (by decide) (by decide), hafter, State.counter_headLost (by decide)]
  cases late with
  | false => exact ⟨hmark, (hcount _ _).trans hue, ((hcount _ _).trans hlate).trans (by simp)⟩
  | true =>
    refine ⟨?_, ?_, ?_⟩
    · simpa [State.breach, State.count] using hmark
    · rw [if_pos rfl, State.breach, State.counter_raise _ _ _ _ _ (by decide), State.counter_count_ne _ _ _ (by decide), hcount, hue]
    · rw [if_pos rfl, State.breach, State.counter_raise _ _ _ _ _ (by decide), State.counter_count_self, hcount, hlate, if_pos rfl]

/-! ## Pages of Heartwood beyond correction (R472) -/

/-- The logical page of a line beyond correction moves to the least written of the free pages. -/
def State.pageMoved (s : State) (l : Nat) : State :=
  let h := { s.hw with outPages := s.hw.outPages ++ [s.hw.pageMap.getD l l] }
  { s with hw := { h with pageMap := h.pageMap.set l h.leastFree } }.count .hwPageRetired .device

theorem State.retirePage_serves {s : State} {l : Nat} (hl : l < 2944) (hf : s.hw.outPages.length < 1152) :
    s.retirePage l = if (s.pageMoved l).hw.freePages = 63 then (s.pageMoved l).raise 0x1002 none (toBe 2 (s.pageMoved l).hw.freePages)
      else s.pageMoved l := by
  unfold State.retirePage
  have hfree : s.hw.freePages ≠ 0 := by
    simp only [Heart.freePages]
    omega
  rw [if_neg (by simp [hfree, hl])]
  rfl

/-- Its own page is retired and counted, and one free page less is left. -/
theorem State.retirePage_spec {s : State} {l : Nat} (hl : l < 2944) (hf : s.hw.outPages.length < 1152) :
    (s.retirePage l).hw = { s.hw with
        outPages := s.hw.outPages ++ [s.hw.pageMap.getD l l], pageMap := (s.retirePage l).hw.pageMap } ∧
      (s.retirePage l).hw.freePages + 1 = s.hw.freePages ∧
      (s.retirePage l).counter .hwPageRetired .device = s.counter .hwPageRetired .device + 1 := by
  have hhw : (s.retirePage l).hw = (s.pageMoved l).hw := by
    rw [State.retirePage_serves hl hf]
    split <;> simp
  have hcount : (s.retirePage l).counter .hwPageRetired .device = (s.pageMoved l).counter .hwPageRetired .device := by
    rw [State.retirePage_serves hl hf]
    split
    · exact State.counter_raise _ _ _ _ _ (by decide)
    · rfl
  rw [hhw, hcount]
  refine ⟨rfl, ?_, State.counter_count_self _ _ _⟩
  have hout : (s.pageMoved l).hw.outPages.length = s.hw.outPages.length + 1 := List.length_append
  simp only [Heart.freePages, hout]
  omega

end Sys2Proof.Machine

namespace Sys2Proof.Machine

/-! # One visit of the sweep, one of the walker, a record beyond correction (R267, R269, R279, R280) -/

/-! ## Places of the sweep and the walker -/

/-- Where sweep and walker stand, the sweep's pass, and the seed of the index. -/
def TableSt.cursors (t : TableSt) : Nat × Nat × Nat × BitVec 64 := (t.sweepPos, t.sweepPass, t.walkPos, t.seed)

theorem State.cursors_putNode (s : State) (i : Nat) (n : Node) : (s.putNode i n).table.cursors = s.table.cursors := by
  rw [(s.putNode_fields i n).1]
  rfl

theorem State.cursors_touch (s : State) (d : HwDirty) : (s.touch d).table.cursors = s.table.cursors := by rw [(s.touch_eq d).1]

theorem State.node_touch (s : State) (d : HwDirty) (i : Nat) : (s.touch d).node i = s.node i :=
  State.node_of_table (congrArg State.table (s.touch_eq d).1 :) i

/-- A record cleared moves neither sweep nor walker. -/
theorem State.cursors_clearNode (s : State) (i : Nat) : (s.clearNode i).table.cursors = s.table.cursors := by
  unfold State.clearNode
  split
  · rfl
  · next n _ =>
    split
    · rfl
    · rw [(State.dropCached_fields _ i).1]
      exact State.cursors_putNode (s.unindex i n.eui) i _

theorem State.cursors_sweepState (s : State) (i : Nat) (n : Node) : (s.sweepState i n).table.cursors = s.table.cursors := by
  unfold State.sweepState
  dsimp only
  repeat' split
  all_goals simp only [State.cursors_clearNode, State.cursors_putNode]

theorem State.cursors_sweepParents (s : State) (i : Nat) : (s.sweepParents i).table.cursors = s.table.cursors := by
  unfold State.sweepParents
  split
  · rfl
  · dsimp only
    split
    · exact State.cursors_touch _ _
    · split
      · rfl
      · exact State.cursors_touch _ _

/-! ## The sweep (R267, R269, R284) -/

/-- What a visit of the sweep does with the record at its place, before it goes on. -/
def State.sweepRecord (s : State) : State :=
  match s.node s.table.sweepPos with
  | none => s
  | some n =>
    if n.state == NodeState.clearing then
      (if n.clearPass + 2 ≤ s.table.sweepPass then (s.dropLinks s.table.sweepPos).freeNode s.table.sweepPos else s.dropLinks s.table.sweepPos)
    else (s.sweepState s.table.sweepPos n).sweepParents s.table.sweepPos

theorem State.cursors_sweepRecord (s : State) : s.sweepRecord.table.cursors = s.table.cursors := by
  unfold State.sweepRecord
  split
  · rfl
  · split
    · split <;> rfl
    · exact (State.cursors_sweepParents _ _).trans (State.cursors_sweepState _ _ _)

/-- The visit: the record at its place, then one place on, the pass ending with the last. -/
theorem State.sweepVisit_eq (s : State) : s.sweepVisit = { s.sweepRecord with table := { s.sweepRecord.table with
    sweepPos := if decide (s.table.sweepPos + 1 ≥ 131072) = true then 0 else s.table.sweepPos + 1
    sweepPass := if decide (s.table.sweepPos + 1 ≥ 131072) = true then s.table.sweepPass + 1 else s.table.sweepPass } } := by
  have hpass : s.sweepRecord.table.sweepPass = s.table.sweepPass := congrArg (fun c => c.2.1) s.cursors_sweepRecord
  rw [← hpass]
  rfl

theorem State.node_sweepVisit (s : State) (i : Nat) : s.sweepVisit.node i = s.sweepRecord.node i := by
  rw [s.sweepVisit_eq]
  rfl

theorem State.hw_sweepVisit (s : State) : s.sweepVisit.hw = s.sweepRecord.hw := by rw [s.sweepVisit_eq]

theorem State.sweepVisit_inside {s : State} (h : s.table.sweepPos < 131071) :
    s.sweepVisit.table.sweepPos = s.table.sweepPos + 1 ∧ s.sweepVisit.table.sweepPass = s.table.sweepPass := by
  have hlast : ¬ decide (s.table.sweepPos + 1 ≥ 131072) = true := by simp only [decide_eq_true_eq]; omega
  rw [s.sweepVisit_eq]
  exact ⟨if_neg hlast, if_neg hlast⟩

theorem State.sweepVisit_last {s : State} (h : 131071 ≤ s.table.sweepPos) :
    s.sweepVisit.table.sweepPos = 0 ∧ s.sweepVisit.table.sweepPass = s.table.sweepPass + 1 := by
  have hlast : decide (s.table.sweepPos + 1 ≥ 131072) = true := by simp only [decide_eq_true_eq]; omega
  rw [s.sweepVisit_eq]
  exact ⟨if_pos hlast, if_pos hlast⟩

section Record
variable {s : State} {n : Node}

/-- The index of a record CLEARING since the pass before last becomes FREE, with Heartwood's entries of it. -/
theorem State.sweepRecord_frees (hn : s.node s.table.sweepPos = some n) (hs : n.state = .clearing) (hp : n.clearPass + 2 ≤ s.table.sweepPass) :
    s.sweepRecord = (s.dropLinks s.table.sweepPos).freeNode s.table.sweepPos := by
  unfold State.sweepRecord
  rw [hn]
  dsimp only
  rw [if_pos (by simp [hs]), if_pos hp]

theorem State.freeNode_spec (s : State) (i : Nat) : (s.freeNode i).node i = none ∧ (s.freeNode i).hw.ids.get i = none ∧
    (s.freeNode i).hw.nodeKeys.get i = none ∧ (s.freeNode i).hw.fc.get i = none :=
  ⟨Tbl.get_erase_self _ _, Tbl.get_erase_self _ _, Tbl.get_erase_self _ _, Tbl.get_erase_self _ _⟩

/-- The parents a record loses leave its state as it is. -/
theorem State.state_sweepParents (s : State) (i : Nat) :
    ((s.sweepParents i).node i).map (fun m => m.state) = (s.node i).map fun m => m.state := by
  unfold State.sweepParents
  split
  · rfl
  · next n hn =>
    have hset : ∀ (m : Node) (d : HwDirty), m.state = n.state →
        (((s.setNode i m).touch d).node i).map (fun m => m.state) = (s.node i).map fun m => m.state := fun m d hm => by
      rw [State.node_touch, State.node_setNode_self, hn]
      exact congrArg some hm
    dsimp only
    split
    · exact hset _ _ rfl
    · split
      · rfl
      · exact hset _ _ rfl

/-- A record past its deadline is RETIRING. -/
theorem State.sweepRecord_retires (hn : s.node s.table.sweepPos = some n) (hs : n.state = .live ∨ n.state = .quiet) {d : Nat}
    (hd : s.ageDeadline n = some d) (ht : d * 1000000000 < s.netNs) :
    (s.sweepRecord.node s.table.sweepPos).map (fun m => m.state) = some .retiring := by
  have hstate : s.sweepState s.table.sweepPos n = s.putNode s.table.sweepPos { n with state := .retiring } := by
    unfold State.sweepState
    rcases hs with hs | hs
    all_goals
      simp only [hs, hd]
      exact if_pos ht
  have hne : ¬ (n.state == NodeState.clearing) = true := by rcases hs with hs | hs <;> simp [hs]
  have hput : (s.putNode s.table.sweepPos { n with state := .retiring }).node s.table.sweepPos = some { n with state := .retiring } := by
    rw [State.node, (s.putNode_fields _ _).1]
    exact Tbl.get_set_self _ _ _
  unfold State.sweepRecord
  rw [hn]
  dsimp only
  rw [if_neg hne, State.state_sweepParents, hstate, hput]
  rfl

end Record

/-! ## The walker (R279) -/

theorem State.cursors_fixEntry (s : State) (b k : Nat) : (s.fixEntry b k).table.cursors = s.table.cursors := by
  unfold State.fixEntry
  dsimp only
  repeat' split
  all_goals rfl

theorem State.cursors_fixOverflow (s : State) (b : Nat) : (s.fixOverflow b).table.cursors = s.table.cursors := by
  unfold State.fixOverflow
  dsimp only
  split <;> rfl

theorem State.cursors_fixRecord (s : State) (i : Nat) : (s.fixRecord i).table.cursors = s.table.cursors := by
  unfold State.fixRecord
  split
  · rfl
  · dsimp only
    split
    · rfl
    · split
      · rfl
      · exact s.cursors_clearNode i

/-- A visit while no rehash goes on moves the walker one bucket on, and leaves the seed. -/
theorem State.walkVisit_spec {s : State} (h : s.table.rehash = none) :
    s.walkVisit.table.walkPos = (s.table.walkPos + 1) % 65536 ∧ s.walkVisit.table.seed = s.table.seed := by
  have hwalk : ∀ b, ((((List.range 4).foldl (fun s k => s.fixEntry b (4 * b + k)) s).fixOverflow b).fixRecord (2 * b)
      |>.fixRecord (2 * b + 1)).table.cursors = s.table.cursors := fun b => by
    rw [State.cursors_fixRecord, State.cursors_fixRecord, State.cursors_fixOverflow]
    exact foldl_keeps _ (fun s => s.table.cursors) (fun s k => s.cursors_fixEntry b (4 * b + k)) _ s
  unfold State.walkVisit
  dsimp only
  rw [if_neg (by simp [h])]
  exact ⟨rfl, congrArg (fun c => c.2.2.2) (hwalk _)⟩

/-! ## A record beyond correction (R280) -/

/-- Where Heartwood holds none, the record is cleared and counted. -/
theorem State.reload_lost {s : State} {i : Nat} {n : Node} (hn : s.node i = some n) (hs : n.state ≠ .clearing) (hi : s.hw.ids.get i = none) :
    s.reload i = (s.clearNode i).count .tableIndexLost .device := by
  unfold State.reload
  rw [hn]
  dsimp only
  rw [if_neg (by simpa using hs), hi]

end Sys2Proof.Machine

namespace Sys2Proof.Machine

/-! # Cells found stray, and the memory lost (R252, R254) -/

/-! ## The audit (R254) -/

theorem State.strays_cellFreed (s : State) (c : Nat) : (s.cellFreed c).queues.strays = s.queues.strays := by
  unfold State.cellFreed
  dsimp only
  split
  · rfl
  · split
    · split
      · rfl
      · simp
    · rfl

theorem State.strays_releaseChain (s : State) (a n : Nat) (l : List Nat) : (s.releaseChain a n l).queues.strays = s.queues.strays :=
  foldl_keeps State.cellFreed (fun s => s.queues.strays) State.strays_cellFreed l (s.release a n)

/-- Cells reclaimed leave the packets in their orders and the strays still waiting. -/
theorem State.reclaim_frame (s : State) (a n : Nat) (l : List Nat) :
    (s.reclaim a n l).queues.strays = s.queues.strays ∧ (s.reclaim a n l).queues.orders = s.queues.orders := by
  unfold State.reclaim
  dsimp only
  split
  · exact ⟨rfl, rfl⟩
  · exact ⟨s.strays_releaseChain a _ l, (s.releaseChain_frame a _ l).2.1⟩

/-- Cells an account has are all reclaimed, each counted. -/
theorem State.reclaim_spec {s : State} {a n : Nat} (hpos : 0 < n) (hn : n ≤ s.used a) :
    (s.reclaim a n).used a = s.used a - n ∧
      (s.reclaim a n).counter .cellReclaimed .device = s.counter .cellReclaimed .device + BitVec.ofNat 64 n := by
  have heq : s.reclaim a n = (s.releaseChain a n []).countN .cellReclaimed .device n := by
    unfold State.reclaim
    dsimp only
    rw [Nat.min_eq_left hn, if_neg hpos.ne']
  rw [heq]
  refine ⟨(s.used_releaseChain a n a []).trans (if_pos rfl), ?_⟩
  rw [State.counter_countN, if_pos ⟨rfl, rfl⟩, State.counter_releaseChain _ _ _ _ _ (by decide)]

/-- The strays of the queues, reclaimed, then those found besides. -/
def State.audited (s : State) (l : List (Nat × Nat)) : State :=
  l.foldl (fun s p => s.reclaim p.1 p.2)
    (s.queues.strays.foldl (fun s x => s.reclaim x.1 x.2.1 x.2.2) { s with queues := { s.queues with strays := [] } })

theorem exec_poolAudit (dt : Nat) (l : List (Nat × Nat)) (s : State) : exec (.poolAudit dt l) s = .next ((s.tick dt).audited l) := rfl

theorem State.audited_frame (s : State) (l : List (Nat × Nat)) :
    (s.audited l).queues.strays = [] ∧ (s.audited l).queues.orders = s.queues.orders :=
  ⟨(foldl_keeps _ (fun s : State => s.queues.strays) (fun s (p : Nat × Nat) => (s.reclaim_frame p.1 p.2 []).1) l _).trans
      (foldl_keeps _ (fun s : State => s.queues.strays) (fun s (x : Nat × Nat × List Nat) => (s.reclaim_frame x.1 x.2.1 x.2.2).1) _ _),
    (foldl_keeps _ (fun s : State => s.queues.orders) (fun s (p : Nat × Nat) => (s.reclaim_frame p.1 p.2 []).2) l _).trans
      (foldl_keeps _ (fun s : State => s.queues.orders) (fun s (x : Nat × Nat × List Nat) => (s.reclaim_frame x.1 x.2.1 x.2.2).2) _ _)⟩

/-- Where no stray waits, the audit of one account is its cells reclaimed. -/
theorem State.audited_single {s : State} (h : s.queues.strays = []) (a n : Nat) : s.audited [(a, n)] = s.reclaim a n := by
  have hs : { s with queues := { s.queues with strays := [] } } = s := by rw [← h]
  unfold State.audited
  rw [hs, h]
  rfl

/-! ## The memory lost while the part runs (R252) -/

theorem State.table_loadSlot (s : State) (i : Nat) (k : KeySlot) : (s.loadSlot i k).table = s.table := by
  unfold State.loadSlot
  dsimp only
  split <;> rfl

theorem State.table_deriveMbox (s : State) (m world : Nat) (key : List Nat) : (s.deriveMbox m world key).table = s.table := by
  simp only [State.deriveMbox, State.table_loadSlot]

theorem State.table_useMboxKey (s : State) (m world : Nat) (key : List Nat) : (s.useMboxKey m world key).table = s.table := by
  unfold State.useMboxKey
  dsimp only
  rw [State.table_deriveMbox, apply_ite State.table]
  exact ite_self _

/-- A mailbox of a part without an image opens with the key installed for it, and M0 without one too (R51). -/
def State.openOne (s : State) (m : Nat) : State :=
  match s.installedKey m with
  | some k => (s.openMbox m 0 0 0).useMboxKey m 0 k
  | none => if m = 0 then s.openMbox 0 0 0 0 else s

theorem State.table_openOne (s : State) (m : Nat) : (s.openOne m).table = s.table := by
  unfold State.openOne
  split
  · exact State.table_useMboxKey _ _ _ _
  · split <;> rfl

theorem State.openBare_eq (s : State) : s.openBare = (s.openOne 0).openOne 1 := rfl

theorem State.table_of_sansMail {s u : State} (h : u.sansMail = s.sansMail) : u.table = s.table := by
  have htable : ∀ v : State, v.sansMail.table = v.table := fun _ => rfl
  rw [← htable u, h, htable s]

theorem State.table_releaseEarly (s : State) : s.releaseEarly.table = s.table := by
  unfold State.releaseEarly
  exact foldl_keeps _ State.table (fun s (p : Event × Bool) => State.table_of_sansMail (s.sansMail_deliver p.1 p.2)) s.early
    { s with early := [] }

theorem State.table_raiseTraining (s : State) : s.raiseTraining.table = s.table :=
  (State.table_of_sansMail (State.sansMail_raise { s with rnd := s.rnd + 1 } 0x0903 none _)).trans rfl

theorem State.table_eraseSlots (s : State) (l : List Nat) : (s.eraseSlots l).table = s.table :=
  foldl_keeps State.eraseSlot State.table (fun _ _ => rfl) l s

/-- Without its memory the part holds no record. -/
theorem State.nodes_dramLost {s : State} (h : s.operating = true) : s.dramLost.table.nodes = [] := by
  unfold State.dramLost
  rw [if_neg (by simp [h])]
  extract_lets closed halted _ _ bare erased _ forgotten
  have herased : erased.table = bare.table := bare.table_eraseSlots (bare.readySlots.filter fun k => decide (8 ≤ k))
  have hforgotten : forgotten.table = erased.table := by simp only [forgotten]
  rw [State.table_raiseTraining, State.table_releaseEarly, State.openBare_eq, State.table_openOne, State.table_openOne, hforgotten, herased]

end Sys2Proof.Machine

namespace Sys2Proof.Machine

/-! # What the upkeep writes in Heartwood: the buffer, the ring's homes, Tally (R459, R461) -/

/-! ## Transactions -/

/-- A line written touches wear and page map only. -/
theorem State.hw_lineWrite (s : State) (a : Nat) :
    (s.lineWrite a).hw = { s.hw with wear := (s.lineWrite a).hw.wear, pageMap := (s.lineWrite a).hw.pageMap } := by
  unfold State.lineWrite
  dsimp only
  repeat' split
  all_goals rfl

/-- A part of Heartwood that no entry of a transaction writes, nor the ring, stands after it. -/
theorem State.journal_keeps {γ : Type} (π : Heart → γ) {l : List HwItem} (s : State)
    (hframe : ∀ (h : Heart) w m r e p, π { h with wear := w, pageMap := m, ring := r, head := e, pass := p } = π h)
    (hl : ∀ x ∈ l, ∀ h : Heart, π (h.apply x) = π h) : π (s.journal l).hw = π s.hw := by
  have happly : ∀ (l : List HwItem), (∀ x ∈ l, ∀ h : Heart, π (h.apply x) = π h) → ∀ h : Heart, π (l.foldl Heart.apply h) = π h :=
    fun l => by
      induction l with
      | nil => exact fun _ _ => rfl
      | cons x t ih =>
        exact fun hx h => (ih (fun y hy => hx y (List.mem_cons_of_mem _ hy)) _).trans (hx x List.mem_cons_self h)
  unfold State.journal
  split
  · rfl
  · dsimp only
    have hring := hframe (l.foldl Heart.apply (s.lineWrite (0x780000 + 16 * s.hw.head)).hw)
    refine (hring _ _ _ _ _).trans ((happly l hl _).trans ?_)
    rw [s.hw_lineWrite]
    exact hframe s.hw _ _ s.hw.ring s.hw.head s.hw.pass

/-- The item of the coalescing buffer that an entry is written for. -/
def HwItem.item : HwItem → Option HwDirty
  | .nodeState i _ _ _ => some (.nodeState i)
  | .nodePlace i _ => some (.nodePlace i)
  | .nodeSec i _ => some (.nodeSec i)
  | .parents i _ => some (.parents i)
  | .canopy _ => some .canopy
  | .almEval _ _ => some .almEval
  | .increment _ _ => some .increment
  | .utcOffset _ => some .utcOffset
  | .discipline _ => some .discipline
  | .nodeNew .. | .pending .. | .duty .. => none

theorem State.item_of_mem_hwItems {s : State} {d : HwDirty} {x : HwItem} (hx : x ∈ s.hwItems d) : x.item = some d := by
  unfold State.hwItems at hx
  cases d
  all_goals
    dsimp only at hx
    repeat' split at hx
  all_goals simp only [List.mem_singleton, List.not_mem_nil] at hx
  all_goals rw [hx, HwItem.item]

/-- Configuration floor and zeroisation count no entry writes; increment and discipline each its own alone. -/
theorem Heart.apply_settings (h : Heart) (x : HwItem) :
    (h.apply x).floor = h.floor ∧ (h.apply x).zeroCount = h.zeroCount ∧
      (x.item ≠ some .increment → (h.apply x).increment = h.increment) ∧ (x.item ≠ some .discipline → (h.apply x).disc = h.disc) := by
  cases x with
  | nodeState i =>
    unfold Heart.apply
    dsimp only
    cases h.ids.get i <;> exact ⟨rfl, rfl, fun _ => rfl, fun _ => rfl⟩
  | nodePlace i | nodeSec i =>
    unfold Heart.apply
    dsimp only
    cases h.nodeKeys.get i <;> exact ⟨rfl, rfl, fun _ => rfl, fun _ => rfl⟩
  | increment => exact ⟨rfl, rfl, fun hx => absurd rfl hx, fun _ => rfl⟩
  | discipline => exact ⟨rfl, rfl, fun _ => rfl, fun hx => absurd rfl hx⟩
  | _ => exact ⟨rfl, rfl, fun _ => rfl, fun _ => rfl⟩

/-! ## The coalescing buffer (R459) -/

/-- Without Heartwood and Tally. -/
def State.sansHw (s : State) : State := { s with hw := {}, tally := [] }

theorem State.eq_of_sansHw {s u : State} (h : u.sansHw = s.sansHw) : u = { s with hw := u.hw, tally := u.tally } :=
  congrArg (fun t : State => { t with hw := u.hw, tally := u.tally }) h

theorem State.sansHw_journal (s : State) (l : List HwItem) : (s.journal l).sansHw = s.sansHw := by
  rw [s.journal_eq]
  rfl

/-- The bins of the sub-bands as the buffer writes them, with the second of the newest (R148). -/
def State.dutyItems (s : State) : List HwItem := s.mac.duty.map fun p => .duty p.1 { p.2 with newest := s.netNs / 1000000000 }

/-- What the buffer holds is written, one transaction each, then the bins. -/
def State.bufferWritten (s : State) : State :=
  ((s.dirty.map s.hwItems).foldl State.journal { s with dirty := [] }).journal s.dutyItems

theorem State.closeBuffer_eq (s : State) :
    s.closeBuffer = if 8192 ≤ s.dirty.length then s.bufferWritten.count .hwBufferEarly .device else s.bufferWritten := by
  unfold State.closeBuffer
  simp only [ge_iff_le, decide_eq_true_eq]
  rfl

theorem State.hw_closeBuffer (s : State) : s.closeBuffer.hw = s.bufferWritten.hw := by
  rw [s.closeBuffer_eq]
  split <;> rfl

theorem State.closeBuffer_frame (s : State) :
    s.closeBuffer = { s with dirty := [], hw := s.closeBuffer.hw, tally := s.closeBuffer.tally } := by
  have hwritten : s.bufferWritten.sansHw = { s with dirty := [] }.sansHw :=
    (State.sansHw_journal _ _).trans (foldl_keeps _ State.sansHw State.sansHw_journal _ _)
  refine State.eq_of_sansHw (s := { s with dirty := [] }) ?_
  rw [s.closeBuffer_eq]
  split <;> exact hwritten

/-- A part of Heartwood that no item writes stands. -/
theorem State.closeBuffer_keeps {γ : Type} (π : Heart → γ) (s : State)
    (hframe : ∀ (h : Heart) w m r e p, π { h with wear := w, pageMap := m, ring := r, head := e, pass := p } = π h)
    (hl : ∀ (x : HwItem) (h : Heart), π (h.apply x) = π h) : π s.closeBuffer.hw = π s.hw := by
  rw [s.hw_closeBuffer]
  exact (State.journal_keeps π _ hframe fun x _ => hl x).trans
    (foldl_keeps State.journal (fun u => π u.hw) (fun u _ => u.journal_keeps π hframe fun x _ => hl x) _ { s with dirty := [] })

/-- What one step of a fold brings about, and no step ends, holds after it. -/
theorem foldl_establishes {α β : Type} {f : α → β → α} {P : α → Prop} {l : List β} {b : β} (hb : b ∈ l) (hest : ∀ a, P (f a b))
    (hkeep : ∀ a, ∀ c ∈ l, P a → P (f a c)) (a : α) : P (l.foldl f a) := by
  have hstand : ∀ (l : List β), (∀ a, ∀ c ∈ l, P a → P (f a c)) → ∀ a, P a → P (l.foldl f a) := fun l => by
    induction l with
    | nil => exact fun _ _ h => h
    | cons c t ih =>
      exact fun hk a ha => ih (fun a c hc => hk a c (List.mem_cons_of_mem _ hc)) _ (hk a c List.mem_cons_self ha)
  induction l generalizing a with
  | nil => cases hb
  | cons c t ih =>
    have ht : ∀ a, ∀ d ∈ t, P a → P (f a d) := fun a d hd => hkeep a d (List.mem_cons_of_mem _ hd)
    rcases List.mem_cons.1 hb with rfl | hb
    · exact hstand t ht _ (hest a)
    · exact ih hb ht _

/-- A setting of Heartwood that one item of the buffer writes as `v`, and no other item writes, is `v` once the buffer is written. -/
theorem State.closeBuffer_sets {γ : Type} (π : Heart → γ) {s : State} {d : HwDirty} {v : γ} (hd : d ∈ s.dirty)
    (hframe : ∀ (h : Heart) w m r e p, π { h with wear := w, pageMap := m, ring := r, head := e, pass := p } = π h)
    (hset : ∀ u : State, π (u.journal (s.hwItems d)).hw = v)
    (hother : ∀ (x : HwItem), x.item ≠ some d → ∀ h : Heart, π (h.apply x) = π h) : π s.closeBuffer.hw = v := by
  have hduty : ∀ x ∈ s.dutyItems, ∀ h : Heart, π (h.apply x) = π h := fun x hx => by
    obtain ⟨p, -, rfl⟩ := List.mem_map.1 hx
    exact hother _ nofun
  rw [s.hw_closeBuffer]
  refine (State.journal_keeps π _ hframe hduty).trans ?_
  refine foldl_establishes (P := fun u : State => π u.hw = v) (List.mem_map_of_mem hd) hset (fun u l hl hu => ?_) _
  obtain ⟨c, -, rfl⟩ := List.mem_map.1 hl
  by_cases hc : c = d
  · rw [hc]
    exact hset u
  · refine (u.journal_keeps π hframe fun x hx => hother x ?_).trans hu
    rw [State.item_of_mem_hwItems hx]
    exact fun h => hc (Option.some.inj h)

theorem State.increment_closeBuffer {s : State} (hd : .increment ∈ s.dirty) (hp : s.time.pendInc = none) :
    s.closeBuffer.hw.increment = some (s.time.incNs, s.time.incFrac) := by
  have hitems : s.hwItems .increment = [.increment s.time.incNs s.time.incFrac] := by
    unfold State.hwItems
    dsimp only
    rw [hp]
  refine State.closeBuffer_sets Heart.increment hd (fun _ _ _ _ _ _ => rfl) (fun u => ?_) fun x hx h => (h.apply_settings x).2.2.1 hx
  rw [hitems]
  rfl

theorem State.disc_closeBuffer {s : State} (hd : .discipline ∈ s.dirty) : s.closeBuffer.hw.disc = s.time.disc :=
  State.closeBuffer_sets Heart.disc hd (fun _ _ _ _ _ _ => rfl) (fun _ => rfl) fun x hx h => (h.apply_settings x).2.2.2 hx

theorem State.floor_closeBuffer (s : State) : s.closeBuffer.hw.floor = s.hw.floor :=
  s.closeBuffer_keeps Heart.floor (fun _ _ _ _ _ _ => rfl) fun x h => (h.apply_settings x).1

theorem State.zeroCount_closeBuffer (s : State) : s.closeBuffer.hw.zeroCount = s.hw.zeroCount :=
  s.closeBuffer_keeps Heart.zeroCount (fun _ _ _ _ _ _ => rfl) fun x h => (h.apply_settings x).2.1

/-! ## Tally (R459) -/

/-- Tally written is what Heartwood holds of it. -/
theorem State.writeTally_spec (s : State) :
    s.writeTally.hw.tally = s.writeTally.tally ∧ s.writeTally = { s with hw := s.writeTally.hw, tally := s.writeTally.tally } := by
  refine ⟨rfl, ?_⟩
  unfold State.writeTally
  dsimp only
  rw [s.lineWrite_eq]

end Sys2Proof.Machine

namespace Sys2Proof.Machine

/-! # The memories' upkeep, and O48 -/

/-- A fault of a unit reaches a part that runs. -/
theorem exec_unitFault {dt : Nat} {s : State} (h : (s.tick dt).powered = true) (u : FaultUnit) :
    exec (.unitFault dt u) s = .next ((s.tick dt).unitFault u) :=
  congrArg Host.Outcome.next (if_pos h)

section Operating
variable {dt : Nat} {s : State}

theorem exec_ageingSweepVisit (h : (s.tick dt).operating = true) : exec (.ageingSweepVisit dt) s = .next (s.tick dt).sweepVisit :=
  congrArg Host.Outcome.next (if_pos h)

theorem exec_shadowWalkerVisit (h : (s.tick dt).operating = true) : exec (.shadowWalkerVisit dt) s = .next (s.tick dt).walkVisit :=
  congrArg Host.Outcome.next (if_pos h)

theorem exec_recordUncorrectable (h : (s.tick dt).operating = true) (i : Nat) :
    exec (.recordUncorrectable dt i) s = .next ((s.tick dt).reload i) :=
  congrArg Host.Outcome.next (if_pos h)

/-- A background training that fails loses the memory. -/
theorem exec_dramRetrain_fails (h : bitOf ((s.tick dt).cfgN 0x0C 0 11 1 1) 0 = true) :
    exec (.dramRetrain dt false) s = .next (s.tick dt).dramLost :=
  congrArg Host.Outcome.next (if_pos (by rw [h]; rfl))

theorem exec_bufferClose (h : (s.tick dt).journals = true)
    (hr : (s.tick dt).hw.unhomed + (s.tick dt).dirty.length + (s.tick dt).mac.duty.length < 262144) :
    exec (.bufferClose dt) s = .next (s.tick dt).closeBuffer :=
  congrArg Host.Outcome.next (if_pos (by rw [h, decide_eq_true hr]; rfl))

theorem exec_homing (h : (s.tick dt).hwWrites = true) : exec (.homing dt) s = .next (s.tick dt).homeAll :=
  congrArg Host.Outcome.next (if_pos h)

theorem exec_tallyJournal (h : (s.tick dt).journals = true) : exec (.tallyJournal dt) s = .next (s.tick dt).writeTally :=
  congrArg Host.Outcome.next (if_pos h)

end Operating

/-- Settles O48: the rows of upkeep, then the faults of words, cells and pages, each by what its operation does. -/
theorem memoryUpkeep : Obligations.MemoryUpkeep := by
  unfold Obligations.MemoryUpkeep
  refine ⟨fun dt s n i a k => ?_, fun dt s q c l late f p rest => ?_⟩
  · intro t pos
    refine ⟨fun hop => ?sweep, fun hop hr => ?walker, fun hop hn hs hi => ?record, fun l => ?audit, fun hk hu hz => ?stray,
      ⟨rfl, fun hop hb => ?training⟩, fun hj hroom => ?buffer, fun hw => ?homes, fun hj => ?tally⟩
    case sweep =>
      refine ⟨t.sweepVisit, exec_ageingSweepVisit hop, State.sweepVisit_inside, State.sweepVisit_last,
        fun hn => ⟨fun hs hp => ?_, fun hs d hd ht => ?_⟩⟩
      · rw [State.node_sweepVisit, State.hw_sweepVisit, State.sweepRecord_frees hn hs hp]
        exact State.freeNode_spec _ _
      · rw [State.node_sweepVisit]
        exact State.sweepRecord_retires hn hs hd ht
    case walker => exact ⟨t.walkVisit, exec_shadowWalkerVisit hop, State.walkVisit_spec hr⟩
    case record =>
      obtain ⟨hstate, -, htally⟩ := State.clearNode_spec hn hs
      refine ⟨t.reload i, exec_recordUncorrectable hop i, ?_, ?_⟩
      · rw [State.reload_lost hn hs hi]
        exact hstate
      · rw [State.reload_lost hn hs hi, State.counter_count_self, State.counter_of_tally htally]
    case audit => exact ⟨t.audited l, exec_poolAudit dt l s, t.audited_frame l⟩
    case stray =>
      obtain ⟨hused, hcount⟩ := State.reclaim_spec hk hu
      refine ⟨t.audited [(a, k)], exec_poolAudit dt _ s, ?_, (t.audited_frame _).2, ?_⟩
      · rw [State.audited_single hz, hused]
      · rw [State.audited_single hz, hcount]
    case training =>
      obtain ⟨hflash, hlife⟩ := State.dramLost_fields hop
      exact ⟨t.dramLost, exec_dramRetrain_fails hb, by rw [hlife], by rw [hlife], by rw [hlife], State.nodes_dramLost hop, by rw [hlife],
        hflash⟩
    case buffer =>
      have hframe := t.closeBuffer_frame
      exact ⟨t.closeBuffer, exec_bufferClose hj hroom, by rw [hframe], hframe, t.floor_closeBuffer, t.zeroCount_closeBuffer,
        State.increment_closeBuffer, State.disc_closeBuffer⟩
    case homes => exact ⟨t.homeAll, exec_homing hw, rfl, rfl, rfl, rfl, rfl, rfl⟩
    case tally => exact ⟨t.writeTally, exec_tallyJournal hj, t.writeTally_spec⟩
  · intro t m hp
    refine ⟨fun ho he => ⟨fun hc => ?staging, fun hc hd hh hpool => ?dram, fun hc => ?beyond⟩, ?corrected, fun hd => ?words, fun hc => ?held,
      fun hm hpool hr hc => ⟨fun hshare hres => ?retired, fun hshare => ?withheld⟩, fun hl hf => ?page⟩
    case staging => exact ⟨_, exec_unitFault hp _, State.wordLost_staging_head ho he hc⟩
    case dram => exact ⟨_, exec_unitFault hp _, State.wordLost_dram_head late ho he hc hd hh hpool⟩
    case beyond => exact (exec_unitFault hp _).trans (congrArg _ (State.wordLost_beyond (State.readAt_head ho he) hc true))
    case corrected => exact exec_unitFault hp _
    case words =>
      obtain ⟨hframe, horders, hused, hcount⟩ := State.wordCorrected_frame hd c
      exact ⟨_, exec_unitFault hp _, hframe, horders, hused, hcount, State.wordCorrected_marks hd⟩
    case held =>
      refine (exec_unitFault hp _).trans (congrArg _ ?_)
      by_cases hheld : c ∈ t.cellsHeld
      · exact if_pos (by simpa using hheld)
      · exact (if_neg (by simpa using hheld)).trans (State.cellFreed_of_retired (hc.resolve_left hheld))
    case retired =>
      have hfreed : t.unitFault (.cellFree c) = t.cellFreed c := if_neg (by simpa using hc)
      refine ⟨_, exec_unitFault hp _, ?_, ?_, ?_⟩
      all_goals rw [hfreed, State.cellFreed_retires hm hr hpool hshare hres]
      · rfl
      · exact State.sharedSize_retired hres
      · exact State.counter_count_self _ _ _
    case withheld =>
      have hfreed : t.unitFault (.cellFree c) = t.cellFreed c := if_neg (by simpa using hc)
      refine ⟨_, exec_unitFault hp _, ?_⟩
      rw [hfreed]
      exact State.cellFreed_withheld_spec hm hr hpool hshare
    case page => exact ⟨_, exec_unitFault hp _, State.retirePage_spec hl hf⟩

end Sys2Proof.Machine

namespace Sys2Proof.Machine

/-! # Thermal step 1 and a half of the lanes that is already stopped (R503, Table 18.8) -/

/-- An EPB7224 in OPERATE with no thermal step in force: its lane domains are powered, and the lanes of the second half already stand stopped,
as step 1 leaves them. -/
def secondHalfStopped : State :=
  { State.reset with
    id := { variant := .epb7224 }
    life := { lcs := .operate, mode := .operate }
    domA := { powered := true }
    domB := { powered := true, stopped := true } }

/-- At 121 °C, between the first two entry values, that part enters step 1; `stopDom` has no lane to stop, and no power-down begins. -/
theorem secondHalfStopped_entersStep1 :
    let t := secondHalfStopped.tick 0
    t.life.mode = .operate ∧ t.isl.step = 0 ∧ t.stepOn 1 ≤ 121 ∧ 121 < t.stepOn 2 ∧ t.domB = { powered := true, stopped := true } ∧
      (t.thermal 121 Tests.env).isl.step = 1 ∧ (t.thermal 121 Tests.env).domB.stopping = none := by
  decide +kernel

/-- Refutes O50: its clause on thermal step 1 has a powered second half begin its power-down whenever it neither stops nor returns, but does not
ask that its lanes still run; the statement speaks of every state, whether or not a start leads to it.  In `secondHalfStopped` they stand stopped,
and step 1 leaves the domain as it is. -/
theorem not_faultsAndThermalSteps : ¬ Obligations.FaultsAndThermalSteps := by
  unfold Obligations.FaultsAndThermalSteps
  rintro ⟨-, hthermal⟩
  obtain ⟨hmode, hstep, hon1, hon2, hdom, -, hnone⟩ := secondHalfStopped_entersStep1
  obtain ⟨-, hstep1, -⟩ := hthermal 0 secondHalfStopped 121 Tests.env hmode hstep
  obtain ⟨u, hu, -, -, -, hstops⟩ := hstep1 hon1 hon2 (by decide)
  have heq : (secondHalfStopped.tick 0).thermal 121 Tests.env = u := Host.Outcome.next.inj hu
  obtain ⟨hstopping, -⟩ := hstops (by rw [hdom]) (by rw [hdom]) (by rw [hdom])
  rw [← heq, hnone] at hstopping
  cases hstopping

end Sys2Proof.Machine

namespace Sys2Proof.Machine

/-! # The node table's commands on one record (R275, R439, Tables 10.9 and 15.4), and O15 -/

/-! ## What a mailbox sees -/

/-- Table 10.9, row by row. -/
theorem State.visible_iff (s : State) (w : Nat) (n : Node) :
    s.visible w n = true ↔ n.state = .joining ∧ w = 0 ∨
      (n.state = .live ∨ n.state = .quiet ∨ n.state = .retiring) ∧ s.current n = true ∧ (w = 0 ∨ n.world = w) := by
  unfold State.visible
  cases n.state <;> simp

theorem State.visible_clearing {s : State} {n : Node} (w : Nat) (h : n.state = .clearing) : s.visible w n = false := by
  simp [State.visible, h]

theorem State.seek_eq_some_iff {s : State} {w i : Nat} {eui : BitVec 64} {n : Node} :
    s.seek w eui = some (i, n) ↔ s.findEui eui = some i ∧ s.node i = some n ∧ s.visible w n = true := by
  constructor
  · intro h
    unfold State.seek at h
    split at h
    · next j hfind =>
      split at h
      · next x hn =>
        split at h
        · next hseen =>
          cases h
          exact ⟨hfind, hn, hseen⟩
        · cases h
      · cases h
    · cases h
  · rintro ⟨hfind, hn, hseen⟩
    simp [State.seek, hfind, hn, hseen]

/-- The index finds a record only by the EUI-64 the record holds. -/
theorem State.eui_of_findEui {s : State} {eui : BitVec 64} {i : Nat} {n : Node} (h : s.findEui eui = some i) (hn : s.node i = some n) :
    n.eui = eui := by
  have hfound := List.find?_some h
  simpa [hn] using hfound

/-- A record that has become CLEARING is seen by no mailbox. -/
theorem State.seek_ne_of_clearing {s : State} {w i k : Nat} {eui : BitVec 64} {x : Node}
    (hstate : (s.node i).map (fun n => n.state) = some .clearing) (h : s.seek w eui = some (k, x)) : k ≠ i := by
  rintro rfl
  obtain ⟨-, hx, hseen⟩ := State.seek_eq_some_iff.mp h
  have hclearing : x.state = .clearing := by simpa [hx] using hstate
  rw [State.visible_clearing w hclearing] at hseen
  cases hseen

/-- NODE-REMOVE's write on a record that its mailbox sees. -/
theorem State.clearNode_of_seek {s : State} {w i : Nat} {eui : BitVec 64} {n : Node} (h : s.seek w eui = some (i, n)) :
    ((s.clearNode i).node i).map (fun x => x.state) = some .clearing := by
  obtain ⟨-, hn, hseen⟩ := State.seek_eq_some_iff.mp h
  have hstate : n.state ≠ .clearing := fun hc => by
    rw [State.visible_clearing w hc] at hseen
    cases hseen
  exact (State.clearNode_spec hn hstate).1

/-! ## The commands -/

theorem exec_nodeSearch {dt : Nat} {m : Mbox} {s : State} {r : Request} (h : (s.tick dt).runsLen m 0x0301 8 r) :
    exec (.nodeSearch dt m) s = .next (((s.tick dt).afterReq m).nodeSearch m r) :=
  congrArg Host.Outcome.next (State.shortCmd_of_runsLen h _)

theorem exec_nodeRemove {dt : Nat} {m : Mbox} {s : State} {r : Request} (h : (s.tick dt).runsLen m 0x0303 8 r) :
    exec (.nodeRemove dt m) s = .next (((s.tick dt).afterReq m).nodeRemove m r) :=
  congrArg Host.Outcome.next (State.shortCmd_of_runsLen h _)

theorem exec_linkGet {dt : Nat} {m : Mbox} {s : State} {r : Request} (h : (s.tick dt).runsLen m 0x0306 8 r) :
    exec (.linkGet dt m) s = .next (((s.tick dt).afterReq m).linkGet m r) :=
  congrArg Host.Outcome.next (State.shortCmd_of_runsLen h _)

section Seen
variable {s : State} {m i : Nat} {r : Request} {n : Node} (h : s.seek (s.mb m).world r.eui = some (i, n))
include h

theorem State.nodeSearch_seen : s.nodeSearch m r = s.respond m r sOk (nodeView (s.mb m).world i n) := by
  simp only [State.nodeSearch, h]

theorem State.nodeRemove_seen : s.nodeRemove m r = (s.clearNode i).respond m r sOk [] := by
  simp only [State.nodeRemove, h]

/-- The three pipelines in their order, then u in four octets, then the acknowledged share (log entry 57). -/
theorem State.linkGet_seen : s.linkGet m r = s.respond m r sOk (s.linkView i .sa ++ s.linkView i .sb ++ s.linkView i .h ++
    toBe 4 (s.canopy.meas.getD i {}).u ++ toBe 2 (s.canopy.meas.getD i {}).ackPm) := by
  simp [State.linkGet, h, feAll]

end Seen

section Unseen
variable {s : State} {m : Nat} {r : Request} (h : s.seek (s.mb m).world r.eui = none)
include h

theorem State.nodeSearch_unseen : s.nodeSearch m r = s.respond m r sNotFound [] := by
  simp only [State.nodeSearch, h]

theorem State.nodeRemove_unseen : s.nodeRemove m r = s.respond m r sNotFound [] := by
  simp only [State.nodeRemove, h]

theorem State.linkGet_unseen : s.linkGet m r = s.respond m r sNotFound [] := by
  simp only [State.linkGet, h]

end Unseen

/-- Settles O15: a record is sought through the index and shown by Table 10.9; each command by whether the mailbox sees the record. -/
theorem nodeCommandsSeeVisibleNodes : Obligations.NodeCommandsSeeVisibleNodes := by
  unfold Obligations.NodeCommandsSeeVisibleNodes
  constructor
  · intro s w i eui n h
    obtain ⟨hfind, hn, hseen⟩ := State.seek_eq_some_iff.mp h
    refine ⟨hfind, hn, State.eui_of_findEui hfind hn, ?_⟩
    rcases (s.visible_iff w n).mp hseen with ⟨hjoining, hw⟩ | ⟨hstate, hcurrent, hworld⟩
    · exact ⟨fun hne => absurd hw hne, .inl ⟨hjoining, hw⟩⟩
    · exact ⟨hworld.resolve_left, .inr ⟨hstate, hcurrent⟩⟩
  · intro dt m s r t eui w
    refine ⟨fun h => ⟨fun i n hs => ?found, fun hs => ?notFound⟩, fun h => ⟨fun i n hs => ?removed, fun hs => ?notRemoved⟩,
      fun h => ⟨fun i n hs => ?heard, fun hs => ?notHeard⟩⟩
    case found =>
      rw [exec_nodeSearch h, State.nodeSearch_seen hs]
      rfl
    case notFound => rw [exec_nodeSearch h, State.nodeSearch_unseen hs]
    case removed =>
      have hstate := State.clearNode_of_seek hs
      exact ⟨t.clearNode i, by rw [exec_nodeRemove h, State.nodeRemove_seen hs], hstate, fun k x => State.seek_ne_of_clearing hstate⟩
    case notRemoved => rw [exec_nodeRemove h, State.nodeRemove_unseen hs]
    case heard => rw [exec_linkGet h, State.linkGet_seen hs]
    case notHeard => rw [exec_linkGet h, State.linkGet_unseen hs]

end Sys2Proof.Machine

namespace Sys2Proof.Machine

/-! # NODE-NEXT, TABLE-FLUSH-WORLD and REHASH (R276 to R278), and O16 -/

/-! ## The walk -/

/-- The cursor after a walk of at most `n` records that has returned `l` (R276; log entry 50). -/
def cursorAfter (n : Nat) (l : List (Nat × Node)) : Nat :=
  match l.getLast? with
  | some p => if l.length = n then p.1 + 1 else 131072
  | none => 131072

theorem cursorAfter_of_short {n : Nat} {l : List (Nat × Node)} (h : l.length < n) : cursorAfter n l = 131072 := by
  unfold cursorAfter
  split
  · exact if_neg h.ne
  · rfl

theorem cursorAfter_of_full {n : Nat} {l : List (Nat × Node)} {p : Nat × Node} (hlast : l.getLast? = some p) (h : l.length = n) :
    cursorAfter n l = p.1 + 1 := by
  simp [cursorAfter, hlast, h]

/-- The record at an index is one that a walk from `cursor` may return to a mailbox of world `w`. -/
def State.walks (s : State) (w cursor filter : Nat) (p : Nat × Node) : Prop :=
  cursor ≤ p.1 ∧ s.visible w p.2 = true ∧ (filter = 0xFF ∨ p.2.world = filter)

section Walk
variable {s : State} {w cursor filter n : Nat}

theorem State.nodesFrom_length_le : (s.nodesFrom w cursor filter n).length ≤ n := List.length_take_le _ _

theorem State.nodesFrom_sublist : (s.nodesFrom w cursor filter n).Sublist s.table.nodes :=
  (List.take_sublist _ _).trans List.filter_sublist

theorem State.walks_of_mem_nodesFrom {p : Nat × Node} (h : p ∈ s.nodesFrom w cursor filter n) : s.walks w cursor filter p := by
  have hp := (List.mem_filter.mp (List.mem_of_mem_take h)).2
  simpa [State.walks, and_assoc] using hp

/-- A walk that returns fewer records than asked for has left none out. -/
theorem State.mem_nodesFrom_of_short {p : Nat × Node} (h : (s.nodesFrom w cursor filter n).length < n) (hp : p ∈ s.table.nodes)
    (hw : s.walks w cursor filter p) : p ∈ s.nodesFrom w cursor filter n := by
  unfold State.nodesFrom at h ⊢
  rw [List.length_take] at h
  rw [List.take_of_length_le (by omega)]
  exact List.mem_filter.mpr ⟨hp, by simpa [State.walks, and_assoc] using hw⟩

end Walk

theorem exec_nodeNext {dt : Nat} {m : Mbox} {s : State} {r : Request} (h : (s.tick dt).runsLen m 0x0302 6 r) :
    exec (.nodeNext dt m) s = .next (((s.tick dt).afterReq m).nodeNext m r) :=
  congrArg Host.Outcome.next (State.shortCmd_of_runsLen h _)

theorem State.nodeNext_range {s : State} {r : Request} (m : Nat)
    (h : beField r.payload 5 1 = 0 ∨ 32 < beField r.payload 5 1 ∨ 7 < beField r.payload 4 1 ∧ beField r.payload 4 1 ≠ 0xFF) :
    s.nodeNext m r = s.respond m r sRange [] :=
  if_pos h

/-- The records a walk of request `r` returns to its mailbox. -/
def State.walked (s : State) (m : Nat) (r : Request) : List (Nat × Node) :=
  s.nodesFrom (s.mb m).world (beField r.payload 0 4) (beField r.payload 4 1) (beField r.payload 5 1)

theorem State.nodeNext_walks {s : State} {r : Request} (m : Nat) (hleast : 1 ≤ beField r.payload 5 1) (hmost : beField r.payload 5 1 ≤ 32)
    (hfilter : beField r.payload 4 1 ≤ 7 ∨ beField r.payload 4 1 = 0xFF) :
    s.nodeNext m r = s.respond m r sOk (toBe 4 (cursorAfter (beField r.payload 5 1) (s.walked m r)) ++ toBe 1 (s.walked m r).length ++
      (s.walked m r).flatMap fun p => nodeView (s.mb m).world p.1 p.2) :=
  if_neg (by omega)

/-! ## The flush -/

theorem State.table_begin (s : State) (m : Nat) (r : Request) (first : Octets) (status : Nat) (result : Octets) :
    (s.begin m r first status result).table = s.table :=
  (congrArg State.table (s.sansAnswer_begin m r first status result) :)

/-- A command of class D begun keeps its mailbox busy. -/
theorem State.busy_begin_device {s : State} (m : Nat) {r : Request} (first : Octets) (status : Nat) (result : Octets)
    (hc : cmdClass r.opcode = some .device) :
    ∃ b, ((s.begin m r first status result).mb m).busy = some b ∧ b.req = r ∧ b.cls = .device :=
  ⟨_, State.busy_begin _ _ _ _ _ _, rfl, by simp [hc]⟩

theorem State.mb_advanceEpoch (s : State) (w m : Nat) : (s.advanceEpoch w).mb m = s.mb m := by
  unfold State.advanceEpoch State.mb
  dsimp only
  rw [s.lineWrite_eq]

theorem State.table_advanceEpoch (s : State) (w : Nat) : (s.advanceEpoch w).table =
    { s.table with epochs := s.table.epochs.set w ((s.epochOf w + 1) % 4), flushing := some w } := by
  unfold State.advanceEpoch
  dsimp only
  rw [State.table_lineWrite]

theorem State.hw_epochs_advanceEpoch (s : State) (w : Nat) : (s.advanceEpoch w).hw.epochs = (s.advanceEpoch w).table.epochs := rfl

theorem State.epochOf_advanceEpoch_self {s : State} {w : Nat} (h : w < s.table.epochs.length) :
    (s.advanceEpoch w).epochOf w = (s.epochOf w + 1) % 4 := by
  rw [State.epochOf, State.table_advanceEpoch]
  simp [h]

theorem State.epochOf_advanceEpoch_of_ne {s : State} {w v : Nat} (h : v ≠ w) : (s.advanceEpoch w).epochOf v = s.epochOf v := by
  rw [State.epochOf, State.table_advanceEpoch]
  simp [State.epochOf, List.getElem?_set_ne h.symm]

theorem State.current_iff {s : State} {n : Node} : s.current n = true ↔ n.state = .joining ∨ n.epoch = s.epochOf n.world := by
  simp [State.current]

/-- A record of the present epoch is of another once its world's epoch has advanced, as the next of four is not the same. -/
theorem State.current_advanceEpoch_self {s : State} {n : Node} (hw : n.world < s.table.epochs.length) (hstate : n.state ≠ .joining)
    (h : s.current n = true) : (s.advanceEpoch n.world).current n = false := by
  have hepoch : n.epoch = s.epochOf n.world := (State.current_iff.mp h).resolve_left hstate
  rw [Bool.eq_false_iff, ne_eq, State.current_iff, State.epochOf_advanceEpoch_self hw]
  rintro (hj | he)
  · exact hstate hj
  · omega

theorem State.current_advanceEpoch_of_ne {s : State} {n : Node} {w : Nat} (h : n.world ≠ w) : (s.advanceEpoch w).current n = s.current n := by
  rw [State.current, State.current, State.epochOf_advanceEpoch_of_ne h]

theorem State.epochOf_of_table {s u : State} (h : u.table = s.table) (w : Nat) : u.epochOf w = s.epochOf w := by
  rw [State.epochOf, State.epochOf, h]

theorem State.current_of_table {s u : State} (h : u.table = s.table) (n : Node) : u.current n = s.current n := by
  rw [State.current, State.current, State.epochOf_of_table h]

theorem exec_tableFlushWorld {dt : Nat} {m : Mbox} {s : State} {r : Request} (h : (s.tick dt).runsLen m 0x0304 1 r) :
    exec (.tableFlushWorld dt m) s = .next (((s.tick dt).afterReq m).tableFlush m r) :=
  congrArg Host.Outcome.next (State.shortCmd_of_runsLen h _)

theorem State.tableFlush_range {s : State} {r : Request} (m : Nat) (h : 7 < beField r.payload 0 1) :
    s.tableFlush m r = s.respond m r sRange [] :=
  if_pos h

theorem State.tableFlush_begins {s : State} {r : Request} (m : Nat) (h : beField r.payload 0 1 ≤ 7) :
    s.tableFlush m r = (s.begin m r [] sOk []).advanceEpoch (beField r.payload 0 1) :=
  if_neg (Nat.not_lt.mpr h)

/-! ## The rehash -/

/-- Octets read after the number `a`: each multiplies what stands by 256. -/
theorem foldl_octets_lt (o : Octets) (a : Nat) : o.foldl (fun a b => 256 * a + b.toNat) a < (a + 1) * 256 ^ o.length := by
  induction o generalizing a with
  | nil => simp
  | cons b t ih =>
    calc (b :: t).foldl (fun a b => 256 * a + b.toNat) a < (256 * a + b.toNat + 1) * 256 ^ t.length := ih _
      _ ≤ (a + 1) * 256 * 256 ^ t.length := Nat.mul_le_mul_right _ (by have := b.isLt; omega)
      _ = (a + 1) * 256 ^ (b :: t).length := by rw [List.length_cons, pow_succ, mul_assoc, mul_comm 256]

theorem beField_lt (o : Octets) (off len : Nat) : beField o off len < 256 ^ len :=
  calc beField o off len < (0 + 1) * 256 ^ (sliceOct o off len).length := foldl_octets_lt _ 0
    _ ≤ 256 ^ len := by
      rw [zero_add, one_mul]
      exact Nat.pow_le_pow_right (by decide) (List.length_take_le _ _)

/-- A seed of 8 octets is held whole. -/
theorem toNat_ofNat_beField (o : Octets) (off : Nat) : (BitVec.ofNat 64 (beField o off 8)).toNat = beField o off 8 := by
  have hlt := beField_lt o off 8
  rw [BitVec.toNat_ofNat, Nat.mod_eq_of_lt (by omega)]

/-- The seed of a REHASH, and the state once it is found: the request's, or one drawn where that is 0. -/
def State.rehashSeed (s : State) (r : Request) : BitVec 64 × State :=
  if BitVec.ofNat 64 (beField r.payload 0 8) = 0 then (s.draw.1.setWidth 64, s.draw.2) else (BitVec.ofNat 64 (beField r.payload 0 8), s)

theorem State.rehashBegin_eq (s : State) (m : Nat) (r : Request) :
    s.rehashBegin m r = { ((s.rehashSeed r).2.begin m r [] sOk []) with
      table := { ((s.rehashSeed r).2.begin m r [] sOk []).table with rehash := some (s.rehashSeed r).1 } } :=
  rfl

theorem State.table_rehashSeed (s : State) (r : Request) : (s.rehashSeed r).2.table = s.table := by
  unfold State.rehashSeed
  split <;> rfl

/-- While a rehash goes on the old index stands. -/
theorem State.table_rehashBegin (s : State) (m : Nat) (r : Request) :
    (s.rehashBegin m r).table = { s.table with rehash := some (s.rehashSeed r).1 } := by
  rw [State.rehashBegin_eq]
  dsimp only
  rw [State.table_begin, State.table_rehashSeed]

theorem State.rehashSeed_given {r : Request} (s : State) (h : beField r.payload 0 8 ≠ 0) :
    (s.rehashSeed r).1.toNat = beField r.payload 0 8 := by
  have hne : BitVec.ofNat 64 (beField r.payload 0 8) ≠ 0 := fun h0 => h (by
    rw [← toNat_ofNat_beField r.payload 0, h0]
    rfl)
  rw [State.rehashSeed, if_neg hne, toNat_ofNat_beField]

theorem exec_rehash {dt : Nat} {m : Mbox} {s : State} {r : Request} (h : (s.tick dt).runsLen m 0x0305 8 r) :
    exec (.rehash dt m) s = .next (((s.tick dt).afterReq m).rehashBegin m r) :=
  congrArg Host.Outcome.next (State.shortCmd_of_runsLen h _)

/-- Settles O16: the walk by its list, the flush by the epoch it advances, the rehash by its seed. -/
theorem nodeWalkFlushAndRehash : Obligations.NodeWalkFlushAndRehash := by
  unfold Obligations.NodeWalkFlushAndRehash
  constructor
  · intro dt m s r t w filter n h
    refine ⟨fun hrange => ?range, fun hleast hmost hfilter => ?walk⟩
    case range => rw [exec_nodeNext h, State.nodeNext_range m hrange]
    case walk =>
      refine ⟨cursorAfter n (t.walked m r), t.walked m r, ?_, State.nodesFrom_length_le, State.nodesFrom_sublist, cursorAfter_of_short,
        fun p hlast => cursorAfter_of_full hlast, fun p hp => ?_, fun hshort p hp hfrom hseen hworld => ?_⟩
      · rw [exec_nodeNext h, State.nodeNext_walks m hleast hmost hfilter]
      · obtain ⟨hfrom, hseen, hworld⟩ := State.walks_of_mem_nodesFrom hp
        exact ⟨hfrom, hseen, hworld.resolve_left⟩
      · exact State.mem_nodesFrom_of_short hshort hp ⟨hfrom, hseen, hworld⟩
  · intro dt m s r t w begun
    refine ⟨fun h hw => ?world, fun h hw hlen => ?flush, fun h => ?rehash⟩
    case world => rw [exec_tableFlushWorld h, State.tableFlush_range m hw]
    case flush =>
      have hc : cmdClass r.opcode = some .device := by rw [State.opcode_of_runsLen h]; rfl
      have htable := t.table_begin m r [] sOk []
      refine ⟨(t.begin m r [] sOk []).advanceEpoch w, by rw [exec_tableFlushWorld h, State.tableFlush_begins m hw], ?_, ?_,
        State.hw_epochs_advanceEpoch _ _, ?_, fun n hn hstate hcur => ?_, fun n hn => ?_⟩
      · simp only [begun, State.mb_advanceEpoch]
        exact State.busy_begin_device m [] sOk [] hc
      · rw [State.table_advanceEpoch, State.epochOf_of_table htable, htable]
      · rw [State.table_advanceEpoch, htable]
      · rw [← hn]
        exact State.current_advanceEpoch_self (by rw [htable]; omega) hstate (by rw [State.current_of_table htable, hcur])
      · rw [State.current_advanceEpoch_of_ne hn, State.current_of_table htable]
    case rehash =>
      have hc : cmdClass r.opcode = some .device := by rw [State.opcode_of_runsLen h]; rfl
      have htable := t.table_rehashBegin m r
      refine ⟨t.rehashBegin m r, exec_rehash h, ?_, by rw [htable]; rfl, fun hseed => ?_, by rw [htable], by rw [htable]⟩
      · exact State.busy_begin_device m [] sOk [] hc
      · rw [htable]
        exact congrArg some (t.rehashSeed_given hseed)

end Sys2Proof.Machine

namespace Sys2Proof.Machine

/-! # CANOPY-PIN and CANOPY-UNPIN (R320, R442), and O17 -/

/-! ## Bits of a mask -/

theorem bitOf_eq_testBit (v i : Nat) : bitOf v i = v.testBit i := by
  rw [bitOf, Nat.shiftRight_eq_div_pow, Nat.testBit_eq_decide_div_mod_eq]

/-- Where two masks share no bit, nothing is carried. -/
theorem add_eq_or_of_and_eq_zero {a b : Nat} (h : a &&& b = 0) : a + b = a ||| b := by
  induction a using Nat.strongRecOn generalizing b with
  | ind a ih =>
    rcases Nat.eq_zero_or_pos a with rfl | ha
    · simp
    · have hdiv : a / 2 + b / 2 = (a ||| b) / 2 := by
        rw [Nat.or_div_two]
        exact ih (a / 2) (by omega) (by rw [← Nat.and_div_two, h])
      have hand : ¬(a % 2 = 1 ∧ b % 2 = 1) := by rw [← Nat.and_mod_two_eq_one, h]; decide
      have hor : (a ||| b) % 2 = 1 ↔ a % 2 = 1 ∨ b % 2 = 1 := Nat.or_mod_two_eq_one
      omega

/-- Taking from a mask what it shares with another leaves the bits the other does not have. -/
theorem bitOf_sub_and (x y i : Nat) : bitOf (x - (x &&& y)) i = (bitOf x i && !bitOf y i) := by
  have hparts : (x &&& y) + Nat.ldiff x y = x := by
    rw [add_eq_or_of_and_eq_zero] <;> refine Nat.eq_of_testBit_eq fun j => ?_
    · cases hx : x.testBit j <;> cases hy : y.testBit j <;> simp [Nat.testBit_ldiff, hx, hy]
    · cases hy : y.testBit j <;> simp [Nat.testBit_ldiff, hy]
  rw [Nat.sub_eq_of_eq_add' hparts.symm]
  simp only [bitOf_eq_testBit, Nat.testBit_ldiff]

/-- A mask with one bit given a value. -/
def withBit (old kind : Nat) (on : Bool) : Nat :=
  if on then (if bitOf old kind then old else old + 2 ^ kind) else (if bitOf old kind then old - 2 ^ kind else old)

/-- A bit set where it was not is added without a carry. -/
theorem withBit_true_of_clear {old kind : Nat} (h : bitOf old kind = false) : withBit old kind true = old ||| 2 ^ kind := by
  rw [← add_eq_or_of_and_eq_zero (by simp [Nat.and_two_pow, ← bitOf_eq_testBit, h])]
  simp [withBit, h]

theorem withBit_false (old kind : Nat) : withBit old kind false = old - (old &&& 2 ^ kind) := by
  rw [withBit, if_neg Bool.false_ne_true, bitOf_eq_testBit, Nat.and_two_pow]
  split <;> simp [*]

theorem bitOf_two_pow (kind i : Nat) : bitOf (2 ^ kind) i = decide (kind = i) := by
  rw [bitOf_eq_testBit, Nat.testBit_two_pow]

theorem bitOf_withBit (old kind : Nat) (on : Bool) (i : Nat) : bitOf (withBit old kind on) i = if i = kind then on else bitOf old i := by
  cases on with
  | false =>
    rw [withBit_false, bitOf_sub_and, bitOf_two_pow]
    by_cases h : i = kind
    · simp [h]
    · simp [h, Ne.symm h]
  | true =>
    cases hold : bitOf old kind with
    | true =>
      rw [show withBit old kind true = old by simp [withBit, hold]]
      split <;> simp [*]
    | false =>
      rw [withBit_true_of_clear hold, bitOf_eq_testBit, Nat.testBit_or, ← bitOf_eq_testBit, ← bitOf_eq_testBit, bitOf_two_pow]
      by_cases h : i = kind
      · simp [h]
      · simp [h, Ne.symm h]

/-! ## What the operations leave of the table, and of what is pinned -/

@[simp] theorem State.touch_keeps (s : State) (d : HwDirty) :
    (s.touch d).table = s.table ∧ (s.touch d).fe = s.fe ∧ (s.touch d).lanes = s.lanes ∧ (s.touch d).wake = s.wake := by
  rw [(s.touch_eq d).1]
  exact ⟨rfl, rfl, rfl, rfl⟩

@[simp] theorem State.canLog_keeps (s : State) (kind cause world flags subject old new : Nat) (gain : Int) :
    (s.canLog kind cause world flags subject old new gain).table = s.table ∧
    (s.canLog kind cause world flags subject old new gain).fe = s.fe ∧
    (s.canLog kind cause world flags subject old new gain).lanes = s.lanes ∧
    (s.canLog kind cause world flags subject old new gain).wake = s.wake ∧
    (s.canLog kind cause world flags subject old new gain).canopy.lanePins = s.canopy.lanePins ∧
    (s.canLog kind cause world flags subject old new gain).canopy.slicePins = s.canopy.slicePins ∧
    (s.canLog kind cause world flags subject old new gain).canopy.pinWait = s.canopy.pinWait ∧
    (s.canLog kind cause world flags subject old new gain).canopy.freezes = s.canopy.freezes := by
  obtain ⟨l, n, h⟩ := s.canLog_eq kind cause world flags subject old new gain
  rw [h]
  exact ⟨rfl, rfl, rfl, rfl, rfl, rfl, rfl, rfl⟩

@[simp] theorem State.table_count (s : State) (c : Ctr) (x : Scope) : (s.count c x).table = s.table := rfl

@[simp] theorem State.table_countN (s : State) (c : Ctr) (x : Scope) (n : Nat) : (s.countN c x n).table = s.table := rfl

@[simp] theorem State.table_wakeFe (s : State) (f : Fe) : (s.wakeFe f).table = s.table := by
  unfold State.wakeFe
  dsimp only
  split
  · simp
  · split <;> simp
  · rfl

@[simp] theorem State.table_noteIdle (s : State) (p : Option (Nat × Nat)) : (s.noteIdle p).table = s.table := by
  unfold State.noteIdle
  split
  · split <;> simp
  · rfl

@[simp] theorem State.table_laneMoved (s : State) (l : Nat) : (s.laneMoved l).table = s.table := by
  refine foldl_keeps _ State.table (fun s f => ?_) _ s
  dsimp only
  split
  · split <;> simp
  · rfl

@[simp] theorem State.table_assignEffect (s : State) (l : Nat) : (s.assignEffect l).table = s.table := by
  unfold State.assignEffect
  dsimp only
  repeat' split
  all_goals simp

@[simp] theorem State.table_settleLanes (s : State) : s.settleLanes.table = s.table := foldl_keeps _ State.table State.table_assignEffect _ s

/-- An assignment writes lanes and front ends, the log and the list of changed items, and no pin. -/
theorem State.assignLane_keeps (s : State) (l : Nat) (a : Option (Nat × Nat)) (cause flags : Nat) (pinned : Bool) :
    (s.assignLane l a cause flags pinned).table = s.table ∧ (s.assignLane l a cause flags pinned).canopy.lanePins = s.canopy.lanePins := by
  unfold State.assignLane
  dsimp only
  split <;> simp

/-! ## Pins of lanes and slices -/

/-- The channel of a pin is taken from the lanes that watch it, with their own pins. -/
def State.releaseChannel (s : State) (l : Nat) (a : Nat × Nat) : State :=
  ((List.range 48).filter fun j => j != l && s.laneTarget j == some a).foldl (fun s j =>
    ({ s with canopy := { s.canopy with lanePins := s.canopy.lanePins.erase j } }).assignLane j none 2 4 false) s

/-- A pin stands for a lane. -/
def State.enterLanePin (s : State) (l : Nat) (a : Nat × Nat) : State := { s with canopy := { s.canopy with lanePins := s.canopy.lanePins.set l a } }

theorem State.pinLane_eq (s : State) (l : Nat) (a : Nat × Nat) : s.pinLane l a =
    ((((s.releaseChannel l a).enterLanePin l a).assignLane l (some a) 2 4 true).settleLanes).canLog 0x11 2 0xFF 4 (2 ^ 31 + l) 0 1 0 :=
  rfl

theorem State.table_releaseChannel (s : State) (l : Nat) (a : Nat × Nat) : (s.releaseChannel l a).table = s.table := by
  refine foldl_keeps _ State.table (fun s j => ?_) _ s
  rw [(State.assignLane_keeps ..).1]

theorem State.pinLane_spec (s : State) (l : Nat) (a : Nat × Nat) :
    (s.pinLane l a).canopy.lanePins.get l = some a ∧ (s.pinLane l a).table = s.table := by
  obtain ⟨htable, hpins⟩ := ((s.releaseChannel l a).enterLanePin l a).assignLane_keeps l (some a) 2 4 true
  simp only [State.pinLane_eq, State.canLog_keeps, State.canopy_settleLanes, State.table_settleLanes, htable, hpins]
  exact ⟨Tbl.get_set_self _ l a, s.table_releaseChannel l a⟩

/-- A pin stands for a slice centre, and the slice's cool-down runs anew. -/
def State.enterSlicePin (s : State) (f : Fe) (c : Nat) : State :=
  ({ s with canopy := { s.canopy with
    slicePins := s.canopy.slicePins.set (feCode f) c, coolSlice := s.canopy.coolSlice.set (feCode f) s.clk } } : State).touch .canopy |>.canLog
      0x11 2 0xFF 4 (2 ^ 30 + feCode f) 0 1 0

theorem State.pinSlice_eq (s : State) (f : Fe) (c : Nat) : s.pinSlice f c =
    if c = (s.enterSlicePin f c).centre f then (s.enterSlicePin f c).setFe f { (s.enterSlicePin f c).feSt f with move := none }
    else (s.enterSlicePin f c).decideSlice f c 2 4 0 :=
  rfl

theorem State.enterSlicePin_spec (s : State) (f : Fe) (c : Nat) :
    (s.enterSlicePin f c).canopy.slicePins.get (feCode f) = some c ∧ (s.enterSlicePin f c).centre f = s.centre f := by
  simp [State.enterSlicePin, State.centre]

/-- A move decided waits with its centre; the pins of slices are not Canopy's to write. -/
theorem State.decideSlice_spec (s : State) (f : Fe) (centre cause flags : Nat) (gain : Int) :
    (s.decideSlice f centre cause flags gain).canopy.slicePins = s.canopy.slicePins ∧
      ((s.decideSlice f centre cause flags gain).feSt f).move.map (fun v => v.centre) = some centre := by
  simp [State.decideSlice, State.feSt]

/-- A move to the centre pinned waits, unless the front end is there (R314, R320). -/
theorem State.pinSlice_spec (s : State) (f : Fe) (c : Nat) :
    (s.pinSlice f c).canopy.slicePins.get (feCode f) = some c ∧
      ((s.pinSlice f c).feSt f).move.map (fun v => v.centre) = if c = s.centre f then none else some c := by
  obtain ⟨hpin, hcentre⟩ := s.enterSlicePin_spec f c
  obtain ⟨hkept, hmove⟩ := (s.enterSlicePin f c).decideSlice_spec f c 2 4 0
  rw [State.pinSlice_eq, hcentre]
  split
  · exact ⟨hpin, by rw [State.feSt_setFe_self]; rfl⟩
  · exact ⟨by rw [hkept, hpin], hmove⟩

/-- A lane's pin is taken back; what it is assigned to stays. -/
def State.unpinLane (s : State) (l : Nat) : State :=
  (({ s with canopy := { s.canopy with lanePins := s.canopy.lanePins.erase l } }).setLane l { s.lane l with pinned := false }).touch .canopy |>.canLog
    0x11 2 0xFF 0 (2 ^ 31 + l) (if (s.lane l).pinned then 1 else 0) 0 0

theorem State.unpinLane_spec (s : State) (l : Nat) : (s.unpinLane l).canopy.lanePins = s.canopy.lanePins.erase l ∧
    ((s.unpinLane l).lane l).pinned = false ∧ ((s.unpinLane l).lane l).assigned = (s.lane l).assigned := by
  have hlanes : (s.unpinLane l).lanes = (s.setLane l { s.lane l with pinned := false }).lanes := by simp [State.unpinLane]
  have hlane : (s.unpinLane l).lane l = { s.lane l with pinned := false } := by
    rw [State.lane_of_lanes hlanes, State.lane_setLane_self]
  rw [hlane]
  exact ⟨by simp [State.unpinLane], rfl, rfl⟩

/-- A slice's pin is taken back; its centre stays. -/
def State.unpinSlice (s : State) (k : Nat) : State :=
  ({ s with canopy := { s.canopy with slicePins := s.canopy.slicePins.erase k } } : State).touch .canopy |>.canLog
    0x11 2 0xFF 0 (2 ^ 30 + k) (if (s.canopy.slicePins.get k).isSome then 1 else 0) 0 0

theorem State.unpinSlice_spec (s : State) (k : Nat) :
    (s.unpinSlice k).canopy.slicePins = s.canopy.slicePins.erase k ∧ (s.unpinSlice k).fe = s.fe := by
  simp [State.unpinSlice]

/-! ## Pins of nodes -/

/-- A record with one of its pins set or cleared. -/
def Node.withPin (n : Node) (kind : Nat) (on : Bool) : Node := { n with pins := BitVec.ofNat 5 (withBit n.pins.toNat kind on) }

theorem Node.bitOf_withPin (n : Node) (kind : Nat) (on : Bool) {k : Nat} (hk : k ≤ 4) :
    bitOf (n.withPin kind on).pins.toNat k = if k = kind then on else bitOf n.pins.toNat k := by
  rw [← bitOf_withBit, bitOf_eq_testBit, bitOf_eq_testBit, Node.withPin, BitVec.toNat_ofNat, Nat.testBit_mod_two_pow]
  simp [Nat.lt_succ_of_le hk]

theorem State.node_markPin {s : State} {i : Nat} {n : Node} (h : s.node i = some n) (kind : Nat) (on : Bool) (j : Nat) :
    (s.markPin i kind on).node j = if j = i then some (n.withPin kind on) else s.node j := by
  have htable : (s.markPin i kind on).table = (s.setNode i (n.withPin kind on)).table := by
    simp [State.markPin, h, Node.withPin, withBit]
  rw [State.node_of_table htable]
  exact Tbl.get_set _ _ _ _

theorem State.pinWait_markPin (s : State) (i kind : Nat) (on : Bool) : (s.markPin i kind on).canopy.pinWait = s.canopy.pinWait := by
  unfold State.markPin
  split
  · rfl
  · simp

/-- A record with the value pinned written: aerial, power and path at once; group, phase and band wait for a round. -/
def Node.withValue (n : Node) (kind value : Nat) : Node :=
  { n with
    aerial := if kind = 2 then value else n.aerial
    txPower := if kind = 3 then signed 32 value else n.txPower
    pathSel := if kind = 4 then value else n.pathSel }

/-- What a pin brings to wait replaces what waited, and stands with the rest of it. -/
theorem State.mem_pinWait_waitPin (s : State) (i : Nat) (w : PinWait) :
    ∃ p ∈ (s.waitPin i w).canopy.pinWait, p.node = i ∧ (∀ v, w.place = some v → p.place = some v) ∧ (∀ v, w.fe = some v → p.fe = some v) ∧
      ∀ v, w.listen = some v → p.listen = some v :=
  ⟨_, List.mem_append_right _ (List.mem_singleton_self _), rfl, fun v h => by simp [h], fun v h => by simp [h], fun v h => by simp [h]⟩

/-- A value written is logged only where it differs, which the table does not show. -/
theorem State.node_loggedUnless (s : State) (c : Prop) [Decidable c] (kind world flags subject old new : Nat) (x : Ctr) (sc : Scope) (j : Nat) :
    (if c then s else (s.canLog kind 2 world flags subject old new 0).count x sc).node j = s.node j := by
  split
  · rfl
  · exact State.node_of_table (by simp) j

theorem State.node_pinNode {s : State} {i : Nat} {n : Node} {kind : Nat} (h : s.node i = some n) (hk : kind ≤ 4) (value j : Nat) :
    (s.pinNode i n kind value).node j = if j = i then some (n.withValue kind value) else s.node j := by
  have hset : ∀ (m : Node) (x : Meas), ((s.setNode i m).setMeas i x).node j = if j = i then some m else s.node j := fun m x => Tbl.get_set _ _ _ _
  have hsame : s.node j = if j = i then some n else s.node j := by
    split
    · next hj => rw [hj, h]
    · rfl
  match kind, hk with
  | 0, _ | 1, _ => exact hsame
  | 2, _ | 3, _ | 4, _ => exact (State.node_loggedUnless ..).trans (hset _ _)

/-- What waits of a node's group and phase, or of its band, once they are pinned. -/
theorem State.mem_pinWait_pinNode (s : State) (i : Nat) (n : Node) {kind : Nat} (hk : kind ≤ 1) (value : Nat) :
    ∃ p ∈ (s.pinNode i n kind value).canopy.pinWait, p.node = i ∧ (kind = 1 → p.fe = some value) ∧
      (kind = 0 → p.place = some (value % 64, value / 64 % 256) ∧ p.listen = some (bitOf value 16)) := by
  match kind, hk with
  | 0, _ =>
    obtain ⟨p, hp, hnode, hplace, -, hlisten⟩ := s.mem_pinWait_waitPin i
      { node := i, place := some (bitsOf value 0 6, bitsOf value 6 8), fe := none, listen := some (bitOf value 16) }
    refine ⟨p, hp, hnode, nofun, fun _ => ⟨?_, hlisten _ rfl⟩⟩
    rw [hplace _ rfl]
    simp [bitsOf, Nat.shiftRight_eq_div_pow]
  | 1, _ =>
    obtain ⟨p, hp, hnode, -, hfe, -⟩ := s.mem_pinWait_waitPin i { node := i, place := none, fe := some value }
    exact ⟨p, hp, hnode, fun _ => hfe _ rfl, nofun⟩

theorem State.node_of_pinSubject {s : State} {i : Nat} {n : Node} (h : s.pinSubject i = some n) : s.node i = some n :=
  (Option.filter_eq_some_iff.mp h).1

/-! ## The commands -/

theorem exec_canopyPin {dt : Nat} {m : Mbox} {s : State} {r : Request} (h : (s.tick dt).runsLen m 0x0601 9 r) :
    exec (.canopyPin dt m) s = .next (((s.tick dt).afterReq m).canopyPin m r) :=
  congrArg Host.Outcome.next (State.shortCmd_of_runsLen h _)

theorem exec_canopyUnpin {dt : Nat} {m : Mbox} {s : State} {r : Request} (h : (s.tick dt).runsLen m 0x0602 5 r) :
    exec (.canopyUnpin dt m) s = .next (((s.tick dt).afterReq m).canopyUnpin m r) :=
  congrArg Host.Outcome.next (State.shortCmd_of_runsLen h _)

/-- The subject named by a pin command does not exist. -/
def State.subjectAbsent (s : State) (kind i : Nat) : Prop :=
  (kind ≤ 4 ∧ s.pinSubject i = none) ∨ (kind = 5 ∧ s.laneCount ≤ i) ∨ (kind = 6 ∧ ∀ f, feOf i = some f → s.hasFe f = false)

section Pins
variable {s : State} {r : Request} {f : Fe} {n : Node}

theorem State.canopyPin_absent (m : Nat) (h : s.subjectAbsent (beField r.payload 0 1) (beField r.payload 1 4)) :
    s.canopyPin m r = s.respond m r sNotFound [] := by
  rcases h with ⟨hk, hn⟩ | ⟨hk, hl⟩ | ⟨hk, hf⟩
  · simp [State.canopyPin, hk, hn]
  · simp [State.canopyPin, hk, hl]
  · cases hfe : feOf (beField r.payload 1 4) with
    | none => simp [State.canopyPin, hk, hfe]
    | some f => simp [State.canopyPin, hk, hfe, hf f hfe]

theorem State.canopyUnpin_absent (m : Nat) (h : s.subjectAbsent (beField r.payload 0 1) (beField r.payload 1 4)) :
    s.canopyUnpin m r = s.respond m r sNotFound [] := by
  rcases h with ⟨hk, hn⟩ | ⟨hk, hl⟩ | ⟨hk, hf⟩
  · simp [State.canopyUnpin, hk, hn]
  · simp [State.canopyUnpin, hk, hl]
  · cases hfe : feOf (beField r.payload 1 4) with
    | none => simp [State.canopyUnpin, hk, hfe]
    | some f => simp [State.canopyUnpin, hk, hfe, hf f hfe]

theorem State.canopyPin_kindRange (m : Nat) (h : 6 < beField r.payload 0 1) : s.canopyPin m r = s.respond m r sRange [] := by
  simp only [State.canopyPin, if_neg (show ¬beField r.payload 0 1 ≤ 4 by omega), if_neg (show beField r.payload 0 1 ≠ 5 by omega),
    if_neg (show beField r.payload 0 1 ≠ 6 by omega)]

theorem State.canopyUnpin_kindRange (m : Nat) (h : 6 < beField r.payload 0 1) : s.canopyUnpin m r = s.respond m r sRange [] := by
  simp only [State.canopyUnpin, if_neg (show ¬beField r.payload 0 1 ≤ 4 by omega), if_neg (show beField r.payload 0 1 ≠ 5 by omega),
    if_neg (show beField r.payload 0 1 ≠ 6 by omega)]

/-! Lanes. -/

theorem State.canopyPin_lane_out (m : Nat) (hk : beField r.payload 0 1 = 5) (hl : beField r.payload 1 4 < s.laneCount)
    (ho : (s.lane (beField r.payload 1 4)).out = true) : s.canopyPin m r = s.respond m r sState [] := by
  simp [State.canopyPin, hk, Nat.not_le.mpr hl, ho]

theorem State.canopyPin_lane_range (m : Nat) (hk : beField r.payload 0 1 = 5) (hl : beField r.payload 1 4 < s.laneCount)
    (ho : (s.lane (beField r.payload 1 4)).out = false)
    (hv : s.laneValue (beField r.payload 5 4) = none ∨ s.laneAllowed (beField r.payload 1 4) = false) :
    s.canopyPin m r = s.respond m r sRange [] := by
  rcases hv with hv | hv
  · simp [State.canopyPin, hk, Nat.not_le.mpr hl, ho, hv]
  · cases hvalue : s.laneValue (beField r.payload 5 4) <;> simp [State.canopyPin, hk, Nat.not_le.mpr hl, ho, hv, hvalue]

theorem State.canopyPin_lane_entered (m : Nat) {a : Nat × Nat} (hk : beField r.payload 0 1 = 5) (hl : beField r.payload 1 4 < s.laneCount)
    (ho : (s.lane (beField r.payload 1 4)).out = false) (hv : s.laneValue (beField r.payload 5 4) = some a)
    (ha : s.laneAllowed (beField r.payload 1 4) = true) :
    s.canopyPin m r = (s.pinLane (beField r.payload 1 4) a).respond m r sOk [] := by
  simp [State.canopyPin, hk, Nat.not_le.mpr hl, ho, hv, ha]

theorem State.canopyUnpin_lane (m : Nat) (hk : beField r.payload 0 1 = 5) (hl : beField r.payload 1 4 < s.laneCount) :
    s.canopyUnpin m r = (s.unpinLane (beField r.payload 1 4)).respond m r sOk [] := by
  simp only [State.canopyUnpin, hk, if_neg (Nat.not_le.mpr hl)]
  rfl

/-! Slices. -/

theorem State.canopyPin_slice_off (m : Nat) (hk : beField r.payload 0 1 = 6) (hf : feOf (beField r.payload 1 4) = some f)
    (hhas : s.hasFe f = true) (hoff : s.feMode f = .off) : s.canopyPin m r = s.respond m r sState [] := by
  simp [State.canopyPin, hk, hf, hhas, hoff]

theorem State.canopyPin_slice_range (m : Nat) (hk : beField r.payload 0 1 = 6) (hf : feOf (beField r.payload 1 4) = some f)
    (hhas : s.hasFe f = true) (hon : s.feMode f ≠ .off) (hc : s.sliceCand f (beField r.payload 5 4) = false) :
    s.canopyPin m r = s.respond m r sRange [] := by
  simp [State.canopyPin, hk, hf, hhas, hon, hc]

theorem State.canopyPin_slice_entered (m : Nat) (hk : beField r.payload 0 1 = 6) (hf : feOf (beField r.payload 1 4) = some f)
    (hhas : s.hasFe f = true) (hon : s.feMode f ≠ .off) (hc : s.sliceCand f (beField r.payload 5 4) = true) :
    s.canopyPin m r = (s.pinSlice f (beField r.payload 5 4)).respond m r sOk [] := by
  simp [State.canopyPin, hk, hf, hhas, hon, hc]

theorem State.canopyUnpin_slice (m : Nat) (hk : beField r.payload 0 1 = 6) (hf : feOf (beField r.payload 1 4) = some f)
    (hhas : s.hasFe f = true) : s.canopyUnpin m r = (s.unpinSlice (beField r.payload 1 4)).respond m r sOk [] := by
  simp only [State.canopyUnpin, hk, hf, hhas]
  rfl

/-! Nodes. -/

theorem State.canopyPin_node_range (m : Nat) (hk : beField r.payload 0 1 ≤ 4) (hn : s.pinSubject (beField r.payload 1 4) = some n)
    (hv : s.pinInRange n (beField r.payload 0 1) (beField r.payload 5 4) = false) : s.canopyPin m r = s.respond m r sRange [] := by
  simp [State.canopyPin, hk, hn, hv]

theorem State.canopyPin_node (m : Nat) (hk : beField r.payload 0 1 ≤ 4) (hn : s.pinSubject (beField r.payload 1 4) = some n)
    (hv : s.pinInRange n (beField r.payload 0 1) (beField r.payload 5 4) = true) :
    s.canopyPin m r = ((s.pinNode (beField r.payload 1 4) n (beField r.payload 0 1) (beField r.payload 5 4)).markPin
      (beField r.payload 1 4) (beField r.payload 0 1) true).respond m r sOk [] := by
  simp [State.canopyPin, hk, hn, hv]

theorem State.canopyUnpin_node (m : Nat) (hk : beField r.payload 0 1 ≤ 4) (hn : s.pinSubject (beField r.payload 1 4) = some n) :
    s.canopyUnpin m r = ((s.dropWait (beField r.payload 1 4) (beField r.payload 0 1)).markPin
      (beField r.payload 1 4) (beField r.payload 0 1) false).respond m r sOk [] := by
  simp [State.canopyUnpin, hk, hn]

end Pins

/-- The record pinned: the value is written where it takes effect at once, then the pin's bit is set. -/
theorem State.node_pinned {s : State} {i : Nat} {n : Node} {kind : Nat} (h : s.node i = some n) (hk : kind ≤ 4) (value j : Nat) :
    ((s.pinNode i n kind value).markPin i kind true).node j = if j = i then some ((n.withValue kind value).withPin kind true) else s.node j := by
  have hvalue := fun j => State.node_pinNode h hk value j
  rw [State.node_markPin (by rw [hvalue, if_pos rfl]), hvalue]
  split <;> rfl

/-- Settles O17: by the kind of the subject, node, lane or slice, each by what its pin writes. -/
theorem canopyPinsNodes : Obligations.CanopyPinsNodes := by
  unfold Obligations.CanopyPinsNodes
  constructor
  · intro dt m s r t kind i value absent
    refine ⟨fun h => ⟨fun ha => ?pinAbsent, fun hk => ?pinKind, fun hk hl => ⟨fun ho => ?laneOut, fun ho hv => ?laneRange, fun a ho hv ha => ?lane⟩,
      fun f hk hf hhas => ⟨fun hoff => ?sliceOff, fun hon hc => ?sliceRange, fun hon hc => ?slice⟩⟩,
      fun h => ⟨fun ha => ?unpinAbsent, fun hk => ?unpinKind, fun hk hl => ?unpinLane, fun f hk hf hhas => ?unpinSlice⟩⟩
    case pinAbsent => rw [exec_canopyPin h, State.canopyPin_absent m ha]
    case pinKind => rw [exec_canopyPin h, State.canopyPin_kindRange m hk]
    case laneOut => rw [exec_canopyPin h, State.canopyPin_lane_out m hk hl ho]
    case laneRange => rw [exec_canopyPin h, State.canopyPin_lane_range m hk hl ho hv]
    case lane =>
      exact ⟨t.pinLane i a, by rw [exec_canopyPin h, State.canopyPin_lane_entered m hk hl ho hv ha], t.pinLane_spec i a⟩
    case sliceOff => rw [exec_canopyPin h, State.canopyPin_slice_off m hk hf hhas hoff]
    case sliceRange => rw [exec_canopyPin h, State.canopyPin_slice_range m hk hf hhas hon hc]
    case slice =>
      exact ⟨t.pinSlice f value, by rw [exec_canopyPin h, State.canopyPin_slice_entered m hk hf hhas hon hc], t.pinSlice_spec f value⟩
    case unpinAbsent => rw [exec_canopyUnpin h, State.canopyUnpin_absent m ha]
    case unpinKind => rw [exec_canopyUnpin h, State.canopyUnpin_kindRange m hk]
    case unpinLane => exact ⟨t.unpinLane i, by rw [exec_canopyUnpin h, State.canopyUnpin_lane m hk hl], t.unpinLane_spec i⟩
    case unpinSlice => exact ⟨t.unpinSlice i, by rw [exec_canopyUnpin h, State.canopyUnpin_slice m hk hf hhas], t.unpinSlice_spec i⟩
  · intro dt m s r n t kind i value hsubject hk
    have hn := State.node_of_pinSubject hsubject
    refine ⟨fun h hv => ?pin, fun h hv => ?range, fun h => ?unpin⟩
    case pin =>
      have hnode := State.node_pinned hn hk value
      have hwait : kind ≤ 1 → _ := fun hk => State.pinWait_markPin _ i kind true ▸ t.mem_pinWait_pinNode i n hk value
      refine ⟨(t.pinNode i n kind value).markPin i kind true, (n.withValue kind value).withPin kind true,
        by rw [exec_canopyPin h, State.canopyPin_node m hk hsubject hv], by rw [hnode, if_pos rfl], ?_, fun k hle hne => ?_,
        rfl, rfl, rfl, rfl, rfl, rfl, rfl, fun j hj => by rw [hnode, if_neg hj], hwait⟩
      · rw [Node.bitOf_withPin _ _ _ hk, if_pos rfl]
      · rw [Node.bitOf_withPin _ _ _ hle, if_neg hne]
        rfl
    case range => rw [exec_canopyPin h, State.canopyPin_node_range m hk hsubject hv]
    case unpin =>
      have hnode := State.node_markPin (s := t.dropWait i kind) hn kind false
      refine ⟨(t.dropWait i kind).markPin i kind false, n.withPin kind false, by rw [exec_canopyUnpin h, State.canopyUnpin_node m hk hsubject],
        by rw [hnode, if_pos rfl], ?_, fun k hle hne => ?_, rfl, fun j hj => ?_⟩
      · rw [Node.bitOf_withPin _ _ _ hk, if_pos rfl]
      · rw [Node.bitOf_withPin _ _ _ hle, if_neg hne]
      · rw [hnode, if_neg hj]
        rfl

end Sys2Proof.Machine

namespace Sys2Proof.Machine

/-! # CANOPY-FREEZE, CANOPY-THAW and CANOPY-LOG-READ (R321, R323), and O18 -/

/-! ## Freezes -/

theorem State.setFreeze_keeps (s : State) (kinds w duration : Nat) (on : Bool) :
    (s.setFreeze kinds w duration on).table = s.table ∧ (s.setFreeze kinds w duration on).lanes = s.lanes ∧
      (s.setFreeze kinds w duration on).fe = s.fe ∧ (s.setFreeze kinds w duration on).wake = s.wake := by
  simp [State.setFreeze]

theorem State.freezes_setFreeze (s : State) (kinds w duration : Nat) (on : Bool) :
    (s.setFreeze kinds w duration on).canopy.freezes = s.canopy.freezes.flatMap (Freeze.cut kinds w) ++
      if on then [{ kinds := kinds, world := w, endNs := if duration = 0 then none else some (s.netNs + duration * 1000000000) }] else [] := by
  cases on <;> simp [State.setFreeze]

/-- A freeze that stands freezes its kinds, in its world or in all. -/
theorem State.frozen_of_mem {s : State} {f : Freeze} (h : f ∈ s.canopy.freezes) {j v : Nat} (hj : bitOf f.kinds j = true)
    (hw : f.world = 8 ∨ f.world = v) : s.frozen j v = true :=
  List.any_eq_true.mpr ⟨f, h, by simpa [hj] using hw⟩

theorem State.not_frozen_of_clear {s : State} {j : Nat} (h : ∀ f ∈ s.canopy.freezes, bitOf f.kinds j = false) (v : Nat) :
    s.frozen j v = false := by
  rw [State.frozen, List.any_eq_false]
  intro f hf
  simp [h f hf]

/-- The kinds of a set that have a freeze, with worlds or without, are those of both halves together. -/
theorem and_freezable (k : Nat) : (k &&& deviceKinds) + (k &&& worldKinds) = k &&& (worldKinds + deviceKinds) := by
  have hdisjoint : (k &&& deviceKinds) &&& (k &&& worldKinds) = 0 :=
    calc (k &&& deviceKinds) &&& (k &&& worldKinds) = (k &&& k) &&& (deviceKinds &&& worldKinds) := by ac_rfl
      _ = 0 := Nat.and_zero _
  rw [add_eq_or_of_and_eq_zero hdisjoint, ← Nat.and_or_distrib_left]
  rfl

/-- The kinds of an argument in range all have a freeze. -/
theorem freezable_of_freezeArg {p : Octets} {k w : Nat} (h : freezeArg p = some (k, w)) : k &&& (worldKinds + deviceKinds) = k := by
  unfold freezeArg at h
  extract_lets kinds world at h
  split at h
  · cases h
  · next hrange =>
    have hk : kinds = k := by
      split at h
      · exact congrArg Prod.fst (Option.some.inj h)
      · split at h
        · exact congrArg Prod.fst (Option.some.inj h)
        · cases h
    have hle : k &&& (worldKinds + deviceKinds) ≤ k := Nat.and_le_left
    rw [hk] at hrange
    omega

/-- Thawed for all worlds, a freeze keeps the kinds not named. -/
theorem Freeze.bitOf_cut_all {k : Nat} (hk : k &&& (worldKinds + deviceKinds) = k) {f g : Freeze} (hg : g ∈ f.cut k 8) {j : Nat}
    (hj : bitOf k j = true) : bitOf g.kinds j = false := by
  have hgone : (k &&& deviceKinds) + (k &&& worldKinds) = k := (and_freezable k).trans hk
  have hleft : g.kinds = f.kinds - (f.kinds &&& k) := by
    simp only [Freeze.cut, true_or, if_true, hgone, ne_eq, not_true, false_and, and_false, if_false] at hg
    split at hg
    · cases hg
    · rw [List.mem_singleton.mp hg]
  rw [hleft, bitOf_sub_and, hj, Bool.not_true, Bool.and_false]

/-- Thawed for all worlds, a kind is frozen in none. -/
theorem State.not_frozen_setFreeze {s : State} {k : Nat} (hk : k &&& (worldKinds + deviceKinds) = k) {j : Nat} (hj : bitOf k j = true)
    (duration v : Nat) : (s.setFreeze k 8 duration false).frozen j v = false := by
  refine State.not_frozen_of_clear (fun g hg => ?_) v
  rw [State.freezes_setFreeze, if_neg Bool.false_ne_true, List.append_nil] at hg
  obtain ⟨f, -, hcut⟩ := List.mem_flatMap.mp hg
  exact Freeze.bitOf_cut_all hk hcut hj

/-- What CANOPY-FREEZE does, once its request's cells are released. -/
def State.canopyFreeze (s : State) (m : Nat) (r : Request) : State :=
  match freezeArg r.payload with
  | some (k, w) =>
    if beField r.payload 3 4 ≤ 604800 then (s.setFreeze k w (beField r.payload 3 4) true).respond m r sOk [] else s.respond m r sRange []
  | none => s.respond m r sRange []

/-- What CANOPY-THAW does, likewise. -/
def State.canopyThaw (s : State) (m : Nat) (r : Request) : State :=
  match freezeArg r.payload with
  | some (k, w) => (s.setFreeze k w 0 false).respond m r sOk []
  | none => s.respond m r sRange []

theorem exec_canopyFreeze {dt : Nat} {m : Mbox} {s : State} {r : Request} (h : (s.tick dt).runsLen m 0x0603 7 r) :
    exec (.canopyFreeze dt m) s = .next (((s.tick dt).afterReq m).canopyFreeze m r) :=
  congrArg Host.Outcome.next (State.shortCmd_of_runsLen h _)

theorem exec_canopyThaw {dt : Nat} {m : Mbox} {s : State} {r : Request} (h : (s.tick dt).runsLen m 0x0604 3 r) :
    exec (.canopyThaw dt m) s = .next (((s.tick dt).afterReq m).canopyThaw m r) :=
  congrArg Host.Outcome.next (State.shortCmd_of_runsLen h _)

section Freezes
variable {s : State} {r : Request} {k w : Nat}

theorem State.canopyFreeze_range (m : Nat) (h : freezeArg r.payload = none ∨ 604800 < beField r.payload 3 4) :
    s.canopyFreeze m r = s.respond m r sRange [] := by
  unfold State.canopyFreeze
  split
  · next harg => exact if_neg (Nat.not_le.mpr (h.resolve_left (by simp [harg])))
  · rfl

theorem State.canopyFreeze_enters (m : Nat) (h : freezeArg r.payload = some (k, w)) (hd : beField r.payload 3 4 ≤ 604800) :
    s.canopyFreeze m r = (s.setFreeze k w (beField r.payload 3 4) true).respond m r sOk [] := by
  simp [State.canopyFreeze, h, hd]

theorem State.canopyThaw_range (m : Nat) (h : freezeArg r.payload = none) : s.canopyThaw m r = s.respond m r sRange [] := by
  simp [State.canopyThaw, h]

theorem State.canopyThaw_ends (m : Nat) (h : freezeArg r.payload = some (k, w)) :
    s.canopyThaw m r = (s.setFreeze k w 0 false).respond m r sOk [] := by
  simp [State.canopyThaw, h]

end Freezes

/-! ## The decision log -/

/-- A mailbox of world `w` may read the entry, and it is not before the seq given. -/
def LogEntry.readable (w seq : Nat) (e : LogEntry) : Prop := seq ≤ e.seq.toNat ∧ (w = 0 ∨ e.world = w)

/-- The entries a mailbox of world `w` reads from a seq on, at most `n`. -/
def State.logFrom (s : State) (w seq n : Nat) : List LogEntry :=
  (s.canopy.log.filter fun e => decide (seq ≤ e.seq.toNat) && (w == 0 || e.world == w)).take n

/-- The oldest entry kept is later than the seq given. -/
def State.logLost (s : State) (seq : Nat) : Bool :=
  match s.canopy.log with
  | e :: _ => decide (seq < e.seq.toNat)
  | [] => false

section Log
variable {s : State} {w seq n : Nat}

theorem State.mem_logFrom {e : LogEntry} (h : e ∈ s.logFrom w seq n) : e.readable w seq := by
  have he := (List.mem_filter.mp (List.mem_of_mem_take h)).2
  simpa [LogEntry.readable] using he

theorem State.logFrom_length_le : (s.logFrom w seq n).length ≤ n := List.length_take_le _ _

theorem State.logFrom_sublist : (s.logFrom w seq n).Sublist s.canopy.log := (List.take_sublist _ _).trans List.filter_sublist

/-- A read that answers fewer entries than asked for has left none out. -/
theorem State.mem_logFrom_of_short {e : LogEntry} (h : (s.logFrom w seq n).length < n) (he : e ∈ s.canopy.log) (hr : e.readable w seq) :
    e ∈ s.logFrom w seq n := by
  unfold State.logFrom at h ⊢
  rw [List.length_take] at h
  rw [List.take_of_length_le (by omega)]
  exact List.mem_filter.mpr ⟨he, by simpa [LogEntry.readable] using hr⟩

theorem State.logLost_iff : s.logLost seq = true ↔ ∃ e, s.canopy.log.head? = some e ∧ seq < e.seq.toNat := by
  unfold State.logLost
  cases s.canopy.log <;> simp

end Log

/-- The answer of CANOPY-LOG-READ, once its request's cells are released. -/
def State.canopyLogRead (s : State) (m : Nat) (r : Request) : State :=
  let seen := s.logFrom (s.mb m).world (beField r.payload 0 4) (beField r.payload 4 1)
  if beField r.payload 4 1 < 1 ∨ 64 < beField r.payload 4 1 then s.respond m r sRange []
  else s.respond m r sOk (toBe 1 (if s.logLost (beField r.payload 0 4) then 1 else 0) ++ toBe 1 seen.length ++ seen.flatMap LogEntry.octets)

theorem exec_canopyLogRead {dt : Nat} {m : Mbox} {s : State} {r : Request} (h : (s.tick dt).runsLen m 0x0605 5 r) :
    exec (.canopyLogRead dt m) s = .next (((s.tick dt).afterReq m).canopyLogRead m r) :=
  congrArg Host.Outcome.next (State.shortCmd_of_runsLen h _)

/-- Settles O18: a freeze by what it enters and cuts, the log by the list read. -/
theorem freezesAndLog : Obligations.FreezesAndLog := by
  unfold Obligations.FreezesAndLog
  constructor
  · intro dt m s r k w t d still
    refine ⟨fun harg => ⟨fun h => ?freezeArg, fun h => ?thawArg⟩, fun harg => ⟨fun h hd => ?freeze, fun h hd => ?tooLong, fun h => ?thaw⟩⟩
    case freezeArg => rw [exec_canopyFreeze h, State.canopyFreeze_range m (.inl harg)]
    case thawArg => rw [exec_canopyThaw h, State.canopyThaw_range m harg]
    case freeze =>
      have hmem : ({ kinds := k, world := w, endNs := if d = 0 then none else some (t.netNs + d * 1000000000) } : Freeze) ∈
          (t.setFreeze k w d true).canopy.freezes := by
        rw [State.freezes_setFreeze]
        simp
      exact ⟨t.setFreeze k w d true, by rw [exec_canopyFreeze h, State.canopyFreeze_enters m harg hd], t.setFreeze_keeps k w d true, hmem,
        fun j v _ _ hj hw => State.frozen_of_mem hmem hj hw⟩
    case tooLong => rw [exec_canopyFreeze h, State.canopyFreeze_range m (.inr hd)]
    case thaw =>
      refine ⟨t.setFreeze k w 0 false, by rw [exec_canopyThaw h, State.canopyThaw_ends m harg], t.setFreeze_keeps k w 0 false, fun hw j v _ _ hj => ?_⟩
      rw [hw]
      exact State.not_frozen_setFreeze (freezable_of_freezeArg harg) hj 0 v
  · intro dt m s r t w from_ n h
    refine ⟨fun hn => ?range, fun hleast hmost => ?read⟩
    case range => exact (exec_canopyLogRead h).trans (congrArg _ (if_pos (by omega)))
    case read =>
      refine ⟨if t.logLost from_ then 1 else 0, t.logFrom w from_ n, (exec_canopyLogRead h).trans (congrArg _ (if_neg (by omega))),
        State.logFrom_length_le, State.logFrom_sublist, fun e => State.mem_logFrom,
        fun hshort e he hseq hw => State.mem_logFrom_of_short hshort he ⟨hseq, hw⟩, ?_, ?_⟩
      · rw [← State.logLost_iff]
        split <;> simp [*]
      · split <;> omega

end Sys2Proof.Machine

namespace Sys2Proof.Machine

/-! # Key slots under erasure, loading and journalling (R334, R335, R337, R339) -/

/-! ## What an operation leaves of a slot -/

/-- Slot `j` keeps its key, generation and state. -/
def State.KeepsSlot (s u : State) (j : Nat) : Prop :=
  (u.slot j).key = (s.slot j).key ∧ (u.slot j).gen = (s.slot j).gen ∧ (u.slot j).state = (s.slot j).state

theorem State.KeepsSlot.of_eq {s u : State} {j : Nat} (h : u.slot j = s.slot j) : s.KeepsSlot u j := by
  rw [State.KeepsSlot, h]
  exact ⟨rfl, rfl, rfl⟩

theorem State.KeepsSlot.trans {s t u : State} {j : Nat} (h : s.KeepsSlot t j) (g : t.KeepsSlot u j) : s.KeepsSlot u j := by
  obtain ⟨hkey, hgen, hstate⟩ := h
  obtain ⟨gkey, ggen, gstate⟩ := g
  exact ⟨gkey.trans hkey, ggen.trans hgen, gstate.trans hstate⟩

/-- A slot that loses its fallback keeps everything else. -/
theorem State.KeepsSlot.of_dropFallback {s u : State} {i j : Nat} (h : u.slot j = dropFallback i (s.slot j)) : s.KeepsSlot u j := by
  unfold State.KeepsSlot
  rw [h, dropFallback]
  split <;> exact ⟨rfl, rfl, rfl⟩

/-! ## Erasure and loading -/

theorem Tbl.get_mapVals {α : Type} (f : α → α) (t : Tbl α) (j : Nat) :
    Tbl.get (t.map fun p => (p.1, f p.2)) j = (Tbl.get t j).map f := by
  induction t with
  | nil => rfl
  | cons p t ih =>
    simp only [List.map_cons, Tbl.get, ih]
    split <;> rfl

/-- A slot that is not listed names no fallback that is valid. -/
theorem dropFallback_default (i : Nat) : dropFallback i {} = {} := by
  unfold dropFallback
  split <;> rfl

theorem fbValid_dropFallback {i : Nat} {k : KeySlot} (h : k.fallback.toNat = i) : (dropFallback i k).fbValid = false := by
  simp [dropFallback, h]

theorem State.slot_eraseSlot (s : State) (i j : Nat) :
    (s.eraseSlot i).slot j = if j = i then { gen := (s.slot i).gen + 1 } else dropFallback i (s.slot j) := by
  simp only [State.slot, State.eraseSlot, Tbl.getD_set]
  split
  · rfl
  · rw [Tbl.getD, Tbl.getD, Tbl.get_mapVals]
    cases Tbl.get s.crypto.slots j with
    | none => exact (dropFallback_default i).symm
    | some k => rfl

/-- A slot is written. -/
theorem State.slot_setSlot (s : State) (i j : Nat) (k : KeySlot) :
    ({ s with crypto := { s.crypto with slots := s.crypto.slots.set i k } } : State).slot j = if j = i then k else s.slot j :=
  Tbl.getD_set _ _ _ _ _

theorem State.slot_loadSlot_self (s : State) (i : Nat) (k : KeySlot) :
    (s.loadSlot i k).slot i = { k with gen := (s.slot i).gen + (if (s.slot i).state = .ready then 2 else 1), state := .ready } := by
  rw [State.loadSlot, State.slot_setSlot, if_pos rfl]
  by_cases h : (s.slot i).state = .ready
  · simp [h, State.slot_eraseSlot, BitVec.add_assoc]
  · simp [h]

theorem State.slot_loadSlot_ne (s : State) {i j : Nat} (k : KeySlot) (h : j ≠ i) :
    (s.loadSlot i k).slot j = if (s.slot i).state = .ready then dropFallback i (s.slot j) else s.slot j := by
  rw [State.loadSlot, State.slot_setSlot, if_neg h]
  split
  · rw [State.slot_eraseSlot, if_neg h]
  · rfl

theorem State.keepsSlot_loadSlot (s : State) {i j : Nat} (k : KeySlot) (h : j ≠ i) : s.KeepsSlot (s.loadSlot i k) j := by
  have hslot := s.slot_loadSlot_ne k h
  split at hslot
  · exact .of_dropFallback hslot
  · exact .of_eq hslot

/-! ## Group counters, fallbacks and the journal -/

@[simp] theorem State.slot_groupCell (s : State) (i : Nat) (key : List Nat) (j : Nat) : (s.groupCell i key).slot j = s.slot j := by
  unfold State.groupCell
  split
  · dsimp only
    split <;> rfl
  · rfl

@[simp] theorem State.slot_journalKey (s : State) (i j : Nat) : (s.journalKey i).slot j = s.slot j := rfl

/-- What a slot's copy in the journal holds is its present key, wrapped. -/
theorem State.journalled_journalKey (s : State) (i : Nat) :
    ((s.journalKey i).hw.worldKeys.get i).map (fun w => w.wrapped) = some ((s.journalKey i).wrapHw ((s.journalKey i).slot i).octets) :=
  congrArg (Option.map _) (Tbl.get_set_self _ _ _)

/-- Slot `i` names a READY group slot of its own world (Table 12.4). -/
def State.namesFallback (s : State) (i : Nat) : Bool :=
  let f := (s.slot i).fallback.toNat
  decide (40 ≤ f) && decide (f ≤ 167) && (s.slot f).state = .ready && slotWorld f = slotWorld i

theorem State.slot_fixFallback (s : State) (i j : Nat) :
    (s.fixFallback i).slot j = if j = i then { s.slot i with fbValid := s.namesFallback i } else s.slot j := by
  exact s.slot_setSlot i j _

/-- A world key as it stands in its slot. -/
theorem State.slot_loadWorldKey_self (s : State) (i : Nat) (k : KeySlot) :
    (s.loadWorldKey i k).slot i = { k with
      gen := (s.slot i).gen + (if (s.slot i).state = .ready then 2 else 1)
      state := .ready
      fbValid := ((s.loadSlot i k).groupCell i k.octets).namesFallback i } := by
  rw [State.loadWorldKey, State.slot_fixFallback, if_pos rfl, State.slot_groupCell, State.slot_loadSlot_self]

theorem State.keepsSlot_loadWorldKey (s : State) {i j : Nat} (k : KeySlot) (h : j ≠ i) : s.KeepsSlot (s.loadWorldKey i k) j := by
  refine (s.keepsSlot_loadSlot k h).trans (.of_eq ?_)
  rw [State.loadWorldKey, State.slot_fixFallback, if_neg h, State.slot_groupCell]

/-- After a load the fallback named is valid where it is a READY group slot of the world: the load leaves other slots READY. -/
theorem State.fbValid_loadWorldKey {s : State} {i f : Nat} {k : KeySlot} (hf : k.fallback.toNat = f) (hne : f ≠ i) :
    ((s.loadWorldKey i k).slot i).fbValid =
      (decide (40 ≤ f) && decide (f ≤ 167) && decide ((s.slot f).state = .ready) && decide (slotWorld f = slotWorld i)) := by
  obtain ⟨-, -, hstate⟩ := s.keepsSlot_loadSlot k hne
  rw [State.slot_loadWorldKey_self]
  simp only [State.namesFallback, State.slot_groupCell, State.slot_loadSlot_self, hf, hstate]

end Sys2Proof.Machine

namespace Sys2Proof.Machine

/-! # KEY-LOAD (R334, R337, R339), and O7 -/

/-! ## Attributes that Table 12.4 allows -/

theorem usage_lt_of_usageOk {i u : Nat} (h : usageOk i u = true) : u < 128 := by
  have : u = 0 ∨ u = 8 ∨ u = 1 := by
    unfold usageOk at h
    split at h <;> simp only [Bool.or_eq_true, beq_iff_eq] at h <;> omega
  omega

theorem le_of_slotWorld {i w : Nat} (h : slotWorld i = some w) : i ≤ 167 ∧ w ≤ 7 := by
  unfold slotWorld at h
  split at h
  · cases h
    omega
  · split at h
    · cases h
      omega
    · cases h

/-- A fallback that is named is another group slot of the slot's world. -/
theorem fallbackOk_spec {i f w : Nat} (hi : slotWorld i = some w) (h : fallbackOk i f = true) (hf : f ≠ 0xFF) :
    f ≠ i ∧ 40 ≤ f ∧ f ≤ 167 ∧ slotWorld f = slotWorld i := by
  obtain ⟨-, hw⟩ := le_of_slotWorld hi
  simp only [fallbackOk, hi, Option.getD_some, Bool.or_eq_true, beq_iff_eq, hf, false_or, Bool.and_eq_true, bne_iff_ne,
    List.contains_iff_mem, groupSlots, List.mem_map, List.mem_range] at h
  obtain ⟨⟨-, hne⟩, g, hg, rfl⟩ := h
  refine ⟨hne, by omega, by omega, ?_⟩
  rw [slotWorld, if_neg (by omega), if_pos (by omega), hi]
  exact congrArg some (by omega)

/-! ## The present key kept in the fallback slot (step 1 of R337) -/

/-- The copy of a slot's key that stands in slot `f`: it does not name `f` itself. -/
def KeySlot.copyFor (k : KeySlot) (f : Nat) : KeySlot := if k.fallback.toNat = f then { k with fallback := 0xFF, fbValid := false } else k

theorem KeySlot.key_copyFor (k : KeySlot) (f : Nat) : (k.copyFor f).key = k.key := by
  unfold KeySlot.copyFor
  split <;> rfl

theorem State.keepKey_eq (s : State) (i f : Nat) :
    s.keepKey i f = ((s.loadSlot f ((s.slot i).copyFor f)).groupCell f (s.slot i).octets).journalKey f :=
  rfl

theorem State.slot_keepKey (s : State) (i f j : Nat) : (s.keepKey i f).slot j = (s.loadSlot f ((s.slot i).copyFor f)).slot j := by
  rw [State.keepKey_eq, State.slot_journalKey, State.slot_groupCell]

theorem State.slot_keepKey_fallback (s : State) (i f : Nat) :
    ((s.keepKey i f).slot f).key = (s.slot i).key ∧ ((s.keepKey i f).slot f).state = .ready := by
  rw [State.slot_keepKey, State.slot_loadSlot_self]
  exact ⟨KeySlot.key_copyFor _ _, rfl⟩

theorem State.keepsSlot_keepKey (s : State) {i f j : Nat} (h : j ≠ f) : s.KeepsSlot (s.keepKey i f) j :=
  (s.keepsSlot_loadSlot _ h).trans (.of_eq (s.slot_keepKey i f j))

/-! ## The key taken -/

/-- The load keeps the present key: a fallback is named and the slot is READY (log entry 51). -/
def State.keepsKey (s : State) (i f : Nat) : Bool := f != 0xFF && (s.slot i).state == SlotState.ready

theorem State.keepsKey_iff {s : State} {i f : Nat} : s.keepsKey i f = true ↔ f ≠ 0xFF ∧ (s.slot i).state = .ready := by
  simp [State.keepsKey]

/-- The state a key is loaded in: its predecessor is kept where it is to be. -/
def State.keptKey (s : State) (i f : Nat) : State := if s.keepsKey i f then s.keepKey i f else s

/-- The slot value that KEY-LOAD enters. -/
def State.takenSlot (s : State) (i usage f : Nat) (keyId : BitVec 64) (key : List Nat) : KeySlot :=
  worldKeySlot ((slotWorld i).getD 0) (BitVec.ofNat 7 usage) keyId (if s.keepsKey i f then BitVec.ofNat 8 f else 0xFF) key

theorem State.takeKey_eq (s : State) (i usage f : Nat) (keyId : BitVec 64) (key : List Nat) :
    s.takeKey i usage f keyId key = ((s.keptKey i f).loadWorldKey i (s.takenSlot i usage f keyId key)).journalKey i :=
  rfl

/-- Keeping the present key leaves it in its slot. -/
theorem State.keepsSlot_keptKey (s : State) {i f j : Nat} (h : f ≠ 0xFF → j ≠ f) : s.KeepsSlot (s.keptKey i f) j := by
  unfold State.keptKey
  split
  · next hkeep => exact s.keepsSlot_keepKey (h (State.keepsKey_iff.mp hkeep).1)
  · exact .of_eq rfl

section Taken
variable {s : State} {i usage f : Nat} {keyId : BitVec 64} {key : List Nat}

/-- The slot loaded, whose fallback is not the slot itself. -/
theorem State.slot_takeKey_self (hne : f ≠ 0xFF → i ≠ f) :
    (s.takeKey i usage f keyId key).slot i = { s.takenSlot i usage f keyId key with
      gen := (s.slot i).gen + (if (s.slot i).state = .ready then 2 else 1)
      state := .ready
      fbValid := (((s.keptKey i f).loadWorldKey i (s.takenSlot i usage f keyId key)).slot i).fbValid } := by
  obtain ⟨-, hgen, hstate⟩ := s.keepsSlot_keptKey hne
  rw [State.takeKey_eq, State.slot_journalKey, State.slot_loadWorldKey_self, hgen, hstate]

theorem State.journalled_takeKey (s : State) (i usage f : Nat) (keyId : BitVec 64) (key : List Nat) :
    ((s.takeKey i usage f keyId key).hw.worldKeys.get i).map (fun w => w.wrapped) =
      some ((s.takeKey i usage f keyId key).wrapHw ((s.takeKey i usage f keyId key).slot i).octets) :=
  State.journalled_journalKey _ _

/-- Slots other than the one loaded keep what they had once the present key was kept. -/
theorem State.keepsSlot_loaded {j : Nat} (h : j ≠ i) : (s.keptKey i f).KeepsSlot (s.takeKey i usage f keyId key) j :=
  State.keepsSlot_loadWorldKey _ _ h

theorem State.keepsSlot_takeKey_fresh {j : Nat} (hkeep : s.keepsKey i f = false) (h : j ≠ i) :
    s.KeepsSlot (s.takeKey i usage f keyId key) j := by
  have hothers := State.keepsSlot_loaded (s := s) (f := f) (usage := usage) (keyId := keyId) (key := key) h
  rwa [State.keptKey, hkeep, if_neg Bool.false_ne_true] at hothers

theorem State.keepsSlot_takeKey {j : Nat} (h : j ≠ i) (hf : j ≠ f) : s.KeepsSlot (s.takeKey i usage f keyId key) j :=
  (s.keepsSlot_keptKey fun _ => hf).trans (State.keepsSlot_loaded h)

/-- Where no key is kept the slot names no fallback. -/
theorem State.fbValid_takeKey_fresh (hi : i ≤ 167) (h : s.keepsKey i f = false) : ((s.takeKey i usage f keyId key).slot i).fbValid = false := by
  have hfb : (s.takenSlot i usage f keyId key).fallback.toNat = 255 := by simp [State.takenSlot, worldKeySlot, h]
  rw [State.takeKey_eq, State.slot_journalKey, State.fbValid_loadWorldKey hfb (by omega)]
  rfl

/-- Where a key is kept the slot names the slot that holds it. -/
theorem State.fallback_takeKey_kept (h : s.keepsKey i f = true) (hne : f ≠ i) (hlo : 40 ≤ f) (hhi : f ≤ 167)
    (hworld : slotWorld f = slotWorld i) :
    ((s.takeKey i usage f keyId key).slot i).fallback.toNat = f ∧ ((s.takeKey i usage f keyId key).slot i).fbValid = true := by
  have hfb : (s.takenSlot i usage f keyId key).fallback.toNat = f := by
    simp only [State.takenSlot, worldKeySlot, h, if_true, BitVec.toNat_ofNat]
    omega
  have hready : ((s.keptKey i f).slot f).state = .ready := by
    rw [State.keptKey, if_pos h]
    exact (s.slot_keepKey_fallback i f).2
  constructor
  · rw [State.slot_takeKey_self fun _ => hne.symm]
    exact hfb
  · rw [State.takeKey_eq, State.slot_journalKey, State.fbValid_loadWorldKey hfb hne]
    simp [hlo, hhi, hready, hworld]

theorem State.slot_takeKey_fallback (h : s.keepsKey i f = true) (hne : f ≠ i) :
    ((s.takeKey i usage f keyId key).slot f).state = .ready ∧ ((s.takeKey i usage f keyId key).slot f).key = (s.slot i).key := by
  obtain ⟨hkey, -, hstate⟩ := State.keepsSlot_loaded (s := s) (f := f) (usage := usage) (keyId := keyId) (key := key) hne
  obtain ⟨hkept, hready⟩ := s.slot_keepKey_fallback i f
  rw [State.keptKey, if_pos h] at hkey hstate
  exact ⟨hstate.trans hready, hkey.trans hkept⟩

end Taken

/-! ## The command -/

theorem exec_keyLoad {dt : Nat} {m : Mbox} {s : State} {r : Request} (h : (s.tick dt).runsLen m 0x0401 35 r) :
    exec (.keyLoad dt m) s = .next (((s.tick dt).afterReq m).keyLoad m r) :=
  congrArg Host.Outcome.next (State.shortCmd_of_runsLen h _)

section KeyLoad
variable {s : State} {r : Request} {m w : Nat}

theorem State.keyLoad_noWorld (h : slotWorld (beField r.payload 0 1) = none) : s.keyLoad m r = s.respond m r sRange [] := by
  simp only [State.keyLoad, h]

theorem State.keyLoad_otherWorld (h : slotWorld (beField r.payload 0 1) = some w) (hw : w ≠ (s.mb m).world) :
    s.keyLoad m r = s.respond m r sNotPermitted [] := by
  simp only [State.keyLoad, h, if_pos hw]

variable (h : slotWorld (beField r.payload 0 1) = some (s.mb m).world)
include h

theorem State.keyLoad_badAttributes
    (hbad : usageOk (beField r.payload 0 1) (beField r.payload 1 1) = false ∨ fallbackOk (beField r.payload 0 1) (beField r.payload 2 1) = false) :
    s.keyLoad m r = s.respond m r sRange [] := by
  rcases hbad with hbad | hbad <;> simp [State.keyLoad, h, hbad]

variable (hu : usageOk (beField r.payload 0 1) (beField r.payload 1 1) = true)
  (hf : fallbackOk (beField r.payload 0 1) (beField r.payload 2 1) = true)
include hu hf

theorem State.keyLoad_notUnwrapped (hkey : s.unwrapBy (10 + 3 * m) (sliceOct r.payload 11 24) = none) :
    s.keyLoad m r = (s.countBoth .keyUnwrapFail (s.mb m).world).respond m r sUnwrap [] := by
  simp [State.keyLoad, h, hu, hf, hkey]

theorem State.keyLoad_takes {k : List Nat} (hkey : s.unwrapBy (10 + 3 * m) (sliceOct r.payload 11 24) = some k) :
    s.keyLoad m r =
      let u := s.takeKey (beField r.payload 0 1) (beField r.payload 1 1) (beField r.payload 2 1) (BitVec.ofNat 64 (beField r.payload 3 8)) k
      u.respond m r sOk (toBe 2 (u.slot (beField r.payload 0 1)).gen.toNat) := by
  simp [State.keyLoad, h, hu, hf, hkey]

end KeyLoad

/-- Settles O7: what is refused by the test that fails first; what is loaded by the slot that `takeKey` writes, on the state in which the
present key has been kept. -/
theorem keyLoadLoads : Obligations.KeyLoadLoads := by
  unfold Obligations.KeyLoadLoads
  intro dt m s r k t i f hruns
  refine ⟨fun h => ?noWorld, fun w h hw => ?otherWorld, fun h hbad => ?badAttributes,
    fun h hu hf => ⟨fun hkey => ?notUnwrapped, fun hkey => ?takes⟩⟩
  case noWorld => rw [exec_keyLoad hruns, State.keyLoad_noWorld h]
  case otherWorld => rw [exec_keyLoad hruns, State.keyLoad_otherWorld h hw]
  case badAttributes => rw [exec_keyLoad hruns, State.keyLoad_badAttributes h hbad]
  case notUnwrapped => rw [exec_keyLoad hruns, State.keyLoad_notUnwrapped h hu hf hkey]
  case takes =>
    obtain ⟨hi, -⟩ := le_of_slotWorld h
    have hfb : f ≠ 0xFF → i ≠ f := fun hff => (fallbackOk_spec h hf hff).1.symm
    refine ⟨t.takeKey i (beField r.payload 1 1) f (BitVec.ofNat 64 (beField r.payload 3 8)) k, ?answer, ?ready, ?key, ?keyId, ?usage, ?gen,
      State.journalled_takeKey _ _ _ _ _ _, fun hfresh => ?fresh, fun hff hready => ?kept⟩
    case answer => rw [exec_keyLoad hruns, State.keyLoad_takes h hu hf hkey]
    case ready => rw [State.slot_takeKey_self hfb]
    case key =>
      rw [State.slot_takeKey_self hfb]
      rfl
    case keyId =>
      rw [State.slot_takeKey_self hfb]
      exact toNat_ofNat_beField _ _
    case usage =>
      rw [State.slot_takeKey_self hfb]
      exact Nat.mod_eq_of_lt (usage_lt_of_usageOk hu)
    case gen => rw [State.slot_takeKey_self hfb]
    case fresh =>
      have hkeep : t.keepsKey i f = false := by
        rw [Bool.eq_false_iff, ne_eq, State.keepsKey_iff]
        tauto
      exact ⟨State.fbValid_takeKey_fresh hi hkeep, fun j hj => State.keepsSlot_takeKey_fresh hkeep hj⟩
    case kept =>
      have hkeep : t.keepsKey i f = true := State.keepsKey_iff.mpr ⟨hff, hready⟩
      obtain ⟨hne, hlo, hhi, hworld⟩ := fallbackOk_spec h hf hff
      obtain ⟨hfallback, hvalid⟩ := State.fallback_takeKey_kept hkeep hne hlo hhi hworld
      obtain ⟨hfready, hfkey⟩ := State.slot_takeKey_fallback hkeep hne
      exact ⟨hfallback, hvalid, hfready, hfkey, fun j hj hjf => State.keepsSlot_takeKey hj hjf⟩

end Sys2Proof.Machine

namespace Sys2Proof.Machine

/-! # KEY-ERASE, KEY-LIST, CTX-SAVE and CTX-RESTORE (R335, R337, R365, R366), and O8 -/

/-! ## A world key erased -/

theorem State.slot_dropKey (s : State) (i j : Nat) :
    (s.dropKey i).slot j = if j = i then { gen := (s.slot i).gen + 1 } else dropFallback i (s.slot j) :=
  s.slot_eraseSlot i j

/-- Another slot keeps its key, generation and state, but no valid fallback in slot `i`. -/
theorem State.dropKey_others (s : State) {i j : Nat} (h : j ≠ i) :
    s.KeepsSlot (s.dropKey i) j ∧ ((s.slot j).fallback.toNat = i → ((s.dropKey i).slot j).fbValid = false) := by
  have hslot : (s.dropKey i).slot j = dropFallback i (s.slot j) := by rw [State.slot_dropKey, if_neg h]
  refine ⟨.of_dropFallback hslot, fun hnames => ?_⟩
  rw [hslot]
  exact fbValid_dropFallback hnames

/-! ## The commands -/

theorem exec_keyErase {dt : Nat} {m : Mbox} {s : State} {r : Request} (h : (s.tick dt).runsLen m 0x0402 1 r) :
    exec (.keyErase dt m) s = .next (((s.tick dt).afterReq m).keyErase m r) :=
  congrArg Host.Outcome.next (State.shortCmd_of_runsLen h _)

/-- KEY-LIST shows the join slot and the 16 group slots of the mailbox's world (log entry 56). -/
theorem exec_keyList {dt : Nat} {m : Mbox} {s : State} {r : Request} (h : (s.tick dt).runsLen m 0x0403 0 r) :
    let t := (s.tick dt).afterReq m
    let l := worldSlots (t.mb m).world
    exec (.keyList dt m) s = .next (t.respond m r sOk (toBe 1 l.length ++ l.flatMap t.slotView)) :=
  congrArg Host.Outcome.next (State.shortCmd_of_runsLen h _)

theorem worldSlots_length (w : Nat) : (worldSlots w).length = 17 := by simp [worldSlots, groupSlots]

theorem exec_ctxSave {dt : Nat} {m : Mbox} {s : State} {r : Request} (h : (s.tick dt).runsLen m 0x0404 2 r) :
    exec (.ctxSave dt m) s = .next (((s.tick dt).afterReq m).ctxSave m r) :=
  congrArg Host.Outcome.next (State.shortCmd_of_runsLen h _)

theorem exec_ctxRestore {dt len : Nat} {m : Mbox} {s : State} {r : Request} (h : (s.tick dt).runsLen m 0x0405 len r) :
    exec (.ctxRestore dt m) s = .next (((s.tick dt).afterReq m).ctxRestore m r) :=
  congrArg Host.Outcome.next (State.hostCmd_of_runs h.1 _)

section KeyErase
variable {s : State} {r : Request} {m w : Nat}

theorem State.keyErase_noWorld (h : slotWorld (beField r.payload 0 1) = none) : s.keyErase m r = s.respond m r sRange [] := by
  simp only [State.keyErase, h]

variable (h : slotWorld (beField r.payload 0 1) = some w)
include h

theorem State.keyErase_otherWorld (hw : w ≠ (s.mb m).world) (h0 : (s.mb m).world ≠ 0) : s.keyErase m r = s.respond m r sNotPermitted [] := by
  simp only [State.keyErase, h, if_pos (And.intro hw h0)]

theorem State.keyErase_drops (hw : w = (s.mb m).world ∨ (s.mb m).world = 0) :
    s.keyErase m r = (s.dropKey (beField r.payload 0 1)).respond m r sOk [] := by
  simp only [State.keyErase, h]
  exact if_neg (by tauto)

end KeyErase

section CtxSave
variable {s : State} {r : Request} {c : Ctx} (m : Nat)

theorem State.ctxSave_absent (hform : beField r.payload 1 1 ≤ 1) (hctx : s.crypto.ctxs.get (beField r.payload 0 1) = none) :
    s.ctxSave m r = s.respond m r sNotFound [] := by
  simp [State.ctxSave, Nat.not_lt.mpr hform, hctx]

variable (hctx : s.crypto.ctxs.get (beField r.payload 0 1) = some c)
include hctx

theorem State.ctxSave_foreign (hform : beField r.payload 1 1 ≤ 1) (hw : c.ofW0 = false) :
    s.ctxSave m r = (s.count .ctxSaveRefused .device).respond m r sNotPermitted [] := by
  simp [State.ctxSave, Nat.not_lt.mpr hform, hctx, hw]

theorem State.ctxSave_wrapped (hform : beField r.payload 1 1 = 0) (hw : c.ofW0 = true) :
    s.ctxSave m r = s.respond m r sOk (s.wrapHw (octNats c.octets)) := by
  simp [State.ctxSave, hform, hctx, hw]

theorem State.ctxSave_clear (hform : beField r.payload 1 1 = 1) (hw : c.ofW0 = true) :
    s.ctxSave m r = s.endApproved.respond m r sOk c.octets := by
  simp [State.ctxSave, hform, hctx, hw]

end CtxSave

theorem State.ctxStands_iff {s : State} {c : Ctx} :
    s.ctxStands c = true ↔ c.startTag = s.crypto.startTag ∧ (s.slot c.slot.toNat).state = .ready ∧ (s.slot c.slot.toNat).gen = c.gen := by
  simp [State.ctxStands, and_assoc]

/-- A context is entered under an id. -/
def State.enterCtx (s : State) (id : Nat) (c : Ctx) : State := { s with crypto := { s.crypto with ctxs := s.crypto.ctxs.set id c } }

section CtxRestore
variable {s : State} {r : Request} {o : Octets} (m : Nat)

theorem State.ctxRestore_wrapped (hlen : r.payload.length = 58) (hform : beField r.payload 1 1 = 0)
    (ho : s.ctxOctets 0 (r.payload.drop 2) = some o) (hw : (ctxOf o).ofW0 = true) (hstands : s.ctxStands (ctxOf o) = true) :
    s.ctxRestore m r = (s.enterCtx (beField r.payload 0 1) (ctxOf o)).respond m r sOk [] := by
  simp [State.ctxRestore, hlen, hform, ho, hw, hstands, State.enterCtx]

variable (hlen : r.payload.length = 50) (hform : beField r.payload 1 1 = 1) (hw : (ctxOf (r.payload.drop 2)).ofW0 = true)
include hlen hform hw

/-- The clear form takes the octets as they came. -/
theorem State.ctxRestore_clear (hstands : s.ctxStands (ctxOf (r.payload.drop 2)) = true) :
    s.ctxRestore m r = (s.endApproved.enterCtx (beField r.payload 0 1) (ctxOf (r.payload.drop 2))).respond m r sOk [] := by
  simp [State.ctxRestore, State.ctxOctets, hlen, hform, hw, hstands, State.enterCtx]

theorem State.ctxRestore_stale (hstands : s.ctxStands (ctxOf (r.payload.drop 2)) = false) :
    s.ctxRestore m r = (s.count .ctxRestoreRefused .device).respond m r sRefused [] := by
  simp [State.ctxRestore, State.ctxOctets, hlen, hform, hw, hstands]

end CtxRestore

/-- Settles O8: an erasure by the slots it leaves, a context by whether its form, world, start and key slot pass. -/
theorem keyEraseListAndContexts : Obligations.KeyEraseListAndContexts := by
  unfold Obligations.KeyEraseListAndContexts
  constructor
  · intro dt m s r w t i
    refine ⟨fun h hi => ?noWorld, fun h hi hw h0 => ?otherWorld, fun h hi hw => ?erased, fun h => ?list⟩
    case noWorld => rw [exec_keyErase h, State.keyErase_noWorld hi]
    case otherWorld => rw [exec_keyErase h, State.keyErase_otherWorld hi hw h0]
    case erased =>
      have hself : (t.dropKey i).slot i = { gen := (t.slot i).gen + 1 } := by rw [State.slot_dropKey, if_pos rfl]
      refine ⟨t.dropKey i, by rw [exec_keyErase h, State.keyErase_drops hi hw], by rw [hself], by rw [hself], by rw [hself], rfl, fun j hj => ?_⟩
      obtain ⟨⟨hkey, hgen, hstate⟩, hfallback⟩ := t.dropKey_others hj
      exact ⟨hkey, hgen, hstate, hfallback⟩
    case list =>
      rw [exec_keyList h, worldSlots_length]
      rfl
  · intro dt m s r c o t
    refine ⟨fun h hctx hw => ⟨fun hform => ?saveWrapped, fun hform => ?saveClear⟩, fun h hform hctx => ?saveAbsent,
      fun h hform hctx hw => ?saveForeign, fun h hform hw => ⟨fun hstands => ?restoreClear, fun hstands => ?restoreStale⟩,
      fun h hform ho hw htag hready hgen => ?restoreWrapped⟩
    case saveWrapped => rw [exec_ctxSave h, State.ctxSave_wrapped m hctx hform hw]
    case saveClear =>
      rw [exec_ctxSave h, State.ctxSave_clear m hctx hform hw]
      rfl
    case saveAbsent => rw [exec_ctxSave h, State.ctxSave_absent m hform hctx]
    case saveForeign => rw [exec_ctxSave h, State.ctxSave_foreign m hctx hform hw]
    case restoreClear =>
      rw [exec_ctxRestore h, State.ctxRestore_clear m h.2 hform hw hstands]
      rfl
    case restoreStale => rw [exec_ctxRestore h, State.ctxRestore_stale m h.2 hform hw hstands]
    case restoreWrapped =>
      rw [exec_ctxRestore h, State.ctxRestore_wrapped m h.2 hform ho hw (State.ctxStands_iff.mpr ⟨htag, hready, hgen⟩)]
      rfl

end Sys2Proof.Machine

namespace Sys2Proof.Machine

/-! # Job memory (R360): what is read of octets written -/

/-! ## Octets and words -/

theorem toLe_length (n v : Nat) : (toLe n v).length = n := by
  induction n generalizing v with
  | zero => rfl
  | succ n ih => simp [toLe, ih]

theorem toLe_leNat (o : Octets) : toLe o.length (leNat o) = o := by
  induction o with
  | nil => rfl
  | cons b t ih =>
    have hb := b.isLt
    have hlow : (BitVec.ofNat 8 (b.toNat + 256 * leNat t)) = b := by
      apply BitVec.eq_of_toNat_eq
      rw [BitVec.toNat_ofNat]
      omega
    have hhigh : (b.toNat + 256 * leNat t) / 256 = leNat t := by omega
    rw [List.length_cons, leNat, toLe, hlow, hhigh, ih]

theorem leNat_lt (o : Octets) : leNat o < 256 ^ o.length := by
  induction o with
  | nil => simp [leNat]
  | cons b t ih =>
    have hb := b.isLt
    rw [leNat, List.length_cons, pow_succ]
    omega

/-- A block of 16 octets is held whole in a word. -/
theorem wordOctets_octetsWord {o : Octets} (h : o.length = 16) : wordOctets (octetsWord o) = o := by
  have hlt := leNat_lt o
  rw [h] at hlt
  have hle := toLe_leNat o
  rw [h] at hle
  rw [wordOctets, octetsWord, BitVec.toNat_ofNat, Nat.mod_eq_of_lt (by omega), hle]

/-! ## Writing and reading -/

/-- One word is written; a word of zeros is not listed. -/
def putWord (t : Tbl Word) (k : Nat) (w : Word) : Tbl Word := if w = 0 then Tbl.erase t k else Tbl.set t k w

theorem getD_putWord (t : Tbl Word) (k i : Nat) (w : Word) : (putWord t k w).getD i 0 = if i = k then w else t.getD i 0 := by
  unfold putWord
  split
  · next h =>
    rw [Tbl.getD, Tbl.getD, Tbl.get_erase]
    split
    · exact h.symm
    · rfl
  · exact Tbl.getD_set _ _ _ _ _

/-- A block that fills its word. -/
theorem memPut_cons {o : Octets} (t : Tbl Word) (a : Nat) (l : List Octets) (h : o.length = 16) :
    memPut t a (o :: l) = memPut (putWord t (a % 4096) (octetsWord o)) (a + 1) l := by
  have hrest : (wordOctets (Tbl.getD t (a % 4096) 0)).drop o.length = [] := by
    rw [h]
    exact List.drop_of_length_le (le_of_eq (toLe_length _ _))
  rw [memPut, hrest, List.append_nil]
  rfl

/-- Blocks written leave the words of other addresses. -/
theorem getD_memPut_of_ne (l : List Octets) (hl : ∀ o ∈ l, o.length = 16) (t : Tbl Word) (a k : Nat)
    (hk : ∀ i < l.length, (a + i) % 4096 ≠ k) : (memPut t a l).getD k 0 = t.getD k 0 := by
  induction l generalizing t a with
  | nil => rfl
  | cons o l ih =>
    rw [memPut_cons t a l (hl o List.mem_cons_self), ih (fun p hp => hl p (List.mem_cons_of_mem _ hp)), getD_putWord, if_neg]
    · exact (hk 0 (by simp)).symm
    · intro i hi
      rw [Nat.add_right_comm]
      exact hk (i + 1) (by simpa using hi)

/-- Each of at most 4 096 blocks stands at its own address. -/
theorem getD_memPut (l : List Octets) (hl : ∀ o ∈ l, o.length = 16) (hn : l.length ≤ 4096) (t : Tbl Word) (a i : Nat) (hi : i < l.length) :
    wordOctets ((memPut t a l).getD ((a + i) % 4096) 0) = l[i] := by
  induction l generalizing t a i with
  | nil => simp at hi
  | cons o l ih =>
    have hl' : ∀ p ∈ l, p.length = 16 := fun p hp => hl p (List.mem_cons_of_mem _ hp)
    rw [List.length_cons] at hn hi
    rw [memPut_cons t a l (hl o List.mem_cons_self)]
    cases i with
    | zero =>
      rw [getD_memPut_of_ne l hl' _ _ _ (fun j hj => by omega), getD_putWord, if_pos (by rw [Nat.add_zero])]
      exact wordOctets_octetsWord (hl o List.mem_cons_self)
    | succ i =>
      have hshift : a + (i + 1) = a + 1 + i := by omega
      rw [hshift, List.getElem_cons_succ]
      exact ih hl' (by omega) _ _ _ (by omega)

/-! ## Octets cut into blocks -/

theorem chunksOf_cons {α : Type} {n fuel : Nat} {l : List α} (h : l ≠ []) :
    chunksOf n (fuel + 1) l = l.take n :: chunksOf n fuel (l.drop n) := by
  rw [chunksOf, if_neg (by simpa using h)]

/-- Octets of `n` whole blocks, cut into them. -/
theorem chunksOf_whole {α : Type} (n : Nat) : ∀ (fuel : Nat) (l : List α), l.length = 16 * n → n ≤ fuel →
    (chunksOf 16 fuel l).length = n ∧ (∀ c ∈ chunksOf 16 fuel l, c.length = 16) ∧ (chunksOf 16 fuel l).flatten = l := by
  induction n with
  | zero =>
    intro fuel l hl _
    obtain rfl := List.eq_nil_of_length_eq_zero hl
    cases fuel <;> simp [chunksOf]
  | succ n ih =>
    intro fuel l hl hfuel
    obtain ⟨fuel, rfl⟩ : ∃ f, fuel = f + 1 := ⟨fuel - 1, by omega⟩
    obtain ⟨hlen, hall, hflat⟩ := ih fuel (l.drop 16) (by rw [List.length_drop]; omega) (by omega)
    rw [chunksOf_cons (List.ne_nil_of_length_pos (by omega))]
    refine ⟨by rw [List.length_cons, hlen], ?_, by rw [List.flatten_cons, hflat, List.take_append_drop]⟩
    rw [List.forall_mem_cons]
    exact ⟨by rw [List.length_take]; omega, hall⟩

/-- Whole blocks written into job memory are read back as they were. -/
theorem State.jobIn_jobPut (s : State) (a : Nat) {o : Octets} (h16 : o.length % 16 = 0) (hmax : o.length ≤ 4096) :
    (s.jobPut a o).jobIn a o.length = o := by
  obtain ⟨hlen, hall, hflat⟩ := chunksOf_whole (o.length / 16) 257 o (by omega) (by omega)
  have hwords : ((List.range (ceilDiv o.length 16)).map fun i => wordOctets ((s.jobPut a o).crypto.jobMem.getD ((a + i) % 4096) 0)) =
      chunksOf 16 257 o := by
    have hcount : ceilDiv o.length 16 = (chunksOf 16 257 o).length := by
      rw [hlen, ceilDiv]
      omega
    refine List.ext_getElem (by simp [hcount]) fun i _ hi => ?_
    rw [List.getElem_map, List.getElem_range]
    exact getD_memPut _ hall (by omega) _ _ _ hi
  rw [State.jobIn, List.flatMap_def, hwords, hflat, List.take_length]

end Sys2Proof.Machine

namespace Sys2Proof.Machine

/-! # Cipher jobs (R333 to R335, R361 to R363), and O47 -/

/-! ## Waiting jobs -/

section Waiting
variable {s : State} {j : CJob}

theorem State.offer_of_none_waiting (h : s.crypto.waiting = []) (n : Nat) : s.offer n = s := by
  cases n with
  | zero => rfl
  | succ n => simp only [State.offer, h]

/-- With no stale job waiting, none is dropped. -/
theorem State.dropStale_of_fresh (h : ∀ j ∈ s.crypto.waiting, j.stale = none) : s.dropStale = s := by
  have hstale : s.crypto.waiting.filter (fun j => j.stale.isSome) = [] := by
    simpa using h
  have hfresh : s.crypto.waiting.filter (fun j => j.stale.isNone) = s.crypto.waiting := by
    simpa using h
  simp only [State.dropStale, hstale, hfresh, List.foldl_nil]

theorem State.offerJobs_of_none_waiting (h : s.crypto.waiting = []) : s.offerJobs = s := by
  rw [State.offerJobs, State.dropStale_of_fresh (by simp [h]), State.offer_of_none_waiting h]

/-- The only job waiting goes to the idle unit that stands first. -/
theorem State.offerJobs_one {k : Nat} (h : s.crypto.waiting = [j]) (hj : j.stale = none) (hidle : s.idleUnit = some k) :
    s.offerJobs = { s with crypto := { s.crypto with waiting := [], unitJob := s.crypto.unitJob.set k { j with start := s.clk } } } := by
  rw [State.offerJobs, State.dropStale_of_fresh (by simp [h, hj])]
  simp only [State.offer, h, hidle]

end Waiting

/-! ## A job posted -/

/-- A job that R333 refuses: counted once in its scope, and returned with status 2. -/
def State.refuseJob (s : State) (w : Word) : State :=
  (if jobDevice w then s.count .keyUseRefused .device else s.countBoth .keyUseRefused (jobWorld w)).jobEnds w 2

/-- The job that waits for a unit, with the output of its padded input under the key of its slot. -/
def State.newJob (s : State) (w : Word) (i : Nat) (pad : Octets) : CJob where
  word := w
  slot := i
  gen := (s.slot i).gen
  long := (s.slot i).len256
  repeated := false
  output := natOcts ((chunksOf 16 257 (octNats pad)).flatMap fun b =>
    if jobInverse w then aesDec (s.slot i).octets b else aesEnc (s.slot i).octets b)
  start := s.clk
  stale := none

/-- A job joins those that wait. -/
def State.queueJob (s : State) (j : CJob) : State := { s with crypto := { s.crypto with waiting := s.crypto.waiting ++ [j] } }

/-- A job whose input stands in job memory is judged: its slot, the slot's attributes, R333, then length and pad (log entry 56). -/
def State.judgeJob (s : State) (w : Word) (parityOk : Bool) : State :=
  match s.jobTarget w with
  | none => s.refuseJob w
  | some i =>
    if !parityOk then s.slotFault w i
    else if !s.jobAllowed w i then s.refuseJob w
    else match jobPadded (jobPad w) (s.jobIn (jobSrc w) (jobLength w)) with
      | none => s.jobEnds w 3
      | some pad => ((s.bindCtx w i).queueJob (s.newJob w i pad)).offerJobs

/-- A post writes the input and judges the job.  The word, the state judged and `postJob` itself are variables while the two sides are
compared: of the definition unfolded in place the kernel would evaluate the job word. -/
theorem State.postJob_eq {s x : State} {job w : Word} {input : Octets} (parityOk : Bool) (hw : w = jobClean job)
    (hx : x = s.jobPut (jobSrc w) (input.take (jobLength w))) : s.postJob job input parityOk = x.judgeJob w parityOk := by
  have unfolded : ∀ post, post = @State.postJob → post s job input parityOk = x.judgeJob w parityOk := by
    intro post hpost
    delta State.postJob at hpost
    subst hpost
    beta_reduce
    rw [← hw]
    extract_lets _ _ y _
    rw [show x = y from hx]
    clear_value y
    rfl
  exact unfolded _ rfl

section Judged
variable {s : State} {w : Word} {i : Nat} (ht : s.jobTarget w = some i)
include ht

theorem State.judgeJob_refuses (ha : s.jobAllowed w i = false) : s.judgeJob w true = s.refuseJob w := by
  simp [State.judgeJob, ht, ha]

variable (ha : s.jobAllowed w i = true)
include ha

theorem State.judgeJob_unpadded (hp : jobPadded (jobPad w) (s.jobIn (jobSrc w) (jobLength w)) = none) : s.judgeJob w true = s.jobEnds w 3 := by
  simp [State.judgeJob, ht, ha, hp]

theorem State.judgeJob_queues {pad : Octets} (hp : jobPadded (jobPad w) (s.jobIn (jobSrc w) (jobLength w)) = some pad) :
    s.judgeJob w true = ((s.bindCtx w i).queueJob (s.newJob w i pad)).offerJobs := by
  simp [State.judgeJob, ht, ha, hp]

end Judged

theorem State.returned_jobEnds (s : State) (w : Word) (status : Nat) :
    (s.jobEnds w status).crypto.returned.head? = some (jobReturned w status) :=
  rfl

theorem State.counter_refuseJob (s : State) (w : Word) :
    (s.refuseJob w).counter .keyUseRefused (if jobDevice w then .device else .world (jobWorld w)) =
      s.counter .keyUseRefused (if jobDevice w then .device else .world (jobWorld w)) + 1 := by
  unfold State.refuseJob
  split
  · exact s.counter_count_self _ _
  · refine (State.counter_count _ _ _ _ _).trans ?_
    simp

theorem State.refuseJob_units (s : State) (w : Word) :
    (s.refuseJob w).crypto.returned.head? = some (jobReturned w 2) ∧ (s.refuseJob w).crypto.unitJob = s.crypto.unitJob ∧
      (s.refuseJob w).crypto.waiting = s.crypto.waiting := by
  unfold State.refuseJob
  split <;> exact ⟨State.returned_jobEnds _ _ _, rfl, rfl⟩

/-- What a job is judged and queued by, but for job memory: clock, Tally, slots, units and the jobs that wait. -/
def State.SameJobs (s u : State) : Prop :=
  u.clk = s.clk ∧ u.tally = s.tally ∧ u.slot = s.slot ∧ u.crypto.unitJob = s.crypto.unitJob ∧ u.crypto.waiting = s.crypto.waiting ∧
    u.idleUnit = s.idleUnit

theorem State.sameJobs_jobPut (s : State) (a : Nat) (o : Octets) : s.SameJobs (s.jobPut a o) := ⟨rfl, rfl, rfl, rfl, rfl, rfl⟩

/-- Naming a context writes that context, with the values drawn for it. -/
theorem State.sameJobs_bindCtx (s : State) (w : Word) (i : Nat) : s.SameJobs (s.bindCtx w i) := by
  unfold State.bindCtx
  split
  · split <;> exact ⟨rfl, rfl, rfl, rfl, rfl, rfl⟩
  · exact ⟨rfl, rfl, rfl, rfl, rfl, rfl⟩

/-- Queued while none waits and a unit is idle, a job is that unit's at once. -/
theorem State.queueJob_offered {s : State} {j : CJob} {k : Nat} (hwait : s.crypto.waiting = []) (hj : j.stale = none)
    (hidle : s.idleUnit = some k) :
    (s.queueJob j).offerJobs.crypto.unitJob.get k = some { j with start := s.clk } ∧ (s.queueJob j).offerJobs.crypto.waiting = [] := by
  have hone : (s.queueJob j).crypto.waiting = [j] := by simp [State.queueJob, hwait]
  rw [State.offerJobs_one hone hj hidle]
  exact ⟨Tbl.get_set_self _ _ _, rfl⟩

theorem exec_cipherJobPost {dt : Nat} {job : Word} {input : Octets} {ok : Bool} {s : State} (h : (s.tick dt).jobsRun = true) :
    exec (.cipherJobPost dt job input ok) s = .next ((s.tick dt).postJob job input ok) :=
  congrArg Host.Outcome.next (if_pos h)

/-! ## The end of a job -/

/-- A unit's job ends: its output is written, its word returned, its unit idle. -/
def State.jobDone (s : State) (u : Nat) (j : CJob) : State :=
  (State.jobPut { s with crypto := { s.crypto with unitJob := s.crypto.unitJob.erase u } } (jobDst j.word) j.output).jobEnds j.word 0

theorem State.endJob_done {s : State} {u : Nat} {j : CJob} (hget : s.crypto.unitJob.get u = some j) (hj : j.stale = none)
    (hwait : s.crypto.waiting = []) : s.endJob u false = s.jobDone u j := by
  have hnone : (s.jobDone u j).crypto.waiting = [] := hwait
  rw [← State.offerJobs_of_none_waiting hnone]
  simp [State.endJob, hget, hj, State.jobDone]

theorem State.jobIn_jobEnds (s : State) (w : Word) (status a n : Nat) : (s.jobEnds w status).jobIn a n = s.jobIn a n := rfl

/-- What a job that is not stale leaves: an idle unit, its word with status 0, and its output of whole blocks in job memory. -/
theorem State.jobDone_spec (s : State) (u : Nat) {j : CJob} (h16 : j.output.length % 16 = 0) (hmax : j.output.length ≤ 4096) :
    (s.jobDone u j).crypto.unitJob.get u = none ∧ (s.jobDone u j).crypto.returned.head? = some (jobReturned j.word 0) ∧
      (s.jobDone u j).jobIn (jobDst j.word) j.output.length = j.output ∧ (s.jobDone u j).crypto.slots = s.crypto.slots ∧
      (s.jobDone u j).tally = s.tally := by
  refine ⟨Tbl.get_erase_self _ _, State.returned_jobEnds _ _ _, ?_, rfl, rfl⟩
  rw [State.jobDone, State.jobIn_jobEnds, State.jobIn_jobPut _ _ h16 hmax]

/-- Settles O47: a job posted by the test it fails, or the unit that takes it; a job that ends by what job memory reads back. -/
theorem cipherJobs : Obligations.CipherJobs := by
  unfold Obligations.CipherJobs
  intro dt job input pad u0 s i k j t w x sc
  have hpost : t.jobsRun = true → exec (.cipherJobPost dt job input true) s = .next (x.judgeJob w true) := fun hrun =>
    (exec_cipherJobPost hrun).trans (congrArg _ (State.postJob_eq true rfl rfl))
  have hsame : t.SameJobs x := t.sameJobs_jobPut _ _
  clear_value x w
  obtain ⟨hclk, htally, hslots, hunits, hwaits, hidles⟩ := hsame
  refine ⟨fun hrun ht => ⟨fun ha => ?refused, fun ha hp => ?unpadded, fun ha hp hwait hidle => ?accepted⟩,
    fun hget hj hwait h16 hmax => ?ended⟩
  case refused =>
    obtain ⟨hreturned, hrunning, hqueued⟩ := x.refuseJob_units w
    refine ⟨x.refuseJob w, (hpost hrun).trans (by rw [State.judgeJob_refuses ht ha]), hreturned, hrunning.trans hunits, hqueued.trans hwaits, ?_⟩
    rw [State.counter_refuseJob, State.counter, htally]
    rfl
  case unpadded =>
    exact ⟨x.jobEnds w 3, (hpost hrun).trans (by rw [State.judgeJob_unpadded ht ha hp]), State.returned_jobEnds _ _ _, by simpa using htally⟩
  case accepted =>
    obtain ⟨hclkBound, -, -, -, hwaitsBound, hidlesBound⟩ := x.sameJobs_bindCtx w i
    obtain ⟨hunit, hnone⟩ := State.queueJob_offered (j := x.newJob w i pad) (hwaitsBound.trans (hwaits.trans hwait)) rfl
      (hidlesBound.trans (hidles.trans hidle))
    rw [← hslots]
    exact ⟨_, _, (hpost hrun).trans (by rw [State.judgeJob_queues ht ha hp]), hunit, rfl, rfl, hclkBound.trans hclk, rfl, rfl, hnone⟩
  case ended => exact ⟨t.jobDone u0 j, congrArg _ (State.endJob_done hget hj hwait), t.jobDone_spec u0 h16 hmax⟩

end Sys2Proof.Machine

namespace Sys2Proof.Machine

/-! # What each operation writes, and O53 to O56

A frame is said as an equality of states from which the parts written are erased.  One fact per operation, in the order of the model's files;
each holds of every list of parts that has the operation's own. -/

/-! ## A state without some of its parts -/

/-- Life-cycle state without the fuses, the rest, or both. -/
def Life.sans (x : Life) (cs : List Comp) : Life :=
  { (if .life ∈ cs then {} else x) with lcs := if .lcs ∈ cs then .provision else x.lcs }

/-- Cipher units without the key slots, the rest, or both. -/
def Crypto.sans (x : Crypto) (cs : List Comp) : Crypto :=
  { (if .crypto ∈ cs then {} else x) with slots := if .slots ∈ cs then [] else x.slots }

/-- Heartwood without those of its five parts that the list has. -/
def Heart.sans (x : Heart) (cs : List Comp) : Heart :=
  { (if .heart ∈ cs then {} else x) with
    zeroCount := if .marks ∈ cs then 0 else x.zeroCount, zeroFlag := if .marks ∈ cs then false else x.zeroFlag
    floor := if .marks ∈ cs then 0 else x.floor, rollback := if .marks ∈ cs then 0 else x.rollback
    fc := if .ceilings ∈ cs then [] else x.fc, groupCell := if .ceilings ∈ cs then [] else x.groupCell
    joinCeil := if .ceilings ∈ cs then 0 else x.joinCeil, seqCeil := if .ceilings ∈ cs then [] else x.seqCeil
    kcfg := if .storedKeys ∈ cs then none else x.kcfg, mboxKeys := if .storedKeys ∈ cs then [] else x.mboxKeys
    lastKeys := if .storedKeys ∈ cs then [] else x.lastKeys, worldKeys := if .storedKeys ∈ cs then [] else x.worldKeys
    almanac := if .almanac ∈ cs then [] else x.almanac }

/-- Packets without those of its four parts that the list has. -/
def Queues.sans (x : Queues) (cs : List Comp) : Queues :=
  { (if .queues ∈ cs then {} else x) with
    used := if .cells ∈ cs then [] else x.used, sharedUsed := if .cells ∈ cs then 0 else x.sharedUsed
    worldShared := if .cells ∈ cs then [] else x.worldShared, orders := if .orders ∈ cs then [] else x.orders
    reasm := if .reasm ∈ cs then [] else x.reasm }

/-- The node table without the records, the rest, or both. -/
def TableSt.sans (x : TableSt) (cs : List Comp) : TableSt :=
  { (if .table ∈ cs then {} else x) with nodes := if .nodes ∈ cs then [] else x.nodes }

/-- The state without the parts of `cs`. -/
def State.sans (s : State) (cs : List Comp) : State where
  clk := s.clk
  rnd := if .rnd ∈ cs then 0 else s.rnd
  id := s.id
  life := s.life.sans cs
  pins := if .pins ∈ cs then {} else s.pins
  flash := if .flash ∈ cs then [] else s.flash
  crypto := s.crypto.sans cs
  time := if .time ∈ cs then {} else s.time
  rtc := if .rtc ∈ cs then {} else s.rtc
  hw := s.hw.sans cs
  dirty := if .dirty ∈ cs then [] else s.dirty
  tally := if .tally ∈ cs then [] else s.tally
  early := if .early ∈ cs then [] else s.early
  mbox := if .mbox ∈ cs then [] else s.mbox
  held := if .held ∈ cs then [] else s.held
  m0Out := if .m0Out ∈ cs then [] else s.m0Out
  queues := s.queues.sans cs
  parting := if .parting ∈ cs then [] else s.parting
  fe := if .fe ∈ cs then { sa := {}, sb := {}, h := {} } else s.fe
  lanes := if .lanes ∈ cs then [] else s.lanes
  domA := if .domA ∈ cs then {} else s.domA
  domB := if .domB ∈ cs then {} else s.domB
  dec := if .dec ∈ cs then {} else s.dec
  mac := if .mac ∈ cs then {} else s.mac
  table := s.table.sans cs
  wake := if .wake ∈ cs then {} else s.wake
  canopy := if .canopy ∈ cs then {} else s.canopy
  back := if .back ∈ cs then {} else s.back
  isl := if .isl ∈ cs then {} else s.isl
  pending := s.pending

theorem Life.eq_of_sans {cs : List Comp} {x y : Life} (h : x.sans cs = y.sans cs) :
    (.lcs ∉ cs → x.lcs = y.lcs) ∧ (.life ∉ cs → x = { y with lcs := x.lcs }) := by
  cases x
  cases y
  constructor <;> intro hc <;> simp only [Life.sans, hc, if_false, Life.mk.injEq] at h ⊢ <;> simp only [h, and_self]

theorem Crypto.eq_of_sans {cs : List Comp} {x y : Crypto} (h : x.sans cs = y.sans cs) :
    (.slots ∉ cs → x.slots = y.slots) ∧ (.crypto ∉ cs → x = { y with slots := x.slots }) := by
  cases x
  cases y
  constructor <;> intro hc <;> simp only [Crypto.sans, hc, if_false, Crypto.mk.injEq] at h ⊢ <;> simp only [h, and_self]

theorem TableSt.eq_of_sans {cs : List Comp} {x y : TableSt} (h : x.sans cs = y.sans cs) :
    (.nodes ∉ cs → x.nodes = y.nodes) ∧ (.table ∉ cs → x = { y with nodes := x.nodes }) := by
  cases x
  cases y
  constructor <;> intro hc <;> simp only [TableSt.sans, hc, if_false, TableSt.mk.injEq] at h ⊢ <;> simp only [h, and_self]

/-- States that agree without the parts of `cs` agree in every other part. -/
theorem Comp.same_of_sans {cs : List Comp} {s u : State} (h : u.sans cs = s.sans cs) {c : Comp} (hc : c ∉ cs) : c.same s u := by
  have hlife := Life.eq_of_sans (congrArg State.life h)
  have hcrypto := Crypto.eq_of_sans (congrArg State.crypto h)
  have htable := TableSt.eq_of_sans (congrArg State.table h)
  have hhw : u.hw.sans cs = s.hw.sans cs := congrArg State.hw h
  have hqueues : u.queues.sans cs = s.queues.sans cs := congrArg State.queues h
  cases c
  case lcs => exact hlife.1 hc
  case life => exact hlife.2 hc
  case slots => exact hcrypto.1 hc
  case crypto => exact hcrypto.2 hc
  case nodes => exact htable.1 hc
  case table => exact htable.2 hc
  case marks | ceilings | storedKeys | almanac | heart =>
    revert hhw
    simp only [Comp.same]
    cases u.hw
    cases s.hw
    intro hhw
    simp only [Heart.sans, hc, if_false, Heart.mk.injEq] at hhw ⊢
    simp only [hhw, and_self]
  case cells | orders | reasm | queues =>
    revert hqueues
    simp only [Comp.same]
    cases u.queues
    cases s.queues
    intro hqueues
    simp only [Queues.sans, hc, if_false, Queues.mk.injEq] at hqueues ⊢
    simp only [hqueues, and_self]
  all_goals
    simp only [State.sans, State.mk.injEq, hc, if_false] at h
    simp only [Comp.same, h]


/-- The list `cs` has every part of `a`. -/
def Comp.has (cs a : List Comp) : Bool := a.all cs.contains

theorem Comp.has_iff {cs a : List Comp} : Comp.has cs a ↔ ∀ c ∈ a, c ∈ cs := by simp [Comp.has]

theorem Comp.has_sub {cs a b : List Comp} (h : Comp.has cs b) (g : Comp.has b a) : Comp.has cs a :=
  Comp.has_iff.2 fun c hc => Comp.has_iff.1 h c (Comp.has_iff.1 g c hc)

theorem Comp.mem_of_has {cs t : List Comp} {c : Comp} (h : Comp.has cs (c :: t)) : c ∈ cs := Comp.has_iff.1 h c (.head _)

theorem Comp.has_one {cs : List Comp} {c : Comp} : Comp.has cs [c] ↔ c ∈ cs := by simp [Comp.has]

/-! ## Rules: fields, branches, folds -/

section
variable {cs : List Comp}

theorem State.sans_ite (c : Prop) [Decidable c] (s t : State) : (if c then s else t).sans cs = if c then s.sans cs else t.sans cs :=
  apply_ite (State.sans · cs) _ _ _

theorem State.sans_foldl {β : Type} {f : State → β → State} (h : ∀ s b, (f s b).sans cs = s.sans cs) (xs : List β) (s : State) :
    (xs.foldl f s).sans cs = s.sans cs := foldl_keeps f (State.sans · cs) h xs s

theorem State.sans_foldl_snd {α β : Type} {f : α × State → β → α × State} (h : ∀ r b, (f r b).2.sans cs = r.2.sans cs) (xs : List β)
    (r : α × State) : (xs.foldl f r).2.sans cs = r.2.sans cs := foldl_keeps f (fun r => r.2.sans cs) h xs r

theorem State.sans_map_getD {α : Type} (s : State) (o : Option α) {f : α → State} (h : ∀ a, (f a).sans cs = s.sans cs) :
    ((o.map f).getD s).sans cs = s.sans cs := by
  cases o with
  | none => rfl
  | some a => exact h a

/-- A field is written whose part the list has. -/
theorem State.sans_set (s : State) :
    (∀ x, Comp.has cs [.rnd] → { s with rnd := x }.sans cs = s.sans cs) ∧ (∀ x, Comp.has cs [.pins] → { s with pins := x }.sans cs = s.sans cs) ∧
    (∀ x, Comp.has cs [.flash] → { s with flash := x }.sans cs = s.sans cs) ∧ (∀ x, Comp.has cs [.time] → { s with time := x }.sans cs = s.sans cs) ∧
    (∀ x, Comp.has cs [.rtc] → { s with rtc := x }.sans cs = s.sans cs) ∧ (∀ x, Comp.has cs [.dirty] → { s with dirty := x }.sans cs = s.sans cs) ∧
    (∀ x, Comp.has cs [.tally] → { s with tally := x }.sans cs = s.sans cs) ∧ (∀ x, Comp.has cs [.early] →
      { s with early := x }.sans cs = s.sans cs) ∧
    (∀ x, Comp.has cs [.mbox] → { s with mbox := x }.sans cs = s.sans cs) ∧ (∀ x, Comp.has cs [.held] → { s with held := x }.sans cs = s.sans cs) ∧
    (∀ x, Comp.has cs [.m0Out] → { s with m0Out := x }.sans cs = s.sans cs) ∧
    (∀ x, Comp.has cs [.parting] → { s with parting := x }.sans cs = s.sans cs) ∧
    (∀ x, Comp.has cs [.fe] → { s with fe := x }.sans cs = s.sans cs) ∧ (∀ x, Comp.has cs [.lanes] → { s with lanes := x }.sans cs = s.sans cs) ∧
    (∀ x, Comp.has cs [.domA] → { s with domA := x }.sans cs = s.sans cs) ∧ (∀ x, Comp.has cs [.domB] → { s with domB := x }.sans cs = s.sans cs) ∧
    (∀ x, Comp.has cs [.dec] → { s with dec := x }.sans cs = s.sans cs) ∧ (∀ x, Comp.has cs [.mac] → { s with mac := x }.sans cs = s.sans cs) ∧
    (∀ x, Comp.has cs [.wake] → { s with wake := x }.sans cs = s.sans cs) ∧ (∀ x, Comp.has cs [.canopy] →
      { s with canopy := x }.sans cs = s.sans cs) ∧
    (∀ x, Comp.has cs [.back] → { s with back := x }.sans cs = s.sans cs) ∧ (∀ x, Comp.has cs [.isl] → { s with isl := x }.sans cs = s.sans cs) := by
  repeat' apply And.intro
  all_goals
    intro x hcs
    simp only [State.sans, if_pos (Comp.mem_of_has hcs)]

theorem keep_of_or {c : Comp} {α : Type} {a b : α} (h : c ∈ cs ∨ a = b) (d : α) : (if c ∈ cs then d else a) = if c ∈ cs then d else b := by
  rcases h with h | h
  · rw [if_pos h, if_pos h]
  · rw [h]

theorem Life.sans_congr {x y : Life} (hlcs : .lcs ∈ cs ∨ x.lcs = y.lcs)
    (hrest : .life ∈ cs ∨ x = { y with lcs := x.lcs }) :
    x.sans cs = y.sans cs := by
  cases x
  cases y
  simp only [Life.mk.injEq, true_and] at *
  simp only [Life.sans, Life.mk.injEq]
  grind

theorem Crypto.sans_congr {x y : Crypto} (hslots : .slots ∈ cs ∨ x.slots = y.slots)
    (hrest : .crypto ∈ cs ∨ x = { y with slots := x.slots }) :
    x.sans cs = y.sans cs := by
  cases x
  cases y
  simp only [Crypto.mk.injEq, true_and] at *
  simp only [Crypto.sans, Crypto.mk.injEq]
  grind

theorem Heart.sans_congr {x y : Heart} (hmarks : .marks ∈ cs ∨ x.zeroCount = y.zeroCount ∧ x.zeroFlag = y.zeroFlag ∧ x.floor = y.floor ∧
  x.rollback = y.rollback)
    (hceilings : .ceilings ∈ cs ∨ x.fc = y.fc ∧ x.groupCell = y.groupCell ∧ x.joinCeil = y.joinCeil ∧ x.seqCeil = y.seqCeil)
    (hstoredKeys : .storedKeys ∈ cs ∨ x.kcfg = y.kcfg ∧ x.mboxKeys = y.mboxKeys ∧ x.lastKeys = y.lastKeys ∧ x.worldKeys = y.worldKeys)
    (halmanac : .almanac ∈ cs ∨ x.almanac = y.almanac)
    (hrest : .heart ∈ cs ∨ x = { y with
      zeroCount := x.zeroCount, zeroFlag := x.zeroFlag, floor := x.floor, rollback := x.rollback, fc := x.fc,
      groupCell := x.groupCell, joinCeil := x.joinCeil, seqCeil := x.seqCeil, kcfg := x.kcfg, mboxKeys := x.mboxKeys,
      lastKeys := x.lastKeys, worldKeys := x.worldKeys, almanac := x.almanac }) :
    x.sans cs = y.sans cs := by
  cases x
  cases y
  simp only [Heart.mk.injEq, true_and] at *
  simp only [Heart.sans, Heart.mk.injEq]
  grind

theorem Queues.sans_congr {x y : Queues} (hcells : .cells ∈ cs ∨ x.used = y.used ∧ x.sharedUsed = y.sharedUsed ∧ x.worldShared = y.worldShared)
    (horders : .orders ∈ cs ∨ x.orders = y.orders)
    (hreasm : .reasm ∈ cs ∨ x.reasm = y.reasm)
    (hrest : .queues ∈ cs ∨ x = { y with
      used := x.used, sharedUsed := x.sharedUsed, worldShared := x.worldShared, orders := x.orders, reasm := x.reasm }) :
    x.sans cs = y.sans cs := by
  cases x
  cases y
  simp only [Queues.mk.injEq, true_and] at *
  simp only [Queues.sans, Queues.mk.injEq]
  grind

theorem TableSt.sans_congr {x y : TableSt} (hnodes : .nodes ∈ cs ∨ x.nodes = y.nodes)
    (hrest : .table ∈ cs ∨ x = { y with nodes := x.nodes }) :
    x.sans cs = y.sans cs := by
  cases x
  cases y
  simp only [TableSt.mk.injEq, true_and] at *
  simp only [TableSt.sans, TableSt.mk.injEq]
  grind

/-- Fields are written whose parts the list has. -/
theorem State.sans_mk (s : State) {rnd life pins flash crypto time rtc hw dirty tally early mbox held m0Out queues parting fe lanes
    domA domB dec mac table wake canopy back isl}
    (hrnd : Comp.has cs [.rnd] ∨ rnd = s.rnd)
    (hlcs : Comp.has cs [.lcs] ∨ life.lcs = s.life.lcs)
    (hlife : Comp.has cs [.life] ∨ life = { s.life with lcs := life.lcs })
    (hpins : Comp.has cs [.pins] ∨ pins = s.pins)
    (hflash : Comp.has cs [.flash] ∨ flash = s.flash)
    (hslots : Comp.has cs [.slots] ∨ crypto.slots = s.crypto.slots)
    (hcrypto : Comp.has cs [.crypto] ∨ crypto = { s.crypto with slots := crypto.slots })
    (htime : Comp.has cs [.time] ∨ time = s.time)
    (hrtc : Comp.has cs [.rtc] ∨ rtc = s.rtc)
    (hmarks : Comp.has cs [.marks] ∨ hw.zeroCount = s.hw.zeroCount ∧ hw.zeroFlag = s.hw.zeroFlag ∧ hw.floor = s.hw.floor ∧
      hw.rollback = s.hw.rollback)
    (hceilings : Comp.has cs [.ceilings] ∨ hw.fc = s.hw.fc ∧ hw.groupCell = s.hw.groupCell ∧ hw.joinCeil = s.hw.joinCeil ∧ hw.seqCeil = s.hw.seqCeil)
    (hstoredKeys : Comp.has cs [.storedKeys] ∨ hw.kcfg = s.hw.kcfg ∧ hw.mboxKeys = s.hw.mboxKeys ∧ hw.lastKeys = s.hw.lastKeys ∧
      hw.worldKeys = s.hw.worldKeys)
    (halmanac : Comp.has cs [.almanac] ∨ hw.almanac = s.hw.almanac)
    (hheart : Comp.has cs [.heart] ∨ hw = { s.hw with
      zeroCount := hw.zeroCount, zeroFlag := hw.zeroFlag, floor := hw.floor, rollback := hw.rollback, fc := hw.fc,
      groupCell := hw.groupCell, joinCeil := hw.joinCeil, seqCeil := hw.seqCeil, kcfg := hw.kcfg, mboxKeys := hw.mboxKeys,
      lastKeys := hw.lastKeys, worldKeys := hw.worldKeys, almanac := hw.almanac })
    (hdirty : Comp.has cs [.dirty] ∨ dirty = s.dirty)
    (htally : Comp.has cs [.tally] ∨ tally = s.tally)
    (hearly : Comp.has cs [.early] ∨ early = s.early)
    (hmbox : Comp.has cs [.mbox] ∨ mbox = s.mbox)
    (hheld : Comp.has cs [.held] ∨ held = s.held)
    (hm0Out : Comp.has cs [.m0Out] ∨ m0Out = s.m0Out)
    (hcells : Comp.has cs [.cells] ∨ queues.used = s.queues.used ∧ queues.sharedUsed = s.queues.sharedUsed ∧
      queues.worldShared = s.queues.worldShared)
    (horders : Comp.has cs [.orders] ∨ queues.orders = s.queues.orders)
    (hreasm : Comp.has cs [.reasm] ∨ queues.reasm = s.queues.reasm)
    (hqueues : Comp.has cs [.queues] ∨ queues = { s.queues with
      used := queues.used, sharedUsed := queues.sharedUsed, worldShared := queues.worldShared, orders := queues.orders,
      reasm := queues.reasm })
    (hparting : Comp.has cs [.parting] ∨ parting = s.parting)
    (hfe : Comp.has cs [.fe] ∨ fe = s.fe)
    (hlanes : Comp.has cs [.lanes] ∨ lanes = s.lanes)
    (hdomA : Comp.has cs [.domA] ∨ domA = s.domA)
    (hdomB : Comp.has cs [.domB] ∨ domB = s.domB)
    (hdec : Comp.has cs [.dec] ∨ dec = s.dec)
    (hmac : Comp.has cs [.mac] ∨ mac = s.mac)
    (hnodes : Comp.has cs [.nodes] ∨ table.nodes = s.table.nodes)
    (htable : Comp.has cs [.table] ∨ table = { s.table with nodes := table.nodes })
    (hwake : Comp.has cs [.wake] ∨ wake = s.wake)
    (hcanopy : Comp.has cs [.canopy] ∨ canopy = s.canopy)
    (hback : Comp.has cs [.back] ∨ back = s.back)
    (hisl : Comp.has cs [.isl] ∨ isl = s.isl) :
    (State.mk s.clk rnd s.id life pins flash crypto time rtc hw dirty tally early mbox held m0Out queues parting fe lanes domA domB dec mac table
      wake canopy back isl s.pending).sans cs = s.sans cs := by
  simp only [Comp.has_one] at *
  simp only [State.sans, Life.sans_congr hlcs hlife, Crypto.sans_congr hslots hcrypto, TableSt.sans_congr hnodes htable,
    Queues.sans_congr hcells horders hreasm hqueues, Heart.sans_congr hmarks hceilings hstoredKeys halmanac hheart,
    keep_of_or hrnd, keep_of_or hpins, keep_of_or hflash, keep_of_or htime, keep_of_or hrtc, keep_of_or hdirty, keep_of_or htally,
      keep_of_or hearly, keep_of_or hmbox, keep_of_or hheld, keep_of_or hm0Out, keep_of_or hparting, keep_of_or hfe, keep_of_or hlanes,
      keep_of_or hdomA, keep_of_or hdomB, keep_of_or hdec, keep_of_or hmac, keep_of_or hwake, keep_of_or hcanopy, keep_of_or hback, keep_of_or hisl]

theorem Heart.sans_apply (hcs : Comp.has cs [.heart]) (h : Heart) (i : HwItem) : (h.apply i).sans cs = h.sans cs := by
  unfold Heart.apply
  repeat' split
  all_goals simp only [Heart.sans, if_pos (Comp.mem_of_has hcs)]

theorem Heart.sans_setRing (hcs : Comp.has cs [.heart]) (h : Heart) (ring : List (List HwItem)) (head : Nat) (pass : Bool) :
    { h with ring := ring, head := head, pass := pass }.sans cs = h.sans cs := by
  simp only [Heart.sans, if_pos (Comp.mem_of_has hcs)]

/-! ## Machine/Ops -/

/-- What protecting a frame ends in leaves the state without the parts of `cs`. -/
def Prot.Sans (cs : List Comp) (s : State) : Prot → Prop
  | .wait => True
  | .done u => u.sans cs = s.sans cs

theorem Prot.sans_wait {cs : List Comp} {s : State} : Prot.Sans cs s .wait := trivial

theorem Prot.sans_done {cs : List Comp} {s u : State} : Prot.Sans cs s (.done u) ↔ u.sans cs = s.sans cs := Iff.rfl

theorem Prot.Sans.of_done {cs : List Comp} {s u : State} {p : Prot} (h : Prot.Sans cs s p) (hp : p = .done u) : u.sans cs = s.sans cs := by
  rw [hp] at h
  exact h

theorem Prot.Sans.after {cs : List Comp} {s t : State} {p : Prot} (h : Prot.Sans cs t p) (g : t.sans cs = s.sans cs) : Prot.Sans cs s p := by
  cases p with
  | wait => trivial
  | done u => exact Eq.trans h g

theorem State.sans_draw (hcs : Comp.has cs [.rnd, .crypto]) (s : State) : s.draw.2.sans cs = s.sans cs := by
  simp +decide only [State.draw, State.sans_mk, or_true, true_or, and_self, Comp.has_sub hcs]

theorem State.sans_count (hcs : Comp.has cs [.tally]) (s : State) (c : Ctr) (sc : Scope) : (s.count c sc).sans cs = s.sans cs := by
  simp +decide only [State.count, State.sans_set, Comp.has_sub hcs]

theorem State.sans_countN (hcs : Comp.has cs [.tally]) (s : State) (c : Ctr) (sc : Scope) (n : Nat) : (s.countN c sc n).sans cs = s.sans cs := by
  simp +decide only [State.countN, State.sans_set, Comp.has_sub hcs]

theorem State.sans_countBoth (hcs : Comp.has cs [.tally]) (s : State) (c : Ctr) (w : Nat) : (s.countBoth c w).sans cs = s.sans cs := by
  simp +decide only [State.countBoth, State.sans_count, Comp.has_sub hcs]

theorem State.sans_deliverTo (hcs : Comp.has cs [.tally, .mbox]) (s : State) (e : Event) (lost : Bool) (m : Nat) :
    (s.deliverTo e lost m).sans cs = s.sans cs := by
  simp +decide only [State.deliverTo, State.sans_count, State.sans_set, State.sans_ite, ite_self, Comp.has_sub hcs]

theorem State.sans_deliver (hcs : Comp.has cs [.tally, .mbox]) (s : State) (e : Event) (lost : Bool) : (s.deliver e lost).sans cs = s.sans cs := by
  unfold State.deliver
  exact State.sans_foldl (fun _ _ => by simp +decide only [State.sans_deliverTo, Comp.has_sub hcs]) _ _

theorem State.sans_hold (hcs : Comp.has cs [.tally, .early]) (s : State) (e : Event) : (s.hold e).sans cs = s.sans cs := by
  simp +decide only [State.hold, State.sans_count, State.sans_set, State.sans_ite, ite_self, Comp.has_sub hcs]

theorem State.sans_raise (hcs : Comp.has cs [.tally, .early, .mbox]) (s : State) (code : Nat) (world : Option Nat) (data : Octets) :
    (s.raise code world data).sans cs = s.sans cs := by
  simp +decide only [State.raise, State.sans_deliver, State.sans_hold, State.sans_ite, ite_self, Comp.has_sub hcs]

theorem State.sans_releaseEarly (hcs : Comp.has cs [.tally, .early, .mbox]) (s : State) : s.releaseEarly.sans cs = s.sans cs := by
  unfold State.releaseEarly
  refine (State.sans_foldl (fun _ _ => ?_) _ _).trans ?_
  all_goals simp +decide only [State.sans_deliver, State.sans_set, Comp.has_sub hcs]

theorem State.sans_touch (hcs : Comp.has cs [.dirty]) (s : State) (d : HwDirty) : (s.touch d).sans cs = s.sans cs := by
  simp +decide only [State.touch, State.sans_set, State.sans_ite, ite_self, Comp.has_sub hcs]

/-! ## Machine/Chains -/

theorem State.sans_setOrder (hcs : Comp.has cs [.orders]) (s : State) (k : Nat) (l : List Packet) : (s.setOrder k l).sans cs = s.sans cs := by
  simp +decide only [State.setOrder, State.sans_mk, or_true, true_or, and_self, Comp.has_sub hcs]

theorem State.sans_picked (hcs : Comp.has cs [.queues]) (s : State) : s.picked.sans cs = s.sans cs := by
  simp +decide only [State.picked, State.sans_mk, or_true, true_or, and_self, Comp.has_sub hcs]

theorem State.sans_spill (hcs : Comp.has cs [.queues]) (s : State) (q : Nat) : (s.spill q).sans cs = s.sans cs := by
  simp +decide only [State.spill, State.sans_mk, or_true, true_or, and_self, Comp.has_sub hcs]

theorem State.sans_leaveStaging (hcs : Comp.has cs [.queues]) (s : State) (w : Producer) (n : Nat) : (s.leaveStaging w n).sans cs = s.sans cs := by
  simp +decide only [State.leaveStaging, State.sans_mk, or_true, true_or, and_self, Comp.has_sub hcs]

theorem State.sans_unstage (hcs : Comp.has cs [.queues]) (s : State) (p : Packet) (keep : List Nat) : (s.unstage p keep).sans cs = s.sans cs := by
  unfold State.unstage
  split <;> simp +decide only [State.sans_leaveStaging, State.sans_mk, or_true, true_or, and_self, State.sans_ite, ite_self, Comp.has_sub hcs]

/-! ## Machine/Cells -/

theorem State.sans_grant (hcs : Comp.has cs [.cells]) {s t : State} {a n : Nat} (h : s.grant a n = some t) : t.sans cs = s.sans cs := by
  rw [(State.grant_some h).1]
  simp +decide only [State.sans_mk, or_true, true_or, and_self, Comp.has_sub hcs]

theorem State.sans_release (hcs : Comp.has cs [.cells]) (s : State) (a n : Nat) : (s.release a n).sans cs = s.sans cs := by
  simp +decide only [State.release, State.sans_mk, or_true, true_or, and_self, Comp.has_sub hcs]

theorem State.sans_cellFreed (hcs : Comp.has cs [.tally, .early, .mbox, .queues]) (s : State) (cell : Nat) :
    (s.cellFreed cell).sans cs = s.sans cs := by
  simp +decide only [State.cellFreed, State.sans_raise, State.sans_count, State.sans_mk, or_true, true_or, and_self, State.sans_ite, ite_self,
    Comp.has_sub hcs]

theorem State.sans_releaseChain (hcs : Comp.has cs [.tally, .early, .mbox, .cells, .queues]) (s : State) (a n : Nat) (chain : List Nat) :
    (s.releaseChain a n chain).sans cs = s.sans cs := by
  unfold State.releaseChain
  refine (State.sans_foldl (fun _ _ => ?_) _ _).trans ?_
  all_goals simp +decide only [State.sans_cellFreed, State.sans_release, Comp.has_sub hcs]

theorem State.sans_commitTo (hcs : Comp.has cs [.orders, .queues]) (s : State) (k : Nat) (acct cells : Nat) (c : Content) (keep : List Nat) :
    (s.commitTo k acct cells c keep).sans cs = s.sans cs := by
  simp +decide only [State.commitTo, State.sans_spill, State.sans_setOrder, State.sans_unstage, Comp.has_sub hcs]

theorem State.sans_post (hcs : Comp.has cs [.cells, .orders, .queues]) {s t : State} {q f w n : Nat} {c : Content} {keep : List Nat} (h : s.post q
    f w n c keep = some t) :
    t.sans cs = s.sans cs := by
  unfold State.post at h
  dsimp only at h
  split at h
  · cases h
  · split at h
    · cases h
    · rename_i u hu
      cases h
      rw [State.sans_commitTo (Comp.has_sub hcs rfl), State.sans_grant (Comp.has_sub hcs rfl) hu]

theorem State.sans_countExpired (hcs : Comp.has cs [.tally]) (s : State) (a : Nat) : (s.countExpired a).sans cs = s.sans cs := by
  unfold State.countExpired
  split <;> simp +decide only [State.sans_count, Comp.has_sub hcs]

theorem State.sans_expireHead (hcs : Comp.has cs [.tally, .early, .mbox, .cells, .orders, .queues]) (s : State) (k : Nat) (n : Nat) :
    (s.expireHead k n).sans cs = s.sans cs := by
  induction n generalizing s with
  | zero => rfl
  | succ n ih =>
    unfold State.expireHead
    repeat' split
    all_goals simp +decide only [ih, State.sans_countExpired, State.sans_releaseChain, State.sans_setOrder, Comp.has_sub hcs]

theorem State.sans_take (hcs : Comp.has cs [.tally, .early, .mbox, .cells, .orders, .queues]) (s : State) (k : Nat) :
    (s.take k).2.sans cs = s.sans cs := by
  unfold State.take
  dsimp only
  repeat' split
  all_goals simp +decide only [State.sans_expireHead, State.sans_setOrder, Comp.has_sub hcs]

theorem State.sans_moveCharge (hcs : Comp.has cs [.cells]) {s t : State} {a b c d : Nat} (h : s.moveCharge a b c d = some t) :
    t.sans cs = s.sans cs := by
  rw [State.sans_grant hcs h, State.sans_release hcs]

/-! ## Machine/Keys -/

theorem State.sans_eraseSlot (hcs : Comp.has cs [.slots, .crypto]) (s : State) (i : Nat) : (s.eraseSlot i).sans cs = s.sans cs := by
  simp +decide only [State.eraseSlot, State.sans_mk, or_true, true_or, and_self, Comp.has_sub hcs]

theorem State.sans_loadSlot (hcs : Comp.has cs [.slots, .crypto]) (s : State) (i : Nat) (k : KeySlot) : (s.loadSlot i k).sans cs = s.sans cs := by
  simp +decide only [State.loadSlot, State.sans_eraseSlot, State.sans_mk, or_true, true_or, and_self, State.sans_ite, ite_self, Comp.has_sub hcs]

theorem State.sans_eraseSlots (hcs : Comp.has cs [.slots, .crypto]) (s : State) (l : List Nat) : (s.eraseSlots l).sans cs = s.sans cs := by
  unfold State.eraseSlots
  exact State.sans_foldl (fun _ _ => by simp +decide only [State.sans_eraseSlot, Comp.has_sub hcs]) _ _

theorem State.sans_dropCached (hcs : Comp.has cs [.slots, .crypto]) (s : State) (i : Nat) : (s.dropCached i).sans cs = s.sans cs := by
  unfold State.dropCached
  split <;> simp +decide only [State.sans_eraseSlot, State.sans_mk, or_true, true_or, and_self, Comp.has_sub hcs]

theorem State.sans_deriveStart (hcs : Comp.has cs [.slots, .crypto]) (s : State) : s.deriveStart.sans cs = s.sans cs := by
  simp +decide only [State.deriveStart, State.sans_loadSlot, State.sans_mk, or_true, true_or, and_self, Comp.has_sub hcs]

theorem State.sans_deriveHw (hcs : Comp.has cs [.slots, .crypto]) (s : State) : s.deriveHw.sans cs = s.sans cs := by
  simp +decide only [State.deriveHw, State.sans_loadSlot, Comp.has_sub hcs]

theorem State.sans_deriveCfg (hcs : Comp.has cs [.slots, .crypto]) (s : State) (kcfg : List Nat) (id : Octets) :
    (s.deriveCfg kcfg id).sans cs = s.sans cs := by
  simp +decide only [State.deriveCfg, State.sans_loadSlot, Comp.has_sub hcs]

theorem State.sans_deriveMbox (hcs : Comp.has cs [.slots, .crypto]) (s : State) (m world : Nat) (key : List Nat) :
    (s.deriveMbox m world key).sans cs = s.sans cs := by
  simp +decide only [State.deriveMbox, State.sans_loadSlot, Comp.has_sub hcs]

theorem State.sans_groupCell (hcs : Comp.has cs [.crypto, .ceilings]) (s : State) (i : Nat) (key : List Nat) :
    (s.groupCell i key).sans cs = s.sans cs := by
  unfold State.groupCell
  split <;> simp +decide only [State.sans_mk, or_true, true_or, and_self, State.sans_ite, ite_self, Comp.has_sub hcs]

theorem State.sans_journalKey (hcs : Comp.has cs [.storedKeys]) (s : State) (i : Nat) : (s.journalKey i).sans cs = s.sans cs := by
  simp +decide only [State.journalKey, State.sans_mk, or_true, true_or, and_self, Comp.has_sub hcs]

theorem State.sans_fixFallback (hcs : Comp.has cs [.slots]) (s : State) (i : Nat) : (s.fixFallback i).sans cs = s.sans cs := by
  simp +decide only [State.fixFallback, State.sans_mk, or_true, true_or, and_self, Comp.has_sub hcs]

theorem State.sans_loadWorldKey (hcs : Comp.has cs [.slots, .crypto, .ceilings]) (s : State) (i : Nat) (k : KeySlot) :
    (s.loadWorldKey i k).sans cs = s.sans cs := by
  simp +decide only [State.loadWorldKey, State.sans_fixFallback, State.sans_groupCell, State.sans_loadSlot, Comp.has_sub hcs]

/-! ## Machine/FeOps -/

theorem State.sans_setFe (hcs : Comp.has cs [.fe]) (s : State) (f : Fe) (x : FeSt) : (s.setFe f x).sans cs = s.sans cs := by
  simp +decide only [State.setFe, State.sans_set, Comp.has_sub hcs]

theorem State.sans_setLane (hcs : Comp.has cs [.lanes]) (s : State) (l : Nat) (x : LaneSt) : (s.setLane l x).sans cs = s.sans cs := by
  simp +decide only [State.setLane, State.sans_set, Comp.has_sub hcs]

theorem State.sans_setDom (hcs : Comp.has cs [.domA, .domB]) (s : State) (d : LaneDom) (x : LaneDomSt) : (s.setDom d x).sans cs = s.sans cs := by
  unfold State.setDom
  split <;> simp +decide only [State.sans_set, Comp.has_sub hcs]

theorem State.sans_setDuty (hcs : Comp.has cs [.mac]) (s : State) (i : Nat) (d : Duty) : (s.setDuty i d).sans cs = s.sans cs := by
  simp +decide only [State.setDuty, State.sans_set, Comp.has_sub hcs]

theorem State.sans_charge (hcs : Comp.has cs [.mac]) (s : State) (i us : Nat) : (s.charge i us).sans cs = s.sans cs := by
  simp +decide only [State.charge, State.sans_setDuty, Comp.has_sub hcs]

theorem State.sans_returnCharge (hcs : Comp.has cs [.mac]) (s : State) (c : Option (Nat × Nat)) (us : Nat) :
    (s.returnCharge c us).sans cs = s.sans cs := by
  unfold State.returnCharge
  split <;> simp +decide only [State.sans_setDuty, Comp.has_sub hcs]

theorem State.sans_wakeFe (hcs : Comp.has cs [.tally, .fe]) (s : State) (f : Fe) : (s.wakeFe f).sans cs = s.sans cs := by
  unfold State.wakeFe
  dsimp only
  repeat' split
  all_goals simp +decide only [State.sans_countN, State.sans_setFe, Comp.has_sub hcs]

theorem State.sans_feed (hcs : Comp.has cs [.dec]) (s : State) : s.feed.sans cs = s.sans cs := by
  simp +decide only [State.feed, State.sans_set, Comp.has_sub hcs]

theorem State.sans_rewindLane (hcs : Comp.has cs [.tally, .early, .mbox, .cells, .queues, .lanes, .dec]) (s : State) (l : Nat) :
    (s.rewindLane l).sans cs = s.sans cs := by
  unfold State.rewindLane
  dsimp only
  repeat' split
  all_goals simp +decide only [State.sans_leaveStaging, State.sans_releaseChain, State.sans_feed, State.sans_setLane, State.sans_set, Comp.has_sub
    hcs]

theorem State.sans_cutLane (hcs : Comp.has cs [.tally, .early, .mbox, .cells, .queues, .lanes, .dec]) (s : State) (l : Nat) (c : Ctr) :
    (s.cutLane l c).sans cs = s.sans cs := by
  unfold State.cutLane
  split <;> simp +decide only [State.sans_count, State.sans_rewindLane, Comp.has_sub hcs]

theorem State.sans_voidSensing (hcs : Comp.has cs [.fe]) (s : State) (f : Fe) : (s.voidSensing f).sans cs = s.sans cs := by
  unfold State.voidSensing
  dsimp only
  repeat' split
  all_goals simp +decide only [State.sans_setFe, Comp.has_sub hcs]

theorem State.sans_blankFe (hcs : Comp.has cs [.tally, .early, .mbox, .cells, .queues, .fe, .lanes, .dec]) (s : State) (f : Fe) (c : Ctr) :
    (s.blankFe f c).sans cs = s.sans cs := by
  unfold State.blankFe
  simp +decide only [State.sans_voidSensing, Comp.has_sub hcs]
  exact State.sans_foldl (fun _ _ => by simp +decide only [State.sans_cutLane, Comp.has_sub hcs]) _ _

theorem State.sans_blankFrom (hcs : Comp.has cs [.tally, .early, .mbox, .cells, .queues, .fe, .lanes, .dec]) (s : State) (f : Fe) (off : Nat) :
    (s.blankFrom f off).sans cs = s.sans cs := by
  unfold State.blankFrom
  refine (State.sans_foldl (fun s l => ?_) _ _).trans (State.sans_voidSensing (Comp.has_sub hcs rfl) s f)
  repeat' split
  all_goals simp +decide only [State.sans_count, State.sans_rewindLane, Comp.has_sub hcs]

theorem State.sans_feOff (hcs : Comp.has cs [.tally, .early, .mbox, .cells, .queues, .fe, .lanes, .dec]) (s : State) (f : Fe) :
    (s.feOff f).sans cs = s.sans cs := by
  simp +decide only [State.feOff, State.sans_blankFe, State.sans_setFe, Comp.has_sub hcs]

theorem State.sans_canLog (hcs : Comp.has cs [.canopy]) (s : State) (kind cause world flags subject old new : Nat) (gain : Int) :
    (s.canLog kind cause world flags subject old new gain).sans cs = s.sans cs := by
  simp +decide only [State.canLog, State.sans_set, Comp.has_sub hcs]

theorem State.sans_owe (hcs : Comp.has cs [.canopy]) (s : State) (kind : Nat) : (s.owe kind).sans cs = s.sans cs := by
  simp +decide only [State.owe, State.sans_set, State.sans_ite, ite_self, Comp.has_sub hcs]

/-! ## Machine/Verieli -/

theorem State.sans_setMb (hcs : Comp.has cs [.mbox]) (s : State) (m : Nat) (b : MboxSt) : (s.setMb m b).sans cs = s.sans cs := by
  simp +decide only [State.setMb, State.sans_set, Comp.has_sub hcs]

theorem State.sans_takeSeq (hcs : Comp.has cs [.ceilings, .mbox]) (s : State) (m : Nat) : (s.takeSeq m).2.sans cs = s.sans cs := by
  unfold State.takeSeq
  split <;> simp +decide only [State.setMb, State.sans_mk, or_true, true_or, and_self, Comp.has_sub hcs]

theorem State.sans_commitMsg (hcs : Comp.has cs [.cells, .orders, .queues, .back]) (s : State) (m : Nat) (msg : Msg) (events : List (BitVec 32)) :
    (s.commitMsg m msg events).sans cs = s.sans cs := by
  unfold State.commitMsg
  repeat' split
  case h_1 t ht => exact State.sans_post (Comp.has_sub hcs rfl) ht
  all_goals simp +decide only [State.sans_commitTo, State.sans_set, Comp.has_sub hcs]

theorem State.sans_respond (hcs : Comp.has cs [.ceilings, .mbox, .cells, .orders, .queues, .back]) (s : State) (m : Nat) (r : Request) (status :
    Nat) (payload : Octets) :
    (s.respond m r status payload).sans cs = s.sans cs := by
  simp +decide only [State.respond, State.sans_takeSeq, State.sans_commitMsg, State.sans_setMb, Comp.has_sub hcs]

theorem State.sans_spend (hcs : Comp.has cs [.heart, .mbox]) (s : State) (m q : Nat) : (s.spend m q).sans cs = s.sans cs := by
  simp +decide only [State.spend, State.setMb, State.sans_mk, or_true, true_or, and_self, Comp.has_sub hcs]

theorem State.sans_acceptRequest (hcs : Comp.has cs [.ceilings, .tally, .mbox, .cells, .orders, .queues, .back]) (s : State) (m : Nat) (r :
    Request) (arrival : Nat) :
    (s.acceptRequest m r arrival).sans cs = s.sans cs := by
  unfold State.acceptRequest
  dsimp only
  repeat' split
  case h_1 t ht => exact State.sans_post (Comp.has_sub hcs rfl) ht
  all_goals simp +decide only [State.sans_respond, State.sans_count, State.sans_commitTo, Comp.has_sub hcs]

theorem State.sans_accept (hcs : Comp.has cs [.ceilings, .heart, .tally, .mbox, .cells, .orders, .queues, .back]) (s : State) (m : Nat) (d :
    Datagram) (arrival : Nat) :
    (s.accept m d arrival).sans cs = s.sans cs := by
  unfold State.accept
  dsimp only
  repeat' split
  all_goals simp +decide only [State.sans_count, State.sans_acceptRequest, State.sans_spend, State.sans_commitMsg, Comp.has_sub hcs]

theorem State.sans_nextRequest (hcs : Comp.has cs [.tally, .early, .mbox, .cells, .orders, .queues]) {s t : State} {m : Nat} {r : Request} (h :
    s.nextRequest m = some (r, t)) :
    t.sans cs = s.sans cs := by
  unfold State.nextRequest at h
  split at h
  · split at h
    · cases h
      simp +decide only [State.sans_releaseChain, State.sans_setOrder, Comp.has_sub hcs]
    · cases h
  · cases h

theorem State.sans_hostCmd (hcs : Comp.has cs [.ceilings, .tally, .early, .mbox, .cells, .orders, .queues, .back]) (s : State) (m op : Nat) {act :
    State → Request → State} (h : ∀ t r, (act t r).sans cs = t.sans cs) :
    (s.hostCmd m op act).sans cs = s.sans cs := by
  unfold State.hostCmd
  split
  · rfl
  · rename_i r t ht
    have released : t.sans cs = s.sans cs := State.sans_nextRequest (Comp.has_sub hcs rfl) ht
    repeat' split
    case isFalse.isFalse.isFalse.isFalse => exact (h t r).trans released
    all_goals simp +decide only [released, State.sans_respond, State.sans_count, Comp.has_sub hcs]

theorem State.sans_shortCmd (hcs : Comp.has cs [.ceilings, .tally, .early, .mbox, .cells, .orders, .queues, .back]) (s : State) (m op len : Nat)
    {act : State → Request → State} (h : ∀ t r, (act t r).sans cs = t.sans cs) :
    (s.shortCmd m op len act).sans cs = s.sans cs := by
  refine State.sans_hostCmd hcs s m op fun t r => ?_
  split
  · simp +decide only [State.sans_respond, Comp.has_sub hcs]
  · exact h t r

theorem State.sans_begin (hcs : Comp.has cs [.ceilings, .mbox, .cells, .orders, .queues, .back]) (s : State) (m : Nat) (r : Request) (first :
    Octets) (status : Nat) (result : Octets) :
    (s.begin m r first status result).sans cs = s.sans cs := by
  simp +decide only [State.begin, State.sans_respond, State.sans_setMb, Comp.has_sub hcs]

theorem State.sans_finish (hcs : Comp.has cs [.ceilings, .mbox, .cells, .orders, .queues, .back]) (s : State) (m : Nat) (b : Busy) (status : Nat)
    (result : Octets) :
    (s.finish m b status result).sans cs = s.sans cs := by
  simp +decide only [State.finish, State.sans_setMb, State.sans_respond, Comp.has_sub hcs]

theorem State.sans_sendEvents (hcs : Comp.has cs [.ceilings, .mbox, .cells, .orders, .queues, .back]) (s : State) (m : Nat) (l : List RingEvent)
    (addr : BitVec 128) (port : BitVec 16) :
    (s.sendEvents m l addr port).sans cs = s.sans cs := by
  simp +decide only [State.sendEvents, State.sans_takeSeq, State.sans_commitMsg, State.sans_setMb, Comp.has_sub hcs]

/-! ## Machine/PortOps -/

theorem State.sans_setPort (hcs : Comp.has cs [.back]) (s : State) (p : Port) (x : PortSt) : (s.setPort p x).sans cs = s.sans cs := by
  simp +decide only [State.setPort, State.sans_set, Comp.has_sub hcs]

theorem State.sans_rewindPort (hcs : Comp.has cs [.tally, .early, .mbox, .cells, .queues, .back]) (s : State) (p : Port) (ignore : Bool) :
    (s.rewindPort p ignore).sans cs = s.sans cs := by
  simp +decide only [State.rewindPort, State.sans_leaveStaging, State.sans_releaseChain, State.sans_setPort, Comp.has_sub hcs]

theorem State.sans_portCells (hcs : Comp.has cs [.tally, .early, .mbox, .cells, .queues, .back]) (s : State) (p : Port) (n : Nat) :
    (s.portCells p n).sans cs = s.sans cs := by
  induction n generalizing s with
  | zero => rfl
  | succ n ih =>
    unfold State.portCells
    split
    · rename_i t ht
      simp +decide only [ih, State.sans_grant (Comp.has_sub hcs rfl) ht, State.sans_setPort, State.sans_picked, Comp.has_sub hcs]
    · simp +decide only [State.sans_count, State.sans_rewindPort, Comp.has_sub hcs]

theorem State.sans_prpExpire (hcs : Comp.has cs [.tally, .back]) (s : State) (now : Nat) : (s.prpExpire now).sans cs = s.sans cs := by
  unfold State.prpExpire
  refine (State.sans_foldl (fun _ _ => ?_) _ _).trans ?_
  all_goals simp +decide only [State.sans_setPort, State.sans_count, State.sans_set, State.sans_ite, ite_self, Comp.has_sub hcs]

theorem State.sans_prpJudge (hcs : Comp.has cs [.tally, .back]) (s : State) (p : Port) (src : BitVec 48) (seq : BitVec 16) (arrival : Nat) :
    (s.prpJudge p src seq arrival).2.sans cs = s.sans cs := by
  unfold State.prpJudge
  dsimp only
  repeat' split
  all_goals simp +decide only [State.sans_prpExpire, State.sans_count, State.sans_set, Comp.has_sub hcs]

theorem State.sans_heardSource (hcs : Comp.has cs [.back]) (s : State) (p : Port) (src : BitVec 48) :
    (s.heardSource p src).sans cs = s.sans cs := by
  simp +decide only [State.heardSource, State.sans_set, Comp.has_sub hcs]

theorem State.sans_takePause (hcs : Comp.has cs [.back]) (s : State) (p : Port) (q : Nat) : (s.takePause p q).sans cs = s.sans cs := by
  unfold State.takePause
  dsimp only
  repeat' split
  all_goals simp +decide only [State.sans_setPort, Comp.has_sub hcs]

theorem State.sans_closeSends (hcs : Comp.has cs [.tally, .early, .mbox, .cells, .queues, .back]) (s : State) :
    s.closeSends.sans cs = s.sans cs := by
  unfold State.closeSends
  refine (State.sans_foldl (fun s x => ?_) _ _).trans ?_
  · split <;> simp +decide only [State.sans_releaseChain, Comp.has_sub hcs]
  · simp +decide only [State.sans_set, Comp.has_sub hcs]

theorem State.sans_stampSent (hcs : Comp.has cs [.back]) (s : State) (p : Port) (seq : BitVec 16) (start : Nat) :
    (s.stampSent p seq start).sans cs = s.sans cs := by
  simp +decide only [State.stampSent, State.sans_setPort, Comp.has_sub hcs]

theorem State.sans_runPort (hcs : Comp.has cs [.tally, .back]) (s : State) (p : Port) (n : Nat) : (s.runPort p n).sans cs = s.sans cs := by
  induction n generalizing s with
  | zero => rfl
  | succ n ih =>
    unfold State.runPort
    dsimp only
    repeat' split
    all_goals simp +decide only [State.sans_setPort, State.sans_count, State.sans_stampSent, State.sans_set, Comp.has_sub hcs, ih]

theorem State.sans_runPorts (hcs : Comp.has cs [.tally, .early, .mbox, .cells, .queues, .back]) (s : State) : s.runPorts.sans cs = s.sans cs := by
  simp +decide only [State.runPorts, State.sans_runPort, State.sans_closeSends, State.sans_ite, ite_self, Comp.has_sub hcs]

theorem State.sans_sendFrame (hcs : Comp.has cs [.tally, .early, .mbox, .cells, .queues, .back]) (s : State) (packet : Option Packet) (size : Nat) :
    (s.sendFrame packet size).sans cs = s.sans cs := by
  simp +decide only [State.sendFrame, State.sans_setPort, State.sans_runPorts, State.sans_set, State.sans_ite, ite_self, Comp.has_sub hcs]

theorem State.sans_sendDelayReq (hcs : Comp.has cs [.tally, .early, .mbox, .cells, .queues, .back]) (s : State) (p : Port) :
    (s.sendDelayReq p).sans cs = s.sans cs := by
  simp +decide only [State.sendDelayReq, State.sans_runPorts, State.sans_setPort, State.sans_set, Comp.has_sub hcs]

theorem State.sans_expireEgress (hcs : Comp.has cs [.tally, .early, .mbox, .cells, .orders, .queues]) (s : State) :
    s.expireEgress.sans cs = s.sans cs := by
  unfold State.expireEgress
  exact State.sans_foldl (fun _ _ => by simp +decide only [State.sans_expireHead, Comp.has_sub hcs]) _ _

theorem State.sans_setDeficit (hcs : Comp.has cs [.back]) (s : State) (w n : Nat) : (s.setDeficit w n).sans cs = s.sans cs := by
  simp +decide only [State.setDeficit, State.sans_set, Comp.has_sub hcs]

theorem State.sans_drr (hcs : Comp.has cs [.back]) {s t : State} {n q : Nat} (h : s.drr n = some (q, t)) : t.sans cs = s.sans cs := by
  induction n generalizing s with
  | zero => cases h
  | succ n ih =>
    unfold State.drr at h
    dsimp only at h
    generalize s.back.deficit.getD s.back.turn 0 + _ = d at h
    repeat' split at h
    case h_2.isTrue =>
      cases h
      simp +decide only [State.sans_setDeficit, State.sans_set, Comp.has_sub hcs]
    all_goals
      refine (ih h).trans ?_
      simp +decide only [State.sans_setDeficit, State.sans_set, Comp.has_sub hcs]

theorem State.sans_sendHead (hcs : Comp.has cs [.tally, .early, .mbox, .cells, .orders, .queues, .back]) (s : State) (q : Nat) :
    (s.sendHead q).sans cs = s.sans cs := by
  unfold State.sendHead
  split <;> simp +decide only [State.sans_sendFrame, State.sans_setOrder, Comp.has_sub hcs]

theorem State.sans_egress (hcs : Comp.has cs [.tally, .early, .mbox, .cells, .orders, .queues, .back]) (s : State) :
    s.egress.sans cs = s.sans cs := by
  unfold State.egress
  dsimp only
  repeat' split
  case h_1.isTrue ht _ => simp +decide only [State.sans_drr (Comp.has_sub hcs rfl) ht, State.sans_expireEgress, State.sans_sendHead,
    State.sans_setDeficit, Comp.has_sub hcs]
  case h_1.isFalse ht _ => simp +decide only [State.sans_drr (Comp.has_sub hcs rfl) ht, State.sans_expireEgress, State.sans_sendHead, Comp.has_sub
    hcs]
  all_goals simp +decide only [State.sans_expireEgress, State.sans_sendDelayReq, State.sans_sendHead, Comp.has_sub hcs]

theorem State.sans_sawmill (hcs : Comp.has cs [.tally, .cells, .orders, .queues, .back]) (s : State) : s.sawmill.sans cs = s.sans cs := by
  unfold State.sawmill
  dsimp only
  repeat' split
  case h_2 ht =>
    refine (State.sans_foldl (fun _ _ => State.sans_commitTo (Comp.has_sub hcs rfl) ..) _ _).trans ?_
    simp +decide only [State.sans_grant (Comp.has_sub hcs rfl) ht, State.sans_set, Comp.has_sub hcs]
  all_goals simp +decide only [State.sans_count, State.sans_set, Comp.has_sub hcs]

theorem State.sans_enterPathFault (hcs : Comp.has cs [.tally, .early, .mbox, .back]) (s : State) (p : Port) (cause : Nat) :
    (s.enterPathFault p cause).sans cs = s.sans cs := by
  simp +decide only [State.enterPathFault, State.sans_raise, State.sans_setPort, State.sans_ite, ite_self, Comp.has_sub hcs]

theorem State.sans_judgePath (hcs : Comp.has cs [.tally, .early, .mbox, .back]) (s : State) (y : Port) : (s.judgePath y).sans cs = s.sans cs := by
  simp +decide only [State.judgePath, State.sans_setPort, State.sans_enterPathFault, State.sans_raise, State.sans_ite, ite_self, Comp.has_sub hcs]

theorem State.sans_pathWindow (hcs : Comp.has cs [.tally, .early, .mbox, .back]) (s : State) : s.pathWindow.sans cs = s.sans cs := by
  simp +decide only [State.pathWindow, State.sans_prpExpire, State.sans_judgePath, State.sans_setPort, State.sans_set, State.sans_ite, ite_self,
    Comp.has_sub hcs]

theorem State.sans_beginChange (hcs : Comp.has cs [.back]) (s : State) (y : Port) (target : Speed) :
    (s.beginChange y target).sans cs = s.sans cs := by
  simp +decide only [State.beginChange, State.sans_setPort, Comp.has_sub hcs]

theorem State.sans_enterLoad (hcs : Comp.has cs [.back]) (s : State) (y : Port) (rx tx : Nat) : (s.enterLoad y rx tx).sans cs = s.sans cs := by
  simp +decide only [State.enterLoad, State.sans_setPort, Comp.has_sub hcs]

theorem State.sans_decideStep (hcs : Comp.has cs [.back]) (s : State) (y : Port) : (s.decideStep y).sans cs = s.sans cs := by
  unfold State.decideStep
  split <;> simp +decide only [State.sans_beginChange, State.sans_ite, ite_self, Comp.has_sub hcs]

theorem State.sans_beginPorts (hcs : Comp.has cs [.heart, .back]) (s : State) : s.beginPorts.sans cs = s.sans cs := by
  simp +decide only [State.beginPorts, State.sans_setPort, State.sans_mk, or_true, true_or, and_self, State.sans_ite, ite_self, Comp.has_sub hcs]

/-! ## Machine/LaneOps -/

theorem State.sans_markBusy (hcs : Comp.has cs [.fe]) (s : State) (f : Fe) (k : Nat) : (s.markBusy f k).sans cs = s.sans cs := by
  unfold State.markBusy
  dsimp only
  repeat' split
  all_goals simp +decide only [State.sans_setFe, Comp.has_sub hcs]

theorem State.sans_laneMoved (hcs : Comp.has cs [.fe]) (s : State) (l : Nat) : (s.laneMoved l).sans cs = s.sans cs := by
  unfold State.laneMoved
  refine State.sans_foldl (fun _ _ => ?_) _ _
  dsimp only
  repeat' split
  all_goals simp +decide only [State.sans_setFe, Comp.has_sub hcs]

theorem State.sans_noteIdle (hcs : Comp.has cs [.fe]) (s : State) (p : Option (Nat × Nat)) : (s.noteIdle p).sans cs = s.sans cs := by
  unfold State.noteIdle
  split <;> simp +decide only [State.sans_setFe, State.sans_ite, ite_self, Comp.has_sub hcs]

theorem State.sans_faultLane (hcs : Comp.has cs [.tally, .early, .mbox, .cells, .queues, .fe, .lanes, .dec, .canopy]) (s : State) (l : Nat) (c :
    LaneFaultCause) :
    (s.faultLane l c).sans cs = s.sans cs := by
  unfold State.faultLane
  dsimp only
  repeat' split
  all_goals simp +decide only [State.sans_cutLane, State.sans_owe, State.sans_laneMoved, State.sans_setLane, State.sans_canLog, State.sans_count,
    State.sans_noteIdle, State.sans_raise, State.sans_set, Comp.has_sub hcs]

theorem State.sans_stopLane (hcs : Comp.has cs [.tally, .early, .mbox, .cells, .queues, .lanes, .dec]) (s : State) (l : Nat) :
    (s.stopLane l).sans cs = s.sans cs := by
  unfold State.stopLane
  split <;> simp +decide only [State.sans_rewindLane, Comp.has_sub hcs]

theorem State.sans_stopDom (hcs : Comp.has cs [.tally, .early, .mbox, .cells, .queues, .lanes, .domA, .domB, .dec]) (s : State) (d : LaneDom) :
    (s.stopDom d).sans cs = s.sans cs := by
  simp +decide only [State.stopDom, State.sans_stopLane (Comp.has_sub hcs rfl), State.sans_setDom (Comp.has_sub hcs rfl), State.sans_ite, ite_self,
    State.sans_foldl, implies_true]

theorem State.sans_domDown (hcs : Comp.has cs [.tally, .early, .mbox, .cells, .queues, .fe, .lanes, .domA, .domB, .dec, .canopy]) (s : State) (d :
    LaneDom) :
    (s.domDown d).sans cs = s.sans cs := by
  unfold State.domDown
  dsimp only
  repeat' split
  all_goals simp +decide only [State.sans_cutLane (Comp.has_sub hcs rfl), State.sans_laneMoved (Comp.has_sub hcs rfl), State.sans_setLane
    (Comp.has_sub hcs rfl), State.sans_noteIdle (Comp.has_sub hcs rfl), State.sans_owe (Comp.has_sub hcs rfl), State.sans_setDom (Comp.has_sub hcs
    rfl), State.sans_set, State.sans_foldl, implies_true, Comp.has_sub hcs]

/-! ## Machine/TimeOps -/

theorem State.sans_setRtc (hcs : Comp.has cs [.rtc]) (s : State) (r : Rtc) : (s.setRtc r).sans cs = s.sans cs := by
  simp +decide only [State.setRtc, State.sans_set, Comp.has_sub hcs]

theorem State.sans_trust (hcs : Comp.has cs [.rtc, .tally, .early, .mbox]) (s : State) : s.trust.sans cs = s.sans cs := by
  simp +decide only [State.trust, State.sans_setRtc, State.sans_raise, State.sans_ite, ite_self, Comp.has_sub hcs]

theorem State.sans_setAlm (hcs : Comp.has cs [.almanac]) (s : State) (k : Nat) (e : AlmEntry) : (s.setAlm k e).sans cs = s.sans cs := by
  simp +decide only [State.setAlm, State.sans_mk, or_true, true_or, and_self, Comp.has_sub hcs]

theorem State.sans_almMiss (hcs : Comp.has cs [.almanac, .tally, .early, .mbox]) (s : State) (k : Nat) (e : AlmEntry) (u : Int) :
    (s.almMiss k e u).sans cs = s.sans cs := by
  simp +decide only [State.almMiss, State.sans_setAlm, State.sans_raise, State.sans_count, State.sans_ite, ite_self, Comp.has_sub hcs]

theorem State.sans_almScan (hcs : Comp.has cs [.almanac, .tally, .early, .mbox]) (s : State) (basis : Nat) (cPrev oPrev cNow oNow : Int) :
    (s.almScan basis cPrev oPrev cNow oNow).2.sans cs = s.sans cs := by
  unfold State.almScan
  refine State.sans_foldl_snd (fun r p => ?_) _ ([], s)
  dsimp only
  repeat' split
  all_goals simp +decide only [State.sans_almMiss, Comp.has_sub hcs]

theorem State.sans_almAct (hcs : Comp.has cs [.rtc, .tally]) (s : State) (add : Bool) : (s.almAct add).sans cs = s.sans cs := by
  unfold State.almAct
  split <;> simp +decide only [State.sans_setRtc, State.sans_count, Comp.has_sub hcs]

theorem State.sans_almFire (hcs : Comp.has cs [.rtc, .almanac, .tally, .cells, .orders, .queues]) (s : State) (now : Int) (d : Due) :
    (s.almFire now d).sans cs = s.sans cs := by
  unfold State.almFire
  dsimp only
  split
  · split
    · next ht => simp +decide only [State.sans_post (Comp.has_sub hcs rfl) ht, State.sans_setAlm, State.sans_count, State.sans_ite, ite_self,
      Comp.has_sub hcs]
    · simp +decide only [State.sans_setAlm, State.sans_count, State.sans_ite, ite_self, Comp.has_sub hcs]
  · simp +decide only [State.sans_setAlm, State.sans_count, State.sans_almAct, State.sans_ite, ite_self, Comp.has_sub hcs]
  · simp +decide only [State.sans_setAlm, State.sans_count, State.sans_almAct, State.sans_ite, ite_self, Comp.has_sub hcs]

theorem State.sans_almEvaluate (hcs : Comp.has cs [.time, .rtc, .almanac, .dirty, .tally, .early, .mbox, .cells, .orders, .queues]) (s : State)
    (count : BitVec 48) :
    (s.almEvaluate count).sans cs = s.sans cs := by
  simp +decide only [State.almEvaluate, State.sans_almScan (Comp.has_sub hcs rfl), State.sans_almFire (Comp.has_sub hcs rfl), State.sans_touch
    (Comp.has_sub hcs rfl), State.sans_set, State.sans_foldl, implies_true, Comp.has_sub hcs]

theorem State.sans_almanac (hcs : Comp.has cs [.time, .rtc, .almanac, .dirty, .tally, .early, .mbox, .cells, .orders, .queues]) (s : State) :
    s.almanac.sans cs = s.sans cs := by
  simp +decide only [State.almanac, State.sans_almEvaluate, State.sans_set, State.sans_ite, ite_self, Comp.has_sub hcs]

theorem State.sans_almResume (hcs : Comp.has cs [.time, .rtc, .almanac, .dirty, .tally, .early, .mbox, .cells, .orders, .queues]) (s : State) :
    s.almResume.sans cs = s.sans cs := by
  unfold State.almResume
  refine (State.sans_foldl (fun _ _ => ?_) _ _).trans ?_
  all_goals simp +decide only [State.sans_almEvaluate, State.sans_set, Comp.has_sub hcs]

theorem State.sans_writeRtc (hcs : Comp.has cs [.time, .rtc, .almanac, .dirty, .tally, .early, .mbox, .cells, .orders, .queues]) (s : State) (sec :
    BitVec 48) (ago : Nat) :
    (s.writeRtc sec ago).sans cs = s.sans cs := by
  simp +decide only [State.writeRtc, State.sans_setRtc, State.sans_almanac, State.sans_trust, Comp.has_sub hcs]

theorem State.sans_leapOffset (hcs : Comp.has cs [.time, .dirty]) (s : State) (d : Int) : (s.leapOffset d).sans cs = s.sans cs := by
  simp +decide only [State.leapOffset, State.sans_touch, State.sans_set, State.sans_ite, ite_self, Comp.has_sub hcs]

theorem State.sans_countdown (hcs : Comp.has cs [.rtc, .tally, .early, .mbox]) (s : State) : s.countdown.sans cs = s.sans cs := by
  simp +decide only [State.countdown, State.sans_setRtc, State.sans_raise, State.sans_ite, ite_self, Comp.has_sub hcs]

theorem State.sans_rtcSecond (hcs : Comp.has cs [.rnd, .time, .rtc, .almanac, .dirty, .tally, .early, .mbox, .cells, .orders, .queues]) (s : State)
    :
    s.rtcSecond.sans cs = s.sans cs := by
  unfold State.rtcSecond
  dsimp only
  repeat' split
  all_goals simp +decide only [State.sans_setRtc, State.sans_almanac, State.sans_countdown, State.sans_leapOffset, State.sans_set, Comp.has_sub hcs]

theorem State.sans_postStep (hcs : Comp.has cs [.time]) (s : State) (delta : Int) : (s.postStep delta).sans cs = s.sans cs := by
  simp +decide only [State.postStep, State.sans_set, Comp.has_sub hcs]

theorem State.sans_setDisc (hcs : Comp.has cs [.time, .dirty]) (s : State) (d : Discipline) : (s.setDisc d).sans cs = s.sans cs := by
  simp +decide only [State.setDisc, State.sans_touch, State.sans_set, Comp.has_sub hcs]

theorem State.sans_measure (hcs : Comp.has cs [.rnd, .time, .dirty, .tally, .early, .mbox]) (s : State) (o : Int) :
    (s.measure o).sans cs = s.sans cs := by
  unfold State.measure
  dsimp only
  repeat' split
  all_goals simp +decide only [State.sans_raise, State.sans_setDisc, State.sans_postStep, State.sans_mk, or_true, true_or, and_self, Comp.has_sub
    hcs]

theorem State.sans_followMaster (hcs : Comp.has cs [.time, .dirty]) (s : State) (m : Master) : (s.followMaster m).sans cs = s.sans cs := by
  unfold State.followMaster
  dsimp only
  repeat' split
  all_goals simp +decide only [State.sans_touch, State.sans_set, Comp.has_sub hcs]

theorem State.sans_ptp (hcs : Comp.has cs [.rnd, .time, .dirty, .tally, .early, .mbox, .back]) (s : State) (p : Port) :
    (s.ptp p).sans cs = s.sans cs := by
  unfold State.ptp
  dsimp only
  repeat' split
  all_goals simp +decide only [State.sans_setPort, State.sans_measure, State.sans_followMaster, State.sans_set, Comp.has_sub hcs]

theorem State.sans_takePtp (hcs : Comp.has cs [.time, .dirty, .back]) (s : State) (p : Port) (m : PtpMsg) (t : Nat) :
    (s.takePtp p m t).sans cs = s.sans cs := by
  unfold State.takePtp
  dsimp only
  repeat' split
  all_goals simp +decide only [State.sans_setPort, State.sans_followMaster, State.sans_set, Comp.has_sub hcs]

theorem State.sans_rtcAdjust (hcs : Comp.has cs [.rtc, .tally]) (s : State) (err : Int) : (s.rtcAdjust err).sans cs = s.sans cs := by
  unfold State.rtcAdjust
  split <;> simp +decide only [State.sans_setRtc, State.sans_count, State.sans_ite, ite_self, Comp.has_sub hcs]

theorem State.sans_seedTime (hcs : Comp.has cs [.time, .rtc]) (s : State) : s.seedTime.sans cs = s.sans cs := by
  simp +decide only [State.seedTime, State.sans_mk, or_true, true_or, and_self, Comp.has_sub hcs]

theorem State.sans_oscStop (hcs : Comp.has cs [.rtc, .tally, .early, .mbox]) (s : State) : s.oscStop.sans cs = s.sans cs := by
  simp +decide only [State.oscStop, State.sans_setRtc, State.sans_raise, State.sans_ite, ite_self, Comp.has_sub hcs]

theorem State.sans_oscStart (hcs : Comp.has cs [.rtc]) (s : State) : s.oscStart.sans cs = s.sans cs := by
  simp +decide only [State.oscStart, State.sans_setRtc, State.sans_ite, ite_self, Comp.has_sub hcs]

/-! ## Machine/Table -/

theorem State.sans_setNode (hcs : Comp.has cs [.nodes]) (s : State) (i : Nat) (n : Node) : (s.setNode i n).sans cs = s.sans cs := by
  simp +decide only [State.setNode, State.sans_mk, or_true, true_or, and_self, Comp.has_sub hcs]

theorem State.sans_putNode (hcs : Comp.has cs [.dirty, .nodes]) (s : State) (i : Nat) (n : Node) : (s.putNode i n).sans cs = s.sans cs := by
  simp +decide only [State.putNode, State.sans_touch, State.sans_setNode, Comp.has_sub hcs]

theorem State.sans_unindex (hcs : Comp.has cs [.table]) (s : State) (i : Nat) (eui : BitVec 64) : (s.unindex i eui).sans cs = s.sans cs := by
  simp +decide only [State.unindex, State.sans_mk, or_true, true_or, and_self, Comp.has_sub hcs]

theorem State.sans_raiseTableFull (hcs : Comp.has cs [.tally, .early, .mbox]) (s : State) (reason : Nat) :
    (s.raiseTableFull reason).sans cs = s.sans cs := by
  simp +decide only [State.raiseTableFull, State.sans_raise, Comp.has_sub hcs]

theorem State.sans_insertFailed (hcs : Comp.has cs [.tally, .early, .mbox, .table]) (s : State) (reason : Nat) :
    (s.insertFailed reason).sans cs = s.sans cs := by
  simp +decide only [State.insertFailed, State.sans_count, State.sans_raiseTableFull, State.sans_mk, or_true, true_or, and_self, State.sans_ite,
    ite_self, Comp.has_sub hcs]

theorem State.sans_insertNode (hcs : Comp.has cs [.dirty, .tally, .early, .mbox, .nodes, .table]) (s : State) (n : Node) :
    (s.insertNode n).2.sans cs = s.sans cs := by
  unfold State.insertNode
  dsimp only
  repeat' split
  all_goals simp +decide only [State.sans_insertFailed, State.sans_putNode, State.sans_mk, or_true, true_or, and_self, Comp.has_sub hcs]

theorem State.sans_forgetNode (hcs : Comp.has cs [.table, .canopy]) (s : State) (i : Nat) : (s.forgetNode i).sans cs = s.sans cs := by
  simp +decide only [State.forgetNode, State.sans_mk, or_true, true_or, and_self, Comp.has_sub hcs]

theorem State.sans_clearNode (hcs : Comp.has cs [.slots, .crypto, .dirty, .nodes, .table, .canopy]) (s : State) (i : Nat) :
    (s.clearNode i).sans cs = s.sans cs := by
  unfold State.clearNode
  split <;> simp +decide only [State.sans_dropCached, State.sans_forgetNode, State.sans_putNode, State.sans_unindex, State.sans_ite, ite_self,
    Comp.has_sub hcs]

theorem State.sans_learn (hcs : Comp.has cs [.tally, .table]) (s : State) (f : Fe) (h : Hearing) : (s.learn f h).sans cs = s.sans cs := by
  unfold State.learn
  dsimp only
  repeat' split
  all_goals simp +decide only [State.sans_count, State.sans_mk, or_true, true_or, and_self, Comp.has_sub hcs]

theorem State.sans_refresh (hcs : Comp.has cs [.dirty, .nodes]) (s : State) (i : Nat) (f : Fe) (h : Hearing) (rate : Nat) (tracked : Bool) :
    (s.refresh i f h rate tracked).sans cs = s.sans cs := by
  unfold State.refresh
  split <;> simp +decide only [State.sans_putNode, State.sans_ite, ite_self, Comp.has_sub hcs]

theorem State.sans_sweepState (hcs : Comp.has cs [.slots, .crypto, .dirty, .nodes, .table, .canopy]) (s : State) (i : Nat) (n : Node) :
    (s.sweepState i n).sans cs = s.sans cs := by
  unfold State.sweepState
  repeat' split
  all_goals simp +decide only [State.sans_clearNode, State.sans_putNode, State.sans_ite, ite_self, Comp.has_sub hcs]

theorem State.sans_sweepParents (hcs : Comp.has cs [.dirty, .tally, .nodes]) (s : State) (i : Nat) : (s.sweepParents i).sans cs = s.sans cs := by
  unfold State.sweepParents
  split <;> simp +decide only [State.sans_count, State.sans_touch, State.sans_setNode, State.sans_ite, ite_self, Comp.has_sub hcs]

theorem State.sans_dropLinks (hcs : Comp.has cs [.table]) (s : State) (i : Nat) : (s.dropLinks i).sans cs = s.sans cs := by
  simp +decide only [State.dropLinks, State.sans_mk, or_true, true_or, and_self, Comp.has_sub hcs]

theorem State.sans_freeNode (hcs : Comp.has cs [.ceilings, .heart, .nodes]) (s : State) (i : Nat) : (s.freeNode i).sans cs = s.sans cs := by
  simp +decide only [State.freeNode, State.sans_mk, or_true, true_or, and_self, Comp.has_sub hcs]

theorem State.sans_sweepVisit (hcs : Comp.has cs [.slots, .crypto, .ceilings, .heart, .dirty, .tally, .nodes, .table, .canopy]) (s : State) :
    s.sweepVisit.sans cs = s.sans cs := by
  unfold State.sweepVisit
  dsimp only
  repeat' split
  all_goals simp +decide only [State.sans_freeNode, State.sans_dropLinks, State.sans_sweepParents, State.sans_sweepState, State.sans_mk, or_true,
    true_or, and_self, Comp.has_sub hcs]

theorem State.sans_fixEntry (hcs : Comp.has cs [.tally, .table]) (s : State) (b k : Nat) : (s.fixEntry b k).sans cs = s.sans cs := by
  simp +decide only [State.fixEntry, State.sans_count, State.sans_mk, or_true, true_or, and_self, State.sans_ite, ite_self, Comp.has_sub hcs]

theorem State.sans_fixOverflow (hcs : Comp.has cs [.tally, .table]) (s : State) (b : Nat) : (s.fixOverflow b).sans cs = s.sans cs := by
  simp +decide only [State.fixOverflow, State.sans_count, State.sans_mk, or_true, true_or, and_self, State.sans_ite, ite_self, Comp.has_sub hcs]

theorem State.sans_fixRecord (hcs : Comp.has cs [.slots, .crypto, .dirty, .tally, .nodes, .table, .canopy]) (s : State) (i : Nat) :
    (s.fixRecord i).sans cs = s.sans cs := by
  unfold State.fixRecord
  dsimp only
  repeat' split
  all_goals simp +decide only [State.sans_count, State.sans_clearNode, State.sans_mk, or_true, true_or, and_self, Comp.has_sub hcs]

theorem State.sans_walkVisit (hcs : Comp.has cs [.slots, .crypto, .dirty, .tally, .nodes, .table, .canopy]) (s : State) :
    s.walkVisit.sans cs = s.sans cs := by
  simp +decide only [State.walkVisit, State.sans_fixEntry (Comp.has_sub hcs rfl), State.sans_fixRecord (Comp.has_sub hcs rfl),
    State.sans_fixOverflow (Comp.has_sub hcs rfl), State.sans_mk, or_true, true_or, and_self, State.sans_ite, ite_self, State.sans_foldl,
    implies_true, Comp.has_sub hcs]

/-! ## Machine/WakeOps -/

theorem State.sans_setGates (hcs : Comp.has cs [.wake]) (s : State) (f : Fe) (g : GateSt) : (s.setGates f g).sans cs = s.sans cs := by
  simp +decide only [State.setGates, State.sans_set, Comp.has_sub hcs]

theorem State.sans_settleCredits (hcs : Comp.has cs [.wake]) (s : State) : s.settleCredits.sans cs = s.sans cs := by
  simp +decide only [State.settleCredits, State.sans_set, Comp.has_sub hcs]

theorem State.sans_addCredit (hcs : Comp.has cs [.wake]) (s : State) (w : Nat) (f : Fe) (d : Int) : (s.addCredit w f d).2.sans cs = s.sans cs := by
  simp +decide only [State.addCredit, State.sans_settleCredits, State.sans_set, Comp.has_sub hcs]

theorem State.sans_pacedEnd (hcs : Comp.has cs [.nodes, .wake]) (s : State) (packet : Nat) (n endNs : Nat) :
    (s.pacedEnd packet n endNs).sans cs = s.sans cs := by
  unfold State.pacedEnd
  dsimp only
  repeat' split
  all_goals simp +decide only [State.sans_setNode, State.sans_set, Comp.has_sub hcs]

theorem State.sans_pacedAir (hcs : Comp.has cs [.wake]) (s : State) (packet : Nat) (us : Nat) : (s.pacedAir packet us).sans cs = s.sans cs := by
  simp +decide only [State.pacedAir, State.sans_set, Comp.has_sub hcs]

theorem State.sans_releaseAll (hcs : Comp.has cs [.tally, .early, .mbox, .cells, .queues]) (s : State) (l : List Packet) :
    (s.releaseAll l).sans cs = s.sans cs := by
  unfold State.releaseAll
  exact State.sans_foldl (fun _ _ => by simp +decide only [State.sans_releaseChain, Comp.has_sub hcs]) _ _

theorem State.sans_removePacket (hcs : Comp.has cs [.tally, .early, .mbox, .cells, .orders, .queues, .fe, .wake]) (s : State) (packet : Nat) :
    (s.removePacket packet).2.sans cs = s.sans cs := by
  simp +decide only [State.removePacket, State.sans_releaseAll (Comp.has_sub hcs rfl), State.sans_setFe (Comp.has_sub hcs rfl),
    State.sans_releaseChain (Comp.has_sub hcs rfl), State.sans_mk, or_true, true_or, and_self, State.sans_foldl, State.sans_foldl_snd,
    implies_true, Comp.has_sub hcs]

theorem State.sans_abandonRest (hcs : Comp.has cs [.tally, .early, .mbox, .cells, .orders, .queues, .fe, .nodes, .wake]) (s : State) (d :
    DownFrame) :
    (s.abandonRest d).sans cs = s.sans cs := by
  unfold State.abandonRest
  split <;> simp +decide only [State.sans_removePacket, State.sans_pacedEnd, State.sans_countN, Comp.has_sub hcs]

theorem State.sans_discardFrame (hcs : Comp.has cs [.tally, .early, .mbox, .cells, .orders, .queues, .fe, .nodes, .wake]) (s : State) (d :
    DownFrame) (acct cells : Nat) (chain : List Nat) (c : Ctr) (sc : Scope) :
    (s.discardFrame d acct cells chain c sc).sans cs = s.sans cs := by
  simp +decide only [State.discardFrame, State.sans_abandonRest, State.sans_count, State.sans_releaseChain, Comp.has_sub hcs]

theorem State.sans_setFlow (hcs : Comp.has cs [.wake]) (s : State) (f : Flow) : (s.setFlow f).sans cs = s.sans cs := by
  simp +decide only [State.setFlow, State.sans_set, Comp.has_sub hcs]

theorem State.sans_noGate (hcs : Comp.has cs [.tally, .early, .mbox, .cells, .orders, .queues, .fe, .nodes, .wake]) (s : State) (i : Nat) (n : Nat)
    :
    (s.noGate i n).sans cs = s.sans cs := by
  induction n generalizing s with
  | zero => rfl
  | succ n ih =>
    unfold State.noGate
    repeat' split
    all_goals simp +decide only [ih, State.sans_discardFrame, State.sans_setFlow, Comp.has_sub hcs]

theorem State.sans_replace (hcs : Comp.has cs [.tally, .early, .mbox, .cells, .orders, .queues, .fe, .nodes, .wake]) (s : State) (f : Flow) :
    (s.replace f).sans cs = s.sans cs := by
  unfold State.replace
  repeat' split
  all_goals simp +decide only [State.sans_setFlow, State.sans_noGate, Comp.has_sub hcs]

theorem State.sans_defer (hcs : Comp.has cs [.tally, .early, .mbox, .cells, .orders, .queues, .fe, .nodes, .wake]) (s : State) (i : Nat) (q : Nat)
    (p : Packet) (d : DownFrame) :
    (s.defer i q p d).sans cs = s.sans cs := by
  unfold State.defer
  split <;> simp +decide only [State.sans_count, State.sans_setFlow, State.sans_discardFrame, State.sans_replace, State.sans_ite, ite_self,
    Comp.has_sub hcs]

theorem State.sans_openCont (hcs : Comp.has cs [.mac]) (s : State) (c : Cont) : (s.openCont c).sans cs = s.sans cs := by
  simp +decide only [State.openCont, State.sans_set, Comp.has_sub hcs]

theorem State.sans_examine (hcs : Comp.has cs [.tally, .early, .mbox, .cells, .orders, .queues, .fe, .nodes, .wake]) (s : State) (f : Fe) (q : Nat)
    (n : Nat) :
    (s.examine f q n).sans cs = s.sans cs := by
  induction n generalizing s with
  | zero => rfl
  | succ n ih =>
    unfold State.examine
    dsimp only
    repeat' split
    all_goals simp +decide only [State.sans_abandonRest, State.sans_countExpired, State.sans_releaseChain, State.sans_setOrder,
      State.sans_discardFrame, State.sans_defer, Comp.has_sub hcs, ih]

theorem State.sans_reviewFlow (hcs : Comp.has cs [.tally, .early, .mbox, .cells, .orders, .queues, .fe, .nodes, .wake]) (s : State) (f : Fe) (i :
    Nat) :
    (s.reviewFlow f i).sans cs = s.sans cs := by
  unfold State.reviewFlow
  repeat' split
  case h_2 =>
    refine (State.sans_foldl (fun s p => ?_) _ _).trans (State.sans_setFlow (Comp.has_sub hcs rfl) ..)
    split <;> simp +decide only [State.sans_discardFrame, Comp.has_sub hcs]
  all_goals simp +decide only [State.sans_discardFrame, State.sans_setFlow, State.sans_abandonRest, State.sans_countExpired,
    State.sans_releaseChain, State.sans_replace, Comp.has_sub hcs]

theorem State.sans_rehomeRetry (hcs : Comp.has cs [.tally, .early, .mbox, .cells, .orders, .queues, .fe, .nodes, .wake]) (s : State) (f : Fe) :
    (s.rehomeRetry f).sans cs = s.sans cs := by
  unfold State.rehomeRetry
  refine (State.sans_foldl (fun _ _ => ?_) _ _).trans ?_
  all_goals dsimp only
  all_goals repeat' split
  all_goals simp +decide only [State.sans_setFe, State.sans_discardFrame, Comp.has_sub hcs]

theorem State.sans_dropRetry (hcs : Comp.has cs [.tally, .early, .mbox, .cells, .orders, .queues, .fe, .nodes, .wake]) (s : State) (f : Fe) :
    (s.dropRetry f).sans cs = s.sans cs := by
  unfold State.dropRetry
  refine (State.sans_foldl (fun _ _ => ?_) _ _).trans ?_
  all_goals simp +decide only [State.sans_discardFrame, State.sans_setFe, Comp.has_sub hcs]

theorem State.sans_prepare (hcs : Comp.has cs [.tally, .early, .mbox, .cells, .orders, .queues, .fe, .nodes, .wake]) (s : State) (f : Fe) :
    (s.prepare f).sans cs = s.sans cs := by
  simp +decide only [State.prepare, State.sans_rehomeRetry (Comp.has_sub hcs rfl), State.sans_dropRetry (Comp.has_sub hcs rfl),
    State.sans_reviewFlow (Comp.has_sub hcs rfl), State.sans_examine (Comp.has_sub hcs rfl), State.sans_foldl, implies_true]

/-! ## Machine/MacOps -/

theorem State.sans_skipBeacon (hcs : Comp.has cs [.tally, .fe]) (s : State) (f : Fe) : (s.skipBeacon f).sans cs = s.sans cs := by
  simp +decide only [State.skipBeacon, State.sans_count, State.sans_setFe, Comp.has_sub hcs]

theorem State.sans_giveBack (hcs : Comp.has cs [.fe, .mac, .wake]) (s : State) (f : Fe) (a : Attempt) : (s.giveBack f a).sans cs = s.sans cs := by
  unfold State.giveBack
  dsimp only
  repeat' split
  all_goals simp +decide only [State.sans_returnCharge, State.sans_addCredit, State.sans_setFe, Comp.has_sub hcs]

theorem State.sans_withdraw (hcs : Comp.has cs [.fe]) (s : State) (f : Fe) : (s.withdraw f).sans cs = s.sans cs := by
  simp +decide only [State.withdraw, State.sans_setFe, Comp.has_sub hcs]

theorem State.sans_bulkSentBy (hcs : Comp.has cs [.tally, .early, .mbox, .cells, .orders, .queues]) (s : State) (f : Fe) (r : Retry) :
    (s.bulkSentBy f r).sans cs = s.sans cs := by
  simp +decide only [State.bulkSentBy, State.sans_releaseAll, State.sans_setOrder, Comp.has_sub hcs]

theorem State.sans_frameDone (hcs : Comp.has cs [.tally, .early, .mbox, .cells, .orders, .queues, .nodes, .wake]) (s : State) (f : Fe) (r : Retry)
    (endNs : Nat) :
    (s.frameDone f r endNs).sans cs = s.sans cs := by
  unfold State.frameDone
  repeat' split
  all_goals simp +decide only [State.sans_count, State.sans_bulkSentBy, State.sans_releaseChain, State.sans_pacedEnd, Comp.has_sub hcs]

theorem State.sans_frameLost (hcs : Comp.has cs [.tally, .early, .mbox, .cells, .orders, .queues, .fe, .nodes, .wake]) (s : State) (f : Fe) (r :
    Retry) (c : Ctr) :
    (s.frameLost f r c).sans cs = s.sans cs := by
  simp +decide only [State.frameLost, State.sans_count, State.sans_bulkSentBy, State.sans_discardFrame, State.sans_ite, ite_self, Comp.has_sub hcs]

theorem State.sans_attemptFailed (hcs : Comp.has cs [.tally, .early, .mbox, .cells, .orders, .queues, .fe, .nodes, .wake]) (s : State) (f : Fe) (r
    : Retry) (c : Ctr) :
    (s.attemptFailed f r c).sans cs = s.sans cs := by
  simp +decide only [State.attemptFailed, State.sans_frameLost, State.sans_setFe, State.sans_ite, ite_self, Comp.has_sub hcs]

theorem State.sans_putBack (hcs : Comp.has cs [.tally, .early, .mbox, .cells, .orders, .queues, .fe, .nodes, .wake]) (s : State) (f : Fe) (r :
    Retry) :
    (s.putBack f r).sans cs = s.sans cs := by
  unfold State.putBack
  repeat' split
  all_goals simp +decide only [State.sans_setOrder, State.sans_setFlow, State.sans_discardFrame, State.sans_replace, State.sans_setFe, Comp.has_sub
    hcs]

theorem State.sans_accessFailed (hcs : Comp.has cs [.tally, .early, .mbox, .cells, .orders, .queues, .fe, .nodes, .wake]) (s : State) (f : Fe) (a :
    Attempt) :
    (s.accessFailed f a).sans cs = s.sans cs := by
  unfold State.accessFailed
  split <;> simp +decide only [State.sans_setFe, State.sans_attemptFailed, State.sans_skipBeacon, State.sans_ite, ite_self, Comp.has_sub hcs]

theorem State.sans_backOff (hcs : Comp.has cs [.rnd, .fe]) (s : State) (f : Fe) (a : Attempt) : (s.backOff f a).sans cs = s.sans cs := by
  simp +decide only [State.backOff, State.sans_setFe, State.sans_set, Comp.has_sub hcs]

theorem State.sans_csmaBusy (hcs : Comp.has cs [.rnd, .tally, .early, .mbox, .cells, .orders, .queues, .fe, .mac, .nodes, .wake]) (s : State) (f :
    Fe) :
    (s.csmaBusy f).sans cs = s.sans cs := by
  unfold State.csmaBusy
  split <;> simp +decide only [State.sans_giveBack, State.sans_withdraw, State.sans_accessFailed, State.sans_backOff, State.sans_ite, ite_self,
    Comp.has_sub hcs]

theorem State.sans_takeOut (hcs : Comp.has cs [.orders, .fe, .wake]) (s : State) (f : Fe) (r : Retry) : (s.takeOut f r).sans cs = s.sans cs := by
  unfold State.takeOut
  dsimp only
  repeat' split
  all_goals simp +decide only [State.sans_setOrder, State.sans_setFlow, State.sans_setFe, Comp.has_sub hcs]

theorem State.sans_beginAttempt (hcs : Comp.has cs [.rnd, .orders, .fe, .wake]) (s : State) (f : Fe) (c : Cand) (k i : Nat) :
    (s.beginAttempt f c k i).sans cs = s.sans cs := by
  simp +decide only [State.beginAttempt, State.sans_takeOut, State.sans_backOff, Comp.has_sub hcs]

theorem State.sans_beginBeacon (hcs : Comp.has cs [.rnd, .tally, .fe]) (s : State) (f : Fe) (close k : Nat) :
    (s.beginBeacon f close k).sans cs = s.sans cs := by
  unfold State.beginBeacon
  split <;> simp +decide only [State.sans_count, State.sans_skipBeacon, State.sans_setFe, State.sans_backOff, State.sans_ite, ite_self,
    Comp.has_sub hcs]

theorem State.sans_beginBurst (hcs : Comp.has cs [.rnd, .fe]) (s : State) (f : Fe) (t : RfTest) : (s.beginBurst f t).sans cs = s.sans cs := by
  unfold State.beginBurst
  split <;> simp +decide only [State.sans_backOff, Comp.has_sub hcs]

theorem State.sans_selectFrame (hcs : Comp.has cs [.rnd, .tally, .early, .mbox, .cells, .orders, .queues, .fe, .nodes, .wake]) (s : State) (f : Fe)
    (n : Nat) :
    (s.selectFrame f n).sans cs = s.sans cs := by
  induction n generalizing s with
  | zero => rfl
  | succ n ih =>
    unfold State.selectFrame
    dsimp only
    repeat' split
    all_goals simp +decide only [State.sans_takeOut, State.sans_count, State.sans_bulkSentBy, State.sans_discardFrame, State.sans_beginAttempt,
      Comp.has_sub hcs, ih]

theorem State.sans_select (hcs : Comp.has cs [.rnd, .tally, .early, .mbox, .cells, .orders, .queues, .fe, .nodes, .wake]) (s : State) (f : Fe) :
    (s.select f).sans cs = s.sans cs := by
  unfold State.select
  dsimp only
  repeat' split
  all_goals simp +decide only [State.sans_beginBurst, State.sans_beginBeacon, State.sans_selectFrame, State.sans_prepare, Comp.has_sub hcs]

theorem State.sans_backoffEnd (hcs : Comp.has cs [.tally, .early, .mbox, .cells, .orders, .queues, .fe, .mac, .nodes, .wake]) (s : State) (f : Fe) :
    (s.backoffEnd f).sans cs = s.sans cs := by
  unfold State.backoffEnd
  dsimp only
  repeat' split
  all_goals simp +decide only [State.sans_setFe, State.sans_putBack, State.sans_skipBeacon, State.sans_addCredit, State.sans_charge, Comp.has_sub
    hcs]

theorem State.sans_senseEnd (hcs : Comp.has cs [.rnd, .tally, .early, .mbox, .cells, .orders, .queues, .fe, .mac, .nodes, .wake]) (s : State) (f :
    Fe) (power : Int) (blanked : Bool) :
    (s.senseEnd f power blanked).sans cs = s.sans cs := by
  unfold State.senseEnd
  dsimp only
  repeat' split
  all_goals simp +decide only [State.sans_giveBack, State.sans_withdraw, State.sans_setFe, State.sans_csmaBusy, Comp.has_sub hcs]

theorem State.sans_ackTakes (hcs : Comp.has cs [.rnd, .tally, .early, .mbox, .cells, .orders, .queues, .fe, .mac, .nodes, .wake]) (s : State) (f :
    Fe) :
    (s.ackTakes f).sans cs = s.sans cs := by
  unfold State.ackTakes
  repeat' split
  all_goals simp +decide only [State.sans_withdraw, State.sans_setFe, State.sans_giveBack, State.sans_csmaBusy, Comp.has_sub hcs]

theorem State.sans_setMeas (hcs : Comp.has cs [.canopy]) (s : State) (i : Nat) (m : Meas) : (s.setMeas i m).sans cs = s.sans cs := by
  simp +decide only [State.setMeas, State.sans_set, Comp.has_sub hcs]

theorem State.sans_ackMeasured (hcs : Comp.has cs [.canopy]) (s : State) (i : Nat) (ok : Bool) : (s.ackMeasured i ok).sans cs = s.sans cs := by
  simp +decide only [State.ackMeasured, State.sans_setMeas, State.sans_ite, ite_self, Comp.has_sub hcs]

theorem State.sans_ackMissing (hcs : Comp.has cs [.tally, .early, .mbox, .cells, .orders, .queues, .fe, .nodes, .wake, .canopy]) (s : State) (f :
    Fe) (w : AckWait) :
    (s.ackMissing f w).sans cs = s.sans cs := by
  unfold State.ackMissing
  split <;> simp +decide only [State.sans_setFe, State.sans_ackMeasured, State.sans_attemptFailed, Comp.has_sub hcs]

theorem State.sans_ackCame (hcs : Comp.has cs [.tally, .early, .mbox, .cells, .orders, .queues, .fe, .mac, .nodes, .wake, .canopy]) (s : State) (f
    : Fe) (w : AckWait) (endNs : Nat) :
    (s.ackCame f w endNs).sans cs = s.sans cs := by
  unfold State.ackCame
  dsimp only
  repeat' split
  all_goals simp +decide only [State.sans_setFe, State.sans_ackMeasured, State.sans_openCont, State.sans_frameDone, State.sans_set, Comp.has_sub
    hcs]

theorem State.sans_downSent (hcs : Comp.has cs [.tally, .early, .mbox, .cells, .orders, .queues, .fe, .nodes, .wake]) (s : State) (f : Fe) (a :
    Attempt) (r : Retry) (pending : Bool) (endNs : Nat) :
    (s.downSent f a r pending endNs).sans cs = s.sans cs := by
  unfold State.downSent
  split <;> simp +decide only [State.sans_pacedAir, State.sans_setFe, State.sans_frameDone, State.sans_ite, ite_self, Comp.has_sub hcs]

theorem State.sans_ackOver (hcs : Comp.has cs [.lanes]) (s : State) (l : Nat) : (s.ackOver l).sans cs = s.sans cs := by
  simp +decide only [State.ackOver, State.sans_setLane, Comp.has_sub hcs]

theorem State.sans_ackNotSent (hcs : Comp.has cs [.tally, .lanes, .mac]) (s : State) (f : Fe) (q : TxReq) :
    (s.ackNotSent f q).sans cs = s.sans cs := by
  unfold State.ackNotSent
  split <;> simp +decide only [State.sans_returnCharge, State.sans_ackOver, State.sans_count, Comp.has_sub hcs]

theorem State.sans_refused (hcs : Comp.has cs [.rnd, .tally, .early, .mbox, .cells, .orders, .queues, .fe, .lanes, .mac, .nodes, .wake]) (s :
    State) (f : Fe) (q : TxReq) :
    (s.refused f q).sans cs = s.sans cs := by
  unfold State.refused
  repeat' split
  all_goals simp +decide only [State.sans_ackNotSent, State.sans_csmaBusy, State.sans_setFe, State.sans_giveBack, Comp.has_sub hcs]

theorem State.sans_macOff (hcs : Comp.has cs [.tally, .early, .mbox, .cells, .orders, .queues, .fe, .lanes, .mac, .nodes, .wake, .canopy]) (s :
    State) (f : Fe) :
    (s.macOff f).sans cs = s.sans cs := by
  unfold State.macOff
  dsimp only
  repeat' split
  all_goals simp +decide only [State.sans_ackMissing (Comp.has_sub hcs rfl), State.sans_ackNotSent (Comp.has_sub hcs rfl), State.sans_ackOver
    (Comp.has_sub hcs rfl), State.sans_count (Comp.has_sub hcs rfl), State.sans_giveBack (Comp.has_sub hcs rfl), State.sans_setFe (Comp.has_sub hcs
    rfl), State.sans_attemptFailed (Comp.has_sub hcs rfl), State.sans_putBack (Comp.has_sub hcs rfl), State.sans_skipBeacon (Comp.has_sub hcs rfl),
    State.sans_foldl, implies_true]

theorem State.sans_unitLost (hcs : Comp.has cs [.tally, .early, .mbox]) (s : State) (kind number cause : Nat) :
    (s.unitLost kind number cause).sans cs = s.sans cs := by
  simp +decide only [State.unitLost, State.sans_raise, State.sans_count, Comp.has_sub hcs]

theorem State.sans_feFault (hcs : Comp.has cs [.tally, .early, .mbox, .cells, .orders, .queues, .fe, .lanes, .dec, .mac, .nodes, .wake, .canopy])
    (s : State) (f : Fe) (cause : Nat) :
    (s.feFault f cause).sans cs = s.sans cs := by
  simp +decide only [State.feFault, State.sans_feOff, State.sans_macOff, State.sans_setFe, State.sans_unitLost, State.sans_canLog, State.sans_set,
    State.sans_ite, ite_self, Comp.has_sub hcs]

/-! ## Machine/DownOps -/

theorem State.sans_cacheKey (hcs : Comp.has cs [.slots, .crypto]) (s : State) (i world : Nat) (key : Key) :
    (s.cacheKey i world key).sans cs = s.sans cs := by
  simp +decide only [State.cacheKey, State.sans_loadSlot, State.sans_mk, or_true, true_or, and_self, Comp.has_sub hcs]

theorem State.sans_linkKey (hcs : Comp.has cs [.slots, .crypto]) {s t : State} {i : Nat} {n : Node} {k : Key} (h : s.linkKey i n = some (k, t)) :
    t.sans cs = s.sans cs := by
  unfold State.linkKey at h
  split at h
  · cases h
    simp +decide only [State.sans_mk, or_true, true_or, and_self, Comp.has_sub hcs]
  · repeat' split at h
    all_goals cases h
    simp +decide only [State.sans_cacheKey, Comp.has_sub hcs]

theorem State.sans_setGroupNext (hcs : Comp.has cs [.crypto]) (s : State) (k n : Nat) : (s.setGroupNext k n).sans cs = s.sans cs := by
  simp +decide only [State.setGroupNext, State.sans_mk, or_true, true_or, and_self, Comp.has_sub hcs]

theorem State.sans_queueFrames (hcs : Comp.has cs [.cells, .orders, .queues, .nodes]) {s t : State} {i : Nat} {a b : Node} {l : List DownFrame} (h
    : s.queueFrames i a b l = some t) :
    t.sans cs = s.sans cs := by
  unfold State.queueFrames at h
  dsimp only at h
  split at h
  · cases h
  · rename_i u hu
    cases h
    rw [State.sans_setNode (Comp.has_sub hcs rfl), State.sans_foldl (fun _ _ => State.sans_commitTo (Comp.has_sub hcs rfl) ..),
      State.sans_grant (Comp.has_sub hcs rfl) hu]

theorem State.sans_sendUnicast (hcs : Comp.has cs [.slots, .crypto, .tally, .cells, .orders, .queues, .nodes]) (s : State) (i : Nat) (n : Node) (l
    : List Plain) (path : List (Nat × BitVec 64)) (b : Bool) :
    Prot.Sans cs s (s.sendUnicast i n l path b) := by
  unfold State.sendUnicast
  dsimp only
  split
  · simp +decide only [Prot.sans_done, State.sans_count, Comp.has_sub hcs]
  · split
    · simp +decide only [Prot.sans_done, State.sans_count, Comp.has_sub hcs]
    · next hk =>
      have keyed := State.sans_linkKey (Comp.has_sub hcs rfl) hk
      repeat' split
      case h_1 hq => exact (State.sans_queueFrames (Comp.has_sub hcs rfl) hq).trans keyed
      all_goals simp +decide only [Prot.sans_done, Prot.sans_wait, keyed, State.sans_count, Comp.has_sub hcs]

theorem State.sans_sendJoinKey (hcs : Comp.has cs [.crypto, .tally, .cells, .orders, .queues, .nodes]) (s : State) (i : Nat) (n : Node) (w : Nat)
    (key : Key) (elem : Octets) (kind : DownKind) :
    Prot.Sans cs s (s.sendJoinKey i n w key elem kind) := by
  unfold State.sendJoinKey
  dsimp only
  repeat' split
  case h_1 u hu =>
    refine (State.sans_queueFrames (Comp.has_sub hcs rfl) hu).trans ?_
    simp +decide only [State.sans_mk, or_true, true_or, and_self, Comp.has_sub hcs]
  all_goals simp +decide only [Prot.sans_done, Prot.sans_wait, State.sans_count, State.sans_mk, or_true, true_or, and_self, Comp.has_sub hcs]

theorem State.sans_sendCast (hcs : Comp.has cs [.rnd, .crypto, .tally, .early, .mbox, .cells, .orders, .queues]) (s : State) (w q : Nat) (l : List
    Plain) (b : Bool) :
    Prot.Sans cs s (s.sendCast w q l b) := by
  unfold State.sendCast
  dsimp only
  repeat' split
  case h_2 t ht =>
    rw [Prot.sans_done, State.sans_foldl (fun _ _ => State.sans_commitTo (Comp.has_sub hcs rfl) ..), State.sans_grant (Comp.has_sub hcs rfl) ht]
    simp +decide only [State.sans_setGroupNext, State.sans_raise, State.sans_set, State.sans_ite, ite_self, Comp.has_sub hcs]
  all_goals simp +decide only [Prot.sans_done, Prot.sans_wait, State.sans_count, State.sans_setGroupNext, State.sans_raise, State.sans_set,
    Comp.has_sub hcs]

theorem State.sans_takeTag (hcs : Comp.has cs [.mac]) (s : State) (sizes : List Nat) : (s.takeTag sizes).sans cs = s.sans cs := by
  simp +decide only [State.takeTag, State.sans_set, State.sans_ite, ite_self, Comp.has_sub hcs]

/-! ## Machine/FrontEnds -/

theorem State.sans_beginCal (hcs : Comp.has cs [.tally, .fe]) (s : State) (f : Fe) (k start : Nat) :
    (s.beginCal f k start).sans cs = s.sans cs := by
  simp +decide only [State.beginCal, State.sans_count, State.sans_setFe, Comp.has_sub hcs]

theorem State.sans_tune (hcs : Comp.has cs [.tally, .fe]) (s : State) (f : Fe) : (s.tune f).sans cs = s.sans cs := by
  unfold State.tune
  dsimp only
  repeat' split
  all_goals simp +decide only [State.sans_setFe, State.sans_beginCal, Comp.has_sub hcs]

theorem State.sans_comeUp (hcs : Comp.has cs [.tally, .fe]) (s : State) (f : Fe) (k : Nat) : (s.comeUp f k).sans cs = s.sans cs := by
  unfold State.comeUp
  dsimp only
  repeat' split
  all_goals simp +decide only [State.sans_count, State.sans_beginCal, State.sans_setFe, Comp.has_sub hcs]

theorem State.sans_takeRequest (hcs : Comp.has cs [.rnd, .tally, .early, .mbox, .cells, .orders, .queues, .fe, .lanes, .mac, .nodes, .wake]) (s :
    State) (f : Fe) (temp : Int) :
    (s.takeRequest f temp).sans cs = s.sans cs := by
  unfold State.takeRequest
  dsimp only
  repeat' split
  all_goals simp +decide only [State.sans_setFe, State.sans_refused, State.sans_count, State.sans_tune, State.sans_comeUp, Comp.has_sub hcs]

theorem State.sans_assignBegun (hcs : Comp.has cs [.canopy]) (s : State) (b : TxBody) : (s.assignBegun b).sans cs = s.sans cs := by
  unfold State.assignBegun
  repeat' split
  all_goals simp +decide only [State.sans_set, Comp.has_sub hcs]

theorem State.sans_commitStart (hcs : Comp.has cs [.tally, .early, .mbox, .cells, .queues, .fe, .lanes, .dec, .canopy]) (s : State) (f : Fe) (q :
    TxReq) :
    (s.commitStart f q).sans cs = s.sans cs := by
  simp +decide only [State.commitStart, State.sans_setFe (Comp.has_sub hcs rfl), State.sans_blankFrom (Comp.has_sub hcs rfl), State.sans_count
    (Comp.has_sub hcs rfl), State.sans_assignBegun (Comp.has_sub hcs rfl), State.sans_ite, ite_self, State.sans_foldl, implies_true]

theorem State.sans_txCommit (hcs : Comp.has cs [.tally, .early, .mbox, .cells, .queues, .fe, .lanes, .dec, .canopy]) (s : State) (f : Fe) :
    (s.txCommit f).sans cs = s.sans cs := by
  unfold State.txCommit
  dsimp only
  repeat' split
  all_goals simp +decide only [State.sans_setFe, State.sans_count, State.sans_commitStart, Comp.has_sub hcs]

theorem State.sans_detector (hcs : Comp.has cs [.tally, .early, .mbox, .fe]) (s : State) (f : Fe) (port : Nat) (r : DetReading) :
    (s.detector f port r).sans cs = s.sans cs := by
  simp +decide only [State.detector, State.sans_setFe, State.sans_count, State.sans_raise, State.sans_ite, ite_self, Comp.has_sub hcs]

theorem State.sans_macSent (hcs : Comp.has cs [.tally, .early, .mbox, .cells, .orders, .queues, .fe, .lanes, .mac, .nodes, .wake]) (s : State) (f :
    Fe) (q : TxReq) (endNs : Nat) :
    (s.macSent f q endNs).sans cs = s.sans cs := by
  unfold State.macSent
  repeat' split
  all_goals simp +decide only [State.sans_ackOver, State.sans_openCont, State.sans_setFe, State.sans_downSent, Comp.has_sub hcs]

theorem State.sans_lastTx (hcs : Comp.has cs [.mac]) (s : State) (f : Fe) (q : TxReq) (endNs : Nat) : (s.lastTx f q endNs).sans cs = s.sans cs := by
  unfold State.lastTx
  split <;> simp +decide only [State.sans_setDuty, Comp.has_sub hcs]

theorem State.sans_txEnd (hcs : Comp.has cs [.tally, .early, .mbox, .cells, .orders, .queues, .fe, .lanes, .mac, .nodes, .wake]) (s : State) (f :
    Fe) (samples : List Int) (det : DetReading) :
    (s.txEnd f samples det).sans cs = s.sans cs := by
  unfold State.txEnd
  dsimp only
  repeat' split
  all_goals simp +decide only [State.sans_setFe, State.sans_tune, State.sans_macSent, State.sans_lastTx, State.sans_detector, Comp.has_sub hcs]

theorem State.sans_overpower (hcs : Comp.has cs [.rnd, .tally, .early, .mbox, .cells, .orders, .queues, .fe, .lanes, .dec, .mac, .nodes, .wake,
    .canopy]) (s : State) (f : Fe) :
    (s.overpower f).sans cs = s.sans cs := by
  unfold State.overpower
  dsimp only
  repeat' split
  all_goals simp +decide only [State.sans_map_getD, State.sans_setFe (Comp.has_sub hcs rfl), State.sans_lastTx (Comp.has_sub hcs rfl),
    State.sans_count (Comp.has_sub hcs rfl), State.sans_ackOver (Comp.has_sub hcs rfl), State.sans_pacedAir (Comp.has_sub hcs rfl),
    State.sans_csmaBusy (Comp.has_sub hcs rfl), State.sans_feFault (Comp.has_sub hcs rfl), State.sans_tune (Comp.has_sub hcs rfl), implies_true]

theorem State.sans_backCal (hcs : Comp.has cs [.tally, .fe]) (s : State) (f : Fe) (temp : Int) : (s.backCal f temp).sans cs = s.sans cs := by
  unfold State.backCal
  dsimp only
  repeat' split
  all_goals simp +decide only [State.sans_setFe, State.sans_beginCal, Comp.has_sub hcs]

theorem State.sans_toRx (hcs : Comp.has cs [.fe]) (s : State) (f : Fe) : (s.toRx f).sans cs = s.sans cs := by
  simp +decide only [State.toRx, State.sans_setFe, State.sans_ite, ite_self, Comp.has_sub hcs]

theorem State.sans_calDone (hcs : Comp.has cs [.tally, .fe]) (s : State) (f : Fe) (temp : Int) : (s.calDone f temp).sans cs = s.sans cs := by
  unfold State.calDone
  dsimp only
  repeat' split
  all_goals simp +decide only [State.sans_setFe, State.sans_toRx, State.sans_tune, Comp.has_sub hcs]

theorem State.sans_rxCalibrate (hcs : Comp.has cs [.tally, .early, .mbox, .cells, .queues, .fe, .lanes, .dec]) (s : State) (f : Fe) (n : Nat) :
    (s.rxCalibrate f n).sans cs = s.sans cs := by
  simp +decide only [State.rxCalibrate, State.sans_countN, State.sans_blankFe, State.sans_setFe, Comp.has_sub hcs]

theorem State.sans_lockLost (hcs : Comp.has cs [.tally, .early, .mbox, .cells, .orders, .queues, .fe, .lanes, .dec, .mac, .nodes, .wake, .canopy])
    (s : State) (f : Fe) (failed : Nat) :
    (s.lockLost f failed).sans cs = s.sans cs := by
  simp +decide only [State.lockLost, State.sans_raise, State.sans_count, State.sans_feFault, State.sans_rxCalibrate, State.sans_setFe,
    State.sans_ite, ite_self, Comp.has_sub hcs]

theorem State.sans_rxRecal (hcs : Comp.has cs [.tally, .early, .mbox, .cells, .queues, .fe, .lanes, .dec]) (s : State) (f : Fe) (temp : Int) :
    (s.rxRecal f temp).sans cs = s.sans cs := by
  simp +decide only [State.rxRecal, State.sans_setFe, State.sans_rxCalibrate, State.sans_ite, ite_self, Comp.has_sub hcs]

theorem State.sans_ackDue (hcs : Comp.has cs [.tally, .early, .mbox, .cells, .orders, .queues, .fe, .nodes, .wake, .canopy]) (s : State) (f : Fe) :
    (s.ackDue f).sans cs = s.sans cs := by
  unfold State.ackDue
  split <;> simp +decide only [State.sans_ackMissing, State.sans_ite, ite_self, Comp.has_sub hcs]

theorem State.sans_oweAck (hcs : Comp.has cs [.rnd, .tally, .early, .mbox, .cells, .orders, .queues, .fe, .lanes, .mac, .nodes, .wake]) (s : State)
    (l : Nat) (fc : FrameCtl) :
    (s.oweAck l fc).sans cs = s.sans cs := by
  unfold State.oweAck
  split <;> simp +decide only [State.sans_ackTakes, State.sans_setLane, State.sans_ite, ite_self, Comp.has_sub hcs]

/-! ## Machine/HwOps -/

theorem State.sans_lineWrite (hcs : Comp.has cs [.heart, .tally]) (s : State) (addr : Nat) : (s.lineWrite addr).sans cs = s.sans cs := by
  simp +decide only [State.lineWrite, State.sans_count, State.sans_mk, or_true, true_or, and_self, State.sans_ite, ite_self, Comp.has_sub hcs]

theorem State.sans_retirePage (hcs : Comp.has cs [.heart, .tally, .early, .mbox]) (s : State) (l : Nat) : (s.retirePage l).sans cs = s.sans cs := by
  simp +decide only [State.retirePage, State.sans_count, State.sans_raise, State.sans_mk, or_true, true_or, and_self, State.sans_ite, ite_self,
    Comp.has_sub hcs]

theorem State.sans_journal (hcs : Comp.has cs [.heart, .tally]) (s : State) (l : List HwItem) : (s.journal l).sans cs = s.sans cs := by
  have applied : ∀ h : Heart, (l.foldl Heart.apply h).sans cs = h.sans cs := foldl_keeps Heart.apply (Heart.sans · cs) (Heart.sans_apply
    (Comp.has_sub hcs rfl)) l
  unfold State.journal
  split
  · rfl
  · refine Eq.trans ?_ (State.sans_lineWrite hcs s (0x780000 + 16 * s.hw.head))
    dsimp only
    generalize s.lineWrite _ = t
    simp only [State.sans, Heart.sans_setRing (Comp.has_sub hcs rfl), applied]

theorem State.sans_writePending (hcs : Comp.has cs [.heart, .tally]) (s : State) (i : Nat) : (s.writePending i).sans cs = s.sans cs := by
  unfold State.writePending
  split <;> simp +decide only [State.sans_journal, Comp.has_sub hcs]

theorem State.sans_writeFcIn (hcs : Comp.has cs [.ceilings, .heart, .tally]) (s : State) (i : Nat) (v : BitVec 32) :
    (s.writeFcIn i v).sans cs = s.sans cs := by
  simp +decide only [State.writeFcIn, State.sans_lineWrite, State.sans_mk, or_true, true_or, and_self, Comp.has_sub hcs]

theorem State.sans_writeCeil (hcs : Comp.has cs [.ceilings, .heart, .tally]) (s : State) (i v : Nat) : (s.writeCeil i v).sans cs = s.sans cs := by
  simp +decide only [State.writeCeil, State.sans_lineWrite, State.sans_mk, or_true, true_or, and_self, Comp.has_sub hcs]

theorem State.sans_writeJoin (hcs : Comp.has cs [.heart, .tally]) (s : State) (i : Nat) (key : Key) : (s.writeJoin i key).sans cs = s.sans cs := by
  unfold State.writeJoin
  split <;> simp +decide only [State.sans_lineWrite, State.sans_journal, State.sans_mk, or_true, true_or, and_self, Comp.has_sub hcs]

theorem State.sans_closeBuffer (hcs : Comp.has cs [.heart, .dirty, .tally]) (s : State) : s.closeBuffer.sans cs = s.sans cs := by
  simp +decide only [State.closeBuffer, State.sans_journal (Comp.has_sub hcs rfl), State.sans_count (Comp.has_sub hcs rfl), State.sans_set,
    State.sans_ite, ite_self, State.sans_foldl, implies_true, Comp.has_sub hcs]

theorem State.sans_writeSuper (hcs : Comp.has cs [.heart, .tally]) (s : State) (clean : Bool) : (s.writeSuper clean).sans cs = s.sans cs := by
  simp +decide only [State.writeSuper, State.sans_lineWrite, State.sans_mk, or_true, true_or, and_self, State.sans_ite, ite_self, Comp.has_sub hcs]

theorem State.sans_homeAll (hcs : Comp.has cs [.heart]) (s : State) : s.homeAll.sans cs = s.sans cs := by
  simp +decide only [State.homeAll, State.sans_mk, or_true, true_or, and_self, Comp.has_sub hcs]

/-! ## Machine/Lanes -/

theorem State.sans_preamble (hcs : Comp.has cs [.tally, .fe, .lanes]) (s : State) (l : Nat) (p : Preamble) (units corrA corrB level : Nat) :
    (s.preamble l p units corrA corrB level).sans cs = s.sans cs := by
  unfold State.preamble
  dsimp only
  repeat' split
  all_goals simp +decide only [State.sans_markBusy, State.sans_setLane, State.sans_count, Comp.has_sub hcs]

theorem State.sans_sfdTimeout (hcs : Comp.has cs [.tally, .early, .mbox, .cells, .queues, .lanes, .dec]) (s : State) (l : Nat) :
    (s.sfdTimeout l).sans cs = s.sans cs := by
  unfold State.sfdTimeout
  split <;> simp +decide only [State.sans_count, State.sans_rewindLane, State.sans_ite, ite_self, Comp.has_sub hcs]

theorem State.sans_sfdFound (hcs : Comp.has cs [.lanes]) (s : State) (l : Nat) (word : BitVec 32) (offset8 : Int) (a b : PortMetric) :
    (s.sfdFound l word offset8 a b).sans cs = s.sans cs := by
  unfold State.sfdFound
  repeat' split
  all_goals simp +decide only [State.sans_setLane, Comp.has_sub hcs]

theorem State.sans_headerEnd (hcs : Comp.has cs [.tally, .early, .mbox, .cells, .queues, .fe, .lanes, .dec]) (s : State) (l : Nat) (hdr :
    PhyHeader) :
    (s.headerEnd l hdr).sans cs = s.sans cs := by
  unfold State.headerEnd
  dsimp only
  split
  · split
    · rfl
    · simp +decide only [State.sans_count, State.sans_rewindLane, Comp.has_sub hcs]
    · split
      · simp +decide only [State.sans_count, State.sans_rewindLane, Comp.has_sub hcs]
      · split
        · split <;> simp +decide only [State.sans_count, State.sans_rewindLane, Comp.has_sub hcs]
        · next ht => split <;> simp +decide only [State.sans_grant (Comp.has_sub hcs rfl) ht, State.sans_count, State.sans_rewindLane,
          State.sans_markBusy, State.sans_setLane, State.sans_picked, Comp.has_sub hcs]
  · rfl

theorem State.sans_codeword (hcs : Comp.has cs [.lanes, .dec]) (s : State) (l : Nat) : (s.codeword l).sans cs = s.sans cs := by
  unfold State.codeword
  dsimp only
  repeat' split
  all_goals simp +decide only [State.sans_setLane, State.sans_feed, State.sans_set, Comp.has_sub hcs]

theorem State.sans_decoded (hcs : Comp.has cs [.lanes, .dec]) (s : State) (core iterations : Nat) (word : BitVec 2048) :
    (s.decoded core iterations word).sans cs = s.sans cs := by
  unfold State.decoded
  split <;> simp +decide only [State.sans_setLane, State.sans_feed, State.sans_set, Comp.has_sub hcs]

theorem State.sans_assignEffect (hcs : Comp.has cs [.tally, .fe, .lanes]) (s : State) (l : Nat) : (s.assignEffect l).sans cs = s.sans cs := by
  unfold State.assignEffect
  dsimp only
  repeat' split
  all_goals simp +decide only [State.sans_setLane, State.sans_laneMoved, State.sans_noteIdle, State.sans_wakeFe, Comp.has_sub hcs]

theorem State.sans_domReturn (hcs : Comp.has cs [.tally, .early, .mbox, .cells, .queues, .fe, .lanes, .domA, .domB, .dec, .canopy]) (s : State) (d
    : LaneDom) (kat : List Bool) :
    (s.domReturn d kat).sans cs = s.sans cs := by
  simp +decide only [State.domReturn, State.sans_setDom (Comp.has_sub hcs rfl), State.sans_setLane (Comp.has_sub hcs rfl), State.sans_faultLane
    (Comp.has_sub hcs rfl), State.sans_canLog (Comp.has_sub hcs rfl), State.sans_owe (Comp.has_sub hcs rfl), State.sans_raise (Comp.has_sub hcs
    rfl), State.sans_ite, ite_self, State.sans_foldl, implies_true]

/-! ## Machine/CanopyOps -/

theorem State.sans_setCourse (hcs : Comp.has cs [.canopy]) (s : State) (i : Nat) (c : Option Course) : (s.setCourse i c).sans cs = s.sans cs := by
  simp +decide only [State.setCourse, State.sans_set, Comp.has_sub hcs]

theorem State.sans_coolNode (hcs : Comp.has cs [.canopy]) (s : State) (i : Nat) : (s.coolNode i).sans cs = s.sans cs := by
  simp +decide only [State.coolNode, State.sans_setMeas, Comp.has_sub hcs]

theorem State.sans_decideMove (hcs : Comp.has cs [.slots, .crypto, .heart, .tally, .cells, .orders, .queues, .nodes, .canopy]) (s : State) (i g p
    cause flags : Nat) (gain : Int) :
    (s.decideMove i g p cause flags gain).sans cs = s.sans cs := by
  unfold State.decideMove
  split
  · rfl
  · dsimp only
    split
    · simp +decide only [State.sans_count, Comp.has_sub hcs]
    · next hu =>
      have sent := (State.sans_sendUnicast (cs := cs) (Comp.has_sub hcs rfl) _ _ _ _ _ _).of_done hu
      simp +decide only [sent, State.sans_writePending, State.sans_setNode, State.sans_count, State.sans_coolNode, State.sans_setCourse,
        State.sans_canLog, Comp.has_sub hcs]

theorem State.sans_assignNow (hcs : Comp.has cs [.heart, .dirty, .tally, .mac, .nodes, .canopy]) (s : State) (i : Nat) :
    (s.assignNow i).sans cs = s.sans cs := by
  unfold State.assignNow
  split
  · rfl
  · simp +decide only [State.sans_mk, or_true, true_or, and_self, State.sans_writePending, State.sans_touch, State.sans_setNode, State.sans_canLog,
    State.sans_setCourse, State.sans_ite, ite_self, Comp.has_sub hcs]

theorem State.sans_dropAttempt (hcs : Comp.has cs [.tally, .early, .mbox, .cells, .orders, .queues, .fe, .mac, .nodes, .wake]) (s : State) (f : Fe)
    (i : Nat) :
    (s.dropAttempt f i).sans cs = s.sans cs := by
  unfold State.dropAttempt
  dsimp only
  repeat' split
  all_goals simp +decide only [State.sans_withdraw, State.sans_giveBack, State.sans_setFe, State.sans_abandonRest, State.sans_releaseChain,
    Comp.has_sub hcs]

theorem State.sans_dropCarriers (hcs : Comp.has cs [.tally, .early, .mbox, .cells, .orders, .queues, .fe, .mac, .nodes, .wake]) (s : State) (i :
    Nat) :
    (s.dropCarriers i).sans cs = s.sans cs := by
  unfold State.dropCarriers
  dsimp only
  refine (State.sans_foldl (fun s f => ?_) _ _).trans ((State.sans_foldl (fun s p => ?_) _ _).trans ?_)
  · simp +decide only [State.sans_abandonRest (Comp.has_sub hcs rfl), State.sans_releaseChain (Comp.has_sub hcs rfl), State.sans_setFe
    (Comp.has_sub hcs rfl), State.sans_foldl, implies_true]
  · split <;> simp +decide only [State.sans_abandonRest, State.sans_releaseChain, Comp.has_sub hcs]
  · simp +decide only [State.sans_dropAttempt (Comp.has_sub hcs rfl), State.sans_mk, or_true, true_or, and_self, State.sans_foldl, implies_true,
    Comp.has_sub hcs]

theorem State.sans_assignWithdraw (hcs : Comp.has cs [.heart, .tally, .early, .mbox, .cells, .orders, .queues, .fe, .mac, .nodes, .wake, .canopy])
    (s : State) (i : Nat) :
    (s.assignWithdraw i).sans cs = s.sans cs := by
  unfold State.assignWithdraw
  split <;> simp +decide only [State.sans_setCourse, State.sans_writePending, State.sans_setNode, State.sans_canLog, State.sans_count,
    State.sans_dropCarriers, State.sans_ite, ite_self, Comp.has_sub hcs]

theorem State.sans_writePlace (hcs : Comp.has cs [.heart, .tally, .nodes, .canopy]) (s : State) (i g p fe kind : Nat) (c : Ctr) :
    (s.writePlace i g p fe kind c).sans cs = s.sans cs := by
  unfold State.writePlace
  split <;> simp +decide only [State.sans_coolNode, State.sans_journal, State.sans_setNode, State.sans_canLog, State.sans_count, Comp.has_sub hcs]

theorem State.sans_assignLane (hcs : Comp.has cs [.dirty, .tally, .fe, .lanes, .canopy]) (s : State) (l : Nat) (a : Option (Nat × Nat)) (cause
    flags : Nat) (pinned : Bool) :
    (s.assignLane l a cause flags pinned).sans cs = s.sans cs := by
  simp +decide only [State.assignLane, State.sans_canLog, State.sans_touch, State.sans_assignEffect, State.sans_setLane, State.sans_ite, ite_self,
    Comp.has_sub hcs]

theorem State.sans_settleLanes (hcs : Comp.has cs [.tally, .fe, .lanes]) (s : State) : s.settleLanes.sans cs = s.sans cs := by
  unfold State.settleLanes
  exact State.sans_foldl (fun _ _ => by simp +decide only [State.sans_assignEffect, Comp.has_sub hcs]) _ _

theorem State.sans_makeMove (hcs : Comp.has cs [.dirty, .tally, .early, .mbox, .cells, .orders, .queues, .fe, .lanes, .dec, .mac, .nodes, .wake,
    .canopy]) (s : State) (f : Fe) (mv : SliceMove) :
    (s.makeMove f mv).sans cs = s.sans cs := by
  unfold State.makeMove
  dsimp only
  repeat' split
  all_goals simp +decide only [State.sans_canLog (Comp.has_sub hcs rfl), State.sans_rxCalibrate (Comp.has_sub hcs rfl), State.sans_laneMoved
    (Comp.has_sub hcs rfl), State.sans_setLane (Comp.has_sub hcs rfl), State.sans_setFe (Comp.has_sub hcs rfl), State.sans_giveBack (Comp.has_sub
    hcs rfl), State.sans_putBack (Comp.has_sub hcs rfl), State.sans_skipBeacon (Comp.has_sub hcs rfl), State.sans_settleLanes (Comp.has_sub hcs
    rfl), State.sans_touch (Comp.has_sub hcs rfl), State.sans_mk, or_true, true_or, and_self, State.sans_ite, ite_self, State.sans_foldl,
    implies_true, Comp.has_sub hcs]

theorem State.sans_decideSlice (hcs : Comp.has cs [.tally, .fe, .canopy]) (s : State) (f : Fe) (centre cause flags : Nat) (gain : Int) :
    (s.decideSlice f centre cause flags gain).sans cs = s.sans cs := by
  simp +decide only [State.decideSlice, State.sans_setFe, State.sans_count, State.sans_canLog, State.sans_set, Comp.has_sub hcs]

theorem State.sans_sliceMove (hcs : Comp.has cs [.dirty, .tally, .early, .mbox, .cells, .orders, .queues, .fe, .lanes, .dec, .mac, .nodes, .wake,
    .canopy]) (s : State) (f : Fe) :
    (s.sliceMove f).sans cs = s.sans cs := by
  unfold State.sliceMove
  dsimp only
  repeat' split
  all_goals simp +decide only [State.sans_makeMove, Comp.has_sub hcs]

/-! ## Machine/Canopy -/

theorem State.sans_measureLinks (hcs : Comp.has cs [.canopy]) (s : State) : s.measureLinks.sans cs = s.sans cs := by
  unfold State.measureLinks
  refine State.sans_foldl (fun s f => State.sans_foldl (fun s p => ?_) _ _) _ _
  dsimp only
  repeat' split
  all_goals simp +decide only [State.sans_setMeas, Comp.has_sub hcs]

theorem State.sans_measureBusy (hcs : Comp.has cs [.canopy]) (s : State) (l : List BusyWindow) : (s.measureBusy l).sans cs = s.sans cs := by
  simp +decide only [State.measureBusy, State.sans_set, Comp.has_sub hcs]

theorem State.sans_avoidNeighbours (hcs : Comp.has cs [.canopy]) (s : State) : s.avoidNeighbours.sans cs = s.sans cs := by
  simp +decide only [State.avoidNeighbours, State.sans_canLog (Comp.has_sub hcs rfl), State.sans_set, State.sans_foldl, implies_true, Comp.has_sub
    hcs]

theorem State.sans_slice (hcs : Comp.has cs [.tally, .fe, .canopy]) (s : State) (f : Fe) : (s.slice f).sans cs = s.sans cs := by
  simp +decide only [State.slice, State.sans_decideSlice, State.sans_ite, ite_self, Comp.has_sub hcs]

theorem State.sans_applyMap (hcs : Comp.has cs [.dirty, .tally, .fe, .lanes, .canopy]) (s : State) (extra cause flags : Nat) :
    (s.applyMap extra cause flags).sans cs = s.sans cs := by
  simp +decide only [State.applyMap, State.sans_assignLane (Comp.has_sub hcs rfl), State.sans_settleLanes (Comp.has_sub hcs rfl), State.sans_countN
    (Comp.has_sub hcs rfl), State.sans_foldl, implies_true]

theorem State.sans_faultMap (hcs : Comp.has cs [.dirty, .tally, .fe, .lanes, .canopy]) (s : State) : s.faultMap.sans cs = s.sans cs := by
  unfold State.faultMap
  simp +decide only [State.sans_applyMap, State.sans_set, Comp.has_sub hcs]
  exact State.sans_foldl (fun _ _ => by simp +decide only [State.sans_assignLane, Comp.has_sub hcs]) _ _

theorem State.sans_noteUnwatched (hcs : Comp.has cs [.canopy]) (s : State) : s.noteUnwatched.sans cs = s.sans cs := by
  simp +decide only [State.noteUnwatched, State.sans_set, Comp.has_sub hcs]

theorem State.sans_gateList (hcs : Comp.has cs [.dirty, .wake, .canopy]) (s : State) (f : Fe) : (s.gateList f).sans cs = s.sans cs := by
  unfold State.gateList
  split
  · rfl
  · rfl
  · dsimp only
    split
    · rfl
    · rw [State.sans_touch (Comp.has_sub hcs rfl), State.sans_setGates (Comp.has_sub hcs rfl)]
      refine State.sans_foldl (fun s p => ?_) _ _
      simp +decide only [State.sans_canLog, State.sans_set, Comp.has_sub hcs]

theorem State.sans_revertNode (hcs : Comp.has cs [.heart, .tally, .nodes, .canopy]) (s : State) (t : Taken) :
    (s.revertNode t).sans cs = s.sans cs := by
  simp +decide only [State.revertNode, State.sans_writePlace, Comp.has_sub hcs]

theorem State.sans_reverts (hcs : Comp.has cs [.heart, .tally, .nodes, .canopy]) (s : State) : s.reverts.sans cs = s.sans cs := by
  unfold State.reverts
  refine (State.sans_foldl (fun _ _ => ?_) _ _).trans ?_
  all_goals simp +decide only [State.sans_revertNode, State.sans_set, Comp.has_sub hcs]

theorem State.sans_rehomes (hcs : Comp.has cs [.heart, .tally, .nodes, .canopy]) (s : State) : s.rehomes.sans cs = s.sans cs := by
  unfold State.rehomes
  refine (State.sans_foldl (fun s p => ?_) _ _).trans ?_
  · repeat' split
    all_goals simp +decide only [State.sans_writePlace, Comp.has_sub hcs]
  · simp +decide only [State.sans_set, Comp.has_sub hcs]

theorem State.sans_decidePins (hcs : Comp.has cs [.slots, .crypto, .heart, .tally, .cells, .orders, .queues, .nodes, .canopy]) (s : State) :
    s.decidePins.sans cs = s.sans cs := by
  unfold State.decidePins
  refine State.sans_foldl (fun _ _ => ?_) _ _
  dsimp only
  repeat' split
  all_goals simp +decide only [State.sans_count, State.sans_decideMove, State.sans_setNode, State.sans_set, Comp.has_sub hcs]

theorem State.sans_placeNodes (hcs : Comp.has cs [.slots, .crypto, .heart, .tally, .cells, .orders, .queues, .nodes, .canopy]) (s : State) (n :
    Nat) :
    (s.placeNodes n).sans cs = s.sans cs := by
  induction n generalizing s with
  | zero => rfl
  | succ n ih =>
    unfold State.placeNodes
    repeat' split
    all_goals simp +decide only [ih, State.sans_count, State.sans_decideMove, Comp.has_sub hcs]

theorem State.sans_aerialNode (hcs : Comp.has cs [.dirty, .tally, .nodes, .canopy]) (s : State) (i : Nat) :
    (s.aerialNode i).sans cs = s.sans cs := by
  unfold State.aerialNode
  repeat' split
  all_goals simp +decide only [State.sans_touch, State.sans_setNode, State.sans_setMeas, State.sans_count, State.sans_canLog, State.sans_ite,
    ite_self, Comp.has_sub hcs]

theorem State.sans_powerNode (hcs : Comp.has cs [.dirty, .tally, .nodes, .canopy]) (s : State) (i : Nat) : (s.powerNode i).sans cs = s.sans cs := by
  unfold State.powerNode
  repeat' split
  all_goals simp +decide only [State.sans_setMeas, State.sans_touch, State.sans_setNode, State.sans_count, State.sans_canLog, State.sans_ite,
    ite_self, Comp.has_sub hcs]

theorem State.sans_setPath (hcs : Comp.has cs [.dirty, .tally, .nodes, .canopy]) (s : State) (i slot : Nat) (gain : Int) :
    (s.setPath i slot gain).sans cs = s.sans cs := by
  unfold State.setPath
  split <;> simp +decide only [State.sans_touch, State.sans_setNode, State.sans_setMeas, State.sans_count, State.sans_canLog, Comp.has_sub hcs]

theorem State.sans_paths (hcs : Comp.has cs [.dirty, .tally, .nodes, .canopy]) (s : State) : s.paths.sans cs = s.sans cs := by
  simp +decide only [State.paths, State.sans_setPath (Comp.has_sub hcs rfl), State.sans_foldl, implies_true]

theorem State.sans_work (hcs : Comp.has cs [.dec, .canopy]) (s : State) : s.work.sans cs = s.sans cs := by
  simp +decide only [State.work, State.sans_canLog, State.sans_set, State.sans_ite, ite_self, Comp.has_sub hcs]

theorem State.sans_decideKind (hcs : Comp.has cs [.slots, .crypto, .heart, .dirty, .tally, .cells, .orders, .queues, .fe, .lanes, .dec, .nodes,
    .wake, .canopy]) (s : State) (k : Nat) :
    (s.decideKind k).sans cs = s.sans cs := by
  unfold State.decideKind
  split <;> simp +decide only [State.sans_faultMap (Comp.has_sub hcs rfl), State.sans_avoidNeighbours (Comp.has_sub hcs rfl), State.sans_slice
    (Comp.has_sub hcs rfl), State.sans_applyMap (Comp.has_sub hcs rfl), State.sans_gateList (Comp.has_sub hcs rfl), State.sans_placeNodes
    (Comp.has_sub hcs rfl), State.sans_aerialNode (Comp.has_sub hcs rfl), State.sans_powerNode (Comp.has_sub hcs rfl), State.sans_paths
    (Comp.has_sub hcs rfl), State.sans_work (Comp.has_sub hcs rfl), State.sans_ite, ite_self, State.sans_foldl, implies_true]

theorem State.sans_decideAll (hcs : Comp.has cs [.slots, .crypto, .heart, .dirty, .tally, .cells, .orders, .queues, .fe, .lanes, .dec, .nodes,
    .wake, .canopy]) (s : State) (due : List Nat) :
    (s.decideAll due).sans cs = s.sans cs := by
  simp +decide only [State.decideAll, State.sans_decideKind (Comp.has_sub hcs rfl), State.sans_decidePins (Comp.has_sub hcs rfl),
    State.sans_rehomes (Comp.has_sub hcs rfl), State.sans_reverts (Comp.has_sub hcs rfl), State.sans_noteUnwatched (Comp.has_sub hcs rfl),
    State.sans_foldl, implies_true]

theorem State.sans_canopyRound (hcs : Comp.has cs [.slots, .crypto, .heart, .dirty, .tally, .cells, .orders, .queues, .fe, .lanes, .dec, .nodes,
    .wake, .canopy]) (s : State) (e : CanopyEnv) :
    (s.canopyRound e).sans cs = s.sans cs := by
  simp +decide only [State.canopyRound, State.sans_count, State.sans_decideAll, State.sans_measureBusy, State.sans_measureLinks, State.sans_set,
    State.sans_ite, ite_self, Comp.has_sub hcs]

theorem State.sans_freezeEnd (hcs : Comp.has cs [.dirty, .canopy]) (s : State) : s.freezeEnd.sans cs = s.sans cs := by
  simp +decide only [State.freezeEnd, State.sans_touch, State.sans_set, State.sans_ite, ite_self, Comp.has_sub hcs]

theorem State.sans_raiseUnwatched (hcs : Comp.has cs [.tally, .early, .mbox, .canopy]) (s : State) (f : Fe) (k : Nat) :
    (s.raiseUnwatched f k).sans cs = s.sans cs := by
  unfold State.raiseUnwatched
  dsimp only
  repeat' split
  all_goals simp +decide only [State.sans_noteUnwatched, State.sans_raise, State.sans_set, Comp.has_sub hcs]

/-! ## Machine/CanopyCmds -/

theorem State.sans_waitPin (hcs : Comp.has cs [.canopy]) (s : State) (i : Nat) (w : PinWait) : (s.waitPin i w).sans cs = s.sans cs := by
  simp +decide only [State.waitPin, State.sans_coolNode, State.sans_set, Comp.has_sub hcs]

theorem State.sans_markPin (hcs : Comp.has cs [.dirty, .nodes, .canopy]) (s : State) (i kind : Nat) (on : Bool) :
    (s.markPin i kind on).sans cs = s.sans cs := by
  unfold State.markPin
  split <;> simp +decide only [State.sans_touch, State.sans_setNode, State.sans_canLog, Comp.has_sub hcs]

theorem State.sans_pinNode (hcs : Comp.has cs [.tally, .nodes, .canopy]) (s : State) (i : Nat) (n : Node) (kind value : Nat) :
    (s.pinNode i n kind value).sans cs = s.sans cs := by
  unfold State.pinNode
  split <;> simp +decide only [State.sans_waitPin, State.sans_setMeas, State.sans_setNode, State.sans_count, State.sans_canLog, State.sans_ite,
    ite_self, Comp.has_sub hcs]

theorem State.sans_pinLane (hcs : Comp.has cs [.dirty, .tally, .fe, .lanes, .canopy]) (s : State) (l : Nat) (a : Nat × Nat) :
    (s.pinLane l a).sans cs = s.sans cs := by
  unfold State.pinLane
  simp +decide only [State.sans_assignLane, State.sans_canLog, State.sans_settleLanes, State.sans_set, Comp.has_sub hcs]
  exact State.sans_foldl (fun _ _ => by simp +decide only [State.sans_assignLane, State.sans_set, Comp.has_sub hcs]) _ _

theorem State.sans_pinSlice (hcs : Comp.has cs [.dirty, .tally, .fe, .canopy]) (s : State) (f : Fe) (c : Nat) :
    (s.pinSlice f c).sans cs = s.sans cs := by
  simp +decide only [State.pinSlice, State.sans_canLog, State.sans_touch, State.sans_setFe, State.sans_decideSlice, State.sans_set, State.sans_ite,
    ite_self, Comp.has_sub hcs]

theorem State.sans_canopyPin (hcs : Comp.has cs [.ceilings, .dirty, .tally, .mbox, .cells, .orders, .queues, .fe, .lanes, .nodes, .canopy, .back])
    (s : State) (m : Nat) (r : Request) :
    (s.canopyPin m r).sans cs = s.sans cs := by
  unfold State.canopyPin
  dsimp only
  repeat' split
  all_goals simp +decide only [State.sans_respond, State.sans_markPin, State.sans_pinNode, State.sans_pinLane, State.sans_pinSlice, Comp.has_sub
    hcs]

theorem State.sans_dropWait (hcs : Comp.has cs [.canopy]) (s : State) (i kind : Nat) : (s.dropWait i kind).sans cs = s.sans cs := by
  simp +decide only [State.dropWait, State.sans_set, Comp.has_sub hcs]

theorem State.sans_canopyUnpin (hcs : Comp.has cs [.ceilings, .dirty, .mbox, .cells, .orders, .queues, .lanes, .nodes, .canopy, .back]) (s : State)
    (m : Nat) (r : Request) :
    (s.canopyUnpin m r).sans cs = s.sans cs := by
  unfold State.canopyUnpin
  dsimp only
  repeat' split
  all_goals simp +decide only [State.sans_respond, State.sans_markPin, State.sans_dropWait, State.sans_touch, State.sans_setLane,
    State.sans_canLog, State.sans_set, Comp.has_sub hcs]

theorem State.sans_setFreeze (hcs : Comp.has cs [.dirty, .canopy]) (s : State) (kinds w duration : Nat) (on : Bool) :
    (s.setFreeze kinds w duration on).sans cs = s.sans cs := by
  simp +decide only [State.setFreeze, State.sans_touch, State.sans_canLog, State.sans_set, Comp.has_sub hcs]

/-! ## Machine/Clock -/

theorem State.sans_writeInc (hcs : Comp.has cs [.time, .dirty, .tally]) (s : State) (ns : BitVec 3) (frac : BitVec 32) :
    (s.writeInc ns frac).sans cs = s.sans cs := by
  simp +decide only [State.writeInc, State.sans_touch, State.sans_count, State.sans_set, State.sans_ite, ite_self, Comp.has_sub hcs]

theorem State.sans_masterLoss (hcs : Comp.has cs [.time, .dirty, .tally, .early, .mbox]) (s : State) : s.masterLoss.sans cs = s.sans cs := by
  simp +decide only [State.masterLoss, State.sans_setDisc, State.sans_count, State.sans_raise, State.sans_set, State.sans_ite, ite_self,
    Comp.has_sub hcs]

theorem State.sans_holdoverDegraded (hcs : Comp.has cs [.time, .tally, .early, .mbox]) (s : State) : s.holdoverDegraded.sans cs = s.sans cs := by
  simp +decide only [State.holdoverDegraded, State.sans_raise, State.sans_set, State.sans_ite, ite_self, Comp.has_sub hcs]

theorem State.sans_ppsEdge (hcs : Comp.has cs [.time, .tally]) (s : State) : s.ppsEdge.sans cs = s.sans cs := by
  simp +decide only [State.ppsEdge, State.sans_count, State.sans_set, State.sans_ite, ite_self, Comp.has_sub hcs]

theorem State.sans_timeSet (hcs : Comp.has cs [.time, .rtc, .ceilings, .almanac, .dirty, .tally, .early, .mbox, .cells, .orders, .queues, .back])
    (s : State) (m : Nat) (r : Request) :
    (s.timeSet m r).sans cs = s.sans cs := by
  unfold State.timeSet
  repeat' split
  all_goals simp +decide only [State.sans_respond, State.sans_writeRtc, Comp.has_sub hcs]

theorem State.sans_localChange (hcs : Comp.has cs [.rtc, .ceilings, .mbox, .cells, .orders, .queues, .back]) (s : State) (m : Nat) (r : Request) (o
    : Int) (summer : Option Bool) :
    (s.localChange m r o summer).sans cs = s.sans cs := by
  simp +decide only [State.localChange, State.sans_respond, State.sans_setRtc, State.sans_ite, ite_self, Comp.has_sub hcs]

/-! ## Machine/MacRx -/

theorem State.sans_postAck (hcs : Comp.has cs [.rnd, .tally, .early, .mbox, .cells, .orders, .queues, .fe, .lanes, .mac, .nodes, .wake]) (s :
    State) (r : RxEnd) (f : AirFrame) :
    (s.postAck r f).sans cs = s.sans cs := by
  unfold State.postAck
  dsimp only
  repeat' split
  all_goals simp +decide only [State.sans_ackOver, State.sans_count, State.sans_setLane, State.sans_charge, State.sans_ackTakes, State.sans_setFe,
    Comp.has_sub hcs]

theorem State.sans_countWorldAndDevice (hcs : Comp.has cs [.tally]) (s : State) (c : Ctr) (w : Option Nat) :
    (s.countWorldAndDevice c w).sans cs = s.sans cs := by
  unfold State.countWorldAndDevice
  split <;> simp +decide only [State.sans_count, Comp.has_sub hcs]

theorem State.sans_dupEnter (hcs : Comp.has cs [.tally, .mac]) (s : State) (f : AirFrame) (fcs : BitVec 32) (len endNs : Nat) :
    (s.dupEnter f fcs len endNs).sans cs = s.sans cs := by
  unfold State.dupEnter
  dsimp only
  repeat' split
  all_goals simp +decide only [State.sans_countWorldAndDevice, State.sans_set, Comp.has_sub hcs]

theorem State.sans_nbrEvent (hcs : Comp.has cs [.tally, .early, .mbox, .canopy]) (s : State) (code : Nat) (n : Nbr) :
    (s.nbrEvent code n).sans cs = s.sans cs := by
  simp +decide only [State.nbrEvent, State.sans_raise, State.sans_set, Comp.has_sub hcs]

theorem State.sans_neighbour (hcs : Comp.has cs [.tally, .early, .mbox, .mac, .canopy]) (s : State) (r : RxEnd) (src : BitVec 64) (e : BeaconElem) :
    (s.neighbour r src e).sans cs = s.sans cs := by
  unfold State.neighbour
  repeat' split
  all_goals simp +decide only [State.sans_nbrEvent, State.sans_count, State.sans_mk, or_true, true_or, and_self, Comp.has_sub hcs]

theorem State.sans_beaconHeard (hcs : Comp.has cs [.tally, .early, .mbox, .mac, .canopy]) (s : State) (r : RxEnd) (f : AirFrame) :
    (s.beaconHeard r f).sans cs = s.sans cs := by
  unfold State.beaconHeard
  split <;> simp +decide only [State.sans_neighbour, State.sans_count, State.sans_ite, ite_self, Comp.has_sub hcs]

theorem State.sans_awaited (hcs : Comp.has cs [.tally, .early, .mbox, .cells, .orders, .queues, .fe, .mac, .nodes, .wake, .canopy]) (s : State) (r
    : RxEnd) (f : AirFrame) (good : Bool) :
    (s.awaited r f good).sans cs = s.sans cs := by
  unfold State.awaited
  split <;> simp +decide only [State.sans_ackCame, State.sans_ackMissing, State.sans_ite, ite_self, Comp.has_sub hcs]

theorem State.sans_learnFrame (hcs : Comp.has cs [.tally, .table]) (s : State) (r : RxEnd) (src : Addr) (direct : Bool) :
    (s.learnFrame r src direct).sans cs = s.sans cs := by
  unfold State.learnFrame
  repeat' split
  all_goals simp +decide only [State.sans_learn, Comp.has_sub hcs]

theorem State.sans_measureU (hcs : Comp.has cs [.canopy]) (s : State) (i : Nat) (r : RxEnd) : (s.measureU i r).sans cs = s.sans cs := by
  unfold State.measureU
  dsimp only
  repeat' split
  all_goals simp +decide only [State.sans_setMeas, Comp.has_sub hcs]

theorem State.sans_noteChannel (hcs : Comp.has cs [.canopy]) (s : State) (i : Nat) (r : RxEnd) : (s.noteChannel i r).sans cs = s.sans cs := by
  unfold State.noteChannel
  dsimp only
  repeat' split
  all_goals simp +decide only [State.sans_set, Comp.has_sub hcs]

theorem State.sans_acceptSource (hcs : Comp.has cs [.dirty, .tally, .early, .mbox, .nodes, .table, .canopy]) (s : State) (r : RxEnd) (f : AirFrame)
    :
    (s.acceptSource r f).2.sans cs = s.sans cs := by
  unfold State.acceptSource
  dsimp only
  repeat' split
  all_goals simp +decide only [State.sans_learn, State.sans_noteChannel, State.sans_measureU, State.sans_refresh, State.sans_count,
    State.sans_insertNode, Comp.has_sub hcs]

theorem State.sans_freeLane (hcs : Comp.has cs [.lanes]) (s : State) (l : Nat) : (s.freeLane l).sans cs = s.sans cs := by
  simp +decide only [State.freeLane, State.sans_setLane, Comp.has_sub hcs]

theorem State.sans_closeFrame (hcs : Comp.has cs [.tally, .early, .mbox, .cells, .queues, .lanes]) (s : State) (r : RxEnd) :
    (s.closeFrame r).sans cs = s.sans cs := by
  simp +decide only [State.closeFrame, State.sans_leaveStaging, State.sans_releaseChain, State.sans_freeLane, Comp.has_sub hcs]

theorem State.sans_testFrame (hcs : Comp.has cs [.fe]) (s : State) (fe : Fe) (level : Nat) : (s.testFrame fe level).sans cs = s.sans cs := by
  simp +decide only [State.testFrame, State.sans_setFe, Comp.has_sub hcs]

theorem State.sans_acceptFrame (hcs : Comp.has cs [.rnd, .dirty, .tally, .early, .mbox, .cells, .orders, .queues, .fe, .lanes, .mac, .nodes,
    .table, .wake, .canopy]) (s : State) (r : RxEnd) (f : AirFrame) :
    (s.acceptFrame r f).sans cs = s.sans cs := by
  simp +decide only [State.acceptFrame, State.sans_postAck, State.sans_ackOver, State.sans_freeLane, State.sans_countWorldAndDevice,
    State.sans_leaveStaging, State.sans_releaseChain, State.sans_acceptSource, State.sans_commitTo, State.sans_dupEnter, State.sans_ite, ite_self,
    Comp.has_sub hcs]

theorem State.sans_frameEnd (hcs : Comp.has cs [.rnd, .dirty, .tally, .early, .mbox, .cells, .orders, .queues, .fe, .lanes, .mac, .nodes, .table,
    .wake, .canopy]) (s : State) (l : Nat) (f : AirFrame) :
    (s.frameEnd l f).sans cs = s.sans cs := by
  unfold State.frameEnd
  split <;> simp +decide only [State.sans_awaited, State.sans_count, State.sans_closeFrame, State.sans_testFrame, State.sans_beaconHeard,
    State.sans_acceptFrame, State.sans_learnFrame, State.sans_ite, ite_self, Comp.has_sub hcs]

theorem State.sans_nbrWindow (hcs : Comp.has cs [.tally, .early, .mbox, .mac, .canopy]) (s : State) (router : Nat) :
    (s.nbrWindow router).sans cs = s.sans cs := by
  unfold State.nbrWindow
  repeat' split
  all_goals simp +decide only [State.sans_nbrEvent, State.sans_count, State.sans_set, State.sans_ite, ite_self, Comp.has_sub hcs]

/-! ## Machine/Rpl -/

theorem State.sans_setDodag (hcs : Comp.has cs [.table]) (s : State) (w : Nat) (d : Dodag) : (s.setDodag w d).sans cs = s.sans cs := by
  simp +decide only [State.setDodag, State.sans_mk, or_true, true_or, and_self, Comp.has_sub hcs]

theorem State.sans_resetTrickle (hcs : Comp.has cs [.table]) (s : State) (w : Nat) : (s.resetTrickle w).sans cs = s.sans cs := by
  simp +decide only [State.resetTrickle, State.sans_setDodag, Comp.has_sub hcs]

theorem State.sans_rplReply (hcs : Comp.has cs [.rnd, .slots, .crypto, .tally, .cells, .orders, .queues, .nodes]) (s : State) (i : Nat) (kind :
    DownKind) :
    Prot.Sans cs s (s.rplReply i kind) := by
  unfold State.rplReply
  split
  · rfl
  · refine (State.sans_sendUnicast (Comp.has_sub hcs rfl) _ _ _ _ _ _).after ?_
    simp +decide only [State.sans_set, Comp.has_sub hcs]

theorem State.sans_dioTrickle (hcs : Comp.has cs [.rnd, .crypto, .tally, .early, .mbox, .cells, .orders, .queues, .table]) (s : State) (w : Nat) :
    (s.dioTrickle w).sans cs = s.sans cs := by
  unfold State.dioTrickle
  dsimp only
  repeat' split
  case h_1 hu =>
    refine ((State.sans_sendCast (Comp.has_sub hcs rfl) _ _ _ _ _).of_done hu).trans ?_
    simp +decide only [State.sans_setDodag, State.sans_set, Comp.has_sub hcs]
  all_goals simp +decide only [State.sans_setDodag, State.sans_count, Comp.has_sub hcs]

theorem State.sans_applyDao (hcs : Comp.has cs [.dirty, .tally, .nodes]) (s : State) (i : Nat) (n : Node) (seq : BitVec 8) (l : List Transit) :
    (s.applyDao i n seq l).sans cs = s.sans cs := by
  simp +decide only [State.applyDao, State.sans_touch, State.sans_setNode, State.sans_countN, State.sans_ite, ite_self, Comp.has_sub hcs]

theorem State.sans_dao (hcs : Comp.has cs [.rnd, .slots, .crypto, .dirty, .tally, .cells, .orders, .queues, .nodes]) (s : State) (i : Nat) (n :
    Node) (inst : Nat) (targets : List (BitVec 64)) (seq : BitVec 8) (l : List Transit) (k : Bool) :
    Prot.Sans cs s (s.dao i n inst targets seq l k) := by
  unfold State.dao
  dsimp only
  repeat' split
  case isFalse.isFalse.isFalse.isTrue => exact (State.sans_rplReply (Comp.has_sub hcs rfl) _ _ _).after (State.sans_applyDao (Comp.has_sub hcs rfl)
    ..)
  all_goals simp +decide only [Prot.sans_done, State.sans_count, State.sans_applyDao, Comp.has_sub hcs]

theorem State.sans_dis (hcs : Comp.has cs [.rnd, .slots, .crypto, .tally, .cells, .orders, .queues, .nodes, .table]) (s : State) (i : Nat) (n :
    Node) (b : Bool) :
    Prot.Sans cs s (s.dis i n b) := by
  unfold State.dis
  repeat' split
  all_goals simp +decide only [Prot.sans_done, State.sans_resetTrickle, State.sans_rplReply, Comp.has_sub hcs]

/-! ## Machine/Link -/

theorem State.sans_countRx (hcs : Comp.has cs [.tally]) (s : State) (r : Rx) (c : Ctr) (w : Option Nat) :
    (s.countRx r c w).sans cs = s.sans cs := by
  unfold State.countRx
  split <;> simp +decide only [State.sans_count, Comp.has_sub hcs]

theorem State.sans_dropRx (hcs : Comp.has cs [.tally, .early, .mbox, .cells, .queues]) (s : State) (r : Rx) : (s.dropRx r).sans cs = s.sans cs := by
  simp +decide only [State.dropRx, State.sans_releaseChain, Comp.has_sub hcs]

theorem State.sans_holdOpen (hcs : Comp.has cs [.mac]) (s : State) (r : Rx) : (s.holdOpen r).sans cs = s.sans cs := by
  unfold State.holdOpen
  split <;> simp +decide only [State.sans_openCont, Comp.has_sub hcs]

theorem State.sans_notice (hcs : Comp.has cs [.slots, .crypto, .tally, .cells, .orders, .queues, .mac, .nodes, .table]) (s : State) (r : Rx) (i :
    Nat) (n : Node) (w reason : Nat) (b : Bool) :
    Prot.Sans cs s (s.notice r i n w reason b) := by
  unfold State.notice
  dsimp only
  split
  · simp +decide only [Prot.sans_done, State.sans_count, Comp.has_sub hcs]
  · split
    · rename_i t ht
      rw [Prot.sans_done, State.sans_count (Comp.has_sub hcs rfl)]
      repeat' split at ht
      · refine ((State.sans_sendUnicast (Comp.has_sub hcs rfl) _ _ _ _ _ _).of_done ht).trans ?_
        simp +decide only [State.sans_holdOpen, State.sans_mk, or_true, true_or, and_self, Comp.has_sub hcs]
      · refine ((State.sans_sendJoinKey (Comp.has_sub hcs rfl) _ _ _ _ _ _ _).of_done ht).trans ?_
        simp +decide only [State.sans_holdOpen, State.sans_mk, or_true, true_or, and_self, Comp.has_sub hcs]
      · cases ht
        simp +decide only [State.sans_count, State.sans_holdOpen, State.sans_mk, or_true, true_or, and_self, Comp.has_sub hcs]
    · exact Prot.sans_wait

theorem State.sans_dropJoin (hcs : Comp.has cs [.table]) (s : State) (i : Nat) : (s.dropJoin i).sans cs = s.sans cs := by
  simp +decide only [State.dropJoin, State.sans_mk, or_true, true_or, and_self, Comp.has_sub hcs]

theorem State.sans_joinFails (hcs : Comp.has cs [.slots, .crypto, .dirty, .tally, .nodes, .table, .canopy]) (s : State) (i : Nat) (n : Node) (w :
    Nat) (c : Ctr) :
    (s.joinFails i n w c).sans cs = s.sans cs := by
  simp +decide only [State.joinFails, State.sans_count, State.sans_dropJoin, State.sans_clearNode, State.sans_ite, ite_self, Comp.has_sub hcs]

theorem State.sans_joinHeard (hcs : Comp.has cs [.nodes]) (s : State) (r : Rx) (i : Nat) (n : Node) (g : Nat) :
    (s.joinHeard r i n g).2.sans cs = s.sans cs := by
  unfold State.joinHeard
  split <;> simp +decide only [State.sans_setNode, Comp.has_sub hcs]

theorem State.sans_joinReq (hcs : Comp.has cs [.rnd, .slots, .crypto, .dirty, .tally, .cells, .orders, .queues, .mac, .nodes, .table, .canopy]) (s
    : State) (r : Rx) (sec : AirSec) (i : Nat) (n : Node) (w : Nat) :
    Prot.Sans cs s (s.joinReq r sec i n w) := by
  unfold State.joinReq
  split
  · split
    · simp +decide only [Prot.sans_done, State.sans_joinFails, Comp.has_sub hcs]
    · split
      · simp +decide only [Prot.sans_done, State.sans_count, Comp.has_sub hcs]
      · dsimp only
        split
        · simp +decide only [Prot.sans_done, State.sans_joinFails, State.sans_holdOpen, Comp.has_sub hcs]
        · split
          · simp +decide only [Prot.sans_done, State.sans_joinFails, State.sans_holdOpen, Comp.has_sub hcs]
          · split
            · simp +decide only [Prot.sans_done, State.sans_count, State.sans_holdOpen, Comp.has_sub hcs]
            · split
              · simp +decide only [Prot.sans_done, State.sans_joinFails, State.sans_holdOpen, State.sans_mk, or_true, true_or, and_self,
                Comp.has_sub hcs]
              · refine (State.sans_sendJoinKey (Comp.has_sub hcs rfl) _ _ _ _ _ _ _).after ?_
                simp +decide only [State.sans_holdOpen, State.sans_joinHeard, State.sans_draw, State.sans_dropJoin, State.sans_mk, or_true,
                  true_or, and_self, Comp.has_sub hcs]
  · simp +decide only [Prot.sans_done, State.sans_joinFails, Comp.has_sub hcs]

theorem State.sans_joinDone (hcs : Comp.has cs [.slots, .crypto, .tally, .cells, .orders, .queues, .nodes]) (s : State) (i : Nat) :
    Prot.Sans cs s (s.joinDone i) := by
  unfold State.joinDone
  split
  · exact State.sans_sendUnicast hcs ..
  · rfl

theorem State.sans_joinComplete (hcs : Comp.has cs [.slots, .crypto, .ceilings, .heart, .tally, .cells, .orders, .queues, .nodes, .table, .canopy])
    (s : State) (r : Rx) (sec : AirSec) (i : Nat) (n : Node) (j : Join) (g p : Nat) :
    Prot.Sans cs s (s.joinComplete r sec i n j g p) := by
  unfold State.joinComplete
  refine (State.sans_joinDone (Comp.has_sub hcs rfl) _ _).after ?_
  simp +decide only [State.sans_setNode, State.sans_dropCached, State.sans_dropJoin, State.sans_cacheKey, State.sans_writeJoin,
    State.sans_setCourse, State.sans_writePending, State.sans_setMeas, State.sans_canLog, State.sans_count, State.sans_mk, or_true, true_or,
    and_self, State.sans_ite, ite_self, Comp.has_sub hcs]

theorem State.sans_joinConfirm (hcs : Comp.has cs [.slots, .crypto, .ceilings, .heart, .dirty, .tally, .cells, .orders, .queues, .mac, .nodes,
    .table, .canopy]) {s : State} {r : Rx} {sec : AirSec} {i : Nat} {n : Node} {j : Join} {p : Prot} (h : s.joinConfirm r sec i n j = some p) :
    Prot.Sans cs s p := by
  unfold State.joinConfirm at h
  split at h
  · cases h
    simp +decide only [Prot.sans_done, State.sans_joinFails, Comp.has_sub hcs]
  · split at h
    · cases h
      split
      · simp +decide only [Prot.sans_done, State.sans_count, Comp.has_sub hcs]
      · dsimp only
        split
        · simp +decide only [Prot.sans_done, State.sans_joinFails, State.sans_holdOpen, Comp.has_sub hcs]
        · split
          · simp +decide only [Prot.sans_done, State.sans_joinFails, State.sans_holdOpen, State.sans_joinHeard, Comp.has_sub hcs]
          · refine (State.sans_joinComplete (Comp.has_sub hcs rfl) _ _ _ _ _ _ _ _).after ?_
            simp +decide only [State.sans_holdOpen, State.sans_joinHeard, Comp.has_sub hcs]
    · cases h

theorem State.sans_upstream (hcs : Comp.has cs [.tally, .cells, .orders, .queues]) (s : State) (w : Nat) (src : BitVec 64) (ip : Octets) (tc :
    BitVec 8) (keep : List Nat) :
    (s.upstream w src ip tc keep).sans cs = s.sans cs := by
  unfold State.upstream
  repeat' split
  case h_1 ht => exact State.sans_post (Comp.has_sub hcs rfl) ht
  all_goals simp +decide only [State.sans_count, Comp.has_sub hcs]

theorem State.sans_dropReasm (hcs : Comp.has cs [.tally, .early, .mbox, .cells, .reasm, .queues]) (s : State) (x : Reasm) :
    (s.dropReasm x).sans cs = s.sans cs := by
  unfold State.dropReasm
  simp +decide only [State.sans_count, State.sans_mk, or_true, true_or, and_self, Comp.has_sub hcs]
  exact State.sans_foldl (fun _ _ => by simp +decide only [State.sans_releaseChain, Comp.has_sub hcs]) _ _

theorem State.sans_fragment (hcs : Comp.has cs [.tally, .early, .mbox, .cells, .orders, .reasm, .queues]) (s : State) (r : Rx) (w : Nat) (src :
    BitVec 64) (ip : Octets) (h : FragHdr) :
    (s.fragment r w src ip h).sans cs = s.sans cs := by
  unfold State.fragment
  dsimp only
  repeat' split
  case h_1 t ht => simp +decide only [State.sans_moveCharge (Comp.has_sub hcs rfl) ht, State.sans_mk, or_true, true_or, and_self, Comp.has_sub hcs]
  all_goals simp +decide only [State.sans_count (Comp.has_sub hcs rfl), State.sans_dropRx (Comp.has_sub hcs rfl), State.sans_dropReasm
    (Comp.has_sub hcs rfl), State.sans_releaseChain (Comp.has_sub hcs rfl), State.sans_upstream (Comp.has_sub hcs rfl), State.sans_mk, or_true,
    true_or, and_self, State.sans_foldl, implies_true, Comp.has_sub hcs]

theorem State.sans_upContent (hcs : Comp.has cs [.rnd, .slots, .crypto, .dirty, .tally, .early, .mbox, .cells, .orders, .reasm, .queues, .mac,
    .nodes, .table]) (s : State) (r : Rx) (i : Nat) (n : Node) :
    Prot.Sans cs s (s.upContent r i n) := by
  unfold State.upContent
  repeat' split
  · simp +decide only [Prot.sans_done, State.sans_count, State.sans_dropRx, Comp.has_sub hcs]
  · simp +decide only [Prot.sans_done, State.sans_dropRx, State.sans_upstream, Comp.has_sub hcs]
  · simp +decide only [Prot.sans_done, State.sans_fragment, Comp.has_sub hcs]
  · exact (State.sans_dao (Comp.has_sub hcs rfl) _ _ _ _ _ _ _ _).after (State.sans_dropRx (Comp.has_sub hcs rfl) ..)
  · exact (State.sans_dis (Comp.has_sub hcs rfl) _ _ _ _).after (State.sans_dropRx (Comp.has_sub hcs rfl) ..)
  · refine (State.sans_joinDone (Comp.has_sub hcs rfl) _ _).after ?_
    simp +decide only [State.sans_dropRx, State.sans_holdOpen, Comp.has_sub hcs]
  · simp +decide only [Prot.sans_done, State.sans_dropRx, Comp.has_sub hcs]
  · simp +decide only [Prot.sans_done, State.sans_count, State.sans_dropRx, Comp.has_sub hcs]

theorem State.sans_verify (hcs : Comp.has cs [.slots, .crypto]) {s t : State} {r : Rx} {sec : AirSec} {i : Nat} {n : Node} {c : KeyClass} {b :
    Bool} (h : s.verify r sec i n c = some (b, t)) :
    t.sans cs = s.sans cs := by
  unfold State.verify at h
  split at h
  · obtain ⟨k, hk, he⟩ := Option.map_eq_some_iff.1 h
    cases he
    exact State.sans_linkKey hcs hk
  · cases h
    rfl
  · cases h
    rfl

theorem State.sans_verifyFrame (hcs : Comp.has cs [.rnd, .slots, .crypto, .ceilings, .heart, .dirty, .tally, .early, .mbox, .cells, .orders,
    .reasm, .queues, .mac, .nodes, .table]) (s : State) (r : Rx) (sec : AirSec) (i : Nat) (n : Node) (c : KeyClass) :
    Prot.Sans cs s (s.verifyFrame r sec i n c) := by
  have notices : ∀ t n w k b, t.sans cs = s.sans cs → Prot.Sans cs s (State.notice t r i n w k b) := fun _ _ _ _ _ h =>
    (State.sans_notice (Comp.has_sub hcs rfl) _ _ _ _ _ _ _).after h
  unfold State.verifyFrame
  extract_lets w stale heldGen isLink sameWorld t₁ t₂ m t₃
  have h₁ : t₁.sans cs = s.sans cs := by
    simp +decide only [t₁, State.sans_countRx, State.sans_dropRx, Comp.has_sub hcs]
  have h₂ : t₂.sans cs = s.sans cs := by
    simp +decide only [t₂, State.sans_countRx, State.sans_dropRx, Comp.has_sub hcs]
  have h₃ : t₃.sans cs = s.sans cs := by
    simp +decide only [t₃, h₂, State.sans_setNode, Comp.has_sub hcs]
  split
  · simp +decide only [Prot.sans_done, State.sans_countRx, State.sans_dropRx, Comp.has_sub hcs]
  · split
    · simp +decide only [Prot.sans_done, State.sans_countRx, State.sans_dropRx, Comp.has_sub hcs]
    · split
      · split
        · exact notices _ _ _ _ _ h₁
        · exact h₁
      · split
        · repeat' split
          · exact notices _ _ _ _ _ h₃
          · exact h₃
          · exact h₂
        · split
          · simp +decide only [Prot.sans_done, State.sans_countRx, State.sans_dropRx, Comp.has_sub hcs]
          · next t hv => simp +decide only [Prot.sans_done, State.sans_verify (Comp.has_sub hcs rfl) hv, State.sans_countRx, State.sans_dropRx,
            Comp.has_sub hcs]
          · next t hv =>
            refine (State.sans_upContent (Comp.has_sub hcs rfl) _ _ _ _).after ?_
            simp +decide only [State.sans_verify (Comp.has_sub hcs rfl) hv, State.sans_setNode, State.sans_writeFcIn, Comp.has_sub hcs]

theorem State.sans_secure (hcs : Comp.has cs [.rnd, .slots, .crypto, .ceilings, .heart, .dirty, .tally, .early, .mbox, .cells, .orders, .reasm,
    .queues, .mac, .nodes, .table, .canopy]) (s : State) (r : Rx) (i : Nat) (n : Node) :
    Prot.Sans cs s (s.secure r i n) := by
  have dropped : (s.dropRx r).sans cs = s.sans cs := State.sans_dropRx (Comp.has_sub hcs rfl) ..
  unfold State.secure
  split
  · simp +decide only [Prot.sans_done, State.sans_countRx, State.sans_dropRx, Comp.has_sub hcs]
  · rename_i sec _
    dsimp only
    generalize hu : (if n.state ≠ .joining then s.verifyFrame r sec i n (keyClass sec.keyIndex) else _) = usual
    have usually : Prot.Sans cs s usual := by
      rw [← hu]
      split
      · exact State.sans_verifyFrame (Comp.has_sub hcs rfl) ..
      · split
        · exact (State.sans_notice (Comp.has_sub hcs rfl) _ _ _ _ _ _ _).after dropped
        · simp +decide only [Prot.sans_done, State.sans_countRx, State.sans_dropRx, Comp.has_sub hcs]
    split
    · simp +decide only [Prot.sans_done, State.sans_countRx, State.sans_dropRx, Comp.has_sub hcs]
    · exact (State.sans_joinReq (Comp.has_sub hcs rfl) _ _ _ _ _ _).after dropped
    · split
      · split
        · rename_i j _ _
          cases hc : (s.dropRx r).joinConfirm r sec i n j with
          | none => exact usually
          | some p => exact (State.sans_joinConfirm (Comp.has_sub hcs rfl) hc).after dropped
        · exact usually
      · exact usually
    · exact usually

theorem State.sans_security (hcs : Comp.has cs [.rnd, .slots, .crypto, .ceilings, .heart, .dirty, .tally, .early, .mbox, .cells, .orders, .reasm,
    .queues, .mac, .nodes, .table, .canopy]) (s : State) (p : Fe) :
    (s.security p).sans cs = s.sans cs := by
  unfold State.security
  dsimp only
  split
  · simp +decide only [State.sans_take, Comp.has_sub hcs]
  · split
    · split
      case h_5 =>
        split
        · simp +decide only [State.sans_take, State.sans_dropRx, State.sans_countRx, Comp.has_sub hcs]
        · split
          · next hu =>
            rw [(State.sans_secure (Comp.has_sub hcs rfl) _ _ _ _).of_done hu]
            simp +decide only [State.sans_take, Comp.has_sub hcs]
          · simp +decide only [State.sans_count, Comp.has_sub hcs]
      all_goals simp +decide only [State.sans_take, State.sans_dropRx, State.sans_count, Comp.has_sub hcs]
    · simp +decide only [State.sans_take, State.sans_releaseChain, Comp.has_sub hcs]

theorem State.sans_joinTimeout (hcs : Comp.has cs [.slots, .crypto, .dirty, .tally, .nodes, .table, .canopy]) (s : State) (i : Nat) :
    (s.joinTimeout i).sans cs = s.sans cs := by
  unfold State.joinTimeout
  split <;> simp +decide only [State.sans_joinFails, State.sans_ite, ite_self, Comp.has_sub hcs]

theorem State.sans_reasmTimeout (hcs : Comp.has cs [.tally, .early, .mbox, .cells, .reasm, .queues]) (s : State) (src : BitVec 64) (tag size : Nat)
    :
    (s.reasmTimeout src tag size).sans cs = s.sans cs := by
  unfold State.reasmTimeout
  split <;> simp +decide only [State.sans_dropReasm, State.sans_ite, ite_self, Comp.has_sub hcs]

theorem State.sans_ceilingWrite (hcs : Comp.has cs [.ceilings, .heart, .tally, .mbox]) (s : State) (k : CeilKind) :
    (s.ceilingWrite k).sans cs = s.sans cs := by
  unfold State.ceilingWrite
  dsimp only
  repeat' split
  all_goals simp +decide only [State.setMb, State.sans_writeCeil, State.sans_mk, or_true, true_or, and_self, Comp.has_sub hcs]

/-! ## Machine/Down -/

theorem State.sans_learnRouter (hcs : Comp.has cs [.back]) (s : State) (mac : BitVec 48) : (s.learnRouter mac).sans cs = s.sans cs := by
  simp +decide only [State.learnRouter, State.sans_set, State.sans_ite, ite_self, Comp.has_sub hcs]

theorem State.sans_toPart (hcs : Comp.has cs [.ceilings, .heart, .tally, .mbox, .cells, .orders, .queues, .back]) (s : State) (port arrival : Nat)
    (src dst : BitVec 128) (udp : Option (BitVec 16 × BitVec 16)) (data : Octets) :
    (s.toPart port arrival src dst udp data).sans cs = s.sans cs := by
  unfold State.toPart
  repeat' split
  all_goals simp +decide only [State.sans_accept, State.sans_count, Comp.has_sub hcs]

theorem State.sans_downUnicast (hcs : Comp.has cs [.slots, .crypto, .tally, .cells, .orders, .queues, .mac, .nodes, .wake]) (s : State) (w i : Nat)
    (p : DownPkt) :
    Prot.Sans cs s (s.downUnicast w i p) := by
  unfold State.downUnicast
  dsimp only
  repeat' split
  case h_2.isTrue ht _ =>
    have sent := (State.sans_sendUnicast (cs := cs) (Comp.has_sub hcs rfl) _ _ _ _ _ _).of_done ht
    simp +decide only [Prot.sans_done, sent, State.sans_takeTag, State.sans_set, Comp.has_sub hcs]
  case h_2.isFalse ht _ =>
    refine ((State.sans_sendUnicast (Comp.has_sub hcs rfl) _ _ _ _ _ _).of_done ht).trans ?_
    simp +decide only [State.sans_takeTag, State.sans_set, Comp.has_sub hcs]
  all_goals simp +decide only [Prot.sans_done, Prot.sans_wait, State.sans_count, State.sans_set, Comp.has_sub hcs]

theorem State.sans_downCast (hcs : Comp.has cs [.rnd, .crypto, .tally, .early, .mbox, .cells, .orders, .queues, .mac]) (s : State) (w q : Nat) (p :
    DownPkt) :
    Prot.Sans cs s (s.downCast w q p) := by
  unfold State.downCast
  dsimp only
  split
  · simp +decide only [Prot.sans_done, State.sans_count, State.sans_set, Comp.has_sub hcs]
  · refine (State.sans_sendCast (Comp.has_sub hcs rfl) _ _ _ _ _).after ?_
    simp +decide only [State.sans_takeTag, State.sans_set, Comp.has_sub hcs]

theorem State.sans_downstream (hcs : Comp.has cs [.rnd, .slots, .crypto, .tally, .early, .mbox, .cells, .orders, .queues, .mac, .nodes, .wake]) (s
    : State) (hdr : EthHdr) (dst : BitVec 128) (tc : BitVec 8) (p : DownPkt) :
    Prot.Sans cs s (s.downstream hdr dst tc p) := by
  unfold State.downstream
  repeat' split
  all_goals simp +decide only [Prot.sans_done, State.sans_downCast, State.sans_count, State.sans_downUnicast, Comp.has_sub hcs]

theorem State.sans_classify (hcs : Comp.has cs [.rnd, .slots, .crypto, .ceilings, .heart, .tally, .early, .mbox, .cells, .orders, .queues, .mac,
    .nodes, .wake, .back]) (s : State) (port : Nat) (f : EthFrame) (arrival : Nat) (o : Octets) (k : Nat) :
    Prot.Sans cs s (s.classify port f arrival o k) := by
  unfold State.classify
  repeat' split
  all_goals simp +decide only [Prot.sans_done, State.sans_toPart, State.sans_downstream, State.sans_count, State.sans_learnRouter, Comp.has_sub hcs]

theorem State.sans_takeAct (hcs : Comp.has cs [.tally, .early, .mbox, .cells, .orders, .queues]) (s : State) (q : Nat) {act : State → Packet →
    Prot} (h : ∀ t p, (act t p).Sans cs t) :
    (s.takeAct q act).sans cs = s.sans cs := by
  unfold State.takeAct
  dsimp only
  split
  · simp +decide only [State.sans_take, Comp.has_sub hcs]
  · split
    · next hu =>
      rw [(h _ _).of_done hu]
      simp +decide only [State.sans_take, State.sans_releaseChain, Comp.has_sub hcs]
    · simp +decide only [State.sans_count, Comp.has_sub hcs]

theorem State.sans_classifyNext (hcs : Comp.has cs [.rnd, .slots, .crypto, .ceilings, .heart, .tally, .early, .mbox, .cells, .orders, .queues,
    .mac, .nodes, .wake, .back]) (s : State) (compressed : Octets) (hdrOct : Nat) :
    (s.classifyNext compressed hdrOct).sans cs = s.sans cs := by
  unfold State.classifyNext
  split
  · refine State.sans_takeAct (Comp.has_sub hcs rfl) s _ fun t p => ?_
    split
    · exact State.sans_downCast (Comp.has_sub hcs rfl) ..
    · rfl
  · refine State.sans_takeAct (Comp.has_sub hcs rfl) s _ fun t p => ?_
    split
    · exact State.sans_classify (Comp.has_sub hcs rfl) ..
    · rfl

/-! ## Machine/LifeOps -/

theorem State.sans_writeDir (hcs : Comp.has cs [.flash]) (s : State) (f : DirRec → DirRec) : (s.writeDir f).sans cs = s.sans cs := by
  simp +decide only [State.writeDir, State.sans_set, Comp.has_sub hcs]

theorem State.sans_failDir (hcs : Comp.has cs [.flash]) (s : State) : s.failDir.sans cs = s.sans cs := by
  simp +decide only [State.failDir, State.sans_set, Comp.has_sub hcs]

theorem State.sans_scramble (hcs : Comp.has cs [.rnd, .flash]) (s : State) (a n : Nat) : (s.scramble a n).sans cs = s.sans cs := by
  simp +decide only [State.scramble, State.sans_mk, or_true, true_or, and_self, Comp.has_sub hcs]

theorem State.sans_badWrite (hcs : Comp.has cs [.rnd, .flash]) (s : State) (a n : Nat) : (s.badWrite a n).sans cs = s.sans cs := by
  induction n generalizing s a with
  | zero => rfl
  | succ n ih =>
    refine (ih _ _).trans ?_
    simp +decide only [State.sans_mk, or_true, true_or, and_self, Comp.has_sub hcs]

theorem State.sans_writeSlot (hcs : Comp.has cs [.rnd, .flash]) (s : State) (base size off : Nat) (data : Octets) (late : Bool) :
    (s.writeSlot base size off data late).2.sans cs = s.sans cs := by
  unfold State.writeSlot
  split <;> simp +decide only [State.sans_badWrite, State.sans_scramble, State.sans_set, State.sans_ite, ite_self, Comp.has_sub hcs]

theorem State.sans_runFw (hcs : Comp.has cs [.life]) (s : State) (i : Nat) : (s.runFw i).sans cs = s.sans cs := by
  simp +decide only [State.runFw, State.sans_mk, or_true, true_or, and_self, Comp.has_sub hcs]

theorem State.sans_raiseRollback (hcs : Comp.has cs [.marks, .heart, .tally]) (s : State) : s.raiseRollback.sans cs = s.sans cs := by
  simp +decide only [State.raiseRollback, State.sans_lineWrite, State.sans_mk, or_true, true_or, and_self, State.sans_ite, ite_self, Comp.has_sub
    hcs]

theorem State.sans_raiseFloor (hcs : Comp.has cs [.marks, .heart, .tally]) (s : State) : s.raiseFloor.sans cs = s.sans cs := by
  unfold State.raiseFloor
  split <;> simp +decide only [State.sans_lineWrite, State.sans_mk, or_true, true_or, and_self, State.sans_ite, ite_self, Comp.has_sub hcs]

theorem State.sans_countKept (hcs : Comp.has cs [.heart, .tally]) (s : State) (c : Ctr) (sc : Scope) : (s.countKept c sc).sans cs = s.sans cs := by
  simp +decide only [State.countKept, State.sans_count, State.sans_mk, or_true, true_or, and_self, Comp.has_sub hcs]

theorem State.sans_powerClear (hcs : Comp.has cs (Comp.but [.rnd, .lcs, .flash, .rtc, .marks, .ceilings, .storedKeys, .almanac, .heart, .parting]))
    (s : State) :
    s.powerClear.sans cs = s.sans cs := by
  simp +decide only [State.powerClear, State.sans_mk, or_true, true_or, and_self, Comp.has_sub hcs]

theorem State.sans_holdIn (hcs : Comp.has cs (Comp.but [.rnd, .lcs, .flash, .rtc, .marks, .ceilings, .storedKeys, .almanac, .heart, .parting])) (s
    : State) (m : Mode) :
    (s.holdIn m).sans cs = s.sans cs := by
  simp +decide only [State.holdIn, State.sans_powerClear, State.sans_mk, or_true, true_or, and_self, Comp.has_sub hcs]

theorem State.sans_sendLast (hcs : Comp.has cs [.parting]) (s : State) : s.sendLast.sans cs = s.sans cs := by
  simp +decide only [State.sendLast, State.sans_set, Comp.has_sub hcs]

theorem State.sans_restartBy (hcs : Comp.has cs (Comp.but [.rnd, .lcs, .flash, .rtc, .marks, .ceilings, .storedKeys, .almanac, .heart, .parting]))
    (s : State) (cause : Nat) :
    (s.restartBy cause).sans cs = s.sans cs := by
  simp +decide only [State.restartBy, State.sans_holdIn, State.sans_mk, or_true, true_or, and_self, Comp.has_sub hcs]

theorem State.sans_openM0 (hcs : Comp.has cs [.mbox]) (s : State) : s.openM0.sans cs = s.sans cs := by
  simp +decide only [State.openM0, State.sans_setMb, Comp.has_sub hcs]

theorem State.sans_haltCrypto (hcs : Comp.has cs [.slots, .crypto]) (s : State) : s.haltCrypto.sans cs = s.sans cs := by
  simp +decide only [State.haltCrypto, State.sans_eraseSlots, State.sans_mk, or_true, true_or, and_self, Comp.has_sub hcs]

theorem State.sans_secError (hcs : Comp.has cs [.life, .slots, .crypto, .tally, .early, .mbox, .held, .cells, .orders, .reasm, .queues, .fe,
    .lanes, .dec, .back]) (s : State) (cause sensor : Nat) :
    (s.secError cause sensor).sans cs = s.sans cs := by
  simp +decide only [State.secError, State.sans_haltCrypto (Comp.has_sub hcs rfl), State.sans_feOff (Comp.has_sub hcs rfl), State.sans_openM0
    (Comp.has_sub hcs rfl), State.sans_mk, or_true, true_or, and_self, State.sans_foldl, implies_true, Comp.has_sub hcs]

theorem State.sans_zeroise (hcs : Comp.has cs (Comp.but [.rnd, .lcs, .flash, .rtc, .ceilings, .storedKeys, .almanac, .parting])) (s : State) (c :
    ZeroCause) :
    (s.zeroise c).sans cs = s.sans cs := by
  simp +decide only [State.zeroise, State.sans_lineWrite, State.sans_holdIn, State.sans_mk, or_true, true_or, and_self, Comp.has_sub hcs]

theorem State.sans_zeroEnd (hcs : Comp.has cs [.marks, .storedKeys, .heart]) (s : State) : s.zeroEnd.sans cs = s.sans cs := by
  simp +decide only [State.zeroEnd, State.sans_mk, or_true, true_or, and_self, Comp.has_sub hcs]

theorem State.sans_mapOutUnit (hcs : Comp.has cs [.crypto, .tally, .early, .mbox, .canopy]) (s : State) (u : Nat) :
    (s.mapOutUnit u).sans cs = s.sans cs := by
  simp +decide only [State.mapOutUnit, State.sans_count, State.sans_owe, State.sans_canLog, State.sans_raise, State.sans_mk, or_true, true_or,
    and_self, Comp.has_sub hcs]

theorem State.sans_unitTests (hcs : Comp.has cs [.crypto, .tally, .early, .mbox, .canopy]) (s : State) (ok : List Bool) :
    (s.unitTests ok).sans cs = s.sans cs := by
  unfold State.unitTests
  exact State.sans_foldl (fun _ _ => by simp +decide only [State.sans_mapOutUnit, State.sans_ite, ite_self, Comp.has_sub hcs]) _ _

theorem State.sans_collect (hcs : Comp.has cs [.tally]) (s : State) (first second : Bool) : (s.collect first second).2.sans cs = s.sans cs := by
  unfold State.collect
  repeat' split
  all_goals simp +decide only [State.sans_count, Comp.has_sub hcs]

theorem State.sans_tests2to9 (hcs : Comp.has cs [.crypto, .tally, .early, .mbox, .canopy]) (s : State) (r : TestEnv) :
    (s.tests2to9 r).2.sans cs = s.sans cs := by
  unfold State.tests2to9
  dsimp only
  repeat' split
  all_goals simp +decide only [State.sans_collect, State.sans_unitTests, Comp.has_sub hcs]

theorem State.sans_pufTest (hcs : Comp.has cs [.life, .tally, .early, .mbox]) (s : State) (l : List Nat) : (s.pufTest l).sans cs = s.sans cs := by
  simp +decide only [State.pufTest, State.sans_raise, State.sans_count, State.sans_mk, or_true, true_or, and_self, State.sans_ite, ite_self,
    Comp.has_sub hcs]

theorem State.sans_allTests (hcs : Comp.has cs [.life, .crypto, .tally, .early, .mbox, .canopy]) (s : State) (r : TestEnv) :
    (s.allTests r).2.sans cs = s.sans cs := by
  unfold State.allTests
  split <;> simp +decide only [State.sans_tests2to9, State.sans_pufTest, Comp.has_sub hcs]

theorem State.sans_coldTests (hcs : Comp.has cs [.rnd, .life, .slots, .crypto, .tally, .early, .mbox, .canopy]) (s : State) (r : TestEnv) :
    (s.coldTests r).2.sans cs = s.sans cs := by
  unfold State.coldTests
  dsimp only
  repeat' split
  all_goals simp +decide only [State.sans_allTests, State.sans_draw, State.sans_deriveStart, State.sans_mk, or_true, true_or, and_self,
    Comp.has_sub hcs]

/-! ## Machine/Jobs -/

theorem State.sans_jobPut (hcs : Comp.has cs [.crypto]) (s : State) (a : Nat) (o : Octets) : (s.jobPut a o).sans cs = s.sans cs := by
  simp +decide only [State.jobPut, State.sans_mk, or_true, true_or, and_self, Comp.has_sub hcs]

theorem State.sans_jobEnds (hcs : Comp.has cs [.crypto]) (s : State) (w : Word) (status : Nat) : (s.jobEnds w status).sans cs = s.sans cs := by
  simp +decide only [State.jobEnds, State.sans_mk, or_true, true_or, and_self, Comp.has_sub hcs]

theorem State.sans_dropStale (hcs : Comp.has cs [.crypto]) (s : State) : s.dropStale.sans cs = s.sans cs := by
  unfold State.dropStale
  refine (State.sans_foldl (fun _ _ => ?_) _ _).trans ?_
  all_goals simp +decide only [State.sans_jobEnds, State.sans_mk, or_true, true_or, and_self, Comp.has_sub hcs]

theorem State.sans_offer (hcs : Comp.has cs [.crypto]) (s : State) (n : Nat) : (s.offer n).sans cs = s.sans cs := by
  induction n generalizing s with
  | zero => rfl
  | succ n ih =>
    unfold State.offer
    dsimp only
    repeat' split
    all_goals simp +decide only [State.sans_mk, or_true, true_or, and_self, Comp.has_sub hcs, ih]

theorem State.sans_offerJobs (hcs : Comp.has cs [.crypto]) (s : State) : s.offerJobs.sans cs = s.sans cs := by
  simp +decide only [State.offerJobs, State.sans_offer, State.sans_dropStale, Comp.has_sub hcs]

theorem State.sans_freshCtx (hcs : Comp.has cs [.rnd, .crypto]) (s : State) (c : Nat) (w : Word) (i : Nat) :
    (s.freshCtx c w i).sans cs = s.sans cs := by
  simp +decide only [State.freshCtx, State.sans_mk, or_true, true_or, and_self, Comp.has_sub hcs]

theorem State.sans_bindCtx (hcs : Comp.has cs [.rnd, .crypto]) (s : State) (w : Word) (i : Nat) : (s.bindCtx w i).sans cs = s.sans cs := by
  unfold State.bindCtx
  split <;> simp +decide only [State.sans_freshCtx, State.sans_ite, ite_self, Comp.has_sub hcs]

theorem State.sans_slotFault (hcs : Comp.has cs [.life, .slots, .crypto, .tally, .early, .mbox, .held, .cells, .orders, .reasm, .queues, .fe,
    .lanes, .dec, .back]) (s : State) (w : Word) (i : Nat) :
    (s.slotFault w i).sans cs = s.sans cs := by
  simp +decide only [State.slotFault, State.sans_jobEnds, State.sans_countBoth, State.sans_eraseSlot, State.sans_secError, State.sans_mk, or_true,
    true_or, and_self, State.sans_ite, ite_self, Comp.has_sub hcs]

theorem State.sans_postJob (hcs : Comp.has cs [.rnd, .life, .slots, .crypto, .tally, .early, .mbox, .held, .cells, .orders, .reasm, .queues, .fe,
    .lanes, .dec, .back]) (s : State) (job : Word) (input : Octets) (parityOk : Bool) :
    (s.postJob job input parityOk).sans cs = s.sans cs := by
  have body : ∀ f, f = @State.postJob → (f s job input parityOk).sans cs = s.sans cs := by
    intro f hf
    delta State.postJob at hf
    subst hf
    beta_reduce
    extract_lets w n t refused
    have put : t.sans cs = s.sans cs := State.sans_jobPut (Comp.has_sub hcs rfl) ..
    clear_value t w
    have hrefused : (refused t).sans cs = s.sans cs := by
      simp +decide only [refused, put, State.sans_jobEnds, State.sans_count, State.sans_countBoth, State.sans_ite, ite_self, Comp.has_sub hcs]
    split
    · exact hrefused
    · split
      · simp +decide only [put, State.sans_slotFault, Comp.has_sub hcs]
      · split
        · exact hrefused
        · split <;> simp +decide only [put, State.sans_jobEnds, State.sans_bindCtx, State.sans_offerJobs, State.sans_mk, or_true, true_or,
          and_self, Comp.has_sub hcs]
  exact body _ rfl

theorem State.sans_jobFault (hcs : Comp.has cs [.life, .slots, .crypto, .tally, .early, .mbox, .held, .cells, .orders, .reasm, .queues, .fe,
    .lanes, .dec, .canopy, .back]) (s : State) (u : Nat) (j : CJob) :
    (s.jobFault u j).sans cs = s.sans cs := by
  simp +decide only [State.jobFault, State.sans_mapOutUnit, State.sans_secError, State.sans_jobEnds, State.sans_offerJobs, State.sans_count,
    State.sans_mk, or_true, true_or, and_self, State.sans_ite, ite_self, Comp.has_sub hcs]

theorem State.sans_endJob (hcs : Comp.has cs [.life, .slots, .crypto, .tally, .early, .mbox, .held, .cells, .orders, .reasm, .queues, .fe, .lanes,
    .dec, .canopy, .back]) (s : State) (u : Nat) (fault : Bool) :
    (s.endJob u fault).sans cs = s.sans cs := by
  unfold State.endJob
  split <;> simp +decide only [State.sans_jobFault, State.sans_offerJobs, State.sans_jobEnds, State.sans_jobPut, State.sans_mk, or_true, true_or,
    and_self, State.sans_ite, ite_self, Comp.has_sub hcs]

/-! ## Machine/Restore -/

theorem State.sans_openMbox (hcs : Comp.has cs [.mbox]) (s : State) (m world : Nat) (addr : BitVec 128) (port : BitVec 16) :
    (s.openMbox m world addr port).sans cs = s.sans cs := by
  simp +decide only [State.openMbox, State.sans_setMb, Comp.has_sub hcs]

theorem State.sans_freshWindow (hcs : Comp.has cs [.heart, .mbox]) (s : State) (m : Nat) : (s.freshWindow m).sans cs = s.sans cs := by
  simp +decide only [State.freshWindow, State.sans_setMb, State.sans_mk, or_true, true_or, and_self, Comp.has_sub hcs]

theorem State.sans_useMboxKey (hcs : Comp.has cs [.slots, .crypto, .storedKeys, .heart, .mbox]) (s : State) (m world : Nat) (key : List Nat) :
    (s.useMboxKey m world key).sans cs = s.sans cs := by
  simp +decide only [State.useMboxKey, State.sans_freshWindow, State.sans_deriveMbox, State.sans_mk, or_true, true_or, and_self, State.sans_ite,
    ite_self, Comp.has_sub hcs]

theorem State.sans_openMboxes (hcs : Comp.has cs [.slots, .crypto, .storedKeys, .heart, .mbox]) (s : State) : s.openMboxes.sans cs = s.sans cs := by
  unfold State.openMboxes
  refine State.sans_foldl (fun _ _ => ?_) _ _
  dsimp only
  repeat' split
  all_goals simp +decide only [State.sans_openMbox, State.sans_useMboxKey, Comp.has_sub hcs]

theorem State.sans_openBare (hcs : Comp.has cs [.slots, .crypto, .storedKeys, .heart, .mbox]) (s : State) : s.openBare.sans cs = s.sans cs := by
  unfold State.openBare
  dsimp only
  repeat' split
  all_goals simp +decide only [State.sans_useMboxKey, State.sans_openMbox, Comp.has_sub hcs]

theorem State.sans_loadImageKeys (hcs : Comp.has cs [.slots, .crypto, .ceilings]) (s : State) : s.loadImageKeys.sans cs = s.sans cs := by
  unfold State.loadImageKeys
  refine State.sans_foldl (fun s r => ?_) _ _
  repeat' split
  all_goals simp +decide only [State.sans_loadWorldKey, Comp.has_sub hcs]

theorem State.sans_loadKeptKeys (hcs : Comp.has cs [.slots, .crypto, .ceilings, .tally]) (s : State) : s.loadKeptKeys.sans cs = s.sans cs := by
  unfold State.loadKeptKeys
  refine State.sans_foldl (fun _ _ => ?_) _ _
  dsimp only
  repeat' split
  all_goals simp +decide only [State.sans_loadWorldKey, State.sans_countBoth, Comp.has_sub hcs]

theorem State.sans_fixFallbacks (hcs : Comp.has cs [.slots]) (s : State) : s.fixFallbacks.sans cs = s.sans cs := by
  unfold State.fixFallbacks
  exact State.sans_foldl (fun _ _ => by simp +decide only [State.sans_fixFallback, State.sans_ite, ite_self, Comp.has_sub hcs]) _ _

theorem State.sans_loadKeys (hcs : Comp.has cs [.slots, .crypto, .ceilings, .storedKeys, .tally]) (s : State) (same : Bool) :
    (s.loadKeys same).sans cs = s.sans cs := by
  simp +decide only [State.loadKeys, State.sans_fixFallbacks, State.sans_loadKeptKeys, State.sans_loadImageKeys, State.sans_mk, or_true, true_or,
    and_self, State.sans_ite, ite_self, Comp.has_sub hcs]

theorem State.sans_replaceAlmanac (hcs : Comp.has cs [.almanac]) (s : State) : s.replaceAlmanac.sans cs = s.sans cs := by
  unfold State.replaceAlmanac
  split <;> simp +decide only [State.sans_mk, or_true, true_or, and_self, Comp.has_sub hcs]

theorem State.sans_restoreDuty (hcs : Comp.has cs [.mac]) (s : State) (same clean : Bool) : (s.restoreDuty same clean).sans cs = s.sans cs := by
  simp +decide only [State.restoreDuty, State.sans_set, Comp.has_sub hcs]

theorem State.sans_adoptSeed (hcs : Comp.has cs [.heart, .tally, .table]) (s : State) (seed : BitVec 64) (c : IdxCopy) :
    (s.adoptSeed seed c).sans cs = s.sans cs := by
  simp +decide only [State.adoptSeed, State.sans_lineWrite, State.sans_mk, or_true, true_or, and_self, Comp.has_sub hcs]

theorem State.sans_drawSeeds (hcs : Comp.has cs [.rnd, .crypto]) (n : Nat) (s : State) : (State.drawSeeds n s).2.sans cs = s.sans cs := by
  induction n generalizing s with
  | zero => rfl
  | succ n ih =>
    simp +decide only [State.drawSeeds, State.sans_draw, Comp.has_sub hcs, ih]

theorem State.sans_reindex (hcs : Comp.has cs [.rnd, .crypto, .heart, .dirty, .tally, .early, .mbox, .nodes, .table]) (s : State) (seed : BitVec
    64) :
    (s.reindex seed).sans cs = s.sans cs := by
  unfold State.reindex
  dsimp only
  repeat' split
  · simp +decide only [State.sans_adoptSeed, Comp.has_sub hcs]
  · simp +decide only [State.sans_adoptSeed, State.sans_drawSeeds, Comp.has_sub hcs]
  · rw [State.sans_raiseTableFull (Comp.has_sub hcs rfl)]
    refine (State.sans_foldl (fun s p => ?_) _ _).trans ?_
    · split <;> simp +decide only [State.sans_count, State.sans_putNode, Comp.has_sub hcs]
    · simp +decide only [State.sans_adoptSeed, State.sans_drawSeeds, Comp.has_sub hcs]

theorem State.sans_restoreNode (hcs : Comp.has cs [.heart, .dirty, .tally, .nodes]) (s : State) (i : Nat) (r : IdRec) :
    (s.restoreNode i r).sans cs = s.sans cs := by
  unfold State.restoreNode
  extract_lets n m lost counted hw reset
  have hcounted : counted.sans cs = s.sans cs := by
    simp +decide only [counted, State.sans_countN, State.sans_ite, ite_self, Comp.has_sub hcs]
  clear_value counted
  have hreset : reset.sans cs = s.sans cs := by
    unfold reset hw
    split
    · split
      · exact hcounted
      · simp +decide only [State.sans_mk, hcounted, or_true, true_or, and_self, Comp.has_sub hcs]
    · exact hcounted
  clear_value reset
  split <;> simp +decide only [State.sans_putNode, State.sans_setNode, hreset, Comp.has_sub hcs]

theorem State.sans_restoreTable (hcs : Comp.has cs [.rnd, .crypto, .heart, .dirty, .tally, .early, .mbox, .nodes, .table]) (s : State) (same :
    Bool) :
    (s.restoreTable same).sans cs = s.sans cs := by
  simp +decide only [State.restoreTable, State.sans_restoreNode (Comp.has_sub hcs rfl), State.sans_reindex (Comp.has_sub hcs rfl), State.sans_mk,
    or_true, true_or, and_self, State.sans_foldl, implies_true, Comp.has_sub hcs]

theorem State.sans_logClamp (hcs : Comp.has cs [.canopy]) (s : State) (world subject old new : Nat) :
    (s.logClamp world subject old new).sans cs = s.sans cs := by
  simp +decide only [State.logClamp, State.sans_canLog, State.sans_ite, ite_self, Comp.has_sub hcs]

theorem State.sans_restoreCentre (hcs : Comp.has cs [.fe, .canopy]) (s : State) (keep : Option CanopyKeep) (f : Fe) :
    (s.restoreCentre keep f).sans cs = s.sans cs := by
  simp +decide only [State.restoreCentre, State.sans_setFe, State.sans_logClamp, State.sans_ite, ite_self, Comp.has_sub hcs]

theorem State.sans_restoreGroups (hcs : Comp.has cs [.canopy]) (s : State) (keep : Option CanopyKeep) :
    (s.restoreGroups keep).sans cs = s.sans cs := by
  unfold State.restoreGroups
  extract_lets fes old kept t
  have logged : t.sans cs = s.sans cs := State.sans_foldl (fun _ _ => State.sans_logClamp hcs ..) _ _
  clear_value t
  split
  · simp +decide only [logged, State.sans_set, Comp.has_sub hcs]
  · refine (State.sans_foldl (fun s f => ?_) _ _).trans ?_
    · simp +decide only [State.sans_set, Comp.has_sub hcs]
    · simp +decide only [logged, State.sans_set, Comp.has_sub hcs]

theorem State.sans_restoreLanes (hcs : Comp.has cs [.lanes, .canopy]) (s : State) (keep : Option CanopyKeep) (same : Bool) :
    (s.restoreLanes keep same).sans cs = s.sans cs := by
  unfold State.restoreLanes
  refine (State.sans_foldl (fun _ _ => ?_) _ _).trans ?_
  all_goals simp +decide only [State.sans_setLane, State.sans_logClamp, State.sans_set, State.sans_ite, ite_self, Comp.has_sub hcs]

theorem State.sans_logGates (hcs : Comp.has cs [.canopy]) (s : State) (keep : Option CanopyKeep) (f : Fe) (p : Octets) :
    (s.logGates keep f p).sans cs = s.sans cs := by
  unfold State.logGates
  dsimp only
  refine State.sans_foldl (fun _ _ => ?_) _ _
  repeat' split
  all_goals simp +decide only [State.sans_logClamp (Comp.has_sub hcs rfl)]

theorem State.sans_restoreGates (hcs : Comp.has cs [.wake, .canopy]) (s : State) (keep : Option CanopyKeep) :
    (s.restoreGates keep).sans cs = s.sans cs := by
  unfold State.restoreGates
  refine State.sans_foldl (fun _ _ => ?_) _ _
  dsimp only
  repeat' split
  all_goals simp +decide only [State.sans_logGates, State.sans_set, Comp.has_sub hcs]

theorem State.sans_clampNode (hcs : Comp.has cs [.dirty, .nodes, .canopy]) (s : State) (i : Nat) (n : Node) :
    (s.clampNode i n).sans cs = s.sans cs := by
  simp +decide only [State.clampNode, State.sans_logClamp, State.sans_touch, State.sans_setNode, State.sans_ite, ite_self, Comp.has_sub hcs]

theorem State.sans_restoreCanopy (hcs : Comp.has cs [.dirty, .fe, .nodes, .canopy]) (s : State) (same : Bool) :
    (s.restoreCanopy same).sans cs = s.sans cs := by
  unfold State.restoreCanopy
  dsimp only
  repeat' split
  all_goals simp +decide only [State.sans_restoreCentre (Comp.has_sub hcs rfl), State.sans_restoreGroups (Comp.has_sub hcs rfl),
    State.sans_clampNode (Comp.has_sub hcs rfl), State.sans_touch (Comp.has_sub hcs rfl), State.sans_set, State.sans_foldl, implies_true,
    Comp.has_sub hcs]

/-! ## Machine/Start -/

theorem State.sans_enterStump (hcs : Comp.has cs [.life, .pins, .heart, .mbox, .back]) (s : State) (target : Nat) :
    (s.enterStump target).sans cs = s.sans cs := by
  simp +decide only [State.enterStump, State.sans_setMb, State.sans_beginPorts, State.sans_setPort, State.sans_mk, or_true, true_or, and_self,
    Comp.has_sub hcs]

theorem State.sans_raiseHeld (hcs : Comp.has cs [.life, .rtc, .heart, .tally, .early, .mbox]) (s : State) : s.raiseHeld.sans cs = s.sans cs := by
  unfold State.raiseHeld
  extract_lets zeroised failed life erred tripped hw told rtc dead rtc₁ stopped rtc₂ trusted
  have raised (t : State) (code : Nat) (d : Octets) : (t.raise code none d).sans cs = t.sans cs := State.sans_raise (Comp.has_sub hcs rfl) ..
  have clocked (t : State) (r : Rtc) : (t.setRtc r).sans cs = t.sans cs := State.sans_setRtc (Comp.has_sub hcs rfl) ..
  have hzeroised : zeroised.sans cs = s.sans cs := by
    unfold zeroised
    split
    · simp +decide only [State.sans_mk, raised, or_true, true_or, and_self, Comp.has_sub hcs]
    · rfl
  have herred : erred.sans cs = s.sans cs := by
    unfold erred life failed
    split
    · exact hzeroised
    · simp +decide only [State.sans_mk, raised, hzeroised, or_true, true_or, and_self, Comp.has_sub hcs]
  have htripped : tripped.sans cs = s.sans cs := by
    refine (State.sans_foldl (fun _ _ => ?_) _ _).trans herred
    split
    · rfl
    · exact raised ..
  have htold : told.sans cs = s.sans cs := by
    simp +decide only [told, hw, State.sans_mk, htripped, or_true, true_or, and_self, Comp.has_sub hcs]
  have hdead : dead.sans cs = s.sans cs := by
    unfold dead rtc
    split <;> simp only [raised, clocked, htold]
  simp only [trusted, rtc₂, stopped, rtc₁, raised, clocked, hdead, State.sans_ite, ite_self]

theorem State.sans_raisePowerLost (hcs : Comp.has cs [.life, .tally, .early, .mbox]) (s : State) (sup : Option Super) :
    (s.raisePowerLost sup).sans cs = s.sans cs := by
  simp +decide only [State.raisePowerLost, State.sans_raise, State.sans_count, State.sans_mk, or_true, true_or, and_self, State.sans_ite, ite_self,
    Comp.has_sub hcs]

theorem State.sans_openHw (hcs : Comp.has cs [.life, .slots, .crypto, .rtc, .marks, .storedKeys, .heart, .tally, .early, .mbox]) (s : State) :
    s.openHw.sans cs = s.sans cs := by
  unfold State.openHw
  dsimp only
  repeat' split
  all_goals simp +decide only [State.sans_homeAll, State.sans_zeroEnd, State.sans_deriveHw, State.sans_deriveCfg, State.sans_count,
    State.sans_raiseHeld, State.sans_raisePowerLost, State.sans_writeSuper, State.sans_mk, or_true, true_or, and_self, Comp.has_sub hcs]

theorem State.sans_cfgRejected (hcs : Comp.has cs [.tally, .early, .mbox]) (s : State) (slot : Nat) (f : ImgFail) :
    (s.cfgRejected slot f).sans cs = s.sans cs := by
  simp +decide only [State.cfgRejected, State.sans_raise, State.sans_count, Comp.has_sub hcs]

theorem State.sans_tryCfg (hcs : Comp.has cs [.tally, .early, .mbox]) (s : State) (first : Nat) : (s.tryCfg first).2.sans cs = s.sans cs := by
  unfold State.tryCfg
  dsimp only
  repeat' split
  all_goals simp +decide only [State.sans_cfgRejected, State.sans_count, Comp.has_sub hcs]

theorem State.sans_consumeFw (hcs : Comp.has cs [.flash, .tally, .early, .mbox]) (s : State) : s.consumeFw.sans cs = s.sans cs := by
  unfold State.consumeFw
  split <;> simp +decide only [State.sans_raise, State.sans_count, State.sans_writeDir, State.sans_ite, ite_self, Comp.has_sub hcs]

theorem State.sans_consumeCfg (hcs : Comp.has cs [.flash, .tally, .early, .mbox]) (s : State) : s.consumeCfg.sans cs = s.sans cs := by
  unfold State.consumeCfg
  split <;> simp +decide only [State.sans_raise, State.sans_count, State.sans_writeDir, State.sans_ite, ite_self, Comp.has_sub hcs]

theorem State.sans_countSkipped (hcs : Comp.has cs [.tally]) (s : State) (i : Image) : (s.countSkipped i).sans cs = s.sans cs := by
  simp +decide only [State.countSkipped, State.sans_countN, State.sans_ite, ite_self, Comp.has_sub hcs]

theorem State.sans_takeImage (hcs : Comp.has cs [.life, .heart, .tally]) (s : State) (slot : Nat) (i : Image) (trial : Bool) :
    (s.takeImage slot i trial).sans cs = s.sans cs := by
  simp +decide only [State.takeImage, State.sans_lineWrite, State.sans_countSkipped, State.sans_mk, or_true, true_or, and_self, Comp.has_sub hcs]

theorem State.sans_takeLocal (hcs : Comp.has cs [.rtc]) (s : State) (same : Bool) : (s.takeLocal same).sans cs = s.sans cs := by
  simp +decide only [State.takeLocal, State.sans_setRtc, State.sans_ite, ite_self, Comp.has_sub hcs]

theorem State.sans_applyRecords (hcs : Comp.has cs [.slots, .crypto, .rtc, .ceilings, .storedKeys, .almanac, .heart, .tally, .early, .mbox]) (s :
    State) (same : Bool) :
    (s.applyRecords same).sans cs = s.sans cs := by
  simp +decide only [State.applyRecords, State.sans_takeLocal, State.sans_loadKeys, State.sans_replaceAlmanac, State.sans_releaseEarly,
    State.sans_openMboxes, State.sans_ite, ite_self, Comp.has_sub hcs]

theorem State.sans_bringUp (hcs : Comp.has cs [.pins, .heart, .back]) (s : State) : s.bringUp.sans cs = s.sans cs := by
  simp +decide only [State.bringUp, State.sans_beginPorts, State.sans_set, Comp.has_sub hcs]

theorem State.sans_bare (hcs : Comp.has cs [.life, .pins, .slots, .crypto, .time, .rtc, .storedKeys, .heart, .tally, .early, .mbox, .back]) (s :
    State) :
    s.bare.sans cs = s.sans cs := by
  simp +decide only [State.bare, State.sans_seedTime, State.sans_bringUp, State.sans_releaseEarly, State.sans_openBare, State.sans_mk, or_true,
    true_or, and_self, Comp.has_sub hcs]

theorem State.sans_feUp (hcs : Comp.has cs [.tally, .early, .mbox, .cells, .orders, .queues, .fe, .lanes, .dec, .mac, .nodes, .wake, .canopy]) (s :
    State) (e : StartEnv) (f : Fe) :
    (s.feUp e f).sans cs = s.sans cs := by
  simp +decide only [State.feUp, State.sans_feFault, State.sans_setFe, State.sans_ite, ite_self, Comp.has_sub hcs]

theorem State.sans_lanesUp (hcs : Comp.has cs [.tally, .early, .mbox, .cells, .queues, .fe, .lanes, .domA, .domB, .dec, .canopy]) (s : State) (kat
    : List Bool) :
    (s.lanesUp kat).sans cs = s.sans cs := by
  unfold State.lanesUp
  refine (State.sans_foldl (fun _ _ => ?_) _ _).trans ?_
  all_goals simp +decide only [State.sans_faultLane, State.sans_mk, or_true, true_or, and_self, State.sans_ite, ite_self, Comp.has_sub hcs]

theorem State.sans_raiseTraining (hcs : Comp.has cs [.rnd, .tally, .early, .mbox]) (s : State) : s.raiseTraining.sans cs = s.sans cs := by
  simp +decide only [State.raiseTraining, State.sans_raise, State.sans_set, Comp.has_sub hcs]

theorem State.sans_upRadio (hcs : Comp.has cs (Comp.but [.lcs, .flash, .marks, .ceilings, .almanac, .held, .m0Out, .reasm, .parting, .isl])) (s :
    State) (e : StartEnv) (same clean : Bool) (keep : Option CanopyKeep) :
    (s.upRadio e same clean keep).sans cs = s.sans cs := by
  simp +decide only [State.upRadio, State.sans_raiseTraining (Comp.has_sub hcs rfl), State.sans_bare (Comp.has_sub hcs rfl), State.sans_restoreDuty
    (Comp.has_sub hcs rfl), State.sans_restoreTable (Comp.has_sub hcs rfl), State.sans_restoreCanopy (Comp.has_sub hcs rfl), State.sans_seedTime
    (Comp.has_sub hcs rfl), State.sans_feUp (Comp.has_sub hcs rfl), State.sans_lanesUp (Comp.has_sub hcs rfl), State.sans_restoreGates
    (Comp.has_sub hcs rfl), State.sans_restoreLanes (Comp.has_sub hcs rfl), State.sans_mk, or_true, true_or, and_self, State.sans_ite, ite_self,
    State.sans_foldl, implies_true, Comp.has_sub hcs]

theorem State.sans_startOperate (hcs : Comp.has cs (Comp.but [.lcs, .held, .m0Out, .reasm, .parting, .isl])) (s : State) (e : StartEnv) (clean :
    Bool) :
    (s.startOperate e clean).sans cs = s.sans cs := by
  unfold State.startOperate
  dsimp only
  repeat' split
  all_goals simp +decide only [State.sans_tryCfg, State.sans_writeDir, State.sans_bare, State.sans_consumeFw, State.sans_applyRecords,
    State.sans_takeImage, State.sans_raiseFloor, State.sans_upRadio, State.sans_bringUp, State.sans_consumeCfg, State.sans_mk, or_true, true_or,
    and_self, Comp.has_sub hcs]

theorem State.sans_startRun (hcs : Comp.has cs (Comp.but [.lcs, .held, .m0Out, .reasm, .parting, .isl])) (s : State) (e : StartEnv) (slot : Nat)
    (fallback dirBad : Bool) :
    (s.startRun e slot fallback dirBad).sans cs = s.sans cs := by
  unfold State.startRun
  dsimp only
  repeat' split
  all_goals simp +decide only [State.sans_runFw, State.sans_openHw, State.sans_count, State.sans_raiseRollback, State.sans_startOperate,
    State.sans_cfgRejected, State.sans_consumeFw, State.sans_releaseEarly, State.sans_openMbox, State.sans_mk, or_true, true_or, and_self,
    Comp.has_sub hcs]

theorem State.sans_startFlash (hcs : Comp.has cs (Comp.but [.lcs, .held, .m0Out, .reasm, .parting, .isl])) (s : State) (e : StartEnv) :
    (s.startFlash e).sans cs = s.sans cs := by
  simp +decide only [State.startFlash, State.sans_startRun, State.sans_enterStump, State.sans_ite, ite_self, Comp.has_sub hcs]

theorem State.sans_startCold (hcs : Comp.has cs (Comp.but [.lcs, .m0Out, .parting, .isl])) (s : State) (e : StartEnv) :
    (s.startCold e).sans cs = s.sans cs := by
  simp +decide only [State.startCold, State.sans_coldTests, State.sans_secError, State.sans_enterStump, State.sans_startFlash, State.sans_set,
    State.sans_ite, ite_self, Comp.has_sub hcs]

theorem State.sans_startPins (hcs : Comp.has cs (Comp.but [.lcs, .parting])) (s : State) (e : StartEnv) : (s.startPins e).sans cs = s.sans cs := by
  simp +decide only [State.startPins, State.sans_zeroise, State.sans_setMb, State.sans_startCold, State.sans_mk, or_true, true_or, and_self,
    State.sans_ite, ite_self, Comp.has_sub hcs]

theorem State.sans_start (hcs : Comp.has cs (Comp.but [.lcs, .parting])) (s : State) (e : StartEnv) : (s.start e).sans cs = s.sans cs := by
  simp +decide only [State.start, State.sans_holdIn, State.sans_powerClear, State.sans_setRtc, State.sans_startPins, State.sans_mk, or_true,
    true_or, and_self, State.sans_ite, ite_self, Comp.has_sub hcs]

theorem State.sans_resetFall (hcs : Comp.has cs (Comp.but [.rnd, .lcs, .flash, .rtc, .marks, .ceilings, .storedKeys, .almanac, .heart, .parting]))
    (s : State) :
    s.resetFall.sans cs = s.sans cs := by
  unfold State.resetFall
  dsimp only
  repeat' split
  all_goals simp +decide only [State.sans_holdIn, State.sans_set, Comp.has_sub hcs]

theorem State.sans_feOn (hcs : Comp.has cs [.tally, .fe]) (s : State) (f : Fe) : (s.feOn f).sans cs = s.sans cs := by
  simp +decide only [State.feOn, State.sans_countN, State.sans_setFe, State.sans_ite, ite_self, Comp.has_sub hcs]

theorem State.sans_goRadio (hcs : Comp.has cs [.life, .tally, .fe, .table, .wake, .canopy]) (s : State) : s.goRadio.sans cs = s.sans cs := by
  simp +decide only [State.goRadio, State.sans_feOn (Comp.has_sub hcs rfl), State.sans_resetTrickle (Comp.has_sub hcs rfl), State.sans_setDodag
    (Comp.has_sub hcs rfl), State.sans_mk, or_true, true_or, and_self, State.sans_ite, ite_self, State.sans_foldl, implies_true, Comp.has_sub hcs]

/-! ## Machine/Memory -/

theorem State.sans_reload (hcs : Comp.has cs [.slots, .crypto, .dirty, .tally, .nodes, .table, .canopy]) (s : State) (i : Nat) :
    (s.reload i).sans cs = s.sans cs := by
  unfold State.reload
  repeat' split
  all_goals simp +decide only [State.sans_count, State.sans_clearNode, State.sans_setNode, State.sans_ite, ite_self, Comp.has_sub hcs]

theorem State.sans_reclaim (hcs : Comp.has cs [.tally, .early, .mbox, .cells, .queues]) (s : State) (a n : Nat) (chain : List Nat) :
    (s.reclaim a n chain).sans cs = s.sans cs := by
  simp +decide only [State.reclaim, State.sans_countN, State.sans_releaseChain, State.sans_ite, ite_self, Comp.has_sub hcs]

theorem State.sans_dramLost (hcs : Comp.has cs (Comp.but [.lcs, .pins, .flash, .time, .rtc, .marks, .ceilings, .almanac, .m0Out, .parting, .isl]))
    (s : State) :
    s.dramLost.sans cs = s.sans cs := by
  simp +decide only [State.dramLost, State.sans_closeBuffer (Comp.has_sub hcs rfl), State.sans_feOff (Comp.has_sub hcs rfl), State.sans_macOff
    (Comp.has_sub hcs rfl), State.sans_eraseSlots (Comp.has_sub hcs rfl), State.sans_raiseTraining (Comp.has_sub hcs rfl), State.sans_releaseEarly
    (Comp.has_sub hcs rfl), State.sans_openBare (Comp.has_sub hcs rfl), State.sans_mk, or_true, true_or, and_self, State.sans_ite, ite_self,
    State.sans_foldl, implies_true, Comp.has_sub hcs]

/-! ## Machine/Ports -/

theorem State.sans_cellRequest (hcs : Comp.has cs [.tally, .early, .mbox, .cells, .queues, .back]) (s : State) (p : Port) (h : EthHdr) :
    (s.cellRequest p h).sans cs = s.sans cs := by
  simp +decide only [State.cellRequest, State.sans_count, State.sans_rewindPort, State.sans_portCells, State.sans_ite, ite_self, Comp.has_sub hcs]

theorem State.sans_commitEth (hcs : Comp.has cs [.tally, .early, .mbox, .cells, .orders, .queues, .back]) (s : State) (p : Port) (f : EthFrame)
    (trailer : Bool) (arrival : Nat) :
    (s.commitEth p f trailer arrival).sans cs = s.sans cs := by
  simp +decide only [State.commitEth, State.sans_releaseChain, State.sans_setPort, State.sans_spill, State.sans_setOrder, State.sans_leaveStaging,
    Comp.has_sub hcs]

theorem State.sans_judgeEth (hcs : Comp.has cs [.time, .dirty, .tally, .early, .mbox, .cells, .orders, .queues, .back]) (s : State) (p : Port) (f :
    EthFrame) :
    (s.judgeEth p f).sans cs = s.sans cs := by
  unfold State.judgeEth
  repeat' split
  all_goals simp +decide only [State.sans_rewindPort, State.sans_takePause, State.sans_count, State.sans_takePtp, State.sans_commitEth,
    State.sans_prpJudge, State.sans_heardSource, State.sans_ite, ite_self, Comp.has_sub hcs]

theorem State.sans_ethEnd (hcs : Comp.has cs [.time, .dirty, .tally, .early, .mbox, .cells, .orders, .queues, .back]) (s : State) (p : Port) (f :
    EthFrame) :
    (s.ethEnd p f).sans cs = s.sans cs := by
  simp +decide only [State.ethEnd, State.sans_setPort, State.sans_count, State.sans_rewindPort, State.sans_portCells, State.sans_judgeEth,
    State.sans_ite, ite_self, Comp.has_sub hcs]

theorem State.sans_oversize (hcs : Comp.has cs [.tally, .early, .mbox, .cells, .queues, .back]) (s : State) (p : Port) :
    (s.oversize p).sans cs = s.sans cs := by
  simp +decide only [State.oversize, State.sans_count, State.sans_rewindPort, State.sans_ite, ite_self, Comp.has_sub hcs]

theorem State.sans_pauseEnds (hcs : Comp.has cs [.tally, .early, .mbox, .cells, .queues, .back]) (s : State) (p : Port) :
    (s.pauseEnds p).sans cs = s.sans cs := by
  unfold State.pauseEnds
  split <;> simp +decide only [State.sans_runPorts, State.sans_setPort, State.sans_ite, ite_self, Comp.has_sub hcs]

theorem State.sans_pauseBreak (hcs : Comp.has cs [.tally, .early, .mbox, .back]) (s : State) (p : Port) : (s.pauseBreak p).sans cs = s.sans cs := by
  simp +decide only [State.pauseBreak, State.sans_raise, State.sans_count, State.sans_setPort, State.sans_ite, ite_self, Comp.has_sub hcs]

theorem State.sans_supervision (hcs : Comp.has cs [.tally, .early, .mbox, .cells, .queues, .back]) (s : State) :
    s.supervision.sans cs = s.sans cs := by
  simp +decide only [State.supervision, State.sans_sendFrame, State.sans_set, State.sans_ite, ite_self, Comp.has_sub hcs]

theorem State.sans_linkUp (hcs : Comp.has cs [.tally, .early, .mbox, .back]) (s : State) (p : Port) (bad : Bool) :
    (s.linkUp p bad).sans cs = s.sans cs := by
  unfold State.linkUp
  dsimp only
  repeat' split
  all_goals simp +decide only [State.sans_count, State.sans_raise, State.sans_setPort, Comp.has_sub hcs]

theorem State.sans_portLost (hcs : Comp.has cs [.tally, .early, .mbox, .cells, .queues, .back]) (s : State) (p : Port) :
    (s.portLost p).sans cs = s.sans cs := by
  simp +decide only [State.portLost, State.sans_rewindPort, State.sans_closeSends, State.sans_setPort, Comp.has_sub hcs]

theorem State.sans_linkDown (hcs : Comp.has cs [.tally, .early, .mbox, .cells, .queues, .back]) (s : State) (p : Port) :
    (s.linkDown p).sans cs = s.sans cs := by
  simp +decide only [State.linkDown, State.sans_enterPathFault, State.sans_raise, State.sans_portLost, State.sans_ite, ite_self, Comp.has_sub hcs]

theorem State.sans_speedOutcome (hcs : Comp.has cs [.mbox]) (s : State) (p : Port) (status : Nat) :
    (s.speedOutcome p status).sans cs = s.sans cs := by
  unfold State.speedOutcome
  refine State.sans_foldl (fun _ _ => ?_) _ _
  dsimp only
  repeat' split
  all_goals simp +decide only [State.sans_setMb, Comp.has_sub hcs]

theorem State.sans_speedDone (hcs : Comp.has cs [.tally, .early, .mbox, .back]) (s : State) (p : Port) : (s.speedDone p).sans cs = s.sans cs := by
  unfold State.speedDone
  dsimp only
  repeat' split
  all_goals simp +decide only [State.sans_setPort, State.sans_raise, State.sans_count, State.sans_speedOutcome, Comp.has_sub hcs]

theorem State.sans_speedTimeout (hcs : Comp.has cs [.tally, .early, .mbox, .back]) (s : State) (p : Port) :
    (s.speedTimeout p).sans cs = s.sans cs := by
  unfold State.speedTimeout
  dsimp only
  repeat' split
  all_goals simp +decide only [State.sans_setPort, State.sans_raise, State.sans_speedOutcome, Comp.has_sub hcs]

theorem State.sans_enterLpi (hcs : Comp.has cs [.back]) (s : State) (p : Port) : (s.enterLpi p).sans cs = s.sans cs := by
  simp +decide only [State.enterLpi, State.sans_setPort, State.sans_ite, ite_self, Comp.has_sub hcs]

theorem State.sans_backhaulSpeed (hcs : Comp.has cs [.ceilings, .mbox, .cells, .orders, .queues, .back]) (s : State) (m : Nat) (r : Request) :
    (s.backhaulSpeed m r).sans cs = s.sans cs := by
  simp +decide only [State.backhaulSpeed, State.sans_respond, State.sans_begin, State.sans_beginChange, State.sans_ite, ite_self, Comp.has_sub hcs]

/-! ## Machine/Power -/

theorem State.sans_haltLanes (hcs : Comp.has cs [.tally, .early, .mbox, .cells, .queues, .fe, .lanes, .dec]) (s : State) :
    s.haltLanes.sans cs = s.sans cs := by
  unfold State.haltLanes
  exact State.sans_foldl (fun _ _ => by simp +decide only [State.sans_blankFe, Comp.has_sub hcs]) _ _

theorem State.sans_writeTally (hcs : Comp.has cs [.heart, .tally]) (s : State) : s.writeTally.sans cs = s.sans cs := by
  simp +decide only [State.writeTally, State.sans_lineWrite, State.sans_mk, or_true, true_or, and_self, Comp.has_sub hcs]

theorem State.sans_powerSequence (hcs : Comp.has cs [.heart, .dirty, .tally, .early, .mbox, .cells, .queues, .fe, .lanes, .dec]) (s : State) :
    s.powerSequence.sans cs = s.sans cs := by
  simp +decide only [State.powerSequence, State.sans_haltLanes, State.sans_writeSuper, State.sans_writeTally, State.sans_closeBuffer,
    State.sans_ite, ite_self, Comp.has_sub hcs]

theorem State.sans_powerFail (hcs : Comp.has cs (Comp.but [.rnd, .lcs, .flash, .rtc, .marks, .ceilings, .storedKeys, .almanac, .parting])) (s :
    State) (cause : FailCause) (holdUp supplyLost : Bool) :
    (s.powerFail cause holdUp supplyLost).sans cs = s.sans cs := by
  unfold State.powerFail
  dsimp only
  repeat' split
  all_goals simp +decide only [State.sans_holdIn, State.sans_powerSequence, State.sans_set, Comp.has_sub hcs]

theorem State.sans_pfiHigh (hcs : Comp.has cs (Comp.but [.lcs, .parting])) (s : State) (e : StartEnv) : (s.pfiHigh e).sans cs = s.sans cs := by
  unfold State.pfiHigh
  dsimp only
  repeat' split
  all_goals simp +decide only [State.sans_start, State.sans_set, Comp.has_sub hcs]

theorem State.sans_aonReset (hcs : Comp.has cs (Comp.but [.rnd, .lcs, .flash, .marks, .ceilings, .storedKeys, .almanac, .heart, .parting])) (s :
    State) :
    s.aonReset.sans cs = s.sans cs := by
  simp +decide only [State.aonReset, State.sans_holdIn, State.sans_mk, or_true, true_or, and_self, Comp.has_sub hcs]

/-! ## Machine/RfTest -/

theorem State.sans_clearAttempt (hcs : Comp.has cs [.tally, .early, .mbox, .cells, .orders, .queues, .fe, .mac, .nodes, .wake]) (s : State) (f :
    Fe) :
    (s.clearAttempt f).sans cs = s.sans cs := by
  unfold State.clearAttempt
  dsimp only
  repeat' split
  all_goals simp +decide only [State.sans_giveBack, State.sans_withdraw, State.sans_setFe, State.sans_putBack, State.sans_skipBeacon, Comp.has_sub
    hcs]

theorem State.sans_rfTestStart (hcs : Comp.has cs [.ceilings, .tally, .early, .mbox, .cells, .orders, .queues, .fe, .mac, .nodes, .wake, .back]) (s
    : State) (m : Nat) (r : Request) :
    (s.rfTestStart m r).sans cs = s.sans cs := by
  unfold State.rfTestStart
  dsimp only
  repeat' split
  all_goals simp +decide only [State.sans_respond, State.sans_clearAttempt, State.sans_setFe, Comp.has_sub hcs]

theorem State.sans_leaveTest (hcs : Comp.has cs [.tally, .early, .mbox, .cells, .orders, .queues, .fe, .mac, .nodes, .wake]) (s : State) (f : Fe) :
    (s.leaveTest f).sans cs = s.sans cs := by
  simp +decide only [State.leaveTest, State.sans_clearAttempt, State.sans_setFe, Comp.has_sub hcs]

theorem State.sans_rfTestStop (hcs : Comp.has cs [.ceilings, .tally, .early, .mbox, .cells, .orders, .queues, .fe, .mac, .nodes, .wake, .back]) (s
    : State) (m : Nat) (r : Request) :
    (s.rfTestStop m r).sans cs = s.sans cs := by
  unfold State.rfTestStop
  repeat' split
  all_goals simp +decide only [State.sans_respond, State.sans_leaveTest, Comp.has_sub hcs]

theorem State.sans_testEnd (hcs : Comp.has cs [.tally, .early, .mbox, .cells, .orders, .queues, .fe, .mac, .nodes, .wake]) (s : State) (f : Fe) :
    (s.testEnd f).sans cs = s.sans cs := by
  unfold State.testEnd
  split <;> simp +decide only [State.sans_leaveTest, State.sans_ite, ite_self, Comp.has_sub hcs]

/-! ## Machine/Faults -/

theorem State.sans_takeDecoder (hcs : Comp.has cs [.dec]) (s : State) (c : Nat) : (s.takeDecoder c).sans cs = s.sans cs := by
  simp +decide only [State.takeDecoder, State.sans_feed, State.sans_set, Comp.has_sub hcs]

theorem State.sans_dropHelec (hcs : Comp.has cs [.tally, .early, .mbox, .cells, .queues, .lanes, .dec]) (s : State) :
    s.dropHelec.sans cs = s.sans cs := by
  unfold State.dropHelec
  split
  · rfl
  · refine State.sans_foldl (fun s l => ?_) _ _
    dsimp only
    split <;> simp +decide only [State.sans_count (Comp.has_sub hcs rfl), State.sans_releaseChain (Comp.has_sub hcs rfl), State.sans_setLane
      (Comp.has_sub hcs rfl), State.sans_rewindLane (Comp.has_sub hcs rfl), State.sans_ite, ite_self, State.sans_foldl, implies_true]

theorem State.sans_decoderFault (hcs : Comp.has cs [.tally, .early, .mbox, .cells, .queues, .lanes, .dec, .canopy]) (s : State) (c cause : Nat) :
    (s.decoderFault c cause).sans cs = s.sans cs := by
  simp +decide only [State.decoderFault, State.sans_dropHelec, State.sans_takeDecoder, State.sans_unitLost, State.sans_owe, State.sans_canLog,
    Comp.has_sub hcs]

theorem State.sans_cipherFault (hcs : Comp.has cs [.life, .slots, .crypto, .tally, .early, .mbox, .held, .cells, .orders, .reasm, .queues, .fe,
    .lanes, .dec, .canopy, .back]) (s : State) (u : Nat) :
    (s.cipherFault u).sans cs = s.sans cs := by
  unfold State.cipherFault
  split <;> simp +decide only [State.sans_jobFault, State.sans_mapOutUnit, State.sans_secError, State.sans_ite, ite_self, Comp.has_sub hcs]

theorem State.sans_mcoreFault (hcs : Comp.has cs (Comp.but [.rnd, .lcs, .flash, .rtc, .marks, .ceilings, .storedKeys, .almanac, .heart, .parting]))
    (s : State) (i cause : Nat) :
    (s.mcoreFault i cause).sans cs = s.sans cs := by
  simp +decide only [State.mcoreFault, State.sans_restartBy, State.sans_unitLost, State.sans_set, State.sans_ite, ite_self, Comp.has_sub hcs]

theorem State.sans_serdesFault (hcs : Comp.has cs [.tally, .early, .mbox, .cells, .queues, .back]) (s : State) (p : Port) (cause : Nat) :
    (s.serdesFault p cause).sans cs = s.sans cs := by
  simp +decide only [State.serdesFault, State.sans_portLost, State.sans_unitLost, State.sans_setPort, Comp.has_sub hcs]

theorem State.sans_emptyQueue (hcs : Comp.has cs [.orders, .queues]) (s : State) (q : Nat) : (s.emptyQueue q).sans cs = s.sans cs := by
  unfold State.emptyQueue
  refine (State.sans_foldl (fun _ _ => ?_) _ _).trans ?_
  all_goals simp +decide only [State.sans_setOrder, State.sans_mk, or_true, true_or, and_self, Comp.has_sub hcs]

theorem State.sans_lanesFault (hcs : Comp.has cs [.tally, .early, .mbox, .cells, .queues, .fe, .lanes, .dec, .canopy]) (s : State) (l : List Nat) :
    (s.lanesFault l).sans cs = s.sans cs := by
  unfold State.lanesFault
  exact State.sans_foldl (fun _ _ => by simp +decide only [State.sans_faultLane, State.sans_ite, ite_self, Comp.has_sub hcs]) _ _

theorem State.sans_islandUnits (hcs : Comp.has cs (Comp.but [.lcs, .flash, .rtc, .marks, .ceilings, .almanac, .parting])) (s : State) (i : Island)
    (cause : Nat) :
    (s.islandUnits i cause).sans cs = s.sans cs := by
  unfold State.islandUnits
  split <;> simp +decide only [State.sans_cipherFault (Comp.has_sub hcs rfl), State.sans_restartBy (Comp.has_sub hcs rfl), State.sans_decoderFault
    (Comp.has_sub hcs rfl), State.sans_lanesFault (Comp.has_sub hcs rfl), State.sans_feFault (Comp.has_sub hcs rfl), State.sans_serdesFault
    (Comp.has_sub hcs rfl), State.sans_dramLost (Comp.has_sub hcs rfl), State.sans_set, State.sans_ite, ite_self, State.sans_foldl, implies_true,
    Comp.has_sub hcs]

theorem State.sans_islandFault (hcs : Comp.has cs (Comp.but [.lcs, .flash, .rtc, .marks, .ceilings, .almanac, .parting])) (s : State) (i : Island)
    (cause : Nat) :
    (s.islandFault i cause).sans cs = s.sans cs := by
  simp +decide only [State.islandFault, State.sans_islandUnits, State.sans_set, State.sans_ite, ite_self, Comp.has_sub hcs]

theorem State.sans_copyFault (hcs : Comp.has cs (Comp.but [.lcs, .flash, .rtc, .marks, .ceilings, .almanac, .parting])) (s : State) (i : Island) :
    (s.copyFault i).sans cs = s.sans cs := by
  simp +decide only [State.copyFault, State.sans_unitLost, State.sans_islandFault, State.sans_set, State.sans_ite, ite_self, Comp.has_sub hcs]

theorem State.sans_breach (hcs : Comp.has cs [.tally, .early, .mbox]) (s : State) (row who : Nat) : (s.breach row who).sans cs = s.sans cs := by
  simp +decide only [State.breach, State.sans_raise, Comp.has_sub hcs]

theorem State.sans_markBlock (hcs : Comp.has cs [.queues]) (s : State) (cell : Nat) : (s.markBlock cell).sans cs = s.sans cs := by
  simp +decide only [State.markBlock, State.sans_mk, or_true, true_or, and_self, State.sans_ite, ite_self, Comp.has_sub hcs]

theorem State.sans_wordCorrected (hcs : Comp.has cs [.tally, .queues]) (s : State) (staging : Bool) (cell : Nat) :
    (s.wordCorrected staging cell).sans cs = s.sans cs := by
  simp +decide only [State.wordCorrected, State.sans_count, State.sans_markBlock, State.sans_mk, or_true, true_or, and_self, State.sans_ite,
    ite_self, Comp.has_sub hcs]

theorem State.sans_dropPacket (hcs : Comp.has cs [.tally, .early, .mbox, .cells, .orders, .queues, .fe, .nodes, .wake]) (s : State) (p : Packet) :
    (s.dropPacket p).sans cs = s.sans cs := by
  unfold State.dropPacket
  split <;> simp +decide only [State.sans_releaseChain, State.sans_abandonRest, Comp.has_sub hcs]

theorem State.sans_dropTaken (hcs : Comp.has cs [.tally, .early, .mbox, .cells, .orders, .queues, .fe, .nodes, .wake]) (s : State) (f : Fe) (r :
    Retry) :
    (s.dropTaken f r).sans cs = s.sans cs := by
  simp +decide only [State.dropTaken, State.sans_bulkSentBy, State.sans_abandonRest, State.sans_releaseChain, State.sans_ite, ite_self,
    Comp.has_sub hcs]

theorem State.sans_readAt (hcs : Comp.has cs [.tally, .early, .mbox, .cells, .orders, .queues, .fe, .lanes, .dec, .nodes, .wake, .back]) {s :
    State} {place : ReadAt} {r : Read} (h : s.readAt place = some r) :
    r.after.sans cs = s.sans cs := by
  unfold State.readAt at h
  split at h
  · rename_i q f
    split at h
    · rename_i p t ht
      cases h
      have taken : (s.take (orderKey q (feCode f))).2.sans cs = s.sans cs := State.sans_take (Comp.has_sub hcs rfl) ..
      rw [ht] at taken
      exact (State.sans_dropPacket (Comp.has_sub hcs rfl) _ _).trans taken
    · cases h
  · obtain ⟨q, -, rfl⟩ := Option.map_eq_some_iff.1 h
    simp +decide only [State.sans_dropTaken, State.sans_setFe, Comp.has_sub hcs]
  · repeat' split at h
    all_goals cases h
    simp +decide only [State.sans_dropPacket, State.sans_setFlow, Comp.has_sub hcs]
  · split at h
    · cases h
      simp +decide only [State.sans_rewindLane, Comp.has_sub hcs]
    · cases h
  · dsimp only at h
    split at h
    · cases h
    · cases h
      simp +decide only [State.sans_rewindPort, Comp.has_sub hcs]

theorem State.sans_wordLost (hcs : Comp.has cs [.tally, .early, .mbox, .cells, .orders, .queues, .fe, .lanes, .dec, .nodes, .wake, .back]) (s :
    State) (place : ReadAt) (staging late : Bool) (pos : Nat) :
    (s.wordLost place staging late pos).sans cs = s.sans cs := by
  unfold State.wordLost
  split
  · rfl
  · rename_i r hr
    dsimp only
    repeat' split
    all_goals simp +decide only [State.sans_readAt (Comp.has_sub hcs rfl) hr, State.sans_raise, State.sans_count, State.sans_markBlock,
      State.sans_breach, Comp.has_sub hcs]

theorem State.sans_unitFault (hcs : Comp.has cs (Comp.but [.lcs, .flash, .rtc, .marks, .ceilings, .almanac, .parting])) (s : State) (u : FaultUnit)
    :
    (s.unitFault u).sans cs = s.sans cs := by
  unfold State.unitFault
  repeat' split
  all_goals simp +decide only [State.sans_decoderFault, State.sans_cipherFault, State.sans_mcoreFault, State.sans_feFault, State.sans_unitLost,
    State.sans_emptyQueue, State.sans_copyFault, State.sans_serdesFault, State.sans_wordCorrected, State.sans_wordLost, State.sans_cellFreed,
    State.sans_retirePage, State.sans_set, Comp.has_sub hcs]

theorem State.sans_abandonTag (hcs : Comp.has cs [.tally, .early, .mbox, .cells, .orders, .queues, .fe, .lanes, .dec, .mac, .nodes, .wake, .canopy,
    .back]) (s : State) (h : TagHolder) :
    (s.abandonTag h).sans cs = s.sans cs := by
  unfold State.abandonTag
  repeat' split
  all_goals simp +decide only [State.sans_rewindLane, State.sans_ackMissing, State.sans_clearAttempt, State.sans_rewindPort, State.sans_closeSends,
    State.sans_set, Comp.has_sub hcs]

theorem State.sans_holderFault (hcs : Comp.has cs (Comp.but [.rnd, .lcs, .flash, .rtc, .marks, .ceilings, .storedKeys, .almanac, .heart,
    .parting])) (s : State) (h : TagHolder) :
    (s.holderFault h).sans cs = s.sans cs := by
  unfold State.holderFault
  split <;> simp +decide only [State.sans_faultLane, State.sans_feFault, State.sans_mcoreFault, State.sans_serdesFault, State.sans_ite, ite_self,
    Comp.has_sub hcs]

theorem State.sans_reclaimTag (hcs : Comp.has cs (Comp.but [.rnd, .lcs, .flash, .rtc, .marks, .ceilings, .storedKeys, .almanac, .heart, .parting]))
    (s : State) (h : TagHolder) :
    (s.reclaimTag h).sans cs = s.sans cs := by
  simp +decide only [State.reclaimTag, State.sans_breach, State.sans_count, State.sans_abandonTag, State.sans_holderFault, State.sans_set,
    State.sans_ite, ite_self, Comp.has_sub hcs]

theorem State.sans_tellStep (hcs : Comp.has cs [.tally, .early, .mbox]) (s : State) (k dir : Nat) : (s.tellStep k dir).sans cs = s.sans cs := by
  simp +decide only [State.tellStep, State.sans_raise, State.sans_count, Comp.has_sub hcs]

theorem State.sans_enterStep1 (hcs : Comp.has cs [.tally, .early, .mbox, .cells, .queues, .lanes, .domA, .domB, .dec]) (s : State) :
    s.enterStep1.sans cs = s.sans cs := by
  simp +decide only [State.enterStep1, State.sans_setDom, State.sans_stopDom, State.sans_ite, ite_self, Comp.has_sub hcs]

theorem State.sans_leaveStep1 (hcs : Comp.has cs [.tally, .early, .mbox, .cells, .queues, .fe, .lanes, .domA, .domB, .dec, .canopy]) (s : State) :
    s.leaveStep1.sans cs = s.sans cs := by
  simp +decide only [State.leaveStep1, State.sans_domDown, State.sans_setDom, State.sans_ite, ite_self, Comp.has_sub hcs]

theorem State.sans_gateUnit (hcs : Comp.has cs [.crypto, .canopy]) (s : State) (u : Nat) : (s.gateUnit u).sans cs = s.sans cs := by
  simp +decide only [State.gateUnit, State.sans_offerJobs, State.sans_mk, or_true, true_or, and_self, Comp.has_sub hcs]

theorem State.sans_enterStep2 (hcs : Comp.has cs [.life, .slots, .crypto, .tally, .early, .mbox, .held, .cells, .orders, .reasm, .queues, .fe,
    .lanes, .dec, .canopy, .back, .isl]) (s : State) :
    s.enterStep2.sans cs = s.sans cs := by
  simp +decide only [State.enterStep2, State.sans_dropHelec (Comp.has_sub hcs rfl), State.sans_takeDecoder (Comp.has_sub hcs rfl),
    State.sans_gateUnit (Comp.has_sub hcs rfl), State.sans_secError (Comp.has_sub hcs rfl), State.sans_set, State.sans_ite, ite_self,
    State.sans_foldl, implies_true, Comp.has_sub hcs]

theorem State.sans_leaveStep2 (hcs : Comp.has cs [.crypto, .tally, .early, .mbox, .dec, .canopy, .isl]) (s : State) (unitOk : List Bool) :
    (s.leaveStep2 unitOk).sans cs = s.sans cs := by
  unfold State.leaveStep2
  dsimp only
  rw [State.sans_offerJobs (Comp.has_sub hcs rfl), State.sans_feed (Comp.has_sub hcs rfl)]
  refine (State.sans_foldl (fun s k => ?_) _ _).trans ?_
  · repeat' split
    all_goals simp +decide only [State.sans_mapOutUnit, State.sans_mk, or_true, true_or, and_self, Comp.has_sub hcs]
  · simp +decide only [State.sans_mk, or_true, true_or, and_self, Comp.has_sub hcs]

theorem State.sans_enterStep4 (hcs : Comp.has cs (Comp.but [.rnd, .lcs, .flash, .rtc, .marks, .ceilings, .storedKeys, .almanac, .parting])) (s :
    State) :
    s.enterStep4.sans cs = s.sans cs := by
  simp +decide only [State.enterStep4, State.sans_holdIn, State.sans_powerSequence, State.sans_mk, or_true, true_or, and_self, Comp.has_sub hcs]

theorem State.sans_enterStep (hcs : Comp.has cs (Comp.but [.rnd, .lcs, .flash, .rtc, .marks, .ceilings, .storedKeys, .almanac, .parting])) (s :
    State) (k : Nat) :
    (s.enterStep k).sans cs = s.sans cs := by
  unfold State.enterStep
  split <;> simp +decide only [State.sans_tellStep, State.sans_enterStep1, State.sans_enterStep2, State.sans_enterStep4, State.sans_set,
    Comp.has_sub hcs]

theorem State.sans_enterSteps (hcs : Comp.has cs (Comp.but [.rnd, .lcs, .flash, .rtc, .marks, .ceilings, .storedKeys, .almanac, .parting])) (s :
    State) :
    s.enterSteps.sans cs = s.sans cs := by
  unfold State.enterSteps
  exact State.sans_foldl (fun _ _ => by simp +decide only [State.sans_enterStep, State.sans_ite, ite_self, Comp.has_sub hcs]) _ _

theorem State.sans_cool (hcs : Comp.has cs [.isl]) (s : State) : s.cool.sans cs = s.sans cs := by
  simp +decide only [State.cool, State.sans_set, Comp.has_sub hcs]

theorem State.sans_leaveSteps (hcs : Comp.has cs [.crypto, .tally, .early, .mbox, .cells, .queues, .fe, .lanes, .domA, .domB, .dec, .canopy, .isl])
    (s : State) (unitOk : List Bool) :
    (s.leaveSteps unitOk).sans cs = s.sans cs := by
  unfold State.leaveSteps
  refine State.sans_foldl (fun _ _ => ?_) _ _
  dsimp only
  repeat' split
  all_goals simp +decide only [State.sans_tellStep, State.sans_leaveStep1, State.sans_leaveStep2, State.sans_set, Comp.has_sub hcs]

theorem State.sans_thermal (hcs : Comp.has cs (Comp.but [.lcs, .parting])) (s : State) (tj : Int) (e : StartEnv) :
    (s.thermal tj e).sans cs = s.sans cs := by
  unfold State.thermal
  dsimp only
  repeat' split
  all_goals simp +decide only [State.sans_cool, State.sans_start, State.sans_countKept, State.sans_raise, State.sans_enterSteps,
    State.sans_leaveSteps, State.sans_set, Comp.has_sub hcs]

/-! ## Machine/Lifecycle -/

theorem State.sans_attest (hcs : Comp.has cs [.ceilings, .mbox, .cells, .orders, .queues, .back]) (s : State) (m : Nat) (r : Request) :
    (s.attest m r).sans cs = s.sans cs := by
  simp +decide only [State.attest, State.sans_respond, State.sans_ite, ite_self, Comp.has_sub hcs]

theorem State.sans_selftestRun (hcs : Comp.has cs [.life, .slots, .crypto, .ceilings, .tally, .early, .mbox, .held, .cells, .orders, .reasm,
    .queues, .fe, .lanes, .dec, .canopy, .back]) (s : State) (m : Nat) (r : Request) (e : TestEnv) :
    (s.selftestRun m r e).sans cs = s.sans cs := by
  simp +decide only [State.selftestRun, State.sans_allTests, State.sans_secError, State.sans_respond, State.sans_begin, State.sans_ite, ite_self,
    Comp.has_sub hcs]

theorem State.sans_periodicTest (hcs : Comp.has cs [.life, .slots, .crypto, .tally, .early, .mbox, .held, .cells, .orders, .reasm, .queues, .fe,
    .lanes, .dec, .canopy, .back]) (s : State) (e : TestEnv) :
    (s.periodicTest e).sans cs = s.sans cs := by
  unfold State.periodicTest
  repeat' split
  all_goals simp +decide only [State.sans_unitTests, State.sans_count, State.sans_secError, State.sans_mk, or_true, true_or, and_self,
    State.sans_ite, ite_self, Comp.has_sub hcs]

theorem State.sans_reseed (hcs : Comp.has cs [.life, .slots, .crypto, .tally, .early, .mbox, .held, .cells, .orders, .reasm, .queues, .fe, .lanes,
    .dec, .back]) (s : State) (first second : Bool) :
    (s.reseed first second).sans cs = s.sans cs := by
  simp +decide only [State.reseed, State.sans_collect, State.sans_secError, State.sans_mk, or_true, true_or, and_self, State.sans_ite, ite_self,
    Comp.has_sub hcs]

theorem State.sans_cfgKeyInstall (hcs : Comp.has cs [.life, .slots, .crypto, .ceilings, .storedKeys, .tally, .mbox, .cells, .orders, .queues,
    .back]) (s : State) (m : Nat) (r : Request) :
    (s.cfgKeyInstall m r).sans cs = s.sans cs := by
  unfold State.cfgKeyInstall
  repeat' split
  all_goals simp +decide only [State.sans_respond, State.sans_count, State.sans_begin, State.sans_deriveCfg, State.sans_mk, or_true, true_or,
    and_self, Comp.has_sub hcs]

theorem State.sans_serveInstalled (hcs : Comp.has cs [.slots, .crypto, .storedKeys, .heart, .mbox]) (s : State) (k : Nat) (key : List Nat) :
    (s.serveInstalled k key).sans cs = s.sans cs := by
  simp +decide only [State.serveInstalled, State.sans_useMboxKey, State.sans_openMbox, State.sans_ite, ite_self, Comp.has_sub hcs]

theorem State.sans_mboxKeyInstall (hcs : Comp.has cs [.slots, .crypto, .ceilings, .storedKeys, .heart, .tally, .mbox, .cells, .orders, .queues,
    .back]) (s : State) (m : Nat) (r : Request) :
    (s.mboxKeyInstall m r).sans cs = s.sans cs := by
  unfold State.mboxKeyInstall
  repeat' split
  all_goals simp +decide only [State.sans_respond, State.sans_count, State.sans_serveInstalled, State.sans_begin, State.sans_mk, or_true, true_or,
    and_self, State.sans_ite, ite_self, Comp.has_sub hcs]

theorem State.sans_lifecycleOperate (hcs : Comp.has cs (Comp.but [.rnd, .flash, .rtc, .storedKeys, .almanac, .heart])) (s : State) (m : Nat) (r :
    Request) :
    (s.lifecycleOperate m r).sans cs = s.sans cs := by
  simp +decide only [State.lifecycleOperate, State.sans_respond, State.sans_sendLast, State.sans_restartBy, State.sans_mk, or_true, true_or,
    and_self, State.sans_ite, ite_self, Comp.has_sub hcs]

theorem State.sans_zeroiseAll (hcs : Comp.has cs (Comp.but [.rnd, .lcs, .flash, .rtc, .storedKeys, .almanac])) (s : State) (m : Nat) (r : Request) :
    (s.zeroiseAll m r).sans cs = s.sans cs := by
  unfold State.zeroiseAll
  extract_lets t
  have aborted : t.sans cs = s.sans cs := State.sans_foldl (fun s k => by split <;> simp +decide only [State.sans_finish, Comp.has_sub hcs]) _ s
  simp +decide only [aborted, State.sans_zeroise, State.sans_sendLast, State.sans_respond, Comp.has_sub hcs]

theorem State.sans_restartCmd (hcs : Comp.has cs (Comp.but [.rnd, .lcs, .rtc, .marks, .storedKeys, .almanac, .heart])) (s : State) (m : Nat) (r :
    Request) :
    (s.restartCmd m r).sans cs = s.sans cs := by
  unfold State.restartCmd
  dsimp only
  repeat' split
  all_goals simp +decide only [State.sans_sendLast, State.sans_respond, State.sans_writeDir, State.sans_restartBy, Comp.has_sub hcs]

theorem State.sans_zeroiseLow (hcs : Comp.has cs (Comp.but [.rnd, .lcs, .flash, .rtc, .ceilings, .storedKeys, .almanac, .parting])) (s : State) :
    s.zeroiseLow.sans cs = s.sans cs := by
  unfold State.zeroiseLow
  dsimp only
  repeat' split
  all_goals simp +decide only [State.sans_zeroise, State.sans_set, Comp.has_sub hcs]

theorem State.sans_zeroLast (hcs : Comp.has cs (Comp.but [.parting])) (s : State) (e : StartEnv) : (s.zeroLast e).sans cs = s.sans cs := by
  unfold State.zeroLast
  split <;> simp +decide only [State.sans_start, State.sans_restartBy, State.sans_secError, State.sans_holdIn, State.sans_mk, or_true, true_or,
    and_self, State.sans_ite, ite_self, Comp.has_sub hcs]

theorem State.sans_zeroisationEnd (hcs : Comp.has cs (Comp.but [.parting])) (s : State) (e : StartEnv) :
    (s.zeroisationEnd e).sans cs = s.sans cs := by
  simp +decide only [State.zeroisationEnd, State.sans_zeroEnd, State.sans_zeroLast, State.sans_mk, or_true, true_or, and_self, State.sans_ite,
    ite_self, Comp.has_sub hcs]

theorem State.sans_zeroiseHigh (hcs : Comp.has cs (Comp.but [.parting])) (s : State) (e : StartEnv) : (s.zeroiseHigh e).sans cs = s.sans cs := by
  simp +decide only [State.zeroiseHigh, State.sans_zeroLast, State.sans_set, State.sans_ite, ite_self, Comp.has_sub hcs]

theorem State.sans_trip (hcs : Comp.has cs [.heart, .tally]) (s : State) (k : Nat) : (s.trip k).sans cs = s.sans cs := by
  simp +decide only [State.trip, State.sans_countKept, State.sans_mk, or_true, true_or, and_self, Comp.has_sub hcs]

theorem State.sans_tripA (hcs : Comp.has cs (Comp.but [.rnd, .lcs, .flash, .rtc, .ceilings, .storedKeys, .almanac, .parting])) (s : State) (k :
    Nat) :
    (s.tripA k).sans cs = s.sans cs := by
  unfold State.tripA
  split <;> simp +decide only [State.sans_trip, State.sans_zeroise, State.sans_mk, or_true, true_or, and_self, Comp.has_sub hcs]

theorem State.sans_tripB (hcs : Comp.has cs (Comp.but [.lcs, .parting])) (s : State) (k : Nat) (e : StartEnv) :
    (s.tripB k e).sans cs = s.sans cs := by
  unfold State.tripB
  split <;> simp +decide only [State.sans_trip, State.sans_secError, State.sans_start, State.sans_restartBy, State.sans_mk, or_true, true_or,
    and_self, State.sans_ite, ite_self, Comp.has_sub hcs]

theorem State.sans_jtag (hcs : Comp.has cs (Comp.but [.rnd, .lcs, .flash, .rtc, .marks, .ceilings, .storedKeys, .almanac, .heart, .parting])) (s :
    State) (i : JtagInstr) :
    (s.jtag i).sans cs = s.sans cs := by
  unfold State.jtag
  dsimp only
  repeat' split
  all_goals simp +decide only [State.sans_holdIn, State.sans_mk, or_true, true_or, and_self, Comp.has_sub hcs]

theorem State.sans_testLogicReset (hcs : Comp.has cs (Comp.but [.lcs, .parting])) (s : State) (e : StartEnv) :
    (s.testLogicReset e).sans cs = s.sans cs := by
  simp +decide only [State.testLogicReset, State.sans_start, State.sans_mk, or_true, true_or, and_self, State.sans_ite, ite_self, Comp.has_sub hcs]

/-! ## Machine/TimeStep -/

theorem State.sans_stepGates (hcs : Comp.has cs [.tally, .fe, .wake]) (s : State) (f : Fe) (old new : Nat) :
    (s.stepGates f old new).sans cs = s.sans cs := by
  unfold State.stepGates
  dsimp only
  repeat' split
  all_goals simp +decide only [State.sans_setFe, State.sans_countN, State.sans_count, State.sans_setGates, Comp.has_sub hcs]

theorem State.sans_closeWindow (hcs : Comp.has cs [.wake]) (s : State) (sec : Nat) : (s.closeWindow sec).sans cs = s.sans cs := by
  simp +decide only [State.closeWindow, State.sans_set, Comp.has_sub hcs]

theorem State.sans_moveTime (hcs : Comp.has cs [.time, .rtc, .orders, .reasm, .fe, .lanes, .mac, .nodes, .table, .wake, .canopy, .back]) (s :
    State) (d : Int) :
    (s.moveTime d).sans cs = s.sans cs := by
  simp +decide only [State.moveTime, TableSt.shift, Queues.shift, State.sans_mk, or_true, true_or, and_self, Comp.has_sub hcs]

theorem State.sans_rebound (hcs : Comp.has cs [.fe]) (s : State) (f : Fe) : (s.rebound f).sans cs = s.sans cs := by
  unfold State.rebound
  split <;> simp +decide only [State.sans_setFe, State.sans_ite, ite_self, Comp.has_sub hcs]

theorem State.sans_timeStep (hcs : Comp.has cs [.time, .rtc, .tally, .early, .mbox, .orders, .reasm, .fe, .lanes, .mac, .nodes, .table, .wake,
    .canopy, .back]) (s : State) :
    s.timeStep.sans cs = s.sans cs := by
  unfold State.timeStep
  split <;> simp +decide only [State.sans_count (Comp.has_sub hcs rfl), State.sans_moveTime (Comp.has_sub hcs rfl), State.sans_rebound
    (Comp.has_sub hcs rfl), State.sans_stepGates (Comp.has_sub hcs rfl), State.sans_closeWindow (Comp.has_sub hcs rfl), State.sans_raise
    (Comp.has_sub hcs rfl), State.sans_ite, ite_self, State.sans_foldl, implies_true]

/-! ## Machine/Wake -/

theorem State.sans_entryOpen (hcs : Comp.has cs [.tally, .fe]) (s : State) (f : Fe) : (s.entryOpen f).sans cs = s.sans cs := by
  unfold State.entryOpen
  dsimp only
  repeat' split
  all_goals simp +decide only [State.sans_skipBeacon, State.sans_setFe, Comp.has_sub hcs]

theorem State.sans_changeover (hcs : Comp.has cs [.tally, .wake]) (s : State) (f : Fe) : (s.changeover f).sans cs = s.sans cs := by
  unfold State.changeover
  dsimp only
  repeat' split
  all_goals simp +decide only [State.sans_count, State.sans_setGates, Comp.has_sub hcs]

theorem State.sans_releaseFlow (hcs : Comp.has cs [.tally, .early, .mbox, .cells, .orders, .queues, .fe, .nodes, .wake]) (s : State) (i : Nat) :
    (s.releaseFlow i).sans cs = s.sans cs := by
  unfold State.releaseFlow
  dsimp only
  repeat' split
  all_goals simp +decide only [State.sans_setFlow, State.sans_reviewFlow, State.sans_replace, Comp.has_sub hcs]

theorem State.sans_calendarSlot (hcs : Comp.has cs [.tally, .early, .mbox, .cells, .orders, .queues, .fe, .nodes, .wake]) (s : State) :
    s.calendarSlot.sans cs = s.sans cs := by
  unfold State.calendarSlot
  split
  · rfl
  · exact State.sans_foldl (fun _ _ => by simp +decide only [State.sans_releaseFlow, Comp.has_sub hcs]) _ _

theorem State.sans_farListMove (hcs : Comp.has cs [.tally, .early, .mbox, .cells, .orders, .queues, .fe, .nodes, .wake]) (s : State) :
    s.farListMove.sans cs = s.sans cs := by
  simp +decide only [State.farListMove, State.sans_releaseFlow (Comp.has_sub hcs rfl), State.sans_set, State.sans_ite, ite_self, State.sans_foldl,
    implies_true, Comp.has_sub hcs]

theorem State.sans_sample (hcs : Comp.has cs [.wake]) (s : State) : s.sample.sans cs = s.sans cs := by
  simp +decide only [State.sample, State.sans_closeWindow, State.sans_set, State.sans_ite, ite_self, Comp.has_sub hcs]

theorem State.sans_expireDown (hcs : Comp.has cs [.tally, .early, .mbox, .cells, .orders, .queues, .fe, .nodes, .wake]) (s : State) (k : Nat) (n :
    Nat) :
    (s.expireDown k n).sans cs = s.sans cs := by
  induction n generalizing s with
  | zero => rfl
  | succ n ih =>
    unfold State.expireDown
    dsimp only
    repeat' split
    all_goals simp +decide only [State.sans_countExpired, State.sans_releaseChain, State.sans_setOrder, State.sans_abandonRest, Comp.has_sub hcs,
      ih]

theorem State.sans_queueSample (hcs : Comp.has cs [.tally, .early, .mbox, .cells, .orders, .queues, .fe, .nodes, .wake]) (s : State) :
    s.queueSample.sans cs = s.sans cs := by
  simp +decide only [State.queueSample, State.sans_expireDown (Comp.has_sub hcs rfl), State.sans_sample (Comp.has_sub hcs rfl), State.sans_ite,
    ite_self, State.sans_foldl, implies_true]

/-! ## Machine/Mailboxes -/

theorem State.sans_datagram (hcs : Comp.has cs [.ceilings, .heart, .tally, .mbox, .held, .cells, .orders, .queues, .back]) (s : State) (m : Nat) (d
    : Datagram) :
    (s.datagram m d).sans cs = s.sans cs := by
  unfold State.datagram
  repeat' split
  case h_1 t ht => simp +decide only [State.sans_grant (Comp.has_sub hcs rfl) ht, State.sans_picked, State.sans_set, Comp.has_sub hcs]
  all_goals simp +decide only [State.sans_count, State.sans_accept, Comp.has_sub hcs]

theorem State.sans_releaseHeld (hcs : Comp.has cs [.ceilings, .heart, .tally, .early, .mbox, .held, .cells, .orders, .queues, .back]) (s : State) :
    s.releaseHeld.sans cs = s.sans cs := by
  unfold State.releaseHeld
  refine (State.sans_foldl (fun _ _ => ?_) _ _).trans ?_
  all_goals simp +decide only [State.sans_accept, State.sans_releaseChain, State.sans_set, Comp.has_sub hcs]

theorem State.sans_m0Write (hcs : Comp.has cs [.ceilings, .heart, .tally, .mbox, .cells, .orders, .queues, .back]) (s : State) (length : Nat) (o :
    Octets) :
    (s.m0Write length o).sans cs = s.sans cs := by
  simp +decide only [State.m0Write, State.sans_count, State.sans_accept, State.sans_ite, ite_self, Comp.has_sub hcs]

theorem State.sans_delivered (hcs : Comp.has cs [.mbox]) (s : State) (m : Nat) (l : List (BitVec 32)) : (s.delivered m l).sans cs = s.sans cs := by
  simp +decide only [State.delivered, State.sans_setMb, State.sans_ite, ite_self, Comp.has_sub hcs]

theorem State.sans_m0Read (hcs : Comp.has cs [.tally, .early, .mbox, .m0Out, .cells, .orders, .queues]) (s : State) (wholly : Bool) :
    (s.m0Read wholly).sans cs = s.sans cs := by
  unfold State.m0Read
  repeat' split
  all_goals simp +decide only [State.sans_delivered, State.sans_releaseChain, State.sans_setOrder, State.sans_set, Comp.has_sub hcs]

theorem State.sans_sendNew (hcs : Comp.has cs [.ceilings, .mbox, .cells, .orders, .queues, .back]) (s : State) (m : Nat) :
    (s.sendNew m).sans cs = s.sans cs := by
  simp +decide only [State.sendNew, State.sans_sendEvents, State.sans_ite, ite_self, Comp.has_sub hcs]

theorem State.sans_sendAgain (hcs : Comp.has cs [.ceilings, .mbox, .cells, .orders, .queues, .back]) (s : State) (m : Nat) :
    (s.sendAgain m).sans cs = s.sans cs := by
  simp +decide only [State.sendAgain, State.sans_sendEvents, State.sans_ite, ite_self, Comp.has_sub hcs]

theorem State.sans_eventAck (hcs : Comp.has cs [.ceilings, .mbox, .cells, .orders, .queues, .back]) (s : State) (m : Nat) (r : Request) :
    (s.eventAck m r).sans cs = s.sans cs := by
  simp +decide only [State.eventAck, State.sans_setMb, State.sans_respond, Comp.has_sub hcs]

theorem State.sans_tallySnapshot (hcs : Comp.has cs [.ceilings, .mbox, .cells, .orders, .queues, .back]) (s : State) (m : Nat) (r : Request) :
    (s.tallySnapshot m r).sans cs = s.sans cs := by
  simp +decide only [State.tallySnapshot, State.sans_respond, State.sans_setMb, Comp.has_sub hcs]

theorem State.sans_tallyRead (hcs : Comp.has cs [.ceilings, .mbox, .cells, .orders, .queues, .back]) (s : State) (m : Nat) (r : Request) :
    (s.tallyRead m r).sans cs = s.sans cs := by
  unfold State.tallyRead
  split <;> simp +decide only [State.sans_respond, State.sans_ite, ite_self, Comp.has_sub hcs]

theorem State.sans_qstatsRead (hcs : Comp.has cs [.ceilings, .mbox, .cells, .orders, .queues, .back]) (s : State) (m : Nat) (r : Request) :
    (s.qstatsRead m r).sans cs = s.sans cs := by
  simp +decide only [State.qstatsRead, State.sans_respond, State.sans_ite, ite_self, Comp.has_sub hcs]

/-! ## Machine/NodeCmds -/

theorem State.sans_nodeSearch (hcs : Comp.has cs [.ceilings, .mbox, .cells, .orders, .queues, .back]) (s : State) (m : Nat) (r : Request) :
    (s.nodeSearch m r).sans cs = s.sans cs := by
  unfold State.nodeSearch
  split <;> simp +decide only [State.sans_respond, Comp.has_sub hcs]

theorem State.sans_nodeNext (hcs : Comp.has cs [.ceilings, .mbox, .cells, .orders, .queues, .back]) (s : State) (m : Nat) (r : Request) :
    (s.nodeNext m r).sans cs = s.sans cs := by
  simp +decide only [State.nodeNext, State.sans_respond, State.sans_ite, ite_self, Comp.has_sub hcs]

theorem State.sans_nodeRemove (hcs : Comp.has cs [.slots, .crypto, .ceilings, .dirty, .mbox, .cells, .orders, .queues, .nodes, .table, .canopy,
    .back]) (s : State) (m : Nat) (r : Request) :
    (s.nodeRemove m r).sans cs = s.sans cs := by
  unfold State.nodeRemove
  split <;> simp +decide only [State.sans_respond, State.sans_clearNode, Comp.has_sub hcs]

theorem State.sans_advanceEpoch (hcs : Comp.has cs [.heart, .tally, .table]) (s : State) (w : Nat) : (s.advanceEpoch w).sans cs = s.sans cs := by
  simp +decide only [State.advanceEpoch, State.sans_lineWrite, State.sans_mk, or_true, true_or, and_self, Comp.has_sub hcs]

theorem State.sans_tableFlush (hcs : Comp.has cs [.ceilings, .heart, .tally, .mbox, .cells, .orders, .queues, .table, .back]) (s : State) (m : Nat)
    (r : Request) :
    (s.tableFlush m r).sans cs = s.sans cs := by
  simp +decide only [State.tableFlush, State.sans_respond, State.sans_advanceEpoch, State.sans_begin, State.sans_ite, ite_self, Comp.has_sub hcs]

theorem State.sans_flushEnd (hcs : Comp.has cs [.slots, .crypto, .dirty, .nodes, .table, .canopy]) (s : State) (w : Nat) :
    (s.flushEnd w).sans cs = s.sans cs := by
  unfold State.flushEnd
  simp +decide only [State.sans_mk, or_true, true_or, and_self, Comp.has_sub hcs]
  exact State.sans_foldl (fun _ _ => by simp +decide only [State.sans_clearNode, Comp.has_sub hcs]) _ _

theorem State.sans_rehashBegin (hcs : Comp.has cs [.rnd, .crypto, .ceilings, .mbox, .cells, .orders, .queues, .table, .back]) (s : State) (m : Nat)
    (r : Request) :
    (s.rehashBegin m r).sans cs = s.sans cs := by
  unfold State.rehashBegin
  dsimp only
  repeat' split
  all_goals simp +decide only [State.sans_draw, State.sans_begin, State.sans_mk, or_true, true_or, and_self, Comp.has_sub hcs]

theorem State.sans_rehashEnd (hcs : Comp.has cs [.heart, .tally, .table]) (s : State) (seed : BitVec 64) :
    (s.rehashEnd seed).2.2.sans cs = s.sans cs := by
  unfold State.rehashEnd
  dsimp only
  repeat' split
  all_goals simp +decide only [State.sans_adoptSeed, State.sans_mk, or_true, true_or, and_self, Comp.has_sub hcs]

theorem State.sans_linkGet (hcs : Comp.has cs [.ceilings, .mbox, .cells, .orders, .queues, .back]) (s : State) (m : Nat) (r : Request) :
    (s.linkGet m r).sans cs = s.sans cs := by
  unfold State.linkGet
  split <;> simp +decide only [State.sans_respond, Comp.has_sub hcs]

/-! ## Machine/Update -/

theorem State.sans_staleCfg (hcs : Comp.has cs [.life]) (s : State) (i : Nat) : (s.staleCfg i).sans cs = s.sans cs := by
  simp +decide only [State.staleCfg, State.sans_mk, or_true, true_or, and_self, Comp.has_sub hcs]

theorem State.sans_staleFw (hcs : Comp.has cs [.life]) (s : State) (i : Nat) : (s.staleFw i).sans cs = s.sans cs := by
  simp +decide only [State.staleFw, State.sans_mk, or_true, true_or, and_self, Comp.has_sub hcs]

theorem State.sans_cfgSlotWrite (hcs : Comp.has cs [.rnd, .life, .flash, .ceilings, .mbox, .cells, .orders, .queues, .back]) (s : State) (m : Nat)
    (r : Request) (late : Bool) :
    (s.cfgSlotWrite m r late).sans cs = s.sans cs := by
  simp +decide only [State.cfgSlotWrite, State.sans_respond, State.sans_writeSlot, State.sans_begin, State.sans_staleCfg, State.sans_ite, ite_self,
    Comp.has_sub hcs]

theorem State.sans_stumpAgain (hcs : Comp.has cs [.life]) (s : State) (t : StumpSt) : (s.stumpAgain t).sans cs = s.sans cs := by
  simp +decide only [State.stumpAgain, State.sans_mk, or_true, true_or, and_self, Comp.has_sub hcs]

theorem State.sans_stumpBody (hcs : Comp.has cs [.life, .flash, .ceilings, .mbox, .cells, .orders, .queues, .back]) (s : State) (m : Nat) (r :
    Request) (t : StumpSt) (off : Nat) (data : Octets) :
    (s.stumpBody m r t off data).sans cs = s.sans cs := by
  unfold State.stumpBody
  dsimp only
  repeat' split
  all_goals simp +decide only [State.sans_begin, State.sans_stumpAgain, State.sans_mk, or_true, true_or, and_self, Comp.has_sub hcs]

theorem State.sans_stumpWrite (hcs : Comp.has cs [.rnd, .life, .flash, .ceilings, .mbox, .cells, .orders, .queues, .back]) (s : State) (m : Nat) (r
    : Request) (t : StumpSt) (late : Bool) :
    (s.stumpWrite m r t late).sans cs = s.sans cs := by
  simp +decide only [State.stumpWrite, State.sans_respond, State.sans_stumpAgain, State.sans_staleFw, State.sans_begin, State.sans_badWrite,
    State.sans_stumpBody, State.sans_scramble, State.sans_mk, or_true, true_or, and_self, State.sans_ite, ite_self, Comp.has_sub hcs]

theorem State.sans_fwSlotWrite (hcs : Comp.has cs [.rnd, .life, .flash, .ceilings, .mbox, .cells, .orders, .queues, .back]) (s : State) (m : Nat)
    (r : Request) (late : Bool) :
    (s.fwSlotWrite m r late).sans cs = s.sans cs := by
  unfold State.fwSlotWrite
  split <;> simp +decide only [State.sans_stumpWrite, State.sans_respond, State.sans_writeSlot, State.sans_begin, State.sans_staleFw,
    State.sans_ite, ite_self, Comp.has_sub hcs]

theorem State.sans_cfgCheck (hcs : Comp.has cs [.life, .ceilings, .mbox, .cells, .orders, .queues, .back]) (s : State) (m : Nat) (r : Request) :
    (s.cfgCheck m r).sans cs = s.sans cs := by
  unfold State.cfgCheck
  dsimp only
  repeat' split
  all_goals simp +decide only [State.sans_respond, State.sans_begin, State.sans_staleCfg, State.sans_mk, or_true, true_or, and_self, Comp.has_sub
    hcs]

theorem State.sans_fwCheck (hcs : Comp.has cs [.life, .ceilings, .mbox, .cells, .orders, .queues, .back]) (s : State) (m : Nat) (r : Request) :
    (s.fwCheck m r).sans cs = s.sans cs := by
  simp +decide only [State.fwCheck, State.sans_respond, State.sans_begin, State.sans_mk, or_true, true_or, and_self, State.sans_ite, ite_self,
    Comp.has_sub hcs]

theorem State.sans_pauseIn (hcs : Comp.has cs [.life, .fe]) (s : State) (n : Nat) : (s.pauseIn n).sans cs = s.sans cs := by
  unfold State.pauseIn
  refine (State.sans_foldl (fun _ _ => ?_) _ _).trans ?_
  all_goals simp +decide only [State.sans_setFe, State.sans_mk, or_true, true_or, and_self, Comp.has_sub hcs]

theorem State.sans_fwActivate (hcs : Comp.has cs (Comp.but [.rnd, .lcs, .rtc, .marks, .storedKeys, .almanac])) (s : State) (m : Nat) (r : Request)
    (late : Bool) (prep : Nat) :
    (s.fwActivate m r late prep).sans cs = s.sans cs := by
  simp +decide only [State.fwActivate, State.sans_respond, State.sans_begin, State.sans_failDir, State.sans_writeDir, State.sans_pauseIn,
    State.sans_restartBy, State.sans_countKept, State.sans_sendLast, State.sans_ite, ite_self, Comp.has_sub hcs]

theorem State.sans_fwSwitched (hcs : Comp.has cs [.life, .tally, .early, .mbox]) (s : State) (i start : Nat) :
    (s.fwSwitched i start).sans cs = s.sans cs := by
  simp +decide only [State.fwSwitched, State.sans_runFw, State.sans_raise, State.sans_count, State.sans_mk, or_true, true_or, and_self,
    Comp.has_sub hcs]

theorem State.sans_dropWorldKeys (hcs : Comp.has cs [.slots, .crypto]) (s : State) (new : Image) : (s.dropWorldKeys new).sans cs = s.sans cs := by
  simp +decide only [State.dropWorldKeys, State.sans_eraseSlots, Comp.has_sub hcs]

theorem State.sans_shadowGates (hcs : Comp.has cs [.wake, .canopy]) (s : State) (keep : CanopyKeep) : (s.shadowGates keep).sans cs = s.sans cs := by
  unfold State.shadowGates
  refine State.sans_foldl (fun _ _ => ?_) _ _
  dsimp only
  repeat' split
  all_goals simp +decide only [State.sans_logGates, State.sans_set, Comp.has_sub hcs]

theorem State.sans_clampCentre (hcs : Comp.has cs [.fe, .canopy]) (s : State) (f : Fe) : (s.clampCentre f).sans cs = s.sans cs := by
  simp +decide only [State.clampCentre, State.sans_logClamp, State.sans_setFe, State.sans_ite, ite_self, Comp.has_sub hcs]

theorem State.sans_dropPins (hcs : Comp.has cs [.lanes, .canopy]) (s : State) : s.dropPins.sans cs = s.sans cs := by
  simp +decide only [State.dropPins, State.sans_mk, or_true, true_or, and_self, Comp.has_sub hcs]

theorem State.sans_clampCredits (hcs : Comp.has cs [.wake]) (s : State) : s.clampCredits.sans cs = s.sans cs := by
  simp +decide only [State.clampCredits, State.sans_settleCredits, State.sans_set, Comp.has_sub hcs]

theorem State.sans_applyHitless (hcs : Comp.has cs (Comp.but [.lcs, .pins, .flash, .time, .marks, .held, .m0Out, .cells, .orders, .reasm, .queues,
    .parting, .domA, .domB, .dec, .mac, .back, .isl])) (s : State) (slot : Nat) (new : Image) :
    (s.applyHitless slot new).sans cs = s.sans cs := by
  simp +decide only [State.applyHitless, State.sans_clampCredits (Comp.has_sub hcs rfl), State.sans_lineWrite (Comp.has_sub hcs rfl),
    State.sans_countSkipped (Comp.has_sub hcs rfl), State.sans_takeLocal (Comp.has_sub hcs rfl), State.sans_loadKeys (Comp.has_sub hcs rfl),
    State.sans_dropWorldKeys (Comp.has_sub hcs rfl), State.sans_replaceAlmanac (Comp.has_sub hcs rfl), State.sans_dropPins (Comp.has_sub hcs rfl),
    State.sans_shadowGates (Comp.has_sub hcs rfl), State.sans_clampCentre (Comp.has_sub hcs rfl), State.sans_restoreGroups (Comp.has_sub hcs rfl),
    State.sans_clampNode (Comp.has_sub hcs rfl), State.sans_touch (Comp.has_sub hcs rfl), State.sans_reindex (Comp.has_sub hcs rfl), State.sans_mk,
    or_true, true_or, and_self, State.sans_foldl, implies_true, Comp.has_sub hcs]

theorem State.sans_cfgActivate (hcs : Comp.has cs (Comp.but [.lcs, .marks])) (s : State) (m : Nat) (r : Request) (late : Bool) :
    (s.cfgActivate m r late).sans cs = s.sans cs := by
  unfold State.cfgActivate
  dsimp only
  repeat' split
  all_goals simp +decide only [State.sans_respond, State.sans_begin, State.sans_failDir, State.sans_writeDir, State.sans_applyHitless,
    State.sans_pauseIn, State.sans_countKept, State.sans_sendLast, State.sans_restartBy, State.sans_raise, Comp.has_sub hcs]

theorem State.sans_cfgSwitched (hcs : Comp.has cs [.tally, .early, .mbox]) (s : State) : s.cfgSwitched.sans cs = s.sans cs := by
  unfold State.cfgSwitched
  split <;> simp +decide only [State.sans_raise, State.sans_count, Comp.has_sub hcs]

theorem State.sans_cfgConfirm (hcs : Comp.has cs [.life, .flash, .marks, .ceilings, .heart, .tally, .mbox, .cells, .orders, .queues, .back]) (s :
    State) (m : Nat) (r : Request) (late : Bool) :
    (s.cfgConfirm m r late).sans cs = s.sans cs := by
  unfold State.cfgConfirm
  split <;> simp +decide only [State.sans_respond, State.sans_begin, State.sans_failDir, State.sans_writeDir, State.sans_raiseFloor, State.sans_mk,
    or_true, true_or, and_self, State.sans_ite, ite_self, Comp.has_sub hcs]

theorem State.sans_fwConfirm (hcs : Comp.has cs [.life, .flash, .marks, .ceilings, .heart, .tally, .mbox, .cells, .orders, .queues, .back]) (s :
    State) (m : Nat) (r : Request) (late : Bool) :
    (s.fwConfirm m r late).sans cs = s.sans cs := by
  unfold State.fwConfirm
  split <;> simp +decide only [State.sans_respond, State.sans_begin, State.sans_failDir, State.sans_writeDir, State.sans_raiseRollback,
    State.sans_mk, or_true, true_or, and_self, State.sans_ite, ite_self, Comp.has_sub hcs]

/-! ## Machine/Final -/

theorem State.sans_resume (hcs : Comp.has cs [.life, .time, .rtc, .ceilings, .almanac, .heart, .dirty, .tally, .early, .mbox, .held, .cells,
    .orders, .queues, .back]) (s : State) :
    s.resume.sans cs = s.sans cs := by
  simp +decide only [State.resume, State.sans_releaseHeld, State.sans_almResume, State.sans_mk, or_true, true_or, and_self, Comp.has_sub hcs]

theorem State.sans_endActivation (hcs : Comp.has cs (Comp.but [.rnd, .lcs, .flash, .marks, .storedKeys, .parting])) (s : State) (m : Nat) (b :
    Busy) (start : Nat) (handOffOk : Bool) :
    (s.endActivation m b start handOffOk).sans cs = s.sans cs := by
  simp +decide only [State.endActivation, State.sans_resume, State.sans_finish, State.sans_fwSwitched, State.sans_restartBy,
    State.sans_cfgSwitched, State.sans_mk, or_true, true_or, and_self, State.sans_ite, ite_self, Comp.has_sub hcs]

theorem State.sans_outcome (hcs : Comp.has cs [.slots, .crypto, .heart, .dirty, .tally, .nodes, .table, .canopy]) (s : State) (b : Busy) :
    (s.outcome b).2.2.sans cs = s.sans cs := by
  unfold State.outcome
  repeat' split
  all_goals simp +decide only [State.sans_flushEnd, State.sans_rehashEnd, Comp.has_sub hcs]

theorem State.sans_finalResponse (hcs : Comp.has cs (Comp.but [.rnd, .lcs, .flash, .marks, .storedKeys, .parting])) (s : State) (m : Nat)
    (handOffOk : Bool) :
    (s.finalResponse m handOffOk).sans cs = s.sans cs := by
  unfold State.finalResponse
  repeat' split
  all_goals simp +decide only [State.sans_outcome, State.sans_finish, State.sans_endActivation, Comp.has_sub hcs]

/-! ## Machine/KeyCmds -/

theorem State.sans_keepKey (hcs : Comp.has cs [.slots, .crypto, .ceilings, .storedKeys]) (s : State) (i f : Nat) :
    (s.keepKey i f).sans cs = s.sans cs := by
  simp +decide only [State.keepKey, State.sans_journalKey, State.sans_groupCell, State.sans_loadSlot, Comp.has_sub hcs]

theorem State.sans_takeKey (hcs : Comp.has cs [.slots, .crypto, .ceilings, .storedKeys]) (s : State) (i usage f : Nat) (keyId : BitVec 64) (key :
    List Nat) :
    (s.takeKey i usage f keyId key).sans cs = s.sans cs := by
  simp +decide only [State.takeKey, State.sans_keepKey, State.sans_journalKey, State.sans_loadWorldKey, State.sans_ite, ite_self, Comp.has_sub hcs]

theorem State.sans_keyLoad (hcs : Comp.has cs [.slots, .crypto, .ceilings, .storedKeys, .tally, .mbox, .cells, .orders, .queues, .back]) (s :
    State) (m : Nat) (r : Request) :
    (s.keyLoad m r).sans cs = s.sans cs := by
  unfold State.keyLoad
  dsimp only
  repeat' split
  all_goals simp +decide only [State.sans_respond, State.sans_countBoth, State.sans_takeKey, Comp.has_sub hcs]

theorem State.sans_dropKey (hcs : Comp.has cs [.slots, .crypto, .storedKeys]) (s : State) (i : Nat) : (s.dropKey i).sans cs = s.sans cs := by
  simp +decide only [State.dropKey, State.sans_eraseSlot, State.sans_mk, or_true, true_or, and_self, Comp.has_sub hcs]

theorem State.sans_keyErase (hcs : Comp.has cs [.slots, .crypto, .ceilings, .storedKeys, .mbox, .cells, .orders, .queues, .back]) (s : State) (m :
    Nat) (r : Request) :
    (s.keyErase m r).sans cs = s.sans cs := by
  unfold State.keyErase
  dsimp only
  repeat' split
  all_goals simp +decide only [State.sans_respond, State.sans_dropKey, Comp.has_sub hcs]

theorem State.sans_endApproved (hcs : Comp.has cs [.life]) (s : State) : s.endApproved.sans cs = s.sans cs := by
  simp +decide only [State.endApproved, State.sans_mk, or_true, true_or, and_self, Comp.has_sub hcs]

theorem State.sans_ctxSave (hcs : Comp.has cs [.life, .ceilings, .tally, .mbox, .cells, .orders, .queues, .back]) (s : State) (m : Nat) (r :
    Request) :
    (s.ctxSave m r).sans cs = s.sans cs := by
  unfold State.ctxSave
  split <;> simp +decide only [State.sans_respond, State.sans_count, State.sans_endApproved, State.sans_ite, ite_self, Comp.has_sub hcs]

theorem State.sans_ctxRestore (hcs : Comp.has cs [.life, .crypto, .ceilings, .tally, .mbox, .cells, .orders, .queues, .back]) (s : State) (m : Nat)
    (r : Request) :
    (s.ctxRestore m r).sans cs = s.sans cs := by
  unfold State.ctxRestore
  dsimp only
  repeat' split
  all_goals simp +decide only [State.sans_respond, State.sans_count, State.sans_endApproved, State.sans_mk, or_true, true_or, and_self,
    Comp.has_sub hcs]

end

/-! ## The commands -/

theorem State.sans_hostCommand {c : Instr} {l : List Comp} {s u : State} (hl : hostWrites c = some l) (h : exec c s = .next u) :
    u.sans l = (s.tick (ticksOf c)).sans l := by
  cases c <;> cases hl <;> cases h
  case almanacRemove | canopyFreeze =>
    refine State.sans_shortCmd rfl _ _ _ _ fun t r => ?_
    dsimp only
    repeat' split
    all_goals simp +decide only [State.sans_respond, State.sans_setFreeze, State.sans_mk, or_true, true_or, and_self]
  case canopyThaw =>
    refine State.sans_shortCmd rfl _ _ _ _ fun t r => ?_
    split <;> simp +decide only [State.sans_respond, State.sans_setFreeze]
  all_goals simp +decide only [ticksOf, State.sans_shortCmd, State.sans_canopyPin, State.sans_canopyUnpin, State.sans_respond, State.sans_hostCmd,
    State.sans_timeSet, State.sans_localChange, State.sans_setRtc, State.sans_setAlm, State.sans_backhaulSpeed, State.sans_rfTestStart,
    State.sans_rfTestStop, State.sans_attest, State.sans_selftestRun, State.sans_cfgKeyInstall, State.sans_mboxKeyInstall,
    State.sans_lifecycleOperate, State.sans_zeroise, State.sans_sendLast, State.sans_zeroiseAll, State.sans_restartCmd, State.sans_datagram,
    State.sans_m0Write, State.sans_m0Read, State.sans_count, State.sans_sendNew, State.sans_sendAgain, State.sans_eventAck, State.sans_setMb,
    State.sans_tallySnapshot, State.sans_tallyRead, State.sans_qstatsRead, State.sans_nodeSearch, State.sans_nodeNext, State.sans_nodeRemove,
    State.sans_tableFlush, State.sans_rehashBegin, State.sans_linkGet, State.sans_cfgSlotWrite, State.sans_fwSlotWrite, State.sans_cfgCheck,
    State.sans_fwCheck, State.sans_fwActivate, State.sans_cfgActivate, State.sans_cfgConfirm, State.sans_fwConfirm, State.sans_finalResponse,
    State.sans_keyLoad, State.sans_keyErase, State.sans_ctxSave, State.sans_ctxRestore, State.sans_mk, or_true, true_or, and_self, State.sans_ite,
    ite_self, implies_true]

theorem State.sans_powerCommand {c : Instr} {l : List Comp} {s u : State} (hl : powerWrites c = some l) (h : exec c s = .next u) :
    u.sans l = (s.tick (ticksOf c)).sans l := by
  cases c <;> cases hl <;> cases h
  all_goals simp +decide only [ticksOf, State.sans_draw, State.sans_start, State.sans_resetFall, State.sans_goRadio, State.sans_dramLost,
    State.sans_powerFail, State.sans_pfiHigh, State.sans_aonReset, State.sans_unitFault, State.sans_islandFault, State.sans_breach,
    State.sans_count, State.sans_reclaimTag, State.sans_thermal, State.sans_periodicTest, State.sans_reseed, State.sans_zeroiseLow,
    State.sans_zeroisationEnd, State.sans_zeroiseHigh, State.sans_tripA, State.sans_tripB, State.sans_jtag, State.sans_testLogicReset,
    State.sans_mk, or_true, true_or, and_self, State.sans_ite, ite_self]

theorem State.sans_radioCommand {c : Instr} {l : List Comp} {s u : State} (hl : radioWrites c = some l) (h : exec c s = .next u) :
    u.sans l = (s.tick (ticksOf c)).sans l := by
  cases c <;> cases hl <;> cases h
  all_goals simp +decide only [ticksOf, State.sans_takeRequest, State.sans_txCommit, State.sans_txEnd, State.sans_overpower, State.sans_backCal,
    State.sans_calDone, State.sans_lockLost, State.sans_rxRecal, State.sans_setFe, State.sans_wakeFe, State.sans_select, State.sans_backoffEnd,
    State.sans_senseEnd, State.sans_ackDue, State.sans_oweAck, State.sans_ackOver, State.sans_preamble, State.sans_sfdTimeout, State.sans_sfdFound,
    State.sans_headerEnd, State.sans_codeword, State.sans_decoded, State.sans_assignEffect, State.sans_faultLane, State.sans_setLane,
    State.sans_domDown, State.sans_domReturn, State.sans_sliceMove, State.sans_frameEnd, State.sans_nbrWindow, State.sans_testEnd,
    State.sans_entryOpen, State.sans_changeover, State.sans_calendarSlot, State.sans_farListMove, State.sans_queueSample, State.sans_mk, or_true,
    true_or, and_self, State.sans_ite, ite_self]

theorem State.sans_restCommand {c : Instr} {l : List Comp} {s u : State} (hl : restWrites c = some l) (h : exec c s = .next u) :
    u.sans l = (s.tick (ticksOf c)).sans l := by
  cases c <;> cases hl <;> cases h
  case meridianUpdate => simp +decide only [ticksOf, State.sans_foldl,
    State.sans_copyFault (cs := Comp.but [.lcs, .flash, .rtc, .marks, .ceilings, .almanac, .parting]) rfl, State.sans_ite, ite_self, implies_true]
  case poolAudit => simp +decide only [ticksOf, State.sans_foldl, 
    State.sans_reclaim (cs := [.tally, .early, .mbox, .cells, .queues]) rfl, State.sans_mk, or_true, true_or, and_self, implies_true]
  all_goals simp +decide only [ticksOf, State.sans_canopyRound, State.sans_assignNow, State.sans_assignWithdraw, State.sans_freezeEnd,
    State.sans_raiseUnwatched, State.sans_writeInc, State.sans_ptp, State.sans_masterLoss, State.sans_holdoverDegraded, State.sans_ppsEdge,
    State.sans_rtcSecond, State.sans_rtcAdjust, State.sans_oscStop, State.sans_oscStart, State.sans_dioTrickle, State.sans_security,
    State.sans_joinTimeout, State.sans_reasmTimeout, State.sans_ceilingWrite, State.sans_classifyNext, State.sans_postJob, State.sans_endJob,
    State.sans_sweepVisit, State.sans_walkVisit, State.sans_reload, State.sans_cellRequest, State.sans_ethEnd, State.sans_oversize,
    State.sans_pauseEnds, State.sans_pauseBreak, State.sans_sawmill, State.sans_egress, State.sans_supervision, State.sans_pathWindow,
    State.sans_linkUp, State.sans_linkDown, State.sans_decideStep, State.sans_enterLoad, State.sans_speedDone, State.sans_speedTimeout,
    State.sans_enterLpi, State.sans_closeBuffer, State.sans_homeAll, State.sans_writeTally, State.sans_timeStep, State.sans_ite, ite_self]

/-- Clock, identity, queue and every part outside `l` stay where a command is the identity without the parts of `l`. -/
theorem State.differsIn_of_sans {c : Instr} {l : List Comp} {s u : State} (h : exec c s = .next u) (hsans : u.sans l = (s.tick (ticksOf c)).sans l) :
    (s.tick (ticksOf c)).differsIn u l := by
  obtain ⟨hqueue, hid, hclk⟩ := exec_stays h
  exact ⟨hclk, hid, hqueue, fun p hp => Comp.same_of_sans hsans hp⟩

/-- Settles O53: each host command writes what its act, the acceptance of its request and its answer write. -/
theorem framesOfHostCommands : Obligations.FramesOfHostCommands := by
  unfold Obligations.FramesOfHostCommands
  exact fun c l s u hl h => State.differsIn_of_sans h (State.sans_hostCommand hl h)

/-- Settles O54: each of these commands writes what the operations it consists of write. -/
theorem framesOfPowerAndPins : Obligations.FramesOfPowerAndPins := by
  unfold Obligations.FramesOfPowerAndPins
  exact fun c l s u hl h => State.differsIn_of_sans h (State.sans_powerCommand hl h)

/-- Settles O55, in the same way. -/
theorem framesOfTheRadio : Obligations.FramesOfTheRadio := by
  unfold Obligations.FramesOfTheRadio
  exact fun c l s u hl h => State.differsIn_of_sans h (State.sans_radioCommand hl h)

/-- Settles O56, in the same way. -/
theorem framesOfTheRest : Obligations.FramesOfTheRest := by
  unfold Obligations.FramesOfTheRest
  exact fun c l s u hl h => State.differsIn_of_sans h (State.sans_restCommand hl h)

end Sys2Proof.Machine

namespace Sys2Proof.Machine

/-! # The step of the queue: O1 and O2 -/

/-- Every command has a next state. -/
theorem exec_next (c : Instr) (s : State) : ∃ u, exec c s = .next u := by
  cases c <;> exact ⟨_, rfl⟩

theorem step_of_empty {s : State} (h : s.pending = []) : step s = .next s := by
  simp only [step, h]

theorem step_of_front {s : State} {c : Instr} {rest : List Instr} (h : s.pending = c :: rest) : step s = exec c { s with pending := rest } := by
  simp only [step, h]

/-- Settles O1: the definition of a step at a queue that is not empty. -/
theorem stepRunsFrontCommand : Obligations.StepRunsFrontCommand := by
  unfold Obligations.StepRunsFrontCommand
  exact fun c rest s => step_of_front

/-- Settles O2: a step is the state itself or what its first command answers, and every command has a next state. -/
theorem everyStepCompletes : Obligations.EveryStepCompletes := by
  unfold Obligations.EveryStepCompletes
  refine ⟨fun s => step_of_empty, exec_next, fun s => ?_⟩
  cases hqueue : s.pending with
  | nil => exact ⟨s, step_of_empty hqueue⟩
  | cons c rest =>
    obtain ⟨t, ht⟩ := exec_next c { s with pending := rest }
    exact ⟨t, (step_of_front hqueue).trans ht⟩

end Sys2Proof.Machine

namespace Sys2Proof.Machine

/-! # BACKHAUL-STATUS and BACKHAUL-SPEED (R401, R411, R413, R439), and O30 -/

/-! ## Ports after a write, and after an answer -/

@[simp] theorem State.port_setPort_self (s : State) (p : Port) (x : PortSt) : (s.setPort p x).port p = x := by
  simp [State.port, State.setPort]

theorem State.port_setPort_ne (s : State) {p q : Port} (h : q ≠ p) (x : PortSt) : (s.setPort p x).port q = s.port q := by
  simp [State.port, State.setPort, PerPort.get_set, h]

theorem otherPort_ne (p : Port) : otherPort p ≠ p := by cases p <;> decide

@[simp] theorem State.port_setPort_other (s : State) (p : Port) (x : PortSt) : (s.setPort p x).port (otherPort p) = s.port (otherPort p) :=
  s.port_setPort_ne (otherPort_ne p) x

@[simp] theorem State.port_begin (s : State) (m : Nat) (r : Request) (first : Octets) (st : Nat) (o : Octets) (p : Port) :
    (s.begin m r first st o).port p = s.port p :=
  (congrArg (State.port · p) (s.sansAnswer_begin m r first st o) :)

@[simp] theorem State.clk_begin (s : State) (m : Nat) (r : Request) (first : Octets) (st : Nat) (o : Octets) :
    (s.begin m r first st o).clk = s.clk :=
  (congrArg State.clk (s.sansAnswer_begin m r first st o) :)

/-! ## The ends of BACKHAUL-SPEED -/

theorem exec_backhaulStatus {dt : Nat} {m : Mbox} {s : State} {r : Request} (h : (s.tick dt).runsLen m 0x0701 0 r) :
    let t := (s.tick dt).afterReq m
    exec (.backhaulStatus dt m) s = .next (t.respond m r sOk (t.portView .p0 ++ t.portView .p1 ++ toBe 1 t.back.sources.length ++
      t.back.sources.flatMap fun x => toBe 6 x.source.toNat ++ toBe 4 (t.heardMs x.p0) ++ toBe 4 (t.heardMs x.p1))) :=
  congrArg Host.Outcome.next (State.shortCmd_of_runsLen h _)

theorem exec_backhaulSpeed {dt : Nat} {m : Mbox} {s : State} {r : Request} (h : (s.tick dt).runsLen m 0x0702 2 r) :
    exec (.backhaulSpeed dt m) s = .next (((s.tick dt).afterReq m).backhaulSpeed m r) :=
  congrArg Host.Outcome.next (State.shortCmd_of_runsLen h _)

/-- The port a BACKHAUL-SPEED request names. -/
def speedPort (r : Request) : Port := if beField r.payload 0 1 = 0 then .p0 else .p1

section
variable {s : State} {r : Request} (m : Nat)

theorem State.backhaulSpeed_range (h : 1 < beField r.payload 0 1 ∨ s.speedOffered (speedPort r) (beField r.payload 1 1) = false) :
    s.backhaulSpeed m r = s.respond m r sRange [] :=
  if_pos (h.imp_right (by simp [speedPort]))

/-- A speed that the port's mode offers is judged by the port's state. -/
theorem State.backhaulSpeed_offered (hk : beField r.payload 0 1 ≤ 1) (hv : s.speedOffered (speedPort r) (beField r.payload 1 1) = true) :
    s.backhaulSpeed m r =
      if beField r.payload 1 1 = (s.port (speedPort r)).speed then s.begin m r [] sOk []
      else if !(s.port (speedPort r)).up || !s.mayChange (speedPort r) ||
        (decide ((s.port (speedPort r)).speed < beField r.payload 1 1) && (s.port (speedPort r)).noStepDown) then s.respond m r sRefused []
      else (s.begin m r [] sRefused []).beginChange (speedPort r) (beField r.payload 1 1) :=
  if_neg (not_or_intro (Nat.not_lt.2 hk) (by simpa [speedPort] using hv))

theorem State.backhaulSpeed_same (hk : beField r.payload 0 1 ≤ 1) (hv : s.speedOffered (speedPort r) (beField r.payload 1 1) = true)
    (hspeed : beField r.payload 1 1 = (s.port (speedPort r)).speed) : s.backhaulSpeed m r = s.begin m r [] sOk [] := by
  rw [State.backhaulSpeed_offered m hk hv, if_pos hspeed]

theorem State.backhaulSpeed_change (hk : beField r.payload 0 1 ≤ 1) (hv : s.speedOffered (speedPort r) (beField r.payload 1 1) = true)
    (hspeed : beField r.payload 1 1 ≠ (s.port (speedPort r)).speed) (hup : (s.port (speedPort r)).up = true)
    (hmay : s.mayChange (speedPort r) = true)
    (hdown : (s.port (speedPort r)).noStepDown = false ∨ beField r.payload 1 1 ≤ (s.port (speedPort r)).speed) :
    s.backhaulSpeed m r = (s.begin m r [] sRefused []).beginChange (speedPort r) (beField r.payload 1 1) := by
  rw [State.backhaulSpeed_offered m hk hv, if_neg hspeed, if_neg]
  rcases hdown with hd | hd <;> simp [hup, hmay, hd]

theorem State.backhaulSpeed_refused (hk : beField r.payload 0 1 ≤ 1) (hv : s.speedOffered (speedPort r) (beField r.payload 1 1) = true)
    (hspeed : beField r.payload 1 1 ≠ (s.port (speedPort r)).speed)
    (h : (s.port (speedPort r)).up = false ∨ s.mayChange (speedPort r) = false ∨
      (s.port (speedPort r)).speed < beField r.payload 1 1 ∧ (s.port (speedPort r)).noStepDown = true) :
    s.backhaulSpeed m r = s.respond m r sRefused [] := by
  rw [State.backhaulSpeed_offered m hk hv, if_neg hspeed, if_pos]
  rcases h with h | h | ⟨h, hn⟩ <;> simp [*]

end

theorem State.port_beginChange_self (s : State) (p : Port) (v : Nat) : ((s.beginChange p v).port p).change =
    some { source := (s.port p).speed, target := v, start := s.clk, returning := false } := by
  simp [State.beginChange]

theorem State.port_beginChange_other (s : State) (p : Port) (v : Nat) : (s.beginChange p v).port (otherPort p) = s.port (otherPort p) := by
  simp [State.beginChange]

/-- Settles O30: the ends of BACKHAUL-SPEED follow its branches, and a change begins on the ports as they stood, as the acceptance leaves
them. -/
theorem backhaulCommands : Obligations.BackhaulCommands := by
  unfold Obligations.BackhaulCommands
  intro dt m s r t p v
  refine ⟨exec_backhaulStatus, fun h hk hv => ⟨fun hspeed => ?_, fun hspeed hup hmay hdown => ?_, fun hspeed hrefused => ?_⟩, fun h hrange => ?_⟩
  · exact (exec_backhaulSpeed h).trans (congrArg _ (State.backhaulSpeed_same m hk hv hspeed))
  · refine ⟨_, (exec_backhaulSpeed h).trans (congrArg _ (State.backhaulSpeed_change m hk hv hspeed hup hmay hdown)), ?_, ?_, ?_⟩
    · refine (State.port_beginChange_self _ _ _).trans ?_
      rw [State.port_begin, State.clk_begin]
      rfl
    · exact (State.port_beginChange_other _ p v).trans (State.port_begin t m r [] sRefused [] _)
    · exact ⟨_, State.busy_begin t m r [] sRefused [], rfl, by rw [State.opcode_of_runsLen h]; rfl⟩
  · exact (exec_backhaulSpeed h).trans (congrArg _ (State.backhaulSpeed_refused m hk hv hspeed hrefused))
  · exact (exec_backhaulSpeed h).trans (congrArg _ (State.backhaulSpeed_range m hrange))

end Sys2Proof.Machine

namespace Sys2Proof.Machine

/-! # Received Ethernet frames and their duplicates (R392, R395, R396, R399, R400), and O31 -/

/-! ## What a rewound frame and a duplicate table entry leave -/

@[simp] theorem State.back_releaseChain (s : State) (a n : Nat) (l : List Nat) : (s.releaseChain a n l).back = s.back :=
  (congrArg State.back (s.releaseChain_frame a n l).2.2 :)

@[simp] theorem State.order_rewindPort (s : State) (p : Port) (ignore : Bool) (k : Nat) : (s.rewindPort p ignore).order k = s.order k :=
  State.order_releaseChain _ _ _ _ _

@[simp] theorem State.back_rewindPort (s : State) (p : Port) (ignore : Bool) :
    (s.rewindPort p ignore).back = (s.setPort p { s.port p with rxCells := 0, rxChain := [], rxIgnore := ignore }).back :=
  State.back_releaseChain _ _ _ _

theorem State.counter_rewindPort (s : State) (p : Port) (ignore : Bool) {c : Ctr} (x : Scope) (hc : c ∉ cellCounters) :
    (s.rewindPort p ignore).counter c x = s.counter c x :=
  State.counter_releaseChain _ _ _ _ x hc

/-- The entries of the duplicate table that stand at a time. -/
def State.liveDups (s : State) (now : Nat) : List PrpEntry := s.back.dups.filter fun e => !decide (e.arrival + 400000000 < now)

@[simp] theorem State.dups_prpExpire (s : State) (now : Nat) : (s.prpExpire now).back.dups = s.liveDups now :=
  foldl_keeps _ (fun s : State => s.back.dups) (fun s e => by dsimp only; split <;> rfl) _ _

@[simp] theorem State.order_prpExpire (s : State) (now k : Nat) : (s.prpExpire now).order k = s.order k :=
  foldl_keeps _ (fun s : State => s.order k) (fun s e => by dsimp only; split <;> rfl) _ _

theorem State.counter_prpExpire (s : State) (now : Nat) {c : Ctr} (x : Scope) (hc : c ≠ .pathMiss) :
    (s.prpExpire now).counter c x = s.counter c x := by
  refine foldl_keeps _ (fun s : State => s.counter c x) (fun s e => ?_) _ _
  dsimp only
  split
  · rfl
  · exact State.counter_count_ne _ _ _ hc

section
variable {s : State} {p : Port} {src : BitVec 48} {seq : BitVec 16} {now : Nat}

/-- The first of two copies is entered where the table has room. -/
theorem State.prpJudge_first (hnew : ((s.liveDups now).any fun e => e.source == src && e.seq == seq) = false) (hroom : (s.liveDups now).length < 2048) :
    (s.prpJudge p src seq now).1 = false ∧ (∀ k, (s.prpJudge p src seq now).2.order k = s.order k) ∧
      (s.prpJudge p src seq now).2.back.dups =
        s.liveDups now ++ [{ source := src, seq := seq, port := portCode p, arrival := now, twin := false }] := by
  unfold State.prpJudge
  simp only [State.dups_prpExpire, hnew, Bool.false_eq_true, if_false, ge_iff_le, Nat.not_le.2 hroom, decide_false, true_and, and_true]
  exact State.order_prpExpire s now

/-- The second is counted, and makes no entry. -/
theorem State.prpJudge_second (hold : ((s.liveDups now).any fun e => e.source == src && e.seq == seq) = true) :
    (s.prpJudge p src seq now).1 = true ∧ (∀ k, (s.prpJudge p src seq now).2.order k = s.order k) ∧
      (s.prpJudge p src seq now).2.back.dups.length = (s.liveDups now).length ∧
      (s.prpJudge p src seq now).2.counter .prpDupDiscard (.port (portCode p)) = s.counter .prpDupDiscard (.port (portCode p)) + 1 := by
  unfold State.prpJudge
  simp only [State.dups_prpExpire, hold, if_true, State.counter_count_self]
  refine ⟨trivial, State.order_prpExpire s now, ?_, ?_⟩
  · simp [State.count]
  · exact congrArg (· + 1) (State.counter_prpExpire s now _ (by decide))

end

/-! ## Cells requested during a frame -/

section
variable {s : State} {p : Port} {h : EthHdr} {f : EthFrame}

theorem State.cellRequest_idle (hidle : s.portsRun = false ∨ (s.port p).up = false ∨ (s.port p).rxIgnore = true) : s.cellRequest p h = s := by
  unfold State.cellRequest
  rcases hidle with hi | hi | hi <;> simp [hi]

/-- A port receives a frame. -/
def State.Receives (s : State) (p : Port) : Prop := s.portsRun = true ∧ (s.port p).up = true ∧ (s.port p).rxIgnore = false

theorem State.cellRequest_filtered (hrx : s.Receives p) (hcells : (s.port p).rxCells = 0) (hnot : s.ethAccepted h = false) :
    s.cellRequest p h = (s.rewindPort p true).count .rxEthFiltered (.port (portCode p)) := by
  obtain ⟨hrun, hup, hign⟩ := hrx
  simp [State.cellRequest, hrun, hup, hign, hcells, hnot]

theorem State.cellRequest_asks (hrx : s.Receives p) (hasks : (s.port p).rxCells ≠ 0 ∨ s.ethAccepted h = true) :
    s.cellRequest p h = s.portCells p 1 := by
  obtain ⟨hrun, hup, hign⟩ := hrx
  unfold State.cellRequest
  rcases hasks with ha | ha <;> simp [hrun, hup, hign, ha]

theorem State.portCells_granted {v : State} (hv : s.grant q387 1 = some v) : s.portCells p 1 =
    v.picked.setPort p { v.port p with rxCells := (v.port p).rxCells + 1, rxChain := (v.port p).rxChain ++ v.drawCells 1 [] } := by
  simp only [State.portCells, hv]

theorem State.portCells_refused (hv : s.grant q387 1 = none) :
    s.portCells p 1 = (s.rewindPort p true).count .cellsExhaustedEth (.port (portCode p)) := by
  simp only [State.portCells, hv]

/-! ## The end of a frame -/

theorem State.ethEnd_idle (hidle : s.portsRun = false ∨ (s.port p).up = false) : s.ethEnd p f = s := by
  unfold State.ethEnd
  rcases hidle with hi | hi <;> simp [hi]

theorem State.ethEnd_ignored (hrun : s.portsRun = true) (hup : (s.port p).up = true) (hign : (s.port p).rxIgnore = true) :
    s.ethEnd p f = s.setPort p { s.port p with rxIgnore := false, rxCells := 0, rxChain := [] } := by
  simp [State.ethEnd, hrun, hup, hign]

theorem State.ethEnd_filtered (hrx : s.Receives p) (hnot : s.ethAccepted f.hdr = false) :
    s.ethEnd p f = (s.rewindPort p false).count .rxEthFiltered (.port (portCode p)) := by
  obtain ⟨hrun, hup, hign⟩ := hrx
  simp [State.ethEnd, hrun, hup, hign, hnot]

/-- The frame whose cells are held is judged by its size, and then by its FCS. -/
theorem State.ethEnd_held (hrx : s.Receives p) (hacc : s.ethAccepted f.hdr = true) (hcells : cellsOf (16 + (f.size - 4)) ≤ (s.port p).rxCells) :
    s.ethEnd p f =
      if f.size ≤ 63 then (s.rewindPort p false).count .rxRunt (.port (portCode p))
      else if f.size ≥ 1529 then (s.rewindPort p false).count .rxOversize (.port (portCode p))
      else if !f.fcsOk then (s.rewindPort p false).count .rxFcsEth (.port (portCode p))
      else s.judgeEth p f := by
  obtain ⟨hrun, hup, hign⟩ := hrx
  simp [State.ethEnd, hrun, hup, hign, hacc, Nat.sub_eq_zero_of_le hcells, State.portCells]

theorem State.oversize_receiving (hrx : s.Receives p) :
    s.oversize p = (s.rewindPort p true).count .rxOversize (.port (portCode p)) := by
  obtain ⟨hrun, hup, hign⟩ := hrx
  simp [State.oversize, hrun, hup, hign]

/-! ## A good IPv6 frame with its trailer -/

/-- It is judged by the table of duplicates. -/
theorem State.judgeEth_ipv6 {src dst : BitVec 128} {tc : BitVec 8} {n : Nat} {o : Octets} {g : PrpTrailer}
    (hbody : f.payload = .ipv6 src dst tc none n o) (htrailer : f.trailer = some g) (hsize : g.sizeOk = true)
    (hlan : g.lanId = if p = .p0 then 0xA else 0xB) :
    s.judgeEth p f =
      if (s.prpJudge p f.hdr.srcMac g.seq (s.arrivalOf p f.size)).1 then (s.prpJudge p f.hdr.srcMac g.seq (s.arrivalOf p f.size)).2.rewindPort p false
      else (s.prpJudge p f.hdr.srcMac g.seq (s.arrivalOf p f.size)).2.commitEth p f true (s.arrivalOf p f.size) := by
  have hright : g.lanId = if portCode p = 0 then 0xA else 0xB := by
    cases p <;> exact hlan
  simp only [State.judgeEth, hbody, htrailer, Option.filter, hsize, if_true, ← hright]

/-- The last packet of Q387 is the frame, with its arrival timestamp. -/
theorem State.order_commitEth (s : State) (p : Port) (f : EthFrame) (trailer : Bool) (arrival : Nat) :
    ∃ k : Packet, (s.commitEth p f trailer arrival).order (orderKey 387 0) = s.order (orderKey 387 0) ++ [k] ∧ k.commit = arrival ∧
      k.content = .eth (portCode p) f arrival := by
  unfold State.commitEth
  refine ⟨_, (State.order_setOrder_self _ _ _).trans (congrArg (· ++ [_]) (State.order_releaseChain _ _ _ _ _)), ?_⟩
  exact ⟨rfl, rfl⟩

@[simp] theorem State.dups_commitEth (s : State) (p : Port) (f : EthFrame) (trailer : Bool) (arrival : Nat) :
    (s.commitEth p f trailer arrival).back.dups = s.back.dups := by
  have hback : (s.commitEth p f trailer arrival).back = (s.setPort p { s.port p with rxCells := 0, rxChain := [] }).back := by
    refine Comp.same_of_sans (c := .back) (cs := [.tally, .early, .mbox, .cells, .queues, .orders]) ?_ (by decide)
    simp +decide only [State.commitEth, State.sans_spill, State.sans_setOrder, State.sans_leaveStaging, State.sans_releaseChain]
  rw [hback]
  rfl

end

/-- Settles O31: the two events of a frame by their branches; a good frame by the entry that its source and SequenceNr have in the table. -/
theorem ethernetReceptionAndDuplicates : Obligations.EthernetReceptionAndDuplicates := by
  unfold Obligations.EthernetReceptionAndDuplicates
  refine ⟨fun dt p f h s v => ?_, fun dt p f s g src dst tc n o hrun hup hign hacc hmin hmax hfcs hcells hbody htrailer hsize hlan => ?_⟩
  · refine ⟨fun hidle => congrArg _ (State.cellRequest_idle hidle), fun hidle => congrArg _ (State.ethEnd_idle hidle),
      fun hrun hup hign => congrArg _ (State.ethEnd_ignored hrun hup hign), fun hrun hup hign => ?_⟩
    have hrx : (s.tick dt).Receives p := ⟨hrun, hup, hign⟩
    refine ⟨fun hnot => congrArg _ (State.ethEnd_filtered hrx hnot), fun hnone hnot => congrArg _ (State.cellRequest_filtered hrx hnone hnot),
      fun hasks hv => ?_, fun hasks hv => ?_, congrArg _ (State.oversize_receiving hrx), fun hacc hcells => ?_⟩
    · exact ⟨_, congrArg Host.Outcome.next ((State.cellRequest_asks hrx hasks).trans (State.portCells_granted hv)), by simp, by simp, rfl⟩
    · exact congrArg Host.Outcome.next ((State.cellRequest_asks hrx hasks).trans (State.portCells_refused hv))
    · have hends := State.ethEnd_held hrx hacc hcells
      refine ⟨fun hshort => congrArg _ (hends.trans (if_pos hshort)), fun hlong => congrArg _ (hends.trans ?_), fun hmin hmax hfcs =>
        congrArg _ (hends.trans ?_)⟩
      · rw [if_neg (by omega), if_pos hlong]
      · rw [if_neg (by omega), if_neg (by omega), if_pos (by simp [hfcs])]
  · have hend : (s.tick dt).ethEnd p f = (s.tick dt).judgeEth p f := by
      rw [State.ethEnd_held ⟨hrun, hup, hign⟩ hacc hcells, if_neg (by omega), if_neg (by omega), if_neg (by simp [hfcs])]
    have hjudge := hend.trans (State.judgeEth_ipv6 hbody htrailer hsize hlan)
    refine ⟨fun hnew hroom => ?_, fun hold => ?_⟩
    · obtain ⟨hfirst, horder, hdups⟩ := State.prpJudge_first (p := p) hnew hroom
      replace hjudge := hjudge.trans (if_neg (by simp [hfirst]))
      obtain ⟨k, hk, hcommit, hcontent⟩ := State.order_commitEth _ p f true _
      exact ⟨_, k, congrArg Host.Outcome.next hjudge, hk.trans (by rw [horder]), hcommit, hcontent,
        (State.dups_commitEth _ _ _ _ _).trans hdups⟩
    · obtain ⟨hsecond, horder, hdups, hcount⟩ := State.prpJudge_second (p := p) hold
      replace hjudge := hjudge.trans (if_pos hsecond)
      refine ⟨_, congrArg Host.Outcome.next hjudge, (State.order_rewindPort _ _ _ _).trans (horder _), ?_, ?_⟩
      · rw [State.back_rewindPort]
        exact hdups
      · exact (State.counter_rewindPort _ _ _ _ (by decide)).trans hcount

end Sys2Proof.Machine

namespace Sys2Proof.Machine

/-! # Links and speed changes (R404, R412, R537), and O33 -/

/-! ## What events, counts and freed sends leave of the ports -/

@[simp] theorem State.port_raise (s : State) (code : Nat) (w : Option Nat) (data : Octets) (p : Port) :
    (s.raise code w data).port p = s.port p := by
  simp [State.port]

@[simp] theorem State.port_count (s : State) (c : Ctr) (sc : Scope) (p : Port) : (s.count c sc).port p = s.port p := rfl

@[simp] theorem State.port_closeSends (s : State) (p : Port) : s.closeSends.port p = s.port p := by
  refine foldl_keeps _ (fun s : State => s.port p) (fun s x => ?_) _ _
  cases x.packet with
  | none => rfl
  | some k => simp [State.port]

@[simp] theorem State.port_rewindPort_self (s : State) (p : Port) (ignore : Bool) :
    (s.rewindPort p ignore).port p = { s.port p with rxCells := 0, rxChain := [], rxIgnore := ignore } := by
  rw [State.port, State.back_rewindPort]
  exact State.port_setPort_self s p _

@[simp] theorem State.port_rewindPort_other (s : State) (p : Port) (ignore : Bool) :
    (s.rewindPort p ignore).port (otherPort p) = s.port (otherPort p) := by
  rw [State.port, State.back_rewindPort]
  exact State.port_setPort_other s p _

/-! ## A link comes up -/

section
variable {s : State} {p : Port} {bad : Bool} {k : Nat}

theorem State.linkUp_stopped (hrun : s.portsRun = false) : s.linkUp p bad = s := by
  simp only [State.linkUp, hrun, Bool.not_false, Bool.true_or, if_true]
  split <;> rfl

theorem State.linkUp_early (hk : (s.port p).beginClk = some k) (hclk : s.clk < k + s.linkFloor p) : s.linkUp p bad = s := by
  simp [State.linkUp, hk, hclk]

/-- Once the time of R537 has passed, a port that has begun is refused or comes up. -/
theorem State.linkUp_due (hrun : s.portsRun = true) (hk : (s.port p).beginClk = some k) (hclk : k + s.linkFloor p ≤ s.clk)
    (hup : (s.port p).up = false) (hout : (s.port p).out = false) (hchange : (s.port p).change = none) :
    s.linkUp p bad = if s.portMode p = 0 ∧ bad then s.count .linkRefused (.port (portCode p))
      else (s.setPort p { s.port p with up := true, settledClk := s.clk, idleClk := s.clk }).raise 0x0E01 none
        (toBe 1 (portCode p) ++ toBe 1 (s.port p).speed) := by
  simp [State.linkUp, hrun, hk, hup, hout, hchange, Nat.not_lt.2 hclk]

/-! ## A link goes down -/

theorem State.linkDown_stopped (hrun : s.portsRun = false) : s.linkDown p = s := by
  simp [State.linkDown, hrun]

theorem State.port_portLost_self (s : State) (p : Port) : (s.portLost p).port p =
    { s.port p with rxCells := 0, rxChain := [], rxIgnore := false, up := false, copies := [], lpi := false, pauseEnd := none } := by
  simp [State.portLost]

theorem State.port_portLost_other (s : State) (p : Port) : (s.portLost p).port (otherPort p) = s.port (otherPort p) := by
  simp [State.portLost]

theorem State.port_enterPathFault_other (s : State) (p : Port) (cause : Nat) :
    (s.enterPathFault p cause).port (otherPort p) = s.port (otherPort p) := by
  unfold State.enterPathFault
  dsimp only
  split <;> simp

/-- A port in path fault keeps its cause; one that was not has the new one. -/
theorem State.port_enterPathFault_self (s : State) (p : Port) (cause : Nat) : (s.enterPathFault p cause).port p =
    if (s.port p).pathFault then s.port p else { s.port p with pathFault := true, faultCause := cause, goodWindows := 0 } := by
  unfold State.enterPathFault
  dsimp only
  split <;> simp

theorem State.linkDown_up (hrun : s.portsRun = true) (hup : (s.port p).up = true) (hchange : (s.port p).change = none) :
    s.linkDown p = ((s.portLost p).raise 0x0E02 none (toBe 1 (portCode p) ++ toBe 1 (s.port p).speed)).enterPathFault p 0 := by
  simp [State.linkDown, hrun, hup, hchange]

/-! ## A speed change ends, or turns back -/

@[simp] theorem State.port_speedOutcome (s : State) (p q : Port) (st : Nat) : (s.speedOutcome p st).port q = s.port q := by
  refine foldl_keeps _ (fun s : State => s.port q) (fun s m => ?_) _ _
  dsimp only
  repeat' split
  all_goals rfl

@[simp] theorem State.counter_speedOutcome (s : State) (p : Port) (st : Nat) (c : Ctr) (x : Scope) :
    (s.speedOutcome p st).counter c x = s.counter c x := by
  refine foldl_keeps _ (fun s : State => s.counter c x) (fun s m => ?_) _ _
  dsimp only
  repeat' split
  all_goals rfl

variable {c : SpeedChange}

/-- The port at its target speed. -/
def State.speedReached (s : State) (p : Port) (c : SpeedChange) : State := s.setPort p { s.port p with
  change := none, speed := c.target, settledClk := s.clk, changedClk := some s.clk, idleClk := s.clk, up := true }

theorem State.speedDone_due (hc : (s.port p).change = some c) (hclk : c.start + 250000 ≤ s.clk) :
    s.speedDone p = ((if c.returning then s.speedReached p c else (s.speedReached p c).speedOutcome p sOk).count .speedStep
      (.port (portCode p))).raise 0x0E06 none (toBe 1 (portCode p) ++ toBe 1 c.target) := by
  have hdue : ¬ s.clk < c.start + msTicks 1 := Nat.not_lt.2 hclk
  simp only [State.speedDone, hc, hdue, if_false]
  rfl

theorem State.port_speedDone (hc : (s.port p).change = some c) (hclk : c.start + 250000 ≤ s.clk) :
    (s.speedDone p).port p = (s.speedReached p c).port p := by
  rw [State.speedDone_due hc hclk, State.port_raise, State.port_count]
  split <;> simp

theorem State.counter_speedDone (hc : (s.port p).change = some c) (hclk : c.start + 250000 ≤ s.clk) :
    (s.speedDone p).counter .speedStep (.port (portCode p)) = s.counter .speedStep (.port (portCode p)) + 1 := by
  rw [State.speedDone_due hc hclk, State.counter_raise _ _ _ _ _ (by decide), State.counter_count_self]
  split
  · rfl
  · rw [State.counter_speedOutcome]
    rfl

theorem State.speedTimeout_returning (hc : (s.port p).change = some c) (hback : c.returning = true) : s.speedTimeout p = s := by
  simp [State.speedTimeout, hc, hback]

theorem State.port_speedTimeout (hc : (s.port p).change = some c) (hback : c.returning = false)
    (hclk : c.start + 250000 * s.stepTimeoutMs ≤ s.clk) : (s.speedTimeout p).port p = { s.port p with
      change := some { source := c.target, target := c.source, start := s.clk, returning := true }, noStepDown := true } := by
  have hdue : ¬ s.clk < c.start + msTicks s.stepTimeoutMs := Nat.not_lt.2 (by simpa [msTicks, Nat.mul_comm] using hclk)
  simp [State.speedTimeout, hc, hback, hdue]

end

/-- Settles O33: each event of a link or a speed by its branches, and by what its operations leave of the two ports. -/
theorem linksAndSpeeds : Obligations.LinksAndSpeeds := by
  unfold Obligations.LinksAndSpeeds
  refine ⟨fun dt k p bad s => ⟨fun hrun => ?_, fun hrun => ⟨?_, ?_, ?_, ?_⟩⟩, fun dt p s c => ?_⟩
  · exact ⟨congrArg Host.Outcome.next (State.linkUp_stopped hrun), congrArg Host.Outcome.next (State.linkDown_stopped hrun)⟩
  · intro hk hclk hup hout hchange hmode hbad
    exact congrArg Host.Outcome.next ((State.linkUp_due hrun hk hclk hup hout hchange).trans (if_pos ⟨hmode, hbad⟩))
  · intro hk hclk hup hout hchange hgood
    have hfree : ¬ ((s.tick dt).portMode p = 0 ∧ bad = true) := fun ⟨hmode, hbad⟩ => by simp [hmode, hbad] at hgood
    exact ⟨_, congrArg Host.Outcome.next ((State.linkUp_due hrun hk hclk hup hout hchange).trans (if_neg hfree)), by simp, by simp⟩
  · exact fun hk hclk => congrArg Host.Outcome.next (State.linkUp_early hk hclk)
  · intro hup hchange
    refine ⟨_, congrArg Host.Outcome.next (State.linkDown_up hrun hup hchange), ?_⟩
    rw [State.port_enterPathFault_self, State.port_enterPathFault_other, State.port_raise, State.port_raise, State.port_portLost_self,
      State.port_portLost_other]
    dsimp only
    split
    case isTrue hfault => exact ⟨rfl, rfl, rfl, hfault, fun hnot => absurd hfault (by simp [hnot]), rfl⟩
    case isFalse => exact ⟨rfl, rfl, rfl, rfl, fun _ => rfl, rfl⟩
  · intro t x hc
    refine ⟨?_, ?_, ?_⟩
    · intro hclk
      refine ⟨_, rfl, ?_⟩
      rw [State.port_speedDone hc hclk, State.speedReached, State.port_setPort_self]
      exact ⟨rfl, rfl, rfl, rfl, State.counter_speedDone hc hclk⟩
    · intro hback hclk
      refine ⟨_, rfl, ?_⟩
      rw [State.port_speedTimeout hc hback hclk]
      exact ⟨rfl, rfl, rfl⟩
    · exact fun hback => congrArg Host.Outcome.next (State.speedTimeout_returning hc hback)

end Sys2Proof.Machine

namespace Sys2Proof.Machine

/-! # Writes of the slots of the boot flash (R439, R475, R491), and O11 -/

/-! ## The flash after a write -/

/-- What is read back is the data, where every octet of the range is. -/
theorem flashRange_eq_iff {m : List Host.Cell} {a : Nat} {data : Octets} (hw : flashWf m = true) :
    flashRange m a data.length = data ↔ ∀ k, k < data.length → flashByte m (a + k) = data.getD k 0 := by
  rw [flashRange_eq hw]
  constructor
  · intro h k hk
    have hget := congrArg (·.getD k 0) h
    simpa [List.getD_eq_getElem?_getD, hk] using hget
  · intro h
    refine List.ext_getElem (by simp) fun k hk hk' => ?_
    simpa [hk'] using h k hk'

theorem flashByte_program_in {m : List Host.Cell} {a k : Nat} {data : Octets} (hw : flashWf m = true) (ha : a ≤ k) (hk : k < a + data.length) :
    flashByte (flashProgram m a data) k = flashByte m k &&& data.getD (k - a) 0 := by
  rw [flashByte_program hw, if_pos ⟨ha, hk⟩]

theorem flashByte_program_out {m : List Host.Cell} {a k : Nat} {data : Octets} (hw : flashWf m = true) (hk : k < a ∨ a + data.length ≤ k) :
    flashByte (flashProgram m a data) k = flashByte m k := by
  rw [flashByte_program hw, if_neg (by omega)]

theorem flashByte_erase_in {m : List Host.Cell} {a n k : Nat} (hw : flashWf m = true) (ha : a ≤ k) (hk : k < a + n) :
    flashByte (flashErase m a n) k = 0xFF := by
  rw [flashByte_erase hw, if_pos ⟨ha, hk⟩]

theorem flashByte_erase_out {m : List Host.Cell} {a n k : Nat} (hw : flashWf m = true) (hk : k < a ∨ a + n ≤ k) :
    flashByte (flashErase m a n) k = flashByte m k := by
  rw [flashByte_erase hw, if_neg (by omega)]

/-- An erased region holds the data programmed at its start, and 0xFF behind them. -/
theorem flashByte_program_erased {m : List Host.Cell} {a n k : Nat} {data : Octets} (hw : flashWf m = true) (ha : a ≤ k) (hk : k < a + n) :
    flashByte (flashProgram (flashErase m a n) a data) k = if k < a + data.length then data.getD (k - a) 0 else 0xFF := by
  split
  · rename_i hin
    rw [flashByte_program_in (flashWf_erase hw) ha hin, flashByte_erase_in hw ha hk]
    exact BitVec.allOnes_and
  · rename_i hout
    rw [flashByte_program_out (flashWf_erase hw) (by omega), flashByte_erase_in hw ha hk]

/-! ## What a write leaves -/

/-- A mailbox's command of class F waits with this status, and no result. -/
def State.FlashEnds (u : State) (m : Nat) (r : Request) (st : Nat) : Prop :=
  ∃ b, (u.mb m).busy = some b ∧ b.req = r ∧ b.cls = .flash ∧ b.result = [] ∧ b.status = st

theorem State.flashEnds_begin (v : State) (m : Nat) {r : Request} (st : Nat) (hc : cmdClass r.opcode = some .flash) :
    (v.begin m r [] st []).FlashEnds m r st :=
  ⟨_, State.busy_begin v m r [] st [], rfl, by simp [hc], rfl, rfl⟩

/-- Data were programmed at `a` over what stood there, and the status says whether they stand now. -/
def State.Wrote (t u : State) (m : Nat) (r : Request) (a : Nat) (data : Octets) : Prop :=
  (∀ k, a ≤ k → k < a + data.length → flashByte u.flash k = flashByte t.flash k &&& data.getD (k - a) 0) ∧
  (∀ k, k < a ∨ a + data.length ≤ k → flashByte u.flash k = flashByte t.flash k) ∧
  (∃ b, (u.mb m).busy = some b ∧ b.req = r ∧ b.cls = .flash ∧ b.result = [] ∧
    (b.status = sOk ↔ ∀ k, k < data.length → flashByte u.flash (a + k) = data.getD k 0) ∧ (b.status = sOk ∨ b.status = sFlash))

/-- A region of `size` octets was erased, and data programmed at its start. -/
def State.WroteAnew (t u : State) (m : Nat) (r : Request) (a size : Nat) (data : Octets) : Prop :=
  (∀ k, a ≤ k → k < a + size → flashByte u.flash k = if k < a + data.length then data.getD (k - a) 0 else 0xFF) ∧
  (∀ k, k < a ∨ a + size ≤ k → flashByte u.flash k = flashByte t.flash k) ∧
  (∃ b, (u.mb m).busy = some b ∧ b.req = r ∧ b.cls = .flash ∧ b.result = [] ∧ b.status = sOk)

theorem boolFlash_eq_sOk {b : Bool} : boolFlash b = sOk ↔ b = true := by cases b <;> decide

theorem boolFlash_cases (b : Bool) : boolFlash b = sOk ∨ boolFlash b = sFlash := by cases b <;> decide

section
variable {t v : State} {m : Nat} {r : Request} {base size off : Nat} {data : Octets}

theorem State.wrote_begin (hc : cmdClass r.opcode = some .flash) (hw : flashWf t.flash = true) (hoff : off ≠ 0)
    (hv : v.flash = (t.writeSlot base size off data false).2.flash) :
    t.Wrote (v.begin m r [] (boolFlash (t.writeSlot base size off data false).1) []) m r (base + off) data := by
  obtain ⟨b, hb, hreq, hcls, hres, hst⟩ := v.flashEnds_begin m (boolFlash (t.writeSlot base size off data false).1) hc
  have hflash : (v.begin m r [] (boolFlash (t.writeSlot base size off data false).1) []).flash = flashProgram t.flash (base + off) data := by
    simp [hv, State.writeSlot, hoff]
  rw [State.Wrote, hflash]
  refine ⟨fun k => flashByte_program_in hw, fun k => flashByte_program_out hw, b, hb, hreq, hcls, hres, ?_, ?_⟩
  · rw [hst, boolFlash_eq_sOk, ← flashRange_eq_iff (flashWf_program hw)]
    simp [State.writeSlot, hoff]
  · rw [hst]
    exact boolFlash_cases _

theorem State.wroteAnew_begin (hc : cmdClass r.opcode = some .flash) (hw : flashWf t.flash = true) (hfit : data.length ≤ size)
    (hv : v.flash = (t.writeSlot base size 0 data false).2.flash) :
    t.WroteAnew (v.begin m r [] (boolFlash (t.writeSlot base size 0 data false).1) []) m r base size data := by
  obtain ⟨b, hb, hreq, hcls, hres, hst⟩ := v.flashEnds_begin m (boolFlash (t.writeSlot base size 0 data false).1) hc
  have hflash : (v.begin m r [] (boolFlash (t.writeSlot base size 0 data false).1) []).flash =
      flashProgram (flashErase t.flash base size) base data := by
    simp [hv, State.writeSlot]
  rw [State.WroteAnew, hflash]
  refine ⟨fun k => flashByte_program_erased hw, fun k hk => ?_, b, hb, hreq, hcls, hres, ?_⟩
  · rw [flashByte_program_out (flashWf_erase hw) (by omega), flashByte_erase_out hw hk]
  · rw [hst, boolFlash_eq_sOk]
    have hread : flashRange (flashProgram (flashErase t.flash base size) base data) base data.length = data := by
      refine (flashRange_eq_iff (flashWf_program (flashWf_erase hw))).2 fun k hk => ?_
      rw [flashByte_program_erased hw (by omega) (by omega), if_pos (by omega), Nat.add_sub_cancel_left]
    simp [State.writeSlot, hread]

end

/-! ## The two commands -/

theorem exec_configSlotWrite {dt : Nat} {m : Mbox} {s : State} {r : Request} (late : Bool) (h : (s.tick dt).runs m 0x0202 r) :
    exec (.configSlotWrite dt m late) s = .next (((s.tick dt).afterReq m).cfgSlotWrite m r late) :=
  congrArg Host.Outcome.next (State.hostCmd_of_runs h _)

theorem exec_fwSlotWrite {dt : Nat} {m : Mbox} {s : State} {r : Request} (late : Bool) (h : (s.tick dt).runs m 0x0212 r) :
    exec (.fwSlotWrite dt m late) s = .next (((s.tick dt).afterReq m).fwSlotWrite m r late) :=
  congrArg Host.Outcome.next (State.hostCmd_of_runs h _)

theorem State.opcode_of_runs {s : State} {m op : Nat} {r : Request} (h : s.runs m op r) : r.opcode = op := by
  obtain ⟨-, hop, -⟩ := h
  exact hop

theorem State.boot_afterReq (s : State) (m : Nat) : s.SameBoot (s.afterReq m) := by
  unfold State.afterReq
  cases hn : s.nextRequest m with
  | none => exact ⟨rfl, rfl⟩
  | some q => exact State.boot_nextRequest hn

section
variable {s : State} {m : Nat} {r : Request} {late : Bool}

/-- The octets of a slot write. -/
def slotData (r : Request) : Octets := r.payload.drop 5

theorem writeForm_of_length (hmin : 6 ≤ r.payload.length) (hmax : r.payload.length ≤ 1029) : writeForm r.payload = true := by
  simp [writeForm, hmin, hmax]

theorem State.cfgSlotWrite_beyond (hform : writeForm r.payload = true) (hfar : 0x400000 < beField r.payload 1 4 + (slotData r).length) :
    s.cfgSlotWrite m r late = s.respond m r sRange [] := by
  simp only [State.cfgSlotWrite, hform, Bool.not_true, Bool.false_eq_true, if_false]
  exact if_pos (.inr hfar)

theorem State.cfgSlotWrite_inUse (hform : writeForm r.payload = true) (hi : beField r.payload 0 1 ≤ 1)
    (hfit : beField r.payload 1 4 + (slotData r).length ≤ 0x400000) (huse : s.life.cfgSlot = some (beField r.payload 0 1)) :
    s.cfgSlotWrite m r late = s.respond m r sState [] := by
  simp only [State.cfgSlotWrite, hform, Bool.not_true, Bool.false_eq_true, if_false]
  exact (if_neg (not_or_intro (Nat.not_lt.2 hi) (Nat.not_lt.2 hfit))).trans (if_pos huse)

theorem State.cfgSlotWrite_writes (hform : writeForm r.payload = true) (hi : beField r.payload 0 1 ≤ 1)
    (hfit : beField r.payload 1 4 + (slotData r).length ≤ 0x400000) (hfree : s.life.cfgSlot ≠ some (beField r.payload 0 1)) :
    let w := s.writeSlot (cfgSlotBase (beField r.payload 0 1)) 0x400000 (beField r.payload 1 4) (slotData r) late
    s.cfgSlotWrite m r late = (w.2.staleCfg (beField r.payload 0 1)).begin m r [] (boolFlash w.1) [] := by
  simp only [State.cfgSlotWrite, hform, Bool.not_true, Bool.false_eq_true, if_false]
  exact (if_neg (not_or_intro (Nat.not_lt.2 hi) (Nat.not_lt.2 hfit))).trans (if_neg hfree)

theorem State.fwSlotWrite_inUse (hform : writeForm r.payload = true) (hi : beField r.payload 0 1 ≤ 1)
    (hfit : beField r.payload 1 4 + (slotData r).length ≤ 0x800000) (huse : s.life.fwSlot = some (beField r.payload 0 1))
    (hstump : s.life.stump = none) : s.fwSlotWrite m r late = s.respond m r sState [] := by
  simp only [State.fwSlotWrite, hstump, hform, Bool.not_true, Bool.false_eq_true, if_false]
  exact (if_neg (not_or_intro (Nat.not_lt.2 hi) (Nat.not_lt.2 hfit))).trans (if_pos huse)

theorem State.fwSlotWrite_writes (hform : writeForm r.payload = true) (hi : beField r.payload 0 1 ≤ 1)
    (hfit : beField r.payload 1 4 + (slotData r).length ≤ 0x800000) (hfree : s.life.fwSlot ≠ some (beField r.payload 0 1))
    (hstump : s.life.stump = none) :
    let w := s.writeSlot (fwSlotBase (beField r.payload 0 1)) 0x800000 (beField r.payload 1 4) (slotData r) late
    s.fwSlotWrite m r late = (w.2.staleFw (beField r.payload 0 1)).begin m r [] (boolFlash w.1) [] := by
  simp only [State.fwSlotWrite, hstump, hform, Bool.not_true, Bool.false_eq_true, if_false]
  exact (if_neg (not_or_intro (Nat.not_lt.2 hi) (Nat.not_lt.2 hfit))).trans (if_neg hfree)

/-- A write the device does not complete in time ends with S_FLASH. -/
theorem State.writeSlot_late (s : State) (base size off : Nat) (data : Octets) : (s.writeSlot base size off data true).1 = false := rfl

end

theorem State.cfgChecked_write (t : State) (m : Nat) (r : Request) (base size off i st : Nat) (data : Octets) :
    (((t.writeSlot base size off data false).2.staleCfg i).begin m r [] st []).life.cfgChecked = t.life.cfgChecked.set i false := by
  simp [State.staleCfg, State.writeSlot]

theorem State.fwChecked_write (t : State) (m : Nat) (r : Request) (base size off i st : Nat) (data : Octets) :
    (((t.writeSlot base size off data false).2.staleFw i).begin m r [] st []).life.fwChecked = t.life.fwChecked.set i false := by
  simp [State.staleFw, State.writeSlot]

theorem cfgSlotBase_add (i off : Nat) : cfgSlotBase i + off = if i = 0 then 0x1020000 + off else 0x1420000 + off := by
  unfold cfgSlotBase
  split <;> rfl

theorem fwSlotBase_add (i off : Nat) : fwSlotBase i + off = if i = 0 then 0x20000 + off else 0x820000 + off := by
  unfold fwSlotBase
  split <;> rfl

/-- Settles O11: by the write of a slot that both commands make, and what programming and erasing do to each octet. -/
theorem slotWritePrograms : Obligations.SlotWritePrograms := by
  unfold Obligations.SlotWritePrograms
  intro dt m s r t i off data outcome anew
  have hclass : ∀ {op}, (s.tick dt).runs m op r → cmdClass op = some .flash → cmdClass r.opcode = some .flash := fun h hc => by
    rwa [State.opcode_of_runs h]
  have hlate : ∀ {base size : Nat} {v : State} {op : Nat}, (s.tick dt).runs m op r → cmdClass op = some .flash →
      (v.begin m r [] (boolFlash (t.writeSlot base size off data true).1) []).FlashEnds m r sFlash := fun h hc => by
    rw [State.writeSlot_late]
    exact State.flashEnds_begin _ _ _ (hclass h hc)
  have hdata : r.payload.length ≤ 1029 → data.length ≤ 1024 := fun h => by simp [data]; omega
  have hwf : (s.tick dt).flashOk → flashWf t.flash = true := fun h => by
    obtain ⟨-, hflash⟩ := State.boot_afterReq (s.tick dt) m
    exact (congrArg flashWf hflash).trans h
  refine ⟨fun hmin hmax hi hfit => ⟨fun h hfree => ?_, fun h hfree hstump => ?_⟩, fun hok hmin hmax hi hoff => ⟨fun h hfree => ?_, fun h hfree hstump => ?_⟩,
    fun hok hmin hmax hi hoff => ⟨fun h hfit hfree => ?_, fun h hfit huse => ?_, fun h hfar => ?_, fun h hfit huse hstump => ?_,
      fun h hfit hfree hstump => ?_⟩⟩
  all_goals have hform := writeForm_of_length hmin hmax
  · obtain ⟨b, hb, hreq, hcls, -, hst⟩ := hlate (base := cfgSlotBase i) (size := 0x400000) (v := (t.writeSlot _ _ off data true).2.staleCfg i) h rfl
    exact ⟨_, (exec_configSlotWrite true h).trans (congrArg _ (State.cfgSlotWrite_writes hform hi hfit hfree)), b, hb, hreq, hcls, hst⟩
  · obtain ⟨b, hb, hreq, hcls, -, hst⟩ := hlate (base := fwSlotBase i) (size := 0x800000) (v := (t.writeSlot _ _ off data true).2.staleFw i) h rfl
    exact ⟨_, (exec_fwSlotWrite true h).trans (congrArg _ (State.fwSlotWrite_writes hform hi (hfit.trans (by decide)) hfree hstump)),
      b, hb, hreq, hcls, hst⟩
  · have hfit : off + data.length ≤ 0x400000 := by omega
    have heq := State.cfgSlotWrite_writes (m := m) (late := false) hform hi hfit hfree
    refine ⟨_, (exec_configSlotWrite false h).trans (congrArg _ heq), ?_, State.cfgChecked_write _ _ _ _ _ _ _ _ _⟩
    have hanew := State.wroteAnew_begin (t := t) (base := cfgSlotBase i) (size := 0x400000) (data := data) (m := m)
      (v := (t.writeSlot (cfgSlotBase i) 0x400000 0 data false).2.staleCfg i) (hclass h rfl) (hwf hok) (by omega) rfl
    rwa [← hoff] at hanew
  · have hfit : off + data.length ≤ 0x800000 := by omega
    have heq := State.fwSlotWrite_writes (m := m) (late := false) hform hi hfit hfree hstump
    refine ⟨_, (exec_fwSlotWrite false h).trans (congrArg _ heq), ?_, State.fwChecked_write _ _ _ _ _ _ _ _ _⟩
    have hanew := State.wroteAnew_begin (t := t) (base := fwSlotBase i) (size := 0x800000) (data := data) (m := m)
      (v := (t.writeSlot (fwSlotBase i) 0x800000 0 data false).2.staleFw i) (hclass h rfl) (hwf hok) (by omega) rfl
    rwa [← hoff] at hanew
  · refine ⟨_, (exec_configSlotWrite false h).trans (congrArg _ (State.cfgSlotWrite_writes hform hi hfit hfree)), ?_,
      State.cfgChecked_write _ _ _ _ _ _ _ _ _⟩
    rw [← cfgSlotBase_add]
    exact State.wrote_begin (hclass h rfl) (hwf hok) hoff rfl
  · exact (exec_configSlotWrite false h).trans (congrArg _ (State.cfgSlotWrite_inUse hform hi hfit huse))
  · exact (exec_configSlotWrite false h).trans (congrArg _ (State.cfgSlotWrite_beyond hform hfar))
  · exact (exec_fwSlotWrite false h).trans (congrArg _ (State.fwSlotWrite_inUse hform hi hfit huse hstump))
  · refine ⟨_, (exec_fwSlotWrite false h).trans (congrArg _ (State.fwSlotWrite_writes hform hi hfit hfree hstump)), ?_,
      State.fwChecked_write _ _ _ _ _ _ _ _ _⟩
    rw [← fwSlotBase_add]
    exact State.wrote_begin (hclass h rfl) (hwf hok) hoff rfl

end Sys2Proof.Machine

namespace Sys2Proof.Machine

/-! # Replay window, checks of a request, acceptance (R423 to R426), and O19 -/

/-! ## The replay window (R426) -/

/-- Above H, or within 64 of it with its bit clear. -/
theorem freshSeq_iff (h b : BitVec 64) (q : Nat) :
    freshSeq h b q = true ↔ q ≠ 0 ∧ (h.toNat < q ∨ h.toNat < q + 64 ∧ b.getLsbD (h.toNat - q) = false) := by
  simp [freshSeq, bitOf_eq_testBit, BitVec.testBit_toNat]

section
variable {h b : BitVec 64} {q : Nat}

/-- A seq above H moves the window up to it. -/
theorem acceptSeq_above (hq : h.toNat < q) :
    acceptSeq h b q = (BitVec.ofNat 64 q, (if q - h.toNat < 64 then b <<< (q - h.toNat) else 0) ||| 1) := if_pos hq

/-- One within the window has its bit set. -/
theorem acceptSeq_within (hq : q ≤ h.toNat) : acceptSeq h b q = (h, b ||| 1 <<< (h.toNat - q)) := if_neg (Nat.not_lt.2 hq)

theorem freshSeq_zero (h b : BitVec 64) : freshSeq h b 0 = false := rfl

theorem freshSeq_above (hq : h.toNat < q) : freshSeq h b q = true :=
  (freshSeq_iff h b q).2 ⟨by omega, .inl hq⟩

theorem freshSeq_below (hq : q + 64 ≤ h.toNat) : freshSeq h b q = false := by
  rw [← Bool.not_eq_true, freshSeq_iff]
  omega

theorem toNat_acceptSeq (hq : q < 2 ^ 64) : (acceptSeq h b q).1.toNat = max h.toNat q := by
  rcases Nat.lt_or_ge h.toNat q with habove | hwithin
  · rw [acceptSeq_above habove, Nat.max_eq_right habove.le, BitVec.toNat_ofNat, Nat.mod_eq_of_lt hq]
  · rw [acceptSeq_within hwithin, Nat.max_eq_left hwithin]

/-- A seq that is fresh after an acceptance lies outside the window of before, or its bit was clear in it, and is not the one accepted. -/
theorem freshSeq_acceptSeq {p : Nat} (hq : q < 2 ^ 64) (hfresh : freshSeq (acceptSeq h b q).1 (acceptSeq h b q).2 p = true) :
    p ≠ q ∧ freshSeq h b p = true := by
  obtain ⟨hp, hplace⟩ := (freshSeq_iff _ _ _).1 hfresh
  rw [toNat_acceptSeq hq] at hplace
  rw [freshSeq_iff]
  rcases Nat.lt_or_ge h.toNat q with habove | hwithin
  · rw [Nat.max_eq_right habove.le, acceptSeq_above habove] at hplace
    rcases hplace with hover | ⟨hnear, hclear⟩
    · omega
    · refine ⟨fun e => by simp [e] at hclear, hp, (Nat.lt_or_ge h.toNat p).imp_right fun hle => ⟨by omega, ?_⟩⟩
      rw [if_pos (by omega)] at hclear
      simp only [BitVec.ofNat_eq_ofNat, BitVec.getLsbD_or, BitVec.getLsbD_shiftLeft, Bool.or_eq_false_iff] at hclear
      simpa [show q - p < 64 by omega, show ¬ q - p < q - h.toNat by omega, show q - p - (q - h.toNat) = h.toNat - p by omega] using hclear.1
  · rw [Nat.max_eq_left hwithin, acceptSeq_within hwithin] at hplace
    rcases hplace with hover | ⟨hnear, hclear⟩
    · exact ⟨by omega, hp, .inl hover⟩
    · obtain ⟨hold, hmark⟩ := Bool.or_eq_false_iff.1 ((BitVec.getLsbD_or ..).symm.trans hclear)
      refine ⟨fun e => ?_, hp, .inr ⟨hnear, hold⟩⟩
      subst e
      simp [-BitVec.getLsbD_eq_getElem, BitVec.getLsbD_ofNat, Nat.testBit_shiftLeft] at hmark
      omega

/-- No seq is taken twice. -/
theorem freshSeq_acceptSeq_self (hq : q < 2 ^ 64) : freshSeq (acceptSeq h b q).1 (acceptSeq h b q).2 q = false := by
  rw [← Bool.not_eq_true]
  intro hfresh
  obtain ⟨hne, -⟩ := freshSeq_acceptSeq hq hfresh
  exact hne rfl

end
/-! ## The checks of Table 15.2 -/

section
variable {s : State} {m : Nat} {d : Datagram} {k : Nat}

/-- The mac a mailbox that authenticates expects. -/
def State.macGood (s : State) (m : Nat) (o : Octets) : Prop :=
  o.drop (o.length - 16) = natOcts (cmac (s.vmac m) (octNats (o.take (o.length - 16))))

theorem State.datagram_examined (hm : m ≠ 0) (hopen : (s.mb m).isOpen = true) (hpause : s.inPause = false) :
    s.datagram m d = s.accept m d s.clk := by
  simp [State.datagram, hm, hopen, hpause]

theorem State.accept_addrRefused (hm : m ≠ 0) (haddr : s.addrOk m d.srcAddr = false) :
    s.accept m d k = s.count .verieliAddrRefused (.mbox m) := by
  simp [State.accept, hm, haddr]

theorem State.accept_malformed (haddr : s.addrOk m d.srcAddr = true) (hform : s.formOk m d.octets = false) :
    s.accept m d k = s.count .verieliMalformed (.mbox m) := by
  simp [State.accept, haddr, hform]

theorem State.accept_authFail (haddr : s.addrOk m d.srcAddr = true) (hform : s.formOk m d.octets = true) (hauth : s.mboxAuth m = true)
    (hmac : ¬ s.macGood m d.octets) : s.accept m d k = s.count .verieliAuthFail (.mbox m) := by
  have hne : s.macOf m (d.octets.take (d.octets.length - 16)) ≠ d.octets.drop (d.octets.length - 16) := by
    simpa [State.macOf, hauth] using fun h => hmac h.symm
  simp [State.accept, haddr, hform, hauth, hne]

theorem State.macOf_of_good (hauth : s.mboxAuth m = true) (hmac : s.macGood m d.octets) :
    s.macOf m (d.octets.take (d.octets.length - 16)) = d.octets.drop (d.octets.length - 16) := by
  simpa [State.macOf, hauth] using hmac.symm

theorem State.accept_fresh (haddr : s.addrOk m d.srcAddr = true) (hform : s.formOk m d.octets = true) (hauth : s.mboxAuth m = true)
    (hmac : s.macGood m d.octets) (hfresh : freshSeq (s.mb m).high (s.mb m).bitmap (beField d.octets 8 8) = true) :
    s.accept m d k = (s.spend m (beField d.octets 8 8)).acceptRequest m (requestOf s m d) k := by
  simp [State.accept, haddr, hform, hauth, State.macOf_of_good hauth hmac, hfresh]

theorem State.accept_replay (haddr : s.addrOk m d.srcAddr = true) (hform : s.formOk m d.octets = true) (hauth : s.mboxAuth m = true)
    (hmac : s.macGood m d.octets) (hold : freshSeq (s.mb m).high (s.mb m).bitmap (beField d.octets 8 8) = false)
    (hnone : ∀ c ∈ (s.mb m).last8, c.seq.toNat ≠ beField d.octets 8 8) : s.accept m d k = s.count .verieliReplay (.mbox m) := by
  have hfind : (s.mb m).last8.find? (fun c => c.seq.toNat == beField d.octets 8 8) = none := by
    simpa using hnone
  simp [State.accept, haddr, hform, hauth, State.macOf_of_good hauth hmac, hold, hfind]

/-! ## Acceptance at idle mailboxes -/

/-- No mailbox runs a command, has ended one, or has a request waiting. -/
def State.MailIdle (s : State) : Prop :=
  ∀ j, j < 8 → (s.mb j).busy = none ∧ (s.mb j).ended = none ∧ s.order (orderKey (388 + j) 0) = []

theorem State.isBusy_of_idle (hidle : s.MailIdle) (hm : m < 8) (cls : CmdClass) (k : Nat) : s.isBusy m cls k = false := by
  have hheavy : ∀ j, j < 8 → s.heavy j = none := fun j hj => by
    obtain ⟨hbusy, -, horder⟩ := hidle j hj
    simp [State.heavy, hbusy, horder]
  have hended : ∀ j, j < 8 → s.endedSince j k = none := fun j hj => by
    obtain ⟨-, hend, -⟩ := hidle j hj
    simp [State.endedSince, hend]
  have hothers : ∀ j ∈ List.range 8, s.heavy j = none ∧ s.endedSince j k = none := fun j hj =>
    ⟨hheavy j (List.mem_range.1 hj), hended j (List.mem_range.1 hj)⟩
  simp only [State.isBusy, hheavy m hm, hended m hm, Option.isSome_none, Bool.false_or, List.any_eq_false]
  intro j hj
  obtain ⟨hh, he⟩ := hothers j hj
  simp [hh, he]

theorem State.mb_spend (s : State) (m j q : Nat) : (s.spend m q).mb j = if j = m then { s.mb m with
    high := (acceptSeq (s.mb m).high (s.mb m).bitmap q).1, bitmap := (acceptSeq (s.mb m).high (s.mb m).bitmap q).2 } else s.mb j := by
  simp [State.spend, State.mb, State.setMb, Tbl.getD_set]

theorem State.mailIdle_spend (hidle : s.MailIdle) (m q : Nat) : (s.spend m q).MailIdle := by
  intro j hj
  obtain ⟨hbusy, hend, horder⟩ := hidle j hj
  rw [State.mb_spend]
  split
  · rename_i h
    subst h
    exact ⟨hbusy, hend, horder⟩
  · exact ⟨hbusy, hend, horder⟩

theorem State.acceptRequest_posts {r : Request} {c : CmdClass} {v : State} (hidle : s.MailIdle) (hm : m < 8) (hstump : s.life.mode ≠ .stump)
    (hc : cmdClass r.opcode = some c) (hpost : s.post (388 + m) 0 0 (48 + r.payload.length) (.request r) = some v) :
    s.acceptRequest m r k = v := by
  simp [State.acceptRequest, State.isBusy_of_idle hidle hm, hc, hstump, hpost]

/-- A request that is posted is the last of its order. -/
theorem State.order_post {q f w n : Nat} {c : Content} {v : State} (hpost : s.post q f w n c = some v) :
    ∃ p : Packet, v.order (orderKey q f) = s.order (orderKey q f) ++ [p] ∧ p.content = c := by
  unfold State.post at hpost
  dsimp only at hpost
  split at hpost
  · cases hpost
  · split at hpost
    · cases hpost
    · rename_i u hu
      cases hpost
      refine ⟨u.newPacket (accountOf q w) (cellsOf n) c [], ((State.order_commitTo _ _ _ _ _ _ _).trans (if_pos rfl)).trans ?_, rfl⟩
      rw [(State.grant_some hu).1]
      rfl

theorem State.frontReq_post {r : Request} {n : Nat} {v : State} (hempty : s.order (orderKey (388 + m) 0) = [])
    (hpost : s.post (388 + m) 0 0 n (.request r) = some v) : v.frontReq m = some r := by
  obtain ⟨p, horder, hcontent⟩ := State.order_post hpost
  rw [hempty] at horder
  simp [State.frontReq, State.nextRequest, horder, hcontent]

end

/-- Settles O19: the window by where a seq lies from H; a datagram by the first check that fails; an acceptance by what spending its seq and
posting it leave. -/
theorem requestsReplayedCheckedAccepted : Obligations.RequestsReplayedCheckedAccepted := by
  unfold Obligations.RequestsReplayedCheckedAccepted
  refine ⟨fun h b q hq => ⟨freshSeq_zero h b, freshSeq_above, freshSeq_below, fun _ => ⟨freshSeq_acceptSeq_self hq, toNat_acceptSeq hq,
    fun p _ _ hp => (freshSeq_acceptSeq hq hp).2⟩⟩, fun dt m d s => ?_, fun dt m d s v c => ?_⟩
  · intro t o hm hopen hpause hauth
    have hexec : exec (.verieliRequest dt m d) s = .next (t.accept m d t.clk) :=
      congrArg Host.Outcome.next (State.datagram_examined hm hopen hpause)
    rw [hexec]
    exact ⟨fun haddr => congrArg _ (State.accept_addrRefused hm haddr), fun haddr hform => congrArg _ (State.accept_malformed haddr hform),
      fun haddr hform hmac => congrArg _ (State.accept_authFail haddr hform hauth hmac),
      fun haddr hform hmac hold hnone => congrArg _ (State.accept_replay haddr hform hauth hmac hold hnone)⟩
  · intro t o r q hm hopen hpause hauth hstump haddr hform hmac hfresh hc hidle hpost
    have haccept : t.accept m d t.clk = v := by
      rw [State.accept_fresh haddr hform hauth hmac hfresh]
      exact State.acceptRequest_posts (State.mailIdle_spend hidle m q) m.isLt hstump hc hpost
    obtain ⟨-, -, hempty⟩ := State.mailIdle_spend hidle m q m m.isLt
    have hkeeps := State.sansQueues_post hpost
    have hhw : v.hw = (t.spend m q).hw := (congrArg State.hw hkeeps :)
    have hmbox : v.mb m = (t.spend m q).mb m := (congrArg (State.mb · m) hkeeps :)
    refine ⟨congrArg Host.Outcome.next ((State.datagram_examined hm hopen hpause).trans haccept), State.frontReq_post hempty hpost, ?_, ?_⟩
    · rw [hhw]
      exact Tbl.get_set_self _ _ _
    · rw [hmbox, State.mb_spend, if_pos rfl]
      exact freshSeq_acceptSeq_self (beField_lt o 8 8)

end Sys2Proof.Machine

namespace Sys2Proof.Machine

/-! # Event messages, EVENT-ACK and EVENT-SUBSCRIBE (R446), and O21 -/

/-- A message that is committed writes no mailbox. -/
@[simp] theorem State.mb_commitMsg (s : State) (m : Nat) (g : Msg) (ev : List (BitVec 32)) (j : Nat) : (s.commitMsg m g ev).mb j = s.mb j := by
  unfold State.commitMsg
  repeat' split
  case h_1 t ht => exact (congrArg (State.mb · j) (State.sansQueues_post ht) :)
  all_goals rfl

theorem State.mb_setMb_self (s : State) (m : Nat) (b : MboxSt) : (s.setMb m b).mb m = b := by
  simp [State.mb, State.setMb, Tbl.getD_set]

theorem State.mb_takeSeq (s : State) (m : Nat) :
    ((s.takeSeq m).2.mb m).ring = (s.mb m).ring ∧ ((s.takeSeq m).2.mb m).seq = (s.mb m).seq + 1 := by
  unfold State.takeSeq
  dsimp only
  split <;> exact ⟨by simp [State.mb, State.setMb, Tbl.getD_set], by simp [State.mb, State.setMb, Tbl.getD_set]⟩

/-- The events a message carries are marked, and stay in the ring. -/
def marksSent (l : List RingEvent) (e : RingEvent) : RingEvent :=
  if (l.take 16).any (fun x => x.seq == e.seq) then { e with sent := true } else e

/-- Mailbox m has sent the first of the events `l`. -/
def State.SentEvents (s : State) (m : Nat) (l : List RingEvent) (u : State) : Prop :=
  (u.mb m).ring = (s.mb m).ring.map (marksSent l) ∧ (u.mb m).lastSend = s.clk ∧ (u.mb m).lostFlag = false ∧ (u.mb m).seq = (s.mb m).seq + 1

theorem State.sentEvents_sendEvents (s : State) (m : Nat) (l : List RingEvent) (addr : BitVec 128) (port : BitVec 16) :
    s.SentEvents m l (s.sendEvents m l addr port) := by
  obtain ⟨hring, hseq⟩ := s.mb_takeSeq m
  have hmarks : (fun e : RingEvent => if ((l.take 16).map fun r => r.seq).contains e.seq then { e with sent := true } else e) = marksSent l := by
    funext e
    simp only [marksSent, List.contains_eq_any_beq, List.any_map, Function.comp_def, BEq.comm]
  unfold State.SentEvents State.sendEvents
  simp only [State.mb_commitMsg, State.mb_setMb_self, hring, hseq, hmarks, and_self]

section
variable {s : State} {m : Nat}

theorem State.sendNew_sends (hopen : (s.mb m).isOpen = true) (hrun : s.mailboxesRun = true) (hsub : s.subscribed m = true)
    (hnews : (s.mb m).ring.filter (fun e => !e.sent) ≠ []) :
    s.sendNew m = s.sendEvents m ((s.mb m).ring.filter fun e => !e.sent) (s.mb m).subAddr (s.mb m).subPort := by
  have hne : ((s.mb m).ring.filter fun e => !e.sent).isEmpty = false := by
    simpa only [List.isEmpty_eq_false_iff] using hnews
  simp only [State.sendNew, hopen, hrun, hsub, hne, Bool.not_true, Bool.or_self, Bool.false_eq_true, if_false]

theorem State.sendNew_none (hnews : (s.mb m).ring.filter (fun e => !e.sent) = []) : s.sendNew m = s := by
  simp only [State.sendNew, hnews, List.isEmpty_nil, Bool.or_true, if_true]

theorem State.sendAgain_sends (hm : m ≠ 0) (hopen : (s.mb m).isOpen = true) (hrun : s.mailboxesRun = true) (hsub : s.subscribed m = true)
    (holds : (s.mb m).ring.filter (fun e => e.sent) ≠ []) (hclk : (s.mb m).lastSend + 500000000 ≤ s.clk) :
    s.sendAgain m = s.sendEvents m ((s.mb m).ring.filter fun e => e.sent) (s.mb m).subAddr (s.mb m).subPort := by
  have hne : ((s.mb m).ring.filter fun e => e.sent).isEmpty = false := by
    simpa only [List.isEmpty_eq_false_iff] using holds
  have hdue : decide (s.clk < (s.mb m).lastSend + secTicks 2) = false := decide_eq_false (Nat.not_lt.2 hclk)
  simp [State.sendAgain, hm, hopen, hrun, hsub, hne, hdue]

/-! ## The two commands -/

variable {r : Request}

theorem exec_eventAck {dt : Nat} {m : Mbox} (h : (s.tick dt).runsLen m 0x0804 4 r) :
    exec (.eventAck dt m) s = .next (((s.tick dt).afterReq m).eventAck m r) :=
  congrArg Host.Outcome.next (State.shortCmd_of_runsLen h _)

theorem exec_eventSubscribe {dt : Nat} {m : Mbox} (h : (s.tick dt).runsLen m 0x0805 18 r) :
    let t := (s.tick dt).afterReq m
    exec (.eventSubscribe dt m) s = .next (State.respond (t.setMb m { t.mb m with
      subAddr := BitVec.ofNat 128 (beField r.payload 0 16), subPort := BitVec.ofNat 16 (beField r.payload 16 2) }) m r sOk []) :=
  congrArg Host.Outcome.next (State.shortCmd_of_runsLen h _)

/-- The events as they are answered: the first tells of a loss before it. -/
def firstLost (lost : Bool) : List RingEvent → List RingEvent
  | e :: t => { e with lost := e.lost || lost } :: t
  | [] => []

theorem length_firstLost (lost : Bool) (l : List RingEvent) : (firstLost lost l).length = l.length := by
  cases l <;> rfl

theorem map_ev_firstLost (lost : Bool) (l : List RingEvent) : ((firstLost lost l).map fun e => e.ev) = l.map fun e => e.ev := by
  cases l <;> rfl

/-- EVENT-ACK answers the events that stay, on the state whose ring holds these only. -/
theorem State.eventAck_answers (s : State) (m : Nat) (r : Request) : ∃ (u : State) (l : List RingEvent),
    s.eventAck m r = u.respond m r sOk (toBe 1 l.length ++ l.flatMap eventRecord) ∧
      (u.mb m).ring = (s.mb m).ring.filter (fun e => decide (beField r.payload 0 4 < e.seq.toNat)) ∧
      l = firstLost (s.mb m).lostFlag ((u.mb m).ring.take 16) ∧ u.tally = s.tally := by
  let rest := (s.mb m).ring.filter fun e => decide (beField r.payload 0 4 < e.seq.toNat)
  refine ⟨s.setMb m { s.mb m with ring := rest, lostFlag := if (rest.take 16).isEmpty then (s.mb m).lostFlag else false },
    firstLost (s.mb m).lostFlag (rest.take 16), ?_, ?_, ?_, rfl⟩
  · unfold State.eventAck
    dsimp only
    cases rest.take 16 <;> rfl
  · rw [State.mb_setMb_self]
  · rw [State.mb_setMb_self]

end

/-- Settles O21: the events a message takes are marked by `sendEvents`; EVENT-ACK by what stays in the ring. -/
theorem eventsAndTheirCommands : Obligations.EventsAndTheirCommands := by
  unfold Obligations.EventsAndTheirCommands
  refine ⟨fun dt m s => ?_, fun dt m s r => ⟨fun h => ?_, exec_eventSubscribe⟩⟩
  · intro t b news olds sent hopen hrun hsub
    refine ⟨fun hnews => ?_, fun hnews => congrArg Host.Outcome.next (State.sendNew_none hnews), fun hm holds hclk => ?_⟩
    · exact ⟨_, congrArg Host.Outcome.next (State.sendNew_sends hopen hrun hsub hnews), t.sentEvents_sendEvents m news _ _⟩
    · exact ⟨_, congrArg Host.Outcome.next (State.sendAgain_sends hm hopen hrun hsub holds hclk), t.sentEvents_sendEvents m olds _ _⟩
  · obtain ⟨u, l, hexec, hring, hl, htally⟩ := ((s.tick dt).afterReq m).eventAck_answers m r
    refine ⟨u, l, (exec_eventAck h).trans (congrArg _ hexec), hring, ?_, ?_, htally⟩
    · rw [hl, length_firstLost, List.length_take]
    · rw [hl, map_ev_firstLost]

end Sys2Proof.Machine

namespace Sys2Proof.Machine

/-! # FINAL_RESPONSE and the end of a forwarding pause (R20 to R22, R434, R485, R486), and O23 -/

/-! ## Forwarding goes on -/

theorem State.held_accept (s : State) (m : Nat) (d : Datagram) (k : Nat) : (s.accept m d k).held = s.held :=
  Comp.same_of_sans (c := .held) (State.sans_accept (cs := [.ceilings, .heart, .tally, .mbox, .cells, .orders, .queues, .back]) rfl s m d k)
    (by decide)

theorem State.held_releaseChain (s : State) (a n : Nat) (l : List Nat) : (s.releaseChain a n l).held = s.held :=
  (congrArg State.held (s.releaseChain_frame a n l).2.2 :)

theorem State.held_releaseHeld (s : State) : s.releaseHeld.held = [] :=
  foldl_keeps _ State.held (fun t _ => (State.held_accept _ _ _ _).trans (t.held_releaseChain _ _ _)) s.held { s with held := [] }

/-- No pause stands, and no datagram waits. -/
def State.Forwards (u : State) : Prop := u.life.pause = none ∧ u.held = []

theorem State.forwards_resume (s : State) : s.resume.Forwards := by
  refine ⟨?_, State.held_releaseHeld _⟩
  unfold State.resume
  rw [(State.boot_releaseHeld _).1, (State.boot_almResume _).1]

/-! ## The ends of an operation -/

section
variable {s : State} {m : Nat} {b : Busy} {ok : Bool}

theorem State.inPause_of_none (h : s.life.pause = none) : s.inPause = false := by
  simp [State.inPause, h]

theorem State.inPause_of_some {k : Nat} (h : s.life.pause = some k) : s.inPause = decide (k ≤ s.clk) := by
  simp [State.inPause, h]

/-- Opcodes whose end has an effect of its own, or waits for a port. -/
def Busy.plain (b : Busy) : Prop := b.req.opcode ∉ [0x0304, 0x0305, 0x0702]

theorem State.outcome_plain (hb : b.plain) : s.outcome b = (b.status, b.result, s) := by
  simp only [Busy.plain, List.mem_cons, List.not_mem_nil, or_false, not_or] at hb
  obtain ⟨hflush, hrehash, -⟩ := hb
  simp only [State.outcome, hflush, hrehash, if_false]

theorem State.changing_plain (hb : b.plain) : s.changing b = false := by
  simp only [Busy.plain, List.mem_cons, List.not_mem_nil, or_false, not_or] at hb
  obtain ⟨-, -, hspeed⟩ := hb
  simp [State.changing, hspeed]

/-- Outside a pause an operation that is no activation ends with its kept outcome. -/
theorem State.finalResponse_plain (hbusy : (s.mb m).busy = some b) (hb : b.plain)
    (hfree : s.life.pause = none ∨ s.inPause = false ∧ b.req.opcode ≠ 0x0214 ∧ b.req.opcode ≠ 0x0204) :
    s.finalResponse m ok = s.finish m b b.status b.result := by
  simp only [State.finalResponse, hbusy, State.changing_plain hb, State.outcome_plain hb]
  cases hpause : s.life.pause with
  | none => rfl
  | some k =>
    obtain ⟨hout, hfw, hcfg⟩ := hfree.resolve_left (by simp [hpause])
    simp [hout, hfw, hcfg]

/-- An activation waits for its pause. -/
theorem State.finalResponse_waits (hbusy : (s.mb m).busy = some b) (hpause : s.life.pause ≠ none) (hout : s.inPause = false)
    (hop : b.req.opcode = 0x0214 ∨ b.req.opcode = 0x0204) : s.finalResponse m ok = s := by
  obtain ⟨k, hk⟩ := Option.ne_none_iff_exists'.1 hpause
  have hearly : ¬ k ≤ s.clk := by simpa [State.inPause_of_some hk] using hout
  simp only [State.finalResponse, hbusy, hk, hop, if_true, hearly, if_false]

/-- In its pause it ends. -/
theorem State.finalResponse_activation (hbusy : (s.mb m).busy = some b) (hin : s.inPause = true)
    (hop : b.req.opcode = 0x0214 ∨ b.req.opcode = 0x0204) : ∃ k, s.finalResponse m ok = s.endActivation m b k ok := by
  cases hk : s.life.pause with
  | none => simp [State.inPause_of_none hk] at hin
  | some k =>
    have hdue : k ≤ s.clk := by simpa [State.inPause_of_some hk] using hin
    exact ⟨k, by simp only [State.finalResponse, hbusy, hk, hop, if_true, hdue]⟩

/-- No other operation does. -/
theorem State.finalResponse_other (hbusy : (s.mb m).busy = some b) (hin : s.inPause = true) (hfw : b.req.opcode ≠ 0x0214)
    (hcfg : b.req.opcode ≠ 0x0204) : s.finalResponse m ok = s := by
  cases hk : s.life.pause with
  | none => simp [State.inPause_of_none hk] at hin
  | some k => simp [State.finalResponse, hbusy, hk, hfw, hcfg, hin]

theorem State.forwards_endActivation (s : State) (m : Nat) (b : Busy) (k : Nat) : (s.endActivation m b k true).Forwards := by
  unfold State.endActivation
  dsimp only
  split
  · exact State.forwards_resume _
  · exact State.forwards_resume _

/-- A firmware whose hand-off fails begins anew. -/
theorem State.mode_endActivation (s : State) (m : Nat) {b : Busy} (k : Nat) (hop : b.req.opcode = 0x0214) :
    (s.endActivation m b k false).life.mode = .reset := by
  unfold State.endActivation
  dsimp only
  rw [if_pos hop]
  rfl

end

/-- Settles O23: by whether a pause stands, and whether the operation is the activation that made it. -/
theorem finalResponseEnds : Obligations.FinalResponseEnds := by
  unfold Obligations.FinalResponseEnds
  intro dt m s b t hbusy
  refine ⟨fun hfree hb => congrArg Host.Outcome.next (State.finalResponse_plain hbusy hb hfree),
    fun hpause hout hop => congrArg Host.Outcome.next (State.finalResponse_waits hbusy hpause hout hop), fun hin hop => ?_, fun hin hop => ?_,
    fun hin hfw hcfg => congrArg Host.Outcome.next (State.finalResponse_other hbusy hin hfw hcfg)⟩
  · obtain ⟨k, hends⟩ := State.finalResponse_activation hbusy hin hop
    exact ⟨_, congrArg Host.Outcome.next hends, State.forwards_endActivation _ _ _ _⟩
  · obtain ⟨k, hends⟩ := State.finalResponse_activation hbusy hin (.inl hop)
    exact ⟨_, congrArg Host.Outcome.next hends, State.mode_endActivation _ _ _ hop⟩

end Sys2Proof.Machine

namespace Sys2Proof.Machine

/-! # RF tests (R443), and O51 -/

theorem exec_rfTestStart {dt : Nat} {m : Mbox} {s : State} {r : Request} (h : (s.tick dt).runsLen m 0x0711 11 r) :
    exec (.rfTestStart dt m) s = .next (((s.tick dt).afterReq m).rfTestStart m r) :=
  congrArg Host.Outcome.next (State.shortCmd_of_runsLen h _)

theorem exec_rfTestStop {dt : Nat} {m : Mbox} {s : State} {r : Request} (h : (s.tick dt).runsLen m 0x0712 1 r) :
    exec (.rfTestStop dt m) s = .next (((s.tick dt).afterReq m).rfTestStop m r) :=
  congrArg Host.Outcome.next (State.shortCmd_of_runsLen h _)

/-- The test that a request's arguments describe. -/
def State.requestedTest (s : State) (p : Octets) : RfTest where
  mode := beField p 1 1
  channel := beField p 2 1
  airMode := beField p 3 1
  rate := beField p 4 1
  port := beField p 5 1
  power := signed 8 (beField p 6 1)
  burst := beField p 7 2
  stopClk := s.clk + secTicks (beField p 9 2)
  bursts := 0
  framesOk := 0
  levelSum := 0

/-- The front end in test, with what the MAC attempted on it withdrawn. -/
def State.enterTest (s : State) (f : Fe) (x : RfTest) : State :=
  (s.clearAttempt f).setFe f { (s.clearAttempt f).feSt f with rfTest := some x }

theorem State.rfTest_enterTest (s : State) (f : Fe) (x : RfTest) : ((s.enterTest f x).feSt f).rfTest = some x := by
  simp [State.enterTest]

theorem State.rfTest_leaveTest (s : State) (f : Fe) : ((s.leaveTest f).feSt f).rfTest = none := by
  simp [State.leaveTest]

section
variable {s : State} {r : Request} {f : Fe} (m : Nat)

/-! ## RF-TEST-START -/

theorem State.rfTestStart_noFe (hf : feOf (beField r.payload 0 1) = none) : s.rfTestStart m r = s.respond m r sRange [] := by
  simp only [State.rfTestStart, hf]

theorem State.rfTestStart_state (hf : feOf (beField r.payload 0 1) = some f) (h : s.feMode f = .off ∨ (s.feSt f).rfTest ≠ none) :
    s.rfTestStart m r = s.respond m r sState [] := by
  have hout : (s.feMode f == .off || (s.feSt f).rfTest.isSome) = true := by
    simpa [Option.isSome_iff_ne_none] using h
  simp only [State.rfTestStart, hf, hout, if_true]

/-- A front end that is neither OFF nor in test takes a start whose arguments lie in their ranges. -/
theorem State.rfTestStart_judged (hf : feOf (beField r.payload 0 1) = some f) (hon : s.feMode f ≠ .off) (hfree : (s.feSt f).rfTest = none) :
    s.rfTestStart m r = if s.testRange f r.payload then (s.enterTest f (s.requestedTest r.payload)).respond m r sOk []
      else s.respond m r sRange [] := by
  have hin : (s.feMode f == .off || (s.feSt f).rfTest.isSome) = false := by
    simpa [hfree] using hon
  simp only [State.rfTestStart, hf, hin]
  cases s.testRange f r.payload <;> rfl

/-! ## RF-TEST-STOP, and the end of the duration -/

theorem State.rfTestStop_noFe (hf : feOf (beField r.payload 0 1) = none) : s.rfTestStop m r = s.respond m r sRange [] := by
  simp only [State.rfTestStop, hf]

theorem State.rfTestStop_state (hf : feOf (beField r.payload 0 1) = some f) (hfree : (s.feSt f).rfTest = none) :
    s.rfTestStop m r = s.respond m r sState [] := by
  simp only [State.rfTestStop, hf, hfree]

theorem State.rfTestStop_stops {x : RfTest} (hf : feOf (beField r.payload 0 1) = some f) (hx : (s.feSt f).rfTest = some x) :
    s.rfTestStop m r = (s.leaveTest f).respond m r sOk (toBe 4 x.bursts ++ toBe 4 x.framesOk ++ toBe 2 (x.levelSum / x.framesOk)) := by
  simp only [State.rfTestStop, hf, hx]

theorem State.testEnd_of_test {x : RfTest} (hx : (s.feSt f).rfTest = some x) :
    s.testEnd f = if x.stopClk ≤ s.clk then s.leaveTest f else s := by
  simp only [State.testEnd, hx]

end

/-- Settles O51: each command and the end by their branches. -/
theorem rfTests : Obligations.RfTests := by
  unfold Obligations.RfTests
  intro dt m s r f x t v
  refine ⟨fun hf => ⟨fun h => (exec_rfTestStart h).trans (congrArg _ (State.rfTestStart_noFe m hf)),
      fun h => (exec_rfTestStop h).trans (congrArg _ (State.rfTestStop_noFe m hf))⟩,
    fun h hf => ⟨fun hon hfree hrange => ?_, fun hon hfree hrange => ?_, fun hout => ?_⟩, fun h hf => ⟨fun hx => ?_, fun hfree => ?_⟩,
    fun hx hclk => ?_, fun hx hclk => ?_⟩
  · exact (exec_rfTestStart h).trans (congrArg _ ((State.rfTestStart_judged m hf hon hfree).trans (if_neg (by simp [hrange]))))
  · refine ⟨_, t.requestedTest r.payload, (exec_rfTestStart h).trans (congrArg _ ((State.rfTestStart_judged m hf hon hfree).trans (if_pos hrange))),
      State.rfTest_enterTest _ _ _, rfl, rfl, rfl, ?_, rfl, rfl⟩
    exact congrArg (t.clk + ·) (Nat.mul_comm _ _)
  · exact (exec_rfTestStart h).trans (congrArg _ (State.rfTestStart_state m hf hout))
  · exact ⟨_, (exec_rfTestStop h).trans (congrArg _ (State.rfTestStop_stops m hf hx)), State.rfTest_leaveTest _ _⟩
  · exact (exec_rfTestStop h).trans (congrArg _ (State.rfTestStop_state m hf hfree))
  · exact ⟨_, congrArg Host.Outcome.next ((State.testEnd_of_test hx).trans (if_pos hclk)), State.rfTest_leaveTest _ _⟩
  · exact congrArg Host.Outcome.next ((State.testEnd_of_test hx).trans (if_neg (Nat.not_le.2 hclk)))

end Sys2Proof.Machine

namespace Sys2Proof.Machine

/-! # The directory of the boot flash and the ends of a trial (R35 to R37, R44, R482), and O14 -/

/-! ## Octets of a directory record (Table 2.7) -/

theorem leNat_toLe (n v : Nat) : leNat (toLe n v) = v % 256 ^ n := by
  induction n generalizing v with
  | zero => simp [toLe, leNat, Nat.mod_one]
  | succ n ih => rw [toLe, leNat, ih, BitVec.toNat_ofNat, show 256 ^ (n + 1) = 256 * 256 ^ n from Nat.pow_succ', Nat.mod_mul]

theorem crc32Step_lt {c b : Nat} (hc : c < 2 ^ 32) (hb : b < 2 ^ 32) : crc32Step c b < 2 ^ 32 := by
  refine List.foldlRecOn (motive := fun a => a < 2 ^ 32) (List.range 8) _ (Nat.xor_lt_two_pow hc hb) fun a ha _ _ => ?_
  split
  · omega
  · exact Nat.xor_lt_two_pow (by omega) (by decide)

theorem crc32_lt {l : List Nat} (h : ∀ x ∈ l, x < 256) : crc32 l < 2 ^ 32 :=
  Nat.xor_lt_two_pow (List.foldlRecOn (motive := fun a => a < 2 ^ 32) l _ (by decide) fun _ ha x hx => crc32Step_lt ha ((h x hx).trans (by decide)))
    (by decide)

theorem octNats_lt {o : Octets} {x : Nat} (hx : x ∈ octNats o) : x < 256 := by
  obtain ⟨b, -, rfl⟩ := List.mem_map.1 hx
  exact b.isLt

/-- Reads a record as Table 2.7 lays it out. -/
theorem dirRead_octets {m : List Host.Cell} {i : Nat} {d : DirRec} (h : flashRange m (dirBase i) 32 = d.octets) (hfw : d.fw ≤ 1) (hcfg : d.cfg ≤ 1) :
    dirRead m i = some d := by
  have hmagic : leField d.octets 0 4 = 0x52494445 := leNat_toLe 4 _
  have hcrc : leField d.octets 28 4 = crc32 (octNats (d.octets.take 28)) :=
    (leNat_toLe 4 _).trans (Nat.mod_eq_of_lt (crc32_lt fun _ => octNats_lt))
  have hseq : leField d.octets 4 4 = d.seq.toNat := (leNat_toLe 4 _).trans (Nat.mod_eq_of_lt d.seq.isLt)
  have hb8 : leField d.octets 8 1 = d.fw := (leNat_toLe 1 _).trans (Nat.mod_eq_of_lt (by omega))
  have hb9 : leField d.octets 9 1 = d.cfg := (leNat_toLe 1 _).trans (Nat.mod_eq_of_lt (by omega))
  have hb10 : leField d.octets 10 1 = if d.fwTrial then 1 else 0 := (leNat_toLe 1 _).trans (by split <;> rfl)
  have hb11 : leField d.octets 11 1 = if d.cfgTrial then 1 else 0 := (leNat_toLe 1 _).trans (by split <;> rfl)
  have hpad : allZero (sliceOct d.octets 12 16) = true := rfl
  unfold dirRead
  simp only [h, hmagic, ← hcrc, hb8, hb9, hb10, hb11, hpad, hseq, hfw, hcfg]
  obtain ⟨seq, fw, cfg, fwTrial, cfgTrial⟩ := d
  cases fwTrial <;> cases cfgTrial <;> simp

/-! ## The sector written, and the record chosen -/

/-- Which sector is chosen, and what it holds. -/
theorem dirChoose_cases (m : List Host.Cell) : (dirChoose m = none ∧ dirRead m 0 = none ∧ dirRead m 1 = none) ∨
    (∃ d, dirChoose m = some (0, d) ∧ dirRead m 0 = some d) ∨ ∃ d, dirChoose m = some (1, d) ∧ dirRead m 1 = some d := by
  unfold dirChoose
  cases h0 : dirRead m 0 with
  | none =>
    cases h1 : dirRead m 1 with
    | none => exact .inl ⟨rfl, rfl, rfl⟩
    | some b => exact .inr (.inr ⟨b, rfl, rfl⟩)
  | some a =>
    cases h1 : dirRead m 1 with
    | none => exact .inr (.inl ⟨a, rfl, rfl⟩)
    | some b =>
      dsimp only
      split
      · exact .inr (.inr ⟨b, rfl, rfl⟩)
      · exact .inr (.inl ⟨a, rfl, rfl⟩)

/-- The sector a directory write goes to. -/
def dirTarget (m : List Host.Cell) : Nat :=
  match dirChoose m with
  | some p => 1 - p.1
  | none => 0

/-- The record it writes. -/
def State.nextDir (s : State) (f : DirRec → DirRec) : DirRec := { f s.dir with seq := s.dir.seq + 1 }

theorem State.flash_writeDir (s : State) (f : DirRec → DirRec) : (s.writeDir f).flash =
    flashProgram (flashErase s.flash (dirBase (dirTarget s.flash)) 0x10000) (dirBase (dirTarget s.flash)) (s.nextDir f).octets := by
  cases h : dirChoose s.flash <;> simp only [State.writeDir, dirTarget, State.nextDir, h]

/-- A directory write touches the flash only. -/
theorem State.writeDir_fields (s : State) (f : DirRec → DirRec) :
    (s.writeDir f).life = s.life ∧ (s.writeDir f).hw = s.hw ∧ (s.writeDir f).clk = s.clk := by
  simp only [State.writeDir, and_self]

theorem dirBase_le (i : Nat) : dirBase i ≤ 0x10000 := by
  unfold dirBase
  split <;> decide

section
variable {s : State} {f : DirRec → DirRec}

/-- Octets outside the sector stand. -/
theorem State.flashByte_writeDir (hok : s.flashOk) {k : Nat}
    (hk : k < dirBase (dirTarget s.flash) ∨ dirBase (dirTarget s.flash) + 0x10000 ≤ k) :
    flashByte (s.writeDir f).flash k = flashByte s.flash k := by
  have hlen : (s.nextDir f).octets.length = 32 := rfl
  rw [State.flash_writeDir, flashByte_program_out (flashWf_erase hok) (by omega), flashByte_erase_out hok hk]

/-- The sector written reads as the new record. -/
theorem State.dirRead_target (hok : s.flashOk) (hfw : (f s.dir).fw ≤ 1) (hcfg : (f s.dir).cfg ≤ 1) :
    dirRead (s.writeDir f).flash (dirTarget s.flash) = some (s.nextDir f) := by
  have hlen : (s.nextDir f).octets.length = 32 := rfl
  refine dirRead_octets ?_ hfw hcfg
  rw [State.flash_writeDir, ← hlen]
  refine (flashRange_eq_iff (flashWf_program (flashWf_erase hok))).2 fun k hk => ?_
  rw [flashByte_program_erased hok (by omega) (by omega), if_pos (by omega), Nat.add_sub_cancel_left]

/-- The other reads as before. -/
theorem State.dirRead_other (hok : s.flashOk) {i : Nat} (hi : dirBase i + 0x10000 ≤ dirBase (dirTarget s.flash) ∨
    dirBase (dirTarget s.flash) + 0x10000 ≤ dirBase i) : dirRead (s.writeDir f).flash i = dirRead s.flash i := by
  have hrange : flashRange (s.writeDir f).flash (dirBase i) 32 = flashRange s.flash (dirBase i) 32 := by
    rw [flashRange_eq (State.flashWf_writeDir hok), flashRange_eq hok]
    refine List.map_congr_left fun k hk => State.flashByte_writeDir hok ?_
    have := List.mem_range.1 hk
    omega
  unfold dirRead
  rw [hrange]

/-- The record written is the one chosen: its sequence follows that of the record in force. -/
theorem State.dirChoose_writeDir (hok : s.flashOk) (hfw : (f s.dir).fw ≤ 1) (hcfg : (f s.dir).cfg ≤ 1) :
    dirChoose (s.writeDir f).flash = some (dirTarget s.flash, s.nextDir f) := by
  have hnew := State.dirRead_target hok hfw hcfg
  rcases dirChoose_cases s.flash with ⟨hchoose, -, hread⟩ | ⟨d, hchoose, hread⟩ | ⟨d, hchoose, hread⟩
  · have htarget : dirTarget s.flash = 0 := by simp only [dirTarget, hchoose]
    have hother := (State.dirRead_other (f := f) hok (i := 1) (by rw [htarget]; decide)).trans hread
    rw [htarget] at hnew ⊢
    simp only [dirChoose, hnew, hother]
  · have htarget : dirTarget s.flash = 1 := by simp only [dirTarget, hchoose]
    have hother := (State.dirRead_other (f := f) hok (i := 0) (by rw [htarget]; decide)).trans hread
    have hseq : ((s.nextDir f).seq - d.seq).toNat = 1 := by
      have hd : s.dir = d := by simp only [State.dir, hchoose]
      simp [State.nextDir, hd]
    rw [htarget] at hnew ⊢
    simp [dirChoose, hnew, hother, hseq]
  · have htarget : dirTarget s.flash = 0 := by simp only [dirTarget, hchoose]
    have hother := (State.dirRead_other (f := f) hok (i := 1) (by rw [htarget]; decide)).trans hread
    have hseq : (d.seq - (s.nextDir f).seq).toNat = 2 ^ 32 - 1 := by
      have hd : s.dir = d := by simp only [State.dir, hchoose]
      have hback : d.seq - (d.seq + 1) = -1 := by ring
      rw [State.nextDir, hd, hback]
      rfl
    rw [htarget] at hnew ⊢
    simp [dirChoose, hnew, hother, hseq]

theorem State.dir_writeDir (hok : s.flashOk) (hfw : (f s.dir).fw ≤ 1) (hcfg : (f s.dir).cfg ≤ 1) : (s.writeDir f).dir = s.nextDir f := by
  simp only [State.dir, State.dirChoose_writeDir hok hfw hcfg]

end

/-! ## The two confirmations -/

theorem exec_fwConfirm {dt : Nat} {m : Mbox} {s : State} {r : Request} (late : Bool) (h : (s.tick dt).runsLen m 0x0215 0 r) :
    exec (.fwConfirm dt m late) s = .next (((s.tick dt).afterReq m).fwConfirm m r late) :=
  congrArg Host.Outcome.next (State.shortCmd_of_runsLen h _)

theorem exec_configConfirm {dt : Nat} {m : Mbox} {s : State} {r : Request} (late : Bool) (h : (s.tick dt).runsLen m 0x0205 0 r) :
    exec (.configConfirm dt m late) s = .next (((s.tick dt).afterReq m).cfgConfirm m r late) :=
  congrArg Host.Outcome.next (State.shortCmd_of_runsLen h _)

theorem State.rollback_raiseRollback (s : State) : s.hw.rollback.toNat ≤ s.raiseRollback.hw.rollback.toNat := by
  unfold State.raiseRollback
  dsimp only
  split
  · rename_i h
    exact (of_decide_eq_true (Bool.and_eq_true_iff.1 h).2).le
  · exact le_rfl

theorem State.floor_raiseFloor (s : State) : s.hw.floor.toNat ≤ s.raiseFloor.hw.floor.toNat := by
  unfold State.raiseFloor
  split
  · split
    · rename_i h
      exact (of_decide_eq_true (Bool.and_eq_true_iff.1 h).2).le
    · exact le_rfl
  · exact le_rfl

@[simp] theorem State.floors_begin (s : State) (m : Nat) (r : Request) (first : Octets) (st : Nat) (o : Octets) :
    (s.begin m r first st o).hw.floor = s.hw.floor ∧ (s.begin m r first st o).hw.rollback = s.hw.rollback :=
  have h := s.sansAnswer_begin m r first st o
  ⟨(congrArg (fun s : State => s.hw.floor) h :), (congrArg (fun s : State => s.hw.rollback) h :)⟩

/-- Mailbox m's command runs, and its kept status is `st`. -/
def State.KeepsStatus (u : State) (m : Nat) (r : Request) (st : Nat) : Prop := ∃ b, (u.mb m).busy = some b ∧ b.req = r ∧ b.status = st

theorem State.keepsStatus_begin (s : State) (m : Nat) (r : Request) (first : Octets) (st : Nat) (o : Octets) : (s.begin m r first st o).KeepsStatus m r st :=
  ⟨_, State.busy_begin s m r first st o, rfl, rfl⟩

section
variable {s : State} {r : Request} {i : Nat} (m : Nat)

theorem State.fwConfirm_noTrial {late : Bool} (hi : s.life.fwSlot = some i) (ht : s.life.fwTrial = false) :
    s.fwConfirm m r late = s.respond m r sState [] := by
  simp [State.fwConfirm, hi, ht]

theorem State.fwConfirm_late (hi : s.life.fwSlot = some i) (ht : s.life.fwTrial = true) :
    s.fwConfirm m r true = s.failDir.begin m r [] sFlash [] := by
  simp [State.fwConfirm, hi, ht]

/-- The firmware that runs is named confirmed, and its trial ends. -/
def State.fwConfirmed (s : State) (i : Nat) : State :=
  let t := s.writeDir fun d => { d with fw := i, fwTrial := false }
  { t with life := { t.life with fwTrial := false } }

theorem State.fwConfirmed_fields (s : State) (i : Nat) : (s.fwConfirmed i).life = { s.life with fwTrial := false } ∧
    (s.fwConfirmed i).flash = (s.writeDir fun d => { d with fw := i, fwTrial := false }).flash ∧ (s.fwConfirmed i).hw = s.hw :=
  by simp only [State.fwConfirmed, State.writeDir_fields, and_self]

theorem State.fwConfirm_confirms (hi : s.life.fwSlot = some i) (ht : s.life.fwTrial = true) :
    s.fwConfirm m r false = (s.fwConfirmed i).raiseRollback.begin m r [] sOk [] := by
  simp only [State.fwConfirm, hi, ht, Bool.not_true, Bool.false_eq_true, if_false]
  rfl

theorem State.cfgConfirm_noTrial {late : Bool} (hi : s.life.cfgSlot = some i) (ht : s.life.cfgTrial = false) :
    s.cfgConfirm m r late = s.respond m r sState [] := by
  simp [State.cfgConfirm, hi, ht]

theorem State.cfgConfirm_late (hi : s.life.cfgSlot = some i) (ht : s.life.cfgTrial = true) :
    s.cfgConfirm m r true = s.failDir.begin m r [] sFlash [] := by
  simp [State.cfgConfirm, hi, ht]

/-- The image that is applied is named confirmed, and its trial ends. -/
def State.cfgConfirmed (s : State) (i : Nat) : State :=
  let t := s.writeDir fun d => { d with cfg := i, cfgTrial := false }
  { t with life := { t.life with cfgTrial := false } }

theorem State.cfgConfirmed_fields (s : State) (i : Nat) : (s.cfgConfirmed i).life = { s.life with cfgTrial := false } ∧
    (s.cfgConfirmed i).flash = (s.writeDir fun d => { d with cfg := i, cfgTrial := false }).flash ∧ (s.cfgConfirmed i).hw = s.hw :=
  by simp only [State.cfgConfirmed, State.writeDir_fields, and_self]

theorem State.cfgConfirm_confirms (hi : s.life.cfgSlot = some i) (ht : s.life.cfgTrial = true) :
    s.cfgConfirm m r false = (s.cfgConfirmed i).raiseFloor.begin m r [] sOk [] := by
  simp only [State.cfgConfirm, hi, ht, Bool.not_true, Bool.false_eq_true, if_false]
  rfl

end

/-- Settles O14: the confirmations by their branches; a record written by what its sector and the other then read as. -/
theorem confirmationAndDirectory : Obligations.ConfirmationAndDirectory := by
  unfold Obligations.ConfirmationAndDirectory
  refine ⟨fun dt m s r i => ⟨fun h hi => ⟨fun ht => ?_, fun ht => ?_, fun ht => ?_⟩, fun h hi => ⟨fun ht => ?_, fun ht => ?_, fun ht => ?_⟩⟩,
    fun s f hok hfw hcfg => ⟨State.dir_writeDir hok hfw hcfg, State.flashWf_writeDir hok, fun k hk => State.flashByte_writeDir hok ?_⟩⟩
  · refine ⟨_, (exec_fwConfirm false h).trans (congrArg _ (State.fwConfirm_confirms m hi ht)), ?_⟩
    obtain ⟨hlife, hflash⟩ := State.boot_begin (((s.tick dt).afterReq m).fwConfirmed i).raiseRollback m r [] sOk []
    obtain ⟨hlife', hflash'⟩ := (((s.tick dt).afterReq m).fwConfirmed i).boot_raiseRollback
    rw [hlife, hflash, hlife', hflash', (State.floors_begin _ _ _ _ _ _).2]
    obtain ⟨hlife', hflash', hhw⟩ := ((s.tick dt).afterReq m).fwConfirmed_fields i
    rw [hlife', hflash', ← hhw]
    exact ⟨rfl, hi, rfl, State.rollback_raiseRollback _, State.keepsStatus_begin _ _ _ _ _ _⟩
  · refine ⟨_, (exec_fwConfirm true h).trans (congrArg _ (State.fwConfirm_late m hi ht)), ?_, State.keepsStatus_begin _ _ _ _ _ _⟩
    simpa [State.failDir] using ht
  · exact (exec_fwConfirm false h).trans (congrArg _ (State.fwConfirm_noTrial m hi ht))
  · refine ⟨_, (exec_configConfirm false h).trans (congrArg _ (State.cfgConfirm_confirms m hi ht)), ?_⟩
    obtain ⟨hlife, hflash⟩ := State.boot_begin (((s.tick dt).afterReq m).cfgConfirmed i).raiseFloor m r [] sOk []
    obtain ⟨hlife', hflash'⟩ := (((s.tick dt).afterReq m).cfgConfirmed i).boot_raiseFloor
    rw [hlife, hflash, hlife', hflash', (State.floors_begin _ _ _ _ _ _).1]
    obtain ⟨hlife', hflash', hhw⟩ := ((s.tick dt).afterReq m).cfgConfirmed_fields i
    rw [hlife', hflash', ← hhw]
    exact ⟨rfl, hi, rfl, State.floor_raiseFloor _, State.keepsStatus_begin _ _ _ _ _ _⟩
  · refine ⟨_, (exec_configConfirm true h).trans (congrArg _ (State.cfgConfirm_late m hi ht)), ?_, State.keepsStatus_begin _ _ _ _ _ _⟩
    simpa [State.failDir] using ht
  · exact (exec_configConfirm false h).trans (congrArg _ (State.cfgConfirm_noTrial m hi ht))
  · have := dirBase_le (dirTarget s.flash)
    omega

end Sys2Proof.Machine

namespace Sys2Proof.Machine

/-! # Activation of firmware and configuration (R484, R485, R487, R488), and O13 -/

/-! ## The version of the image applied -/

/-- What does not write the rest of Heartwood leaves the version last applied. -/
theorem State.cfgVersion_of_sans {s u : State} (h : u.sans (Comp.but [.heart]) = s.sans (Comp.but [.heart])) :
    u.hw.cfgVersion = s.hw.cfgVersion :=
  (congrArg Heart.cfgVersion (Comp.same_of_sans (c := .heart) h (by decide)) :)

@[simp] theorem State.cfgVersion_adoptSeed (s : State) (seed : BitVec 64) (c : IdxCopy) :
    (s.adoptSeed seed c).hw.cfgVersion = s.hw.cfgVersion :=
  (congrArg Heart.cfgVersion (s.hw_lineWrite 0x2000) :)

/-- An index under another seed is no other image. -/
theorem State.cfgVersion_reindex (s : State) (seed : BitVec 64) : (s.reindex seed).hw.cfgVersion = s.hw.cfgVersion := by
  have hdraw : (State.drawSeeds 4 s).2.hw.cfgVersion = s.hw.cfgVersion :=
    State.cfgVersion_of_sans (State.sans_drawSeeds rfl 4 s)
  unfold State.reindex
  dsimp only
  split
  · exact s.cfgVersion_adoptSeed seed _
  · split
    · exact (State.cfgVersion_adoptSeed _ _ _).trans hdraw
    · rw [State.cfgVersion_of_sans (State.sans_raiseTableFull rfl _ _)]
      refine (foldl_keeps _ (fun s : State => s.hw.cfgVersion) (fun s p => ?_) _ _).trans ((State.cfgVersion_adoptSeed _ _ _).trans hdraw)
      split
      · exact State.cfgVersion_of_sans ((State.sans_count rfl _ _ _).trans (State.sans_putNode rfl _ _ _))
      · rfl

/-! ## A hitless image -/

/-- The image named, before what follows from it. -/
def State.nameImage (s : State) (slot : Nat) (new : Image) : State :=
  { s.clampCredits.lineWrite 0x2000 with
    life := { (s.clampCredits.lineWrite 0x2000).life with image := some new, cfgSlot := some slot, cfgTrial := true }
    hw := { (s.clampCredits.lineWrite 0x2000).hw with cfgVersion := some new.version } }

/-- What follows from it, the index apart. -/
def State.fitImage (s : State) (keep : CanopyKeep) (new : Image) : State :=
  let s := State.countSkipped s new
  let s := ((s.dropWorldKeys new).loadKeys false).takeLocal false
  let s := s.replaceAlmanac.clampCredits
  let s := (s.shadowGates keep).dropPins
  let s := feAll.foldl State.clampCentre s
  let s := s.restoreGroups (some keep)
  s.table.nodes.foldl (fun (s : State) (p : Nat × Node) => s.clampNode p.1 p.2) s

theorem State.applyHitless_eq (s : State) (slot : Nat) (new : Image) : s.applyHitless slot new =
    (((s.nameImage slot new).fitImage s.clampCredits.canopyKeep new).reindex
      (BitVec.ofNat 64 ((s.nameImage slot new).fitImage s.clampCredits.canopyKeep new).cfgSeed)).touch .canopy := rfl

theorem State.cfgVersion_fitImage (s : State) (keep : CanopyKeep) (new : Image) : (s.fitImage keep new).hw.cfgVersion = s.hw.cfgVersion := by
  refine State.cfgVersion_of_sans ?_
  simp +decide only [State.fitImage, State.sans_foldl, State.sans_clampNode, State.sans_restoreGroups, State.sans_clampCentre, State.sans_dropPins,
    State.sans_shadowGates, State.sans_clampCredits, State.sans_replaceAlmanac, State.sans_takeLocal, State.sans_loadKeys,
    State.sans_dropWorldKeys, State.sans_countSkipped, implies_true]

theorem State.boot_fitImage (s : State) (keep : CanopyKeep) (new : Image) : s.SameBoot (s.fitImage keep new) := by
  unfold State.fitImage
  extract_lets s₁ s₂ s₃ s₄ s₅ s₆
  have h₄ : s.SameBoot s₄ := by simp [s₄, s₃, s₂, s₁]
  have h₆ : s₄.SameBoot s₆ := State.SameBoot.trans (t := s₅) (foldl_boot (fun s f => by simp) _ _) (State.boot_restoreGroups _ _)
  exact (h₄.trans h₆).trans (foldl_boot (fun s p => by simp) _ _)

theorem State.applyHitless_fields (s : State) (slot : Nat) (new : Image) :
    (s.applyHitless slot new).life = { s.life with image := some new, cfgSlot := some slot, cfgTrial := true } ∧
      (s.applyHitless slot new).hw.cfgVersion = some new.version := by
  rw [State.applyHitless_eq]
  constructor
  · have hnamed : (s.nameImage slot new).life = { s.life with image := some new, cfgSlot := some slot, cfgTrial := true } := by
      simp [State.nameImage]
    obtain ⟨hfit, -⟩ := (s.nameImage slot new).boot_fitImage s.clampCredits.canopyKeep new
    simp [hfit, hnamed]
  · rw [State.cfgVersion_of_sans (State.sans_touch rfl _ _), State.cfgVersion_reindex, State.cfgVersion_fitImage]
    rfl

theorem State.applyHitless_names (s : State) (slot : Nat) (new : Image) :
    (s.applyHitless slot new).life.pause = s.life.pause ∧ (s.applyHitless slot new).life.image = some new ∧
      (s.applyHitless slot new).life.cfgSlot = some slot ∧ (s.applyHitless slot new).life.cfgTrial = true ∧
      (s.applyHitless slot new).hw.cfgVersion = some new.version := by
  obtain ⟨hlife, hversion⟩ := s.applyHitless_fields slot new
  rw [hlife]
  exact ⟨rfl, rfl, rfl, rfl, hversion⟩

/-! ## A pause, a restart -/

@[simp] theorem State.life_pauseIn (s : State) (n : Nat) : (s.pauseIn n).life = { s.life with pause := some (s.clk + n) } :=
  foldl_keeps _ State.life (fun _ _ => by rfl) _ _

@[simp] theorem State.flash_pauseIn (s : State) (n : Nat) : (s.pauseIn n).flash = s.flash :=
  foldl_keeps _ State.flash (fun _ _ => by rfl) _ _

@[simp] theorem State.mb_pauseIn (s : State) (n m : Nat) : (s.pauseIn n).mb m = s.mb m :=
  foldl_keeps _ (fun s : State => s.mb m) (fun _ _ => by rfl) _ _

/-- A part that restarts for the host's command, with its flash as it was. -/
theorem State.restartBy_fields (s : State) :
    (s.restartBy 1).life.mode = .reset ∧ (s.restartBy 1).life.restartCause = 1 ∧ (s.restartBy 1).flash = s.flash := ⟨rfl, rfl, rfl⟩

/-! ## FW-ACTIVATE -/

theorem exec_fwActivate {dt : Nat} {m : Mbox} {s : State} {r : Request} (run : FwRun) (h : (s.tick dt).runsLen m 0x0214 1 r) :
    exec (.fwActivate dt m run) s = .next (((s.tick dt).afterReq m).fwActivate m r run.late run.prep) :=
  congrArg Host.Outcome.next (State.shortCmd_of_runsLen h _)

theorem exec_configActivate {dt : Nat} {m : Mbox} {s : State} {r : Request} (late : Bool) (h : (s.tick dt).runsLen m 0x0204 1 r) :
    exec (.configActivate dt m late) s = .next (((s.tick dt).afterReq m).cfgActivate m r late) :=
  congrArg Host.Outcome.next (State.shortCmd_of_runsLen h _)

section
variable {s : State} {r : Request} {late : Bool} {prep : Nat} (m : Nat)

/-- The slot a request names. -/
def namedSlot (r : Request) : Nat := beField r.payload 0 1

theorem State.fwActivate_range (hi : 1 < namedSlot r) : s.fwActivate m r late prep = s.respond m r sRange [] := if_pos hi

/-- The slot is not the one in use, stands checked, and no trial stands. -/
def State.fwReady (s : State) (i : Nat) : Prop := s.life.fwSlot ≠ some i ∧ s.life.fwChecked.getD i false = true ∧ s.life.fwTrial = false

theorem State.fwActivate_refused (hi : namedSlot r ≤ 1)
    (h : s.life.fwSlot = some (namedSlot r) ∨ s.life.fwChecked.getD (namedSlot r) false = false ∨ s.life.fwTrial = true) :
    s.fwActivate m r late prep = s.respond m r sRefused [] :=
  (if_neg (Nat.not_lt.2 hi)).trans (if_pos (h.imp_right (Or.imp_left (by simp [namedSlot]))))

/-- The first 4 224 octets of a slot: a firmware image's header. -/
def State.fwHead (s : State) (i : Nat) : Octets := flashRange s.flash (fwSlotBase i) 4224

/-- Whether the firmware that runs hands over to the one in a slot. -/
def State.handsOff (s : State) (i : Nat) : Bool := handOff s.life.fwHeader (s.fwHead i)

/-- A part that answers, and then restarts. -/
def State.answered (s : State) (m : Nat) (r : Request) (first : Octets) (c : Ctr) : State :=
  ((s.respond m r sAccepted first).sendLast).countKept c .device

/-- It keeps the record. -/
theorem State.flash_answered (s : State) (first : Octets) (c : Ctr) : (s.answered m r first c).flash = s.flash := by
  rw [State.answered, (State.boot_countKept _ _ _).2, (State.boot_sendLast _).2, (State.boot_respond _ _ _ _ _).2]

/-- The octet that tells a pause from a restart. -/
def modeOctet (hitless : Bool) : Octets := toBe 1 (if hitless then 0 else 1)

/-- The directory names a firmware slot on trial. -/
def State.nameFw (s : State) (i : Nat) : State := s.writeDir fun d => { d with fw := i, fwTrial := true }

/-- A slot that is ready is judged again, and then named. -/
theorem State.fwActivate_ready (hi : namedSlot r ≤ 1) (hready : s.fwReady (namedSlot r)) : s.fwActivate m r late prep =
    if (s.checkFw (namedSlot r)).1 ≠ 0 then s.begin m r (modeOctet (s.handsOff (namedSlot r))) sCheck (toBe 1 (s.checkFw (namedSlot r)).1)
    else if late then s.failDir.begin m r (modeOctet (s.handsOff (namedSlot r))) sFlash []
    else if s.handsOff (namedSlot r) then
      ((s.nameFw (namedSlot r)).begin m r (modeOctet (s.handsOff (namedSlot r))) sOk
        (((s.fwHead (namedSlot r)).drop 8).take 4).reverse).pauseIn (prepTicks prep)
    else ((s.nameFw (namedSlot r)).answered m r (modeOctet (s.handsOff (namedSlot r))) .fwActivate).restartBy 1 := by
  obtain ⟨hslot, hchecked, htrial⟩ := hready
  have hfree : ¬ (s.life.fwSlot = some (namedSlot r) ∨ (!s.life.fwChecked.getD (namedSlot r) false) = true ∨ s.life.fwTrial = true) := by
    simp only [hslot, hchecked, htrial, Bool.not_true, Bool.false_eq_true, or_self, not_false_eq_true]
  exact (if_neg (Nat.not_lt.2 hi)).trans (if_neg hfree)

theorem State.fwActivate_fails (hi : namedSlot r ≤ 1) (hready : s.fwReady (namedSlot r)) (hcheck : (s.checkFw (namedSlot r)).1 ≠ 0) :
    s.fwActivate m r late prep =
      s.begin m r (modeOctet (s.handsOff (namedSlot r))) sCheck (toBe 1 (s.checkFw (namedSlot r)).1) :=
  (State.fwActivate_ready m hi hready).trans (if_pos hcheck)

theorem State.fwActivate_late (hi : namedSlot r ≤ 1) (hready : s.fwReady (namedSlot r)) (hcheck : (s.checkFw (namedSlot r)).1 = 0) :
    s.fwActivate m r true prep = s.failDir.begin m r (modeOctet (s.handsOff (namedSlot r))) sFlash [] :=
  (State.fwActivate_ready m hi hready).trans ((if_neg (not_not.2 hcheck)).trans (if_pos rfl))

theorem State.fwActivate_pauses (hi : namedSlot r ≤ 1) (hready : s.fwReady (namedSlot r)) (hcheck : (s.checkFw (namedSlot r)).1 = 0)
    (hoff : s.handsOff (namedSlot r) = true) : s.fwActivate m r false prep =
      ((s.nameFw (namedSlot r)).begin m r (modeOctet (s.handsOff (namedSlot r))) sOk
        (((s.fwHead (namedSlot r)).drop 8).take 4).reverse).pauseIn (prepTicks prep) :=
  (State.fwActivate_ready m hi hready).trans
    ((if_neg (not_not.2 hcheck)).trans ((if_neg Bool.false_ne_true).trans (if_pos hoff)))

theorem State.fwActivate_restarts (hi : namedSlot r ≤ 1) (hready : s.fwReady (namedSlot r)) (hcheck : (s.checkFw (namedSlot r)).1 = 0)
    (hoff : s.handsOff (namedSlot r) = false) : s.fwActivate m r false prep =
      ((s.nameFw (namedSlot r)).answered m r (modeOctet (s.handsOff (namedSlot r))) .fwActivate).restartBy 1 :=
  (State.fwActivate_ready m hi hready).trans
    ((if_neg (not_not.2 hcheck)).trans ((if_neg Bool.false_ne_true).trans (if_neg (Bool.eq_false_iff.1 hoff))))

/-- A directory record that is written too late leaves mode and pause. -/
theorem State.flashFails_begin (s : State) (first : Octets) : (s.failDir.begin m r first sFlash []).life.mode = s.life.mode ∧
    (s.failDir.begin m r first sFlash []).life.pause = s.life.pause ∧ (s.failDir.begin m r first sFlash []).KeepsStatus m r sFlash := by
  refine ⟨?_, ?_, State.keepsStatus_begin _ _ _ _ _ _⟩ <;> simp [State.failDir]

/-- A pause begins once the directory names the slot; the rest of the life cycle runs on. -/
theorem State.pauseIn_fields {s v : State} (hlife : v.life = s.life) (hclk : v.clk = s.clk) (first o : Octets) (n : Nat) :
    ((v.begin m r first sOk o).pauseIn n).life = { s.life with pause := some (s.clk + n) } ∧
      ((v.begin m r first sOk o).pauseIn n).flash = v.flash := by
  obtain ⟨hboot, hflash⟩ := v.boot_begin m r first sOk o
  exact ⟨by rw [State.life_pauseIn, State.clk_begin, hboot, hlife, hclk], (State.flash_pauseIn _ _).trans hflash⟩

theorem State.life_nameFw (s : State) (i : Nat) : (s.nameFw i).life = s.life := (s.writeDir_fields _).1

theorem State.clk_nameFw (s : State) (i : Nat) : (s.nameFw i).clk = s.clk := (s.writeDir_fields _).2.2

/-- What an activation with a pause leaves: the record, the pause, the slot in use and the mailbox's operation. -/
theorem State.fwActivate_pause_fields (hi : namedSlot r ≤ 1) (hready : s.fwReady (namedSlot r)) (hcheck : (s.checkFw (namedSlot r)).1 = 0)
    (hoff : s.handsOff (namedSlot r) = true) (hop : r.opcode = 0x0214) :
    (s.fwActivate m r false prep).flash = (s.nameFw (namedSlot r)).flash ∧
      (s.fwActivate m r false prep).life.pause = some (s.clk + prepTicks prep) ∧ (s.fwActivate m r false prep).life.fwSlot = s.life.fwSlot ∧
      ∃ b, ((s.fwActivate m r false prep).mb m).busy = some b ∧ b.req = r ∧ b.status = sOk ∧ b.cls = .device := by
  obtain ⟨hlife, hflash⟩ := State.pauseIn_fields (r := r) m (s.life_nameFw (namedSlot r)) (s.clk_nameFw (namedSlot r))
    (modeOctet (s.handsOff (namedSlot r))) (((s.fwHead (namedSlot r)).drop 8).take 4).reverse (prepTicks prep)
  rw [State.fwActivate_pauses m hi hready hcheck hoff, hlife, State.mb_pauseIn]
  exact ⟨hflash, rfl, rfl, _, State.busy_begin _ _ _ _ _ _, rfl, rfl, by rw [hop]; rfl⟩

/-! ## CONFIG-ACTIVATE -/

variable {old new : Image}

theorem State.cfgActivate_bare (hold : s.life.image = none) : s.cfgActivate m r late = s.respond m r sState [] := by
  simp only [State.cfgActivate, hold]

theorem State.cfgActivate_range (hi : 1 < namedSlot r) (hold : s.life.image = some old) :
    s.cfgActivate m r late = s.respond m r sRange [] := by
  simp only [State.cfgActivate, hold]
  exact if_pos hi

theorem State.cfgActivate_refused (hi : namedSlot r ≤ 1) (hold : s.life.image = some old)
    (h : s.life.cfgSlot = some (namedSlot r) ∨ s.life.cfgChecked.getD (namedSlot r) false = false ∨ s.life.cfgTrial = true) :
    s.cfgActivate m r late = s.respond m r sRefused [] := by
  simp only [State.cfgActivate, hold]
  exact (if_neg (Nat.not_lt.2 hi)).trans (if_pos (h.imp_right (Or.imp_left (by simp [namedSlot]))))

/-- The slot is not the one in use, stands checked, and no trial stands. -/
def State.cfgReady (s : State) (i : Nat) : Prop := s.life.cfgSlot ≠ some i ∧ s.life.cfgChecked.getD i false = true ∧ s.life.cfgTrial = false

theorem State.cfgReady.free {i : Nat} (h : s.cfgReady i) :
    ¬ (s.life.cfgSlot = some i ∨ (!s.life.cfgChecked.getD i false) = true ∨ s.life.cfgTrial = true) := by
  obtain ⟨hslot, hchecked, htrial⟩ := h
  simp only [hslot, hchecked, htrial, Bool.not_true, Bool.false_eq_true, or_self, not_false_eq_true]

theorem State.cfgActivate_fails {f : ImgFail} (hi : namedSlot r ≤ 1) (hold : s.life.image = some old) (hready : s.cfgReady (namedSlot r))
    (hcheck : s.checkSlot (namedSlot r) = .error f) : s.cfgActivate m r late = s.begin m r [1] sCheck (toBe 1 f.reason) := by
  have hfree := hready.free
  unfold namedSlot at hi hfree hcheck
  simp only [State.cfgActivate, hold, if_neg (Nat.not_lt.2 hi), if_neg hfree, hcheck]
  rfl

/-- The directory names a configuration slot on trial. -/
def State.nameCfg (s : State) (i : Nat) : State := s.writeDir fun d => { d with cfg := i, cfgTrial := true }

theorem State.life_nameCfg (s : State) (i : Nat) : (s.nameCfg i).life = s.life := (s.writeDir_fields _).1

theorem State.clk_nameCfg (s : State) (i : Nat) : (s.nameCfg i).clk = s.clk := (s.writeDir_fields _).2.2

/-- A slot that still passes is named. -/
theorem State.cfgActivate_passes (hi : namedSlot r ≤ 1) (hold : s.life.image = some old) (hready : s.cfgReady (namedSlot r))
    (hcheck : s.checkSlot (namedSlot r) = .ok new) : s.cfgActivate m r late =
      if late then s.failDir.begin m r (modeOctet (hitlessImage old new)) sFlash []
      else if hitlessImage old new then
        (((s.nameCfg (namedSlot r)).begin m r (modeOctet (hitlessImage old new)) sOk []).pauseIn 0).applyHitless (namedSlot r) new
      else (((s.nameCfg (namedSlot r)).answered m r (modeOctet (hitlessImage old new)) .cfgActivate).raise 0x1103 none
        (toBe 1 (namedSlot r) ++ toBe 4 new.version.toNat ++ toBe 1 1)).restartBy 1 := by
  have hfree := hready.free
  unfold namedSlot at *
  simp only [State.cfgActivate, hold, if_neg (Nat.not_lt.2 hi), if_neg hfree, hcheck, modeOctet, State.nameCfg, State.answered]

theorem State.cfgActivate_hitless_fields (hi : namedSlot r ≤ 1) (hold : s.life.image = some old) (hready : s.cfgReady (namedSlot r))
    (hcheck : s.checkSlot (namedSlot r) = .ok new) (hhitless : hitlessImage old new = true) :
    (s.cfgActivate m r false).life.pause = some s.clk ∧ (s.cfgActivate m r false).life.image = some new ∧
      (s.cfgActivate m r false).life.cfgSlot = some (namedSlot r) ∧ (s.cfgActivate m r false).life.cfgTrial = true ∧
      (s.cfgActivate m r false).hw.cfgVersion = some new.version := by
  rw [State.cfgActivate_passes m hi hold hready hcheck, if_neg Bool.false_ne_true, if_pos hhitless]
  obtain ⟨hpause, hnames⟩ :=
    State.applyHitless_names (((s.nameCfg (namedSlot r)).begin m r (modeOctet (hitlessImage old new)) sOk []).pauseIn 0) (namedSlot r) new
  refine ⟨hpause.trans ?_, hnames⟩
  rw [(State.pauseIn_fields m (s.life_nameCfg (namedSlot r)) (s.clk_nameCfg (namedSlot r)) _ _ _).1, Nat.add_zero]

theorem State.cfgActivate_restart_fields (hi : namedSlot r ≤ 1) (hold : s.life.image = some old) (hready : s.cfgReady (namedSlot r))
    (hcheck : s.checkSlot (namedSlot r) = .ok new) (hhitless : hitlessImage old new = false) :
    (s.cfgActivate m r false).life.mode = .reset ∧ (s.cfgActivate m r false).life.restartCause = 1 ∧
      (s.cfgActivate m r false).flash = (s.nameCfg (namedSlot r)).flash := by
  rw [State.cfgActivate_passes m hi hold hready hcheck, if_neg Bool.false_ne_true, if_neg (Bool.eq_false_iff.1 hhitless)]
  obtain ⟨hmode, hcause, hflash⟩ := State.restartBy_fields (((s.nameCfg (namedSlot r)).answered m r (modeOctet (hitlessImage old new))
    .cfgActivate).raise 0x1103 none (toBe 1 (namedSlot r) ++ toBe 4 new.version.toNat ++ toBe 1 1))
  refine ⟨hmode, hcause, hflash.trans ?_⟩
  simp only [State.raise_fields, State.flash_answered]

end

/-- Settles O13: each activation by its branches, and by what a pause, a restart and a hitless image leave. -/
theorem activation : Obligations.Activation := by
  unfold Obligations.Activation
  intro dt prep m late s r old new t i h flashFails
  refine ⟨fun hrun hi => ?_, fun hrun hold => ?_, fun hrun hi hold => ?_, fun hrun hi => ⟨?_, ?_, ?_, fun href => ?_⟩,
    fun hrun hi hold => ⟨?_, ?_, ?_, fun href => ?_⟩⟩
  · exact (exec_fwActivate _ hrun).trans (congrArg _ (State.fwActivate_range m hi))
  · exact (exec_configActivate _ hrun).trans (congrArg _ (State.cfgActivate_bare m hold))
  · exact (exec_configActivate _ hrun).trans (congrArg _ (State.cfgActivate_range m hi hold))
  · intro hslot hchecked htrial hcheck
    exact ⟨_, (exec_fwActivate _ hrun).trans (congrArg _ (State.fwActivate_late m hi ⟨hslot, hchecked, htrial⟩ hcheck)), State.flashFails_begin m t _⟩
  · intro hslot hchecked htrial hcheck
    have hready : t.fwReady i := ⟨hslot, hchecked, htrial⟩
    cases hoff : t.handsOff i with
    | true =>
      obtain ⟨hflash, hleft⟩ := State.fwActivate_pause_fields (prep := prep) m hi hready hcheck hoff (State.opcode_of_runsLen hrun)
      exact ⟨_, exec_fwActivate _ hrun, hflash, fun _ => hleft, fun hno => absurd (hoff.symm.trans hno) (by decide)⟩
    | false =>
      obtain ⟨hmode, hcause, hflash⟩ := State.restartBy_fields ((t.nameFw i).answered m r (modeOctet (t.handsOff i)) .fwActivate)
      exact ⟨_, (exec_fwActivate _ hrun).trans (congrArg _ (State.fwActivate_restarts m hi hready hcheck hoff)),
        hflash.trans (State.flash_answered m _ _ _), fun hyes => absurd (hoff.symm.trans hyes) (by decide), fun _ => ⟨hmode, hcause⟩⟩
  · intro hslot hchecked htrial hcheck
    exact (exec_fwActivate _ hrun).trans (congrArg _ (State.fwActivate_fails m hi ⟨hslot, hchecked, htrial⟩ hcheck))
  · exact (exec_fwActivate _ hrun).trans (congrArg _ (State.fwActivate_refused m hi href))
  · intro hslot hchecked htrial hcheck
    have hpasses := State.cfgActivate_passes (late := true) m hi hold ⟨hslot, hchecked, htrial⟩ hcheck
    exact ⟨_, (exec_configActivate _ hrun).trans (congrArg _ (hpasses.trans (if_pos rfl))), State.flashFails_begin m t _⟩
  · intro hslot hchecked htrial hcheck
    have hready : t.cfgReady i := ⟨hslot, hchecked, htrial⟩
    exact ⟨_, exec_configActivate _ hrun, State.cfgActivate_hitless_fields m hi hold hready hcheck,
      State.cfgActivate_restart_fields m hi hold hready hcheck⟩
  · intro f hslot hchecked htrial hcheck
    exact (exec_configActivate _ hrun).trans (congrArg _ (State.cfgActivate_fails m hi hold ⟨hslot, hchecked, htrial⟩ hcheck))
  · exact (exec_configActivate _ hrun).trans (congrArg _ (State.cfgActivate_refused m hi hold href))

end Sys2Proof.Machine
